-- ==== Sys2Proof/Word.lean ====
section
/-! DEFINITION. The words of the GLS-4640 and the one keyed container the model uses for everything addressed. -/

namespace Sys2Proof

/-- A byte of a frame, an image or a key. -/
abbrev Byte := BitVec 8

/-- A 16-bit field: TAG, EPOCH, an instance. -/
abbrev Half := BitVec 16

/-- A 32-bit word of a packet or of a parameter value (R31, R51). -/
abbrev Word := BitVec 32

/-- A 64-bit word: a GTF, a counter, a device ID. -/
abbrev DWord := BitVec 64

/-- A map from `Nat` keys, held as pairs in strictly rising key order. Everything the spec addresses
(parameters, counters, registers, slots) is one of these, in this one canonical form. -/
abbrev AMap (β : Type) := List (Nat × β)

/-- The value at a key, if the map lists one. -/
def AMap.get? {β : Type} : AMap β → Nat → Option β
  | [], _ => none
  | (k, v) :: m, key => if k = key then some v else AMap.get? m key

/-- The value at a key, or `d` where the map lists none. -/
def AMap.getD {β : Type} (m : AMap β) (key : Nat) (d : β) : β :=
  (m.get? key).getD d

/-- Write a value at a key. -/
def AMap.set {β : Type} : AMap β → Nat → β → AMap β
  | [], key, x => [(key, x)]
  | (k, v) :: m, key, x =>
    if key < k then (key, x) :: (k, v) :: m
    else if key = k then (key, x) :: m
    else (k, v) :: AMap.set m key x

/-- Remove a key. -/
def AMap.erase {β : Type} : AMap β → Nat → AMap β
  | [], _ => []
  | (k, v) :: m, key => if k = key then m else (k, v) :: AMap.erase m key

/-- Write a value at a key, where `d` is what an unlisted key reads as: writing `d` unlists the key. -/
def AMap.put {β : Type} [DecidableEq β] (d : β) (m : AMap β) (key : Nat) (x : β) : AMap β :=
  if x = d then m.erase key else m.set key x

/-- Every key of `m` is above `lo`, and the keys rise strictly. -/
def AMap.above {β : Type} : Nat → AMap β → Bool
  | _, [] => true
  | lo, (k, _) :: m => decide (lo < k) && AMap.above k m

/-- The canonical form: keys rise strictly. -/
def AMap.wf {β : Type} : AMap β → Bool
  | [] => true
  | (k, _) :: m => AMap.above k m

/-- Change the value at a key, starting from `d` where the map lists none. -/
def AMap.modify {β : Type} (m : AMap β) (key : Nat) (d : β) (f : β → β) : AMap β :=
  m.set key (f (m.getD key d))

/-- The keys the map lists. -/
def AMap.keys {β : Type} (m : AMap β) : List Nat := m.map Prod.fst

end Sys2Proof
end

