-- ==== Sys2Proof/Syntax.lean ====
section
/-! DEFINITION. The commands the module takes: one constructor for each of the 214 rows of spec/opcode_table.json,
with the operands each carries. The first operand of every command, `dt`, is the time in ns of the time base that has
passed since the command before it. -/

namespace Sys2Proof

/-- A UDP or TCP peer: an IPv6 or IPv4-mapped address and a port (R35). -/
structure Peer where
  addr : Nat
  port : Nat
  deriving DecidableEq, Repr

/-- The carriage a packet came on (02, Carriages). A host-link packet names its command ring 48 to 55; a UDP packet its
Ethernet port and peer; a TCP packet its connection 0 to 63. -/
inductive Carriage where
  | host (ring : Nat)
  | udp4 (port : Nat) (peer : Peer)
  | udp6 (port : Nat) (peer : Peer)
  | uart
  | tcp (conn : Nat)
  deriving DecidableEq, Repr

/-- A word of a dual-clock FIFO: 64 data bits, 6 tag bits, a poison bit and a parity bit (R26, R394). -/
structure FifoWord where
  data   : DWord
  tag    : BitVec 6
  poison : Bool
  parity : Bool
  deriving DecidableEq, Repr

/-- What the host reads, at an offset: the low half of a live-window value, the whole value in one 8-byte read (R71), or a register of
BAR0 (R69). -/
inductive HostRead where
  | low (offset : Nat)
  | whole (offset : Nat)
  | bar0 (offset : Nat)
  deriving DecidableEq, Repr

/-- A request packet that has passed steps 1 to 3 of R39 (R31). `payload` is w4 and on, without tag and CRC; `rsv` is FLAGS
bits 15:11 and `status` STATUS as received, which the tag covers (R33). -/
structure Req where
  carriage : Carriage
  tag      : Half
  auth     : Bool
  noreply  : Bool
  urgent   : Bool
  session  : Nat
  seq      : Word
  epoch    : Half
  authTag  : List Byte
  payload  : List Word
  rsv      : Nat := 0
  status   : Half := 0
  deriving DecidableEq, Repr

/-- One fetched descriptor of a command ring: BUF_LEN and the packet's bytes (R69, R70). -/
structure FetchedPacket where
  bufLen : Nat
  bytes  : List Byte
  deriving DecidableEq, Repr

/-- A transmit descriptor as the host wrote it, with the bytes of its buffer (R117). -/
structure TxDesc where
  data   : List Byte
  bufLen : Nat
  port   : Nat
  tsReq  : Bool
  tso    : Bool
  eop    : Bool
  mss    : Nat
  hdrLen : Nat
  deriving DecidableEq, Repr

/-- What the module finds behind a doorbell: command packets (rings 48–55), transmit descriptors (rings 32–47), or
the sizes of the empty buffers newly posted (receive, reply and notification rings). -/
inductive RingData where
  | packets (l : List FetchedPacket)
  | sends (l : List TxDesc)
  | buffers (lens : List Nat)
  deriving DecidableEq, Repr

/-- A frame as it arrives at a port, FCS included. -/
structure RxFrame where
  bytes     : List Byte
  symbolErr : Bool
  oddBits   : Bool
  deriving DecidableEq, Repr

/-- An IP fragment (R113); `head` are the Ethernet and IP header of its frame, without extension headers. -/
structure Fragment where
  port   : Nat
  v6     : Bool
  src    : Nat
  dst    : Nat
  ident  : Nat
  proto  : Nat
  offset : Nat
  more   : Bool
  head   : List Byte
  data   : List Byte
  deriving DecidableEq, Repr

/-- PHY status registers as read over MDIO (R106). `speed` is coded as PRT.LINK_STATUS bits 3:1. -/
structure PhyStatus where
  up       : Bool
  speed    : Nat
  anDone   : Bool
  halfOnly : Bool
  deriving DecidableEq, Repr

/-- The fields of a PTP Announce that R80, R82, R83, R85 and R95 use. `inaccuracy` is totalTimeInaccuracy of the IEEE_C37_238 TLV in
ns, `shortId` the grandmasterID in it. -/
structure Announce where
  clockIdentity   : Nat
  portIdentity    : Nat
  gmIdentity      : Nat
  priority1       : Nat
  clockClass      : Nat
  clockAccuracy   : Nat
  variance        : Nat
  priority2       : Nat
  stepsRemoved    : Nat
  timeSource      : Nat
  inaccuracy      : Option Nat
  shortId         : Nat
  utcOffset       : Int
  utcOffsetValid  : Bool
  leap59          : Bool
  leap61          : Bool
  deriving DecidableEq, Repr

/-- When a PTP message came: the instant of its delimiter at the lands, and the peer delay of the link in ns, which the Pdelay
exchange has measured (R78, R82, R97). -/
structure PtpHeard where
  stamp : Nat
  delay : Int
  deriving DecidableEq, Repr

/-- A PTP message from its header on, the port that received it, and the instant of its delimiter at the lands (R82, R97). -/
structure PtpRx where
  port  : Nat
  msg   : List Byte
  stamp : Nat
  deriving DecidableEq, Repr

/-- A C37.118.2 frame with its port, its arrival and the station it came from (R127, R129). -/
structure C37Rx where
  port    : Nat
  arrival : Nat
  station : Nat
  bytes   : List Byte
  deriving DecidableEq, Repr

/-- An IRIG-B frame (R86): the digit c of its format B00c, the stamp of its on-time edge, and its 100 elements by index count; a
position identifier carries no bit. -/
structure IrigFrame where
  format : Nat
  edge   : Nat
  bits   : List Bool
  deriving DecidableEq, Repr

/-- What the classifier takes of a frame (R112, R127), byte by byte: an OCF datagram's payload (R137); a C37.118.2 frame with the
station it comes from, as an IPv6 or IPv4-mapped address (R129); a sampled-value or GOOSE frame from its APPID on (R133, R135). -/
inductive IngFrame where
  | ocf (bytes : List Byte)
  | c37 (station : Nat) (bytes : List Byte)
  | sv (bytes : List Byte)
  | goose (bytes : List Byte)
  deriving DecidableEq, Repr

/-- Which custody step it is (R239): the slot whose final edition an ALIGNED point takes; a slot that never existed, and
whether a step of the clock took it (R248); or the start of a step of a LOCAL, SV or PULSE point. -/
inductive StepInput where
  | aligned (slot : Nat)
  | lost (slot : Nat) (byStep : Bool)
  | window (start : Nat)
  deriving DecidableEq, Repr

/-- The 214 commands. -/
inductive Instr where
  | nop (dt : Nat) (q : Req)
  | identify (dt : Nat) (q : Req)
  | getState (dt : Nat) (q : Req)
  | setState (dt : Nat) (q : Req)
  | openSessionPhase1 (dt : Nat) (q : Req)
  | openSessionPhase2 (dt : Nat) (q : Req)
  | sessionPhase2Timeout (dt : Nat) (session : Nat)
  | closeSession (dt : Nat) (q : Req)
  | sessionIdleTimeout (dt : Nat) (session : Nat)
  | echoTime (dt : Nat) (q : Req)
  | readParam (dt : Nat) (q : Req)
  | writeParam (dt : Nat) (q : Req)
  | writeLive (dt : Nat) (q : Req)
  | readBatch (dt : Nat) (q : Req)
  | writeBatch (dt : Nat) (q : Req)
  | commitMaquette (dt : Nat) (q : Req)
  | commitCheckDone (dt : Nat)
  | commitFlashStored (dt : Nat)
  | commitBoundary (dt : Nat)
  | discardMaquette (dt : Nat) (q : Req)
  | diffMaquette (dt : Nat) (q : Req)
  | readConflicts (dt : Nat) (q : Req)
  | configConsolidationStart (dt : Nat)
  | configConsolidationDone (dt : Nat)
  | readCounters (dt : Nat) (q : Req)
  | peekCounters (dt : Nat) (q : Req)
  | readStatusBlock (dt : Nat) (q : Req)
  | packetBadFraming (dt : Nat) (carriage : Carriage) (bufLen : Nat) (bytes : List Byte)
  | uartFrameBad (dt : Nat) (frame : List Byte)
  | tcpConnectionRequest (dt : Nat) (port tcpPort : Nat) (peer : Peer)
  | tcpConnectionIdleClose (dt : Nat) (conn : Nat)
  | replyWaitTimeout (dt : Nat) (ring : Nat)
  | doorbellWrite (dt : Nat) (ring : Nat) (index : Nat) (data : RingData)
  | ringCtlWrite (dt : Nat) (ring : Nat) (value : Word)
  | bar0RegisterWrite (dt : Nat) (offset : Nat) (value : Word)
  | liveWindowLowRead (dt : Nat) (requester : Nat) (read : HostRead)
  | liveWindowHighRead (dt : Nat) (requester : Nat) (offset : Nat)
  | liveWindowWrite (dt : Nat) (offset : Nat) (value : DWord)
  | pePerstNAssert (dt : Nat)
  | pcieL1ExitWake (dt : Nat)
  | frameReceived (dt : Nat) (port : Nat) (frame : RxFrame)
  | rxFrameSteer (dt : Nat) (port : Nat)
  | fragmentReceived (dt : Nat) (frag : Fragment)
  | reassemblyTimeout (dt : Nat)
  | phyStatusPoll (dt : Nat) (port : Nat) (status : PhyStatus)
  | linkDown (dt : Nat) (port : Nat)
  | linkUp (dt : Nat) (port : Nat) (status : PhyStatus)
  | txSend (dt : Nat) (ring : Nat)
  | txFrame (dt : Nat) (port : Nat)
  | downshiftWindow (dt : Nat) (port : Nat) (rxBits txBits : Nat)
  | downshiftLinkTimeout (dt : Nat) (port : Nat)
  | wakeFrame (dt : Nat) (port : Nat) (bytes : List Byte)
  | ptpAnnounceReceived (dt : Nat) (port : Nat) (msg : List Byte)
  | ptpSyncReceived (dt : Nat) (port : Nat) (msg : List Byte) (heard : PtpHeard)
  | ptpPdelayReqReceived (dt : Nat) (rx : PtpRx)
  | ptpAnnounceInterval (dt : Nat)
  | ptpAnnounceTimeout (dt : Nat) (port : Nat) (sync : Bool)
  | irigFrameReceived (dt : Nat) (f : IrigFrame)
  | irigFrameMissing (dt : Nat)
  | ppsInEdge (dt : Nat) (stamp : Nat)
  | ppsInMissing (dt : Nat)
  | referenceQualified (dt : Nat) (kind : Nat)
  | referenceDisqualified (dt : Nat) (kind : Nat)
  | referenceRevert (dt : Nat)
  | tqChange (dt : Nat)
  | timeQualityHoldEnd (dt : Nat)
  | ppsOutSecond (dt : Nat)
  | ref10mLoss (dt : Nat)
  | ref10mRestore (dt : Nat)
  | leapSecondApply (dt : Nat)
  | plinthTimeSet (dt : Nat)
  | ingressFrame (dt : Nat) (port : Nat) (arrival : Nat) (frame : IngFrame)
  | c37CfgReceived (dt : Nat) (rx : C37Rx)
  | cfgRetryTimer (dt : Nat) (src : Nat)
  | c37ReconnectTimer (dt : Nat) (src : Nat) (connected : Bool)
  | sourceDead (dt : Nat) (src : Nat)
  | sourceDefine (dt : Nat) (q : Req)
  | sourceRemove (dt : Nat) (q : Req)
  | sourceQuery (dt : Nat) (q : Req)
  | catalogueRead (dt : Nat) (q : Req)
  | slotOpen (dt : Nat) (pod slot : Nat)
  | slotCloseAtNominal (dt : Nat) (pod slot : Nat)
  | slotDeadlineTick (dt : Nat) (pod slot : Nat)
  | revBatchExpiry (dt : Nat) (pod slot : Nat)
  | revHorizonExpiry (dt : Nat) (pod slot : Nat)
  | slotRelease (dt : Nat) (pod slot : Nat)
  | deepWaitEditionReady (dt : Nat) (pod slot : Nat)
  | oafLayoutRepeat (dt : Nat) (pod : Nat)
  | c37OutputCommand (dt : Nat) (dest : Nat) (peer : Peer) (command : Nat)
  | podReadSlot (dt : Nat) (q : Req)
  | podSubscribe (dt : Nat) (q : Req)
  | fdEvaluate (dt : Nat) (det slot : Nat)
  | mtSlotRead (dt : Nat) (tracker : Nat)
  | mtExtractionStart (dt : Nat) (tracker : Nat)
  | mtExtractionDone (dt : Nat) (tracker : Nat)
  | mtSignalRejoin (dt : Nat) (tracker signal : Nat)
  | armStatusChange (dt : Nat) (branch : Nat) (closed : Bool) (stamp : Nat)
  | dinStatusDebounced (dt : Nat) (land : Nat) (level : Bool) (stamp : Nat)
  | travelTimeout (dt : Nat) (branch : Nat)
  | armRecomputeDone (dt : Nat)
  | armMeasEvaluate (dt : Nat) (net slot : Nat)
  | balEvaluate (dt : Nat) (group slot : Nat)
  | balRecSlot (dt : Nat) (group slot : Nat)
  | balRecIntervalClose (dt : Nat) (group : Nat)
  | cusStep (dt : Nat) (point : Nat) (input : StepInput)
  | directionDebounce (dt : Nat) (point : Nat)
  | totalsSave (dt : Nat)
  | profileBoundary (dt : Nat) (minutes : Nat)
  | profileSigned (dt : Nat) (point sequence : Nat)
  | cusReadRegisters (dt : Nat) (q : Req)
  | cusReadProfile (dt : Nat) (q : Req)
  | cusAckProfile (dt : Nat) (q : Req)
  | cusSealSeal (dt : Nat) (q : Req)
  | cusSealBreak (dt : Nat) (q : Req)
  | cusSealClearRegisters (dt : Nat) (q : Req)
  | cusSealedUpdate (dt : Nat) (q : Req)
  | cusReadLegalId (dt : Nat) (q : Req)
  | owChop (dt : Nat) (land : Nat) (before chopped after : Int)
  | auxDwellStart (dt : Nat)
  | calCycleStart (dt : Nat) (spare : Nat)
  | calComparisonDone (dt : Nat) (spare : Nat) (usable : Nat) (meanDiff16 maxDiff16 : Int)
  | calCalibrationDone (dt : Nat) (slice : Nat) (offset16 : Int) (gainPpm : Word)
  | fltBankSwap (dt : Nat) (channel : Nat)
  | localSourceReport (dt : Nat) (src : Nat) (report : Nat)
  | capRow (dt : Nat) (recorder : Nat) (row : Nat) (full : Bool)
  | dinTriggerEdge (dt : Nat) (land : Nat) (rising : Bool) (stamp : Nat)
  | capAutoTimeout (dt : Nat) (recorder : Nat)
  | capRearmEnd (dt : Nat) (recorder : Nat)
  | capArm (dt : Nat) (q : Req)
  | capDisarm (dt : Nat) (q : Req)
  | capForce (dt : Nat) (q : Req)
  | capRead (dt : Nat) (q : Req)
  | capSetRewind (dt : Nat) (q : Req)
  | capExport (dt : Nat) (q : Req)
  | capRelease (dt : Nat) (q : Req)
  | lgcScan (dt : Nat)
  | lgcOutputWrite (dt : Nat)
  | gooseRepeat (dt : Nat) (cb : Nat)
  | stationControlAck (dt : Nat) (port : Nat) (bytes : List Byte)
  | stationAckTimeout (dt : Nat) (src : Nat)
  | stationRefresh (dt : Nat) (src : Nat)
  | lgcLoad (dt : Nat) (q : Req)
  | lgcImageStored (dt : Nat)
  | lgcStart (dt : Nat) (q : Req)
  | lgcStop (dt : Nat) (q : Req)
  | lgcForce (dt : Nat) (q : Req)
  | lgcRelease (dt : Nat) (q : Req)
  | lgcOnlineChange (dt : Nat) (q : Req)
  | lgcReadVars (dt : Nat) (q : Req)
  | keyUpdateSetAnchor (dt : Nat) (q : Req)
  | keyUpdateRekeyRoot (dt : Nat) (q : Req)
  | keyUpdateGenerate (dt : Nat) (q : Req)
  | keyUpdateDerive (dt : Nat) (q : Req)
  | keyUpdateLoadWrapped (dt : Nat) (q : Req)
  | keyUpdateLoadPublic (dt : Nat) (q : Req)
  | keyInvalidate (dt : Nat) (q : Req)
  | vaultJournalCommit (dt : Nat)
  | keyInfo (dt : Nat) (q : Req)
  | keyInfoExport (dt : Nat) (q : Req)
  | sign (dt : Nat) (q : Req)
  | verify (dt : Nat) (q : Req)
  | deviceCert (dt : Nat) (q : Req)
  | counterRead (dt : Nat) (q : Req)
  | tamperDetected (dt : Nat) (source : Nat)
  | supplyMeasurement (dt : Nat) (vbatMv vplcMv : Nat)
  | batteryInsertion (dt : Nat)
  | logRead (dt : Nat) (q : Req)
  | mlogRead (dt : Nat) (q : Req)
  | logFreeze (dt : Nat) (q : Req)
  | logThaw (dt : Nat) (q : Req)
  | logClear (dt : Nat) (q : Req)
  | freezeMaxTimeout (dt : Nat) (metrological : Bool)
  | logFlushTimer (dt : Nat)
  | tokenRefill (dt : Nat) (code : Nat)
  | delayExpiry (dt : Nat)
  | coreSelfTestTimer (dt : Nat) (failed : List Nat)
  | coreRetire (dt : Nat) (core : Nat) (task : Option (Nat × Nat))
  | fifoLevelHit (dt : Nat) (fifo : Nat) (words : List FifoWord)
  | schedStats (dt : Nat) (q : Req)
  | selfTest (dt : Nat) (q : Req)
  | unitQuiesce (dt : Nat) (q : Req)
  | unitQuiesceDrained (dt : Nat)
  | unitQuiesceTimeout (dt : Nat)
  | unitReset (dt : Nat) (q : Req)
  | unitResume (dt : Nat) (q : Req)
  | fwStage (dt : Nat) (q : Req)
  | fwVerify (dt : Nat) (q : Req)
  | fwActivate (dt : Nat) (q : Req)
  | fwActivationDrained (dt : Nat)
  | fwInfo (dt : Nat) (q : Req)
  | spareStatus (dt : Nat) (q : Req)
  | patinaRead (dt : Nat) (q : Req)
  | powerUp (dt : Nat)
  | resetNAssert (dt : Nat)
  | resetNRelease (dt : Nat) (straps : Nat)
  | bootComplete (dt : Nat)
  | lockWaitTimeout (dt : Nat)
  | pfwNFall (dt : Nat)
  | pfwNReturn (dt : Nat)
  | supplyOutOfTolerance (dt : Nat)
  | sramScrubPass (dt : Nat) (corrected uncorrectable : List Nat)
  | dramPageRetire (dt : Nat) (page : Nat) (uncorrectable : Bool)
  | mramBlockRetire (dt : Nat) (block : Nat)
  | marginMonitor (dt : Nat) (low : Bool)
  | patinaSave (dt : Nat)
  | samplingInstant (dt : Nat) (codes : List Int)
  | ppsOutWidthEnd (dt : Nat)
  | irqHoldoffExpiry (dt : Nat) (vector : Nat)
  | fifoLevelRelease (dt : Nat) (fifo left : Nat)
  | selfTestDone (dt : Nat) (records : List (Nat × Nat × Nat × Nat × Nat)) (faults : List (Nat × Nat))
  | consolidationEraseDone (dt : Nat)
  | dinPulseEdge (dt : Nat) (land : Nat) (rising : Bool)
  | pePerstNRelease (dt : Nat)
  | operatingSecond (dt : Nat) (tjMilli : Int)
  deriving DecidableEq, Repr

end Sys2Proof
end

