-- ==== Sys2Proof/WellFormed.lean ====
section
/-! DEFINITION. The well-formed commands: every operand within the width or range the spec gives it. -/

namespace Sys2Proof

/-- A carriage names rings 48 to 55 (R69), ports 0 to 31 (R102), connections 0 to 63 (R406). -/
def Carriage.wf : Carriage → Bool
  | .host ring => decide (48 ≤ ring) && decide (ring ≤ 55)
  | .udp4 port _ => decide (port < 32)
  | .udp6 port _ => decide (port < 32)
  | .uart => true
  | .tcp conn => decide (conn < 64)

/-- A request: SESSION is 8 bits, the payload fits LENGTH 16,384, FLAGS has five reserved bits, a tag has 16 bytes (R31). -/
def Req.wf (q : Req) : Bool :=
  q.carriage.wf && decide (q.session < 256) && decide (q.payload.length ≤ 16379) &&
    decide (q.rsv < 32) && (if q.auth then decide (q.authTag.length = 16) else q.authTag.isEmpty)

/-- The operands of a command lie in their ranges. -/
def Instr.wf : Instr → Bool
  | .nop _ q | .identify _ q | .getState _ q | .setState _ q | .openSessionPhase1 _ q | .openSessionPhase2 _ q
  | .closeSession _ q | .echoTime _ q | .readParam _ q | .writeParam _ q | .writeLive _ q | .readBatch _ q
  | .writeBatch _ q | .commitMaquette _ q | .discardMaquette _ q | .diffMaquette _ q | .readConflicts _ q
  | .readCounters _ q | .peekCounters _ q | .readStatusBlock _ q => q.wf
  | .sourceDefine _ q | .sourceRemove _ q | .sourceQuery _ q | .catalogueRead _ q | .podReadSlot _ q
  | .podSubscribe _ q | .cusReadRegisters _ q | .cusReadProfile _ q | .cusAckProfile _ q | .cusSealSeal _ q
  | .cusSealBreak _ q | .cusSealClearRegisters _ q | .cusSealedUpdate _ q | .cusReadLegalId _ q => q.wf
  | .capArm _ q | .capDisarm _ q | .capForce _ q | .capRead _ q | .capSetRewind _ q | .capExport _ q
  | .capRelease _ q | .lgcLoad _ q | .lgcStart _ q | .lgcStop _ q | .lgcForce _ q | .lgcRelease _ q
  | .lgcOnlineChange _ q | .lgcReadVars _ q => q.wf
  | .keyUpdateSetAnchor _ q | .keyUpdateRekeyRoot _ q | .keyUpdateGenerate _ q | .keyUpdateDerive _ q
  | .keyUpdateLoadWrapped _ q | .keyUpdateLoadPublic _ q | .keyInvalidate _ q | .keyInfo _ q | .keyInfoExport _ q
  | .sign _ q | .verify _ q | .deviceCert _ q | .counterRead _ q => q.wf
  | .logRead _ q | .mlogRead _ q | .logFreeze _ q | .logThaw _ q | .logClear _ q | .schedStats _ q | .selfTest _ q
  | .unitQuiesce _ q | .unitReset _ q | .unitResume _ q | .fwStage _ q | .fwVerify _ q | .fwActivate _ q
  | .fwInfo _ q | .spareStatus _ q | .patinaRead _ q => q.wf
  | .sessionPhase2Timeout _ n | .sessionIdleTimeout _ n => decide (1 ≤ n) && decide (n < 256)
  | .commitCheckDone _ | .commitFlashStored _ | .commitBoundary _ | .configConsolidationStart _
  | .configConsolidationDone _ | .consolidationEraseDone _ => true
  | .packetBadFraming _ c bufLen bytes => c.wf && decide (bytes.length ≤ bufLen)
  | .uartFrameBad _ _ => true
  | .tcpConnectionRequest _ port tcpPort _ => decide (port < 32) && decide (tcpPort < 65536)
  | .tcpConnectionIdleClose _ conn => decide (conn < 64)
  | .replyWaitTimeout _ ring => decide (56 ≤ ring) && decide (ring < 64)
  | .doorbellWrite _ ring index _ => decide (ring < 64) && decide (index < 65536)
  | .ringCtlWrite _ ring _ => decide (ring < 64)
  | .bar0RegisterWrite _ offset _ => decide (offset < 65536) && decide (offset % 4 = 0)
  | .liveWindowLowRead _ requester (.bar0 offset) => decide (requester < 65536) && decide (offset < 65536) && decide (offset % 4 = 0)
  | .liveWindowLowRead _ requester (.low offset) | .liveWindowLowRead _ requester (.whole offset) =>
    decide (requester < 65536) && decide (offset < 4096) && decide (offset % 8 = 0)
  | .liveWindowHighRead _ requester offset => decide (requester < 65536) && decide (offset < 4096) && decide (offset % 8 = 0)
  | .liveWindowWrite _ offset _ => decide (offset < 4096)
  | .pePerstNAssert _ | .pePerstNRelease _ | .pcieL1ExitWake _ => true
  | .frameReceived _ port _ | .rxFrameSteer _ port | .phyStatusPoll _ port _ | .linkDown _ port | .linkUp _ port _
  | .txFrame _ port | .downshiftWindow _ port _ _ | .downshiftLinkTimeout _ port | .wakeFrame _ port _
  | .ptpAnnounceReceived _ port _ | .ptpSyncReceived _ port _ _
  | .ptpAnnounceTimeout _ port _ => decide (port < 32)
  | .fragmentReceived _ f => decide (f.port < 32)
  | .reassemblyTimeout _ => true
  | .txSend _ ring => decide (32 ≤ ring) && decide (ring < 48)
  | .irigFrameReceived _ f => decide (f.format < 8) && decide (f.bits.length = 100)
  | .ptpAnnounceInterval _ | .irigFrameMissing _ | .ppsInEdge _ _ | .ppsInMissing _ => true
  | .referenceQualified _ kind | .referenceDisqualified _ kind => decide (1 ≤ kind) && decide (kind ≤ 3)
  | .referenceRevert _ | .tqChange _ | .timeQualityHoldEnd _ | .ppsOutSecond _ | .ref10mLoss _ | .ref10mRestore _
  | .leapSecondApply _ | .plinthTimeSet _ | .ppsOutWidthEnd _ => true
  | .ingressFrame _ port _ _ => decide (port < 32)
  | .ptpPdelayReqReceived _ rx => decide (rx.port < 32)
  | .c37CfgReceived _ rx => decide (rx.port < 32)
  | .cfgRetryTimer _ src | .c37ReconnectTimer _ src _ | .sourceDead _ src | .stationAckTimeout _ src
  | .stationRefresh _ src | .localSourceReport _ src _ => decide (src < 8192)
  | .slotOpen _ pod _ | .slotCloseAtNominal _ pod _ | .slotDeadlineTick _ pod _ | .revBatchExpiry _ pod _
  | .revHorizonExpiry _ pod _ | .slotRelease _ pod _ | .deepWaitEditionReady _ pod _ | .oafLayoutRepeat _ pod =>
    decide (pod < 64)
  | .c37OutputCommand _ dest _ command => decide (dest < 256) && decide (command < 65536)
  | .fdEvaluate _ det _ => decide (det < 256)
  | .mtSlotRead _ t | .mtExtractionStart _ t | .mtExtractionDone _ t => decide (t < 4)
  | .mtSignalRejoin _ t signal => decide (t < 4) && decide (signal < 64)
  | .armStatusChange _ branch _ _ | .travelTimeout _ branch => decide (branch < 8192)
  | .dinStatusDebounced _ land _ _ | .dinTriggerEdge _ land _ _ | .dinPulseEdge _ land _ => decide (land < 8)
  | .armRecomputeDone _ => true
  | .armMeasEvaluate _ net _ => decide (net < 16)
  | .balEvaluate _ group _ | .balRecSlot _ group _ | .balRecIntervalClose _ group => decide (group < 64)
  | .cusStep _ point _ | .directionDebounce _ point | .profileSigned _ point _ => decide (point < 512)
  | .totalsSave _ | .profileBoundary _ _ => true
  | .owChop _ land _ _ _ => decide (land < 40)
  | .auxDwellStart _ => true
  | .calCycleStart _ spare | .calComparisonDone _ spare _ _ _ => decide (25 ≤ spare) && decide (spare ≤ 26)
  | .calCalibrationDone _ slice _ _ => decide (slice < 27)
  | .fltBankSwap _ channel => decide (channel < 25)
  | .capRow _ r _ _ | .capAutoTimeout _ r | .capRearmEnd _ r => decide (r < 8)
  | .lgcScan _ | .lgcOutputWrite _ | .lgcImageStored _ => true
  | .stationControlAck _ port _ => decide (port < 32)
  | .gooseRepeat _ cb => decide (cb < 32)
  | .vaultJournalCommit _ | .supplyMeasurement _ _ _ | .batteryInsertion _ => true
  | .tamperDetected _ source => decide (source < 256)
  | .freezeMaxTimeout _ _ | .logFlushTimer _ | .delayExpiry _ | .coreSelfTestTimer _ _ => true
  | .tokenRefill _ code => decide (code < 65536)
  | .coreRetire _ core _ => decide (core < 18)
  | .fifoLevelHit _ fifo words => decide (fifo < 74) && decide (words.length ≤ 16)
  | .fifoLevelRelease _ fifo n => decide (fifo < 74) && decide (n ≤ 16)
  | .unitQuiesceDrained _ | .unitQuiesceTimeout _ | .fwActivationDrained _ | .powerUp _ | .resetNAssert _
  | .bootComplete _ | .lockWaitTimeout _ | .pfwNFall _ | .pfwNReturn _ | .supplyOutOfTolerance _ => true
  | .resetNRelease _ straps => decide (straps < 4)
  | .sramScrubPass _ _ _ | .dramPageRetire _ _ _ | .mramBlockRetire _ _ | .marginMonitor _ _ | .patinaSave _ => true
  | .samplingInstant _ codes => decide (codes.length ≤ 25)
  | .irqHoldoffExpiry _ vector => decide (vector < 64)
  | .selfTestDone _ _ _ => true
  | .operatingSecond _ _ => true

end Sys2Proof
end

