-- ==== Sys2Proof/Decode.lean ====
section
/-! DEFINITION. The words of the commands. The opcode table gives no row a bit (every row's fields are empty), so no word
of that table spells a command. -/

namespace Sys2Proof

/-- The command a word of the opcode table spells: none, since the table gives no row any bits. -/
def decodeTableWord (_nbits _w : Nat) : Option Instr := none

end Sys2Proof
end

