-- ==== Sys2Proof/Machine/Crypto.lean ====
section
/-! DEFINITION. The published algorithms the module computes: CRC-32C (R32), CRC-32 of the FCS, SHA-256 (FIPS 180-4),
HMAC-SHA-256 (FIPS 198-1), HKDF-SHA-256 (RFC 5869), ECDSA P-256 (FIPS 186-5, with the deterministic nonce of R364), and
AES-256-GCM (NIST SP 800-38D), as R14 lists them. Byte strings are lists of bytes in ascending address order. -/

namespace Sys2Proof.Machine

open Sys2Proof

/-! ### Byte strings -/

/-- `n` bytes of `x`, least significant first. -/
def leBytes : Nat → Nat → List Byte
  | 0, _ => []
  | n + 1, x => BitVec.ofNat 8 x :: leBytes n (x / 256)

/-- `n` bytes of `x`, most significant first. -/
def beBytes (n x : Nat) : List Byte := (leBytes n x).reverse

/-- The number a byte string spells, least significant byte first. -/
def ofLe : List Byte → Nat
  | [] => 0
  | b :: l => b.toNat + 256 * ofLe l

/-- The number a byte string spells, most significant byte first. -/
def ofBe (l : List Byte) : Nat := l.foldl (fun a b => 256 * a + b.toNat) 0

/-- The bytes of 32-bit words, each little-endian (R7). -/
def wordsLe (l : List Word) : List Byte := l.flatMap (fun w => leBytes 4 w.toNat)

/-- The bytes of 32-bit words, each big-endian (R7). -/
def wordsBe (l : List Word) : List Byte := l.flatMap (fun w => beBytes 4 w.toNat)

/-- `n` little-endian words from a byte string; bytes that are missing read as 0. -/
def leWords : Nat → List Byte → List Word
  | 0, _ => []
  | n + 1, l => BitVec.ofNat 32 (ofLe (l.take 4)) :: leWords n (l.drop 4)

/-- `n` big-endian words from a byte string. -/
def beWords : Nat → List Byte → List Word
  | 0, _ => []
  | n + 1, l => BitVec.ofNat 32 (ofBe (l.take 4)) :: beWords n (l.drop 4)

/-- The first `n` bytes, padded with zeros. -/
def padTo (n : Nat) (l : List Byte) : List Byte := l.take n ++ List.replicate (n - l.length) 0

/-! ### CRC -/

/-- One bit of a reflected CRC with the reflected polynomial `p`. -/
def crcBit (p c : Word) : Word := if c.getLsbD 0 then (c >>> 1) ^^^ p else c >>> 1

/-- One byte of a reflected CRC. -/
def crcByte (p c : Word) (b : Byte) : Word :=
  let c0 := c ^^^ b.setWidth 32
  crcBit p (crcBit p (crcBit p (crcBit p (crcBit p (crcBit p (crcBit p (crcBit p c0)))))))

/-- A reflected CRC with initial value and final XOR 0xFFFF_FFFF. -/
def crcReflected (p : Word) (l : List Byte) : Word := (l.foldl (crcByte p) 0xFFFFFFFF) ^^^ 0xFFFFFFFF

/-- CRC-32C, polynomial 0x1EDC_6F41 reflected (R32). -/
@[irreducible] def crc32c (l : List Byte) : Word := crcReflected 0x82F63B78 l

/-- CRC-32 of IEEE 802.3, the FCS of a frame (R107). -/
@[irreducible] def crc32 (l : List Byte) : Word := crcReflected 0xEDB88320 l

/-! ### SHA-256 -/

/-- The words of a number of `8 n` hexadecimal digits, the most significant word first. -/
def hexWords (n v : Nat) : List Word := (List.range n).map (fun i => BitVec.ofNat 32 (v / 2 ^ (32 * (n - 1 - i))))

/-- What the 64 rounds of SHA-256 add, eight words to a row: the leading fraction bits of the cube roots of the first 64
primes (FIPS 180-4). -/
def cubeRootWords : List Word :=
  [0x428a2f9871374491b5c0fbcfe9b5dba53956c25b59f111f1923f82a4ab1c5ed5,
   0xd807aa9812835b01243185be550c7dc372be5d7480deb1fe9bdc06a7c19bf174,
   0xe49b69c1efbe47860fc19dc6240ca1cc2de92c6f4a7484aa5cb0a9dc76f988da,
   0x983e5152a831c66db00327c8bf597fc7c6e00bf3d5a7914706ca635114292967].flatMap (hexWords 8) ++
  [0x27b70a852e1b21384d2c6dfc53380d13650a7354766a0abb81c2c92e92722c85,
   0xa2bfe8a1a81a664bc24b8b70c76c51a3d192e819d6990624f40e3585106aa070,
   0x19a4c1161e376c082748774c34b0bcb5391c0cb34ed8aa4a5b9cca4f682e6ff3,
   0x748f82ee78a5636f84c878148cc7020890befffaa4506cebbef9a3f7c67178f2].flatMap (hexWords 8)

/-- The chaining value before the first block: the leading fraction bits of the square roots of the first eight primes. -/
def squareRootWords : List Word :=
  hexWords 8 0x6a09e667bb67ae853c6ef372a54ff53a510e527f9b05688c1f83d9ab5be0cd19

/-- The exclusive or of a word turned right by each of the listed distances. -/
def turns (w : Word) (l : List Nat) : Word := l.foldl (fun x n => x ^^^ w.rotateRight n) 0

/-- A block under compression: the next sixteen schedule words, oldest first, and the last four values of the two
sequences that the rounds produce, newest first. -/
structure Rounds where
  due  : List Word
  top  : List Word
  low  : List Word

/-- A round of SHA-256 with its constant: the schedule's oldest word is used up and the word sixteen places on takes its
turn at the end. -/
def Rounds.next (x : Rounds) (k : Word) : Rounds :=
  let at_ := fun (l : List Word) i => l.getD i 0
  let w := at_ x.due
  let e := at_ x.low
  let a := at_ x.top
  let mix := e 3 + turns (e 0) [6, 11, 25] + (e 2 ^^^ (e 0 &&& (e 1 ^^^ e 2))) + k + w 0
  let major := (a 0 &&& (a 1 ||| a 2)) ||| (a 1 &&& a 2)
  { due := x.due.drop 1 ++ [w 9 + w 0 + (turns (w 1) [7, 18] ^^^ (w 1 >>> 3)) + (turns (w 14) [17, 19] ^^^ (w 14 >>> 10))]
    top := (mix + turns (a 0) [2, 13, 22] + major) :: x.top.take 3
    low := (a 3 + mix) :: x.low.take 3 }

/-- The chaining value after one more block of 64 bytes. -/
def chainBlock (v : List Word) (block : List Byte) : List Word :=
  let x := cubeRootWords.foldl Rounds.next { due := beWords 16 block, top := v.take 4, low := v.drop 4 }
  (v.zip (x.top ++ x.low)).map (fun p => p.1 + p.2)

/-- The chaining value after the next `n` blocks of a padded message. -/
def chainBlocks : Nat → List Byte → List Word → List Word
  | 0, _, v => v
  | n + 1, l, v => chainBlocks n (l.drop 64) (chainBlock v (l.take 64))

/-- SHA-256 of a byte string, 32 bytes (FIPS 180-4): a one bit, zeros and the length in bits fill the last block. -/
@[irreducible] def sha256 (l : List Byte) : List Byte :=
  let blocks := (l.length + 72) / 64
  wordsBe (chainBlocks blocks (padTo (64 * blocks - 8) (l ++ [0x80]) ++ beBytes 8 (8 * l.length)) squareRootWords)

/-- HMAC-SHA-256. -/
@[irreducible] def hmac256 (key msg : List Byte) : List Byte :=
  let k := padTo 64 (if key.length > 64 then sha256 key else key)
  sha256 (k.map (· ^^^ 0x5c) ++ sha256 (k.map (· ^^^ 0x36) ++ msg))

/-- The expand step of HKDF: `n` more blocks after counter `c`. -/
def hkdfExpand : Nat → Nat → List Byte → List Byte → List Byte → List Byte
  | 0, _, _, _, _ => []
  | n + 1, c, prk, info, prev =>
    let t := hmac256 prk (prev ++ info ++ [BitVec.ofNat 8 c])
    t ++ hkdfExpand n (c + 1) prk info t

/-- HKDF-SHA-256 with an output of `len` bytes. -/
@[irreducible] def hkdf256 (ikm salt info : List Byte) (len : Nat) : List Byte :=
  (hkdfExpand ((len + 31) / 32) 1 (hmac256 salt ikm) info []).take len

/-! ### ECDSA P-256 -/

/-- The field prime of P-256. -/
def p256P : Nat := 0xffffffff00000001000000000000000000000000ffffffffffffffffffffffff
/-- The order of the base point. -/
def p256N : Nat := 0xffffffff00000000ffffffffffffffffbce6faada7179e84f3b9cac2fc632551
/-- The coefficient b. -/
def p256B : Nat := 0x5ac635d8aa3a93e7b3ebbd55769886bc651d06b0cc53b0f63bce3c3e27d2604b
/-- The base point. -/
def p256G : Nat × Nat :=
  (0x6b17d1f2e12c4247f8bce6e563a440f277037d812deb33a0f4a13945d898c296,
   0x4fe342e2fe1a7f9b8ee7eb4a7c0f9e162bce33576b315ececbb6406837bf51f5)

/-- `b ^ e mod m` over `n` bits of `e`. -/
def modPow (m : Nat) : Nat → Nat → Nat → Nat
  | 0, _, _ => 1 % m
  | n + 1, b, e =>
    let r := modPow m n (b * b % m) (e / 2)
    if e % 2 = 1 then b * r % m else r

/-- The inverse modulo a prime of at most 256 bits. -/
def modInv (m x : Nat) : Nat := modPow m 256 (x % m) (m - 2)

/-- A point in Jacobian coordinates; Z = 0 is the point at infinity. -/
abbrev JPoint := Nat × Nat × Nat

/-- Doubling on P-256 (a = -3). -/
def jDouble (q : JPoint) : JPoint :=
  let (x, y, z) := q
  if z = 0 ∨ y = 0 then (1, 1, 0) else
    let p := p256P
    let d := z * z % p
    let g := y * y % p
    let b := x * g % p
    let a := 3 * ((x + p - d) % p) * ((x + d) % p) % p
    let x3 := (a * a + 8 * p - 8 * b) % p
    let z3 := 2 * y * z % p
    let y3 := (a * ((4 * b + p - x3) % p) + 8 * p - 8 * (g * g % p)) % p
    (x3, y3, z3)

/-- Addition on P-256. -/
def jAdd (q r : JPoint) : JPoint :=
  let (x1, y1, z1) := q
  let (x2, y2, z2) := r
  if z1 = 0 then r else if z2 = 0 then q else
    let p := p256P
    let zz1 := z1 * z1 % p
    let zz2 := z2 * z2 % p
    let u1 := x1 * zz2 % p
    let u2 := x2 * zz1 % p
    let s1 := y1 * z2 * zz2 % p
    let s2 := y2 * z1 * zz1 % p
    if u1 = u2 then (if s1 = s2 then jDouble q else (1, 1, 0)) else
      let h := (u2 + p - u1) % p
      let rr := (s2 + p - s1) % p
      let hh := h * h % p
      let hhh := h * hh % p
      let v := u1 * hh % p
      let x3 := (rr * rr + 3 * p - hhh - 2 * v) % p
      let y3 := (rr * ((v + p - x3) % p) + p * p - s1 * hhh) % p
      (x3, y3, h * z1 * z2 % p)

/-- `k · q` over `n` bits of `k`. -/
def jMul : Nat → Nat → JPoint → JPoint
  | 0, _, _ => (1, 1, 0)
  | n + 1, k, q =>
    let r := jMul n (k / 2) (jDouble q)
    if k % 2 = 1 then jAdd q r else r

/-- Affine coordinates; none for the point at infinity. -/
def jAffine (q : JPoint) : Option (Nat × Nat) :=
  let (x, y, z) := q
  if z % p256P = 0 then none else
    let zi := modInv p256P z
    let z2 := zi * zi % p256P
    some (x * z2 % p256P, y * z2 % p256P * zi % p256P)

/-- The point lies on P-256. -/
def onCurve (x y : Nat) : Bool :=
  decide (x < p256P) && decide (y < p256P) &&
    decide ((y * y) % p256P = (x * x * x + (p256P - 3) * x + p256B) % p256P)

/-- The public key of a private scalar, X then Y, 64 bytes. -/
@[irreducible] def p256Public (d : Nat) : List Byte :=
  match jAffine (jMul 256 d (p256G.1, p256G.2, 1)) with
  | some (x, y) => beBytes 32 x ++ beBytes 32 y
  | none => List.replicate 64 0

/-- ECDSA P-256 verification of r ‖ s over a 32-byte digest against X ‖ Y. -/
@[irreducible] def p256Verify (pub digest sig : List Byte) : Bool :=
  let x := ofBe (pub.take 32)
  let y := ofBe ((pub.drop 32).take 32)
  let r := ofBe (sig.take 32)
  let s := ofBe ((sig.drop 32).take 32)
  let e := ofBe digest
  if decide (pub.length = 64) && decide (sig.length = 64) && onCurve x y &&
      decide (0 < r) && decide (r < p256N) && decide (0 < s) && decide (s < p256N) then
    let w := modInv p256N s
    let u1 := e * w % p256N
    let u2 := r * w % p256N
    match jAffine (jAdd (jMul 256 u1 (p256G.1, p256G.2, 1)) (jMul 256 u2 (x, y, 1))) with
    | some (x1, _) => decide (x1 % p256N = r)
    | none => false
  else false

/-- The candidates of the deterministic nonce (RFC 6979): `n` more tries. -/
def rfcNonce : Nat → List Byte → List Byte → Nat
  | 0, _, _ => 1
  | n + 1, k, v =>
    let v := hmac256 k v
    let t := ofBe v
    if 0 < t ∧ t < p256N then t else
      let k := hmac256 k (v ++ [0])
      rfcNonce n k (hmac256 k v)

/-- The deterministic nonce of a private scalar and a digest. -/
@[irreducible] def p256Nonce (d : Nat) (digest : List Byte) : Nat :=
  let x := beBytes 32 d ++ beBytes 32 (ofBe digest % p256N)
  let v := List.replicate 32 (1 : Byte)
  let k := hmac256 (List.replicate 32 0) (v ++ [0] ++ x)
  let v := hmac256 k v
  let k := hmac256 k (v ++ [1] ++ x)
  let v := hmac256 k v
  rfcNonce 4 k v

/-- The signature r ‖ s with a given nonce. -/
@[irreducible] def p256SignWith (d k : Nat) (digest : List Byte) : List Byte :=
  match jAffine (jMul 256 k (p256G.1, p256G.2, 1)) with
  | some (x, _) =>
    let r := x % p256N
    let s := modInv p256N k * (ofBe digest + r * d) % p256N
    beBytes 32 r ++ beBytes 32 s
  | none => List.replicate 64 0

/-! ### AES-256-GCM -/

/-- Multiplication by x in GF(2^8) of AES. -/
def xtime (b : Byte) : Byte := (b <<< 1) ^^^ (if b.getLsbD 7 then 0x1b else 0)

/-- Multiplication in GF(2^8) of AES over `n` bits of `a`. -/
def gfMul8 : Nat → Byte → Byte → Byte
  | 0, _, _ => 0
  | n + 1, a, b => (if a.getLsbD 0 then b else 0) ^^^ gfMul8 n (a >>> 1) (xtime b)

/-- `b ^ (2^n - 1)` squared chains: the inverse is `b ^ 254`. -/
def gfInv8 (b : Byte) : Byte :=
  let m := gfMul8 8
  let b2 := m b b
  let b4 := m b2 b2
  let b8 := m b4 b4
  let b16 := m b8 b8
  let b32 := m b16 b16
  let b64 := m b32 b32
  let b128 := m b64 b64
  m b2 (m b4 (m b8 (m b16 (m b32 (m b64 b128)))))

/-- The S-box of FIPS 197, computed. -/
def aesSub (b : Byte) : Byte :=
  let i := gfInv8 b
  i ^^^ i.rotateLeft 1 ^^^ i.rotateLeft 2 ^^^ i.rotateLeft 3 ^^^ i.rotateLeft 4 ^^^ 0x63

/-- One more word of the AES-256 key schedule, newest word first; `i` is its index. -/
def aesKeyStep (i : Nat) (rcon : Byte) (w : List (List Byte)) : List (List Byte) :=
  let t := w.getD 0 []
  let t := if i % 8 = 0 then
      match (t.drop 1 ++ t.take 1).map aesSub with
      | a :: l => (a ^^^ rcon) :: l
      | [] => []
    else if i % 8 = 4 then t.map aesSub else t
  List.zipWith (· ^^^ ·) (w.getD 7 []) t :: w

/-- The AES-256 key schedule: `n` more words from index `i`. -/
def aesSchedule : Nat → Nat → Byte → List (List Byte) → List (List Byte)
  | 0, _, _, w => w
  | n + 1, i, rcon, w =>
    aesSchedule n (i + 1) (if i % 8 = 0 then xtime rcon else rcon) (aesKeyStep i rcon w)

/-- Cut a byte string into `n` parts of `k` bytes. -/
def chunks (k : Nat) : Nat → List Byte → List (List Byte)
  | 0, _ => []
  | n + 1, l => l.take k :: chunks k n (l.drop k)

/-- The 15 round keys of 16 bytes. -/
def aesRoundKeys (key : List Byte) : List (List Byte) :=
  chunks 16 15 ((aesSchedule 52 8 1 ((chunks 4 8 key).reverse)).reverse.flatten)

/-- ShiftRows on 16 bytes in column order. -/
def aesShift (b : List Byte) : List Byte :=
  [0, 5, 10, 15, 4, 9, 14, 3, 8, 13, 2, 7, 12, 1, 6, 11].map (fun i => b.getD i 0)

/-- MixColumns on one column. -/
def aesMixCol (c : List Byte) : List Byte :=
  match c with
  | [a, b, d, e] =>
    [xtime a ^^^ (xtime b ^^^ b) ^^^ d ^^^ e, a ^^^ xtime b ^^^ (xtime d ^^^ d) ^^^ e,
     a ^^^ b ^^^ xtime d ^^^ (xtime e ^^^ e), (xtime a ^^^ a) ^^^ b ^^^ d ^^^ xtime e]
  | c => c

/-- XOR of byte strings. -/
def xorBytes (a b : List Byte) : List Byte := List.zipWith (· ^^^ ·) a b

/-- AES-256 encryption of one block. -/
def aesBlock (rk : List (List Byte)) (b : List Byte) : List Byte :=
  let s := xorBytes b (rk.getD 0 [])
  let s := ((rk.drop 1).take 13).foldl
    (fun s k => xorBytes ((chunks 4 4 (aesShift (s.map aesSub))).flatMap aesMixCol) k) s
  xorBytes (aesShift (s.map aesSub)) (rk.getD 14 [])

/-- Multiplication in GF(2^128) of GCM over `n` bits of `x` from the most significant. -/
def gfMul128 : Nat → BitVec 128 → BitVec 128 → BitVec 128
  | 0, _, _ => 0
  | n + 1, x, v =>
    (if x.getLsbD 127 then v else 0) ^^^
      gfMul128 n (x <<< 1) ((v >>> 1) ^^^ (if v.getLsbD 0 then 0xe1000000000000000000000000000000 else 0))

/-- GHASH over `n` blocks of 16 bytes. -/
def ghash (h : BitVec 128) : Nat → BitVec 128 → List Byte → BitVec 128
  | 0, y, _ => y
  | n + 1, y, l => ghash h n (gfMul128 128 (y ^^^ BitVec.ofNat 128 (ofBe (padTo 16 (l.take 16)))) h) (l.drop 16)

/-- The key stream of CTR mode from a counter, `n` blocks. -/
def gcmStream (rk : List (List Byte)) (iv : List Byte) : Nat → Nat → List Byte
  | 0, _ => []
  | n + 1, c => aesBlock rk (iv ++ beBytes 4 c) ++ gcmStream rk iv n (c + 1)

/-- The GCM tag of a ciphertext under a 12-byte IV. -/
def gcmTag (rk : List (List Byte)) (iv aad ct : List Byte) : List Byte :=
  let h := BitVec.ofNat 128 (ofBe (aesBlock rk (List.replicate 16 0)))
  let pad := fun (l : List Byte) => l ++ List.replicate ((16 - l.length % 16) % 16) 0
  let m := pad aad ++ pad ct ++ beBytes 8 (8 * aad.length) ++ beBytes 8 (8 * ct.length)
  xorBytes (beBytes 16 (ghash h (m.length / 16) 0 m).toNat) (aesBlock rk (iv ++ beBytes 4 1))

/-- AES-256-GCM encryption: ciphertext and 16-byte tag. -/
@[irreducible] def gcmSeal (key iv aad pt : List Byte) : List Byte × List Byte :=
  let rk := aesRoundKeys key
  let ct := xorBytes pt (gcmStream rk iv ((pt.length + 15) / 16) 2)
  (ct, gcmTag rk iv aad ct)

/-- AES-256-GCM decryption, none where the tag does not match. -/
@[irreducible] def gcmOpen (key iv aad ct tag : List Byte) : Option (List Byte) :=
  let rk := aesRoundKeys key
  if gcmTag rk iv aad ct = tag then
    some (xorBytes ct (gcmStream rk iv ((ct.length + 15) / 16) 2)) else none

end Sys2Proof.Machine
end

