-- ==== Sys2Proof/Config.lean ====
section
/-! DEFINITION. The free values: what the spec leaves open of a value the module produces. Each is a constant without
a body, so nothing can be proved of its value; the assumption log names each. -/

namespace Sys2Proof.Config

open Sys2Proof

/-- Sign and payload of a NaN that an operation of R14's IEEE 754 makes (log 7). -/
opaque nanPayload : Word
opaque nanPayload64 : DWord

/-- Byte strings the vault draws at random: the n-th draw, its length (R46, R355) (log 6). -/
opaque randomByte : Nat → Nat → Byte

/-- The version a group reports at index 0x00 (R54) (log 8). -/
opaque groupVersion : Nat → Word

/-- How much of an offset of `o` ns the servo has taken away `dt` ns after it was measured, with time constant `tc` s;
the spec bounds the rate and does not state the curve (R93) (log 10). -/
opaque slewed (o dt tc : Nat) : Nat

/-- The FREEZE_ID of the n-th freeze (R382); the spec gives it a width and no rule (log 11). -/
opaque freezeId : Nat → Half

/-- What the network standards leave to a sender in the headers of the module's frames, and the spec does not state: the IPv4
service byte, the identification, the hop limit, the IPv6 class and flow label; the Ethernet address behind an IP address; of a
TCP connection its initial sequence number, the acknowledgement and the window after so many bytes sent (log 12). -/
opaque ipService : Byte
opaque ipIdent (src dst len : Nat) : Nat
opaque ipHops : Byte
opaque ipFlow : Nat
opaque neighbour (port addr : Nat) : Nat
opaque tcpStart (conn : Nat) : Nat
opaque tcpAck (conn sent : Nat) : Nat
opaque tcpWindow (conn sent : Nat) : Nat

/-- The module's own TCP port of a connection that it opens (R129): the spec gives none (log 12). -/
opaque ownPort (conn : Nat) : Nat

/-- What R178 leaves open of the configuration the module sends: the IDCODE of a member's block, and the fields of a block that it
does not name, by member and place (log 13). -/
opaque c37BlockId (src : Nat) : Nat
opaque c37Field (src place : Nat) : Nat

/-- The time quality of the UtcTime t of a GOOSE message (R339), which the spec leaves to IEC 61850-8-1, by TIME_LOCKED and TQ
(log 14). -/
opaque gooseClock (locked : Bool) (tq : Nat) : Byte

/-- Byte `i` of the tag of a control frame whose source names a KEY_SLOT that is unusable (R138, R139): the spec has the frame tagged
and gives no key (log 69). -/
opaque unusableTag (slot : Nat) (frame : List Byte) (i : Nat) : Byte

/-- The Clause 45 auto-negotiation register, below 2^16, that matches a Clause 22 register (R106) (log 67). -/
opaque clause45 (register : Nat) : Nat

/-- The mode tracker's arithmetic (R197 to R200, R207), which the spec calls fixed and does not give (log 17): what a result is rounded
to; a tap of the decimating filter, by band, decimation, slot rate and distance from the end; the first-order high-pass of a
band at a rate: its output for an input and the input and output before; the refinement of the dominant subspace of a covariance from
the one before; how many eigenvalues the state matrix of a subspace of so many signals has, each with real and imaginary part, and a
signal's component of its eigenvector; the peak amplitude of a mode with a pole in the newest samples of a signal; the output of a
band-pass of ±20 % about a frequency at a rate, for the samples up to an instant; what stands for the logarithm of a value that has
none. -/
opaque mtRound (q : Rat) : Rat
opaque mtTap (band decim rate k : Nat) : Rat
opaque mtHigh (band : Nat) (rate x : Rat) (before : Option (Rat × Rat)) : Rat
opaque mtSubspace (cov : List (Nat × Nat × Rat)) (order : Nat) (before : List (List Rat)) : List (List Rat)
opaque mtPoles (sub : List (List Rat)) (signals : Nat) : Nat
opaque mtPole (sub : List (List Rat)) (signals k : Nat) : Rat × Rat
opaque mtVector (sub : List (List Rat)) (signals k i : Nat) : Rat × Rat
opaque mtAmp (pole : Rat × Rat) (x : List Rat) : Rat
opaque mtBandPass (freq rate : Rat) (x : List Rat) : Rat
opaque mtNoLog (q : Rat) : Rat

/-- A raw code with a slice's offset (1/16 LSB) and gain (ppm) corrections, in 1/16 LSB: the spec says that they are applied
and does not say how (R269) (log 18). -/
opaque calibrated (raw offset16 : Int) (gain : Word) : Int

/-- Whether the mean of two neighbours that falls halfway between two corrected values is rounded up (R277) (log 18). -/
opaque meanUp (a b : Int) : Bool

/-- The output of a FIR preset on its span of corrected samples, newest first, in 1/16 LSB; the spec gives its bands and not
its taps (R286, R287) (log 19). -/
opaque presetOut (preset phase : Nat) (x : List Int) : Rat

/-- Texts of a COMTRADE CFG file that R323 does not give: the min and max fields of an analogue channel, and a rate that is
no whole number (log 20). -/
opaque comtradeLimits : List Byte
opaque decimalText (q : Rat) : List Byte

/-- Results of a logic block that R330 does not state: a TIME result outside U32, a clamp to an empty interval (log 21). -/
opaque timeOverflow (op : Nat) (a b : Word) : Word
opaque limitEmpty (ty : Nat) (x lo hi : Word) : Word

/-- What saturated vapour is above the critical point, and a density whose reciprocal vanishes: IAPWS-IF97 states neither
(R245; log 24). -/
opaque if97Beyond (p t : Rat) : Rat

/-- The Hilbert transformer of R240 on the newest samples of a voltage, newest first; the spec gives its length and not its
taps. What takes part before there are enough samples (log 25). -/
opaque hilbert (l : List Rat) : Rat
opaque noHistory (n : Nat) : Rat

/-- Z_n of R246 and R247: CUS.AIR_REF holds only the ratio Z_n/Z (log 26). -/
opaque airZn : Rat

/-- Results R239 to R247 do not state: the mass flow of a negative differential pressure, the amount an infinite input stands
for, a quotient by zero (log 27). -/
opaque orificeBack (dp p t : Word) : Rat
opaque infRat (w : Word) : Rat
opaque divZero (q : Rat) : Rat

/-- Which neighbour a step's quantity (in 10^-9 units) and a gap time (in ms) are rounded to; the REASON of a GAP record that
merges gap steps of several reasons, as an index into them; the bound of no gap at an infinite rate (log 28). -/
opaque fineUp (q : Rat) : Bool
opaque gapMsUp (ns : Nat) : Bool
opaque mergedReason (reasons : List Nat) : Nat
opaque noGapBound : Word

/-- A byte of the sealed configuration's SHA-256: the spec does not say how the configuration is laid out for it (log 29). -/
opaque sealedHashByte (par sources : List (Nat × List Word)) : Nat → Byte

/-- What manufacture fixes of the keys: the device identity key of slot 0, its scalar's bytes and its public key's (X then Y,
R347); the public key the firmware is signed with (R421); the bytes of the device certificate (0) and of the issuing
certificate (1), and their lengths (R364) (log 33). -/
opaque identityByte : Nat → Byte
opaque identityPublic : Nat → Byte
opaque firmwareKey : Nat → Byte
opaque certByte (which : Nat) : Nat → Byte
opaque certLength (which : Nat) : Nat

/-- The SHA-256 of the legally relevant part of an image: the spec does not say which part that is (R420) (log 34). -/
opaque legalSha (image : List Byte) : Nat → Byte

/-- A byte of the additional data under which an exported key is sealed: it is that of LOAD_WRAPPED's message words w4 to w11,
which an export does not have (R354) (log 35). -/
opaque exportData (slot target : Nat) (device : DWord) : Nat → Byte

/-- Scheduler figures of R390 and R400 that are timing: the waits and the load of each core in the window (log 36). -/
opaque schedWait (level kind window : Nat) : Word
opaque schedLoad (core window : Nat) : Word

/-- What R80 to R85 leave open of a PTP data set and of a reference: the module's offsetScaledLogVariance, the
totalTimeInaccuracy it announces as grandmaster at a TQ, the inaccuracy of a PTP reference that does not state it (profile), and
that of an IRIG-B time quality code 12 to 14 (log 37). -/
opaque ptpVariance : Nat
opaque ownInaccuracy (tq : Nat) : Nat
opaque refInaccuracy (profile : Nat) : Nat
opaque irigReserved (code : Nat) : Nat

/-- What PTP messages of the module carry that the spec gives nothing of, timeSource and the TLV's short grandmaster identity where the
module is grandmaster; and whether the elements of an IRIG-B frame up to its parity bit count an odd number of ones (log 71). -/
opaque ptpTimeSource : Nat
opaque ptpShortId : Nat
opaque irigParity : Bool

/-- What a read of BAR0 gives where no readable register lies (log 73). -/
opaque bar0Open (offset : Nat) : BitVec 32

/-- The bank, below 64, in which a DRAM page lies: the spec gives no address layout (R458) (log 40). -/
opaque dramBank (page : Nat) : Nat

end Sys2Proof.Config
end

