-- ==== Sys2Proof/Machine/SoftFloat.lean ====
section
/-! DEFINITION. IEEE 754 binary32 and binary64 (R14), on their bit patterns: every operation is computed exactly on
rationals and rounded once, to nearest with ties to even. -/

namespace Sys2Proof.Machine

open Sys2Proof

/-- What a pattern stands for. The sign of a zero is kept. -/
inductive FVal where
  | nan
  | inf (neg : Bool)
  | fin (neg : Bool) (mag : Rat)
  deriving DecidableEq, Repr

/-- `2 ^ e` for an integer `e`. -/
def pow2 (e : Int) : Rat :=
  match e with
  | .ofNat n => (2 ^ n : Nat)
  | .negSucc n => mkRat 1 (2 ^ (n + 1))

/-- Division of naturals rounded to nearest, ties to even. -/
def divRne (a b : Nat) : Nat :=
  let q := a / b
  let r := a % b
  if 2 * r < b then q else if 2 * r = b then q + q % 2 else q + 1

/-- Round a rational to the nearest integer, ties to even. -/
def ratRne (q : Rat) : Int :=
  if q.num < 0 then - (divRne q.num.natAbs q.den : Int) else (divRne q.num.natAbs q.den : Int)

/-- The integer part of a rational toward minus infinity. -/
def ratFloor (q : Rat) : Int := q.num.fdiv q.den

/-- The least integer not below a rational. -/
def ratCeil (q : Rat) : Int := - (ratFloor (-q))

/-- ⌊log2 q⌋ of a positive rational. -/
def ratLog2 (q : Rat) : Int :=
  let n := q.num.natAbs
  let e : Int := (n.log2 : Int) - (q.den.log2 : Int)
  if q < pow2 e then e - 1 else e

/-- The magnitude pattern (no sign) of a positive rational in a format of precision `p` whose least quantum is
`2 ^ emin` and whose infinity pattern is `top`. -/
def roundMag (p : Nat) (emin : Int) (top : Nat) (q : Rat) : Nat :=
  if q = 0 then 0 else
    let qe := max (ratLog2 q - (p - 1 : Nat)) emin
    let m := if qe ≥ 0 then divRne q.num.natAbs (q.den * 2 ^ qe.toNat)
      else divRne (q.num.natAbs * 2 ^ (-qe).toNat) q.den
    min ((qe - emin).toNat * 2 ^ (p - 1) + m) top

/-- The binary32 pattern of a sign and a magnitude. -/
def f32Mk (neg : Bool) (q : Rat) : Word :=
  BitVec.ofNat 32 (roundMag 24 (-149) 0x7F800000 q + if neg then 0x80000000 else 0)

/-- The binary64 pattern of a sign and a magnitude. -/
def f64Mk (neg : Bool) (q : Rat) : DWord :=
  BitVec.ofNat 64 (roundMag 53 (-1074) 0x7FF0000000000000 q + if neg then 0x8000000000000000 else 0)

/-- The quiet NaN of binary32 an operation makes; its sign and payload are free. -/
def f32Nan : Word := 0x7FC00000 ||| Config.nanPayload

/-- The quiet NaN of binary64. -/
def f64Nan : DWord := 0x7FF8000000000000 ||| Config.nanPayload64

/-- What a binary32 pattern stands for. -/
def f32Val (w : Word) : FVal :=
  let n := w.toNat
  let neg := w.getLsbD 31
  let e : Nat := n / 8388608 % 256
  let f : Nat := n % 8388608
  if e = 255 then (if f = 0 then .inf neg else .nan)
  else if e = 0 then .fin neg ((f : Rat) * pow2 (-149))
  else .fin neg (((f + 8388608 : Nat) : Rat) * pow2 ((e : Int) - 150))

/-- What a binary64 pattern stands for. -/
def f64Val (w : DWord) : FVal :=
  let n := w.toNat
  let neg := w.getLsbD 63
  let e : Nat := n / 4503599627370496 % 2048
  let f : Nat := n % 4503599627370496
  if e = 2047 then (if f = 0 then .inf neg else .nan)
  else if e = 0 then .fin neg ((f : Rat) * pow2 (-1074))
  else .fin neg (((f + 4503599627370496 : Nat) : Rat) * pow2 ((e : Int) - 1075))

/-- The binary32 pattern of a value. -/
def f32Of : FVal → Word
  | .nan => f32Nan
  | .inf neg => if neg then 0xFF800000 else 0x7F800000
  | .fin neg q => f32Mk neg q

/-- The binary64 pattern of a value. -/
def f64Of : FVal → DWord
  | .nan => f64Nan
  | .inf neg => if neg then 0xFFF0000000000000 else 0x7FF0000000000000
  | .fin neg q => f64Mk neg q

/-- The signed rational of a finite value. -/
def FVal.rat? : FVal → Option Rat
  | .fin neg q => some (if neg then -q else q)
  | _ => none

/-- A value of a rational. A zero is positive. -/
def FVal.ofRat (q : Rat) : FVal := .fin (decide (q < 0)) (if q < 0 then -q else q)

/-- A value of a rational that keeps a given sign for zero. -/
def FVal.ofRatS (zeroNeg : Bool) (q : Rat) : FVal :=
  if q = 0 then .fin zeroNeg 0 else FVal.ofRat q

/-- Negation. -/
def FVal.neg : FVal → FVal
  | .nan => .nan
  | .inf s => .inf (!s)
  | .fin s q => .fin (!s) q

/-- Magnitude. -/
def FVal.abs : FVal → FVal
  | .nan => .nan
  | .inf _ => .inf false
  | .fin _ q => .fin false q

/-- Exact sum. -/
def FVal.add : FVal → FVal → FVal
  | .nan, _ | _, .nan => .nan
  | .inf a, .inf b => if a = b then .inf a else .nan
  | .inf a, .fin _ _ | .fin _ _, .inf a => .inf a
  | .fin s a, .fin t b =>
    FVal.ofRatS (s && t) ((if s then -a else a) + (if t then -b else b))

/-- Exact difference. -/
def FVal.sub (x y : FVal) : FVal := x.add y.neg

/-- Exact product. -/
def FVal.mul : FVal → FVal → FVal
  | .nan, _ | _, .nan => .nan
  | .inf a, .inf b => .inf (a != b)
  | .inf a, .fin s q | .fin s q, .inf a => if q = 0 then .nan else .inf (a != s)
  | .fin s a, .fin t b => .fin (s != t) (a * b)

/-- Exact quotient. -/
def FVal.div : FVal → FVal → FVal
  | .nan, _ | _, .nan => .nan
  | .inf _, .inf _ => .nan
  | .inf a, .fin s _ => .inf (a != s)
  | .fin s _, .inf a => .fin (s != a) 0
  | .fin s a, .fin t b =>
    if b = 0 then (if a = 0 then .nan else .inf (s != t)) else .fin (s != t) (a / b)

/-- `x < y` of IEEE 754 (false with a NaN). -/
def FVal.lt : FVal → FVal → Bool
  | .nan, _ | _, .nan => false
  | .inf a, .inf b => a && !b
  | .inf a, .fin _ _ => a
  | .fin _ _, .inf b => !b
  | .fin s a, .fin t b => decide ((if s then -a else a) < (if t then -b else b))

/-- `x = y` of IEEE 754 (false with a NaN). -/
def FVal.eq : FVal → FVal → Bool
  | .nan, _ | _, .nan => false
  | .inf a, .inf b => a == b
  | .inf _, .fin _ _ | .fin _ _, .inf _ => false
  | .fin s a, .fin t b => decide ((if s then -a else a) = (if t then -b else b))

/-- `x ≤ y` of IEEE 754. -/
def FVal.le (x y : FVal) : Bool := x.lt y || x.eq y

/-- Neither an infinity nor a NaN. -/
def FVal.finite : FVal → Bool
  | .fin _ _ => true
  | _ => false

/-- The integer square root, bit by bit from bit `n - 1`. -/
def isqrt : Nat → Nat → Nat → Nat
  | 0, _, r => r
  | n + 1, x, r => isqrt n x (if (r + 2 ^ n) * (r + 2 ^ n) ≤ x then r + 2 ^ n else r)

/-- A rational near the square root of a positive rational: its first `p + 4` or more bits, with one more bit that
says whether they are inexact, so that it rounds as the square root does. -/
def sqrtNear (p : Nat) (q : Rat) : Rat :=
  let k : Int := ((p : Int) + 4) - (ratLog2 q) / 2
  let s := q * pow2 (2 * k)
  let n := (ratFloor s).toNat
  let r := isqrt (p + 8) n 0
  let exact := decide ((r : Rat) * r = s)
  ((4 * r + (if exact then 0 else 1) : Nat) : Rat) * pow2 (-k - 2)

/-- Square root for precision `p`. -/
def FVal.sqrt (p : Nat) : FVal → FVal
  | .nan => .nan
  | .inf neg => if neg then .nan else .inf false
  | .fin neg q => if q = 0 then .fin neg 0 else if neg then .nan else .fin false (sqrtNear p q)

/-! ### binary32 -/

/-- Sum of binary32. -/
def f32Add (a b : Word) : Word := f32Of ((f32Val a).add (f32Val b))
/-- Difference of binary32. -/
def f32Sub (a b : Word) : Word := f32Of ((f32Val a).sub (f32Val b))
/-- Product of binary32. -/
def f32Mul (a b : Word) : Word := f32Of ((f32Val a).mul (f32Val b))
/-- Quotient of binary32. -/
def f32Div (a b : Word) : Word := f32Of ((f32Val a).div (f32Val b))
/-- Square root of binary32. -/
def f32Sqrt (a : Word) : Word := f32Of ((f32Val a).sqrt 24)
/-- Magnitude of binary32. -/
def f32Abs (a : Word) : Word := a &&& 0x7FFFFFFF
/-- Negation of binary32. -/
def f32Neg (a : Word) : Word := a ^^^ 0x80000000
/-- Less than. -/
def f32Lt (a b : Word) : Bool := (f32Val a).lt (f32Val b)
/-- Less than or equal. -/
def f32Le (a b : Word) : Bool := (f32Val a).le (f32Val b)
/-- Neither infinite nor NaN. -/
def f32Finite (a : Word) : Bool := (f32Val a).finite
/-- A NaN. -/
def f32IsNan (a : Word) : Bool := decide (f32Val a = .nan)
/-- The binary32 nearest to a rational. -/
def f32OfRat (q : Rat) : Word := f32Of (FVal.ofRat q)
/-- The binary32 nearest to an integer. -/
def f32OfInt (i : Int) : Word := f32OfRat i
/-- The rational of a binary32, 0 where it is not finite. -/
def f32Rat (w : Word) : Rat := (f32Val w).rat?.getD 0

/-! ### binary64 -/

/-- Sum of binary64. -/
def f64Add (a b : DWord) : DWord := f64Of ((f64Val a).add (f64Val b))
/-- Difference of binary64. -/
def f64Sub (a b : DWord) : DWord := f64Of ((f64Val a).sub (f64Val b))
/-- Product of binary64. -/
def f64Mul (a b : DWord) : DWord := f64Of ((f64Val a).mul (f64Val b))
/-- Quotient of binary64. -/
def f64Div (a b : DWord) : DWord := f64Of ((f64Val a).div (f64Val b))
/-- Square root of binary64. -/
def f64Sqrt (a : DWord) : DWord := f64Of ((f64Val a).sqrt 53)
/-- Magnitude of binary64. -/
def f64Abs (a : DWord) : DWord := a &&& 0x7FFFFFFFFFFFFFFF
/-- Negation of binary64. -/
def f64Neg (a : DWord) : DWord := a ^^^ 0x8000000000000000
/-- Less than. -/
def f64Lt (a b : DWord) : Bool := (f64Val a).lt (f64Val b)
/-- Less than or equal. -/
def f64Le (a b : DWord) : Bool := (f64Val a).le (f64Val b)
/-- Neither infinite nor NaN. -/
def f64Finite (a : DWord) : Bool := (f64Val a).finite
/-- The binary64 nearest to a rational. -/
def f64OfRat (q : Rat) : DWord := f64Of (FVal.ofRat q)
/-- The binary64 nearest to an integer. -/
def f64OfInt (i : Int) : DWord := f64OfRat i
/-- The rational of a binary64, 0 where it is not finite. -/
def f64Rat (w : DWord) : Rat := (f64Val w).rat?.getD 0
/-- binary32 to binary64, exact. -/
def f64Of32 (w : Word) : DWord := f64Of (f32Val w)
/-- binary64 to binary32, rounded. -/
def f32Of64 (w : DWord) : Word := f32Of (f64Val w)

end Sys2Proof.Machine
end

