-- ==== Sys2Proof/Machine/Functions.lean ====
section
/-! DEFINITION. The elementary functions the spec names (sine, cosine, arc tangent, logarithm, exponential, power, tangent):
computed in fixed point with 160 fractional bits and rounded once to the nearest binary64. The spec names the functions and
not their rounding (log 9). -/

namespace Sys2Proof.Machine

open Sys2Proof

/-- Fixed-point one: 160 fractional bits. -/
def fxOne : Int := 2 ^ 160

/-- A rational in fixed point. -/
def fxOf (q : Rat) : Int := ratFloor (q * 2 ^ 160)

/-- The rational of a fixed-point number. -/
def fxRat (x : Int) : Rat := (x : Rat) / 2 ^ 160

/-- Product in fixed point. -/
def fxMul (a b : Int) : Int := a * b / 2 ^ 160

/-- Quotient in fixed point. -/
def fxDiv (a b : Int) : Int := a * 2 ^ 160 / b

/-- Square root in fixed point. -/
def fxSqrt (a : Int) : Int := (isqrt 168 (a.toNat * 2 ^ 160) 0 : Nat)

/-- π in fixed point, from 60 decimals. -/
def fxPi : Int :=
  fxOf (3141592653589793238462643383279502884197169399375105820974944 / 1000000000000000000000000000000000000000000000000000000000000)

/-- The natural logarithm of 2 in fixed point, from 60 decimals. -/
def fxLn2 : Int :=
  fxOf (693147180559945309417232121458176568075500134360255254120680 / 1000000000000000000000000000000000000000000000000000000000000)

/-- `n` terms of 1 − x²/(a·b)·(1 − x²/((a+2)·(b+2))·(…)), `b = a + 1`: the sine's and the cosine's power series. -/
def fxTrig : Nat → Nat → Int → Int
  | 0, _, _ => fxOne
  | n + 1, a, x2 => fxOne - fxMul x2 (fxTrig n (a + 2) x2) / ((a * (a + 1) : Nat) : Int)

/-- The angle less a whole number of turns, in about (−π, π]. -/
def fxReduce (x : Int) : Int := x - 2 * fxPi * ((x + fxPi) / (2 * fxPi))

/-- Sine. -/
def fxSin (x : Int) : Int := let y := fxReduce x; fxMul y (fxTrig 36 2 (fxMul y y))

/-- Cosine. -/
def fxCos (x : Int) : Int := let y := fxReduce x; fxTrig 36 1 (fxMul y y)

/-- `n` terms of 1 + x/k·(1 + x/(k+1)·(…)). -/
def fxExpSeries : Nat → Nat → Int → Int
  | 0, _, _ => fxOne
  | n + 1, k, x => fxOne + fxMul x (fxExpSeries n (k + 1) x) / (k : Int)

/-- `n` terms of t·(1/k + t²·(1/(k+2) + …)). -/
def fxOdd : Nat → Nat → Int → Int
  | 0, _, _ => 0
  | n + 1, k, t2 => fxOne / (k : Int) + fxMul t2 (fxOdd n (k + 2) t2)

/-- Exponential, as a rational. -/
def expRat (x : Rat) : Rat :=
  let y := fxOf x
  let m := y / fxLn2
  fxRat (fxExpSeries 40 1 (y - m * fxLn2)) * pow2 m

/-- Logarithm of a positive rational. -/
def lnFx (q : Rat) : Int :=
  let e := ratLog2 q
  let m := fxOf (q * pow2 (-e))
  let t := fxDiv (m - fxOne) (m + fxOne)
  2 * fxMul t (fxOdd 52 1 (fxMul t t)) + e * fxLn2

/-- Half the angle of a tangent. -/
def fxHalf (t : Int) : Int := fxDiv t (fxOne + fxSqrt (fxOne + fxMul t t))

/-- Arc tangent of a number from 0 to 1: the angle is halved three times before the series. -/
def fxAtan (t : Int) : Int :=
  let u := fxHalf (fxHalf (fxHalf t))
  8 * fxMul u (fxOdd 30 1 (- fxMul u u))

/-- Magnitude of a rational. -/
def ratAbs (q : Rat) : Rat := if q < 0 then -q else q

/-- The angle of a point off the axes' origin. -/
def atan2Rat (y x : Rat) : Rat :=
  let ay := ratAbs y
  let ax := ratAbs x
  let q := if ay ≤ ax then ay / ax else ax / ay
  let a := if q < 1 / 2 ^ 64 then q else fxRat (fxAtan (fxOf q))
  let b := if ay ≤ ax then a else fxRat fxPi / 2 - a
  let c := if 0 ≤ x then b else fxRat fxPi - b
  if y < 0 then -c else c

/-- A function of finite numbers, rounded once; NaN of anything else. -/
def f64Fun (f : Rat → Rat) (a : DWord) : DWord :=
  match (f64Val a).rat? with
  | some q => f64OfRat (f q)
  | none => f64Of .nan

/-- Sine of binary64. -/
def f64Sin : DWord → DWord := f64Fun (fun q => if ratAbs q < 1 / 2 ^ 64 then q else fxRat (fxSin (fxOf q)))

/-- Cosine of binary64. -/
def f64Cos : DWord → DWord := f64Fun (fun q => fxRat (fxCos (fxOf q)))

/-- Natural logarithm of binary64. -/
def f64Ln (a : DWord) : DWord :=
  match f64Val a with
  | .inf false => a
  | .fin n q => if q = 0 then f64Of (.inf true) else if n then f64Of .nan else f64OfRat (fxRat (lnFx q))
  | _ => f64Of .nan

/-- Exponential of binary64. -/
def f64Exp (a : DWord) : DWord :=
  match f64Val a with
  | .inf n => if n then 0 else a
  | .fin n q => if 800 < q then (if n then 0 else f64Of (.inf false)) else f64OfRat (expRat (if n then -q else q))
  | .nan => f64Of .nan

/-- Power of binary64 for a base that is not negative. -/
def f64Pow (a b : DWord) : DWord :=
  match f64Val a, (f64Val b).rat? with
  | .fin n q, some e =>
    if e = 0 then f64OfInt 1
    else if q = 0 then (if 0 < e then 0 else f64Of (.inf false))
    else if n then f64Of .nan
    else
      let x := e * fxRat (lnFx q)
      if 800 < x then f64Of (.inf false) else if x < -800 then 0 else f64OfRat (expRat x)
  | .inf false, some e => if e = 0 then f64OfInt 1 else if 0 < e then a else 0
  | _, _ => f64Of .nan

/-- Angle of the point (x, y) of binary64, in (−π, π]. -/
def f64Atan2 (y x : DWord) : DWord :=
  match f64Val y, f64Val x with
  | .fin sy qy, .fin sx qx =>
    let sgn := fun (s : Bool) (q : Rat) => if s then -q else q
    if qy = 0 then (if sx then f64OfRat (fxRat fxPi) else f64Of (FVal.ofRatS sy 0))
    else f64OfRat (atan2Rat (sgn sy qy) (sgn sx qx))
  | .inf sy, .fin _ _ => f64OfRat (fxRat fxPi * (if sy then -1 else 1) / 2)
  | .fin sy _, .inf sx => if sx then f64OfRat (fxRat fxPi) else f64Of (FVal.ofRatS sy 0)
  | .inf sy, .inf sx => f64OfRat (fxRat fxPi * (if sy then -1 else 1) * (if sx then 3 else 1) / 4)
  | _, _ => f64Of .nan

end Sys2Proof.Machine
end

