-- ==== Sys2Proof/Machine/State.lean ====
section
/-! DEFINITION. The state of the GLS-4640: every register, table, buffer, counter, mode and land the spec gives the
module, as plain data, with the queue of waiting commands; the reasons a step can stop; the state right after reset.
Each field's docstring gives its width, the file of spec/ and the rule that names it, and its reset value. -/

namespace Sys2Proof.Machine

open Sys2Proof

/-- Reasons a step stops with a fault. No meaning of this model raises one: the block has no command whose effect is a
stop. -/
inductive Fault where
  /-- Nobody raises it; it stands so that the type is not empty. Safe: no run ends in it. -/
  | spare
  deriving DecidableEq, Repr

/-- Reasons a step answers no meaning. -/
inductive Refusal where
  /-- An arm of `exec` whose meaning is not written yet. Safe: the machine stops. -/
  | notModelled (mnemonic : String)
  deriving DecidableEq, Repr

/-! ### Device level (01, 18) -/

/-- The device states of R28. -/
inductive DevState where
  | boot | safe | config | run | sleep | halt
  deriving DecidableEq, Repr

/-- What manufacture fixes (R2, R3, R50, R123, R263, R374). -/
structure Ident where
  /-- variant GLS-4640-M, else GLS-4640-A; 1 bit; 00 R2; reset true, DESIGN CHOICE (log 4) -/
  variantM   : Bool
  /-- screening suffix -E; 1 bit; 00 R3; reset false, DESIGN CHOICE (log 4) -/
  screenedE  : Bool
  /-- device ID, VLT.DEVICE_ID; 64 bits; 14 R374; reset 0, DESIGN CHOICE (log 4) -/
  deviceId   : DWord
  /-- silicon revision; 16 bits; 02 R50; reset 0, DESIGN CHOICE (log 4) -/
  siliconRev : Half
  /-- PRT.MAC_BASE; 48 bits; 04 R123; reset 0, DESIGN CHOICE (log 4) -/
  macBase    : Nat
  /-- CUS.LEGAL_ID; 21 words; 09 R263; reset all zero, DESIGN CHOICE (log 4) -/
  legalId    : List Word
  /-- baseline patina section words recorded at manufacture on -E; 20 R463; reset empty (all zero, 00 R3) -/
  baseline   : AMap (List Word)
  deriving DecidableEq, Repr

/-- The run state of a unit, as UNIT_STATE codes it (R68, R424). -/
structure UnitSt where
  /-- reset epoch of the unit; 8 bits; 02 R31, 18 R424; reset 0, DESIGN CHOICE (log 5) -/
  epoch : BitVec 8
  /-- 0 running, 1 quiesced, 2 in reset, 3 updating, 4 powered down; 8 bits; 02 R68; reset 4 (nothing runs before boot completes, 01 R28) -/
  st    : Nat
  deriving DecidableEq, Repr

/-! ### What leaves the module -/

/-- A notification (R68): opcode, status, epoch of the originating unit, payload from w4. -/
structure Notice where
  opcode  : Nat
  status  : Nat
  unit    : Nat
  epoch   : BitVec 8
  payload : List Word
  deriving DecidableEq, Repr

/-- A destination of notifications (R68). -/
inductive NoticeDest where
  | ring (n : Nat)
  | uart
  | udp (k : Nat)
  | peer (c : Carriage)
  deriving DecidableEq, Repr

/-- A reply packet (R31, R34, R44, R45). -/
structure Reply where
  carriage : Carriage
  opcode   : Nat
  tag      : Half
  session  : Nat
  seq      : Word
  status   : Nat
  epoch    : Half
  payload  : List Word
  authTag  : List Byte
  deriving DecidableEq, Repr

/-- A receive descriptor as the module fills it, with the bytes it writes to the buffer (R114). -/
structure RxDesc where
  frameLen : Nat
  data     : List Byte
  port     : Nat
  tagged   : Bool
  eop      : Bool
  sop      : Bool
  arrival  : DWord
  deriving DecidableEq, Repr

/-- Everything the outside can see leave the module, in the order it leaves. A reply or a notification leaves as the record and
as the bytes the carriage takes; a message of the module itself that goes out in a frame leaves as the record when the last
byte of the frame has left. -/
inductive Output where
  | reply (r : Reply) (wire : List Byte)
  | notice (d : NoticeDest) (seq : Word) (n : Notice) (wire : List Byte)
  | frame (port : Nat) (rank : Nat) (bytes : List Byte)
  | oaf (port : Nat) (peer : Peer) (words : List Word)
  | c37 (pod dest : Nat) (kind : Nat) (words : List Word)
  | barRead (value : Word)
  | irq (vector : Nat)
  | txDone (ring : Nat) (status : Nat) (stamp : Option Nat)
  | toHost (port : Nat) (descriptors : List RxDesc)
  | steered (port : Nat) (dest : Nat)
  | tcpRst (peer : Peer)
  | tcpAccept (conn : Nat) (peer : Peer)
  | tcpClose (conn : Nat)
  | ptp (port : Nat) (kind : Nat) (words : List Word)
  | c37Command (src : Nat) (command : Nat)
  | goose (cb : Nat) (stNum sqNum : Nat) (t : Nat) (ttl : Nat) (values : List (Word × Word))
  | control (src : Nat) (bytes : List Byte)
  | current (land : Nat) (code : Nat)
  | chop (land : Nat) (cfg : Nat)
  | mdio (port : Nat) (khz : Nat) (register : Nat) (value : Nat)
  deriving DecidableEq, Repr

/-- A frame waiting in a port's transmit queue, with its rank (R116): the host ring it came from, whether it is the first
and the last frame of its send, cut by TSO, with a stamp asked for (R117, R118); and the message of the module it carries or
carries a part of, which has left once its last frame has. -/
structure TxItem where
  rank  : Nat
  ring  : Option Nat
  bytes : List Byte
  tsReq : Bool
  tso   : Bool
  first : Bool
  last  : Bool
  msg   : Option Output := none
  deriving DecidableEq, Repr

/-! ### Command protocol (02) -/

/-- A session (R46 to R48). -/
structure Session where
  /-- key slot; 7 bits; 02 R46 -/
  slot       : Nat
  /-- 1 OPERATOR, 2 OWNER; 8 bits; 02 R46 -/
  role       : Nat
  /-- session key; 32 bytes; 02 R47 -/
  key        : List Byte
  /-- activated by phase 2; 1 bit; 02 R46 -/
  active     : Bool
  /-- host nonce; 16 bytes; 02 R46 -/
  hostNonce  : List Byte
  /-- module nonce; 16 bytes; 02 R46 -/
  modNonce   : List Byte
  /-- last SEQUENCE accepted; 32 bits; 02 R43 -/
  lastSeq    : Option Word
  /-- instant of the phase-1 reply or of the last valid request; 02 R47, R48 -/
  lastAt     : Nat
  /-- TCP connection that carries it; 02 R37 -/
  conn       : Option Nat
  deriving DecidableEq, Repr

/-- What a maquette entry holds: a parameter value, or a source command (R58, R64). -/
inductive MaqVal where
  | value (words : List Word)
  | define (words : List Word)
  | remove
  deriving DecidableEq, Repr

/-- A maquette entry and the session that wrote it (R64). -/
structure MaqEntry where
  session : Nat
  val     : MaqVal
  deriving DecidableEq, Repr

/-- The stages of a pending commit (R64). -/
inductive CommitStage where
  | checking
  | waitConsolidation
  | flash
  | stored
  deriving DecidableEq, Repr

/-- A pending commit (R59 to R64). -/
structure Commit where
  req      : Req
  kind     : Nat
  pod      : Nat
  at_      : Nat
  stage    : CommitStage
  number   : Word
  boundary : Nat
  toFlash  : Bool
  deriving DecidableEq, Repr

/-- A conflict record (R64, R402). -/
structure Conflict where
  resource : Nat
  code     : Nat
  id1      : Nat
  inst1    : Nat
  item2    : Word
  detail   : Word
  deriving DecidableEq, Repr

/-- A configuration as it is stored or in force: parameter values that differ from reset, source definitions, the commit that
made it and its boundary, and for each pod the commit under which its definition was committed and that boundary (R63, R177). -/
structure Config where
  par      : AMap (List Word)
  sources  : AMap (List Word)
  commit   : Word
  boundary : Nat
  pods     : AMap (Word × Nat)
  deriving DecidableEq, Repr

/-- A configuration slot of the boot flash (R63): erased; erasing or programmed in part, so that its CRC is not valid; or a
whole configuration with its CRC-32C. -/
inductive FlashSlot where
  | erased
  | partly
  | whole (c : Config) (crc : Word)
  deriving DecidableEq, Repr

/-- A record of the configuration journal (R63): commit number, boundary, the maquette's entries, CRC-32C, and whether it
carries its applied mark. -/
structure JournalRec where
  number   : Word
  boundary : Nat
  entries  : AMap MaqEntry
  crc      : Word
  applied  : Bool
  deriving DecidableEq, Repr

/-- A reply that is due in the order of its requests (R42): the unit and the source it belongs to, the request's opcode, TAG and
SEQUENCE, and the reply once it is made. -/
structure Owed where
  unit   : Nat
  source : Carriage
  op     : Nat
  tag    : Half
  seq    : Word
  reply  : Option Reply
  deriving DecidableEq, Repr

/-- A ring's registers and what lies behind it (R69, R70). -/
structure Ring where
  /-- BASE_LO, BASE_HI; 64 bits; 02 R69; reset 0 -/
  base     : DWord
  /-- SIZE; 32 bits; 02 R69; reset 0 -/
  size     : Word
  /-- RING_CTL bit 0 ENABLE; 1 bit; 02 R69; reset 0 -/
  enable   : Bool
  /-- last DOORBELL index; 16 bits; 02 R69; reset 0 (write-only, DESIGN CHOICE, log 4) -/
  producer : Nat
  /-- HEAD; 16 bits; 02 R69; reset 0 -/
  head     : Nat
  /-- sizes of the buffers posted and not yet filled, oldest first; 02 R70, 04 R114; reset none -/
  posted   : List Nat
  /-- transmit descriptors fetched, not yet completed; 04 R117; reset none -/
  sends    : List TxDesc
  /-- descriptors of the send in progress, transmit stamp of its first frame; 04 R117; reset 0, none -/
  inFlight : Nat
  txStamp  : Option Nat
  /-- replies waiting for a free descriptor, with the instant the wait began; 02 R70; reset none -/
  waiting  : List (Nat × Reply)
  deriving DecidableEq, Repr

/-- A subscription to POD_DATA (R181). -/
structure Subscription where
  pod    : Nat
  dest   : NoticeDest
  layout : Bool
  deriving DecidableEq, Repr

/-- A TCP connection in use (R37, R406): what holds it. -/
structure TcpConn where
  peer   : Peer
  port   : Nat
  /-- 0 command peer, 1 C37_TCP source, 2 TYPE 2 destination -/
  use    : Nat
  owner  : Nat
  lastAt : Nat
  /-- the module's TCP port; 02 R37, 05 R129, 06 R179 -/
  lport  : Nat
  /-- bytes the module has sent on it; 04 R118; 0 when it opens -/
  sent   : Nat
  deriving DecidableEq, Repr

/-- A datagram in reassembly (R113). -/
structure Reassembly where
  port    : Nat
  v6      : Bool
  src     : Nat
  dst     : Nat
  ident   : Nat
  proto   : Nat
  firstAt : Nat
  parts   : List (Nat × Bool × List Byte)
  /-- Ethernet and IP header of the first fragment, empty until it has come -/
  head    : List Byte
  /-- a word of one of its fragments was poisoned; 16 R395 -/
  poison  : Bool
  deriving DecidableEq, Repr

/-- A live-window latch (R71): requester, offset, latched high half; most recently used first. -/
structure Latch where
  requester : Nat
  offset    : Nat
  high      : Word
  deriving DecidableEq, Repr

/-- The control complex: requests, maquette, configuration store, rings, scheduler (02, 16, 18). -/
structure Ctl where
  /-- configuration in force: parameter values, source definitions, commit number, boundary; 02 R58, R63; reset all at reset values, commit 0 -/
  cfg          : Config
  /-- the two configuration slots of the boot flash; 02 R63; reset slot 0 the empty configuration of commit 0, slot 1 erased, DESIGN
  CHOICE (log 4) -/
  flash        : AMap FlashSlot
  /-- the configuration journal, oldest record first, at most 589,824 bytes; 02 R63; reset empty, DESIGN CHOICE (log 4) -/
  journal      : List JournalRec
  /-- the configuration that a running flash write programs, a consolidation or a commit's; 02 R63; reset none -/
  image        : Option Config
  /-- how many records of the journal that configuration includes; 02 R63; reset 0 -/
  included     : Nat
  /-- maquette, up to 524,288 entries, keyed ID * 65536 + instance; 02 R58; reset empty -/
  maquette     : AMap MaqEntry
  /-- pending commit; 02 R64; reset none -/
  commit       : Option Commit
  /-- last commit number used; 32 bits; 02 R59; reset 0 -/
  commitNo     : Word
  /-- conflict records kept for READ_CONFLICTS, up to 4,096; 02 R60; reset empty -/
  conflicts    : List Conflict
  /-- flash configuration slot in force; 1 bit; 02 R63; reset 0, DESIGN CHOICE (log 4) -/
  cfgSlot      : Nat

  /-- consolidations since manufacture; 64 bits; 02 R63; reset 0, DESIGN CHOICE (log 4) -/
  consolidations : DWord
  /-- work on the flash slot that is not in force: 0 none, 1 a consolidation programs, 2 it erases, 3 it is erased after a commit's
  flash write; 02 R63; reset 0 -/
  consolidating : Nat
  /-- sessions, keyed by number 1 to 255, at most 32; 02 R46; reset none -/
  sessions     : AMap Session
  /-- command buffers busy: the carriage each packet came on and its bytes, at most 64; 02 R70; reset none -/
  buffers      : List (Carriage × FetchedPacket)
  /-- packets that wait because every buffer is busy or fetching is paused; 02 R70; reset none -/
  unfetched    : List (Carriage × FetchedPacket)
  /-- replies due in request order: requests whose reply is still to come, and replies made behind them; 02 R42; reset none -/
  owed         : List Owed
  /-- command ring whose packet was fetched last, for the round robin; 16 R391; reset 55, DESIGN CHOICE (log 4) -/
  lastCmdRing  : Nat
  /-- rings 0 to 63; 02 R69; reset registers 0 -/
  rings        : AMap Ring
  /-- HOST_CTL; 32 bits; 02 R69; reset 0x0000_0000 -/
  hostCtl      : Word
  /-- IRQ_HOLDOFF; 32 bits; 02 R69; reset 0x0000_0000 -/
  irqHoldoff   : Word
  /-- MSI-X table words by byte offset; 64 entries of 16 bytes; 02 R69; reset 0, DESIGN CHOICE (log 4) -/
  msix         : AMap Word
  /-- instant of the last interrupt of each vector; 02 R69; reset none -/
  irqLast      : AMap Nat
  /-- interrupts held back by IRQ_HOLDOFF; 64 bits; 02 R69; reset none -/
  irqHeld      : List Nat
  /-- live-window latches, at most 8, most recently used first; 02 R71; reset none -/
  latches      : List Latch
  /-- notification SEQUENCE last sent, per destination; 32 bits; 02 R68; reset none sent -/
  noticeSeq    : List (NoticeDest × Word)
  /-- POD_DATA subscriptions, at most 16; 06 R181; reset none -/
  subs         : List Subscription
  /-- TCP connections in use, keyed 0 to 63; 17 R406; reset none -/
  tcp          : AMap TcpConn
  /-- datagrams in reassembly, at most 16; 04 R113; reset none -/
  reasm        : List Reassembly
  /-- counters, keyed ID * 65536 + instance; 64 bits, saturating; 02 R65; reset 0 -/
  counters     : AMap Nat
  /-- host link trained: PE_PERST_N released; 1 bit; 18 R419; reset released, DESIGN CHOICE (log 4) -/
  linkUp       : Bool
  /-- units being drained, oldest first, each with the request to answer and the instant it began; 18 R424; reset none -/
  drain        : List (Nat × Req × Nat)
  /-- unit under SELF_TEST, with the request to answer; 16 R393; reset none -/
  selfTest     : Option (Nat × Req)
  /-- start of the SCHED_STATS window; 16 R390; reset 0 -/
  statsStart   : Nat
  /-- delayed tasks: level, expiry, task number; 16 R389; reset none -/
  delays       : List (Nat × Nat × Nat)
  /-- ready tasks: level, task number, instant made ready, in ready order; 16 R387; reset none -/
  ready        : List (Nat × Nat × Nat)
  /-- tasks that wait for other work: level, task number, dependence counter; 16 R388; reset none -/
  waits        : List (Nat × Nat × Nat)
  /-- largest depth of each level's ready queue in the window; 16 R390; reset 0 -/
  maxDepth     : AMap Nat
  /-- state of cores 0 to 17: 0 in service, 1 spare, 2 retired, 3 testing; 16 R400; reset 0 for 0–15, 1 for 16, 17 -/
  cores        : AMap Nat
  /-- consecutive self-test failures of each core; 16 R386; reset 0 -/
  coreFails    : AMap Nat
  /-- instant of the last self-tests of the cores; 16 R386; reset 0 -/
  coreTestAt   : Nat
  /-- words held by FIFO 0 to 73, oldest first, at most 16 of 72 bits each; 16 R394; reset empty -/
  fifo         : AMap (List FifoWord)
  /-- words that the reader of a FIFO has taken of the item it is still reading; 16 R394; reset none -/
  taken        : AMap (List FifoWord)
  /-- CTL.FIFO_PEAK; 16 R400; reset 0 -/
  fifoPeak     : AMap Nat
  deriving DecidableEq, Repr

/-! ### Ports (04) -/

/-- One Ethernet port. -/
structure Port where
  /-- link up; PRT.LINK_STATUS bit 0; 04 R123; reset 0 -/
  up         : Bool
  /-- link speed code; PRT.LINK_STATUS bits 3:1; 04 R123; reset 0 -/
  speed      : Nat
  /-- down-shifted; PRT.LINK_STATUS bit 4; 04 R121; reset 0 -/
  shifted    : Bool
  /-- auto-negotiation complete; PRT.LINK_STATUS bit 5; 04 R123; reset 0 -/
  anDone     : Bool
  /-- receive FIFO: frames held whole, with arrival stamp; 04 R111; reset empty -/
  fifo       : List (Nat × List Byte)
  /-- transmit queue; 04 R116; reset empty -/
  tx         : List TxItem
  /-- frame being sent; 04 R116; reset none -/
  sending    : Option TxItem
  /-- host ring served last in the round robin of rank 5; 04 R116; reset 47, DESIGN CHOICE (log 4) -/
  lastRing   : Nat
  /-- rank 5 held by back-pressure; 16 R396; reset false -/
  held       : Bool
  /-- whole seconds below the down-shift threshold; 04 R121; reset 0 -/
  lowSeconds : Nat
  /-- no down-shift until the next commit of PRT.DOWNSHIFT_PCT; 04 R121; reset false -/
  noShift    : Bool
  /-- a partner that offers only half duplex has been refused; 04 R103; reset false -/
  hdRefused  : Bool
  /-- instant of the last down-shift; 04 R121; reset 0 -/
  shiftAt    : Nat
  /-- the link has not come up since that down-shift; 04 R121; reset false -/
  awaitUp    : Bool
  /-- instant of the last read of the PHY's status, none before the first since bring-up; 04 R106; reset none -/
  polledAt   : Option Nat
  /-- instant of the last utilisation window; 04 R121; reset 0 -/
  windowAt   : Nat
  /-- live-window frames received; 64 bits; 02 R71, 04 R111; reset 0 -/
  liveFrames : Nat
  deriving DecidableEq, Repr

/-- The ports unit. -/
structure Ports where
  /-- ports 0 to 31; 04 R102; reset link down, queues empty -/
  port      : AMap Port
  /-- PRT.WAKE_CAUSE; 21 bits; 04 R123; reset 0 -/
  wakeCause : Word
  deriving DecidableEq, Repr

/-! ### Time base (03) -/

/-- What the time base knows of one reference kind (R80, R467). -/
structure Ref where
  /-- watched since its first valid item; 03 R467; reset false -/
  watched   : Bool
  /-- qualified; 03 R80; reset false -/
  qualified : Bool
  /-- consecutive valid items or the instant qualifying began; 03 R80; reset 0 -/
  since     : Nat
  good      : Nat
  /-- consecutive missing or bad items; 03 R80; reset 0 -/
  bad       : Nat
  /-- reference inaccuracy R in ns; 03 R78; reset 0 -/
  inacc     : Rat
  /-- last measured offset in ns; 03 R78; reset 0 -/
  offset    : Int
  /-- correction of the clock in ns before that measurement; 03 R78; reset 0 -/
  corrected : Int
  deriving DecidableEq, Repr

/-- The time base. -/
structure Tim where
  /-- the GTF clock in ns since 2000-01-01 TAI; 250 MHz, 1 ns; 03 R75; reset 0 (03 R79: GTF 0 if the plinth count was lost) -/
  now        : Nat
  /-- TIM.STATE: 0 FREE, 1 ACQUIRING, 2 LOCKED, 3 HOLDOVER; 03 R79; reset 0 -/
  st         : Nat
  /-- ACQUIRING was entered from HOLDOVER; 03 R100; reset false -/
  fromHold   : Bool
  /-- reference in use 0 to 3; 03 R81; reset 0 -/
  ref        : Nat
  /-- port of the PTP reference; 03 R100; reset 0 -/
  refPort    : Nat
  /-- parent of the PTP reference; 03 R83; reset none -/
  parent     : Option Announce
  /-- E at the start of the holdover span, in ns; 03 R91; reset 0 -/
  e0         : Rat
  /-- instant the holdover span began; 03 R91; reset 0 -/
  holdSince  : Nat
  /-- remaining offset o in ns, TIM.OFFSET_NS; 64 bits signed; 03 R101; reset 0 -/
  offset     : Int
  /-- instant of that offset: it shrinks by the slew from here; 03 R93; reset 0 -/
  offsetAt   : Nat
  /-- PTP reference; 03 R80; reset not watched -/
  ptp        : Ref
  /-- IRIG-B reference; 03 R80; reset not watched -/
  irig       : Ref
  /-- PPS_IN reference; 03 R80; reset not watched -/
  pps        : Ref
  /-- correction applied to the clock since boot up to `offsetAt`, in ns; 03 R78; reset 0 -/
  corrected  : Int
  /-- the Announces that receiver ports hold, one per sender, with the instant of the last: port and portIdentity; 03 R83; reset none -/
  announces  : AMap (Announce × Nat)
  /-- instant of the last Sync of the parent, and its interval in ns; 03 R80, R82; reset 0, 1 s -/
  syncAt     : Nat
  syncEvery  : Nat
  /-- two-step Sync of the parent that waits for its Follow_Up: sequence, arrival, correction in 2^-16 ns; 03 R82; reset none -/
  sync       : Option (Nat × Nat × Int)
  /-- instant of the last announce interval of the module; 03 R82; reset none -/
  ptpAt      : Option Nat
  /-- sequence of the next PTP message of a port and type, 16 * port + type; 16 bits; 03 R82; reset 0 -/
  ptpSeq     : AMap Nat
  /-- role of each PTP port by the best-master algorithm: 0 none, 1 time receiver, 2 master, 3 passive; 03 R83; reset 0 -/
  ptpRole    : AMap Nat
  /-- time of day carried by the last valid IRIG-B frame: its edge and the TAI second in ns; 03 R88; reset none -/
  irigTod    : Option (Nat × Nat)
  /-- on-time edge of the last IRIG-B frame, or where a missing one was due; 03 R80; reset none -/
  irigLast   : Option Nat
  /-- the clock has left FREE since boot; 03 R93; reset false -/
  leftFree   : Bool
  /-- instant of the last PPS_IN edge, or where a missing one was due, less its delay; 03 R80, R88; reset none -/
  ppsLast    : Option Nat
  /-- TIM.UTC_OFFSET kept in MRAM; 32 bits signed; 03 R95; reset 37 (first boot) -/
  utcOffset  : Int
  /-- TIM.LEAP_GTF: instant and kind 0 none, 1 insert, 2 delete; 03 R101; reset all zero -/
  leapAt     : Nat
  leapKind   : Nat
  /-- offset in force before the last leap, kept 86,400 s; 03 R96; reset none -/
  prevOffset : Option Int
  /-- a leap is announced and not yet applied; 03 R96; reset false -/
  leapDue    : Bool
  /-- TQ last sent in TIME_QUALITY; 4 bits; 03 R100; reset 15, DESIGN CHOICE (log 4) -/
  sentTq     : Nat
  /-- TQ last computed; 4 bits; 03 R77; reset 15 -/
  lastTq     : Nat
  /-- TIME_LOCKED as last reported; 1 bit; 01 R28; reset 0 -/
  lastLocked : Bool
  /-- end of the second in which changes of TQ alone are held; 03 R100; reset none -/
  holdEnd    : Option Nat
  /-- PPS_OUT level; 03 R89; reset low -/
  ppsOut     : Bool
  /-- instant PPS_OUT last went high; 03 R89; reset 0 -/
  ppsAt      : Nat
  /-- PPS_OUT held low for TQ; 03 R89; reset false -/
  ppsHeld    : Bool
  /-- REF10M_IN in use; 03 R90; reset false -/
  ref10m     : Bool
  /-- instant of the last loss of REF10M_IN; 03 R90; reset 0 -/
  ref10mLost : Nat
  /-- the plinth count in ns, as of `plinthAt`; 48-bit count of 32.768 kHz; 14 R365; reset 0 -/
  plinth     : Nat
  plinthAt   : Nat
  /-- the plinth count has been set while TIME_LOCKED since the plinth memory was last lost; 03 R79; reset false -/
  plinthSet  : Bool
  /-- the plinth count was lost and no boot has restarted it since; 03 R79; reset true -/
  countLost  : Bool
  /-- TIM.GM_ID; 64 bits; 03 R101; reset 0 -/
  gmId       : DWord
  deriving DecidableEq, Repr

/-! ### Ingress (05) -/

/-- The latest message of a GOOSE source (R135, R157): stamp in ns and the entries' value and quality by q. -/
structure GooseMsg where
  stamp  : Nat
  values : AMap (Word × Half)
  deriving DecidableEq, Repr

/-- A sample of an SV source as the custody engine takes it (R134): its instant, its values and quality words. -/
structure SvSample where
  t : Nat
  e : List (Word × Half)
  deriving DecidableEq, Repr

/-- One block of a C37.118.2 configuration (R129 to R131): its FORMAT, its counts, its nominal frequency, and the scale of each
phasor and analogue, the angle offset of each phasor and the offset of each analogue. -/
structure C37Blk where
  polar     : Bool
  phFloat   : Bool
  anFloat   : Bool
  freqFloat : Bool
  phnmr     : Nat
  annmr     : Nat
  dgnmr     : Nat
  fnom50    : Bool
  phScale   : List DWord
  phAngle   : List Word
  anScale   : List DWord
  anOffset  : List DWord
  deriving DecidableEq, Repr

/-- A C37.118.2 configuration as its CFG frame gave it (R129, R130). -/
structure C37Cfg where
  timeBase : Nat
  dataRate : Int
  blocks   : List C37Blk
  deriving DecidableEq, Repr

/-- A CFG-3 series in reassembly (R129): its stream, the CONT_IDX that comes next, the bytes held. -/
structure CfgPart where
  idcode  : Nat
  station : Nat
  next    : Nat
  bytes   : List Byte
  deriving DecidableEq, Repr

/-- The run state of a source (R145 to R147). -/
structure Src where
  /-- 0 undefined, 1 awaiting CFG, 2 live, 3 DEAD, 4 CFG_MISMATCH; 05 R147; reset 0 -/
  st          : Nat
  /-- last source stamp accepted; 05 R125; reset no time -/
  lastStamp   : Option Nat
  /-- last arrival stamp; 05 R147; reset no time -/
  lastArrival : Option Nat
  /-- instant liveness counts from; 05 R146; reset 0 -/
  aliveAt     : Nat
  /-- the latency model has been seeded; 05 R145; reset false -/
  seeded      : Bool
  /-- ING.LAT_MEAN_US; 32 bits; 05 R145; reset 0 -/
  mean        : Nat
  /-- ING.LAT_P95_US; 32 bits; 05 R145; reset 0 -/
  p95         : Nat
  /-- frames accepted; 64 bits; 05 R147; reset 0 -/
  frames      : Nat
  /-- second of the rate window and its count; 05 R127; reset 0 -/
  winSecond   : Nat
  winCount    : Nat
  /-- CFG in use; 05 R130; reset none -/
  cfg         : Option C37Cfg
  /-- instants of the last CFG request and of the last attempt to open the TCP connection; 05 R129, R130; reset 0 -/
  cfgAskedAt  : Nat
  tcpTriedAt  : Nat
  /-- last stNum of a GOOSE source; 05 R135; reset none -/
  stNum       : Option Nat
  /-- timeAllowedToLive of the last GOOSE message, ms; 05 R146; reset 0 -/
  ttlMs       : Nat
  /-- GOOSE messages whose values slots may still carry, newest first; 06 R157; reset none -/
  goose       : List GooseMsg
  /-- samples of an SV source for the custody engine, newest first, at most 1,024; 05 R134; reset none -/
  sv          : List SvSample
  /-- boundary of the commit that defined it: no older slot knows it; 05 R143; reset 0 -/
  definedAt   : Nat
  /-- last report instant of a local source that was written or missed; 11 R294; reset none -/
  reported    : Option Nat
  deriving DecidableEq, Repr

/-- A learn-list record (R126, R147). -/
structure Learn where
  kind   : Nat
  port   : Nat
  key    : List Byte
  seen   : Nat
  first  : Nat
  last   : Nat
  deriving DecidableEq, Repr

/-- The ingress classifier. -/
structure Ing where
  /-- run state of sources 0 to 8,191; 05 R124; reset undefined -/
  src    : AMap Src
  /-- learn list, 256 records, most recently seen first; 05 R126; reset empty -/
  learn  : List Learn
  /-- released catalogue indices still held, with the instant each is free; 05 R142; reset none -/
  held   : AMap Nat
  /-- CFG-3 series in reassembly; 05 R129; reset none -/
  parts  : List CfgPart
  deriving DecidableEq, Repr

/-! ### Alignment (06) -/

/-- An aligned entry (R153). -/
structure Entry where
  v : Word
  q : Word
  deriving DecidableEq, Repr

/-- A position of a pod (R150): source, quantity, catalogue kind 0 F32, 1 COUNT64 low, 2 STATUS32, 3 COUNT64 high, unit
code and catalogue index. -/
structure Pos where
  src   : Nat
  q     : Nat
  kind  : Nat
  unit  : Nat
  index : Nat
  deriving DecidableEq, Repr

/-- A member of a pod (R150, R178): source, kind, report rate, its quantity count and its C37.118.2 block layout
PHNMR, ANNMR, DGNMR. -/
structure Member where
  src    : Nat
  kind   : Nat
  rate   : Nat
  n      : Nat
  layout : Option (Nat × Nat × Nat)
  deriving DecidableEq, Repr

/-- A pod's definition as a slot keeps it for its whole life (R173). -/
structure PodDef where
  rate      : Nat
  members   : List Member
  positions : List Pos
  policy    : Nat
  waitNs    : Nat
  tolNs     : Nat
  subst     : Nat
  revisions : Bool
  horizonNs : Nat
  batchNs   : Nat
  holdNs    : Nat
  deep      : Bool
  format    : Nat
  dests     : List (List Word)
  idcode    : Nat
  fnom      : Nat
  commit    : Word
  boundary  : Nat
  deriving DecidableEq, Repr

/-- A slot of a pod (R155 to R171). -/
structure Slot where
  defn      : PodDef
  /-- closed; 06 R159 -/
  closed    : Bool
  /-- cause of edition 0; 06 R159 -/
  causes    : List Nat
  closedAt  : Nat
  /-- awaited members, fixed at the opening; 06 R158 -/
  awaited   : List Nat
  /-- members that have arrived; 06 R158 -/
  arrived   : List Nat
  /-- awaited members absent from edition 0; 06 R183 -/
  missing   : List Nat
  /-- entries by position: those written while open; the whole first edition once closed; 06 R171 -/
  entries   : AMap Entry
  /-- source stamps of the entries of an open slot, by position; 06 R173 -/
  stamps    : AMap Nat
  /-- late entries of issued revised editions: edition, position, entry; 06 R171 -/
  late      : List (Nat × Nat × Entry)
  /-- late entries written since the latest edition; 06 R169 -/
  pendingL  : AMap Entry
  /-- latest edition number issued; 06 R169 -/
  edition   : Nat
  /-- batch timer expiry; 06 R169 -/
  batchAt   : Option Nat
  /-- horizon; 06 R170 -/
  horizonAt : Nat
  /-- final; 06 R170 -/
  final     : Bool
  /-- a deep-wait edition has reached its consumers; 06 R167 -/
  ready     : Bool
  /-- consumers that have taken their edition and keep no note of it themselves: 0 a balance alarm, 1 a reconciliation, 2 a custody
  point, 3 a recorder, each with its number; 01 R22 -/
  took      : List (Nat × Nat) := []
  deriving DecidableEq, Repr

/-- The run state of a pod. -/
structure Pod where
  /-- slots held, by nominal time in ns; 06 R151; reset none -/
  slots      : AMap Slot
  /-- GTF of the last closed slot; 02 live window; reset no time -/
  lastClosed : Option Nat
  /-- the layout of the definition in force is due before the first edition of its first slot, by a commit or boot; 06 R177; reset false -/
  layoutDue  : Bool
  /-- the layout is due before the next first edition, by ALN.OAF_LAYOUT_S; 06 R177; reset false -/
  layoutRep  : Bool
  /-- newest grid instant up to which slots have opened by time or been released; 06 R155; reset none -/
  timed      : Option Nat
  /-- PRESENT entries of the latest edition of released slots that a substitution may still reach, by nominal time: catalogue index
  and entry; 06 R164; reset none -/
  past       : AMap (List (Nat × Entry))
  /-- no slot opens before this instant: boundary, RUN entry or resume; 06 R173, 18 R414; reset 0 -/
  openFrom   : Nat
  /-- instants of the pressure closes of the last second, of the last PRESSURE_CLOSE record; 06 R166; reset none -/
  press      : List Nat
  pressAt    : Option Nat
  /-- first edition of the slot with the latest nominal time among the closed: nominal time, entries by position; 13 R333; reset none -/
  latest     : Option (Nat × List Entry)
  deriving DecidableEq, Repr

/-- The alignment matrix. -/
structure Aln where
  /-- pods 0 to 63; 06 R150; reset no slots -/
  pod        : AMap Pod
  /-- ALN.STORE_USED; 06 R165; reset 0 -/
  storeUsed  : Nat
  /-- ALN.STORE_PEAK; 06 R165; reset 0 -/
  storePeak  : Nat
  /-- late entries held in the revision store, of 16,777,216; 06 R171; reset 0 -/
  lateUsed   : Nat
  /-- second and count of the deep-wait window; 06 R167; reset 0 -/
  deepSec    : Nat
  deepCount  : Nat
  /-- C37.118.2 transmission turned on, turned off, per ALN.DEST instance and value; 06 R179; reset none -/
  txOn       : List (Nat × List Word)
  txOff      : List (Nat × List Word)
  /-- old pod definitions still draining: store entries, deep rate, revision entries, instant free; 06 R173; reset none -/
  draining   : List (Nat × Nat × Nat × Nat)
  deriving DecidableEq, Repr

/-! ### Oscillation (07) -/

/-- The state of one second-order section in binary64 (R188). -/
structure Sos where
  z1 : DWord
  z2 : DWord
  deriving DecidableEq, Repr

/-- A fast detector (R188 to R194). -/
structure Fd where
  /-- b0, b1, b2, a1, a2 of the first section, then of the second; binary64; 07 R188; reset empty -/
  coef    : List DWord
  /-- filter state, two sections; binary64; 07 R188; reset 0 -/
  s1      : Sos
  s2      : Sos
  /-- mean square m; binary64; 07 R188; reset 0 -/
  m       : DWord
  /-- above, below counts; 07 R190; reset 0 -/
  above   : Nat
  below   : Nat
  /-- a slot of the above count, of the below count, of the bad slots carried TEST; 07 R187; reset false -/
  aboveT  : Bool
  belowT  : Bool
  badT    : Bool
  /-- picked up; 07 R190; reset false -/
  picked  : Bool
  /-- warm-up slots left; 07 R193; reset 0 -/
  warm    : Nat
  /-- consecutive bad slots; 07 R191; reset 0 -/
  badRun  : Nat
  /-- INPUT_LOST; 07 R191; reset false -/
  lost    : Bool
  /-- GTF of the last edition taken; 07 R192; reset none -/
  lastGtf : Option Nat
  /-- slots before this instant are not taken; 07 R192; reset 0 -/
  fromGtf : Nat
  /-- MOD.FD_RMS; binary32; 07 R214; reset 0 -/
  rms     : Word
  deriving DecidableEq, Repr

/-- A mode as an extraction reports it (R199, R200): frequency in 0.001 Hz, damping in 0.01 %, amplitude binary32,
reference signal, and per used signal magnitude and phase. -/
structure ModeEst where
  freq  : Nat
  zeta  : Int
  amp   : Word
  ref   : Nat
  shape : List (Nat × Nat)
  deriving DecidableEq, Repr

/-- A tracked mode and its alarm counts (R201, R205, R206). -/
structure ModeRun where
  id       : Nat
  est      : ModeEst
  age      : Nat
  missed   : Nat
  cls      : List Nat
  lowN     : Nat
  lowClr   : Nat
  growN    : Nat
  growAmp  : List Word
  growClr  : Nat
  highN    : Nat
  highClr  : Nat
  forced   : List (Nat × Bool × Word)
  forcedClr : Nat
  deriving DecidableEq, Repr

/-- A mode tracker (R195 to R209). -/
structure Mt where
  /-- 0 off, 1 WARMING, 2 running, 3 SUSPENDED; MOD.MT_STATE; 07 R214; reset 0 -/
  st        : Nat
  /-- GTF of the newest slot read; 07 R198; reset none -/
  lastRead  : Option Nat
  /-- slots read since the last extraction; 07 R199; reset 0 -/
  count     : Nat
  /-- decimated samples taken since the start; 07 R202; reset 0 -/
  samples   : Nat
  /-- slots read since the start, for the decimation phase; 07 R197; reset 0 -/
  phase     : Nat
  /-- run of missing values of each signal; 07 R198; reset 0 -/
  gap       : AMap Nat
  /-- signals dropped from the estimate; 07 R198; reset none -/
  dropped   : List Nat
  /-- slots each dropped signal has been valid without a break; 07 R198; reset 0 -/
  valid     : AMap Nat
  /-- dropped signals that rejoin at the next extraction; 07 R198; reset none -/
  rejoin    : List Nat
  /-- newest valid value of each signal, angles unwrapped, with the number of its slot; 07 R197, R198; reset none -/
  last      : AMap (Nat × Rat)
  /-- values of each signal in the decimating filter, newest first; 07 R197; reset none -/
  line      : AMap (List Rat)
  /-- decimated samples of each signal, newest first; 07 R207; reset none -/
  raw       : AMap (List Rat)
  /-- input and output of each signal's high-pass at the newest sample; 07 R197; reset none -/
  high      : AMap (Rat × Rat)
  /-- prepared samples of each signal, newest first; 07 R199; reset none -/
  data      : AMap (List Rat)
  /-- covariance: places of the data vector (64 × lag + signal) and value; 07 R199; reset none -/
  cov       : List (Nat × Nat × Rat)
  /-- dominant subspace of the last extraction started, the signals it is of, the stamp of its newest sample; 07 R199, R208; reset none -/
  sub       : List (List Rat)
  subOf     : List Nat
  subGtf    : Nat
  /-- an extraction is running; 07 R204; reset false -/
  running   : Bool
  /-- GTF of the newest decimated sample; 07 R208; reset 0 -/
  estGtf    : Nat
  /-- extraction count; 07 R208; reset 0 -/
  update    : Nat
  /-- next MODE_ID; 07 R201; reset 0 -/
  nextId    : Nat
  /-- tracked modes; 07 R201; reset none -/
  modes     : List ModeRun
  /-- slots before this instant are not read; 07 R202; reset 0 -/
  fromGtf   : Nat
  /-- first editions issued and not yet read: the entries of the used signals; 07 R198; reset none -/
  buf       : AMap (List Entry)
  /-- newest slot read in which a used value carried TEST; 07 R187; reset none -/
  testAt    : Option Nat
  deriving DecidableEq, Repr

/-- The oscillation unit. -/
structure Osc where
  /-- detectors 0 to 255; 07 R188; reset idle -/
  fd : AMap Fd
  /-- trackers 0 to 3; 07 R195; reset off -/
  mt : AMap Mt
  deriving DecidableEq, Repr

/-! ### Armature and balance (08) -/

/-- A branch (R217, R218). -/
structure Branch where
  /-- effective state for connectivity; 08 R217; reset CLOSED is assumed where no report was valid (R218), reads 0 in ARM.BRANCH_STATE -/
  closed   : Bool
  /-- last valid state; 08 R218; reset none -/
  valid    : Option Bool
  /-- bad; 08 R218; reset false -/
  bad      : Bool
  /-- intermediate since; 08 R218; reset none -/
  interAt  : Option Nat
  /-- in its BAD_RULE state without a bad report: no edition taken since a reset; 08 R232; reset false -/
  assumed  : Bool
  /-- state in the recompute that runs or is in force; 08 R219; reset true -/
  applied  : Bool
  deriving DecidableEq, Repr

/-- A node (R220 to R223). -/
structure Node where
  /-- component class: 0 main, 1 island, 4 de-energised, 5 unused; 08 R220, R228; reset 5 -/
  cls       : Nat
  /-- component ID: lowest node; 08 R220; reset 0 -/
  comp      : Nat
  /-- divergence and agreement counts; 08 R223; reset 0 -/
  divN      : Nat
  agrN      : Nat
  /-- DIVERGED, DIVERGENT, VALID; 08 R228; reset 0 -/
  diverged  : Bool
  divergent : Bool
  valid     : Bool
  /-- difference to the anchor and angle drift of the latest slot, none where not measured; binary32; 08 R228; reset none -/
  diff      : Option Word
  drift     : Option Word
  deriving DecidableEq, Repr

/-- An island (R224, R228). -/
structure Island where
  net     : Nat
  id      : Nat
  cls     : Nat
  noMeas  : Bool
  unsure  : Bool
  refNode : Nat
  members : List Nat
  sources : Nat
  diff    : Word
  drift   : Word
  deriving DecidableEq, Repr

/-- A network's run state (R221, R225). -/
structure Net where
  /-- GTF of the last edition taken; 08 R221; reset none -/
  lastGtf : Option Nat
  /-- NO_REF; 08 R225; reset false -/
  noRef   : Bool
  /-- slots the anchor has been invalid; 08 R225; reset 0 -/
  badRun  : Nat
  /-- angle differences to the anchor of past slots, by slot then node; 08 R222; reset none -/
  deltas  : AMap (AMap DWord)
  deriving DecidableEq, Repr

/-- A running reconciliation interval (R231, R469). -/
structure RecInt where
  start    : Nat
  stop     : Nat
  /-- terms, ARM.BAL_USE_SUBST and slot rate of the definition it runs under; 08 R229, R469 -/
  terms    : List (Nat × Word)
  useSubst : Bool
  rate     : Nat
  expected : Nat
  evaluated : Nat
  subst    : Nat
  revised  : Nat
  inSum    : DWord
  outSum   : DWord
  /-- pod of the definition it runs under, and how long after its nominal time a slot of it is final at the latest, in ns; 08 R231, R469 -/
  pod      : Nat
  finalNs  : Nat
  /-- final editions taken, those with a bad term included; 08 R231 -/
  seen     : Nat
  deriving DecidableEq, Repr

/-- A balance group (R229 to R231, R469). -/
structure Bal where
  /-- over, under counts; 08 R230; reset 0 -/
  overN   : Nat
  underN  : Nat
  /-- BALANCE raised; 08 R230; reset false -/
  raised  : Bool
  /-- ARM.BAL_RESIDUAL; binary32; 08 R234; reset 0 -/
  resid   : Word
  /-- slots before this instant raise no alarm; 08 R469; reset 0 -/
  fromGtf : Nat
  /-- running intervals, oldest first, several while slots of an earlier one are not final; 08 R231, R469; reset none -/
  runs    : List RecInt
  /-- no interval starts before this instant: the end of one that a reset closed; 08 R232; reset 0 -/
  recFrom : Nat
  /-- ARM.BAL_REC_LAST; 13 words; 08 R234; reset all zero -/
  last    : List Word
  deriving DecidableEq, Repr

/-- The armature unit. -/
structure Arm where
  /-- branches 0 to 8,191; 08 R215; reset above -/
  branch   : AMap Branch
  /-- nodes 0 to 4,095; 08 R215; reset above -/
  node     : AMap Node
  /-- islands of every network, in ascending network and ID; the first 256 are held; 08 R226; reset none -/
  islands  : List Island
  /-- networks with islands beyond the 256 held; 08 R226; reset none -/
  overNets : List Nat
  /-- networks 0 to 15; 08 R215; reset above -/
  net      : AMap Net
  /-- a recompute runs; 08 R219; reset false -/
  running  : Bool
  /-- stamp of the latest status change of the running recompute, and of those collected for the next; 08 R219, R227; reset none -/
  stamp    : Option (Nat × Bool)
  nextStamp : Option (Nat × Bool)
  /-- ARM.TOPO_SEQ; 32 bits; 08 R234; reset 0 -/
  topoSeq  : Word
  /-- debounced level of DIN0 to DIN7; 08 R217; reset low, DESIGN CHOICE (log 4) -/
  din      : AMap Bool
  /-- networks that send ISLAND_UPDATE with REASON 3 at the recompute of their next first edition; 08 R232; reset none -/
  resend   : List Nat
  /-- balance groups 0 to 63; 08 R229; reset above -/
  bal      : AMap Bal
  deriving DecidableEq, Repr

/-! ### Custody (09) -/

/-- A register (R237). -/
structure Reg where
  /-- VALUE, 0 to 999,999,999,999; 40 bits; 09 R237; reset 0 -/
  value : Nat
  /-- ROLL; 16 bits; 09 R237; reset 0 -/
  roll  : Nat
  /-- FINE, in 10^-9 of a unit; 64 bits; 09 R237; reset 0 -/
  fine  : Nat
  deriving DecidableEq, Repr

/-- A step booked beyond the frontier of its point, or beyond its running interval (R250, R254): its start and end; its gap's reason
while that gap still waits for its interval; out of the orifice standard; the 10⁻⁹ units it added by register, and whether the legal
registers took them. -/
structure Ahead where
  start  : Nat
  stop   : Nat
  gap    : Option Nat
  outStd : Bool
  units  : AMap Nat
  legal  : Bool
  deriving DecidableEq, Repr

/-- What the running interval of a point held at the last save (R249, R253): when, its merged gaps, the start of the first, its gap
time already recorded, and the steps booked ahead. -/
structure PointMark where
  at_   : Nat
  gaps  : AMap Nat
  from_ : Option Nat
  extra : Nat
  ahead : List Ahead
  deriving DecidableEq, Repr

/-- A point (R235 to R254). -/
structure Point where
  /-- CUS.POINT and CUS.REG_UNIT it runs under, 0 not running; 32 and 64 bits; 09 R235, R237; reset 0 -/
  word      : Nat
  units     : Nat
  /-- it has stopped, and its last interval's record is still to be made; 09 R254; reset false -/
  stopped   : Bool
  /-- start of the running profile interval; 09 R254; reset 0 -/
  closed    : Nat
  /-- start of the last step accumulated; GTF; 09 R259; reset no time -/
  lastStep  : Option Nat
  /-- start of the last step taken, whatever came of it; 09 R260; reset no time -/
  lastTaken : Option Nat
  /-- up to when every step is taken, or the instant the point's account begins; 09 R249, 18 R427; reset 0 -/
  tail      : Nat
  /-- steps booked beyond that, or beyond the running interval, oldest first; 09 R250, R254; reset none -/
  ahead     : List Ahead
  /-- gaps still open, which end at the point's next step: reason and start; 09 R252, 18 R415, R427; reset none -/
  pend      : List (Nat × Nat)
  /-- DIRECTION is REVERSE; 09 R244; reset FORWARD -/
  reverse   : Bool
  /-- sign the debounce runs for, and the start of the first step that had it; 09 R244; reset none -/
  sign      : Int
  signSince : Option Nat
  /-- in gap, below start-up or cut-off; CUS.POINT_STATE bits 2, 3; 09 R263; reset 0 -/
  inGap     : Bool
  below     : Bool
  /-- profile SEQUENCE last made; 32 bits; 09 R254; reset 0 -/
  seq       : Nat
  /-- gap time of the running interval in ns by reason, start of its first gap, gap time already recorded; 09 R249; reset none -/
  gaps      : AMap Nat
  gapFrom   : Option Nat
  extra     : Nat
  /-- FLAGS of the running interval's record; 16 bits; 09 R254; reset 0 -/
  flags     : Half
  /-- a record was refused since the last one made; 09 R256; reset false -/
  refused   : Bool
  /-- pulses counted on the land and in no step yet, by the second they came in; a saved residual at 0; 09 R239, R251; reset none -/
  pulses    : AMap Nat
  /-- the running interval at the last save; 09 R253; reset none -/
  mark      : PointMark
  deriving DecidableEq, Repr

/-- What a totals copy saves of a point (R251). -/
structure PointSave where
  seq       : Nat
  lastStep  : Option Nat
  tail      : Nat
  reverse   : Bool
  sign      : Int
  signSince : Option Nat
  pulses    : Nat
  deriving DecidableEq, Repr

/-- A totals copy (R251). -/
structure Totals where
  valid  : Bool
  seq    : Nat
  kind   : Nat
  gtf    : Nat
  pfw    : Option Nat
  regs   : AMap Reg
  points : AMap PointSave
  deriving DecidableEq, Repr

/-- A profile record (R254): its 22 content words, its signature (empty while not signed), and the slot and generation of
the key in force when it was made (R255). -/
structure Profile where
  point : Nat
  seq   : Nat
  words : List Word
  sig   : List Byte
  slot  : Nat
  gen   : Nat
  deriving DecidableEq, Repr

/-- The custody engine. -/
structure Cus where
  /-- legal registers, keyed 8 * point + n; 09 R237; reset 0 -/
  regs      : AMap Reg
  /-- provisional registers; 09 R257; reset 0 -/
  prov      : AMap Reg
  /-- points 0 to 511; 09 R235; reset above -/
  point     : AMap Point
  /-- totals copies A and B; 09 R251; reset not valid, DESIGN CHOICE (log 4) -/
  copyA     : Totals
  copyB     : Totals
  /-- provisional totals copies; 09 R251; reset not valid, DESIGN CHOICE (log 4) -/
  provA     : Totals
  provB     : Totals
  /-- frozen snapshot of the legal registers; 09 R260; reset none -/
  snapshot  : Option (AMap Reg)
  /-- save sequence last used; 32 bits; 09 R251; reset 0 -/
  saveSeq   : Nat
  /-- profile records held, oldest first, at most 285,975; 09 R256; reset none -/
  records   : List Profile
  /-- boundaries whose records are being made, by instant: records made, refused; 09 R256; reset none -/
  ready     : AMap (Nat × Nat)
  /-- SEALED; 01 R28; reset 0 -/
  sealed    : Bool
  /-- legal registers frozen by a tamper, and since when; 09 R260; reset false -/
  frozen    : Bool
  frozenAt  : Nat
  /-- LEGAL only from a step that starts at or after this instant; 09 R260; reset 0 -/
  legalFrom : Nat
  /-- vault counter of the last accepted sealed change; 64 bits; 09 R254; reset 0, DESIGN CHOICE (log 4) -/
  sealCtr   : DWord
  /-- SHA-256 of the sealed configuration in force; 32 bytes; 09 R258; reset all zero, DESIGN CHOICE (log 4) -/
  sealHash  : List Byte
  /-- PFW_N stamp held in the plinth; 09 R252; reset none -/
  pfwStamp  : Option Nat
  deriving DecidableEq, Repr

/-! ### Converters and filters (10, 11) -/

/-- A corrected sample or a filter output: instant in ns, value, quality bits (R269, R288). -/
structure Sample where
  t : Nat
  v : Int
  q : Half
  deriving DecidableEq, Repr

/-- A filter output (R287): stamp, binary32 value, quality word. -/
structure FltOut where
  t : Nat
  v : Word
  q : Half
  deriving DecidableEq, Repr

/-- A converter channel 0 to 24 (R264 to R275). -/
structure Chan where
  /-- slice that serves it, CNV.SLICE_MAP; 10 R264; reset the channel number -/
  slice   : Nat
  /-- samples left with OVR after a clamped code; 10 R275; reset 0 -/
  ovrLeft : Nat
  /-- running average block: samples so far, sum, flags; 10 R270; reset none -/
  avgN    : Nat
  avgSum  : Int
  avgQ    : Half
  /-- block start, none while a partial block is discarded; 10 R271; reset none -/
  avgT0   : Option Nat
  /-- averaging-path results, newest first; 10 R270; reset none -/
  avgOut  : List FltOut
  deriving DecidableEq, Repr

/-- Open-wire state of a land (R277). -/
structure Ow where
  open_ : Bool
  fails : Nat
  passes : Nat
  /-- instant of the last chop; 10 R277; reset none -/
  last : Option Nat
  deriving DecidableEq, Repr

/-- A calibration cycle of a spare (R279, R280): channel, step 1 parallel-in, 3 calibrating, 4 parallel-back; windows
repeated; whether the comparison has failed once; the slice being calibrated. -/
structure Cal where
  channel : Nat
  slice   : Nat
  step    : Nat
  /-- instant its step, or the comparison window in it, started; 10 R279 -/
  at_     : Nat
  windows : Nat
  failed  : Bool
  selfCal : Bool
  deriving DecidableEq, Repr

/-- The converter array. -/
structure Cnv where
  /-- channels 0 to 24; 10 R264; reset above -/
  chan     : AMap Chan
  /-- CNV.SLICE_STATE of slices 0 to 26; 10 R285; reset 0, and 1 for 25, 26 -/
  slice    : AMap Nat
  /-- CNV.CAL_LAST of slices 0 to 26: GTF, offset, gain; 10 R285; reset all zero -/
  calLast  : AMap (Nat × Int × Word)
  /-- cycle running on spare 25, 26; 10 R279; reset none -/
  cycle    : AMap Cal
  /-- next channel of each spare's rotation; 10 R279; reset 0 for 25, 1 for 26 -/
  next     : AMap Nat
  /-- open-wire state of lands 0–23, 24–39; 10 R277; reset clear -/
  ow       : AMap Ow
  /-- sequencer entry connected, its dwell start; 10 R272; reset none -/
  auxEntry : Option Nat
  auxStart : Nat
  /-- last auxiliary conversion of each input, whether the next conversion is discarded, and the instants of discarded
  ones that wait for their replacement; 10 R274; reset none -/
  auxLast  : AMap Sample
  auxDrop  : Bool
  auxHeld  : List Nat
  /-- excitation code flowing out of each input; 10 R273; reset none -/
  exc      : AMap Nat
  /-- start of the last calibration cycle of each free slice; 10 R279; reset none -/
  calAt    : AMap Nat
  /-- CNV.DIE_TEMP; binary32; 10 R285; reset 0 (the table gives none for it but a reading), DESIGN CHOICE (log 4) -/
  dieTemp  : Word
  deriving DecidableEq, Repr

/-- The filter of a channel (R286 to R292). -/
structure Flt where
  /-- corrected samples since the last restart, newest first; 11 R286; reset none -/
  hist    : List Sample
  /-- instant of the last restart; 11 R289; reset 0 -/
  since   : Nat
  /-- instant of bank B's last restart; 11 R291; reset 0 -/
  sinceB  : Nat
  /-- bank delivered, FLT.BANK_ACTIVE; 11 R303; reset 0 -/
  active  : Nat
  /-- last stamp delivered; 11 R292; reset none -/
  lastT   : Option Nat
  /-- the clock has stepped since: outputs at or before that stamp repeat instants already delivered; 03 R94; reset false -/
  stepped : Bool
  /-- delivered outputs, newest first; 11 R287; reset none -/
  outs    : List FltOut
  /-- dwells of each auxiliary input, newest first (channel 24 only): stamp and mean, none where an output of the dwell was
  never produced; 11 R290; reset none -/
  dwell   : AMap (List (Nat × Option FltOut))
  deriving DecidableEq, Repr

/-- The filter chain. -/
structure FltUnit where
  /-- channels 0 to 24; 11 R286; reset above -/
  chan   : AMap Flt
  /-- FLT.PG_FREQ of groups 0 to 7; binary32; 11 R303; reset 0 -/
  pgFreq : AMap Word
  /-- the intervals that forward steps of the clock passed over: from and to; 03 R94; reset none -/
  jumps  : List (Nat × Nat)
  deriving DecidableEq, Repr

/-! ### Capture (12) -/

/-- A raw row (R306). -/
structure CapRow where
  t : Nat
  e : List Entry
  deriving DecidableEq, Repr

/-- A record (R318). -/
structure CapRec where
  id     : Nat
  flags  : Nat
  trig   : Nat
  pre    : Nat
  post   : Nat
  cause  : Nat
  marks  : List (Nat × Nat)
  nMarks : Nat
  commit : Word
  rows   : List CapRow
  deriving DecidableEq, Repr

/-- A trigger's edge state (R312). -/
structure EdgeSt where
  armUp : Bool
  armDn : Bool
  deriving DecidableEq, Repr

/-- A recorder (R304 to R324). -/
structure Rec where
  /-- CAP.STATE; 12 R316; reset 0 -/
  st      : Nat
  /-- PRE, POST, COUNT of the arming, records made since; 12 R319; reset 0 -/
  pre     : Nat
  post    : Nat
  count   : Nat
  made    : Nat
  /-- pre-trigger memory, oldest first (rolling rows of a ROLLING recorder); 12 R316, R317; reset empty -/
  rows    : List CapRow
  /-- record being written, rows still to come; 12 R316; reset none -/
  cur     : Option CapRec
  left    : Nat
  /-- a trigger held until its row is written: stamp, cause; 12 R313; reset none -/
  waiting : List (Nat × Nat)
  /-- records held, oldest first, at most 512; 12 R310; reset none -/
  recs    : List CapRec
  /-- last RECORD_ID; 32 bits; 12 R318; reset 0 -/
  lastId  : Nat
  /-- edge states of triggers 0 to 15; 12 R312; reset none armed -/
  edge    : AMap EdgeSt
  /-- marks of a ROLLING recorder, newest last, at most 512; 12 R318; reset none -/
  marks   : List (Nat × Nat)
  /-- rewind marks 0 to 3: instant of the marked row, none for the next row to be written, and whether it is still valid;
  12 R321; reset none -/
  rewind  : AMap (Option Nat × Bool)
  /-- instant the auto-trigger time counts from; 12 R314; reset 0 -/
  autoAt  : Nat
  /-- instant REARM began; 12 R316; reset 0 -/
  rearmAt : Nat
  /-- rows held since the last clock step; 12 R318; reset none -/
  sinceStep : Option Nat
  /-- instant of CAP_ARM; 12 R319; reset 0 -/
  armedAt : Nat
  /-- instant of the newest row since then, written or lost; 12 R306; reset none -/
  lastRow : Option Nat
  /-- commit number of the recorder's configuration; 12 R318; reset 0 -/
  commit  : Word
  deriving DecidableEq, Repr

/-- The capture engine. -/
structure Cap where
  /-- recorders 0 to 7; 12 R304; reset OFF -/
  rec_ : AMap Rec
  deriving DecidableEq, Repr

/-! ### Logic (13) -/

/-- A variable of the image (R328). -/
structure LVar where
  ty      : Nat
  kind    : Nat
  binding : Word
  init    : Word
  deriving DecidableEq, Repr

/-- A block of the image (R328). -/
structure LBlock where
  op     : Nat
  const  : Bool
  absent : Nat
  invOut : Bool
  invIn  : Nat
  out    : Nat
  in0    : Nat
  in1    : Nat
  in2    : Nat
  param  : Word
  deriving DecidableEq, Repr

/-- The loaded image (R328). -/
structure Image where
  periodUs : Nat
  id       : Word
  vars     : List LVar
  blocks   : List LBlock
  deriving DecidableEq, Repr

/-- A variable's value and quality (R332). -/
structure LVal where
  v : Word
  q : Half
  deriving DecidableEq, Repr

/-- A block's state (R330, R331): elapsed time, running flag or output latch, IN0 at the previous scan, its own result. -/
structure BlkSt where
  et   : Nat
  run  : Bool
  prev : Bool
  own  : Word
  init : Bool
  deriving DecidableEq, Repr

/-- A station (R340, R341). -/
structure Station where
  /-- LGC.STATION_STATE: 0 none, 1 ONLINE, 2 LOST, 3 RECOVERING; 13 R346; reset 0 -/
  st      : Nat
  /-- command number of the last frame; 16 bits; 13 R340; reset 0 -/
  seq     : Nat
  /-- instant of the last frame, whether it is still unacknowledged; 13 R340; reset none -/
  sentAt  : Option Nat
  waiting : Bool
  /-- consecutive unacknowledged frames; 13 R341; reset 0 -/
  unacked : Nat
  /-- output points as written: kind and value; 13 R340; reset none -/
  points  : AMap (Nat × Word)
  /-- point values at the last output write, none where the next one sends whatever they are; 13 R340, R341; reset none -/
  sent    : Option (AMap (Nat × Word))
  /-- the last frame was acknowledged with ACK_CODE 0; 13 R340; reset false -/
  acked   : Bool
  deriving DecidableEq, Repr

/-- A GOOSE control block's publication (R339). -/
structure GoosePub where
  stNum  : Nat
  sqNum  : Nat
  t      : Nat
  /-- time quality of t; 8 bits; 13 R339 -/
  clock  : Byte
  /-- the next repeat and its interval; 13 R339 -/
  nextMs : Nat
  nextAt : Nat
  sent   : List (Word × Word)
  on     : Bool
  deriving DecidableEq, Repr

/-- The logic engine. -/
structure Lgc where
  /-- LGC.STATE: 0 no image, 1 stopped, 2 running, 3 suspended; 13 R346; reset 0 -/
  st       : Nat
  /-- the image in force; 13 R328; reset none -/
  image    : Option Image
  /-- logic image slots 0, 1 of the flash: load number and image, erased where unlisted; 13 R328; reset erased, DESIGN CHOICE (log 4) -/
  slots    : AMap (Nat × Image)
  /-- load in progress: TOTAL, bytes held; 13 R342; reset none -/
  load     : Option (Nat × List Byte)
  /-- image write in progress: the request to answer; 13 R342; reset none -/
  writing  : Option Req
  /-- LGC.LOAD_RESULT; 2 words; 13 R346; reset 0, 0 -/
  result   : Nat × Nat
  /-- variable values and qualities; 13 R332; reset none -/
  vals     : AMap LVal
  /-- variable values after the last output write; 13 R342; reset none -/
  written  : AMap LVal
  /-- block states; 13 R330; reset none -/
  blk      : AMap BlkSt
  /-- forces in effect, forces that start at the next snapshot, releases that take effect there; at most 256; 13 R335; reset none -/
  forces   : AMap Word
  forceNew : AMap Word
  relNew   : List Nat
  /-- online changes pending: variables, block PARAMs; 13 R336; reset none -/
  chgVar   : AMap Word
  chgPar   : AMap Word
  /-- index n of the next scan; 13 R334; reset 0 -/
  n        : Nat
  /-- snapshot instant of the running scan, of the previous one; 13 R330; reset none -/
  snap     : Option Nat
  prevSnap : Option Nat
  /-- a scan is executing; its ALARM_PUB and station values; 13 R333; reset false -/
  scanning : Bool
  /-- the running scan is the late scan of an overrun; 13 R334; reset false -/
  late     : Bool
  /-- first scan since start; 13 R328; reset false -/
  first    : Bool
  /-- W of the last output write; 13 R342; reset none -/
  lastW    : Option Nat
  /-- overruns since start; consecutive scans without; OVERRUN raised; 13 R334; reset 0 -/
  overruns : Nat
  clean    : Nat
  alarm    : Bool
  /-- LGC_STOP waiting for the running scan; 13 R342; reset none -/
  stopReq  : Option Req
  /-- suspend at the end of the running scan; 13 R343; reset false -/
  suspend  : Bool
  /-- stations by source number; 13 R340; reset none -/
  station  : AMap Station
  /-- GOOSE control blocks 0 to 31; 13 R339; reset none -/
  goose    : AMap GoosePub
  /-- LGC.EXEC_US: scans, sum and largest execution time in ns; 13 R346; reset 0 -/
  execN    : Nat
  execSum  : Nat
  execMax  : Nat
  deriving DecidableEq, Repr

/-! ### Vault and plinth (14) -/

/-- A key slot (R347 to R350, R364). -/
structure KeySlot where
  /-- attribute word; 32 bits; 14 R348; reset 0 but for slot 0 (R347) -/
  attr    : Word
  /-- type 1 to 5, 0 empty; 14 R349; reset 0 but for slot 0 -/
  ty      : Nat
  /-- parent slot, 0xFF none; 14 R350; reset 0xFF -/
  parent  : Nat
  /-- generation; 16 bits; 14 R364; reset 0, DESIGN CHOICE (log 4) -/
  gen     : Nat
  /-- GTF of the last change; 14 R364; reset no time, DESIGN CHOICE (log 4) -/
  changed : Option Nat
  /-- secret material: 32 bytes, or empty; 14 R347; reset empty -/
  secret  : List Byte
  /-- public key X then Y: 64 bytes, or empty; 14 R347; reset empty -/
  pub     : List Byte
  deriving DecidableEq, Repr

/-- What an accepted vault message will do at its COMMIT (R360). -/
inductive VaultOp where
  | key (operation slot : Nat) (new : KeySlot)
  | rekey (slot1 : List Byte)
  | invalidate (slot : Nat)
  | seal
  | break_
  | clear (points : List Nat)
  | update (items : List (Nat × Nat × List Word))
  deriving DecidableEq, Repr

/-- The journal operation in progress (R358, R360). -/
structure Journal where
  req      : Req
  op       : VaultOp
  code     : Nat
  slot     : Nat
  counter  : DWord
  metro    : Bool
  deriving DecidableEq, Repr

/-- A plinth tamper record (R371). -/
structure TamperRec where
  source : Nat
  gtf    : Nat
  copied : Bool
  deriving DecidableEq, Repr

/-- The vault and the plinth. -/
structure Vlt where
  /-- key slots 0 to 127; 14 R347; reset slot 0 the identity key, others empty -/
  slot       : AMap KeySlot
  /-- plinth copy of the vault counter; 64 bits; 14 R361; reset 0 -/
  ctrPlinth  : DWord
  /-- MRAM copy of the vault counter; 64 bits; 14 R361; reset 0 -/
  ctrMram    : DWord
  /-- journal operation in progress; 14 R358; reset none -/
  journal    : Option Journal
  /-- tamper latch; 14 R371; reset 0 -/
  latch      : Bool
  /-- plinth tamper records, at most 8; 14 R365; reset none -/
  records    : List TamperRec
  /-- tampers since manufacture; 16 bits, saturating; 14 R371; reset 0 -/
  count      : Nat
  lastSource : Nat
  /-- tamper detected but the main die has not acted: before boot, in SLEEP or unpowered; 14 R371; reset false -/
  pendingT   : Bool
  /-- VLT.VBAT_MV, VLT.VPLC_MV; 14 R374; reset 0 -/
  vbat       : Nat
  vplc       : Nat
  /-- instant VIO33 came up; 14 R367; reset 0 -/
  vio33At    : Nat
  /-- BATTERY_LOW, SUPERCAP_LOW raised; 14 R367; reset false -/
  batLow     : Bool
  capLow     : Bool
  /-- VLT.BAT_INSERT_GTF; 14 R374; reset no time -/
  batInsert  : Option Nat
  /-- battery insertions; 20 R461; reset 0 -/
  insertions : Nat
  /-- how many random values the vault has drawn (the model's own field for its free values); 14 R347; reset 0, DESIGN CHOICE (log 6) -/
  drawn      : Nat
  deriving DecidableEq, Repr

/-! ### Event recorder (15) -/

/-- An event record (R375). -/
structure EvRec where
  code   : Nat
  unit   : Nat
  sev    : Nat
  supp   : Nat
  plinth : Bool
  lost   : Bool
  free   : Bool
  seq    : Nat
  opsec  : Nat
  cycles : Nat
  gtf    : Nat
  par    : DWord
  deriving DecidableEq, Repr

/-- A rate-limit bucket (R378). -/
structure Bucket where
  tokens   : Nat
  fellAt   : Nat
  supp     : Nat
  /-- instant of the last refill -/
  gainedAt : Nat := 0
  deriving DecidableEq, Repr

/-- A freeze in force (R382). -/
structure Freeze where
  id   : Nat
  at_  : Nat
  lost : Nat
  deriving DecidableEq, Repr

/-- One log. -/
structure Log where
  /-- records in MRAM, oldest first, 65,536 or 32,768; 15 R375; reset none -/
  mram   : List EvRec
  /-- records in the volatile buffer, oldest first; 15 R379; reset none -/
  buf    : List EvRec
  /-- SEQUENCE last given; 32 bits; 15 R376; reset 0 -/
  seq    : Nat
  /-- the next record carries LOST; 15 R375; reset false -/
  lost   : Bool
  /-- freeze in force; 15 R382; reset none -/
  freeze : Option Freeze
  /-- LOG_NEAR_FULL has been sent; 15 R380; reset false -/
  near   : Bool
  /-- newest SEQUENCE the host has read out; 15 R381; reset 0 -/
  readTo : Nat
  deriving DecidableEq, Repr

/-- The event recorder. -/
structure Evt where
  /-- general log; 15 R375; reset empty -/
  gen      : Log
  /-- metrological log; 15 R375; reset empty -/
  met      : Log
  /-- FREEZE_ID last given; 16 bits; 15 R382; reset 0, DESIGN CHOICE (log 4) -/
  freezeId : Nat
  /-- buckets by event code; 15 R378; reset 8 tokens -/
  bucket   : AMap Bucket
  /-- instant of the last 5 s flush; 15 R379; reset 0 -/
  flushAt  : Nat
  /-- OPSEC; 32 bits; 15 R376; reset 0 -/
  opsec    : Nat
  /-- OPSEC as last saved; 15 R376; reset 0 -/
  opsecSaved : Nat
  /-- POWER_CYCLES; 32 bits; 15 R376; reset 0 -/
  cycles   : Nat
  /-- legal identifier under which the metrological log was started; 8 bytes; 15 R381; reset zeros, DESIGN CHOICE (log 4) -/
  legal    : List Byte
  deriving DecidableEq, Repr

/-! ### Memory and patina (20) -/

/-- Patina counters (R463). -/
structure Patina where
  /-- seconds in the 8 junction bins; 64 bits each; 20 R463; reset 0 -/
  bins      : AMap Nat
  /-- sum of junction temperature samples, in 0.001 degC, and their number; 20 R463; reset 0 -/
  tjSum     : Int
  tjN       : Nat
  /-- calibration cycles and failures of slices 0 to 26; 20 R463; reset 0 -/
  calN      : AMap Nat
  calFail   : AMap Nat
  /-- last calibration of each slice in each service year, keyed 64 * slice + year; 20 R463; reset 0 -/
  drift     : AMap (Int × Word)
  /-- wear section words 0 to 9; 64 bits each; 20 R463; reset 0 -/
  wear      : AMap Nat
  deriving DecidableEq, Repr

/-- Memory and spares. -/
structure Mem where
  /-- spare rows used per SRAM macro 0 to 255; 20 R456; reset 0 -/
  sramUsed  : AMap Nat
  /-- SRAM repair table: addresses with one corrected error, oldest first, at most 4,096; 20 R457; reset none -/
  sramTable : List Nat
  /-- rows to be copied by the next scrub pass; 20 R457; reset none -/
  sramDue   : List Nat
  /-- rows whose repair was denied; 20 R457; reset none -/
  sramStuck : List Nat
  /-- DRAM reserve pages used, retired pages, repairs used per bank; 20 R458; reset 0 -/
  dramUsed  : Nat
  dramPages : List Nat
  dramPpr   : AMap Nat
  /-- MRAM block map: retired block and its spare; 20 R459; reset none -/
  mramMap   : AMap Nat
  /-- MEM.VSTEP; 20 R460; reset 0 -/
  vstep     : Nat
  /-- uses of each spare kind since manufacture; 20 R461; reset 0 -/
  used      : AMap Nat
  /-- DEGRADED; 01 R28; reset 0 -/
  degraded  : Bool
  /-- patina counters; 20 R463; reset 0 -/
  patina    : Patina
  /-- patina counters as last saved to MRAM; 20 R463; reset 0 -/
  saved     : Patina
  deriving DecidableEq, Repr

/-! ### Power, boot and firmware (18) -/

/-- A firmware bank (R420 to R422). -/
structure Bank where
  /-- manifest and image; 27 MiB; 18 R420 -/
  bytes    : List Byte
  /-- IMAGE_SHA and LEGAL_SHA match and SIGNATURE verifies; 1 bit; 18 R421 -/
  auth     : Bool
  /-- verified by FW_VERIFY since its last chunk; 1 bit; 18 R422 -/
  verified : Bool
  deriving DecidableEq, Repr

/-- Power, boot and lands. -/
structure Pwr where
  /-- device state; 4 bits; 01 R28; reset BOOT -/
  dev       : DevState
  /-- every supply in tolerance; 19 R437; reset true (right after reset) -/
  supplies  : Bool
  /-- RESET_N low, or held by the supply monitor; 18 R419; reset false -/
  resetLow  : Bool
  /-- PFW_N has fallen: the power-fail sequence runs, and then waits for PFW_N to be high for 100 ms; 18 R428; reset false -/
  pfw       : Bool
  /-- the power-fail save is written; 18 R426; reset false -/
  pfwSaved  : Bool
  /-- the totals of this boot have been loaded; 18 R428; reset false -/
  loaded    : Bool
  /-- CTL.BOOTSEL; 2 bits; 18 R430; reset 0, DESIGN CHOICE (log 4) -/
  bootsel   : Nat
  /-- CTL.BOOT_CAUSE; 4 bits; 18 R430; reset 0 (power-up), DESIGN CHOICE (log 4) -/
  cause     : Nat
  /-- active-bank record in MRAM; 1 bit; 18 R430; reset 0 -/
  activeRec : Nat
  /-- bank running; CTL.ACTIVE_BANK bit 0; 18 R430; reset 0 -/
  bank      : Nat
  /-- CTL.ACTIVE_BANK bit 8; 18 R412; reset 0 -/
  fallback  : Bool
  /-- boot ROM recovery service; 18 R411; reset false -/
  recovery  : Bool
  /-- firmware banks 0 and 1; 18 R420; reset bank 0 an authentic one-byte image for both variants, bank 1 empty, DESIGN CHOICE (log 4) -/
  bank0     : Bank
  bank1     : Bank
  /-- staging: TOTAL and bytes held; 18 R422; reset none -/
  stage     : Option (Nat × Nat)
  /-- activation in progress: request, units to update; 18 R423; reset none -/
  activate  : Option (Req × Nat)
  /-- the bank in the active-bank record was activated and has not run yet; 18 R423; reset false -/
  fwNew     : Bool
  /-- boot target rule still to act (not overridden by SET_STATE); instant CONFIG was reached; 18 R413; reset true -/
  ruleDue   : Bool
  configAt  : Nat
  deriving DecidableEq, Repr

/-- The lands the module drives or reads. -/
structure Lands where
  /-- ALM0 to ALM15 conducting by directly mapped detectors; 16 bits; 07 R194; reset released -/
  almFd   : List Nat
  /-- ALM0 to ALM15 conducting by logic; 13 R338; reset released -/
  almLgc  : List Nat
  /-- level of DIN0 to DIN7; 17 R404; reset low, DESIGN CHOICE (log 4) -/
  din     : AMap Bool
  deriving DecidableEq, Repr

/-- The state of the block. -/
structure State where
  /-- commands that wait, first in first out; the model's queue; reset empty -/
  pending : List Instr
  ident   : Ident
  pwr     : Pwr
  /-- units 0x01 to 0x0F; 01 R15; reset above -/
  units   : AMap UnitSt
  lands   : Lands
  /-- ALARMs raised: unit, class, instance; 02 R68, 13 R328; reset none -/
  alarms  : List (Nat × Nat × Nat)
  ctl     : Ctl
  prt     : Ports
  tim     : Tim
  ing     : Ing
  aln     : Aln
  osc     : Osc
  arm     : Arm
  cus     : Cus
  cnv     : Cnv
  flt     : FltUnit
  cap     : Cap
  lgc     : Lgc
  vlt     : Vlt
  evt     : Evt
  mem     : Mem
  /-- what has left the module, oldest first (the model's own record of its outputs); 02 R34, R68; reset none -/
  out     : List Output
  deriving DecidableEq, Repr

/-! ### Reset -/

/-- A unit at reset: powered down, nothing runs before boot completes (R28); epoch 0 (log 5). -/
def UnitSt.init : UnitSt := { epoch := 0, st := 4 }

/-- A configuration with every parameter at its reset value. -/
def Config.init : Config := { par := [], sources := [], commit := 0, boundary := 0, pods := [] }

/-- An entry as the stored forms write it: instance and ID, length, value (R63). -/
def storedEntry (e : Nat × List Word) : List Word :=
  [BitVec.ofNat 32 (e.1 % 65536 * 65536 + e.1 / 65536), BitVec.ofNat 32 e.2.length] ++ e.2

/-- The stored form of a configuration: commit number, boundary in ns, every value and every source definition (R63). The source
gives the slot's contents and not their order, which is the model's (log 64). -/
def Config.words (c : Config) : List Word :=
  [c.commit, BitVec.ofNat 32 c.boundary, BitVec.ofNat 32 (c.boundary / 2 ^ 32)] ++ c.par.flatMap storedEntry ++
    c.sources.flatMap (fun e => storedEntry (0x030B * 65536 + e.1, e.2)) ++
    c.pods.flatMap (fun e => [BitVec.ofNat 32 e.1, e.2.1, BitVec.ofNat 32 e.2.2, BitVec.ofNat 32 (e.2.2 / 2 ^ 32)])

/-- The CRC-32C that closes a configuration slot (R63). -/
def Config.crc (c : Config) : Word := crc32c (wordsLe c.words)

/-- A ring whose registers hold their reset values (R69). -/
def Ring.init : Ring :=
  { base := 0, size := 0, enable := false, producer := 0, head := 0, posted := [], sends := []
    inFlight := 0, txStamp := none, waiting := [] }

/-- The control complex at reset. -/
def Ctl.init : Ctl :=
  { cfg := Config.init, flash := [(0, .whole Config.init Config.init.crc)], journal := [], image := none, included := 0, maquette := [], commit := none, commitNo := 0, conflicts := []
    cfgSlot := 0, consolidations := 0, consolidating := 0, sessions := []
    buffers := [], unfetched := [], owed := [], lastCmdRing := 55, rings := [], hostCtl := 0, irqHoldoff := 0, msix := [], irqLast := [], irqHeld := []
    latches := [], noticeSeq := [], subs := [], tcp := [], reasm := [], counters := [], linkUp := true, drain := []
    selfTest := none, statsStart := 0, delays := [], ready := [], waits := [], maxDepth := [], cores := [(16, 1), (17, 1)]
    coreFails := [], coreTestAt := 0, fifo := [], taken := [], fifoPeak := [] }

/-- A port at reset: link down, queues empty. -/
def Port.init : Port :=
  { up := false, speed := 0, shifted := false, anDone := false, fifo := [], tx := [], sending := none, lastRing := 47
    held := false, lowSeconds := 0, noShift := false, hdRefused := false, shiftAt := 0, awaitUp := false, polledAt := none
    windowAt := 0, liveFrames := 0 }

/-- A reference that is not watched. -/
def Ref.init : Ref := { watched := false, qualified := false, since := 0, good := 0, bad := 0, inacc := 0, offset := 0, corrected := 0 }

/-- The time base at reset: FREE, GTF 0 with the plinth count lost, TQ 15 (R79). -/
def Tim.init : Tim :=
  { now := 0, st := 0, fromHold := false, ref := 0, refPort := 0, parent := none, e0 := 0, holdSince := 0, offset := 0
    offsetAt := 0, corrected := 0, ptp := Ref.init, irig := Ref.init, pps := Ref.init, announces := [], syncAt := 0
    syncEvery := 1000000000, sync := none, ptpAt := none, ptpSeq := [], ptpRole := [], irigTod := none, irigLast := none
    leftFree := false, ppsLast := none, utcOffset := 37, leapAt := 0, leapKind := 0, prevOffset := none, leapDue := false
    sentTq := 15, lastTq := 15, lastLocked := false, holdEnd := none, ppsOut := false, ppsAt := 0, ppsHeld := false, ref10m := false, ref10mLost := 0
    plinth := 0, plinthAt := 0, plinthSet := false, countLost := true, gmId := 0 }

/-- A source that is not defined. -/
def Src.init : Src :=
  { st := 0, lastStamp := none, lastArrival := none, aliveAt := 0, seeded := false, mean := 0, p95 := 0, frames := 0
    winSecond := 0, winCount := 0, cfg := none, cfgAskedAt := 0, tcpTriedAt := 0, stNum := none, ttlMs := 0, goose := [], sv := [], definedAt := 0, reported := none }

/-- A pod that has run no slot. -/
def Pod.init : Pod :=
  { slots := [], lastClosed := none, layoutDue := false, layoutRep := false, timed := none, past := [], openFrom := 0
    press := [], pressAt := none, latest := none }

/-- A detector that has taken no slot. -/
def Fd.init : Fd :=
  { coef := [], s1 := ⟨0, 0⟩, s2 := ⟨0, 0⟩, m := 0, above := 0, below := 0, aboveT := false
    belowT := false, badT := false, picked := false, warm := 0, badRun := 0, lost := false
    lastGtf := none, fromGtf := 0, rms := 0 }

/-- A tracker that is off. -/
def Mt.init : Mt :=
  { st := 0, lastRead := none, count := 0, samples := 0, phase := 0, gap := [], dropped := [], valid := [], rejoin := []
    last := [], line := [], raw := [], high := [], data := [], cov := [], sub := [], subOf := [], subGtf := 0, running := false
    estGtf := 0, update := 0, nextId := 0, modes := [], fromGtf := 0, buf := [], testAt := none }

/-- A branch with no valid report yet: CLOSED is assumed (R218). -/
def Branch.init : Branch := { closed := true, valid := none, bad := false, interAt := none, assumed := false, applied := true }

/-- A node that is unused (R228). -/
def Node.init : Node :=
  { cls := 5, comp := 0, divN := 0, agrN := 0, diverged := false, divergent := false, valid := false
    diff := none, drift := none }

/-- A network that has taken no edition. -/
def Net.init : Net := { lastGtf := none, noRef := false, badRun := 0, deltas := [] }

/-- A balance group that has taken no edition. -/
def Bal.init : Bal :=
  { overN := 0, underN := 0, raised := false, resid := 0, fromGtf := 0, runs := [], recFrom := 0, last := List.replicate 13 0 }

/-- A register at zero. -/
def Reg.init : Reg := { value := 0, roll := 0, fine := 0 }

/-- A point that does not run and has taken no step. -/
def Point.init : Point :=
  { word := 0, units := 0, stopped := false, closed := 0, lastStep := none, tail := 0, pend := [], reverse := false
    sign := 0, signSince := none, inGap := false, below := false, seq := 0, gaps := [], gapFrom := none, extra := 0
    flags := 0, refused := false, pulses := [], lastTaken := none, ahead := []
    mark := { at_ := 0, gaps := [], from_ := none, extra := 0, ahead := [] } }

/-- A totals copy that holds nothing. -/
def Totals.init : Totals := { valid := false, seq := 0, kind := 0, gtf := 0, pfw := none, regs := [], points := [] }

/-- A converter channel at reset; `n` is the channel. -/
def Chan.init (n : Nat) : Chan :=
  { slice := n, ovrLeft := 0, avgN := 0, avgSum := 0, avgQ := 0, avgT0 := none, avgOut := [] }

/-- A filter with no sample. -/
def Flt.init : Flt := { hist := [], since := 0, sinceB := 0, active := 0, lastT := none, stepped := false, outs := [], dwell := [] }

/-- A recorder that is OFF. -/
def Rec.init : Rec :=
  { st := 0, pre := 0, post := 0, count := 0, made := 0, rows := [], cur := none, left := 0, waiting := [], recs := []
    lastId := 0, edge := [], marks := [], rewind := [], autoAt := 0, rearmAt := 0, sinceStep := none, armedAt := 0, lastRow := none
    commit := 0 }

/-- The logic engine with no image. -/
def Lgc.init : Lgc :=
  { st := 0, image := none, slots := [], load := none, writing := none, result := (0, 0), vals := [], written := []
    blk := [], forces := [], forceNew := [], relNew := [], chgVar := [], chgPar := [], n := 0, snap := none
    prevSnap := none, scanning := false, late := false, first := false, lastW := none, overruns := 0, clean := 0
    alarm := false, stopReq := none, suspend := false, station := [], goose := [], execN := 0
    execSum := 0, execMax := 0 }

/-- An empty key slot. -/
def KeySlot.init : KeySlot :=
  { attr := 0, ty := 0, parent := 0xFF, gen := 0, changed := none, secret := [], pub := [] }

/-- An empty log. -/
def Log.init : Log := { mram := [], buf := [], seq := 0, lost := false, freeze := none, near := false, readTo := 0 }

/-- Patina counters at zero. -/
def Patina.init : Patina := { bins := [], tjSum := 0, tjN := 0, calN := [], calFail := [], drift := [], wear := [] }

/-- The bank a module leaves the factory with: an authentic image of one byte, for both variants, that marks no unit
(R420) (log 4). -/
def factoryBank : Bank :=
  { bytes := wordsLe [0x474C4657, 0x00010000, 1, 0x01000000, 0, 3] ++ List.replicate 232 0 ++ [0], auth := true, verified := false }

/-- The device identity key (R347): VALID, PERSISTENT, WRAP, DECRYPT, VERIFY, SIGN; its scalar is fixed at manufacture. -/
def identityKey : KeySlot :=
  { KeySlot.init with
    attr := 0x142B, ty := 1, secret := (List.range 32).map Config.identityByte, pub := (List.range 64).map Config.identityPublic }

/-- The machine right after reset: a keyless GLS-4640-M new from the factory whose RESET_N has just been released, in
BOOT, with every land released and nothing held (R28, R412). -/
def State.reset : State :=
  { pending := []
    ident := { variantM := true, screenedE := false, deviceId := 0, siliconRev := 0, macBase := 0
               legalId := List.replicate 21 0, baseline := [] }
    pwr := { dev := .boot, supplies := true, resetLow := false, pfw := false, pfwSaved := false, loaded := false, bootsel := 0, cause := 0
             activeRec := 0, bank := 0, fallback := false, recovery := false, bank0 := factoryBank, bank1 := ⟨[], false, false⟩
             stage := none, activate := none, fwNew := false, ruleDue := true, configAt := 0 }
    units := []
    lands := { almFd := [], almLgc := [], din := [] }
    alarms := []
    ctl := Ctl.init
    prt := { port := [], wakeCause := 0 }
    tim := Tim.init
    ing := { src := [], learn := [], held := [], parts := [] }
    aln := { pod := [], storeUsed := 0, storePeak := 0, lateUsed := 0, deepSec := 0, deepCount := 0, txOn := [], txOff := []
             draining := [] }
    osc := { fd := [], mt := [] }
    arm := { branch := [], node := [], islands := [], overNets := [], net := [], running := false, stamp := none
             nextStamp := none, topoSeq := 0, din := [], resend := [], bal := [] }
    cus := { regs := [], prov := [], point := [], copyA := Totals.init, copyB := Totals.init, provA := Totals.init
             provB := Totals.init, snapshot := none, saveSeq := 0, records := [], ready := [], sealed := false
             frozen := false, frozenAt := 0, legalFrom := 0, sealCtr := 0, sealHash := List.replicate 32 0
             pfwStamp := none }
    cnv := { chan := [], slice := [(25, 1), (26, 1)], calLast := [], cycle := [], next := [(26, 1)], ow := []
             auxEntry := none, auxStart := 0, auxLast := [], auxDrop := false, auxHeld := [], exc := [], calAt := [], dieTemp := 0 }
    flt := { chan := [], pgFreq := [], jumps := [] }
    cap := { rec_ := [] }
    lgc := Lgc.init
    vlt := { slot := [(0, identityKey)], ctrPlinth := 0, ctrMram := 0, journal := none, latch := false, records := [], count := 0
             lastSource := 0, pendingT := false, vbat := 0, vplc := 0, vio33At := 0, batLow := false, capLow := false
             batInsert := none, insertions := 0, drawn := 0 }
    evt := { gen := Log.init, met := Log.init, freezeId := 0, bucket := [], flushAt := 0, opsec := 0, opsecSaved := 0, cycles := 0
             legal := List.replicate 8 0 }
    mem := { sramUsed := [], sramTable := [], sramDue := [], sramStuck := [], dramUsed := 0, dramPages := [], dramPpr := []
             mramMap := [], vstep := 0, used := [], degraded := false, patina := Patina.init, saved := Patina.init }
    out := [] }

end Sys2Proof.Machine
end

