-- ==== Sys2Proof/Machine/Operands.lean ====
section
/-! DEFINITION. The operands of the commands: the parameter table of R12 and R54 (every parameter of every unit, from
the parameter tables of the chapters), the counter table of R65, and the readers of payload words (R31, R51). -/

namespace Sys2Proof.Machine

open Sys2Proof

/-! ### Parameter IDs (R11) -/

namespace Par

abbrev CTL.UDP_PORT : Nat := 0x0C01
abbrev CTL.UDP_ENABLE : Nat := 0x0C02
abbrev CTL.UART_BAUD : Nat := 0x0C03
abbrev CTL.HOST_LINK_ROLE : Nat := 0x0C04
abbrev CTL.SESSION_IDLE_S : Nat := 0x0C05
abbrev CTL.COMMIT_LEAD_MS : Nat := 0x0C06
abbrev CTL.NOTIFY_DEST : Nat := 0x0C07
abbrev CTL.NOTIFY_MASK : Nat := 0x0C08
abbrev CTL.NOTIFY_RING : Nat := 0x0C09
abbrev CTL.REPLY_RING : Nat := 0x0C0A
abbrev CTL.REPLY_WAIT_MS : Nat := 0x0C0B
abbrev CTL.TCP_ENABLE : Nat := 0x0C18
abbrev TIM.STATE : Nat := 0x0201
abbrev TIM.TQ : Nat := 0x0202
abbrev TIM.REF_SELECTED : Nat := 0x0203
abbrev TIM.UTC_OFFSET : Nat := 0x0204
abbrev TIM.REF_PRIORITY : Nat := 0x0205
abbrev TIM.PTP_RX_PORTS : Nat := 0x0206
abbrev TIM.PTP_BC_PORTS : Nat := 0x0207
abbrev TIM.PTP_PROFILE : Nat := 0x0208
abbrev TIM.PTP_DOMAIN : Nat := 0x0209
abbrev TIM.PTP_PRIORITY1 : Nat := 0x020A
abbrev TIM.PTP_PRIORITY2 : Nat := 0x020B
abbrev TIM.PTP_VLAN : Nat := 0x020C
abbrev TIM.PTP_ONE_STEP : Nat := 0x020D
abbrev TIM.PORT_RX_DELAY_NS : Nat := 0x020E
abbrev TIM.PORT_TX_DELAY_NS : Nat := 0x020F
abbrev TIM.PORT_ASYM_NS : Nat := 0x0210
abbrev TIM.IRIG_ENABLE : Nat := 0x0211
abbrev TIM.IRIG_DELAY_NS : Nat := 0x0212
abbrev TIM.IRIG_LOCKED_NS : Nat := 0x0213
abbrev TIM.PPS_IN_MODE : Nat := 0x0214
abbrev TIM.PPS_IN_DELAY_NS : Nat := 0x0215
abbrev TIM.PPS_IN_ERR_NS : Nat := 0x0216
abbrev TIM.PPS_NEXT_GTF : Nat := 0x0217
abbrev TIM.PPS_OUT_MODE : Nat := 0x0218
abbrev TIM.PPS_OUT_WIDTH_US : Nat := 0x0219
abbrev TIM.PPS_OUT_MIN_TQ : Nat := 0x021A
abbrev TIM.REF10M_ENABLE : Nat := 0x021B
abbrev TIM.HO_RATE_PPB : Nat := 0x021C
abbrev TIM.QUALIFY_S : Nat := 0x021D
abbrev TIM.REVERT_S : Nat := 0x021E
abbrev TIM.STEP_LIMIT_NS : Nat := 0x021F
abbrev TIM.SLEW_MAX_PPB : Nat := 0x0220
abbrev TIM.SERVO_TC_S : Nat := 0x0221
abbrev TIM.LEAP_GTF : Nat := 0x0222
abbrev TIM.GM_ID : Nat := 0x0223
abbrev TIM.OFFSET_NS : Nat := 0x0224
abbrev PRT.MODE : Nat := 0x0101
abbrev PRT.SPEED : Nat := 0x0102
abbrev PRT.AN_ENABLE : Nat := 0x0103
abbrev PRT.MAC_BASE : Nat := 0x0104
abbrev PRT.MAC_ADDR : Nat := 0x0105
abbrev PRT.UC_MATCH : Nat := 0x0106
abbrev PRT.MC_HASH : Nat := 0x0107
abbrev PRT.BCAST_EN : Nat := 0x0108
abbrev PRT.MAX_FRAME : Nat := 0x0109
abbrev PRT.IP4_ADDR : Nat := 0x010A
abbrev PRT.IP6_ADDR : Nat := 0x010B
abbrev PRT.PHY_ADDR : Nat := 0x010C
abbrev PRT.MDIO_CLAUSE : Nat := 0x010D
abbrev PRT.MDIO_POLL_MS : Nat := 0x010E
abbrev PRT.MDC_KHZ : Nat := 0x010F
abbrev PRT.TSU_ENABLE : Nat := 0x0110
abbrev PRT.DOWNSHIFT_PCT : Nat := 0x0111
abbrev PRT.DOWNSHIFT_S : Nat := 0x0112
abbrev PRT.WAKE_EN : Nat := 0x0113
abbrev PRT.WAKE_PATTERN : Nat := 0x0114
abbrev PRT.WAKE_CAUSE : Nat := 0x0115
abbrev PRT.LINK_STATUS : Nat := 0x0116
abbrev ING.OCF_PORT : Nat := 0x0301
abbrev ING.C37_UDP_PORT : Nat := 0x0302
abbrev ING.CFG_RETRY_S : Nat := 0x0303
abbrev ING.C37_LOCKED_TQ : Nat := 0x0304
abbrev ING.C37_RECONNECT_S : Nat := 0x0305
abbrev ING.SV_QUESTIONABLE : Nat := 0x0306
abbrev ING.LEARN_ENABLE : Nat := 0x0307
abbrev ING.LAT_SHIFT : Nat := 0x0308
abbrev ING.LAT_STEP_US : Nat := 0x0309
abbrev ING.RATE_EXCESS_PCT : Nat := 0x030A
abbrev ING.SRC_STATE : Nat := 0x030B
abbrev ING.LAT_MEAN_US : Nat := 0x030C
abbrev ING.LAT_P95_US : Nat := 0x030D
abbrev ING.SOURCES_DEFINED : Nat := 0x030E
abbrev ING.CATALOGUE_USED : Nat := 0x030F
abbrev ALN.POD_ENABLE : Nat := 0x0401
abbrev ALN.SLOT_RATE : Nat := 0x0402
abbrev ALN.MEMBERS : Nat := 0x0403
abbrev ALN.WAIT_POLICY : Nat := 0x0404
abbrev ALN.WAIT_NS : Nat := 0x0405
abbrev ALN.GRID_TOL_US : Nat := 0x0406
abbrev ALN.SUBST : Nat := 0x0407
abbrev ALN.EDITION_POLICY : Nat := 0x0408
abbrev ALN.REV_HORIZON_MS : Nat := 0x0409
abbrev ALN.REV_BATCH_US : Nat := 0x040A
abbrev ALN.READ_HOLD_MS : Nat := 0x040B
abbrev ALN.FUTURE_LIMIT_MS : Nat := 0x040C
abbrev ALN.DEEP_WAIT : Nat := 0x040D
abbrev ALN.FORMAT : Nat := 0x040E
abbrev ALN.DEST : Nat := 0x040F
abbrev ALN.C37_IDCODE : Nat := 0x0410
abbrev ALN.C37_FNOM : Nat := 0x0411
abbrev ALN.C37_LAYOUT : Nat := 0x0412
abbrev ALN.OAF_LAYOUT_S : Nat := 0x0413
abbrev ALN.SLOT_EVENT_MASK : Nat := 0x0414
abbrev ALN.STORE_USED : Nat := 0x0415
abbrev ALN.STORE_PEAK : Nat := 0x0416
abbrev ALN.REV_USED : Nat := 0x0417
abbrev ALN.POD_POSITIONS : Nat := 0x0418
abbrev MOD.FD_ENABLE : Nat := 0x0701
abbrev MOD.FD_INPUT : Nat := 0x0702
abbrev MOD.FD_F_LO : Nat := 0x0703
abbrev MOD.FD_F_HI : Nat := 0x0704
abbrev MOD.FD_AVG_SHIFT : Nat := 0x0705
abbrev MOD.FD_LEVEL : Nat := 0x0706
abbrev MOD.FD_HYST_PCT : Nat := 0x0707
abbrev MOD.FD_PICKUP_SLOTS : Nat := 0x0708
abbrev MOD.FD_DROP_SLOTS : Nat := 0x0709
abbrev MOD.FD_ALM : Nat := 0x070A
abbrev MOD.FD_USE_SUBST : Nat := 0x070B
abbrev MOD.FD_BAD_LIMIT : Nat := 0x070C
abbrev MOD.FD_RMS : Nat := 0x070D
abbrev MOD.FD_STATE : Nat := 0x070E
abbrev MOD.MT_ENABLE : Nat := 0x0710
abbrev MOD.MT_POD : Nat := 0x0711
abbrev MOD.MT_BAND : Nat := 0x0712
abbrev MOD.MT_DECIM : Nat := 0x0713
abbrev MOD.MT_SIGNALS : Nat := 0x0714
abbrev MOD.MT_WINDOW_S : Nat := 0x0715
abbrev MOD.MT_ORDER : Nat := 0x0716
abbrev MOD.MT_UPDATE_SLOTS : Nat := 0x0717
abbrev MOD.MT_GAP_MAX : Nat := 0x0718
abbrev MOD.MT_MIN_SIGNALS : Nat := 0x0719
abbrev MOD.MT_ZETA_LOW : Nat := 0x071A
abbrev MOD.MT_ZETA_HYST : Nat := 0x071B
abbrev MOD.MT_ZETA_FORCED : Nat := 0x071C
abbrev MOD.MT_FORCED_S : Nat := 0x071D
abbrev MOD.MT_PERSIST : Nat := 0x071E
abbrev MOD.MT_AMP_MIN : Nat := 0x071F
abbrev MOD.MT_AMP_HIGH : Nat := 0x0720
abbrev MOD.MT_TRACK_MHZ : Nat := 0x0721
abbrev MOD.MT_DEF_PAIRS : Nat := 0x0722
abbrev MOD.MT_REPORT_EVERY : Nat := 0x0723
abbrev MOD.MT_USE_SUBST : Nat := 0x0724
abbrev MOD.MT_STATE : Nat := 0x0725
abbrev MOD.MT_RATE : Nat := 0x0726
abbrev ARM.NET_TYPE : Nat := 0x0801
abbrev ARM.NET_POD : Nat := 0x0802
abbrev ARM.NODE : Nat := 0x0803
abbrev ARM.BRANCH : Nat := 0x0804
abbrev ARM.DIN_DEBOUNCE_US : Nat := 0x0805
abbrev ARM.TRAVEL_MS : Nat := 0x0806
abbrev ARM.F_DIFF_MHZ : Nat := 0x0807
abbrev ARM.ANGLE_RATE : Nat := 0x0808
abbrev ARM.ANGLE_SPAN_SLOTS : Nat := 0x0809
abbrev ARM.P_TOL_PA : Nat := 0x080A
abbrev ARM.MEAS_PERSIST : Nat := 0x080B
abbrev ARM.MEAS_USE_SUBST : Nat := 0x080C
abbrev ARM.BAL_ENABLE : Nat := 0x080D
abbrev ARM.BAL_POD : Nat := 0x080E
abbrev ARM.BAL_TERMS : Nat := 0x080F
abbrev ARM.BAL_TOL_ABS : Nat := 0x0810
abbrev ARM.BAL_TOL_PCT : Nat := 0x0811
abbrev ARM.BAL_PERSIST : Nat := 0x0812
abbrev ARM.BAL_USE_SUBST : Nat := 0x0813
abbrev ARM.BAL_REC_S : Nat := 0x0814
abbrev ARM.BAL_REC_LAST : Nat := 0x0815
abbrev ARM.NODE_STATE : Nat := 0x0816
abbrev ARM.BRANCH_STATE : Nat := 0x0817
abbrev ARM.TOPO_SEQ : Nat := 0x0818
abbrev ARM.BAL_RESIDUAL : Nat := 0x0819
abbrev ARM.ISLANDS : Nat := 0x081A
abbrev CUS.POINT : Nat := 0x0901
abbrev CUS.INPUTS : Nat := 0x0902
abbrev CUS.REG_UNIT : Nat := 0x0903
abbrev CUS.NOMINAL : Nat := 0x0904
abbrev CUS.RATIO : Nat := 0x0905
abbrev CUS.CORR : Nat := 0x0906
abbrev CUS.VT_CORR : Nat := 0x0907
abbrev CUS.IST_PCT : Nat := 0x0908
abbrev CUS.LOW_FLOW : Nat := 0x0909
abbrev CUS.REV_DEBOUNCE_MS : Nat := 0x090A
abbrev CUS.PROFILE_MIN : Nat := 0x090B
abbrev CUS.GAP_RULE : Nat := 0x090C
abbrev CUS.MAX_RATE : Nat := 0x090D
abbrev CUS.STEAM : Nat := 0x090E
abbrev CUS.ORIFICE : Nat := 0x090F
abbrev CUS.AIR_REF : Nat := 0x0910
abbrev CUS.PULSE : Nat := 0x0911
abbrev CUS.SIGN_SLOT : Nat := 0x0912
abbrev CUS.SEAL_STATE : Nat := 0x0913
abbrev CUS.LEGAL_ID : Nat := 0x0914
abbrev CUS.PROFILE_HELD : Nat := 0x0915
abbrev CUS.POINT_STATE : Nat := 0x0916
abbrev CNV.SELECT : Nat := 0x0501
abbrev CNV.GAIN : Nat := 0x0502
abbrev CNV.AVG_N : Nat := 0x0503
abbrev CNV.AVG_SHIFT : Nat := 0x0504
abbrev CNV.AREF_SOURCE : Nat := 0x0505
abbrev CNV.AUX_SEQ : Nat := 0x0506
abbrev CNV.AUX_DISCARD_AFTER_OVR : Nat := 0x0507
abbrev CNV.OW_CFG : Nat := 0x0508
abbrev CNV.OW_PERIOD_MS : Nat := 0x0509
abbrev CNV.OW_THRESHOLD : Nat := 0x050A
abbrev CNV.OW_CONFIRM : Nat := 0x050B
abbrev CNV.CAL_ENABLE : Nat := 0x050C
abbrev CNV.CAL_STATE : Nat := 0x050D
abbrev CNV.SLICE_MAP : Nat := 0x050E
abbrev CNV.SLICE_STATE : Nat := 0x050F
abbrev CNV.CAL_LAST : Nat := 0x0510
abbrev CNV.DIE_TEMP : Nat := 0x0511
abbrev FLT.PRESET : Nat := 0x0601
abbrev FLT.BANK : Nat := 0x0602
abbrev FLT.BANK_ACTIVE : Nat := 0x0603
abbrev FLT.CUSTOM_CFG : Nat := 0x0604
abbrev FLT.COEF_B : Nat := 0x0605
abbrev FLT.PG : Nat := 0x0606
abbrev FLT.PG_FREQ : Nat := 0x0607
abbrev FLT.OUTPUT_RATE : Nat := 0x0608
abbrev CAP.SOURCE : Nat := 0x0B01
abbrev CAP.INPUTS : Nat := 0x0B02
abbrev CAP.MODE : Nat := 0x0B03
abbrev CAP.REGION_MIB : Nat := 0x0B04
abbrev CAP.REDUCE : Nat := 0x0B05
abbrev CAP.REDUCE_N : Nat := 0x0B06
abbrev CAP.TRIG : Nat := 0x0B07
abbrev CAP.TRIG_ENABLE : Nat := 0x0B08
abbrev CAP.AUTO_TIMEOUT_MS : Nat := 0x0B09
abbrev CAP.REARM_MS : Nat := 0x0B0A
abbrev CAP.BW_SHARE_MBPS : Nat := 0x0B0B
abbrev CAP.TRIG_OUT : Nat := 0x0B0C
abbrev CAP.STATION : Nat := 0x0B0D
abbrev CAP.STATE : Nat := 0x0B0E
abbrev CAP.CAPACITY_ROWS : Nat := 0x0B0F
abbrev CAP.LINE_HZ : Nat := 0x0B10
abbrev CAP.RECORDS_HELD : Nat := 0x0B11
abbrev CAP.WRITE_RATE : Nat := 0x0B12
abbrev LGC.AUTOSTART : Nat := 0x0A01
abbrev LGC.OVERRUN_ALARM : Nat := 0x0A02
abbrev LGC.ACK_TIMEOUT_MS : Nat := 0x0A03
abbrev LGC.ACK_RETRIES : Nat := 0x0A04
abbrev LGC.STATION_REFRESH_MS : Nat := 0x0A05
abbrev LGC.GOOSE_CB : Nat := 0x0A06
abbrev LGC.STATE : Nat := 0x0A07
abbrev LGC.IMAGE_ID : Nat := 0x0A08
abbrev LGC.LOAD_RESULT : Nat := 0x0A09
abbrev LGC.EXEC_US : Nat := 0x0A0A
abbrev LGC.STATION_STATE : Nat := 0x0A0B
abbrev LGC.FORCES : Nat := 0x0A0C
abbrev VLT.TAMPER_EN : Nat := 0x0D01
abbrev VLT.TAMPER_STATE : Nat := 0x0D02
abbrev VLT.TAMPER_RECORDS : Nat := 0x0D03
abbrev VLT.COUNTER : Nat := 0x0D04
abbrev VLT.SLOT_INFO : Nat := 0x0D05
abbrev VLT.SLOTS_FREE : Nat := 0x0D06
abbrev VLT.DEVICE_ID : Nat := 0x0D07
abbrev VLT.PLINTH_TIME : Nat := 0x0D08
abbrev VLT.VBAT_MV : Nat := 0x0D09
abbrev VLT.VPLC_MV : Nat := 0x0D0A
abbrev VLT.BAT_LOW_MV : Nat := 0x0D0B
abbrev VLT.BAT_INSERT_GTF : Nat := 0x0D0C
abbrev EVT.FREEZE_MAX_S : Nat := 0x0E01
abbrev EVT.REFILL_MS : Nat := 0x0E02
abbrev EVT.HELD : Nat := 0x0E03
abbrev EVT.NEWEST_SEQ : Nat := 0x0E04
abbrev EVT.OPSEC : Nat := 0x0E05
abbrev EVT.POWER_CYCLES : Nat := 0x0E06
abbrev CTL.FIFO_LEVEL : Nat := 0x0C0C
abbrev CTL.CORE_TEST_S : Nat := 0x0C0D
abbrev CTL.CORES : Nat := 0x0C0E
abbrev CTL.CORE_STATE : Nat := 0x0C0F
abbrev CTL.LOAD_PERMILLE : Nat := 0x0C10
abbrev CTL.FIFO_PEAK : Nat := 0x0C11
abbrev CTL.BOOT_TARGET : Nat := 0x0C12
abbrev CTL.LOCK_WAIT_S : Nat := 0x0C13
abbrev CTL.QUIESCE_MAX_MS : Nat := 0x0C14
abbrev CTL.ACTIVE_BANK : Nat := 0x0C15
abbrev CTL.BOOTSEL : Nat := 0x0C16
abbrev CTL.BOOT_CAUSE : Nat := 0x0C17
abbrev CTL.CFG_STORE : Nat := 0x0C19
abbrev MEM.SCRUB_S : Nat := 0x0F01
abbrev MEM.SPARES_LEFT : Nat := 0x0F02
abbrev MEM.TJ_MEAN : Nat := 0x0F03
abbrev MEM.VSTEP : Nat := 0x0F04

end Par


/-! ### Descriptors -/

/-- The classes of R12. -/
inductive PClass where
  | L | M | S | F | RO
  deriving DecidableEq, Repr

/-- The types of R51. -/
inductive PType where
  | u32 | s32 | f32 | u64 | s64 | gtf | blob
  deriving DecidableEq, Repr

/-- What a value may be (R54). -/
inductive PRange where
  | any
  | nat (lo hi : Nat)
  | natOr0 (lo hi : Nat)
  | oneOf (l : List Nat)
  | dividing (lo hi n : Nat) (zero : Bool)
  | int (lo hi : Int)
  | f32 (lo hi : Rat)
  | f32pos (inf : Bool)
  | f32ge0
  | gtf
  | special
  deriving DecidableEq, Repr

/-- A parameter: its ID, class, type, instances, length in words, range, and the reset value where it is one for all
instances. -/
structure PDesc where
  id    : Nat
  cls   : PClass
  ty    : PType
  lo    : Nat
  hi    : Nat
  words : Nat
  range : PRange
  reset : List Word
  deriving DecidableEq, Repr

/-- A one-word parameter. -/
def pU (id : Nat) (cls : PClass) (lo hi : Nat) (r : PRange) (v : Word) : PDesc := ⟨id, cls, .u32, lo, hi, 1, r, [v]⟩
/-- A binary32 parameter. -/
def pF (id : Nat) (cls : PClass) (lo hi : Nat) (r : PRange) (v : Word) : PDesc := ⟨id, cls, .f32, lo, hi, 1, r, [v]⟩
/-- A BLOB, all zero at reset. -/
def pB (id : Nat) (cls : PClass) (lo hi n : Nat) (r : PRange) : PDesc :=
  ⟨id, cls, .blob, lo, hi, n, r, List.replicate n 0⟩
/-- A 64-bit parameter. -/
def pD (id : Nat) (cls : PClass) (ty : PType) (lo hi : Nat) (r : PRange) (l h : Word) : PDesc :=
  ⟨id, cls, ty, lo, hi, 2, r, [l, h]⟩

/-- Index 0x00 of a group: its read-only version (R11, R54). -/
def pVersion (unit : Nat) : PDesc := ⟨256 * unit, .RO, .u32, 0, 0, 1, .any, [0]⟩

/-- PRT parameters (R123). -/
def parPrt : List PDesc :=
  [pVersion 1, pU 0x0101 .M 0 31 (.nat 0 3) 0, pU 0x0102 .M 0 27 (.nat 0 3) 0, pU 0x0103 .M 0 31 (.nat 0 1) 1,
   pD 0x0104 .F .u64 0 0 .any 0 0, pD 0x0105 .M .u64 0 31 .special 0 0, pD 0x0106 .M .u64 0 511 .any 0 0,
   pB 0x0107 .M 0 31 16 .any, pU 0x0108 .M 0 31 (.nat 0 1) 1, pU 0x0109 .M 0 31 (.nat 1518 9216) 1522,
   pD 0x010A .M .u64 0 31 .special 0 0, pB 0x010B .M 0 31 5 .special] ++
  [pU 0x010C .M 0 31 (.nat 0 31) 1, pU 0x010D .M 0 31 (.nat 0 2) 0, pU 0x010E .M 0 0 (.nat 10 1000) 100,
   pU 0x010F .M 0 7 (.oneOf [1000, 2500]) 2500, pU 0x0110 .M 0 27 (.nat 0 1) 1, pU 0x0111 .M 0 27 (.nat 0 8) 0,
   pU 0x0112 .M 0 27 (.nat 10 86400) 600, pU 0x0113 .M 0 31 (.nat 0 31) 0, pB 0x0114 .M 0 127 36 .any,
   pU 0x0115 .RO 0 0 .any 0, pU 0x0116 .RO 0 31 .any 0]

/-- TIM parameters (R101). -/
def parTim : List PDesc :=
  [pVersion 2, pU 0x0201 .RO 0 0 (.nat 0 3) 0, pU 0x0202 .RO 0 0 (.nat 0 15) 0, pU 0x0203 .RO 0 0 (.nat 0 3) 0,
   ⟨0x0204, .L, .s32, 0, 0, 1, .int (-32768) 32767, [37]⟩, pU 0x0205 .M 0 0 .special 0x123,
   pU 0x0206 .M 0 0 .any 0, pU 0x0207 .M 0 0 .any 0, pU 0x0208 .M 0 0 (.nat 0 1) 0,
   pU 0x0209 .M 0 0 (.nat 0 256) 256, pU 0x020A .M 0 0 (.nat 0 255) 128, pU 0x020B .M 0 0 (.nat 0 255) 128] ++
  [pU 0x020C .M 0 0 .any 0, pU 0x020D .M 0 0 (.nat 0 1) 0, pU 0x020E .M 0 31 (.nat 0 10000) 0,
   pU 0x020F .M 0 31 (.nat 0 10000) 0, ⟨0x0210, .M, .s32, 0, 31, 1, .int (-100000) 100000, [0]⟩,
   pU 0x0211 .M 0 0 (.nat 0 1) 0, pU 0x0212 .M 0 0 (.nat 0 100000) 0, pU 0x0213 .M 0 0 (.nat 1 1000000) 100,
   pU 0x0214 .M 0 0 (.nat 0 2) 0, pU 0x0215 .M 0 0 (.nat 0 100000) 0, pU 0x0216 .M 0 0 (.nat 1 1000000) 100,
   pD 0x0217 .L .gtf 0 0 .gtf 0xFFFFFFFF 0xFFFFFFFF] ++
  [pU 0x0218 .M 0 0 (.nat 0 2) 0, pU 0x0219 .M 0 0 (.nat 1 500000) 100000, pU 0x021A .M 0 0 (.nat 0 14) 8,
   pU 0x021B .M 0 0 (.nat 0 1) 0, pF 0x021C .M 0 0 (.f32 (1/100) 10000) 0x42480000,
   pU 0x021D .M 0 0 (.nat 1 600) 10, pU 0x021E .M 0 0 (.nat 0 3600) 60, pU 0x021F .M 0 0 (.nat 1000 1000000000) 1000000,
   pU 0x0220 .M 0 0 (.nat 1000 500000) 100000, pU 0x0221 .M 0 0 (.nat 1 1000) 16, pB 0x0222 .RO 0 0 3 .any,
   pD 0x0223 .RO .u64 0 0 .any 0 0, pD 0x0224 .RO .s64 0 0 .any 0 0]

/-- ING parameters (R149). -/
def parIng : List PDesc :=
  [pVersion 3, pU 0x0301 .M 0 0 (.nat 1 65535) 4641, pU 0x0302 .M 0 0 (.nat 1 65535) 4713,
   pU 0x0303 .M 0 0 (.nat 1 600) 10, pU 0x0304 .M 0 0 (.nat 0 15) 5, pU 0x0305 .M 0 0 (.nat 1 600) 5,
   pU 0x0306 .M 0 0 (.nat 0 1) 1, pU 0x0307 .L 0 0 (.nat 0 1) 1, pU 0x0308 .M 0 0 (.nat 1 12) 6,
   pU 0x0309 .M 0 0 (.nat 1 10000) 10, pU 0x030A .M 0 0 (.nat 110 400) 200, pU 0x030B .RO 0 8191 (.nat 0 4) 0,
   pU 0x030C .RO 0 8191 .any 0, pU 0x030D .RO 0 8191 .any 0, pU 0x030E .RO 0 0 (.nat 0 8192) 0, pU 0x030F .RO 0 0 (.nat 0 262144) 0]

/-- ALN parameters (R186). -/
def parAln : List PDesc :=
  [pVersion 4, pU 0x0401 .M 0 63 (.nat 0 1) 0, pU 0x0402 .M 0 63 (.nat 1 240) 50, pB 0x0403 .M 0 63 256 .any,
   pU 0x0404 .M 0 63 (.nat 0 2) 2, pU 0x0405 .M 0 63 (.nat 0 2000000000) 20000000, pU 0x0406 .M 0 63 (.nat 1 250000) 100,
   pU 0x0407 .M 0 63 (.nat 0 3) 1, pU 0x0408 .M 0 63 (.nat 0 1) 1, pU 0x0409 .M 0 63 (.nat 0 2000) 1000,
   pU 0x040A .M 0 63 (.nat 100 1000000) 2000, pU 0x040B .M 0 63 (.nat 0 1000) 0, pU 0x040C .M 0 0 (.nat 0 1000) 10] ++
  [pU 0x040D .M 0 63 (.nat 0 1) 0, pU 0x040E .M 0 63 (.nat 0 1) 0, pB 0x040F .M 0 255 6 .special,
   pU 0x0410 .M 0 63 (.nat 1 65534) 4096, pU 0x0411 .M 0 63 (.nat 0 1) 1, pU 0x0412 .M 0 8191 (.nat 0 0x3FFFFF) 0,
   pU 0x0413 .M 0 63 (.nat 0 3600) 10, pU 0x0414 .L 0 63 (.nat 0 0x3FF) 0x1C, pU 0x0415 .RO 0 0 (.nat 0 5242880) 0,
   pU 0x0416 .RO 0 0 (.nat 0 5242880) 0, pD 0x0417 .RO .u64 0 0 .any 0 0, pU 0x0418 .RO 0 63 (.nat 0 262144) 0]

/-- CNV parameters (R285). -/
def parCnv : List PDesc :=
  [pVersion 5, pU 0x0501 .M 0 23 (.nat 0 3) 0, pU 0x0502 .M 0 23 (.oneOf [1, 2, 4]) 1, pU 0x0503 .M 0 23 (.nat 0 8) 0,
   pU 0x0504 .M 0 23 (.nat 0 8) 4, pU 0x0505 .M 0 0 (.nat 0 1) 0, pU 0x0506 .M 0 15 .special 0,
   pU 0x0507 .M 0 0 (.nat 0 1) 1, pU 0x0508 .M 0 39 (.nat 0 15) 0, pU 0x0509 .M 0 0 (.nat 1 1000) 100,
   pU 0x050A .M 0 39 (.nat 1 32767) 2048, pU 0x050B .M 0 0 (.nat 1 16) 3, pU 0x050C .M 0 0 (.nat 0 1) 1,
   pU 0x050D .RO 0 0 (.nat 0 3) 1, pU 0x050E .RO 0 24 (.nat 0 26) 0, pU 0x050F .RO 0 26 (.nat 0 4) 0, pB 0x0510 .RO 0 26 4 .any,
   pF 0x0511 .RO 0 0 .any 0]

/-- FLT parameters (R303). -/
def parFlt : List PDesc :=
  [pVersion 6, pU 0x0601 .M 0 24 (.nat 0 3) 1, pU 0x0602 .L 0 24 (.nat 0 1) 0, pU 0x0603 .RO 0 24 (.nat 0 1) 0,
   pB 0x0604 .L 0 24 2 .special, pB 0x0605 .L 0 1599 16 .any, pB 0x0606 .M 0 7 3 .special,
   pF 0x0607 .RO 0 7 .any 0, pF 0x0608 .RO 0 24 .any 0]

/-- MOD parameters (R214). -/
def parMod : List PDesc :=
  [pVersion 7, pU 0x0701 .M 0 255 (.nat 0 1) 0, pU 0x0702 .M 0 255 .any 0,
   pF 0x0703 .M 0 255 (.f32 (1/100) 108) 0x3DCCCCCD, pF 0x0704 .M 0 255 (.f32 (1/100) 108) 0x3F800000,
   pU 0x0705 .M 0 255 (.nat 0 12) 4, pF 0x0706 .L 0 255 (.f32pos true) 0x7F800000, pU 0x0707 .L 0 255 (.nat 0 50) 10,
   pU 0x0708 .L 0 255 (.nat 1 65535) 3, pU 0x0709 .L 0 255 (.nat 1 65535) 3, pU 0x070A .M 0 255 (.nat 0 16) 0,
   pU 0x070B .M 0 255 (.nat 0 1) 0, pU 0x070C .M 0 255 (.nat 1 65535) 50, pF 0x070D .RO 0 255 .any 0,
   pU 0x070E .RO 0 255 (.nat 0 4) 0] ++
  [pU 0x0710 .M 0 3 (.nat 0 1) 0, pU 0x0711 .M 0 3 (.nat 0 63) 0, pU 0x0712 .M 0 3 (.nat 0 1) 0,
   pU 0x0713 .M 0 3 (.nat 1 24) 5, pB 0x0714 .M 0 3 64 .any, pU 0x0715 .M 0 3 (.nat 10 600) 300,
   pU 0x0716 .M 0 3 .special 24, pU 0x0717 .M 0 3 (.nat 1 100) 25, pU 0x0718 .M 0 3 (.nat 0 16) 4,
   pU 0x0719 .M 0 3 (.nat 1 64) 2, pU 0x071A .L 0 3 (.nat 0 10000) 500, pU 0x071B .L 0 3 (.nat 0 1000) 100] ++
  [pU 0x071C .L 0 3 (.nat 0 200) 50, pU 0x071D .L 0 3 (.nat 10 600) 60, pU 0x071E .L 0 3 (.nat 1 100) 6,
   pF 0x071F .L 0 3 .f32ge0 0, pF 0x0720 .L 0 3 (.f32pos true) 0x7F800000, pU 0x0721 .M 0 3 (.nat 1 500) 20,
   pB 0x0722 .M 0 3 32 .any, pU 0x0723 .L 0 3 (.nat 1 1000) 1, pU 0x0724 .M 0 3 (.nat 0 1) 0,
   pU 0x0725 .RO 0 3 (.nat 0 3) 0, pF 0x0726 .RO 0 3 .any 0]

/-- ARM parameters (R234). -/
def parArm : List PDesc :=
  [pVersion 8, pU 0x0801 .M 0 15 (.nat 0 2) 0, pU 0x0802 .M 0 15 (.nat 0 63) 0, pB 0x0803 .M 0 4095 4 .any,
   pB 0x0804 .M 0 8191 2 .any, pU 0x0805 .M 0 7 (.nat 0 100000) 1000, pU 0x0806 .M 0 0 (.nat 0 60000) 5000,
   pU 0x0807 .L 0 15 (.nat 1 10000) 50, pF 0x0808 .L 0 15 (.f32 (1/1000) 10) 0x3DCCCCCD,
   pU 0x0809 .M 0 15 (.nat 1 1000) 10, pF 0x080A .L 0 15 (.f32pos false) 0x47435000,
   pU 0x080B .L 0 15 (.nat 1 65535) 10, pU 0x080C .M 0 15 (.nat 0 1) 0] ++
  [pU 0x080D .M 0 63 (.nat 0 1) 0, pU 0x080E .M 0 63 (.nat 0 63) 0, pB 0x080F .M 0 63 512 .any,
   pF 0x0810 .L 0 63 .f32ge0 0, pF 0x0811 .L 0 63 (.f32 0 100) 0x40000000, pU 0x0812 .L 0 63 (.nat 1 65535) 10,
   pU 0x0813 .M 0 63 (.nat 0 1) 0, pU 0x0814 .M 0 63 (.dividing 60 86400 86400 true) 900, pB 0x0815 .RO 0 63 13 .any,
   pU 0x0816 .RO 0 4095 .any 0x50000000, pU 0x0817 .RO 0 8191 .any 0, pU 0x0818 .RO 0 0 .any 0,
   pF 0x0819 .RO 0 63 .any 0, pU 0x081A .RO 0 0 (.nat 0 256) 0]

/-- CUS parameters (R263). -/
def parCus : List PDesc :=
  [pVersion 9, pU 0x0901 .S 0 511 .special 0, ⟨0x0902, .S, .blob, 0, 511, 8, .any, List.replicate 8 0xFF⟩,
   pD 0x0903 .S .u64 0 511 .any 0 0, pB 0x0904 .S 0 511 3 .any,
   ⟨0x0905, .S, .blob, 0, 511, 2, .any, [0x3F800000, 0x3F800000]⟩, pB 0x0906 .S 0 1535 27 .special,
   pB 0x0907 .S 0 1535 2 .any, pF 0x0908 .S 0 511 (.f32 (5/100) 1) 0x3DCCCCCD, pF 0x0909 .S 0 511 .f32ge0 0,
   pU 0x090A .S 0 511 (.nat 10 600000) 1000, pU 0x090B .S 0 511 (.dividing 1 60 1440 false) 15,
   pU 0x090C .S 0 511 (.nat 0 3) 0] ++
  [pF 0x090D .S 0 511 (.f32pos true) 0x7F800000, pB 0x090E .S 0 511 2 .special, pB 0x090F .S 0 511 8 .special,
   ⟨0x0910, .S, .blob, 0, 511, 3, .any, [0x47C5E680, 0x43889333, 0x3F800000]⟩,
   pF 0x0911 .S 0 511 (.f32pos false) 0x3A83126F, pU 0x0912 .S 0 0 (.nat 3 127) 3, pU 0x0913 .RO 0 0 .any 0,
   pB 0x0914 .F 0 0 21 .any, pU 0x0915 .RO 0 0 (.nat 0 285975) 0, pU 0x0916 .RO 0 511 .any 0]

/-- LGC parameters (R346). -/
def parLgc : List PDesc :=
  [pVersion 10, pU 0x0A01 .M 0 0 (.nat 0 1) 0, pU 0x0A02 .L 0 0 (.nat 0 1) 1, pU 0x0A03 .M 0 0 (.nat 1 10000) 50,
   pU 0x0A04 .M 0 0 (.nat 1 100) 3, pU 0x0A05 .M 0 0 (.natOr0 100 60000) 1000, pB 0x0A06 .M 0 31 105 .special,
   pU 0x0A07 .RO 0 0 (.nat 0 3) 0, pU 0x0A08 .RO 0 0 .any 0, pB 0x0A09 .RO 0 0 2 .any, pB 0x0A0A .RO 0 0 2 .any,
   pU 0x0A0B .RO 0 8191 (.nat 0 3) 0, pU 0x0A0C .RO 0 0 (.nat 0 256) 0]

/-- CAP parameters (R327). -/
def parCap : List PDesc :=
  [pVersion 11, pU 0x0B01 .M 0 7 .special 0, pB 0x0B02 .M 0 7 512 .any, pU 0x0B03 .M 0 7 (.nat 0 2) 0,
   pU 0x0B04 .M 0 7 (.nat 1 5120) 640, pU 0x0B05 .M 0 7 (.nat 1 15) 1, pU 0x0B06 .M 0 7 (.nat 2 65536) 64,
   pB 0x0B07 .M 0 7 64 .special, pU 0x0B08 .L 0 7 (.nat 0 0xFFFF) 0xFFFF, pU 0x0B09 .M 0 7 (.natOr0 10 3600000) 0,
   pU 0x0B0A .L 0 7 (.nat 0 60000) 100, pU 0x0B0B .M 0 7 (.nat 1 2000) 250, pU 0x0B0C .M 0 0 (.nat 0 255) 0,
   pB 0x0B0D .M 0 0 16 .any, pU 0x0B0E .RO 0 7 (.nat 0 6) 0, pD 0x0B0F .RO .u64 0 7 .any 0 0,
   pU 0x0B10 .M 0 7 (.oneOf [50, 60]) 50, pU 0x0B11 .RO 0 7 (.nat 0 512) 0, pF 0x0B12 .RO 0 7 .any 0]

/-- CTL parameters (R72, R400, R430). -/
def parCtl : List PDesc :=
  [pVersion 12, pU 0x0C01 .M 0 0 (.nat 1 65535) 4640, pU 0x0C02 .M 0 31 (.nat 0 1) 0,
   pU 0x0C03 .M 0 0 (.nat 9600 3000000) 115200, pU 0x0C04 .M 0 0 (.nat 0 1) 1, pU 0x0C05 .L 0 0 (.nat 10 86400) 600,
   pU 0x0C06 .M 0 0 (.nat 1 1000) 20, pB 0x0C07 .M 0 3 5 .any, pU 0x0C08 .L 0 5 (.nat 0 0xFFFF) 0,
   pU 0x0C09 .L 0 0 (.nat 56 63) 63, pU 0x0C0A .M 0 7 (.nat 56 63) 56, pU 0x0C0B .L 0 0 (.nat 1 10000) 100,
   pU 0x0C0C .L 0 73 (.nat 1 16) 12] ++
  [pU 0x0C0D .M 0 0 (.natOr0 60 86400) 3600, pU 0x0C0E .RO 0 0 .any 0x40FFFF, pU 0x0C0F .RO 0 17 (.nat 0 3) 0,
   pU 0x0C10 .RO 0 17 (.nat 0 1000) 0, pU 0x0C11 .RO 0 73 (.nat 0 16) 0, pU 0x0C12 .M 0 0 (.nat 0 2) 1,
   pU 0x0C13 .M 0 0 (.nat 0 3600) 300, pU 0x0C14 .L 0 0 (.nat 1 60000) 5000, pU 0x0C15 .RO 0 0 .any 0,
   pU 0x0C16 .RO 0 0 (.nat 0 3) 0, pU 0x0C17 .RO 0 0 .any 0, pU 0x0C18 .M 0 31 (.nat 0 1) 0, pB 0x0C19 .RO 0 0 4 .any]

/-- VLT parameters (R374). -/
def parVlt : List PDesc :=
  [pVersion 13, pU 0x0D01 .S 0 0 (.nat 0 31) 0, pU 0x0D02 .RO 0 0 .any 0, pB 0x0D03 .RO 0 0 32 .any,
   pD 0x0D04 .RO .u64 0 0 .any 0 0, pB 0x0D05 .RO 0 127 2 .any, pU 0x0D06 .RO 0 0 (.nat 0 125) 125,
   pD 0x0D07 .F .u64 0 0 .any 0 0, pD 0x0D08 .RO .gtf 0 0 .gtf 0 0, pU 0x0D09 .RO 0 0 (.nat 0 5000) 0,
   pU 0x0D0A .RO 0 0 (.nat 0 5000) 0, pU 0x0D0B .M 0 0 (.nat 2500 3300) 2700, pD 0x0D0C .RO .gtf 0 0 .gtf 0xFFFFFFFF 0xFFFFFFFF]

/-- EVT parameters (R384). -/
def parEvt : List PDesc :=
  [pVersion 14, pU 0x0E01 .L 0 0 (.nat 1 600) 60, pU 0x0E02 .M 1 3 (.nat 10 3600000) 1000, pU 0x0E03 .RO 0 1 (.nat 0 65536) 0,
   pU 0x0E04 .RO 0 1 .any 0, pU 0x0E05 .RO 0 0 .any 0, pU 0x0E06 .RO 0 0 .any 0]

/-- MEM parameters (R465). -/
def parMem : List PDesc :=
  [pVersion 15, pU 0x0F01 .M 0 0 (.nat 10 3600) 300, pU 0x0F02 .RO 1 8 .any 0, pF 0x0F03 .RO 0 0 .any 0,
   pU 0x0F04 .RO 0 0 (.nat 0 8) 0]

/-- The parameters of a unit. -/
def parTable : Nat → List PDesc
  | 1 => parPrt | 2 => parTim | 3 => parIng | 4 => parAln | 5 => parCnv | 6 => parFlt | 7 => parMod | 8 => parArm
  | 9 => parCus | 10 => parLgc | 11 => parCap | 12 => parCtl | 13 => parVlt | 14 => parEvt | 15 => parMem
  | _ => []

/-- The descriptor of a parameter ID (R54). -/
def parDesc (id : Nat) : Option PDesc := (parTable (id / 256)).find? (fun d => d.id == id)

/-- The key of a parameter or counter and an instance. -/
def parKey (id inst : Nat) : Nat := id * 65536 + inst

/-- The class in force: on GLS-4640-A the S parameters of CUS and VLT.TAMPER_EN are of class M (R257, R374). -/
def PDesc.clsOn (d : PDesc) (variantM : Bool) : PClass :=
  match d.cls with
  | .S => if variantM then .S else .M
  | c => c

/-- The class code of a type word (R51). -/
def PClass.code : PClass → Nat
  | .L => 0 | .M => 1 | .S => 2 | .F => 3 | .RO => 4

/-- The type code of a type word (R51). -/
def PType.code : PType → Nat
  | .u32 => 0 | .s32 => 1 | .f32 => 2 | .u64 => 3 | .s64 => 4 | .gtf => 5 | .blob => 6

/-! ### Value checks (R54) -/

/-- The number two words carry, low word first (R51). -/
def dword (l : List Word) : Nat := (l.getD 0 0).toNat + 2 ^ 32 * (l.getD 1 0).toNat

/-- The low and high word of a 64-bit number. -/
def words64 (n : Nat) : List Word := [BitVec.ofNat 32 n, BitVec.ofNat 32 (n / 2 ^ 32)]

/-- The value of bits `hi:lo` of a number. -/
def bitsOf (n hi lo : Nat) : Nat := n / 2 ^ lo % 2 ^ (hi - lo + 1)

/-- The number of ones of a number, over `k` bits. -/
def popCount : Nat → Nat → Nat
  | 0, _ => 0
  | k + 1, n => n % 2 + popCount k (n / 2)

/-- A GTF pattern that is a time: NANOSECONDS at most 999,999,999 (R76). -/
def gtfValid (n : Nat) : Bool := decide (n % 2 ^ 30 < 1000000000) && decide (n < 2 ^ 64)

/-- The pattern "no time" (R76). -/
def gtfNone : Nat := 2 ^ 64 - 1

/-- A binary32 number between two rationals, each rounded to binary32. -/
def f32Between (w : Word) (lo hi : Rat) : Bool :=
  match (f32Val w).rat? with
  | some q => decide (f32Rat (f32OfRat lo) ≤ q) && decide (q ≤ f32Rat (f32OfRat hi))
  | none => false

/-- The geometry of CUS.ORIFICE (R246). -/
def orificeOk (v : List Word) : Bool :=
  let f := fun k => v.getD k 0
  f32Between (f 0) (5/100) 1 && f32Between (f 1) (125/10000) 1 && decide ((f 2).toNat ≤ 2) &&
    (let b := f32Div (f 1) (f 0)
     f32Between b (1/10) (75/100))

/-- The first words of the breakpoints of CUS.CORR: X strictly rising over those used, then 0 (R241). -/
def corrRising : FVal → List FVal → Bool
  | _, [] => true
  | x, y :: l => if y = .fin false 0 ∨ y = .fin true 0 then l.all (fun z => z == .fin false 0 || z == .fin true 0)
    else x.lt y && corrRising y l

/-- The breakpoints of CUS.CORR: none used, or at least two (R241). -/
def corrOk (v : List Word) : Bool :=
  let xs := (List.range 9).map (fun k => f32Val (v.getD (3 * k) 0))
  let zero := fun (x : FVal) => x == .fin false 0 || x == .fin true 0
  corrRising (.fin false 0) xs && xs.all FVal.finite && !((xs.filter (fun x => !zero x)).length == 1)

/-- The checks of parameters whose range is a rule of their own. -/
def specialOk (id : Nat) (v : List Word) : Bool :=
  let w := (v.getD 0 0).toNat
  let d := dword v
  match id with
  | 0x0105 => decide (bitsOf d 40 40 = 0)
  | 0x010A => decide (bitsOf d 37 32 ≤ 32)
  | 0x010B => decide (bitsOf (v.getD 4 0).toNat 7 0 ≤ 128)
  | 0x0205 => decide (bitsOf w 11 8 ≤ 3) && decide (bitsOf w 7 4 ≤ 3) && decide (bitsOf w 3 0 ≤ 3)
  | 0x040F =>
    match bitsOf w 31 24 with
    | 0 => true
    | 1 | 2 => decide (bitsOf w 23 16 ≤ 31)
    | 3 => decide (56 ≤ bitsOf w 23 16) && decide (bitsOf w 23 16 ≤ 63)
    | _ => false
  | 0x0506 => decide (bitsOf w 21 20 ≠ 3) && (decide (w < 2 ^ 31) ||
      (decide (bitsOf w 19 10 ≤ 1000) && decide (1 ≤ bitsOf w 9 0) && decide (bitsOf w 9 0 ≤ 1000)))
  | 0x0606 => decide (w < 2 ^ 31) || ((v.drop 1).take 2).all (fun x =>
      [bitsOf x.toNat 29 24, bitsOf x.toNat 21 16, bitsOf x.toNat 13 8].all (fun c => decide (c ≤ 23) || c == 0x3F))
  | 0x0604 => decide (bitsOf w 26 16 ≤ 1024) && decide (1 ≤ bitsOf w 9 0) && decide (bitsOf w 9 0 ≤ 1000) &&
      decide ((v.getD 1 0).toNat ≤ 1023000)
  | 0x0716 => decide (2 ≤ w) && decide (w ≤ 48) && decide (w % 2 = 0)
  | 0x0901 => decide (w < 2 ^ 31) || (decide (1 ≤ bitsOf w 30 28) && decide (bitsOf w 30 28 ≤ 5) &&
      decide (bitsOf w 25 24 ≤ 2) && decide (bitsOf w 23 22 ≤ 2))
  | 0x0906 => corrOk v
  | 0x090E => decide (w ≤ 2)
  | 0x090F => orificeOk v
  | 0x0A06 => decide (w < 2 ^ 31) ||
      (let mn := bitsOf (v.getD 6 0).toNat 31 16
       let mx := bitsOf (v.getD 6 0).toNat 15 0
       let l := fun hi lo => bitsOf (v.getD 7 0).toNat hi lo
       (v.getD 2 0).getLsbD 8 && decide (1 ≤ mn) && decide (mn ≤ 1000) && decide (1000 ≤ mx) && decide (mx ≤ 60000) &&
         decide (mn ≤ mx) && decide (1 ≤ l 23 16) && decide (l 23 16 ≤ 129) && decide (1 ≤ l 15 8) &&
         decide (l 15 8 ≤ 129) && decide (l 7 0 ≤ 129))
  | 0x0B01 => decide (w / 2 ^ 28 ≤ 4) && (match w / 2 ^ 28 with
      | 1 => decide (bitsOf w 12 0 ≤ 63)
      | 2 | 3 => decide (bitsOf w 12 0 = 0)
      | _ => true)
  | 0x0B07 => (List.range 16).all (fun k =>
      let x := (v.getD (4 * k) 0).toNat
      decide (bitsOf x 30 28 ≤ 3) && decide (bitsOf x 27 26 ≠ 3) &&
        (decide (x < 2 ^ 31) || (match (f32Val (v.getD (4 * k + 2) 0)).rat? with | some q => decide (0 ≤ q) | none => false)))
  | _ => true

/-- The bits of each word that a parameter's value defines, repeated over its words; none where every bit is a field. The rest are
reserved: ignored as received and zero as produced (R8). -/
def valueMask (id : Nat) : List Word :=
  match id with
  | 0x0105 => [0xFFFFFFFF, 0x0000FFFF]
  | 0x0106 => [0xFFFFFFFF, 0x0001FFFF]
  | 0x010A => [0xFFFFFFFF, 0x0000003F]
  | 0x010B => [0xFFFFFFFF, 0xFFFFFFFF, 0xFFFFFFFF, 0xFFFFFFFF, 0x000000FF]
  | 0x0113 | 0x0D01 => [0x0000001F]
  | 0x0205 => [0x00000FFF]
  | 0x020C => [0x0001EFFF]
  | 0x040F => [0xFFFFFFFF, 0xFFFFFFFF, 0xFFFFFFFF, 0xFFFFFFFF, 0xFFFFFFFF, 0]
  | 0x0412 => [0x003FFFFF]
  | 0x0414 => [0x0000037F]
  | 0x0506 => [0x8F3FFFFF]
  | 0x0508 | 0x0B05 => [0x0000000F]
  | 0x0604 => [0x07FF03FF, 0xFFFFFFFF]
  | 0x0606 => [0xE00000FF, 0x3F3F3F00, 0x3F3F3F00]
  | 0x0702 => [0x3F03FFFF]
  | 0x0714 => [0x8F03FFFF]
  | 0x0722 => [0xFFFFFFF1]
  | 0x0803 => [0xEF03FFFF, 0x0003FFFF, 0xFFFFFFFF, 0xFFFFFFFF]
  | 0x0804 => [0xFEFFFFFF, 0xFFFFFFFF]
  | 0x080F => [0x8003FFFF, 0xFFFFFFFF]
  | 0x0901 => [0xFFC03F00]
  | 0x090C => [0x00000003]
  | 0x090F => [0xFFFFFFFF, 0xFFFFFFFF, 0xFFFFFFFF, 0xFFFFFFFF, 0xFFFFFFFF, 0xFFFFFFFF, 0xFFFFFFFF, 0]
  | 0x0A06 => [0xE000FFFF, 0xFFFFFFFF, 0x0000FFFF, 0x0001EFFF, 0xFFFFFFFF, 0xFFFFFFFF, 0xFFFFFFFF, 0x00FFFFFF] ++
      List.replicate 97 0xFFFFFFFF
  | 0x0B01 => [0xF0001FFF]
  | 0x0B02 => [0x8003FFFF]
  | 0x0B07 => [0xFC00FFFF, 0xFFFFFFFF, 0xFFFFFFFF, 0]
  | 0x0C07 => [0xFFFFFFFF, 0xFFFFFFFF, 0xFFFFFFFF, 0xFFFFFFFF, 0x0000FFFF]
  | _ => []

/-- A value without its reserved bits (R8). -/
def valueKept (id : Nat) (v : List Word) : List Word :=
  let m := valueMask id
  if m.isEmpty then v else ((List.range v.length).zip v).map (fun x => x.2 &&& m.getD (x.1 % m.length) 0)

/-- A value lies in a range. -/
def PRange.ok (id : Nat) (v : List Word) : PRange → Bool
  | .any => true
  | .nat lo hi => decide (lo ≤ (v.getD 0 0).toNat) && decide ((v.getD 0 0).toNat ≤ hi)
  | .natOr0 lo hi => decide ((v.getD 0 0).toNat = 0) ||
      (decide (lo ≤ (v.getD 0 0).toNat) && decide ((v.getD 0 0).toNat ≤ hi))
  | .oneOf l => l.contains (v.getD 0 0).toNat
  | .dividing lo hi n zero =>
    let w := (v.getD 0 0).toNat
    if w = 0 then zero else decide (lo ≤ w) && decide (w ≤ hi) && decide (n % w = 0)
  | .int lo hi => decide (lo ≤ (v.getD 0 0).toInt) && decide ((v.getD 0 0).toInt ≤ hi)
  | .f32 lo hi => f32Between (v.getD 0 0) lo hi
  | .f32pos inf =>
    match f32Val (v.getD 0 0) with
    | .fin neg q => !neg && decide (0 < q)
    | .inf neg => inf && !neg
    | .nan => false
  | .f32ge0 =>
    match (f32Val (v.getD 0 0)).rat? with
    | some q => decide (0 ≤ q)
    | none => false
  | .gtf => decide (dword v = gtfNone) || gtfValid (dword v)
  | .special => specialOk id v

/-- The reset value of a parameter instance. -/
def parReset (i : Ident) (id inst : Nat) : List Word :=
  match id with
  | 0x0105 => words64 (i.macBase + inst)
  | 0x0106 => if inst % 16 = 0 then words64 (2 ^ 48 + i.macBase + inst / 16) else [0, 0]
  | 0x010C => [BitVec.ofNat 32 (inst % 4 + 1)]
  | 0x010D => [if inst < 28 then 0 else 2]
  | 0x0410 => [BitVec.ofNat 32 (4096 + inst)]
  | 0x0506 => [BitVec.ofNat 32 (inst * 2 ^ 24 + 2 ^ 31 + 1)]
  | 0x0601 => [if inst = 24 then 3 else 1]
  | 0x0C08 => [if inst = 0 then 0x3FFF else 0]
  | 0x0C0A => [BitVec.ofNat 32 (56 + inst)]
  | 0x0E02 => [if inst = 1 then 1000 else if inst = 2 then 10000 else 60000]
  | _ => ((parDesc id).map PDesc.reset).getD []

/-! ### Counters (R65) -/

/-- The counters: first and last ID of a block, and the last instance. -/
def counterBlocks : List (Nat × Nat × Nat) :=
  [(0x0101, 0x0118, 31), (0x0201, 0x0206, 0), (0x0301, 0x0302, 8192), (0x0303, 0x0303, 0), (0x0304, 0x0313, 8192),
   (0x0401, 0x040E, 64), (0x0501, 0x0508, 25), (0x0601, 0x0602, 25), (0x0603, 0x0603, 8192), (0x0701, 0x0704, 256),
   (0x0705, 0x0709, 4), (0x0801, 0x0805, 0), (0x0806, 0x0807, 64), (0x0901, 0x0905, 512), (0x0906, 0x0908, 0),
   (0x0909, 0x0909, 512)] ++
  [(0x0A01, 0x0A04, 0), (0x0A05, 0x0A08, 8192), (0x0A09, 0x0A09, 32), (0x0B01, 0x0B09, 8), (0x0C01, 0x0C08, 0),
   (0x0C09, 0x0C0A, 74), (0x0C0B, 0x0C0F, 0), (0x0D01, 0x0D06, 0), (0x0E01, 0x0E05, 1), (0x0F01, 0x0F04, 0)]

/-- The last instance of a counter, none for an ID that is not defined. -/
def counterTop (id : Nat) : Option Nat :=
  (counterBlocks.find? (fun b => decide (b.1 ≤ id) && decide (id ≤ b.2.1))).map (fun b => b.2.2)

end Sys2Proof.Machine

namespace Sys2Proof

open Sys2Proof.Machine

/-! ### Payload words -/

/-- The carriage is big-endian (02, Carriages). -/
def Carriage.big : Carriage → Bool
  | .host _ | .uart => false
  | .udp4 _ _ | .udp6 _ _ | .tcp _ => true

/-- The largest LENGTH of the carriage (02, Carriages). -/
def Carriage.maxLength : Carriage → Nat
  | .udp4 _ _ => 16376
  | .udp6 _ _ => 16381
  | .host _ | .uart | .tcp _ => 16384

/-- Word `n` of a packet, n ≥ 4; a word that is not there reads as 0. -/
def Req.w (q : Req) (n : Nat) : Word := q.payload.getD (n - 4) 0

/-- Bits `hi:lo` of word `n`. -/
def Req.bits (q : Req) (n hi lo : Nat) : Nat := bitsOf (q.w n).toNat hi lo

/-- The 64-bit number in words `n` and `n + 1`. -/
def Req.dw (q : Req) (n : Nat) : Nat := (q.w n).toNat + 2 ^ 32 * (q.w (n + 1)).toNat

/-- Words `n` and on. -/
def Req.rest (q : Req) (n : Nat) : List Word := q.payload.drop (n - 4)

/-- `k` bytes of a byte string from word `n`: bytes in ascending address order as carried (R33, R355). -/
def Req.bytes (q : Req) (n k : Nat) : List Byte :=
  (if q.carriage.big then wordsBe (q.rest n) else wordsLe (q.rest n)).take k

/-- A byte string as the words that carry it in ascending address order. -/
def Carriage.pack (c : Carriage) (l : List Byte) : List Word :=
  if c.big then beWords ((l.length + 3) / 4) (padTo (4 * ((l.length + 3) / 4)) l)
  else leWords ((l.length + 3) / 4) (padTo (4 * ((l.length + 3) / 4)) l)

/-- FLAGS of a request as received, bits 15:8 in place (R31). -/
def Req.flags (q : Req) : Nat :=
  (if q.auth then 256 else 0) + (if q.noreply then 512 else 0) + (if q.urgent then 1024 else 0) + q.rsv % 32 * 2048

/-- What R42 orders replies by: the command ring, the UDP source address and port, or the UART; a TCP connection is not among
them. -/
def Carriage.source : Carriage → Option Carriage
  | .host r => some (.host r)
  | .udp4 _ p | .udp6 _ p => some (.udp6 0 p)
  | .uart => some .uart
  | .tcp _ => none

/-! ### FIFO words (R394) -/

/-- The number of ones among data, tag and parity is even (R394). -/
def FifoWord.even (w : FifoWord) : Bool :=
  (((List.range 64).filter (fun i => w.data.getLsbD i)).length + ((List.range 6).filter (fun i => w.tag.getLsbD i)).length +
    (if w.parity then 1 else 0)) % 2 == 0

/-- A word as its reader delivers it: poisoned where the parity fails (R27, R394). -/
def FifoWord.read (w : FifoWord) : FifoWord := if w.even then w else { w with poison := true }

end Sys2Proof
end

