-- ==== Sys2Proof/Machine/Flags.lean ====
section
/-! DEFINITION. What the module computes of its own state: parameter values in force, GTF, the error estimate and TQ
(R77, R78, R91), TIME_LOCKED (R92), the state word (R28), the driven lands (R28, R29, R442) and the quality word (R20). -/

namespace Sys2Proof.Machine

open Sys2Proof

/-! ### Parameters in force -/

/-- The value words of a parameter in force. -/
def State.par (s : State) (id inst : Nat) : List Word :=
  (s.ctl.cfg.par.get? (parKey id inst)).getD (parReset s.ident id inst)

/-- A one-word parameter as a number. -/
def State.parN (s : State) (id inst : Nat) : Nat := ((s.par id inst).getD 0 0).toNat

/-- A one-word parameter as a signed number. -/
def State.parI (s : State) (id inst : Nat) : Int := ((s.par id inst).getD 0 0).toInt

/-- A one-word parameter as its word. -/
def State.parW (s : State) (id inst : Nat) : Word := (s.par id inst).getD 0 0

/-- A two-word parameter as a number. -/
def State.parD (s : State) (id inst : Nat) : Nat := dword (s.par id inst)

/-- A parameter is 1. -/
def State.parB (s : State) (id inst : Nat) : Bool := s.parN id inst == 1

/-- Set a parameter in force; a value equal to the reset value is unlisted. -/
def State.setPar (s : State) (id inst : Nat) (v : List Word) : State :=
  let par := if v = parReset s.ident id inst then s.ctl.cfg.par.erase (parKey id inst)
    else s.ctl.cfg.par.set (parKey id inst) v
  { s with ctl := { s.ctl with cfg := { s.ctl.cfg with par := par } } }

/-! ### Time -/

/-- Nanoseconds in a second. -/
abbrev sec : Nat := 1000000000

/-- The instant of the time base, in ns since 2000-01-01T00:00:00 TAI. -/
def State.now (s : State) : Nat := s.tim.now

/-- Let `dt` ns of the time base pass. -/
def State.advance (s : State) (dt : Nat) : State := { s with tim := { s.tim with now := s.tim.now + dt } }

/-- The GTF pattern of an instant (R75). -/
def gtfOf (t : Nat) : Nat := t / sec * 2 ^ 30 + t % sec

/-- The GTF pattern of an instant or of no time (R76). -/
def gtfOpt : Option Nat → Nat
  | some t => gtfOf t
  | none => gtfNone

/-- The instant of a GTF pattern that is a time. -/
def nsOf (g : Nat) : Nat := g / 2 ^ 30 * sec + g % 2 ^ 30

/-- The two words of a GTF, low word first (R75). -/
def gtfWords (t : Nat) : List Word := words64 (gtfOf t)

/-- The least multiple of `p` that is at least `t` (`p` positive). -/
def ceilTo (p t : Nat) : Nat := (t + p - 1) / p * p

/-- TAI − UTC at a TAI instant of the time base (R95, R96): the previous offset before the last leap, the announced one
from a leap still to come. -/
def State.utcOffsetAt (s : State) (t : Int) : Int :=
  let x := s.tim
  if x.leapDue then
    (if (x.leapAt : Int) ≤ t then x.utcOffset + (if x.leapKind = 1 then 1 else -1) else x.utcOffset)
  else match x.prevOffset with
    | some p => if t < (x.leapAt : Int) ∧ s.tim.now < x.leapAt + 86400 * sec then p else x.utcOffset
    | none => x.utcOffset

/-- The TAI instant of a UTC instant, both in ns since 2000-01-01 (R96): with the offset in force at the UTC instant. -/
def State.taiOfUtc (s : State) (u : Int) : Int :=
  let x := s.tim
  if x.leapDue then
    let next := x.utcOffset + (if x.leapKind = 1 then 1 else -1)
    if (x.leapAt : Int) ≤ u + next * sec then u + next * sec else u + x.utcOffset * sec
  else
    let t := u + x.utcOffset * sec
    u + s.utcOffsetAt t * sec

/-- The UTC instant of a TAI instant (R96). -/
def State.utcOfTai (s : State) (t : Int) : Int := t - s.utcOffsetAt t * sec

/-! ### Error estimate and TQ -/

/-- The TQ code of an error estimate in ns (R77). -/
def tqOf (e : Rat) : Nat :=
  if e ≤ 25 then 0 else if e ≤ 50 then 1 else if e ≤ 100 then 2 else if e ≤ 250 then 3 else if e ≤ 500 then 4
  else if e ≤ 1000 then 5 else if e ≤ 2500 then 6 else if e ≤ 5000 then 7 else if e ≤ 10000 then 8
  else if e ≤ 25000 then 9 else if e ≤ 50000 then 10 else if e ≤ 100000 then 11 else if e ≤ 1000000 then 12
  else if e ≤ 10000000 then 13 else 14

/-- The remaining offset o at instant `t`: the last measured offset less the correction already applied, which is at
most TIM.SLEW_MAX_PPB of the time since (R78, R93). -/
def State.offsetAt (s : State) (t : Nat) : Int :=
  let o := s.tim.offset
  let dt := t - s.tim.offsetAt
  let most := s.parN Par.TIM.SLEW_MAX_PPB 0 * dt / sec
  let cut := min (min (Config.slewed o.natAbs dt (s.parN Par.TIM.SERVO_TC_S 0)) most) o.natAbs
  if o < 0 then o + cut else o - cut

/-- The correction applied to the clock since boot, by slews and steps, in ns: a positive one set it back (R78). -/
def State.clockMoved (s : State) : Int :=
  s.tim.corrected + (if s.tim.st = 2 then s.tim.offset - s.offsetAt s.now else 0)

/-- The state of the reference kind (R80). -/
def Tim.refOf (t : Tim) : Nat → Ref
  | 1 => t.ptp
  | 2 => t.irig
  | 3 => t.pps
  | _ => Ref.init

/-- TIM.HO_RATE_PPB as a rational (R91). -/
def State.hoRate (s : State) : Rat := f32Rat (s.parW Par.TIM.HO_RATE_PPB 0)

/-- The holdover bound at instant `t` (R91). -/
def State.holdE (s : State) (t : Nat) : Rat := s.tim.e0 + s.hoRate / 1000000000 * ((t - s.tim.holdSince : Nat) : Rat)

/-- The error estimate E in ns; none in FREE and in ACQUIRING from FREE (R78, R79, R91). -/
def State.errorE (s : State) : Option Rat :=
  if s.tim.st = 2 then
    some ((s.tim.refOf s.tim.ref).inacc + ((s.offsetAt s.now).natAbs : Rat) + 8)
  else if s.tim.st = 3 ∨ (s.tim.st = 1 ∧ s.tim.fromHold) then some (s.holdE s.now)
  else none

/-- The TQ now (R77, R79). -/
def State.tq (s : State) : Nat :=
  match s.errorE with
  | some e => tqOf e
  | none => if s.tim.plinthSet then 14 else 15

/-- TIME_LOCKED (R92). -/
def State.timeLocked (s : State) : Bool := (s.tim.st == 2 || s.tim.st == 3) && decide (s.tq ≤ 8)

/-- The plinth count now, in ns, on whole periods of 32.768 kHz (R365). -/
def State.plinthNow (s : State) : Nat :=
  let t := s.tim.plinth + (s.tim.now - s.tim.plinthAt)
  t * 32768 / sec * sec / 32768

/-! ### Units and device state -/

/-- The run state of a unit. -/
def State.unit (s : State) (u : Nat) : UnitSt := s.units.getD u UnitSt.init

/-- The unit runs. -/
def State.runs (s : State) (u : Nat) : Bool := (s.unit u).st == 0

/-- The unit runs or is quiesced, so that it serves and keeps its state. -/
def State.alive (s : State) (u : Nat) : Bool := (s.unit u).st == 0 || (s.unit u).st == 1

/-- The units 0x01 to 0x0F (R15). -/
def unitIds : List Nat := [1, 2, 3, 4, 5, 6, 7, 8, 9, 10, 11, 12, 13, 14, 15]

/-- Every unit runs. -/
def State.allRun (s : State) : Bool := unitIds.all (fun u => s.runs u)

/-- The EPOCH field of a unit: its ID and its epoch (R31). -/
def State.epochOf (s : State) (u : Nat) : Half := BitVec.ofNat 16 (u * 256) ||| (s.unit u).epoch.setWidth 16

/-- The state code of R28. -/
def DevState.code : DevState → Nat
  | .boot => 1 | .safe => 2 | .config => 3 | .run => 4 | .sleep => 5 | .halt => 6

/-- Ingress, alignment and analytics run: RUN or SAFE (R28), outside the power-fail sequence (R426). -/
def State.measuring (s : State) : Bool := (s.pwr.dev == .run || s.pwr.dev == .safe) && !s.pwr.pfw

/-- SAFE, CONFIG or RUN (R28), outside the power-fail sequence (R426). -/
def State.up (s : State) : Bool :=
  (s.pwr.dev == .run || s.pwr.dev == .safe || s.pwr.dev == .config) && !s.pwr.pfw

/-- The power-fail sequence runs and has not saved the totals yet: the steps in progress are completed (R252, R426). -/
def State.saving (s : State) : Bool :=
  (s.pwr.dev == .run || s.pwr.dev == .safe || s.pwr.dev == .config) && s.pwr.pfw && !s.pwr.pfwSaved

/-- A log freeze is in force (R382). -/
def State.frozenLog (s : State) : Bool := s.evt.gen.freeze.isSome || s.evt.met.freeze.isSome

/-- SEALED as the state word shows it: always 0 on GLS-4640-A (R28). -/
def State.sealedBit (s : State) : Bool := s.cus.sealed && s.ident.variantM

/-- A Boolean as a bit at place `k`. -/
def bitAt (b : Bool) (k : Nat) : Nat := if b then 2 ^ k else 0

/-- The state word (R28). -/
def State.stateWord (s : State) : Word :=
  BitVec.ofNat 32 (s.pwr.dev.code + bitAt s.mem.degraded 8 + bitAt s.sealedBit 9 + bitAt s.timeLocked 10 +
    bitAt s.frozenLog 11)

/-- HEALTHY conducts: STATE is RUN and every unit runs (R29). -/
def State.healthy (s : State) : Bool := s.pwr.dev == .run && !s.pwr.pfw && s.allRun

/-- ALM land `k` conducts: driven by a detector or by logic, in SAFE or RUN (R28, R194, R338). -/
def State.alm (s : State) (k : Nat) : Bool :=
  s.measuring && (s.lands.almFd.contains k || s.lands.almLgc.contains k)

/-- ALM0 to ALM15 as bits (R70, live window). -/
def State.almWord (s : State) : Nat := ((List.range 16).map (fun k => bitAt (s.alm k) k)).sum

/-! ### Quality word (R20) -/

/-- PRESENT. -/
abbrev qPresent : Nat := 0x0001
/-- LATE. -/
abbrev qLate : Nat := 0x0002
/-- SRC_INVALID. -/
abbrev qInvalid : Nat := 0x0004
/-- TIME_UNLOCKED. -/
abbrev qUnlocked : Nat := 0x0008
/-- OVR. -/
abbrev qOvr : Nat := 0x0010
/-- OPEN_WIRE. -/
abbrev qOpen : Nat := 0x0020
/-- SUBST. -/
abbrev qSubst : Nat := 0x0040
/-- FORCED. -/
abbrev qForced : Nat := 0x0080
/-- TEST. -/
abbrev qTest : Nat := 0x0100
/-- POISON. -/
abbrev qPoison : Nat := 0x0200

/-- The TQ of a quality word. -/
def qTq (q : Half) : Nat := q.toNat / 4096

/-- A bit of a quality word is set. -/
def qHas (q : Half) (bit : Nat) : Bool := (q &&& BitVec.ofNat 16 bit) != 0

/-- Set bits of a quality word. -/
def qSet (q : Half) (bits : Nat) : Half := q ||| BitVec.ofNat 16 bits

/-- Clear bits of a quality word. -/
def qClear (q : Half) (bits : Nat) : Half := q &&& ~~~ BitVec.ofNat 16 bits

/-- Replace the TQ of a quality word. -/
def qWithTq (q : Half) (tq : Nat) : Half := qClear q 0xF000 ||| BitVec.ofNat 16 (tq * 4096)

/-- The quality word of word Q of an entry: bits 31:16 (R20, R153). -/
def Entry.quality (e : Entry) : Half := e.q.extractLsb' 16 16

/-- An entry with another quality word. -/
def Entry.withQuality (e : Entry) (q : Half) : Entry := { e with q := q ++ e.q.extractLsb' 0 16 }

/-- An entry of a value, a quality word and an arrival lag. -/
def Entry.mk' (v : Word) (q : Half) (lag : Half) : Entry := { v := v, q := q ++ lag }

end Sys2Proof.Machine
end

