-- ==== Sys2Proof/Machine/Transmit.lean ====
section
/-! DEFINITION. What every unit sends with: counters (R65), the rings of the host link and their interrupts (R69, R70), the
Ethernet, IP, UDP and TCP frames of the module's own traffic (R104, R118, R123), and the transmit queue of a port (R116). -/

namespace Sys2Proof.Machine

open Sys2Proof

/-! ### Counters (R65) -/

/-- A counter's value. -/
def State.ctr (s : State) (id inst : Nat) : Nat := s.ctl.counters.getD (parKey id inst) 0

/-- Set a counter; an unlisted counter reads 0. -/
def State.setCtr (s : State) (id inst v : Nat) : State :=
  { s with ctl := { s.ctl with counters := s.ctl.counters.put 0 (parKey id inst) v } }

/-- Add to a counter, saturating at 2^64 - 1 (R65). -/
def State.count (s : State) (id inst n : Nat) : State :=
  s.setCtr id inst (min (s.ctr id inst + n) (2 ^ 64 - 1))

/-- Count over the whole (instance 0) and for one instance. -/
def State.count2 (s : State) (id inst n : Nat) : State := (s.count id 0 n).count id inst n

/-- Clear the counters of a unit (R429). -/
def State.clearCounters (s : State) (u : Nat) : State :=
  { s with ctl := { s.ctl with counters := s.ctl.counters.filter (fun p => p.1 / 65536 / 256 != u) } }

/-! ### Dual-clock FIFOs (R26, R394) -/

/-- Words that a FIFO holds. -/
def State.fifoFill (s : State) (f : Nat) : Nat := (s.ctl.fifo.getD f []).length

/-- The reader of a FIFO takes the `n` oldest words of it; each that fails its parity counts in FIFO_POISON (R394, R399). -/
def State.fifoRead (s : State) (f n : Nat) : State :=
  let l := s.ctl.fifo.getD f []
  let out := l.take n
  let s := { s with ctl := { s.ctl with
    fifo := s.ctl.fifo.put [] f (l.drop n), taken := s.ctl.taken.put [] f (s.ctl.taken.getD f [] ++ out.map FifoWord.read) } }
  s.count2 0x0C09 (f + 1) (out.filter (fun w => !w.even)).length

/-- The item at the front of a FIFO is read to its end: the words the reader delivers of it, in order (R394). Words that the FIFO
does not list crossed whole. -/
def State.takeWords (s : State) (f : Nat) : State × List FifoWord :=
  if (s.ctl.fifo.get? f).isNone && (s.ctl.taken.get? f).isNone then (s, [])
  else
    let s := s.fifoRead f 16
    ({ s with ctl := { s.ctl with taken := s.ctl.taken.erase f } }, s.ctl.taken.getD f [])

/-- The item at the front of a FIFO is read to its end: whether one of its words is poisoned. -/
def State.takeItem (s : State) (f : Nat) : State × Bool :=
  let x := s.takeWords f
  (x.1, x.2.any FifoWord.poison)

/-! ### Rings and interrupts (R69, R70) -/

/-- A ring. -/
def State.ring (s : State) (n : Nat) : Ring := s.ctl.rings.getD n Ring.init

/-- Replace a ring. -/
def State.setRing (s : State) (n : Nat) (r : Ring) : State :=
  { s with ctl := { s.ctl with rings := s.ctl.rings.put Ring.init n r } }

/-- Append an output. -/
def State.emit (s : State) (o : Output) : State := { s with out := s.out ++ [o] }

/-- The vector is masked: bit 0 of the last word of its MSI-X table entry (PCI Express, R14). -/
def State.irqMasked (s : State) (v : Nat) : Bool := (s.ctl.msix.getD (16 * v + 12) 0).getLsbD 0

/-- Raise the MSI-X vector of a ring, or hold it back for IRQ_HOLDOFF or while it is masked (R69, R391). -/
def State.raiseIrq (s : State) (v : Nat) : State :=
  let hold := bitsOf s.ctl.irqHoldoff.toNat 15 0 * 1000
  let soon := (s.ctl.irqLast.get? v).any (fun t => decide (s.now < t + hold))
  if soon || s.irqMasked v then
    (if s.ctl.irqHeld.contains v then s else { s with ctl := { s.ctl with irqHeld := s.ctl.irqHeld ++ [v] } })
  else { s with ctl := { s.ctl with irqLast := s.ctl.irqLast.set v s.now } }.emit (.irq v)

/-- A free descriptor of a reply, notification or receive ring: its buffer size. -/
def State.freeBuf (s : State) (n : Nat) : Option Nat :=
  if s.ctl.linkUp && (s.ring n).enable then (s.ring n).posted.head? else none

/-- Consume a posted descriptor: HEAD advances modulo SIZE, and the ring's vector is raised (R391). -/
def State.fillBuf (s : State) (n : Nat) : State :=
  let r := s.ring n
  (s.setRing n { r with posted := r.posted.drop 1, head := (r.head + 1) % max r.size.toNat 1 }).raiseIrq n

/-! ### Ports and frames -/

/-- A port's state. -/
def State.port (s : State) (n : Nat) : Port := s.prt.port.getD n Port.init

/-- Replace a port's state. -/
def State.setPort (s : State) (n : Nat) (p : Port) : State :=
  { s with prt := { s.prt with port := s.prt.port.put Port.init n p } }

/-- The port is enabled and its link up. -/
def State.linkIsUp (s : State) (n : Nat) : Bool := (s.parN Par.PRT.MODE n != 0) && (s.port n).up

/-- Bytes `a` to `a + n - 1` of a frame as a big-endian number. -/
def fld (l : List Byte) (a n : Nat) : Nat := ofBe ((l.drop a).take n)

/-- The number of VLAN tags a frame carries, up to 2 (R103). -/
def vlanTags (l : List Byte) : Nat := if fld l 12 2 = 0x8100 then (if fld l 16 2 = 0x8100 then 2 else 1) else 0

/-- The offset of the EtherType of a frame with at most one tag. -/
def etherAt (l : List Byte) : Nat := if vlanTags l = 0 then 12 else 16

/-- The EtherType. -/
def etherType (l : List Byte) : Nat := fld l (etherAt l) 2

/-- The port's IPv4 address; 0 none (R123). -/
def State.ip4 (s : State) (n : Nat) : Nat := s.parD Par.PRT.IP4_ADDR n % 2 ^ 32

/-- The port's IPv6 address; 0 none (R123). -/
def State.ip6 (s : State) (n : Nat) : Nat := ofBe (wordsBe ((s.par Par.PRT.IP6_ADDR n).take 4))

/-- An address is the port's own. -/
def State.ownIp (s : State) (n : Nat) (v6 : Bool) (a : Nat) : Bool :=
  a != 0 && (if v6 then a == s.ip6 n else a == s.ip4 n)

/-- The address is IPv4-mapped. -/
def peerV4 (p : Peer) : Bool := p.addr / 2 ^ 32 == 0xFFFF

/-- The bytes of headers before a UDP payload: Ethernet 14, IPv4 20 or IPv6 40, UDP 8 (R104, R177). -/
def peerOverhead (p : Peer) : Nat := if peerV4 p then 42 else 62

/-- The one's-complement sum of 16-bit words of `n` pairs of bytes. -/
def onesSum : Nat → List Byte → Nat → Nat
  | 0, _, a => a
  | n + 1, l, a => onesSum n (l.drop 2) (a + fld (l ++ [0, 0]) 0 2)

/-- The Internet checksum of a byte string. -/
def inetChecksum (l : List Byte) : Nat :=
  let a := onesSum ((l.length + 1) / 2) l 0
  let a := a % 65536 + a / 65536
  let a := a % 65536 + a / 65536
  65535 - a

/-- Replace `n` bytes from `a` by a number, big-endian. -/
def putBe (l : List Byte) (a n v : Nat) : List Byte := l.take a ++ beBytes n v ++ l.drop (a + n)

/-- One TSO segment: template, index, payload bytes before it, payload, whether it is first, last (R118). -/
def tsoSegment (hdr : List Byte) (i before : Nat) (pay : List Byte) (first last : Bool) : List Byte :=
  let l2 := etherAt hdr + 2
  let v6 := etherType hdr == 0x86DD
  let ihl := if v6 then 40 else 4 * (fld hdr l2 1 % 16)
  let t := l2 + ihl
  let h := if v6 then putBe hdr (l2 + 4) 2 (hdr.length - t + pay.length)
    else
      let h := putBe hdr (l2 + 2) 2 (hdr.length - l2 + pay.length)
      let h := putBe h (l2 + 4) 2 ((fld hdr (l2 + 4) 2 + i) % 65536)
      let h := putBe h (l2 + 10) 2 0
      putBe h (l2 + 10) 2 (inetChecksum ((h.drop l2).take ihl))
  let fl := fld hdr (t + 13) 1
  let fl := if last then fl else fl - fl % 2 - (fl / 8 % 2) * 8
  let fl := if first then fl else fl % 128
  let h := putBe h (t + 4) 4 ((fld hdr (t + 4) 4 + before) % 2 ^ 32)
  let h := putBe h (t + 13) 1 fl
  let h := putBe h (t + 16) 2 0
  let addrs := if v6 then (h.drop (l2 + 8)).take 32 else (h.drop (l2 + 12)).take 8
  let len := hdr.length - t + pay.length
  let pseudo := if v6 then addrs ++ beBytes 4 len ++ [0, 0, 0, 6] else addrs ++ [0, 6] ++ beBytes 2 len
  putBe h (t + 16) 2 (inetChecksum (pseudo ++ h.drop t ++ pay)) ++ pay

/-- The segments of a TSO send: `n` of them from index `i` (R118). -/
def tsoSegments (hdr : List Byte) (mss : Nat) : Nat → Nat → List Byte → List (List Byte)
  | 0, _, _ => []
  | n + 1, i, pay =>
    tsoSegment hdr i (i * mss) (pay.take mss) (i == 0) (n == 0) :: tsoSegments hdr mss n (i + 1) (pay.drop mss)

/-! ### The module's own frames (R104, R118, R123) -/

/-- An Ethernet header: destination, the port's own address as source (R123), EtherType. -/
def State.etherHead (s : State) (n dst ty : Nat) : List Byte :=
  beBytes 6 dst ++ beBytes 6 (s.parD Par.PRT.MAC_ADDR n) ++ beBytes 2 ty

/-- The IP MTU of a port (R104). -/
def State.mtu (s : State) (n : Nat) : Nat := s.parN Par.PRT.MAX_FRAME n - 22

/-- An IPv4 header of 20 bytes: its service byte, identification and hop limit are free values (log 12). -/
def ip4Head (proto src dst len off : Nat) (more : Bool) : List Byte :=
  let h := [(0x45 : Byte), Config.ipService] ++ beBytes 2 (20 + len) ++ beBytes 2 (Config.ipIdent src dst len) ++
    beBytes 2 (off / 8 + (if more then 0x2000 else 0)) ++ [Config.ipHops, BitVec.ofNat 8 proto, 0, 0] ++ beBytes 4 src ++ beBytes 4 dst
  putBe h 10 2 (inetChecksum h)

/-- An IPv6 header of 40 bytes: its class, flow label and hop limit are free values (log 12). -/
def ip6Head (next src dst len : Nat) : List Byte :=
  beBytes 4 (6 * 2 ^ 28 + Config.ipFlow % 2 ^ 28) ++ beBytes 2 len ++ [BitVec.ofNat 8 next, Config.ipHops] ++ beBytes 16 src ++ beBytes 16 dst

/-- The pseudo-header of a transport checksum (RFC 768, RFC 9293, RFC 8200). -/
def pseudoHead (v6 : Bool) (proto src dst len : Nat) : List Byte :=
  if v6 then beBytes 16 src ++ beBytes 16 dst ++ beBytes 4 len ++ [0, 0, 0, BitVec.ofNat 8 proto]
  else beBytes 4 src ++ beBytes 4 dst ++ [0, BitVec.ofNat 8 proto] ++ beBytes 2 len

/-- The port's own address and the peer's, as an IP header carries them. -/
def State.addresses (s : State) (n : Nat) (p : Peer) : Nat × Nat :=
  if peerV4 p then (s.ip4 n, p.addr % 2 ^ 32) else (s.ip6 n, p.addr)

/-- The parts of a datagram that fit a frame: offset, whether more follow, bytes; at multiples of 8 (RFC 791, RFC 8200). -/
def ipParts (room : Nat) : Nat → Nat → List Byte → List (Nat × Bool × List Byte)
  | 0, _, _ => []
  | n + 1, off, l =>
    if l.length ≤ room then [(off, false, l)] else (off, true, l.take room) :: ipParts room n (off + room) (l.drop room)

/-- The frames that carry an IPv4 datagram behind an Ethernet header: one, or fragments where the port's MTU is smaller (R104). -/
def State.ip4Frames (s : State) (n : Nat) (head : List Byte) (proto src dst : Nat) (pdu : List Byte) : List (List Byte) :=
  (ipParts ((s.mtu n - 20) / 8 * 8) (pdu.length + 1) 0 pdu).map
    (fun x => head ++ ip4Head proto src dst x.2.2.length x.1 x.2.1 ++ x.2.2)

/-- The frames that carry an IPv6 datagram behind an Ethernet header: one, or fragments where the port's MTU is smaller (R104). -/
def State.ip6Frames (s : State) (n : Nat) (head : List Byte) (proto src dst : Nat) (pdu : List Byte) : List (List Byte) :=
  if pdu.length + 40 ≤ s.mtu n then [head ++ ip6Head proto src dst pdu.length ++ pdu]
  else
    (ipParts ((s.mtu n - 48) / 8 * 8) (pdu.length + 1) 0 pdu).map (fun x =>
      head ++ ip6Head 44 src dst (x.2.2.length + 8) ++ [BitVec.ofNat 8 proto, 0] ++
        beBytes 2 (x.1 + (if x.2.1 then 1 else 0)) ++ beBytes 4 (Config.ipIdent src dst pdu.length) ++ x.2.2)

/-- The frames that carry an IP datagram to a peer (R104). The peer's Ethernet address is a free value (log 12). -/
def State.ipFrames (s : State) (n proto : Nat) (p : Peer) (pdu : List Byte) : List (List Byte) :=
  let a := s.addresses n p
  let mac := Config.neighbour n p.addr
  if peerV4 p then s.ip4Frames n (s.etherHead n mac 0x0800) proto a.1 a.2 pdu
  else s.ip6Frames n (s.etherHead n mac 0x86DD) proto a.1 a.2 pdu

/-- The frames of a UDP datagram (RFC 768). -/
def State.udpFrames (s : State) (n srcPort : Nat) (p : Peer) (payload : List Byte) : List (List Byte) :=
  let a := s.addresses n p
  let h := beBytes 2 srcPort ++ beBytes 2 p.port ++ beBytes 2 (8 + payload.length)
  let c := inetChecksum (pseudoHead (!peerV4 p) 17 a.1 a.2 (8 + payload.length) ++ h ++ [0, 0] ++ payload)
  s.ipFrames n 17 p (h ++ beBytes 2 (if c = 0 then 65535 else c) ++ payload)

/-- The template of a connection's segments: Ethernet, IP and TCP header with ACK and PSH (RFC 9293); the initial sequence number,
the acknowledgement and the window are free values (log 12). -/
def State.tcpTemplate (s : State) (k : Nat) (t : TcpConn) : List Byte :=
  let a := s.addresses t.port t.peer
  let mac := Config.neighbour t.port t.peer.addr
  let head := if peerV4 t.peer then s.etherHead t.port mac 0x0800 ++ ip4Head 6 a.1 a.2 20 0 false
    else s.etherHead t.port mac 0x86DD ++ ip6Head 6 a.1 a.2 20
  head ++ beBytes 2 t.lport ++ beBytes 2 t.peer.port ++ beBytes 4 ((Config.tcpStart k + t.sent) % 2 ^ 32) ++
    beBytes 4 (Config.tcpAck k t.sent) ++ [0x50, 0x18] ++ beBytes 2 (Config.tcpWindow k t.sent) ++ [0, 0, 0, 0]

/-- The segments in which a connection sends data, cut as by TSO (R118). -/
def State.tcpFrames (s : State) (k : Nat) (t : TcpConn) (data : List Byte) : List (List Byte) :=
  let mss := s.mtu t.port - (if peerV4 t.peer then 40 else 60)
  if data.isEmpty then [] else tsoSegments (s.tcpTemplate k t) mss ((data.length + mss - 1) / mss) 0 data

/-! ### The transmit queue of a port (R116 to R118) -/

/-- The waiting frame a port sends next: the lowest rank first, in queue order; rank 5 in round robin by ring, unless it is
held by back-pressure (R116, R396). -/
def Port.pick (p : Port) : Option TxItem :=
  let of := fun r => p.tx.find? (fun x => x.rank == r)
  match of 1, of 2, of 3, of 4 with
  | some x, _, _, _ | none, some x, _, _ | none, none, some x, _ | none, none, none, some x => some x
  | none, none, none, none =>
    if p.held then none else
      ((List.range 16).map (fun k => 32 + (p.lastRing - 31 + k) % 16)).findSome?
        (fun r => p.tx.find? (fun x => x.ring == some r))

/-! ### PTP messages (R82, R97) -/

/-- A frame of the module's own, filled up with zeros to the least size without FCS (R103, IEEE 802.3). -/
def padded (l : List Byte) : List Byte := l ++ List.replicate (60 - l.length) 0

/-- The EUI-64 formed from PRT.MAC_BASE (R83). -/
def State.clockId (s : State) : Nat :=
  let m := s.ident.macBase
  m / 2 ^ 24 * 2 ^ 40 + 0xFFFE * 2 ^ 24 + m % 2 ^ 24

/-- The PTP domain (R101). -/
def State.ptpDomain (s : State) : Nat :=
  let d := s.parN Par.TIM.PTP_DOMAIN 0
  if d = 256 then (if s.parN Par.TIM.PTP_PROFILE 0 = 1 then 254 else 0) else d

/-- A PTP timestamp: seconds since 1970-01-01 TAI and nanoseconds (IEEE 1588-2019). -/
def ptpTime (t : Nat) : List Byte := beBytes 6 (t / sec + 946684800) ++ beBytes 4 (t % sec)

/-- A PTP message of port `n`: the common header of IEEE 1588-2019 with its type, flags, sequence, control field and interval, and a
body (log 71). Port `n` is PTP port n + 1. -/
def State.ptpMessage (s : State) (n ty flags seq control interval : Nat) (body : List Byte) : List Byte :=
  [BitVec.ofNat 8 ty, 0x12] ++ beBytes 2 (34 + body.length) ++ [BitVec.ofNat 8 s.ptpDomain, 0] ++ beBytes 2 flags ++
    List.replicate 12 0 ++ beBytes 8 s.clockId ++ beBytes 2 (n + 1) ++ beBytes 2 seq ++
    [BitVec.ofNat 8 control, BitVec.ofNat 8 interval] ++ body

/-- The frame of a PTP message: to the multicast address of its kind, tagged as TIM.PTP_VLAN says (R82). -/
def State.ptpFrame (s : State) (n : Nat) (peer : Bool) (msg : List Byte) : List Byte :=
  let v := s.parN Par.TIM.PTP_VLAN 0
  let tag := if v.testBit 16 then beBytes 2 0x8100 ++ beBytes 2 (v % 65536) else []
  beBytes 6 (if peer then 0x0180C200000E else 0x011B19000000) ++ beBytes 6 (s.parD Par.PRT.MAC_ADDR n) ++ tag ++
    beBytes 2 0x88F7 ++ msg

/-- The queue entry of a PTP message: rank 1 (R116). -/
def State.ptpItem (s : State) (n ty seq : Nat) (msg : List Byte) : TxItem :=
  { rank := 1, ring := none, bytes := padded (s.ptpFrame n (ty == 2 || ty == 3 || ty == 10) msg), tsReq := false, tso := false
    first := true, last := true, msg := some (.ptp n ty [BitVec.ofNat 32 seq]) }

/-- A PTP event message takes the stamp of its delimiter as it starts. A one-step Sync carries it, a one-step Pdelay_Resp the time
since the request in its correction; a two-step one has it in the message that follows (R82, R97). -/
def State.ptpStamped (s : State) (n : Nat) (x : TxItem) : TxItem × List TxItem :=
  let t := s.now + s.parN Par.TIM.PORT_TX_DELAY_NS n
  let a := etherAt x.bytes + 2
  let twoStep := (fld x.bytes (a + 6) 1).testBit 1
  let seq := fld x.bytes (a + 30) 2
  match x.msg with
  | some (.ptp _ 0 _) =>
    if twoStep then (x, [s.ptpItem n 8 seq (s.ptpMessage n 8 0 seq 2 0 (ptpTime t))])
    else ({ x with bytes := x.bytes.take (a + 34) ++ ptpTime t ++ x.bytes.drop (a + 44) }, [])
  | some (.ptp _ 3 _) =>
    if twoStep then (x, [s.ptpItem n 10 seq (s.ptpMessage n 10 0 seq 5 0x7F (ptpTime t ++ (x.bytes.drop (a + 44)).take 10))])
    else
      let t2 := (fld x.bytes (a + 34) 6 - 946684800) * sec + fld x.bytes (a + 40) 4
      ({ x with bytes := putBe (putBe x.bytes (a + 8) 8 ((t - t2) * 65536)) (a + 34) 10 0 }, [])
  | _ => (x, [])

/-- Start the next frame of an idle port (R116). -/
def State.startTx (s : State) (n : Nat) : State :=
  let p := s.port n
  if p.sending.isSome then s else
    match p.pick with
    | none => s
    | some x =>
      let y := s.ptpStamped n x
      let s := s.setPort n { p with sending := some y.1, tx := p.tx.erase x ++ y.2, lastRing := x.ring.getD p.lastRing }
      match x.ring with
      | some r => if x.first then s.setRing r
          { s.ring r with txStamp := some (s.now + s.parN Par.TIM.PORT_TX_DELAY_NS n) } else s
      | none => s

/-- Complete the send in progress of a ring with a STATUS: HEAD moves past its descriptors (R117). -/
def State.completeSend (s : State) (ring status : Nat) (stamp : Option Nat) : State :=
  let r := s.ring ring
  let s := s.setRing ring { r with head := (r.head + r.inFlight) % max r.size.toNat 1, inFlight := 0, txStamp := none }
  (s.emit (.txDone ring status stamp)).raiseIrq ring

/-- Queue a frame on a port; a disabled port or a down link drops and counts it (R116, R121). -/
def State.queueTx (s : State) (n : Nat) (x : TxItem) : State :=
  if s.linkIsUp n && s.runs 1 then
    let p := s.port n
    (s.setPort n { p with tx := p.tx ++ [x] }).startTx n
  else s.count 0x0114 n 1

/-- Queue the frames of a message of the module with a rank; the message has left when the last of them has (R116). -/
def State.sendFrames' (s : State) (n rank : Nat) (tso : Bool) (msg : Option Output) : List (List Byte) → State
  | [] => s
  | f :: l =>
    (s.queueTx n { rank := rank, ring := none, bytes := padded f, tsReq := false, tso := tso, first := true, last := l.isEmpty
                   msg := msg }).sendFrames' n rank tso msg l

/-- Send a UDP datagram from a port with a rank (R116, R119). -/
def State.sendUdp (s : State) (n rank srcPort : Nat) (peer : Peer) (payload : List Byte) (msg : Option Output) : State :=
  s.sendFrames' n rank false msg (s.udpFrames n srcPort peer payload)

/-- Send data on a TCP connection (R118). -/
def State.sendTcp (s : State) (k rank : Nat) (data : List Byte) (msg : Option Output) : State :=
  match s.ctl.tcp.get? k with
  | some t =>
    ({ s with ctl := { s.ctl with tcp := s.ctl.tcp.set k { t with sent := t.sent + data.length } } }).sendFrames' t.port rank true msg
      (s.tcpFrames k t data)
  | none => s

end Sys2Proof.Machine
end

