-- ==== Sys2Proof/Machine/Ops.lean ====
section
/-! DEFINITION. The operations every command shares: counters, notifications (R68), the event logs (R375 to R382),
alarms, unit states (R424), the rings (R69, R70), replies (R34, R44, R70), and serving a request (R38, R39 to R48). -/

namespace Sys2Proof.Machine

open Sys2Proof

/-- What a command answers. -/
abbrev Out := Host.Outcome State Fault Refusal

/-! ### Packets (R31, R32) -/

/-- The words of a packet up to its payload, without tag and CRC (R31). `extra` is 4 with a tag. -/
def packetWords (op : Nat) (tag : Half) (flags session : Nat) (seq : Word) (status : Nat) (epoch : Half)
    (payload : List Word) (extra : Nat) : List Word :=
  [BitVec.ofNat 32 ((payload.length + 5 + extra) * 65536 + op), BitVec.ofNat 32 (tag.toNat * 65536 + flags + session),
   seq, BitVec.ofNat 32 (status * 65536 + epoch.toNat)] ++ payload

/-- A packet's bytes as the carriage sends them: its words, its tag as a byte string, the CRC-32C of both (R31 to R33). -/
def sealedPacket (big : Bool) (ws : List Word) (tag : List Byte) : List Byte :=
  let carried := fun l => if big then wordsBe l else wordsLe l
  carried ws ++ tag ++ carried [crc32c (carried ws ++ tag)]

/-- A byte string without its zeros, as COBS codes it: `block` are the bytes since the last code byte (R36). -/
def cobsFrom : List Byte → List Byte → List Byte
  | block, [] => BitVec.ofNat 8 (block.length + 1) :: block
  | block, b :: l =>
    if b = 0 then BitVec.ofNat 8 (block.length + 1) :: block ++ cobsFrom [] l
    else if block.length < 253 then cobsFrom (block ++ [b]) l
    else 0xFF :: block ++ [b] ++ (if l.isEmpty then [] else cobsFrom [] l)

/-- A packet in the UART's framing, without the delimiter (R36). -/
def cobs (l : List Byte) : List Byte := cobsFrom [] l

/-! ### Notifications (R68, R466) -/

/-- The SEQUENCE last sent to a destination. -/
def noticeSeqOf : List (NoticeDest × Word) → NoticeDest → Word
  | [], _ => 0
  | (d, w) :: l, e => if d = e then w else noticeSeqOf l e

/-- Set the SEQUENCE last sent to a destination. -/
def setNoticeSeq : List (NoticeDest × Word) → NoticeDest → Word → List (NoticeDest × Word)
  | [], e, w => [(e, w)]
  | (d, v) :: l, e, w => if d = e then (d, w) :: l else (d, v) :: setNoticeSeq l e w

/-- The port by which the module reaches an address (log 65): the lowest whose link is up and whose own address has the peer's
version and shares its prefix, else the lowest whose link is up and which has an address of that version. -/
def State.routePort (s : State) (p : Peer) : Option Nat :=
  let up := fun n => s.linkIsUp n && s.ownIp n (!peerV4 p) (s.addresses n p).1
  let near := fun n =>
    let a := s.addresses n p
    let bits := if peerV4 p then 32 else 128
    let len := if peerV4 p then bitsOf (s.parD Par.PRT.IP4_ADDR n) 37 32 else ((s.par Par.PRT.IP6_ADDR n).getD 4 0).toNat % 256
    up n && a.1 / 2 ^ (bits - len) == a.2 / 2 ^ (bits - len)
  ((List.range 32).find? near).or ((List.range 32).find? up)

/-- A UDP destination of CTL.NOTIFY_DEST: an IPv6 or IPv4-mapped address, then the port (R72). -/
def State.noticePeer (s : State) (k : Nat) : Peer :=
  let w := s.par Par.CTL.NOTIFY_DEST k
  { addr := ofBe (wordsBe (w.take 4)), port := (w.getD 4 0).toNat % 65536 }

/-- The packet of a notification: TAG, FLAGS and SESSION 0 (R68). -/
def Notice.packet (n : Notice) (big : Bool) (seq : Word) : List Byte :=
  sealedPacket big (packetWords n.opcode 0 0 0 seq n.status (BitVec.ofNat 16 (n.unit * 256 + n.epoch.toNat)) n.payload 0) []

/-- Send a notification in a UDP datagram to a peer from a port; without a port it is lost (R68, R116). -/
def State.noticeUdp (s : State) (port : Option Nat) (peer : Peer) (d : NoticeDest) (seq : Word) (n : Notice) : State :=
  match port with
  | some p => s.sendUdp p 4 (s.parN Par.CTL.UDP_PORT 0) peer (n.packet true seq) (some (.notice d seq n (n.packet true seq)))
  | none => s.count 0x0C06 0 1

/-- Send a notification to one destination: its SEQUENCE advances; a poisoned word on the way out of the complex, a host ring
without a free descriptor or an address that no port reaches loses it (R68, R395). -/
def State.noticeTo (s : State) (d : NoticeDest) (n : Notice) : State :=
  let w := noticeSeqOf s.ctl.noticeSeq d + 1
  let s := { s with ctl := { s.ctl with noticeSeq := setNoticeSeq s.ctl.noticeSeq d w } }
  match s.takeItem (match d with | .ring _ => 65 | _ => 67) with
  | (s, true) => s.count 0x0C06 0 1
  | (s, false) =>
    match d with
    | .ring r =>
      match s.freeBuf r with
      | some _ => (s.emit (.notice d w n (n.packet false w))).fillBuf r
      | none => s.count 0x0C06 0 1
    | .uart => s.emit (.notice d w n (cobs (n.packet false w) ++ [0]))
    | .udp k => s.noticeUdp (s.routePort (s.noticePeer k)) (s.noticePeer k) d w n
    | .peer (.udp4 p peer) | .peer (.udp6 p peer) => s.noticeUdp (some p) peer d w n
    | .peer _ => s

/-- A destination takes a notification: its mask bit is set (R68). -/
def State.noticeOn (s : State) (inst op : Nat) : Bool := (s.parN Par.CTL.NOTIFY_MASK inst).testBit (op - 0xC000)

/-- UDP destination `k` of CTL.NOTIFY_DEST is on. -/
def State.udpDestOn (s : State) (k : Nat) : Bool := (s.par Par.CTL.NOTIFY_DEST k).any (fun w => w != 0)

/-- Send a notification to every destination that takes it, whatever the device state. -/
def State.noticeAll (s : State) (n : Notice) : State :=
  let s := if s.noticeOn 0 n.opcode then s.noticeTo (.ring (s.parN Par.CTL.NOTIFY_RING 0)) n else s
  let s := if s.noticeOn 1 n.opcode then s.noticeTo .uart n else s
  [0, 1, 2, 3].foldl (fun s k => if s.udpDestOn k && s.noticeOn (k + 2) n.opcode then s.noticeTo (.udp k) n else s) s

/-- Send a notification in SAFE, CONFIG or RUN, and none in BOOT, SLEEP or HALT (R466). -/
def State.notify (s : State) (op status u : Nat) (payload : List Word) : State :=
  if s.up then s.noticeAll { opcode := op, status := status, unit := u, epoch := (s.unit u).epoch, payload := payload }
  else s

/-! ### Event logs (R375 to R382) -/

/-- Severity, rate class, and the logs a code goes to: general, metrological (R377). -/
def evInfo (code : Nat) : Nat × Nat × Bool × Bool :=
  match code with
  | 0x0001 => (1, 0, true, false) | 0x0002 => (1, 0, true, false) | 0x0003 => (2, 0, true, false)
  | 0x0004 => (2, 0, true, false) | 0x0005 => (2, 0, true, false) | 0x0006 => (1, 2, true, false)
  | 0x0007 => (3, 0, true, false) | 0x0008 => (1, 0, true, true) | 0x0009 => (1, 0, false, true)
  | 0x0201 => (1, 1, true, false) | 0x0202 => (2, 0, true, true) | 0x0203 => (2, 2, true, false)
  | 0x0204 => (3, 1, true, false) | 0x0205 => (1, 0, true, true) | 0x0101 => (1, 2, true, false)
  | 0x0301 => (2, 1, true, false) | 0x0401 => (3, 1, true, false) | 0x0501 => (3, 1, true, false)
  | 0x0502 => (3, 2, true, false) | 0x0801 => (1, 2, true, false) | 0x0901 => (2, 0, false, true)
  | 0x0902 => (1, 0, false, true) | 0x0903 => (3, 0, false, true) | 0x0904 => (1, 0, false, true)
  | 0x0905 => (1, 0, false, true) | 0x0906 => (1, 0, false, true) | 0x0A01 => (2, 1, true, false)
  | 0x0A02 => (2, 1, true, false) | 0x0A03 => (3, 1, true, false) | 0x0B01 => (1, 1, true, false)
  | 0x0D01 => (1, 0, true, false) | 0x0D02 => (2, 1, true, false) | 0x0D03 => (4, 0, false, true)
  | _ => (1, 0, false, true)

/-- The log: metrological or general. -/
def State.logOf (s : State) (m : Bool) : Log := if m then s.evt.met else s.evt.gen

/-- Replace a log. -/
def State.setLog (s : State) (m : Bool) (l : Log) : State :=
  if m then { s with evt := { s.evt with met := l } } else { s with evt := { s.evt with gen := l } }

/-- Buffer entries of a log (R379). -/
def logPart (m : Bool) : Nat := if m then 256 else 768

/-- Size of a log in MRAM (R375). -/
def logSize (m : Bool) : Nat := if m then 32768 else 65536

/-- 90 % of a log's size (R380). -/
def logNear (m : Bool) : Nat := if m then 29492 else 58983

/-- The instance of a log's counters (R383). -/
def logInst (m : Bool) : Nat := if m then 1 else 0

/-- Count in the wear section of the patina counters (R463). -/
def State.wearAdd (s : State) (word n : Nat) : State :=
  let p := s.mem.patina
  { s with mem := { s.mem with patina := { p with wear := p.wear.modify word 0 (· + n) } } }

/-- Flush a log's buffered records to MRAM; a frozen log keeps them (R379, R380, R382). -/
def State.flushLog (s : State) (m : Bool) : State :=
  let l := s.logOf m
  if l.freeze.isSome || l.buf.isEmpty then s else
    let all := l.mram ++ l.buf
    let lost := all.length - logSize m
    let mram := all.drop lost
    let near := decide (logNear m ≤ mram.length)
    let s := s.setLog m { l with mram := mram, buf := [], near := l.near || near }
    let s := (s.count 0x0E05 (logInst m) 1).wearAdd (6 + logInst m) 1
    let s := if lost = 0 then s else s.count 0x0E04 (logInst m) lost
    if near && !l.near then
      s.notify 0xC009 0 0x0E [BitVec.ofNat 32 (logInst m), BitVec.ofNat 32 mram.length]
    else s

/-- Flush both logs. -/
def State.flushLogs (s : State) : State := (s.flushLog false).flushLog true

/-- The record of an event at admission (R375, R376). -/
def State.evRecord (s : State) (m : Bool) (code u sev supp : Nat) (plinth : Bool) (t : Nat) (par : DWord) : EvRec :=
  { code := code, unit := u, sev := sev, supp := supp, plinth := plinth, lost := (s.logOf m).lost
    free := !s.timeLocked, seq := ((s.logOf m).seq + 1) % 2 ^ 32, opsec := s.evt.opsec, cycles := s.evt.cycles
    gtf := gtfOf t, par := par }

/-- Number a record and put it into the buffer, or, where its part is full, number it and lose it (R376, R382). -/
def State.pushRecord (s : State) (m : Bool) (r : EvRec) : State :=
  let l := s.logOf m
  let s := s.count 0x0E01 (logInst m) 1
  if logPart m ≤ l.buf.length then
    let fr := l.freeze.map (fun f => { f with lost := f.lost + 1 })
    (s.setLog m { l with seq := r.seq, lost := true, freeze := fr }).count 0x0E03 (logInst m) 1
  else s.setLog m { l with seq := r.seq, lost := false, buf := l.buf ++ [r] }

/-- Admit a general record (R379, R382). -/
def State.admitGen (s : State) (code u sev supp : Nat) (t : Nat) (par : DWord) : State :=
  let s := if logPart false ≤ s.evt.gen.buf.length then s.flushLog false else s
  let s := s.pushRecord false (s.evRecord false code u sev supp false t par)
  if 3 ≤ sev then s.flushLogs else s

/-- End a freeze: flush, and write FREEZE_ENDED with its cause (R382). -/
def State.endFreeze (s : State) (m : Bool) (cause : Nat) : State :=
  match (s.logOf m).freeze with
  | none => s
  | some f =>
    let s := (s.setLog m { s.logOf m with freeze := none }).flushLog m
    s.admitGen 0x0003 0x0E 2 0 s.now (BitVec.ofNat 64 (logInst m + cause * 4 + f.lost * 2 ^ 32))

/-- Admit a metrological record: a frozen log whose reserve is full ends its freeze; a record that finds the log full is
not written (R380, R382). The second component says whether it was written. -/
def State.admitMet (s : State) (code u sev : Nat) (plinth : Bool) (t : Nat) (par : DWord) : State × Bool :=
  let s := if logPart true ≤ s.evt.met.buf.length then
      (if s.evt.met.freeze.isSome then s.endFreeze true 2 else s.flushLog true) else s
  if logSize true ≤ s.evt.met.mram.length + s.evt.met.buf.length then
    ((s.setLog true { s.evt.met with lost := true }).count 0x0E03 1 1, false)
  else
    let s := s.pushRecord true (s.evRecord true code u sev 0 plinth t par)
    (if 3 ≤ sev then s.flushLogs else s, true)

/-- A rate-limit bucket (R378). -/
def State.bucket (s : State) (code : Nat) : Bucket := s.evt.bucket.getD code { tokens := 8, fellAt := 0, supp := 0 }

/-- Replace a bucket. -/
def State.setBucket (s : State) (code : Nat) (b : Bucket) : State :=
  { s with evt := { s.evt with bucket := s.evt.bucket.set code b } }

/-- Write an event record of code `code` from unit `u`, stamped `t`, into the logs its code names (R377, R378). The
second component says whether a metrological record, if one was due, was written. -/
def State.logEvB (s : State) (code u t : Nat) (par : DWord) (plinth : Bool) : State × Bool :=
  let (sev, cls, g, m) := evInfo code
  let s := if g then
      if cls = 0 || m then s.admitGen code u sev 0 t par
      else
        let b := s.bucket code
        if b.tokens = 0 then (s.setBucket code { b with supp := b.supp + 1 }).count 0x0E02 0 1
        else
          let s := s.setBucket code
            { b with tokens := b.tokens - 1, fellAt := if b.tokens = 8 then s.now else b.fellAt, supp := 0 }
          s.admitGen code u sev (min b.supp 31) t par
    else s
  if m then s.admitMet code u sev plinth t par else (s, true)

/-- Write an event record (R377). -/
def State.logEv (s : State) (code u t : Nat) (par : DWord) : State := (s.logEvB code u t par false).1

/-- Write a metrological record of the custody engine; one that is not written counts in CUS_MLOG_LOST (R249, R380). -/
def State.logCus (s : State) (code t : Nat) (par : DWord) : State :=
  let (s, ok) := s.logEvB code 0x09 t par false
  if ok then s else s.count 0x0908 0 1

/-- A parameters field from its halves: bits 63:32 and 31:0. -/
def evPar (hi lo : Nat) : DWord := BitVec.ofNat 64 (hi % 2 ^ 32 * 2 ^ 32 + lo % 2 ^ 32)

/-! ### Unit states (R68, R424) -/

/-- UNIT_STATE of a unit (R68). -/
def unitStateWord (u : Nat) (x : UnitSt) : Word := BitVec.ofNat 32 (u * 2 ^ 24 + x.epoch.toNat * 2 ^ 16 + x.st)

/-- Set a unit's state and notify it with UNIT_STATE (R424). -/
def State.setUnit (s : State) (u st : Nat) : State :=
  let x := { s.unit u with st := st }
  { s with units := s.units.set u x }.notify 0xC007 0 u [unitStateWord u x]

/-- Set a unit's state without a notification (BOOT, SLEEP, HALT). -/
def State.setUnitQuiet (s : State) (u st : Nat) : State :=
  { s with units := s.units.set u { s.unit u with st := st } }

/-! ### Spares (R456, R461) -/

/-- How often a spare kind has been used since manufacture (R461). -/
def State.spareUses (s : State) (kind : Nat) : Nat := s.mem.used.getD kind 0

/-- A use of a spare: counted, SPARE_USED sent, recorded; the last of its kind sets DEGRADED, which never clears (R461). -/
def State.spareUsed (s : State) (kind inst remaining : Nat) : State :=
  let s := { s with mem := { s.mem with
    used := s.mem.used.put 0 kind (s.spareUses kind + 1), degraded := s.mem.degraded || remaining == 0 } }
  let s := s.notify 0xC008 0 0x0F ([BitVec.ofNat 32 (kind * 2 ^ 24 + min remaining 255 * 65536 + inst),
    BitVec.ofNat 32 (bitAt (remaining == 0) 0)] ++ gtfWords s.now)
  s.logEv 0x0007 0x0F s.now (evPar 0 (kind + inst * 65536))

/-! ### Replies (R31, R34, R44, R70) -/

/-- The status and payload words of an answer. -/
abbrev Ans := Nat × List Word

/-- An OK answer. -/
def ok (ws : List Word) : Option Ans := some (0, ws)

/-- The DETAIL word: item index, parameter or counter ID (R34). -/
def detail (item id : Nat) : Word := BitVec.ofNat 32 (item * 65536 + id)

/-- A failure that concerns no item. -/
def err (st : Nat) : Option Ans := some (st, [detail 0xFFFF 0])

/-- A failure that names an ID. -/
def errId (st id : Nat) : Option Ans := some (st, [detail 0xFFFF id])

/-- A failure of an item of a batch. -/
def errItem (st item id : Nat) : Option Ans := some (st, [detail item id])

/-- The AUTH tag of a packet: HMAC-SHA-256 over its words in little-endian order, first 16 bytes (R33). -/
def authTagOf (key : List Byte) (ws : List Word) : List Byte := (hmac256 key (wordsLe ws)).take 16

/-- LENGTH of a reply in words (R31). -/
def Reply.len (r : Reply) : Nat := r.payload.length + 5 + (if r.authTag.isEmpty then 0 else 4)

/-- The six-word reply that replaces one larger than its buffer (R70). -/
def Reply.noRoom (r : Reply) : Reply := { r with status := 0x0117, payload := [detail 0xFFFF 0], authTag := [] }

/-- The packet of a reply, in the byte order of its carriage (R31 to R33). -/
def Reply.packet (r : Reply) : List Byte :=
  sealedPacket r.carriage.big (packetWords r.opcode r.tag (if r.authTag.isEmpty then 0 else 256) r.session r.seq r.status r.epoch
    r.payload (if r.authTag.isEmpty then 0 else 4)) r.authTag

/-- The bytes with which a reply leaves: its packet, on the UART COBS-coded with its delimiter (R36). -/
def Reply.wire (r : Reply) : List Byte :=
  match r.carriage with
  | .uart => cobs r.packet ++ [0]
  | _ => r.packet

/-- A reply leaves. -/
def Reply.output (r : Reply) : Output := .reply r r.wire

/-- Put a reply into a host ring whose next descriptor has a buffer of `len` bytes. -/
def State.placeReply (s : State) (ring len : Nat) (r : Reply) : State :=
  (s.emit (if len < 4 * r.len then r.noRoom else r).output).fillBuf ring

/-- Send a reply: on its host reply ring, where it waits for a free descriptor, or back on its carriage (R35, R37, R70, R116). A
poisoned word on the way out of the complex discards it (R395). -/
def State.sendReply (s : State) (r : Reply) : State :=
  match s.takeItem (match r.carriage with | .host _ => 65 | _ => 67) with
  | (s, true) => s.count 0x0C07 0 1
  | (s, false) =>
    match r.carriage with
    | .host ring =>
      let n := s.parN Par.CTL.REPLY_RING (ring - 48)
      if s.ctl.linkUp then
        match (s.ring n).waiting, s.freeBuf n with
        | [], some len => s.placeReply n len r
        | _, _ => s.setRing n { s.ring n with waiting := (s.ring n).waiting ++ [(s.now, r)] }
      else s.count 0x0C07 0 1
    | .uart => s.emit r.output
    | .udp4 p peer | .udp6 p peer => s.sendUdp p 4 (s.parN Par.CTL.UDP_PORT 0) peer r.packet (some r.output)
    | .tcp k => s.sendTcp k 4 r.packet (some r.output)

/-- The key of the session a request belongs to, if it is open. -/
def State.sessionKey (s : State) (q : Req) : Option (List Byte) := (s.ctl.sessions.get? q.session).map Session.key

/-- The reply to a request (R31, R44, R45, R48). -/
def State.replyOf (s : State) (key : Option (List Byte)) (q : Req) (op u : Nat) (a : Ans) : Reply :=
  let flags := if key.isSome then 256 else 0
  let ws := packetWords (op + 0x8000) q.tag flags q.session q.seq a.1 (s.epochOf u) a.2 (if key.isSome then 4 else 0)
  { carriage := q.carriage, opcode := op + 0x8000, tag := q.tag, session := q.session, seq := q.seq, status := a.1
    epoch := s.epochOf u, payload := a.2
    authTag := match key with | some k => authTagOf k ws | none => [] }

/-! ### The order of replies (R42) -/

/-- An earlier request of this source at this unit still waits for its reply. -/
def State.owes (s : State) (u : Nat) (c : Carriage) : Bool :=
  s.ctl.owed.any (fun o => o.unit == u && some o.source == c.source)

/-- Replies that nothing earlier of their unit and source holds back any more, and the rest. -/
def splitOwed : List (Nat × Carriage) → List Owed → List Reply × List Owed
  | _, [] => ([], [])
  | held, o :: l =>
    match o.reply with
    | some r =>
      if held.contains (o.unit, o.source) then let x := splitOwed held l; (x.1, o :: x.2)
      else let x := splitOwed held l; (r :: x.1, x.2)
    | none => let x := splitOwed ((o.unit, o.source) :: held) l; (x.1, o :: x.2)

/-- Send every reply whose turn has come (R42). -/
def State.sendOwed (s : State) : State :=
  let x := splitOwed [] s.ctl.owed
  x.1.foldl State.sendReply { s with ctl := { s.ctl with owed := x.2 } }

/-- Send a reply of a unit in the order of the requests of its source (R42). -/
def State.sendInOrder (s : State) (u : Nat) (r : Reply) : State :=
  match r.carriage.source with
  | some c =>
    if s.owes u c then
      { s with ctl := { s.ctl with
        owed := s.ctl.owed ++ [{ unit := u, source := c, op := r.opcode % 0x8000, tag := r.tag, seq := r.seq, reply := some r }] } }
    else s.sendReply r
  | none => s.sendReply r

/-- Answer a request, unless NOREPLY is set (R44). -/
def State.answer (s : State) (key : Option (List Byte)) (q : Req) (op u : Nat) (a : Ans) : State :=
  if q.noreply then s else s.sendInOrder u (s.replyOf key q op u a)

/-- The reply to this request comes later; replies of its unit to its source wait for it (R42). -/
def State.owe (s : State) (q : Req) (op u : Nat) : State :=
  match q.carriage.source with
  | some c =>
    if q.noreply then s
    else { s with ctl := { s.ctl with
      owed := s.ctl.owed ++ [{ unit := u, source := c, op := op, tag := q.tag, seq := q.seq, reply := none }] } }
  | none => s

/-- The place a deferred reply was given. -/
def Owed.isFor (q : Req) (op u : Nat) (o : Owed) : Bool :=
  o.reply.isNone && o.unit == u && o.op == op && some o.source == q.carriage.source && o.tag == q.tag && o.seq == q.seq

/-- Put the reply, or none where it is discarded, into the first place kept for it. -/
def settleOwed (q : Req) (op u : Nat) (r : Option Reply) : List Owed → List Owed
  | [] => []
  | o :: l =>
    if o.isFor q op u then (match r with | some x => { o with reply := some x } :: l | none => l) else o :: settleOwed q op u r l

/-- Answer a request whose reply was deferred: in its session while that still stands; the reply to a request of a
session that has ended is discarded and counted (R392). Replies that waited for it follow (R42). -/
def State.answerLater (s : State) (q : Req) (op u : Nat) (a : Ans) : State :=
  let gone := q.session != 0 && (s.sessionKey q).isNone
  let r := if gone || q.noreply then none else some (s.replyOf (if q.session = 0 then none else s.sessionKey q) q op u a)
  let s := if gone then s.count 0x0C07 0 1 else s
  if s.ctl.owed.any (Owed.isFor q op u) then
    { s with ctl := { s.ctl with owed := settleOwed q op u r s.ctl.owed } }.sendOwed
  else match r with
    | some x => s.sendReply x
    | none => s

/-- Replies and notifications made under an epoch of a unit that has changed are discarded (R45): those that wait for their turn,
for a descriptor, or on a port. -/
def State.dropOld (s : State) (u : Nat) : State :=
  let old := fun (e : Half) => e.toNat / 256 == u && e != s.epochOf u
  let oldOut := fun (o : Option Output) => match o with
    | some (.reply r _) => old r.epoch
    | some (.notice _ _ n _) => n.unit == u && n.epoch != (s.unit u).epoch
    | _ => false
  let s := { s with
    ctl := { s.ctl with
      owed := s.ctl.owed.filter (fun (o : Owed) => !o.reply.any (fun (r : Reply) => old r.epoch))
      rings := s.ctl.rings.map (fun (r : Nat × Ring) => (r.1, { r.2 with waiting := r.2.waiting.filter (fun (w : Nat × Reply) => !old w.2.epoch) })) }
    prt := { s.prt with port := s.prt.port.map (fun (p : Nat × Port) => (p.1, { p.2 with tx := p.2.tx.filter (fun (x : TxItem) => !oldOut x.msg) })) } }
  s.sendOwed

/-- Advance a unit's epoch, set its state, notify and record it; notifications of the control complex number from 1 again
(R45, R68, R424). -/
def State.newEpoch (s : State) (u st : Nat) : State :=
  let x : UnitSt := { epoch := (s.unit u).epoch + 1, st := st }
  let s := { s with
    units := s.units.set u x, ctl := { s.ctl with noticeSeq := if u = 0x0C then [] else s.ctl.noticeSeq } }
  ((s.dropOld u).notify 0xC007 0 u [unitStateWord u x]).logEv 0x0005 u s.now (BitVec.ofNat 64 x.epoch.toNat)

/-! ### Serving a request (R38 to R48) -/

/-- Opcodes the boot ROM serves in recovery (R411). -/
def recoveryOps : List Nat := [0x0000, 0x0001, 0x0002, 0x0900, 0x0901, 0x0902, 0x0903]

/-- Opcodes served in HALT (R418). -/
def haltOps : List Nat := [0x0000, 0x0001, 0x0002]

/-- The carriage is the host link or the UART. -/
def isLocal : Carriage → Bool
  | .host _ | .uart => true
  | _ => false

/-- A command interpreter hears the request: it does in SAFE, CONFIG and RUN outside the power-fail sequence; in HALT and
in recovery on the host link and the UART; never in SLEEP or in BOOT (R411, R418, R426). A host-link packet needs the link,
unless it has been fetched already (R419); a UDP packet its port enabled, a TCP packet its connection (R35, R37). -/
def State.hears (s : State) (c : Carriage) : Bool :=
  (match s.pwr.dev with
    | .boot => s.pwr.recovery && isLocal c
    | .sleep => false
    | .halt => isLocal c
    | _ => !s.pwr.pfw) &&
  (match c with
    | .host _ => s.ctl.linkUp || s.ctl.buffers.any (fun b => b.1 == c)
    | .udp4 p _ | .udp6 p _ => s.parB Par.CTL.UDP_ENABLE p
    | .uart => true
    | .tcp k => (s.ctl.tcp.get? k).any (fun t => t.use == 0))

/-- The role of a request with SESSION 0: 0 PUBLIC, 1 OPERATOR (02, Carriages). -/
def State.openRole (s : State) (c : Carriage) : Nat :=
  match c with
  | .host _ => s.parN Par.CTL.HOST_LINK_ROLE 0
  | _ => 0

/-- The words a request's tag is computed over: those received, reserved bits and STATUS included (R8, R33). -/
def tagWords (q : Req) (op : Nat) : List Word :=
  packetWords op q.tag q.flags q.session q.seq q.status.toNat q.epoch q.payload 4

/-- Step 6 of R39: SESSION, AUTH tag and SEQUENCE. Answers the state with the session's SEQUENCE and last request
updated, the role of the request, and the failure, if any (R43, R48). A session not yet activated keeps the instant of its
phase-1 reply (R47). -/
def State.checkSession (s : State) (q : Req) (op : Nat) : State × Nat × Bool :=
  if q.session = 0 then
    if q.auth then (s.count 0x0C03 0 1, 0, false) else (s, s.openRole q.carriage, true)
  else
    match s.ctl.sessions.get? q.session with
    | none => (s.count 0x0C03 0 1, 0, false)
    | some x =>
      if !q.auth || authTagOf x.key (tagWords q op) != q.authTag || !(x.active || op == 0x0004) then
        (s.count 0x0C03 0 1, 0, false)
      else if (match x.lastSeq with | some l => decide (q.seq.toNat ≤ l.toNat) | none => false) then
        (s.count 0x0C04 0 1, 0, false)
      else
        ({ s with ctl := { s.ctl with
            sessions := s.ctl.sessions.set q.session { x with lastSeq := some q.seq, lastAt := if x.active then s.now else x.lastAt } } },
         if x.active then x.role else 0, true)

/-- Steps 5 to 8 of R39: the state, the role, and the failure status, if any. -/
def State.admission (s : State) (q : Req) (op u least : Nat) (unitCheck : Bool) : State × Nat × Option Nat :=
  if q.epoch ≠ 0 ∧ q.epoch ≠ s.epochOf u then (s, 0, some 0x010D)
  else
    match s.checkSession q op with
    | (s, role, false) => (s, role, some 0x0109)
    | (s, role, true) =>
      if role < least then (s.count 0x0C03 0 1, role, some 0x0109)
      else if s.pwr.dev = .halt ∧ ¬ haltOps.contains op then (s, role, some 0x010E)
      else if s.pwr.dev = .boot ∧ ¬ recoveryOps.contains op then (s, role, some 0x010E)
      else if unitCheck && s.pwr.dev != .boot then
        match (s.unit u).st with
        | 2 => (s, role, some 0x010C)
        | 3 => (s, role, some 0x010B)
        | 4 => (s, role, some 0x010E)
        | _ => (s, role, none)
      else (s, role, none)

/-! ### Tasks (R387 to R390) -/

/-- The level of the task that serves a buffered packet: 5 with URGENT, which a PUBLIC request does not have, else 8 (R44,
R387). -/
def State.queuedLevel (s : State) (b : Carriage × FetchedPacket) : Nat :=
  let w := (if b.1.big then ofBe else ofLe) ((b.2.bytes.drop 4).take 4)
  let role := if w % 256 = 0 then s.openRole b.1
    else ((s.ctl.sessions.get? (w % 256)).map (fun x => if x.active then x.role else 0)).getD 0
  if w.testBit 10 && role != 0 then 5 else 8

/-- Tasks of a level in its ready queue; a request that waits in a command buffer is one (R387). -/
def State.depth (s : State) (level : Nat) : Nat :=
  (s.ctl.ready.filter (fun t => t.1 == level)).length +
    (if level = 5 ∨ level = 8 then (s.ctl.buffers.filter (fun b => s.queuedLevel b == level)).length else 0)

/-- The largest depth of each of the levels follows its depth (R390). -/
def State.noteDepth (s : State) (levels : List Nat) : State :=
  levels.foldl (fun (s : State) k =>
    let d := s.depth k
    if s.ctl.maxDepth.getD k 0 < d then { s with ctl := { s.ctl with maxDepth := s.ctl.maxDepth.set k d } } else s) s

/-- A task becomes ready now and takes its place at the end of its level's queue (R387). -/
def State.taskReady (s : State) (level num : Nat) : State :=
  { s with ctl := { s.ctl with ready := s.ctl.ready ++ [(level, num, s.now)] } }.noteDepth [level]

/-- A task waits for `n` others: its dependence counter; with none it is ready at once (R388). -/
def State.taskWaits (s : State) (level num n : Nat) : State :=
  if n = 0 then s.taskReady level num
  else { s with ctl := { s.ctl with waits := s.ctl.waits ++ [(level, num, n)] } }

/-- A prerequisite of a task is done: its counter falls by one, and at 0 it is ready at this instant (R388). -/
def State.prerequisiteDone (s : State) (num : Nat) : State :=
  match s.ctl.waits.find? (fun t => t.2.1 == num) with
  | some t =>
    let rest := s.ctl.waits.erase t
    if t.2.2 ≤ 1 then { s with ctl := { s.ctl with waits := rest } }.taskReady t.1 num
    else { s with ctl := { s.ctl with waits := s.ctl.waits.map (fun x => if x == t then (t.1, num, t.2.2 - 1) else x) } }
  | none => s

/-- A task is reset while its counter is above 0: it is discarded without running (R388). -/
def State.taskDiscard (s : State) (num : Nat) : State :=
  { s with ctl := { s.ctl with waits := s.ctl.waits.filter (fun t => t.2.1 != num) } }

/-- A task that waits for an instant joins its level's delay list (R389). -/
def State.taskDelay (s : State) (level at_ num : Nat) : State :=
  { s with ctl := { s.ctl with delays := s.ctl.delays ++ [(level, at_, num)] } }

/-- A core has taken and run a task. -/
def State.taskRun (s : State) (num : Nat) : State :=
  { s with ctl := { s.ctl with
    delays := s.ctl.delays.filter (fun t => t.2.2 != num), ready := s.ctl.ready.filter (fun t => t.2.1 != num) } }

/-- The packet to fetch next: the rings 48 to 55 in turn, from the one after `last` (R391); then, in order, the packets of the
other carriages. While command fetch pauses (R396), no ring's. -/
def nextPacket (last : Nat) (paused : Bool) (l : List (Carriage × FetchedPacket)) : Option (Carriage × FetchedPacket) :=
  let rings := if paused then none else
    ((List.range 8).map (fun k => 48 + (last + k + 1) % 8)).findSome? (fun r => l.find? (fun x => x.1 == .host r))
  rings.or (l.find? (fun x => match x.1 with | .host _ => false | _ => true))

/-- Take a waiting packet into one of the 64 command buffers, if one is free (R70, R391, R396). -/
def State.fetchMore (s : State) : State :=
  if 64 ≤ s.ctl.buffers.length then s
  else
    match nextPacket s.ctl.lastCmdRing (decide (s.parN Par.CTL.FIFO_LEVEL 64 < s.fifoFill 64)) s.ctl.unfetched with
    | some (c, p) =>
      let s := match c with
        | .host ring =>
          let r := s.ring ring
          let s := s.setRing ring { r with head := (r.head + 1) % max r.size.toNat 1 }
          { s with ctl := { s.ctl with lastCmdRing := ring } }
        | _ => s
      { s with ctl := { s.ctl with
        buffers := s.ctl.buffers ++ [(c, p)], unfetched := s.ctl.unfetched.eraseP (fun x => x.1 == c) } }.noteDepth [5, 8]
    | none => s

/-- A packet that has come by a carriage other than the host link takes a command buffer, or waits for one (R70). -/
def State.bufferPacket (s : State) (c : Carriage) (bytes : List Byte) : State :=
  { s with ctl := { s.ctl with unfetched := s.ctl.unfetched ++ [(c, FetchedPacket.mk bytes.length bytes)] } }.fetchMore

/-- Serving a request frees the buffer its packet lies in (R70); a packet of a TCP connection marks its last use (R37). -/
def State.release (s : State) (c : Carriage) : State :=
  let s := if s.ctl.buffers.any (fun b => b.1 == c) then
      { s with ctl := { s.ctl with buffers := s.ctl.buffers.eraseP (fun b => b.1 == c) } }.fetchMore
    else s
  match c with
  | .tcp k =>
    match s.ctl.tcp.get? k with
    | some t => { s with ctl := { s.ctl with tcp := s.ctl.tcp.set k { t with lastAt := s.now } } }
    | none => s
  | _ => s

/-- A TCP connection closes, and with it the sessions opened on it (R37, R48). -/
def State.tcpEnd (s : State) (k : Nat) : State :=
  { s with ctl := { s.ctl with
    tcp := s.ctl.tcp.erase k, sessions := s.ctl.sessions.filter (fun x => x.2.conn != some k) } }.emit (.tcpClose k)

/-- The vault serves the opcode: its words cross FIFOs 72 and 73 (R395). -/
def vaultOp (op : Nat) : Bool := op / 256 == 6 || op == 0x0803 || op == 0x0804

/-- The words of a request cross to the cores, and those of a vault operation to the vault and back (R394, R395): whether one of the
request's, and one of the operation's, is poisoned. -/
def State.arrive (s : State) (c : Carriage) (op : Nat) : State × Bool × Bool :=
  let x := s.takeItem (match c with | .host _ => 64 | _ => 66)
  let x := (if s.fifoFill 64 = 0 then x.1 else x.1.fetchMore, x.2)
  if vaultOp op then
    let y := x.1.takeItem 73
    let z := y.1.takeItem 72
    (z.1, x.2, y.2 || z.2)
  else (x.1, x.2, false)

/-- A request fails step 3 of R39, or steps 1 and 2: counted, answered even with NOREPLY; a TCP connection then closes (R37,
R40). -/
def State.framingReply (s : State) (r : Reply) : State :=
  let s := (s.count (if r.status = 0x0103 then 0x0C02 else 0x0C01) 0 1).sendInOrder 0x0C r
  match r.carriage with
  | .tcp k => s.tcpEnd k
  | _ => s

/-- A poisoned word in a request is a CRC failure (R395): the reply of R40. -/
def State.poisonedRequest (s : State) (q : Req) (op : Nat) : State :=
  s.framingReply { carriage := q.carriage, opcode := op % 0x8000 + 0x8000, tag := q.tag, session := 0, seq := q.seq, status := 0x0103
                   epoch := s.epochOf 0x0C, payload := [detail 0xFFFF 0], authTag := [] }

/-- The reply of an answer fits its carriage (R38). -/
def fits (c : Carriage) (tagged : Bool) (a : Ans) : Bool :=
  decide (a.2.length + 5 + (if tagged then 4 else 0) ≤ c.maxLength)

/-- Serve a request with steps 4 to 9 of R39: `op` its opcode, `u` the serving unit, `least` the least role, `need` the
payload words the opcode always carries; `body` is what the opcode does, from the role and the admitted state, and its
answer (none: the reply comes later). A request whose reply would not fit its carriage is refused whole (R38). -/
def State.serve (s : State) (q : Req) (op u least need : Nat) (unitCheck : Bool)
    (body : Nat → State → State × Option Ans) : State :=
  if s.hears q.carriage then
    match (s.release q.carriage).arrive q.carriage op with
    | (s, true, _) => s.poisonedRequest q op
    | (s, false, lost) =>
      match s.admission q op u least unitCheck with
      | (s', _, some st) => s'.answer (s'.sessionKey q) q op u (st, [detail 0xFFFF 0])
      | (s', role, none) =>
        let key := s'.sessionKey q
        if lost then s'.answer key q op u (0x010B, [detail 0xFFFF 0])
        else if q.payload.length < need then s'.answer key q op u (0x0106, [detail 0xFFFF 0])
        else
          match body role s' with
          | (s'', none) =>
            if (key.isSome && (s''.sessionKey q).isNone) || s''.pwr.dev == .sleep || s''.pwr.dev == .halt then s'' else s''.owe q op u
          | (s'', some a) =>
            if fits q.carriage key.isSome a then s''.answer key q op u a
            else s'.answer key q op u (0x0116, [detail 0xFFFF 0])
  else s

end Sys2Proof.Machine
end

