-- ==== Sys2Proof/Machine/Formats.lean ====
section
/-! DEFINITION. The frame formats of published standards (R14), byte by byte: IEEE C37.118.2 (data, CFG-2, CFG-3 and command
frames), IEC 61850-9-2 sampled values and IEC 61850-8-1 GOOSE in ASN.1 BER (logs 13, 14); and which bytes of a frame crossed a
FIFO in a poisoned word (R395). -/

namespace Sys2Proof.Machine

open Sys2Proof

/-! ### Poisoned bytes (R394, R395) -/

/-- One of `n` bytes from `a` on lies in a poisoned word: word `k` holds bytes 8k to 8k + 7 of the frame (log 68). -/
def poisoned (ws : List FifoWord) (a n : Nat) : Bool :=
  ((List.range ws.length).zip ws).any (fun w => w.2.poison && decide (8 * w.1 < a + n) && decide (a < 8 * w.1 + 8))

/-! ### Angles (R9) -/

/-- π to 36 decimals. -/
def piRat : Rat := 3141592653589793238462643383279502884 / 1000000000000000000000000000000000000

/-- A value wrapped into (−π, π]. -/
def wrapRad (x : Rat) : Rat := x - 2 * piRat * ratCeil ((x - piRat) / (2 * piRat))

/-- An angle in binary64 wrapped into (−π, π] (R9). -/
def f64Wrap (a : DWord) : DWord :=
  match (f64Val a).rat? with
  | some q => if -piRat < q ∧ q ≤ piRat then a else f64OfRat (wrapRad q)
  | none => a

/-! ### C37.118.2: common parts -/

/-- CRC-CCITT of C37.118.2: polynomial 0x1021, start 0xFFFF (log 13). -/
def crcCcitt (l : List Byte) : Nat :=
  l.foldl (fun c b => (List.range 8).foldl (fun c k =>
    let x := c / 32768 % 2 != (b.toNat / 2 ^ (7 - k)) % 2
    let d := 2 * c % 65536
    if x then d ^^^ 0x1021 else d) c) 0xFFFF

/-- The CHK of a frame: its last two bytes (R127). -/
def chkGood (l : List Byte) : Bool := crcCcitt (l.take (l.length - 2)) == fld l (l.length - 2) 2

/-- The frame type in SYNC: 0 data, 1 header, 2 CFG-1, 3 CFG-2, 4 command, 5 CFG-3 (log 13). -/
def c37Type (l : List Byte) : Nat := fld l 1 1 / 16

/-- The frame is well-formed up to its identity: SYNC, and room for the common fields and CHK (R127, step 1). -/
def c37Parses (l : List Byte) : Bool := decide (16 ≤ l.length) && fld l 0 1 == 0xAA && decide (c37Type l ≤ 5)

/-- The message time quality of a frame from its worst TQ (R178). -/
def c37TimeQuality (worst : Nat) : Nat :=
  if worst ≤ 2 then 3 else if worst ≤ 5 then 4 else if worst ≤ 8 then 5 else if worst ≤ 11 then 6
  else if worst = 12 then 7 else if worst = 13 then 8 else 15

/-- The leap bits of FRACSEC from TIM.LEAP_GTF: direction, occurred, pending (R178; bits 6, 5, 4 of the quality octet of
IEEE C37.118.2, PRESUMED, log 13). -/
def State.c37Leap (s : State) (g : Nat) : Nat :=
  let x := s.tim
  if x.leapKind = 0 then 0
  else
    bitAt (x.leapKind == 2) 6 + bitAt (!x.leapDue && decide (x.leapAt ≤ g) && decide (g < x.leapAt + 86400 * sec)) 5 +
      bitAt (x.leapDue && decide (g < x.leapAt) && decide (x.leapAt ≤ g + 60 * sec)) 4

/-- A C37.118.2 frame of the module: SYNC, FRAMESIZE, IDCODE, SOC, FRACSEC with TIME_BASE 1,000,000 and a fraction rounded to the
µs, a body, CHK (R178). -/
def State.c37Sealed (s : State) (sync idcode t worst : Nat) (body : List Byte) : List Byte :=
  let us := (s.utcOfTai t + 500) / 1000
  let f := beBytes 2 sync ++ beBytes 2 (16 + body.length) ++ beBytes 2 idcode ++ beBytes 4 (us / 1000000 + 946684800).toNat ++
    beBytes 1 (s.c37Leap t + c37TimeQuality worst) ++ beBytes 3 (us % 1000000).toNat ++ body
  f ++ beBytes 2 (crcCcitt f)

/-- A command frame (R129): 1 turn off, 2 turn on transmission, 5 send CFG-2, 6 send CFG-3 (log 13). -/
def State.c37CommandFrame (s : State) (idcode command : Nat) : List Byte :=
  s.c37Sealed 0xAA41 idcode s.now s.tq (beBytes 2 command)

/-! ### C37.118.2: configuration frames (R129, R130) -/

/-- Bytes of a block in a data frame (log 13). -/
def C37Blk.size (b : C37Blk) : Nat :=
  2 + b.phnmr * (if b.phFloat then 8 else 4) + (if b.freqFloat then 8 else 4) + b.annmr * (if b.anFloat then 4 else 2) + 2 * b.dgnmr

/-- A signed big-endian number of `n` bytes at `a`. -/
def sfld (l : List Byte) (a n : Nat) : Int :=
  let v := fld l a n
  if v < 2 ^ (8 * n - 1) then v else (v : Int) - 2 ^ (8 * n)

/-- A block from FORMAT and its counts, with scales to come. -/
def c37BlkOf (format ph an dg fnom : Nat) (phScale : List DWord) (phAngle : List Word) (anScale anOffset : List DWord) : C37Blk :=
  { polar := format.testBit 0, phFloat := format.testBit 1, anFloat := format.testBit 2, freqFloat := format.testBit 3
    phnmr := ph, annmr := an, dgnmr := dg, fnom50 := fnom.testBit 0, phScale := phScale, phAngle := phAngle, anScale := anScale
    anOffset := anOffset }

/-- A block of a CFG-2 frame at `a`, and where the next begins: STN, IDCODE, FORMAT, the counts, CHNAM, PHUNIT, ANUNIT, DIGUNIT,
FNOM, CFGCNT. PHUNIT and ANUNIT scale integers alone (log 13). -/
def cfg2Blk (l : List Byte) (a : Nat) : C37Blk × Nat :=
  let f := fld l (a + 18) 2
  let ph := fld l (a + 20) 2
  let an := fld l (a + 22) 2
  let dg := fld l (a + 24) 2
  let c := a + 26 + 16 * (ph + an + 16 * dg)
  let e := c + 4 * (ph + an + dg)
  (c37BlkOf f ph an dg (fld l e 2)
     ((List.range ph).map (fun k => if f.testBit 1 then f64OfInt 1 else f64OfRat ((fld l (c + 4 * k + 1) 3 : Rat) / 100000)))
     (List.replicate ph 0)
     ((List.range an).map (fun k => if f.testBit 2 then f64OfInt 1 else f64OfInt (sfld l (c + 4 * ph + 4 * k + 1) 3)))
     (List.replicate an 0), e + 4)

/-- Past `n` names of a CFG-3 frame, each a length byte and its characters. -/
def skipNames (l : List Byte) : Nat → Nat → Nat
  | 0, a => a
  | n + 1, a => skipNames l n (a + 1 + fld l a 1)

/-- A block of a CFG-3 frame at `a`, and where the next begins: its name, IDCODE, G_PMU_ID, FORMAT, the counts, CHNAM, PHSCALE,
ANSCALE, DIGUNIT, position, class, window, delay, FNOM, CFGCNT. The scale and angle-offset factors apply to every form (log 13). -/
def cfg3Blk (l : List Byte) (a : Nat) : C37Blk × Nat :=
  let b := skipNames l 1 a
  let f := fld l (b + 18) 2
  let ph := fld l (b + 20) 2
  let an := fld l (b + 22) 2
  let dg := fld l (b + 24) 2
  let c := skipNames l (ph + an + 16 * dg) (b + 26)
  let d := c + 12 * ph
  let e := d + 8 * an + 4 * dg + 21
  let float := fun k => f64Of32 (BitVec.ofNat 32 (fld l k 4))
  (c37BlkOf f ph an dg (fld l e 2) ((List.range ph).map (fun k => float (c + 12 * k + 4)))
     ((List.range ph).map (fun k => BitVec.ofNat 32 (fld l (c + 12 * k + 8) 4)))
     ((List.range an).map (fun k => float (d + 8 * k))) ((List.range an).map (fun k => float (d + 8 * k + 4))), e + 4)

/-- `n` blocks from `a` on, while they fit; and where they end. -/
def cfgBlks (three : Bool) (l : List Byte) : Nat → Nat → List C37Blk × Nat
  | 0, a => ([], a)
  | n + 1, a =>
    if l.length < a then ([], a)
    else
      let x := if three then cfg3Blk l a else cfg2Blk l a
      let y := cfgBlks three l n x.2
      (x.1 :: y.1, y.2)

/-- The configuration in the body of a CFG frame (of a CFG-3 series, in the bodies put together): TIME_BASE, NUM_PMU, the blocks,
DATA_RATE; none where its length fields do not fit (R128). -/
def cfgOf (three : Bool) (l : List Byte) : Option C37Cfg :=
  let n := fld l 4 2
  let x := cfgBlks three l n 6
  if x.1.length = n ∧ x.2 + 2 = l.length then
    some { timeBase := fld l 1 3, dataRate := sfld l x.2 2, blocks := x.1 }
  else none

/-! ### C37.118.2: data frames (R131) -/

/-- One PMU block of a data frame: STAT and its values as they stand, each with its place in the frame. -/
structure C37Block where
  stat     : Nat
  phasors  : List (Nat × Nat × Nat)
  freq     : Nat × Nat
  dfreq    : Nat × Nat
  analogs  : List (Nat × Nat)
  digitals : List (Nat × Nat)
  deriving DecidableEq, Repr

/-- The block at `a` of a data frame. -/
def c37BlockAt (b : C37Blk) (l : List Byte) (a : Nat) : C37Block :=
  let p := if b.phFloat then 4 else 2
  let f := if b.freqFloat then 4 else 2
  let n := if b.anFloat then 4 else 2
  let fr := a + 2 + 2 * p * b.phnmr
  let an := fr + 2 * f
  let dg := an + n * b.annmr
  { stat := fld l a 2
    phasors := (List.range b.phnmr).map (fun k => (fld l (a + 2 + 2 * p * k) p, fld l (a + 2 + 2 * p * k + p) p, a + 2 + 2 * p * k))
    freq := (fld l fr f, fr), dfreq := (fld l (fr + f) f, fr + f)
    analogs := (List.range b.annmr).map (fun k => (fld l (an + n * k) n, an + n * k))
    digitals := (List.range b.dgnmr).map (fun k => (fld l (dg + 2 * k) 2, dg + 2 * k)) }

/-- A 16-bit signed number. -/
def s16 (n : Nat) : Int := if n < 32768 then n else (n : Int) - 65536

/-- A binary32 pattern as binary64. -/
def f64OfFloat (n : Nat) : DWord := f64Of32 (BitVec.ofNat 32 n)

/-- Magnitude and angle of a phasor in binary64, none for an invalid one (R131): rectangular phasors in polar form, the
scale and angle offset of the CFG applied, the angle in (−π, π] (R9). Integer angles are in 10⁻⁴ rad. -/
def c37Polar (b : C37Blk) (first second : Nat) (scale : DWord) (angle : Word) : Option (DWord × DWord) :=
  let bad := if b.phFloat then f32IsNan (BitVec.ofNat 32 first) || f32IsNan (BitVec.ofNat 32 second)
    else first == 0x8000 || second == 0x8000
  if bad then none
  else
    let off := f64Of32 angle
    if b.polar then
      if b.phFloat then some (f64Mul (f64OfFloat first) scale, f64Wrap (f64Add (f64OfFloat second) off))
      else some (f64Mul (f64OfInt first) scale, f64Wrap (f64Add (f64OfRat ((s16 second : Rat) / 10000)) off))
    else
      let re := if b.phFloat then f64OfFloat first else f64OfInt (s16 first)
      let im := if b.phFloat then f64OfFloat second else f64OfInt (s16 second)
      some (f64Mul (f64Sqrt (f64Add (f64Mul re re) (f64Mul im im))) scale, f64Wrap (f64Add (f64Atan2 im re) off))

/-- The raw F32 values of a block's quantities in the order of R131, none for an invalid one, each with its place and length. -/
def c37Values (b : C37Blk) (x : C37Block) : List (Option DWord × Nat × Nat) :=
  let fnom : Int := if b.fnom50 then 50 else 60
  let f := if b.freqFloat then 4 else 2
  let p := if b.phFloat then 8 else 4
  let n := if b.anFloat then 4 else 2
  let freq := if b.freqFloat then f64OfFloat x.freq.1 else f64OfRat (fnom + (s16 x.freq.1 : Rat) / 1000)
  let rocof := if b.freqFloat then f64OfFloat x.dfreq.1 else f64OfRat ((s16 x.dfreq.1 : Rat) / 100)
  [(some freq, x.freq.2, f), (some rocof, x.dfreq.2, f)] ++
    ((List.range x.phasors.length).zip x.phasors).flatMap (fun z =>
      match c37Polar b z.2.1 z.2.2.1 (b.phScale.getD z.1 (f64OfInt 1)) (b.phAngle.getD z.1 0) with
      | some (m, a) => [(some m, z.2.2.2, p), (some a, z.2.2.2, p)]
      | none => [(none, z.2.2.2, p), (none, z.2.2.2, p)]) ++
    ((List.range x.analogs.length).zip x.analogs).map (fun z =>
      let raw := if b.anFloat then f64OfFloat z.2.1 else f64OfInt (s16 z.2.1)
      (some (f64Add (f64Mul raw (b.anScale.getD z.1 (f64OfInt 1))) (b.anOffset.getD z.1 0)), z.2.2, n))

/-! ### ASN.1 BER (IEC 61850-8-1, IEC 61850-9-2; log 14) -/

/-- An element: its tag, the place of its content in the frame, its content, and whether its length fits what encloses it. -/
structure Tlv where
  tag : Nat
  at_ : Nat
  val : List Byte
  ok  : Bool
  deriving DecidableEq, Repr

/-- The element at the front of `l`, which stands at `a`: the bytes of its tag and length, and the element. -/
def tlvAt (l : List Byte) (a : Nat) : Nat × Tlv :=
  let n := fld l 1 1
  let k := if n < 128 then 0 else n - 128
  let len := if n < 128 then n else fld l 2 k
  let body := l.drop (2 + k)
  (2 + k, { tag := fld l 0 1, at_ := a + 2 + k, val := body.take len, ok := decide (2 + k ≤ l.length) && decide (len ≤ body.length) })

/-- The elements of a content, up to the first whose length does not fit. -/
def tlvs : Nat → List Byte → Nat → List Tlv
  | 0, _, _ => []
  | n + 1, l, a =>
    if l.isEmpty then []
    else
      let x := tlvAt l a
      if x.2.ok then x.2 :: tlvs n (l.drop (x.1 + x.2.val.length)) (a + x.1 + x.2.val.length) else [x.2]

/-- The elements inside an element. -/
def Tlv.inside (t : Tlv) : List Tlv := tlvs (t.val.length + 1) t.val t.at_

/-- The first element with a tag. -/
def tlvFind (l : List Tlv) (tag : Nat) : Option Tlv := l.find? (fun t => t.tag == tag)

/-- An element's content as a number. -/
def Tlv.num (t : Tlv) : Nat := ofBe t.val

/-! ### Sampled values (R133) -/

/-- One ASDU: the pairs are INT32 value and 32-bit quality, each with its place. -/
structure SvAsdu where
  svid     : List Byte
  smpCnt   : Nat
  confRev  : Word
  smpSynch : Nat
  at_      : Nat
  pairs    : List (Word × Word × Nat)
  deriving DecidableEq, Repr

/-- A sampled-value frame: APPID, whether its lengths fit, noASDU, the ASDUs. -/
structure SvFrame where
  appid : Nat
  fits  : Bool
  count : Nat
  asdus : List SvAsdu
  deriving DecidableEq, Repr

/-- The pairs of seqData. -/
def svPairs (t : Tlv) : List (Word × Word × Nat) :=
  (List.range (t.val.length / 8)).map (fun k =>
    (BitVec.ofNat 32 (fld t.val (8 * k) 4), BitVec.ofNat 32 (fld t.val (8 * k + 4) 4), t.at_ + 8 * k))

/-- An ASDU, and whether its length fields fit: svID 0x80, smpCnt 0x82, confRev 0x83, smpSynch 0x85, seqData 0x87; optional fields
are ignored (R133). None without an svID. -/
def svAsdu (t : Tlv) : Option (SvAsdu × Bool) :=
  let l := t.inside
  (tlvFind l 0x80).map (fun id =>
    let get := fun tag => ((tlvFind l tag).map Tlv.num).getD 0
    ({ svid := id.val, smpCnt := get 0x82, confRev := BitVec.ofNat 32 (get 0x83), smpSynch := get 0x85, at_ := t.at_
       pairs := ((tlvFind l 0x87).map svPairs).getD [] },
     t.ok && l.all Tlv.ok && [0x82, 0x83, 0x85, 0x87].all (fun tag => (tlvFind l tag).isSome) &&
       (tlvFind l 0x87).all (fun d => d.val.length % 8 == 0)))

/-- A sampled-value frame from its APPID on; none where it is not well-formed up to its svID (R127, R128). -/
def svFrameOf (l : List Byte) : Option SvFrame :=
  let pdu := (tlvAt (l.drop 8) 8).2
  let top := pdu.inside
  let seq := ((tlvFind top 0xA2).map Tlv.inside).getD []
  let asdus := seq.filterMap svAsdu
  if pdu.tag = 0x60 ∧ seq.all (fun t => t.tag == 0x30) ∧ asdus.length = seq.length ∧ !asdus.isEmpty then
    some { appid := fld l 0 2, count := ((tlvFind top 0x80).map Tlv.num).getD 0, asdus := asdus.map Prod.fst
           fits := pdu.ok && top.all Tlv.ok && seq.all Tlv.ok && asdus.all Prod.snd &&
             ((tlvFind top 0x80).map Tlv.num) == some asdus.length }
  else none

/-! ### GOOSE (R135, R136) -/

/-- A member of a GOOSE dataset (R136). -/
inductive GooseMember where
  | boolean (b : Bool)
  | bits (n : Nat) (w : Word)
  | int (v : Int)
  | float (n : Nat)
  | quality (q : Word)
  | timestamp
  | other
  deriving DecidableEq, Repr

/-- A GOOSE message. -/
structure GooseFrame where
  ref     : List Byte
  ttlMs   : Nat
  tSec    : Nat
  tFrac   : Nat
  tQual   : Nat
  stNum   : Nat
  sim     : Bool
  confRev : Word
  ndsCom  : Bool
  fits    : Bool
  dataAt  : Nat
  members : List (GooseMember × Nat × Nat)
  deriving DecidableEq, Repr

/-- Bit `i` of a bit string: the first is bit 7 of its first byte. -/
def strBit (l : List Byte) (i : Nat) : Bool := (l.getD (i / 8) 0).getLsbD (7 - i % 8)

/-- A bit string as a word: bit i of the string is bit i (log 14). -/
def strWord (l : List Byte) (n : Nat) : Word := BitVec.ofNat 32 (((List.range (min n 32)).map (fun i => bitAt (strBit l i) i)).sum)

/-- A member of allData by its tag: BOOLEAN 0x83, BIT STRING 0x84 (one of 13 bits is a Quality, whose validity stands high bit
first), INTEGER 0x85, unsigned 0x86, FLOAT32 0x87, UtcTime 0x91 (log 14). -/
def gooseMemberOf (t : Tlv) : GooseMember :=
  match t.tag with
  | 0x83 => .boolean (t.num != 0)
  | 0x84 =>
    let l := t.val.drop 1
    let n := 8 * l.length - fld t.val 0 1
    if n = 13 then
      .quality ((strWord l 13 &&& ~~~ 3) ||| BitVec.ofNat 32 (2 * bitAt (strBit l 0) 0 + bitAt (strBit l 1) 0))
    else .bits n (strWord l n)
  | 0x85 => .int (sfld t.val 0 t.val.length)
  | 0x86 => .int t.num
  | 0x87 => if t.val.length = 5 then .float (fld t.val 1 4) else .other
  | 0x91 => .timestamp
  | _ => .other

/-- A GOOSE message from its APPID on; none where it is not well-formed up to its gocbRef (R127, R128). -/
def gooseFrameOf (l : List Byte) : Option GooseFrame :=
  let pdu := (tlvAt (l.drop 8) 8).2
  let top := pdu.inside
  let get := fun tag => ((tlvFind top tag).map Tlv.num).getD 0
  let t := ((tlvFind top 0x84).map Tlv.val).getD []
  let data := (tlvFind top 0xAB).map Tlv.inside
  if pdu.tag = 0x61 then
    (tlvFind top 0x80).map (fun ref =>
      { ref := ref.val, ttlMs := get 0x81, tSec := fld t 0 4, tFrac := fld t 4 3, tQual := fld t 7 1, stNum := get 0x85
        sim := get 0x87 != 0, confRev := BitVec.ofNat 32 (get 0x88), ndsCom := get 0x89 != 0
        fits := pdu.ok && top.all Tlv.ok && (data.getD []).all Tlv.ok && t.length == 8 && data.isSome &&
          decide (get 0x8A ≤ (data.getD []).length)
        dataAt := ((tlvFind top 0xAB).map Tlv.at_).getD 0
        members := (data.getD []).map (fun m => (gooseMemberOf m, m.at_, m.val.length)) })
  else none

end Sys2Proof.Machine
end

