-- ==== Sys2Proof/Machine/Recorder.lean ====
section
/-! DEFINITION. The core of a capture recorder (12): capacity, triggers, starting and ending a record; and alarms, which
every unit raises and a trigger can watch (R68, R312). -/

namespace Sys2Proof.Machine

open Sys2Proof

/-! ### A recorder's settings (R304, R307, R308) -/

/-- A recorder. -/
def State.recorder (s : State) (n : Nat) : Rec := s.cap.rec_.getD n Rec.init

/-- Replace a recorder. -/
def State.setRec (s : State) (n : Nat) (r : Rec) : State := { s with cap := { rec_ := s.cap.rec_.set n r } }

/-- KIND of CAP.SOURCE (R304). -/
def State.capKind (s : State) (n : Nat) : Nat := s.parN Par.CAP.SOURCE n / 2 ^ 28

/-- NUMBER of CAP.SOURCE. -/
def State.capNumber (s : State) (n : Nat) : Nat := bitsOf (s.parN Par.CAP.SOURCE n) 12 0

/-- MODE: 0 RING, 1 ONE_SHOT, 2 ROLLING (R310). -/
def State.capMode (s : State) (n : Nat) : Nat := s.parN Par.CAP.MODE n

/-- The used inputs: number and word, in ascending number. -/
def State.capInputs (s : State) (n : Nat) : List (Nat × Word) :=
  let ws := s.par Par.CAP.INPUTS n
  ((List.range 512).zip ws).filter (fun p => p.2.getLsbD 31)

/-- Bytes of a raw row, 0 without RAW (R308). -/
def State.rawBytes (s : State) (n : Nat) : Nat :=
  if (s.parN Par.CAP.REDUCE n).testBit 0 then 8 + 8 * (s.capInputs n).length else 0

/-- Reductions selected per input: k = 2·MINMAX + MEAN + RMS (R308). -/
def State.capK (s : State) (n : Nat) : Nat :=
  let w := s.parN Par.CAP.REDUCE n
  2 * bitsOf w 1 1 + bitsOf w 2 2 + bitsOf w 3 3

/-- Bytes of a reduced row. -/
def State.redBytes (s : State) (n : Nat) : Nat := if s.capK n = 0 then 0 else 8 + 8 * (s.capInputs n).length * s.capK n

/-- Capacity C in rows (R308). -/
def State.capCapacity (s : State) (n : Nat) : Nat :=
  let k := s.parN Par.CAP.REDUCE_N n
  (s.parN Par.CAP.REGION_MIB n * 2 ^ 20 - 65536) * k / max (s.rawBytes n * k + s.redBytes n) 1

/-- Rows of all records held. -/
def rowsHeld (l : List CapRec) : Nat := (l.map (fun r => r.rows.length)).sum

/-- Remove the oldest records until `need` more rows and a header fit (R310). -/
def makeSpace (cap need : Nat) : List CapRec → List CapRec
  | [] => []
  | r :: l => if cap < rowsHeld (r :: l) + need ∨ 512 ≤ (r :: l).length then makeSpace cap need l else r :: l

/-- The instant of the newest row. -/
def Rec.newest (r : Rec) : Option Nat := r.rows.getLast?.map CapRow.t

/-- The recorder works: SAFE or RUN, the unit running (R324). -/
def State.capRuns (s : State) : Bool := s.measuring && s.runs 0x0B

/-! ### Records (R310, R313 to R318, R322) -/

/-- PPS_OUT goes high when a recorder named in CAP.TRIG_OUT starts a record, with TIM.PPS_OUT_MODE 2 (R315, R89). -/
def State.capPulse (s : State) (n : Nat) : State :=
  if s.parN Par.TIM.PPS_OUT_MODE 0 = 2 ∧ (s.parN Par.CAP.TRIG_OUT 0).testBit n then
    { s with tim := { s.tim with ppsOut := true, ppsAt := s.now } }
  else s

/-- CAPTURE_DONE (R322). -/
def State.captureDone (s : State) (n cause flags id trig pre post : Nat) : State :=
  s.notify 0xC004 (if flags.testBit 1 then 0x0115 else 0) 0x0B
    ([BitVec.ofNat 32 (n * 2 ^ 29 + cause * 65536 + flags), BitVec.ofNat 32 id] ++ gtfWords trig ++
     [BitVec.ofNat 32 pre, BitVec.ofNat 32 post, BitVec.ofNat 32 (s.recorder n).recs.length])

/-- Post-trigger rows of a record. -/
def CapRec.postRows (c : CapRec) : Nat := c.rows.length - 1 - c.pre

/-- The record being written ends with further flags; the recorder goes to state `st` (R316, R322). -/
def State.endRecordTo (s : State) (n flags st : Nat) : State :=
  let r := s.recorder n
  match r.cur with
  | none => s
  | some c =>
    let c := { c with flags := c.flags + flags }
    let s := s.setRec n { r with
      st := st, cur := none, left := 0, rows := [], sinceStep := none, recs := r.recs ++ [c], made := r.made + 1
      rearmAt := s.now, autoAt := s.now }
    (s.count2 0x0B01 (n + 1) 1).captureDone n c.cause c.flags c.id c.trig c.pre c.postRows

/-- Where a recorder goes after a whole record: DISARMED after COUNT records, FULL without room in ONE_SHOT, else REARM
(R310, R316). -/
def State.afterRecord (s : State) (n : Nat) : Nat :=
  let r := s.recorder n
  match r.cur with
  | none => r.st
  | some c =>
    if r.count ≠ 0 ∧ r.count ≤ r.made + 1 then 1
    else if s.capMode n = 1 ∧ (s.capCapacity n < rowsHeld (r.recs ++ [c]) + (r.pre + 1 + r.post) ∨ 512 ≤ r.recs.length + 1) then 6
    else 5

/-- The record being written has its last row. -/
def State.endRecord (s : State) (n : Nat) : State := s.endRecordTo n 0 (s.afterRecord n)

/-- Rows before the trigger row: the number of rows not later than the stamp, less one; none where every row is later
(R313). -/
def trigRow (rows : List CapRow) (stamp : Nat) : Option Nat :=
  match (rows.filter (fun x => decide (x.t ≤ stamp))).length with
  | 0 => none
  | k + 1 => some k

/-- A record starts on the trigger row of a stamp (R310, R313, R317). -/
def State.startRecord (s : State) (n cause stamp : Nat) : State :=
  let r := s.recorder n
  let clamped := (trigRow r.rows stamp).isNone
  let k := (trigRow r.rows stamp).getD 0
  let before := (r.rows.take k).drop (k - r.pre)
  let rows := before ++ (r.rows.drop k).take (r.post + 1)
  let left := r.post + 1 - (rows.length - before.length)
  let open_ : Nat := if left = 0 then 0 else 1
  let step := r.sinceStep.any (fun m =>
    decide (k - before.length < r.rows.length - m) && decide (r.rows.length - m < k - before.length + rows.length + open_))
  let need := r.pre + 1 + r.post
  let kept := if s.capMode n = 0 then makeSpace (s.capCapacity n) need r.recs else r.recs
  let gone := r.recs.length - kept.length
  let c : CapRec :=
    { id := r.lastId + 1, flags := bitAt (decide (before.length < r.pre)) 0 + bitAt clamped 2 + bitAt step 6
      trig := stamp, pre := before.length, post := r.post, cause := cause, marks := [], nMarks := 0, commit := r.commit
      rows := rows }
  let s := if gone = 0 then s else s.count2 0x0B08 (n + 1) gone
  let s := s.setRec n { r with
    st := 4, cur := some c, left := left, recs := kept, lastId := c.id, rows := []
    sinceStep := none }
  let s := s.capPulse n
  if (s.recorder n).left = 0 then s.endRecord n else s

/-- A mark of a ROLLING recorder (R318). -/
def State.rollMark (s : State) (n cause stamp : Nat) : State :=
  let r := s.recorder n
  let l := r.marks ++ [(stamp, cause)]
  let s := s.setRec n { r with marks := l.drop (l.length - 512), autoAt := s.now }
  (s.capPulse n).captureDone n cause 0 0 stamp 0 0

/-- A trigger in a record: a mark. One that falls on the trigger row with a lower cause gives the record its cause, and the former
one is the mark (R313, R316, R318). -/
def CapRec.mark (c : CapRec) (stamp cause : Nat) : CapRec :=
  let own := (trigRow c.rows stamp).getD 0 == c.pre && decide (cause < c.cause)
  let m := if own then (c.trig, c.cause) else (stamp, cause)
  { c with trig := if own then stamp else c.trig, cause := if own then cause else c.cause
           marks := if c.marks.length < 8 then c.marks ++ [m] else c.marks, nMarks := c.nMarks + 1 }

/-- A trigger fires, by the recorder's state (R313, R316). -/
def State.capFire (s : State) (n : Nat) (t : Nat × Nat) : State :=
  let r := s.recorder n
  let (stamp, cause) := t
  match r.st with
  | 2 | 3 =>
    if s.capMode n = 2 then s.rollMark n cause stamp
    else if r.newest.all (fun x => decide (x < stamp)) then s.setRec n { r with waiting := r.waiting ++ [t] }
    else s.startRecord n cause stamp
  | 4 =>
    (s.setRec n { r with cur := r.cur.map (fun c => c.mark stamp cause) }).count2 0x0B02 (n + 1) 1
  | 5 => (s.count2 0x0B03 (n + 1) 1).logEv 0x0B01 0x0B s.now (evPar 0 (n + cause * 256))
  | 6 => s.count2 0x0B04 (n + 1) 1
  | _ => s

/-- Triggers that fire together: those of the earlier trigger row first, and of one row the lowest cause first (R313). -/
def State.capFires (s : State) (n : Nat) (l : List (Nat × Nat)) : State :=
  let at_ := fun (t : Nat × Nat) => (trigRow (s.recorder n).rows t.1).getD 0
  (l.mergeSort (fun a b => decide (at_ a < at_ b) || (at_ a == at_ b && decide (a.2 ≤ b.2)))).foldl (fun s t => s.capFire n t) s

/-- The fields of a trigger (R311). -/
structure TrigDef where
  kind   : Nat
  dir    : Nat
  select : Nat
  level  : Word
  hyst   : Word
  deriving DecidableEq, Repr

/-- The triggers that take part: number and fields (R311). -/
def State.trigs (s : State) (n : Nat) : List (Nat × TrigDef) :=
  let ws := s.par Par.CAP.TRIG n
  ((List.range 16).filter (fun k => (ws.getD (4 * k) 0).getLsbD 31 && (s.parN Par.CAP.TRIG_ENABLE n).testBit k)).map
    (fun k =>
      let w := (ws.getD (4 * k) 0).toNat
      (k, { kind := bitsOf w 30 28, dir := bitsOf w 27 26, select := bitsOf w 15 0
            level := ws.getD (4 * k + 1) 0, hyst := ws.getD (4 * k + 2) 0 }))

/-- The trigger takes a change in this direction. -/
def TrigDef.takes (d : TrigDef) (rising : Bool) : Bool := d.dir == 2 || (d.dir == if rising then 0 else 1)

/-- A DIN, ALARM or LOGIC event fires the triggers that match it, on every recorder (R312). `hit` says of a SELECT whether
it changed, and whether that was a rise. -/
def State.capEvent (s : State) (kind : Nat) (hit : Nat → Option Bool) (stamp : Nat) : State :=
  if s.capRuns then
    (List.range 8).foldl (fun s n =>
      if s.capKind n = 0 then s
      else s.capFires n (((s.trigs n).filter (fun p => p.2.kind == kind && (hit p.2.select).any p.2.takes)).map
        (fun p => (stamp, p.1)))) s
  else s

/-! ### Alarms (R68) -/

/-- SELECT of an ALARM trigger names this alarm: unit 0 any, class 0xFF any (R311). -/
def alarmSel (u cls select : Nat) : Bool :=
  (bitsOf select 15 8 == 0 || bitsOf select 15 8 == u) && (bitsOf select 7 0 == 0xFF || bitsOf select 7 0 == cls)

/-- The alarm is raised. -/
def State.alarmOn (s : State) (u cls inst : Nat) : Bool := s.alarms.contains (u, cls, inst)

/-- Raise or clear an alarm and notify the change (R68); `test` is bit 1 of w5 (R187). An alarm that does not change sends
nothing. A change fires the capture triggers that select it (R312). -/
def State.alarmT (s : State) (u cls inst : Nat) (raised test : Bool) (t : Nat) : State :=
  if s.alarmOn u cls inst = raised then s else
    let l := if raised then s.alarms ++ [(u, cls, inst)] else s.alarms.filter (fun a => a != (u, cls, inst))
    ({ s with alarms := l }.notify 0xC000 0 u
      ([BitVec.ofNat 32 (u * 2 ^ 24 + cls * 2 ^ 16 + inst), BitVec.ofNat 32 (bitAt raised 0 + bitAt test 1)] ++
        gtfWords t)).capEvent 2 (fun k => if alarmSel u cls k then some raised else none) t

/-- Raise or clear an alarm of a unit other than 0x07 (R68, R187). -/
def State.alarm (s : State) (u cls inst : Nat) (raised : Bool) (t : Nat) : State := s.alarmT u cls inst raised false t

end Sys2Proof.Machine
end

