-- ==== Sys2Proof/Machine/Ports.lean ====
section
/-! DEFINITION. The Ethernet ports (04): receive checks, filter, FIFO and steering, the answers of the control complex to
neighbours, management rings, reassembly, transmission with TSO, PHY management and link state, and the speed down-shift. -/

namespace Sys2Proof.Machine

open Sys2Proof

/-! ### Ports and frames -/

/-- What the steering reads of an IP packet: version 6, destination, protocol, a fragment, source and destination port,
TCP flags, source address (RFC 791, RFC 8200, RFC 768, RFC 9293). -/
structure IpView where
  v6    : Bool
  src   : Nat
  dst   : Nat
  proto : Nat
  frag  : Bool
  sport : Nat
  dport : Nat
  flags : Nat
  deriving DecidableEq, Repr

/-- The IP packet of a frame, if it holds one. -/
def ipView (l : List Byte) : Option IpView :=
  let p := l.drop (etherAt l + 2)
  if etherType l = 0x0800 then
    let h := 4 * (fld p 0 1 % 16)
    some { v6 := false, src := fld p 12 4, dst := fld p 16 4, proto := fld p 9 1
           frag := fld p 6 2 % 16384 != 0, sport := fld p h 2, dport := fld p (h + 2) 2, flags := fld p (h + 13) 1 }
  else if etherType l = 0x86DD then
    some { v6 := true, src := fld p 8 16, dst := fld p 24 16, proto := fld p 6 1
           frag := fld p 6 1 == 44, sport := fld p 40 2, dport := fld p 42 2, flags := fld p 53 1 }
  else none

/-- The port is in a TIM PTP mask (R84). -/
def State.ptpPort (s : State) (n : Nat) : Bool :=
  (s.parN Par.TIM.PTP_RX_PORTS 0).testBit n || (s.parN Par.TIM.PTP_BC_PORTS 0).testBit n

/-! ### Receive checks and filter (R107 to R109) -/

/-- The index of a group address in PRT.MC_HASH: bits 31:23 of its CRC-32 (R109). -/
def hashIndex (addr : List Byte) : Nat := (crc32 addr).toNat / 2 ^ 23

/-- The address filter takes a destination address (R108). -/
def State.filterTakes (s : State) (n : Nat) (addr : List Byte) : Bool :=
  let a := ofBe addr
  if a = 0xFFFFFFFFFFFF then s.parB Par.PRT.BCAST_EN n
  else if s.ptpPort n && (a == 0x011B19000000 || a == 0x0180C200000E) then true
  else if (addr.getD 0 0).getLsbD 0 then
    let i := hashIndex addr
    ((s.par Par.PRT.MC_HASH n).getD (i / 32) 0).getLsbD (i % 32)
  else (List.range 16).any (fun k => s.parD Par.PRT.UC_MATCH (16 * n + k) % 2 ^ 49 == 2 ^ 48 + a)

/-- The frame's FCS matches (R107). -/
def fcsGood (l : List Byte) : Bool :=
  decide (leBytes 4 (crc32 (l.take (l.length - 4))).toNat = l.drop (l.length - 4))

/-- Bytes of a port's receive FIFO (R111). -/
def fifoBytes (n : Nat) : Nat := if n < 28 then 32768 else 131072

/-- The counter a received frame falls under, none where it is stored (R103, R107). -/
def State.rxVerdict (s : State) (n : Nat) (f : RxFrame) : Option Nat :=
  let l := f.bytes
  if f.symbolErr then some 0x0107
  else if l.length < 64 then some 0x0108
  else if s.parN Par.PRT.MAX_FRAME n < l.length then some 0x0109
  else if f.oddBits then some 0x010A
  else if !fcsGood l then some 0x010B
  else if etherType l = 0x8808 then some 0x010F
  else if !s.filterTakes n (l.take 6) then some 0x010C
  else if fifoBytes n < ((s.port n).fifo.map (fun x => x.2.length)).sum + l.length then some 0x010D
  else none

/-- The arrival stamp of a frame whose delimiter crosses the lands now (R97). -/
def State.rxStamp (s : State) (n : Nat) : Nat := s.now - s.parN Par.TIM.PORT_RX_DELAY_NS n

/-- A port receives a frame: checks, filter, FIFO (R107, R111). -/
def State.receive (s : State) (n : Nat) (f : RxFrame) : State :=
  match s.rxVerdict n f with
  | some c => s.count c n 1
  | none => s.setPort n { s.port n with fifo := (s.port n).fifo ++ [(s.rxStamp n, f.bytes)] }

/-- FRAME_RECEIVED. Ports receive in SAFE, CONFIG and RUN while the unit runs and the link is up. -/
def execFrameReceived (dt : Nat) (port : Nat) (frame : RxFrame) (s : State) : Out :=
  let s := s.advance dt
  .next (if s.up && s.runs 1 && s.linkIsUp port then s.receive port frame else s)

/-! ### Steering (R112) -/

/-- The TYPE 2 destination of an enabled pod that listens on a port's TCP port (R179). -/
def State.listener (s : State) (n tcpPort : Nat) : Option Nat :=
  (List.range 256).find? (fun i =>
    let w := ((s.par Par.ALN.DEST i).getD 0 0).toNat
    s.parB Par.ALN.POD_ENABLE (i / 4) && bitsOf w 31 24 == 2 && bitsOf w 23 16 == n && bitsOf w 15 0 == tcpPort)

/-- The sender of an IP packet as a peer: an IPv4 address is mapped (R35). -/
def IpView.peer (v : IpView) : Peer := { addr := if v.v6 then v.src else 0xFFFF * 2 ^ 32 + v.src, port := v.sport }

/-- A TCP segment belongs to a connection of the TCP engine, or is a SYN to a listening port (R37, R112, R179). -/
def State.tcpOurs (s : State) (n : Nat) (v : IpView) : Bool :=
  s.ctl.tcp.any (fun c => c.2.port == n && c.2.peer == v.peer && c.2.lport == v.dport) ||
    (v.flags / 2 % 2 == 1 && v.flags / 16 % 2 == 0 && s.ownIp n v.v6 v.dst &&
      ((s.parB Par.CTL.TCP_ENABLE n && v.dport == s.parN Par.CTL.UDP_PORT 0) || (s.listener n v.dport).isSome))

/-- The control complex answers this frame: ARP, ICMP echo or neighbour discovery for the port's addresses (R104). -/
def State.isNeighbour (s : State) (n : Nat) (l : List Byte) : Bool :=
  if etherType l = 0x0806 then s.ownIp n false (fld l (etherAt l + 26) 4)
  else match ipView l with
    | some v =>
      if v.v6 then
        let ty := fld l (etherAt l + 42) 1
        v.proto == 58 && ((ty == 128 && s.ownIp n true v.dst) ||
          (ty == 135 && s.ownIp n true (fld l (etherAt l + 50) 16)) || (ty == 136 && s.ownIp n true v.dst))
      else v.proto == 1 && fld l (etherAt l + 2 + 4 * (fld l (etherAt l + 2) 1 % 16)) 1 == 8 && s.ownIp n false v.dst
    | none => false

/-- Where a frame goes: 1 time base, 2 classifier, 3 command interpreter, 4 TCP engine, 5 reassembly, 6 neighbour
protocols, 0 the management ring (R112, R103). -/
def State.steer (s : State) (n : Nat) (l : List Byte) : Nat :=
  if 1 < vlanTags l then 0
  else if etherType l = 0x88F7 ∧ s.ptpPort n then 1
  else if etherType l = 0x88BA ∨ etherType l = 0x88B8 then 2
  else
    match ipView l with
    | some v =>
      if v.proto = 17 ∧ ¬ v.frag ∧ s.ownIp n v.v6 v.dst ∧
          (v.dport = s.parN Par.ING.OCF_PORT 0 ∨ v.dport = s.parN Par.ING.C37_UDP_PORT 0) then 2
      else if v.proto = 17 ∧ ¬ v.frag ∧ v.dport = s.parN Par.CTL.UDP_PORT 0 ∧ s.parB Par.CTL.UDP_ENABLE n then 3
      else if v.proto = 6 ∧ ¬ v.frag ∧ s.tcpOurs n v then 4
      else if v.frag then 5
      else if s.isNeighbour n l then 6
      else 0
    | none => if s.isNeighbour n l then 6 else 0

/-- The counter of a steering (R112). -/
def steerCounter : Nat → Nat
  | 1 => 0x0104
  | 2 => 0x0103
  | _ => 0x0105

/-- The descriptors of a frame, from buffer `i` of `n` on: 2,048 bytes each, the rest in the last (R114). -/
def rxDescs (port len stamp : Nat) (tagged : Bool) : Nat → Bool → List Byte → List RxDesc
  | 0, _, _ => []
  | n + 1, first, l =>
    { frameLen := if n = 0 then len % 65536 else 0, data := l.take 2048, port := port, tagged := tagged, eop := n == 0, sop := first
      arrival := BitVec.ofNat 64 (gtfOf stamp) } :: rxDescs port len stamp tagged n false (l.drop 2048)

/-- Write a frame without its FCS, with its arrival stamp, to the management ring of a port, in 2,048-byte buffers, whole or not
at all (R114, R115). -/
def State.toManagement (s : State) (n stamp : Nat) (data : List Byte) : State :=
  let r := s.ring n
  let k := (data.length + 2047) / 2048
  if s.ctl.linkUp ∧ r.enable ∧ k ≤ r.posted.length then
    let s := s.setRing n { r with posted := r.posted.drop k, head := (r.head + k) % max r.size.toNat 1 }
    ((s.count 0x0106 n 1).emit (.toHost n (rxDescs n data.length stamp (vlanTags data != 0) k true data))).raiseIrq n
  else s.count 0x010E n 1

/-! ### The answers of the control complex to neighbours (R104) -/

/-- The Ethernet header of an answer: back to the sender, from the port's own address, in the same VLAN. -/
def State.answerHead (s : State) (n : Nat) (l : List Byte) (ty : Nat) : List Byte :=
  (l.drop 6).take 6 ++ beBytes 6 (s.parD Par.PRT.MAC_ADDR n) ++ (l.take (etherAt l)).drop 12 ++ beBytes 2 ty

/-- The answer to an ARP request for the port's address (RFC 826). -/
def State.arpAnswer (s : State) (n : Nat) (l : List Byte) : List (List Byte) :=
  let p := l.drop (etherAt l + 2)
  if fld p 6 2 = 1 then
    [s.answerHead n l 0x0806 ++ p.take 6 ++ [0, 2] ++ beBytes 6 (s.parD Par.PRT.MAC_ADDR n) ++ (p.drop 24).take 4 ++
      (p.drop 8).take 10]
  else []

/-- An ICMP message with its checksum, over a pseudo-header in version 6 (RFC 792, RFC 4443). -/
def icmp (pseudo : List Byte) (type : Byte) (body : List Byte) : List Byte :=
  [type, 0] ++ beBytes 2 (inetChecksum (pseudo ++ [type, 0, 0, 0] ++ body)) ++ body

/-- The answer to an ICMP echo request (RFC 792, RFC 4443). -/
def State.echoAnswer (s : State) (n : Nat) (l : List Byte) (v : IpView) : List (List Byte) :=
  let p := l.drop (etherAt l + 2)
  if v.v6 then
    let body := (p.drop 44).take (fld p 4 2 - 4)
    s.ip6Frames n (s.answerHead n l 0x86DD) 58 v.dst v.src (icmp (pseudoHead true 58 v.dst v.src (body.length + 4)) 129 body)
  else
    let h := 4 * (fld p 0 1 % 16)
    s.ip4Frames n (s.answerHead n l 0x0800) 1 v.dst v.src (icmp [] 0 ((p.drop (h + 4)).take (fld p 2 2 - h - 4)))

/-- The neighbour advertisement that answers a solicitation of the port's address: its address and hardware address, hop limit 255;
to all nodes where the sender has no address yet (RFC 4861). -/
def State.neighbourAnswer (s : State) (n : Nat) (l : List Byte) (v : IpView) : List (List Byte) :=
  let own := s.ip6 n
  let none_ := v.src == 0
  let dst := if none_ then 0xFF02 * 2 ^ 112 + 1 else v.src
  let body := beBytes 4 (if none_ then 0x20000000 else 0x60000000) ++ beBytes 16 own ++ [2, 1] ++
    beBytes 6 (s.parD Par.PRT.MAC_ADDR n)
  let msg := icmp (pseudoHead true 58 own dst (body.length + 4)) 136 body
  let head := s.answerHead n l 0x86DD
  [(if none_ then beBytes 6 0x333300000001 ++ head.drop 6 else head) ++ putBe (ip6Head 58 own dst msg.length) 7 1 255 ++ msg]

/-- What the control complex answers a frame of the neighbour protocols with (R104). -/
def State.neighbourFrames (s : State) (n : Nat) (l : List Byte) : List (List Byte) :=
  if etherType l = 0x0806 then s.arpAnswer n l
  else match ipView l with
    | some v =>
      if !v.v6 ∨ fld l (etherAt l + 42) 1 = 128 then s.echoAnswer n l v
      else if fld l (etherAt l + 42) 1 = 135 then s.neighbourAnswer n l v
      else []
    | none => []

/-! ### The frame leaves the FIFO (R111, R112) -/

/-- The carriage and the payload of a UDP command packet (R35). -/
def udpCommand (n : Nat) (l : List Byte) (v : IpView) : Carriage × List Byte :=
  let p := l.drop (etherAt l + 2)
  let u := p.drop (if v.v6 then 40 else 4 * (fld p 0 1 % 16))
  (if v.v6 then .udp6 n v.peer else .udp4 n v.peer, (u.drop 8).take (fld u 4 2 - 8))

/-- A word of a packet that crosses to the cores is poisoned, and stays so in FIFO 66 (R394). -/
def State.poisonOn (s : State) (bad : Bool) : State :=
  if bad then { s with ctl := { s.ctl with taken := s.ctl.taken.set 66 (s.ctl.taken.getD 66 [] ++ [⟨0, 0, true, false⟩]) } } else s

/-- A steered frame is taken (R112): by the command interpreter, by the neighbour protocols, or by a unit whose own command
follows. The words of a frame for the classifier or for reassembly wait in FIFO n for that command (log 68). -/
def State.takeSteered (s : State) (n d stamp : Nat) (l : List Byte) : State :=
  let x := if d = 2 ∨ d = 5 then (s, false) else s.takeItem n
  let s := x.1
  match d with
  | 0 => s.toManagement n stamp (l.take (l.length - 4))
  | _ =>
    let s := (s.count (steerCounter d) n 1).emit (.steered n d)
    match d, ipView l with
    | 3, some v => (s.poisonOn x.2).bufferPacket (udpCommand n l v).1 (udpCommand n l v).2
    | 6, _ => s.sendFrames' n 4 false none (s.neighbourFrames n (l.take (l.length - 4)))
    | _, _ => s

/-- A whole frame leaves the FIFO: it is counted and steered (R111, R112). Without its time-stamp unit a port takes the arrival
stamp here (R123). -/
def State.steerFrame (s : State) (n stamp : Nat) (l : List Byte) (rest : List (Nat × List Byte)) : State :=
  let p := s.port n
  let s := s.setPort n { p with fifo := rest, liveFrames := (p.liveFrames + 1) % 2 ^ 64 }
  let s := (s.count 0x0101 n 1).count 0x0102 n l.length
  s.takeSteered n (s.steer n l) (if n < 28 ∧ !s.parB Par.PRT.TSU_ENABLE n then s.now else stamp) l

/-- RX_FRAME_STEER. -/
def execRxFrameSteer (dt : Nat) (port : Nat) (s : State) : Out :=
  let s := s.advance dt
  .next (match (s.port port).fifo with
    | (stamp, l) :: rest => if s.up && s.runs 1 then s.steerFrame port stamp l rest else s
    | [] => s)

/-! ### Reassembly (R113, R35) -/

/-- A datagram in reassembly takes this fragment. -/
def Reassembly.same (r : Reassembly) (f : Fragment) : Bool :=
  r.port == f.port && r.v6 == f.v6 && r.src == f.src && r.dst == f.dst && r.ident == f.ident && r.proto == f.proto

/-- The number of contiguous bytes from `at_` that `n` passes over the parts reach. -/
def reachOf (parts : List (Nat × Bool × List Byte)) : Nat → Nat → Nat
  | 0, k => k
  | n + 1, k =>
    match parts.find? (fun p => decide (p.1 ≤ k) && decide (k < p.1 + p.2.2.length)) with
    | some p => reachOf parts n (p.1 + p.2.2.length)
    | none => k

/-- The datagram's length, once its last fragment is held. -/
def Reassembly.total (r : Reassembly) : Option Nat :=
  (r.parts.find? (fun p => !p.2.1)).map (fun p => p.1 + p.2.2.length)

/-- Every byte of the datagram is held. -/
def Reassembly.complete (r : Reassembly) : Bool :=
  match r.total with
  | some n => decide (n ≤ reachOf r.parts (r.parts.length + 1) 0)
  | none => false

/-- Byte `k` of the datagram. -/
def Reassembly.byteAt (r : Reassembly) (k : Nat) : Byte :=
  match r.parts.find? (fun p => decide (p.1 ≤ k) && decide (k < p.1 + p.2.2.length)) with
  | some p => p.2.2.getD (k - p.1) 0
  | none => 0

/-- The reassembled datagram. -/
def Reassembly.bytes (r : Reassembly) : List Byte := (List.range (r.total.getD 0)).map r.byteAt

/-- The headers of the datagram as if it had not been fragmented (RFC 791, RFC 8200). -/
def Reassembly.header (r : Reassembly) (len : Nat) : List Byte :=
  let i := etherAt r.head + 2
  if r.v6 then putBe (putBe r.head (i + 4) 2 (len % 65536)) (i + 6) 1 r.proto
  else
    let n := 4 * (fld r.head i 1 % 16)
    let h := putBe (putBe (putBe r.head (i + 2) 2 ((n + len) % 65536)) (i + 6) 2 0) (i + 10) 2 0
    putBe h (i + 10) 2 (inetChecksum ((h.drop i).take n))

/-- Bytes of the largest datagram that is reassembled: a UDP header and the largest LENGTH of its carriage (R35). -/
def reasmMost (v6 : Bool) : Nat := 8 + (if v6 then Carriage.maxLength (.udp6 0 ⟨0, 0⟩) else Carriage.maxLength (.udp4 0 ⟨0, 0⟩)) * 4

/-- A completed datagram: a command datagram goes to the command interpreter, any other to the management ring, with the arrival
stamp of its first fragment (R113, log 68). -/
def State.reassembled (s : State) (r : Reassembly) : State :=
  let d := r.bytes
  if r.proto = 17 ∧ fld d 2 2 = s.parN Par.CTL.UDP_PORT 0 ∧ s.parB Par.CTL.UDP_ENABLE r.port then
    let peer : Peer := { addr := if r.v6 then r.src else 0xFFFF * 2 ^ 32 + r.src, port := fld d 0 2 }
    (s.poisonOn r.poison).bufferPacket (if r.v6 then .udp6 r.port peer else .udp4 r.port peer) ((d.drop 8).take (fld d 4 2 - 8))
  else s.toManagement r.port r.firstAt (r.header d.length ++ d)

/-- A fragment is put to the datagram it belongs to. -/
def Reassembly.add (r : Reassembly) (f : Fragment) (bad : Bool) : Reassembly :=
  { r with parts := r.parts ++ [(f.offset, f.more, f.data)], head := if f.offset = 0 then f.head else r.head, poison := r.poison || bad }

/-- The datagrams in reassembly, with a fragment put to them. -/
def State.setReasm (s : State) (l : List Reassembly) : State := { s with ctl := { s.ctl with reasm := l } }

/-- Add a fragment (R113). One that reaches beyond the largest datagram is not taken, so its datagram is never complete (R35). -/
def State.addFragment (s : State) (f : Fragment) (bad : Bool) : State :=
  let fits := decide (f.offset + f.data.length ≤ reasmMost f.v6)
  match s.ctl.reasm.find? (fun r => r.same f) with
  | some r =>
    let r' := if fits then r.add f bad else r
    if r'.complete then (s.setReasm (s.ctl.reasm.filter (fun x => !x.same f))).reassembled r'
    else s.setReasm (s.ctl.reasm.map (fun x => if x.same f then r' else x))
  | none =>
    if s.ctl.reasm.length < 16 then
      let r : Reassembly := { port := f.port, v6 := f.v6, src := f.src, dst := f.dst, ident := f.ident
                              proto := f.proto, firstAt := s.now, parts := [], head := [], poison := false }
      let r' := if fits then r.add f bad else r
      if r'.complete then s.reassembled r' else s.setReasm (s.ctl.reasm ++ [r'])
    else s.count 0x0110 f.port 1

/-- FRAGMENT_RECEIVED. -/
def execFragmentReceived (dt : Nat) (frag : Fragment) (s : State) : Out :=
  let s := s.advance dt
  .next (if s.up && s.runs 12 then (s.takeItem frag.port).1.addFragment frag (s.takeItem frag.port).2 else s)

/-- Drop the datagrams that are not complete 1 s after their first fragment (R113). -/
def State.dropStale (s : State) : State :=
  let old := s.ctl.reasm.filter (fun r => decide (r.firstAt + sec ≤ s.now))
  let s := { s with ctl := { s.ctl with reasm := s.ctl.reasm.filter (fun r => decide (s.now < r.firstAt + sec)) } }
  old.foldl (fun s r => s.count 0x0110 r.port 1) s

/-- REASSEMBLY_TIMEOUT. -/
def execReassemblyTimeout (dt : Nat) (s : State) : Out := .next ((s.advance dt).dropStale)

/-! ### Transmission (R116 to R118) -/

/-- The message a frame carries has left with its last frame. -/
def State.emitMsg (s : State) (x : TxItem) : State :=
  match x.msg with
  | some o => if x.last then s.emit o else s
  | none => s

/-- A frame leaves its port: it is counted, and the last frame of a send completes it (R117, R122). A host send goes out as the
host gave it, without padding (log 68). -/
def State.frameSent (s : State) (n : Nat) (x : TxItem) : State :=
  let s := ((s.count 0x0111 n 1).count 0x0112 n (x.bytes.length + 4)).emit (.frame n x.rank x.bytes)
  let s := (if x.tso then s.count 0x0113 n 1 else s).emitMsg x
  match x.ring with
  | some r => if x.last then s.completeSend r 0 (if x.tsReq then (s.ring r).txStamp else none) else s
  | none => s

/-- The counter of a message that a poisoned word discards (R395): a reply, a notification. -/
def lostCounter : Output → Option Nat
  | .reply _ _ => some 0x0C07
  | .notice _ _ _ _ => some 0x0C06
  | _ => none

/-- A port finishes its frame, and starts the next (R116). A poisoned word of a reply or notification on its way to the port
discards that packet, with the frames of it still to come (R395). -/
def State.finishTx (s : State) (n : Nat) : State :=
  match (s.port n).sending with
  | none => s
  | some x =>
    let s := s.setPort n { s.port n with sending := none }
    let y := s.takeItem (32 + n)
    let s := match (x.msg.bind lostCounter).filter (fun _ => y.2) with
      | some c =>
        let s := y.1.count c 0 1
        s.setPort n { s.port n with tx := (s.port n).tx.filter (fun (i : TxItem) => i.msg != x.msg) }
      | none => y.1.frameSent n x
    s.startTx n

/-- TX_FRAME. -/
def execTxFrame (dt : Nat) (port : Nat) (s : State) : Out :=
  let s := s.advance dt
  .next (if s.linkIsUp port then s.finishTx port else s)

/-- The descriptors of the first send of a list: up to one with EOP; none where the send is not whole yet (R117). -/
def takeSend : List TxDesc → Option (List TxDesc)
  | [] => none
  | d :: l => if d.eop then some [d] else (takeSend l).map (d :: ·)

/-- The frames of a send; none where it breaks a limit (R117, R118). The last descriptor of a chain gives PORT, TSO, TS_REQ, MSS and
HDR_LEN, and a TSO send without payload breaks a limit (log 68). -/
def State.sendFrames (s : State) (ds : List TxDesc) : Option (List (List Byte)) :=
  match ds.getLast? with
  | none => none
  | some e =>
    let data := ds.flatMap TxDesc.data
    let maxF := s.parN Par.PRT.MAX_FRAME e.port
    if ds.length > 16 || data.length > 262144 || ds.any (fun d => d.bufLen == 0 || decide (65536 < d.bufLen)) then none
    else if e.tso then
      let pay := data.drop e.hdrLen
      if e.mss < 88 ∨ 9154 < e.mss ∨ e.hdrLen < 54 ∨ 118 < e.hdrLen ∨ pay.isEmpty ∨
          maxF < e.hdrLen + min e.mss pay.length + 4 then none
      else some (tsoSegments (data.take e.hdrLen) e.mss ((pay.length + e.mss - 1) / e.mss) 0 pay)
    else if data.length + 4 ≤ maxF then some [data] else none

/-- The send of the ring in progress is still queued on a port. -/
def State.sendBusy (s : State) (ring : Nat) : Bool := (s.ring ring).inFlight != 0

/-- Queue the frames of a send, the last one marked. -/
def State.queueSend (s : State) (n ring : Nat) (tsReq tso first : Bool) : List (List Byte) → State
  | [] => s
  | f :: l =>
    (s.queueTx n { rank := 5, ring := some ring, bytes := f, tsReq := tsReq, tso := tso, first := first
                   last := l.isEmpty }).queueSend n ring tsReq tso false l

/-- Take the next send of a host transmit ring (R117). A send that breaks a limit completes with STATUS 2 whatever its port's link
does (log 68). -/
def State.txSend (s : State) (ring : Nat) : State :=
  let r := s.ring ring
  match takeSend r.sends with
  | none => s
  | some ds =>
    let s := s.setRing ring { r with sends := r.sends.drop ds.length, inFlight := ds.length }
    let port := (ds.getLast?.map TxDesc.port).getD 0
    match s.sendFrames ds with
    | none => (s.count 0x0115 port 1).completeSend ring 2 none
    | some fs =>
      if s.linkIsUp port then
        s.queueSend port ring ((ds.getLast?.map TxDesc.tsReq).getD false) ((ds.getLast?.map TxDesc.tso).getD false)
          true fs
      else (s.count 0x0114 port 1).completeSend ring 1 none

/-- TX_SEND. -/
def execTxSend (dt : Nat) (ring : Nat) (s : State) : Out :=
  let s := s.advance dt
  .next (if s.up && s.runs 1 && (s.ring ring).enable && !s.sendBusy ring && !(s.ring ring).sends.isEmpty then
      s.txSend ring else s)

/-! ### PHY management and links (R102, R103, R106, R121, R122) -/

/-- The module manages the port's PHY over MDIO (R102, R123). -/
def State.phyManaged (s : State) (n : Nat) : Bool := s.parN Par.PRT.MODE n == 1 && s.parN Par.PRT.MDIO_CLAUSE n != 2

/-- The speeds a port in mode 1 advertises: 1 10, 2 100, 3 1,000 Mb/s (R102, R121, R123). -/
def State.advertised (s : State) (n : Nat) : List Nat :=
  if (s.port n).shifted then [2]
  else match s.parN Par.PRT.SPEED n with
    | 0 => [1, 2, 3]
    | k => [k]

/-- A write of a PHY register by its Clause 22 number, or of the Clause 45 auto-negotiation register that matches it (R106). -/
def State.phyWrite (s : State) (n register value : Nat) : State :=
  s.emit (.mdio n (s.parN Par.PRT.MDC_KHZ (n / 4))
    (if s.parN Par.PRT.MDIO_CLAUSE n = 1 then 7 * 65536 + Config.clause45 register % 65536 else register) value)

/-- Bring-up of a PHY: the advertisement of full duplex alone in registers 4 and 9, no EEE advertisement (register 60 of MMD 7), and
auto-negotiation restarted by register 0 (R103, R106; IEEE 802.3). -/
def State.bringUp (s : State) (n : Nat) : State :=
  if s.phyManaged n then
    let a := s.advertised n
    let s := s.phyWrite n 4 (1 + bitAt (a.contains 1) 6 + bitAt (a.contains 2) 8)
    let s := s.phyWrite n 9 (bitAt (a.contains 3) 9)
    let s := s.emit (.mdio n (s.parN Par.PRT.MDC_KHZ (n / 4)) (7 * 65536 + 60) 0)
    (s.phyWrite n 0 0x1200).setPort n { s.port n with polledAt := none }
  else s

/-- Drop every frame queued on a port whose link is down; a host send among them is completed with STATUS `status`
(R117, R121). -/
def State.dropQueued (s : State) (n status : Nat) : State :=
  let p := s.port n
  let items := p.sending.toList ++ p.tx
  let s := (s.setPort n { p with sending := none, tx := [] }).count 0x0114 n items.length
  (items.filterMap (fun x => if x.last then x.ring else none)).foldl (fun s r => s.completeSend r status none) s

/-- A link goes from up to down (R122). -/
def State.linkDown (s : State) (n : Nat) : State :=
  if (s.port n).up then
    let s := (s.setPort n { s.port n with up := false, speed := 0, anDone := false }).count 0x0116 n 1
    s.dropQueued n 1
  else s

/-- The speed code of a link in the port's mode (R102, R123). -/
def State.speedCode (s : State) (n : Nat) (st : PhyStatus) : Nat :=
  match s.parN Par.PRT.MODE n with
  | 1 => st.speed
  | 2 => 3
  | 3 => 4
  | _ => 0

/-- Auto-negotiation counts for the port's link: the PHY's in mode 1, Clause 37 in mode 2 with PRT.AN_ENABLE (R102). -/
def State.negotiates (s : State) (n : Nat) : Bool :=
  s.parN Par.PRT.MODE n == 1 || (s.parN Par.PRT.MODE n == 2 && s.parB Par.PRT.AN_ENABLE n)

/-- The port's link set-up is done: at a speed it advertises in mode 1; after Clause 37 auto-negotiation in mode 2 with
PRT.AN_ENABLE; at once otherwise (R102, R123). -/
def State.linkReady (s : State) (n : Nat) (st : PhyStatus) : Bool :=
  match s.parN Par.PRT.MODE n with
  | 1 => (s.advertised n).contains st.speed
  | 2 => st.anDone || !s.parB Par.PRT.AN_ENABLE n
  | _ => true

/-- A link comes up, or is refused to a partner that offers only half duplex, which loses a link it had (R102, R103). -/
def State.linkUp (s : State) (n : Nat) (st : PhyStatus) : State :=
  if s.parN Par.PRT.MODE n = 0 then s
  else if s.negotiates n && st.halfOnly then
    let s := s.linkDown n
    if (s.port n).hdRefused then s else (s.setPort n { s.port n with hdRefused := true }).count 0x0117 n 1
  else if s.linkReady n st then
    s.setPort n { s.port n with
      up := true, speed := s.speedCode n st, anDone := s.negotiates n && st.anDone, hdRefused := false, awaitUp := false }
  else s

/-- LINK_DOWN. -/
def execLinkDown (dt : Nat) (port : Nat) (s : State) : Out :=
  let s := s.advance dt
  .next (if s.up then s.linkDown port else s)

/-- LINK_UP. -/
def execLinkUp (dt : Nat) (port : Nat) (status : PhyStatus) (s : State) : Out :=
  let s := s.advance dt
  .next (if s.up && s.runs 1 && status.up then s.linkUp port status else s)

/-- What a read of a PHY's status registers changes (R106). -/
def State.phyPoll (s : State) (n : Nat) (st : PhyStatus) : State :=
  let s := s.setPort n { s.port n with polledAt := some s.now }
  if st.up then s.linkUp n st
  else (s.linkDown n).setPort n { (s.linkDown n).port n with hdRefused := false }

/-- A read of the PHY's status is due: PRT.MDIO_POLL_MS after the last (R106). -/
def State.pollDue (s : State) (n : Nat) : Bool :=
  (s.port n).polledAt.all (fun t => decide (t + s.parN Par.PRT.MDIO_POLL_MS 0 * 1000000 ≤ s.now))

/-- PHY_STATUS_POLL: ports in mode 1 with PHY management. -/
def execPhyStatusPoll (dt : Nat) (port : Nat) (status : PhyStatus) (s : State) : Out :=
  let s := s.advance dt
  .next (if s.up && s.runs 1 && s.phyManaged port && s.pollDue port then s.phyPoll port status else s)

/-- Shift a port between 1,000 and 100 Mb/s: counted and logged; auto-negotiation restarts with the new advertisement, and the
link is down until the PHY reports it up (R121). -/
def State.shift (s : State) (n : Nat) (down : Bool) : State :=
  let s := s.setPort n { s.port n with shifted := down, shiftAt := s.now, lowSeconds := 0, awaitUp := down }
  (((s.count 0x0118 n 1).logEv 0x0101 1 s.now (evPar 0 (n + bitAt down 8))).linkDown n).bringUp n

/-- One 1-s utilisation window of a port (R121). -/
def State.utilisation (s : State) (n bits : Nat) : State :=
  let s := s.setPort n { s.port n with windowAt := s.now }
  let p := s.port n
  if p.shifted then
    if 80000000 < bits then s.shift n false else s
  else if bits * 100 < s.parN Par.PRT.DOWNSHIFT_PCT n * 1000000000 then
    let k := p.lowSeconds + 1
    if s.parN Par.PRT.DOWNSHIFT_S n ≤ k ∧ ¬ p.noShift ∧ p.speed = 3 then s.shift n true
    else s.setPort n { p with lowSeconds := k }
  else s.setPort n { p with lowSeconds := 0 }

/-- DOWNSHIFT_WINDOW: in RUN, an SGMII port with PRT.DOWNSHIFT_PCT not 0. -/
def execDownshiftWindow (dt : Nat) (port rxBits txBits : Nat) (s : State) : Out :=
  let s := s.advance dt
  .next (if s.pwr.dev == .run && s.runs 1 && s.parN Par.PRT.MODE port == 1 && s.parN Par.PRT.DOWNSHIFT_PCT port != 0 &&
      (s.port port).up && decide ((s.port port).windowAt + sec ≤ s.now) then s.utilisation port (max rxBits txBits) else s)

/-- DOWNSHIFT_LINK_TIMEOUT: no link at 100 Mb/s within 10 s; the port returns to 1,000 Mb/s and does not shift down again
until the next commit of PRT.DOWNSHIFT_PCT (R121). -/
def execDownshiftLinkTimeout (dt : Nat) (port : Nat) (s : State) : Out :=
  let s := s.advance dt
  let p := s.port port
  .next (if p.shifted && p.awaitUp && decide (p.shiftAt + 10 * sec ≤ s.now) then
      (s.shift port false).setPort port { (s.shift port false).port port with noShift := true } else s)

/-! ### Reset of the unit and of the host link -/

/-- UNIT_RESET of the ports: FIFOs, links and sends in progress are discarded; sends complete with STATUS 3 (R424). -/
def State.portsReset (s : State) : State :=
  let s := (List.range 32).foldl (fun s n =>
    let p := s.port n
    let rings := (p.sending.toList ++ p.tx).filterMap (fun x => if x.last then x.ring else none)
    let s := if p.up then s.count 0x0116 n 1 else s
    let s := s.setPort n { Port.init with liveFrames := p.liveFrames, noShift := p.noShift }
    rings.foldl (fun s r => s.completeSend r 3 none) s) s
  s

/-- A commit of PRT.MODE, PRT.SPEED or PRT.DOWNSHIFT_PCT of a port (R102, R106, R121): a new mode or speed restarts the link; a
commit of the threshold allows a down-shift again, and 0 shifts a port back up. -/
def State.portCommit (s : State) (n : Nat) (mode pct : Bool) : State :=
  let s := if mode then ((s.linkDown n).setPort n { (s.linkDown n).port n with shifted := false, awaitUp := false }).bringUp n else s
  if pct then
    let s := s.setPort n { s.port n with noShift := false, lowSeconds := 0 }
    if (s.port n).shifted && s.parN Par.PRT.DOWNSHIFT_PCT n == 0 then s.shift n false else s
  else s

end Sys2Proof.Machine
end

