-- ==== Sys2Proof/Machine/Sources.lean ====
section
/-! DEFINITION. Source definitions as SOURCE_DEFINE gives them (R124, R147), the catalogue they make (R142), and the
positions and the definition of a pod (R150, R186). -/

namespace Sys2Proof.Machine

open Sys2Proof

/-! ### Definitions -/

/-- The mapping of one quantity (R147): catalogue index, kind 0 F32, 1 COUNT64, 2 STATUS32, unit code, SCALE, OFFSET. -/
structure Mapping where
  index  : Nat
  kind   : Nat
  unit   : Nat
  scale  : Word
  offset : Word
  deriving DecidableEq, Repr

/-- A source definition, its fields taken from the words of SOURCE_DEFINE from w4 on (R147). -/
structure SrcDef where
  kind    : Nat
  n       : Nat
  rate    : Nat
  keySlot : Nat
  flags   : Nat
  liveMs  : Nat
  svTq    : Nat
  ident   : List Word
  maps    : List Mapping
  deriving DecidableEq, Repr

/-- Bits `hi:lo` of word `k` of a list. -/
def wordBits (ws : List Word) (k hi lo : Nat) : Nat := bitsOf (ws.getD k 0).toNat hi lo

/-- The mapping in words `k` to `k + 2`. -/
def mappingAt (ws : List Word) (k : Nat) : Mapping :=
  { index := wordBits ws k 31 14, kind := wordBits ws k 13 12, unit := wordBits ws k 7 0
    scale := ws.getD (k + 1) 0, offset := ws.getD (k + 2) 0 }

/-- The fields of a definition. -/
def srcDefOf (ws : List Word) : SrcDef :=
  let l := wordBits ws 3 15 0
  let n := wordBits ws 0 7 0
  { kind := wordBits ws 0 15 8, n := n, rate := wordBits ws 1 31 16, keySlot := wordBits ws 1 15 8
    flags := wordBits ws 1 2 0, liveMs := wordBits ws 2 31 16, svTq := wordBits ws 2 3 0
    ident := (ws.drop 4).take l, maps := (List.range n).map (fun k => mappingAt ws (4 + l + 3 * k)) }

/-- The words of a definition without their reserved bits (R8): of the header, of the identity by kind (R147, R293), of each
mapping. -/
def definitionKept (ws : List Word) : List Word :=
  let kind := wordBits ws 0 15 8
  let l := wordBits ws 3 15 0
  let ident : Nat → Word := fun k => match kind with
    | 1 => if k = 0 then 0xFFFFFF00 else if k = 5 then 0xFFFF0000 else 0xFFFFFFFF
    | 2 => if k = 0 then 0xFFFFFF00 else 0xFFFFFFFF
    | 3 => if k = 5 then 0xFFFF0000 else 0xFFFFFFFF
    | 4 => if k = 0 then 0x0000FF00 else 0xFFFFFFFF
    | 5 => if k = 0 then 0xFF000007
        else (match wordBits ws 4 31 28 with | 2 => 0x00FFFFFF | 3 => 0x0000FFFF | _ => 0xFFFFFFFF)
    | _ => 0xFFFFFFFF
  let keep : Nat → Word := fun i => match i with
    | 0 => 0xFFFFFFFF
    | 1 => 0xFFFFFF07
    | 2 => 0xFFFF000F
    | 3 => 0x0000FFFF
    | _ => if i < 4 + l then ident (i - 4) else if (i - 4 - l) % 3 = 0 then 0xFFFFF0FF else 0xFFFFFFFF
  ((List.range ws.length).zip ws).map (fun x => x.2 &&& keep x.1)

/-- The definition of a source in force. -/
def State.srcDef (s : State) (src : Nat) : Option SrcDef := (s.ctl.cfg.sources.get? src).map srcDefOf

/-- The run state of a source. -/
def State.src (s : State) (n : Nat) : Src := s.ing.src.getD n Src.init

/-- Replace the run state of a source. -/
def State.setSrc (s : State) (n : Nat) (x : Src) : State :=
  { s with ing := { s.ing with src := s.ing.src.put Src.init n x } }

/-- TAG_REQUIRED of a definition (R147). -/
def SrcDef.tagRequired (d : SrcDef) : Bool := d.flags.testBit 0

/-- C37_TCP of a definition (R147). -/
def SrcDef.c37Tcp (d : SrcDef) : Bool := d.flags.testBit 1

/-- C37_CFG3 of a definition (R147). -/
def SrcDef.cfg3 (d : SrcDef) : Bool := d.flags.testBit 2

/-- The station address and port in the identity of a source of kind 1 or 3 (R147). -/
def SrcDef.station (d : SrcDef) : Peer :=
  { addr := ofBe (wordsBe ((d.ident.drop 1).take 4)), port := wordBits d.ident 5 31 16 }

/-- IDCODE of the stream in the identity of a source of kind 1 (R147). -/
def SrcDef.idcode (d : SrcDef) : Nat := wordBits d.ident 0 31 16

/-- PMU block index in the identity of a source of kind 1 (R124). -/
def SrcDef.block (d : SrcDef) : Nat := wordBits d.ident 0 15 8

/-- The svID or gocbRef in the identity of a source of kind 2 or 4 (R147). -/
def SrcDef.name (d : SrcDef) : List Byte := (wordsBe (d.ident.drop 2)).take (wordBits d.ident 0 15 8)

/-- What a frame's identity is compared with (R124). -/
def SrcDef.key (d : SrcDef) : List Byte :=
  match d.kind with
  | 1 => beBytes 2 (wordBits d.ident 0 31 16) ++ beBytes 1 (wordBits d.ident 0 15 8) ++ beBytes 16 d.station.addr
  | 2 => beBytes 2 (wordBits d.ident 0 31 16) ++ d.name
  | 3 => beBytes 4 (d.ident.getD 0 0).toNat
  | 4 => d.name
  | _ => wordsBe d.ident

/-- The source a frame's kind and key identify; the conflict check leaves at most one (R124). -/
def State.identify (s : State) (kind : Nat) (key : List Byte) : Option (Nat × SrcDef) :=
  (s.ctl.cfg.sources.map (fun p => (p.1, srcDefOf p.2))).find? (fun p => p.2.kind == kind && p.2.key == key)

/-- A key slot (R347). -/
def State.keySlot (s : State) (k : Nat) : KeySlot := s.vlt.slot.getD k KeySlot.init

/-- Bit `b` of a slot's attribute word (R348): 0 SIGN, 1 VERIFY, 2 ENCRYPT, 3 DECRYPT, 4 DERIVE, 5 WRAP, 6 COMMS,
7 METROLOGY, 8 OWNER, 9 EXPORTABLE_WRAPPED, 10 PERSISTENT, 11 ORPHAN, 12 VALID. -/
def KeySlot.has (k : KeySlot) (b : Nat) : Bool := k.attr.getLsbD b

/-- The slot holds a key that can be used: VALID and not ORPHAN (R348, R350). -/
def KeySlot.usable (k : KeySlot) : Bool := k.has 12 && !k.has 11

/-- The key of a slot fit for COMMS, if it is usable (R138, R349). -/
def State.commsKey (s : State) (slot : Nat) : Option (List Byte) :=
  let k := s.keySlot slot
  if k.usable && k.has 6 then some k.secret else none

/-- The key under which a source definition or removal is held: ID 0x030B and the source number (R58, R64). -/
def sourceKey (src : Nat) : Nat := parKey 0x030B src

/-- Write a maquette entry: BUSY while a commit is pending, NO_RESOURCE beyond its capacity (R58, R64). -/
def State.maqWrite (s : State) (key session : Nat) (v : MaqVal) : State × Option Ans :=
  if s.ctl.commit.isSome then (s, err 0x010B)
  else if (s.ctl.maquette.get? key).isNone && decide (524288 ≤ s.ctl.maquette.length) then (s, err 0x0117)
  else ({ s with ctl := { s.ctl with maquette := s.ctl.maquette.set key { session := session, val := v } } }, ok [])

/-! ### Catalogue and positions (R142, R150) -/

/-- The positions of one quantity: a COUNT64 takes two, low word first. -/
def mappingPos (src q : Nat) (m : Mapping) : List Pos :=
  if m.kind = 1 then
    [{ src := src, q := q, kind := 1, unit := m.unit, index := m.index },
     { src := src, q := q, kind := 3, unit := m.unit, index := m.index + 1 }]
  else [{ src := src, q := q, kind := m.kind, unit := m.unit, index := m.index }]

/-- The positions of one source, quantities in ascending q. -/
def srcPos (src : Nat) (d : SrcDef) : List Pos :=
  ((List.range d.maps.length).zip d.maps).flatMap (fun p => mappingPos src p.1 p.2)

/-- The catalogue of a table of definitions. -/
def catalogueOf (sources : AMap (List Word)) : List Pos :=
  sources.flatMap (fun p => srcPos p.1 (srcDefOf p.2))

/-- The catalogue entry at an index in force. -/
def State.catalogue (s : State) (index : Nat) : Option Pos :=
  (catalogueOf s.ctl.cfg.sources).find? (fun p => p.index == index)

/-! ### Pods (R150 to R152) -/

/-- A bit of ALN.MEMBERS. -/
def memberBit (ws : List Word) (src : Nat) : Bool := (ws.getD (src / 32) 0).getLsbD (src % 32)

/-- The block of a source of kind 1 in the CFG it uses (R130). -/
def State.srcBlock (s : State) (src : Nat) (d : SrcDef) : Option C37Blk := (s.src src).cfg.bind (fun c => c.blocks[d.block]?)

/-- The quantities follow the order of R131 for these counts: F32 up to the analogues, then one STATUS32 for each digital word. -/
def SrcDef.follows (d : SrcDef) (ph an dg : Nat) : Bool :=
  2 + 2 * ph + an + dg == d.n && (d.maps.take (2 + 2 * ph + an)).all (fun m => m.kind == 0) &&
    (d.maps.drop (2 + 2 * ph + an)).all (fun m => m.kind == 2)

/-- The C37.118.2 layout PHNMR, ANNMR, DGNMR of a source in output (R178): its CFG for kind 1, ALN.C37_LAYOUT otherwise;
none where its quantities do not follow that order. -/
def State.c37Layout (s : State) (src : Nat) (d : SrcDef) : Option (Nat × Nat × Nat) :=
  let l := if d.kind = 1 then (s.srcBlock src d).map (fun c => (c.phnmr, c.annmr, c.dgnmr))
    else
      let w := s.parN Par.ALN.C37_LAYOUT src
      if w = 0 then none else some (bitsOf w 21 16, bitsOf w 15 8, bitsOf w 7 0)
  match l with
  | some (p, a, g) => if d.follows p a g then some (p, a, g) else none
  | none => none

/-- The members of a pod in force, in ascending source number (R150). -/
def State.membersOf (s : State) (pod : Nat) : List (Nat × SrcDef) :=
  let ws := s.par Par.ALN.MEMBERS pod
  (s.ctl.cfg.sources.filter (fun p => memberBit ws p.1)).map (fun p => (p.1, srcDefOf p.2))

/-- The state of a pod. -/
def State.podSt (s : State) (n : Nat) : Pod := s.aln.pod.getD n Pod.init

/-- Replace the state of a pod. -/
def State.setPod (s : State) (n : Nat) (p : Pod) : State :=
  { s with aln := { s.aln with pod := s.aln.pod.put Pod.init n p } }

/-- The commit under which a pod's definition was committed, and its boundary (R177). -/
def State.podMade (s : State) (pod : Nat) : Word × Nat := s.ctl.cfg.pods.getD pod (0, 0)

/-- The definition of a pod in force. -/
def State.podDef (s : State) (pod : Nat) : PodDef :=
  let ms := s.membersOf pod
  { rate := s.parN Par.ALN.SLOT_RATE pod
    members := ms.map (fun m => { src := m.1, kind := m.2.kind, rate := m.2.rate, n := m.2.n, layout := s.c37Layout m.1 m.2 })
    positions := ms.flatMap (fun m => srcPos m.1 m.2)
    policy := s.parN Par.ALN.WAIT_POLICY pod, waitNs := s.parN Par.ALN.WAIT_NS pod
    tolNs := 1000 * s.parN Par.ALN.GRID_TOL_US pod, subst := s.parN Par.ALN.SUBST pod
    revisions := s.parB Par.ALN.EDITION_POLICY pod, horizonNs := 1000000 * s.parN Par.ALN.REV_HORIZON_MS pod
    batchNs := 1000 * s.parN Par.ALN.REV_BATCH_US pod, holdNs := 1000000 * s.parN Par.ALN.READ_HOLD_MS pod
    deep := s.parB Par.ALN.DEEP_WAIT pod, format := s.parN Par.ALN.FORMAT pod
    dests := (List.range 4).map (fun d => s.par Par.ALN.DEST (4 * pod + d))
    idcode := s.parN Par.ALN.C37_IDCODE pod, fnom := s.parN Par.ALN.C37_FNOM pod, commit := (s.podMade pod).1
    boundary := (s.podMade pod).2 }

/-- The pod runs: ALN.POD_ENABLE is 1 (R150). -/
def State.podOn (s : State) (pod : Nat) : Bool := s.parB Par.ALN.POD_ENABLE pod

/-- The nominal time of slot `k` of second `S` at rate `r` (R151). -/
def gridNs (r sS k : Nat) : Nat := sS * sec + (k * sec + r / 2) / r

/-- The distance of two instants. -/
def gap (a b : Nat) : Nat := if a < b then b - a else a - b

/-- The grid instant at rate `r` within `tol` of `t`, if there is one (R154). -/
def gridNear (r tol t : Nat) : Option Nat :=
  let k := t % sec * r / sec
  let a := gridNs r (t / sec) k
  let b := gridNs r (t / sec) (k + 1)
  if gap t a ≤ tol then some a else if gap t b ≤ tol then some b else none

/-- `t` is a grid instant at rate `r` (R151). -/
def isGrid (r t : Nat) : Bool := (gridNear r 0 t).isSome

end Sys2Proof.Machine
end

