-- ==== Sys2Proof/Machine/Alignment.lean ====
section
/-! DEFINITION. The alignment matrix (06): placing entries into slots, closing and substitution, late entries and
editions, the horizon and release, steps, commits, reset and quiesce, and the pod output. -/

namespace Sys2Proof.Machine

open Sys2Proof

/-! ### Slots -/

/-- Replace a slot of a pod. -/
def State.setSlot (s : State) (p g : Nat) (x : Slot) : State :=
  let pod := s.podSt p
  s.setPod p { pod with slots := pod.slots.set g x }

/-- A slot of a pod, by its nominal time. -/
def State.slot? (s : State) (p g : Nat) : Option Slot := (s.podSt p).slots.get? g

/-- Count over the module and for a pod (R185). -/
def State.countPod (s : State) (id p n : Nat) : State := if n = 0 then s else s.count2 id (p + 1) n

/-- A slot just opened under a definition; `awaited` is its awaited set (R158). -/
def Slot.fresh (d : PodDef) (awaited : List Nat) : Slot :=
  { defn := d, closed := false, causes := [], closedAt := 0, awaited := awaited, arrived := [], missing := []
    entries := [], stamps := [], late := [], pendingL := [], edition := 0, batchAt := none, horizonAt := 0, final := false
    ready := false }

/-- The deadline tick of a slot: the first whole microsecond at or after its nominal time plus ALN.WAIT_NS (R158). -/
def deadlineTick (d : PodDef) (g : Nat) : Nat := ceilTo 1000 (g + d.waitNs)

/-- The awaited set of a slot that opens now (R158). -/
def State.awaitedSet (s : State) (d : PodDef) : List Nat :=
  let ms := d.members.filter (fun m => m.kind != 4)
  (match d.policy with
    | 2 => ms.filter (fun (m : Member) => decide (1000 * (s.src m.src).p95 ≤ d.waitNs))
    | _ => ms.filter (fun (m : Member) => (s.src m.src).st != 3)).map Member.src

/-- Slots may open: the device measures, the unit runs and does not drain (R28, R174, R175). -/
def State.opensSlots (s : State) : Bool :=
  s.measuring && s.runs 4 && s.ctl.drain.all (fun d => d.1 != 4)

/-- Open the slot of a pod at a grid instant (R155). -/
def State.openSlot (s : State) (p g : Nat) : State :=
  let d := s.podDef p
  s.setSlot p g (Slot.fresh d (s.awaitedSet d))

/-- The grid instant may open a slot of the pod: it is on the grid, not before the pod's first, and its slot has not been
held before (R155, R172, R173). -/
def State.mayOpen (s : State) (p g : Nat) : Bool :=
  let pod := s.podSt p
  s.opensSlots && s.podOn p && isGrid (s.parN Par.ALN.SLOT_RATE p) g && decide (pod.openFrom ≤ g) &&
    (pod.slots.get? g).isNone && (match pod.timed with | some t => decide (t < g) | none => true)

/-- A position is PRESENT in the slot, late entries included (R156). -/
def Slot.present (x : Slot) (pos : Nat) : Bool :=
  ((x.entries.get? pos).any (fun e => qHas e.quality qPresent)) || (x.pendingL.get? pos).isSome ||
    x.late.any (fun l => l.2.1 == pos)

/-- The entry of a position in edition `n` of a closed slot: rebuilt from the first edition and the late entries of
editions 1 to `n` (R180). -/
def Slot.entryAt (x : Slot) (n pos : Nat) : Entry :=
  match (x.late.filter (fun l => decide (l.1 ≤ n) && l.2.1 == pos)).getLast? with
  | some l => l.2.2
  | none => (x.entries.get? pos).getD { v := 0x7FC00000, q := 0xF000FFFF }

/-- The latest edition of a closed slot, every position in order. -/
def Slot.view (x : Slot) (n : Nat) : List Entry := (List.range x.defn.positions.length).map (x.entryAt n)

/-- The positions of an edition that are substituted. -/
def substitutedIn (es : List Entry) : Nat := (es.filter (fun e => !qHas e.quality qPresent)).length

/-! ### Pod output (R176 to R179, R182) -/

/-- The peer of an ALN.DEST value. -/
def destPeer (w : List Word) : Peer :=
  { addr := ofBe (wordsBe ((w.drop 1).take 4)), port := wordBits w 0 15 0 }

/-- The OAF header as eight words (R176). -/
def oafHeader (p type edition cause index count : Nat) (commit : Word) (g first items positions : Nat) : List Word :=
  [BitVec.ofNat 32 (0x01000000 + type * 65536 + edition * 4096 + cause * 256 + p), BitVec.ofNat 32 (index * 65536 + count),
   commit, BitVec.ofNat 32 (gtfOf g / 2 ^ 32), BitVec.ofNat 32 (gtfOf g), BitVec.ofNat 32 first,
   BitVec.ofNat 32 (items * 65536), BitVec.ofNat 32 positions]

/-- POD_DATA carries the header with the GTF low word first (R182). -/
def podDataHeader (h : List Word) : List Word := h.take 3 ++ [h.getD 4 0, h.getD 3 0] ++ h.drop 5

/-- Cut items into segments of at most `k` (R119); an edition without items is one empty segment. -/
def segmentsOf {α : Type} (k : Nat) : Nat → List α → List (List α)
  | 0, _ => []
  | n + 1, l => if l.length ≤ k then [l] else l.take k :: segmentsOf k n (l.drop k)

/-- What the formatter sends: an edition or a layout, its items with their positions. -/
structure OafOut where
  type    : Nat
  edition : Nat
  cause   : Nat
  commit  : Word
  g       : Nat
  total   : Nat
  items   : List (Nat × List Word)
  deriving DecidableEq, Repr

/-- The segments of an output with at most `k` items each, as the words of header and items (R176). -/
def OafOut.segments (o : OafOut) (p k : Nat) : List (List Word × List Word) :=
  let segs := segmentsOf (max k 1) (o.items.length + 1) o.items
  ((List.range segs.length).zip segs).map (fun x =>
    (oafHeader p o.type o.edition o.cause x.1 segs.length o.commit o.g
       (if o.type = 1 then 0 else (x.2.head?.map Prod.fst).getD 0) x.2.length o.total,
     x.2.flatMap Prod.snd))

/-- The size of an item in bytes (R176). -/
def oafItem : Nat → Nat
  | 0 => 8
  | 1 => 12
  | _ => 4

/-- The port takes output: its link is up and unit 0x01 runs (R179). -/
def State.portTakes (s : State) (n : Nat) : Bool := s.linkIsUp n && s.runs 1

/-- Discard output for a port whose link is down (R179). -/
def State.dropEgress (s : State) (p n k : Nat) : State := (s.countPod 0x040E p k).count 0x0114 n k

/-- Send OAF segments to a UDP destination (R176, R179). -/
def State.oafTo (s : State) (p : Nat) (w : List Word) (o : OafOut) : State :=
  let n := wordBits w 0 20 16
  let peer := destPeer w
  let mtu := s.parN Par.PRT.MAX_FRAME n - 22
  let segs := o.segments p ((mtu - (peerOverhead peer - 14) - 32) / oafItem o.type)
  if s.portTakes n then
    segs.foldl (fun s x => s.sendUdp n 3 (s.parN Par.ING.OCF_PORT 0) peer (wordsBe (x.1 ++ x.2))
      (some (.oaf n peer (x.1 ++ x.2)))) s
  else s.dropEgress p n segs.length

/-- Send POD_DATA to one destination (R182). A host ring named in ALN.DEST that has no free descriptor discards it, which
also counts as output discarded (R179). -/
def State.podDataTo (s : State) (p : Nat) (d : NoticeDest) (named : Bool) (o : OafOut) : State :=
  (o.segments p 5000).foldl (fun s x =>
    let lost := match d with | .ring r => (s.freeBuf r).isNone | _ => false
    let s := s.noticeTo d { opcode := 0xC00B, status := 0, unit := 4, epoch := (s.unit 4).epoch
                            payload := podDataHeader x.1 ++ x.2 }
    if named && lost then s.countPod 0x040E p 1 else s) s

/-- The full edition `n` of a slot (R177). -/
def Slot.fullOut (x : Slot) (g n cause : Nat) : OafOut :=
  let es := x.view n
  { type := 0, edition := n, cause := cause, commit := x.defn.commit, g := g, total := es.length
    items := ((List.range es.length).zip es).map (fun p => (p.1, [p.2.v, p.2.q])) }

/-- The positions an edition changed, with its entries, as a delta (R177). -/
def Slot.deltaOut (x : Slot) (g n cause : Nat) : OafOut :=
  { type := 1, edition := n, cause := cause, commit := x.defn.commit, g := g, total := x.defn.positions.length
    items := ((List.range x.defn.positions.length).filter (fun i => x.entryAt n i != x.entryAt (n - 1) i)).map
      (fun i => (i, [BitVec.ofNat 32 i, (x.entryAt n i).v, (x.entryAt n i).q])) }

/-- The layout of a definition (R176, R177). -/
def PodDef.layoutOut (d : PodDef) : OafOut :=
  { type := 2, edition := 0, cause := 0, commit := d.commit, g := d.boundary, total := d.positions.length
    items := ((List.range d.positions.length).zip d.positions).map
      (fun p => (p.1, [BitVec.ofNat 32 (p.2.unit * 2 ^ 24 + p.2.kind * 2 ^ 22 + p.2.index)])) }

/-- The STAT word of a block's entries (R178). -/
def c37Stat (es : List Entry) (edition : Nat) : Nat :=
  let has := fun b => es.any (fun e => qHas e.quality b)
  let worst := (es.map (fun e => qTq e.quality)).foldl max 0
  (if !(has qPresent) && !(has qSubst) then 0xC000
    else if has qInvalid || has qPoison then 0x4000 else if has qTest then 0x8000 else 0) +
  bitAt (has qUnlocked) 13 + bitAt (has qSubst || has qLate || decide (0 < edition)) 9 +
  64 * (if worst ≤ 2 then 1 else if worst ≤ 5 then 2 else if worst ≤ 8 then 3 else if worst ≤ 11 then 4
    else if worst = 12 then 5 else if worst = 13 then 6 else 7) + edition

/-- The data part of one block: STAT, phasors, FREQ, DFREQ, analogues, digitals (R178). -/
def c37Block (m : Member) (es : List Entry) (edition : Nat) : List Byte :=
  let (ph, an, dg) := m.layout.getD (0, 0, 0)
  let v := fun q => (es.getD q { v := 0, q := 0 }).v
  beBytes 2 (c37Stat es edition) ++
    (List.range ph).flatMap (fun k => beBytes 4 (v (2 + 2 * k)).toNat ++ beBytes 4 (v (3 + 2 * k)).toNat) ++
    beBytes 4 (v 0).toNat ++ beBytes 4 (v 1).toNat ++
    (List.range an).flatMap (fun k => beBytes 4 (v (2 + 2 * ph + k)).toNat) ++
    (List.range dg).flatMap (fun k => beBytes 2 ((v (2 + 2 * ph + an + k)).toNat % 65536))

/-- The entries of each member, in position order. -/
def memberEntries : List Member → List Pos → List Entry → List (Member × List Entry)
  | [], _, _ => []
  | m :: ms, ps, es =>
    let k := (ps.takeWhile (fun p => p.src == m.src)).length
    (m, es.take k) :: memberEntries ms (ps.drop k) (es.drop k)

/-- The data frame of an edition (R178). -/
def State.c37Frame (s : State) (g : Nat) (x : Slot) (n : Nat) : List Byte :=
  let es := x.view n
  s.c37Sealed 0xAA01 x.defn.idcode g ((es.map (fun e => qTq e.quality)).foldl max 0)
    ((memberEntries x.defn.members x.defn.positions es).flatMap (fun m => c37Block m.1 m.2 n))

/-- The client of a TYPE 2 destination: the connection to its listening port (R179). -/
def State.c37Client (s : State) (i : Nat) (w : List Word) : Option Nat :=
  (s.ctl.tcp.find? (fun c => c.2.use == 2 && c.2.owner == i && c.2.port == wordBits w 0 20 16 &&
    c.2.lport == wordBits w 0 15 0)).map Prod.fst

/-- Send a C37.118.2 frame of a pod to its destination `d`, `kind` 0 data, 2 CFG-2, 3 CFG-3: by UDP from ING.C37_UDP_PORT
(log 13), or on its client's connection, at rank 3 (R116, R179). -/
def State.c37To (s : State) (p d : Nat) (w : List Word) (kind : Nat) (bytes : List Byte) : State :=
  let n := wordBits w 0 20 16
  let msg : Output := .c37 p d kind (beWords ((bytes.length + 3) / 4) (padTo (4 * ((bytes.length + 3) / 4)) bytes))
  if !s.portTakes n then s.dropEgress p n 1
  else if wordBits w 0 31 24 = 1 then s.sendUdp n 3 (s.parN Par.ING.C37_UDP_PORT 0) (destPeer w) bytes (some msg)
  else match s.c37Client (4 * p + d) w with
    | some k => s.sendTcp k 3 bytes (some msg)
    | none => s

/-- Destination `d` of a pod takes C37.118.2 output now (R179). -/
def State.c37On (s : State) (p d : Nat) (w : List Word) : Bool :=
  let i := 4 * p + d
  if wordBits w 0 31 24 = 1 then !s.aln.txOff.contains (i, w)
  else s.aln.txOn.contains (i, w) && (s.c37Client i w).isSome

/-- Send edition `n` of a slot to one destination (R177 to R179). -/
def State.editionTo (s : State) (p g : Nat) (x : Slot) (n : Nat) (o : OafOut) (d : Nat) : State :=
  let w := x.defn.dests.getD d []
  match wordBits w 0 31 24 with
  | 1 =>
    if x.defn.format = 0 then s.oafTo p w o
    else if s.c37On p d w then s.c37To p d w 0 (s.c37Frame g x n) else s
  | 2 =>
    if x.defn.format = 0 then s.countPod 0x040E p 1
    else if s.c37On p d w then s.c37To p d w 0 (s.c37Frame g x n) else s
  | 3 => s.podDataTo p (.ring (wordBits w 0 23 16)) true o
  | _ => s

/-- The subscriptions of a pod. -/
def State.subsOf (s : State) (p : Nat) : List Subscription := s.ctl.subs.filter (fun x => x.pod == p)

/-- Pods put out: in SAFE and RUN (R28, R466). -/
def State.podOut (s : State) : Bool := s.measuring

/-- Send the layout of a pod (R177, R181): to its OAF destinations, and after a commit to the subscribers that asked. -/
def State.sendLayout (s : State) (p : Nat) (d : PodDef) (commit : Bool) : State :=
  let o := d.layoutOut
  let s := d.dests.foldl (fun s w =>
    match wordBits w 0 31 24 with
    | 1 => if d.format = 0 then s.oafTo p w o else s
    | 3 => s.podDataTo p (.ring (wordBits w 0 23 16)) true o
    | _ => s) s
  if commit then
    ((s.subsOf p).filter (fun x => x.layout)).foldl (fun s x => s.podDataTo p x.dest false o) s
  else s

/-- The layout goes out before a first edition: after a commit or boot before the first of the definition in force, and before the
next of any slot when its period has passed (R177). -/
def State.layoutFirst (s : State) (p : Nat) (d : PodDef) : State :=
  let pod := s.podSt p
  let made := pod.layoutDue && (d.commit, d.boundary) == s.podMade p
  if made || pod.layoutRep then
    (s.sendLayout p d made).setPod p { (s.sendLayout p d made).podSt p with layoutDue := pod.layoutDue && !made, layoutRep := false }
  else s

/-- Send edition `n` of a slot to every destination and subscriber; edition 0 in full after a layout that is due, revised
editions as deltas (R177, R179, R181). -/
def State.egress (s : State) (p g : Nat) (x : Slot) (n cause : Nat) : State :=
  if s.podOut then
    let s := if n = 0 then s.layoutFirst p x.defn else s
    let o := if n = 0 then x.fullOut g n cause else x.deltaOut g n cause
    let s := (List.range 4).foldl (fun s d => s.editionTo p g x n o d) s
    (s.subsOf p).foldl (fun s y => s.podDataTo p y.dest false o) s
  else s

/-- SLOT_EVENT of edition `n` (R183). `issued`: the edition is being issued, not only made final. -/
def State.slotEvent (s : State) (p g : Nat) (x : Slot) (n cause : Nat) (issued : Bool) : State :=
  let mask := s.parN Par.ALN.SLOT_EVENT_MASK p
  let subst := substitutedIn (x.view n)
  if s.podOut && ((issued && mask.testBit cause) ||
      (issued && n == 0 && cause == 1 && !x.missing.isEmpty && mask.testBit 8) ||
      (x.final && decide (0 < subst) && mask.testBit 9)) then
    s.notify 0xC001 0 4
      ([BitVec.ofNat 32 (p * 2 ^ 24 + n * 2 ^ 20 + cause * 2 ^ 16 + bitAt x.final 0)] ++ gtfWords g ++
       [BitVec.ofNat 32 (x.awaited.length * 65536 + x.missing.length), BitVec.ofNat 32 subst])
  else s

/-! ### Substitution (R157, R163, R164) -/

/-- The bits HOLD_LAST keeps: TQ, POISON, TEST, OPEN_WIRE, OVR, TIME_UNLOCKED, SRC_INVALID (R163). -/
def substKeep : Nat := 0xF33C

/-- A substituted word Q: quality word and LAG 0xFFFF. -/
def substQ (q : Half) : Word := q ++ (0xFFFF : Half)

/-- The PRESENT entries of a slot's latest edition, by catalogue index. -/
def Slot.presents (x : Slot) : List (Nat × Entry) :=
  (((List.range x.defn.positions.length).zip x.defn.positions).map (fun p => (p.2.index, x.entryAt x.edition p.1))).filter
    (fun e => qHas e.2.quality qPresent)

/-- The PRESENT entries of a catalogue index in the latest editions of the closed slots before `g`, released or not, newest first,
with their nominal times, back to `lo` (R164). -/
def Pod.earlier (pod : Pod) (g lo index : Nat) : List (Nat × Entry) :=
  let held := (pod.slots.filter (fun z => decide (z.1 < g) && decide (lo ≤ z.1) && z.2.closed)).filterMap
    (fun z => (z.2.presents.find? (fun e => e.1 == index)).map (fun e => (z.1, e.2)))
  let gone := (pod.past.filter (fun z => decide (z.1 < g) && decide (lo ≤ z.1))).filterMap
    (fun z => (z.2.find? (fun e => e.1 == index)).map (fun e => (z.1, e.2)))
  (held ++ gone).mergeSort (fun a b => decide (b.1 ≤ a.1))

/-- LINEAR's value, exact and rounded once; not finite values follow R14. -/
def linearValue (rad : Bool) (v1 v0 : Word) (t t1 t0 : Nat) : Word :=
  match (f32Val v1).rat?, (f32Val v0).rat? with
  | some a, some b =>
    let x := a + (a - b) * ((t : Rat) - t1) / ((t1 : Rat) - t0)
    f32OfRat (if rad then wrapRad x else x)
  | _, _ => f32Of ((f32Val v1).add ((((f32Val v1).sub (f32Val v0)).mul (FVal.ofRat ((t : Rat) - t1))).div
      (FVal.ofRat ((t1 : Rat) - t0))))

/-- The substituted entry of a position (R163, R164). -/
def substitute (d : PodDef) (pod : Pod) (g : Nat) (p : Pos) : Entry :=
  let nan : Entry := { v := 0x7FC00000, q := substQ 0xFC40 }
  let hold := fun (e : Entry) => Entry.mk e.v (substQ (qSet (e.quality &&& BitVec.ofNat 16 substKeep) 0x0440))
  match d.subst with
  | 0 => { v := 0x7FC00000, q := substQ 0xF000 }
  | 3 => nan
  | r =>
    match pod.earlier g (g - d.horizonNs - d.waitNs) p.index with
    | [] => nan
    | (t1, e1) :: rest =>
      match rest with
      | [] => hold e1
      | (t0, e0) :: _ =>
        if r = 2 ∧ p.kind = 0 then
          let q := qWithTq (e1.quality &&& BitVec.ofNat 16 substKeep) (max (qTq e1.quality) (qTq e0.quality))
          { v := linearValue (p.unit == 3) e1.v e0.v g t1 t0, q := substQ (qSet q 0x0840) }
        else hold e1

/-- The latest message of a GOOSE source whose stamp is not later than `g` (R157). -/
def gooseAt (l : List GooseMsg) (g : Nat) : Option GooseMsg :=
  l.foldl (fun best m => if m.stamp ≤ g then
    (match best with
      | some b => if b.stamp ≤ m.stamp then some m else best
      | none => some m) else best) none

/-- The entry a GOOSE member's position carries in a slot: PRESENT, lag 0 (R157). -/
def State.gooseEntry (s : State) (g : Nat) (p : Pos) : Option Entry :=
  let x := s.src p.src
  if x.st = 3 then none
  else match gooseAt x.goose g with
    | some m => (m.values.get? p.q).map (fun v => Entry.mk' v.1 (qSet v.2 qPresent) 0)
    | none => none

/-- The member of a definition a position belongs to is a GOOSE source. -/
def PodDef.isGoose (d : PodDef) (src : Nat) : Bool := d.members.any (fun m => m.src == src && m.kind == 4)

/-- The entry of position `i` in the first edition of a slot that closes now. -/
def State.closeEntry (s : State) (pod : Pod) (g : Nat) (x : Slot) (i : Nat) (p : Pos) : Entry :=
  match x.entries.get? i with
  | some e => e
  | none =>
    match (if x.defn.isGoose p.src then s.gooseEntry g p else none) with
    | some e => e
    | none => substitute x.defn pod g p

/-! ### Closing a slot (R159 to R163, R170) -/

/-- The alignment store gives back the entries of a slot that closes (R165). -/
def State.freeStore (s : State) (x : Slot) : State :=
  if x.defn.deep then s else { s with aln := { s.aln with storeUsed := s.aln.storeUsed - x.entries.length } }

/-- The positions of a tracker's used signals, in ascending signal number: signal, role, position (R195). -/
def State.mtSignals (s : State) (t : Nat) : List (Nat × Nat × Nat) :=
  let ws := s.par Par.MOD.MT_SIGNALS t
  ((List.range 64).filter (fun k => (ws.getD k 0).getLsbD 31)).map (fun k =>
    (k, wordBits ws k 27 24, wordBits ws k 17 0))

/-- Hand a first edition to the trackers of its pod, which read it later (R198). -/
def State.feedTrackers (s : State) (p g : Nat) (x : Slot) : State :=
  [0, 1, 2, 3].foldl (fun s t =>
    let m := s.osc.mt.getD t Mt.init
    if m.st != 0 && s.parN Par.MOD.MT_POD t == p && decide (m.fromGtf ≤ g) &&
        (match m.lastRead with | some l => decide (l < g) | none => true) then
      let es := (s.mtSignals t).map (fun k => x.entryAt 0 k.2.2)
      { s with osc := { s.osc with mt := s.osc.mt.put Mt.init t { m with buf := m.buf.set g es } } }
    else s) s

/-- The logic engine's snapshot sees a first edition unless one of a later slot came before (R333). -/
def State.feedLogic (s : State) (p g : Nat) (x : Slot) : State :=
  let pod := s.podSt p
  match pod.latest with
  | some (h, _) => if h < g then s.setPod p { pod with latest := some (g, x.view 0) } else s
  | none => s.setPod p { pod with latest := some (g, x.view 0) }

/-- Close an open slot with a cause and issue edition 0: substitution, counters, output and SLOT_EVENT. A deep-wait
edition reaches its consumers later, but at once in a reset, which empties the spill (R159, R163, R167, R174). -/
def State.closeSlotCore (s : State) (p g cause : Nat) : State :=
  match s.slot? p g with
  | none => s
  | some x =>
    if x.closed then s else
      let pod := s.podSt p
      let es := ((List.range x.defn.positions.length).zip x.defn.positions).map
        (fun z => (z.1, s.closeEntry pod g x z.1 z.2))
      let soon := !x.defn.deep || cause == 4
      let missing := x.awaited.filter (fun m => !x.arrived.contains m)
      let y : Slot := { x with
        closed := true, causes := [cause], closedAt := s.now, missing := missing, entries := es, stamps := []
        horizonAt := ceilTo 1000 (s.now + x.defn.horizonNs), final := x.defn.horizonNs == 0, ready := soon }
      let s := (s.freeStore x).setSlot p g y
      let s := s.setPod p { s.podSt p with lastClosed := some g }
      let s := (s.countPod 0x0401 p 1).countPod 0x040D p (substitutedIn (es.map Prod.snd))
      let s := if cause == 1 && !missing.isEmpty then s.countPod 0x0402 p 1 else s
      if !soon then s else (((s.feedTrackers p g y).feedLogic p g y).egress p g y 0 cause).slotEvent p g y 0 cause true

/-- The entries at the positions whose word from DRAM is poisoned carry POISON: word k holds position k (R395, log 68). -/
def poisonEntries (ws : List FifoWord) (es : AMap Entry) : AMap Entry :=
  es.map (fun e => (e.1, if ((ws[e.1]?).any FifoWord.poison) then e.2.withQuality (qSet e.2.quality qPoison) else e.2))

/-- A deep-wait edition assembled from DRAM becomes available to its consumers (R167). -/
def State.deepReady (s : State) (p g : Nat) : State :=
  match s.slot? p g with
  | none => s
  | some x =>
    if x.closed && !x.ready then
      let w := s.takeWords 68
      let s := w.1
      let y := { x with ready := true, entries := poisonEntries w.2 x.entries }
      let c := x.causes.headD 0
      ((((s.setSlot p g y).feedTrackers p g y).feedLogic p g y).egress p g y 0 c).slotEvent p g { y with final := y.defn.horizonNs == 0 } 0 c true
    else s

/-! ### Revised editions, horizon, release (R168 to R171) -/

/-- Issue the next edition of a slot with its pending late entries (R169). -/
def State.revise (s : State) (p g : Nat) (x : Slot) (cause : Nat) (final : Bool) : State :=
  let n := x.edition + 1
  let y : Slot := { x with
    late := x.late ++ x.pendingL.map (fun e => (n, e.1, e.2)), pendingL := [], edition := n
    causes := x.causes ++ [cause], batchAt := none, final := final }
  ((((s.setSlot p g y).countPod 0x040C p 1).egress p g y n cause)).slotEvent p g y n cause true

/-- Make a closed slot final: its held late entries go out as a last edition with `cause`, and the latest edition becomes
final (R169, R170). -/
def State.finish (s : State) (p g cause : Nat) : State :=
  match s.slot? p g with
  | none => s
  | some x =>
    if !x.closed || x.final then s
    else if x.pendingL.isEmpty then
      let y := { x with final := true, batchAt := none }
      (s.setSlot p g y).slotEvent p g y x.edition (x.causes.getLastD 0) false
    else s.revise p g x cause true

/-- The slots of every pod: pod, nominal time, slot. -/
def State.allSlots (s : State) : List (Nat × Nat × Slot) :=
  s.aln.pod.flatMap (fun p => p.2.slots.map (fun z => (p.1, z.1, z.2)))

/-- The matrix drains for a quiesce (R175). -/
def State.alnDraining (s : State) : Bool :=
  (s.unit 4).st == 1 || s.ctl.drain.any (fun d => d.1 == 4)

/-- While the matrix drains and no slot is open, each slot without a running batch timer becomes final (R175). -/
def State.drainFinals (s : State) : State :=
  if s.alnDraining && s.allSlots.all (fun z => z.2.2.closed) then
    (s.allSlots.filter (fun z => !z.2.2.final && z.2.2.batchAt.isNone)).foldl
      (fun s z => s.finish z.1 z.2.1 6) s
  else s

/-- Every slot is closed and final: the quiesce of the matrix completes (R175). -/
def State.alnDrained (s : State) : Bool := s.allSlots.all (fun z => z.2.2.closed && z.2.2.final)

/-- Close a slot (R159). -/
def State.closeSlot (s : State) (p g cause : Nat) : State := (s.closeSlotCore p g cause).drainFinals

/-- How long after its nominal time a slot's entries may still stand in for missing ones, in ns: twice the longest wait and the
longest horizon (R164). -/
def pastKeep : Nat := 6 * sec

/-- Release a slot from the revision store (R171); its PRESENT entries may still stand in for missing ones (R164). -/
def State.releaseSlot (s : State) (p g : Nat) : State :=
  match s.slot? p g with
  | none => s
  | some x =>
    let pod := s.podSt p
    let t := match pod.timed with | some t => max t g | none => g
    let past := AMap.set (pod.past.filter (fun z => decide (s.now < z.1 + pastKeep))) g (if x.closed then x.presents else [])
    let s := s.setPod p { pod with slots := pod.slots.erase g, timed := some t, past := past }
    { s with aln := { s.aln with lateUsed := s.aln.lateUsed - (x.late.length + x.pendingL.length) } }

/-- The values of an ALN.DEST instance that count: that in force while the pod runs, and those slots keep (R173). -/
def State.destValues (s : State) (i : Nat) : List (List Word) :=
  (if s.podOn (i / 4) then [s.par Par.ALN.DEST i] else []) ++
    ((s.podSt (i / 4)).slots.map (fun z => z.2.defn.dests.getD (i % 4) []))

/-- Connections of destinations that neither the definition in force nor a slot names any more close (R173, R179). -/
def State.pruneDests (s : State) (p : Nat) : State :=
  let gone := s.ctl.tcp.filter (fun (c : Nat × TcpConn) => c.2.use == 2 && c.2.owner / 4 == p &&
    !(s.destValues c.2.owner).any (fun w => wordBits w 0 31 24 == 2 && wordBits w 0 20 16 == c.2.port && wordBits w 0 15 0 == c.2.lport))
  let keep := fun (t : Nat × List Word) => t.1 / 4 != p || (s.destValues t.1).contains t.2
  let s := { s with aln := { s.aln with txOn := s.aln.txOn.filter keep, txOff := s.aln.txOff.filter keep } }
  gone.foldl (fun s c => s.tcpEnd c.1) s

/-- SLOT_OPEN: a slot opens at its nominal time (R155); its awaited set is fixed. -/
def execSlotOpen (dt : Nat) (pod slot : Nat) (s : State) : Out :=
  let s := s.advance dt
  .next (
    if decide (slot ≤ s.now) && s.mayOpen pod slot then
      let s := s.openSlot pod slot
      s.setPod pod { s.podSt pod with timed := some slot }
    else s)

/-- Every awaited member of a slot has arrived. -/
def Slot.allArrived (x : Slot) : Bool := x.awaited.all (fun m => x.arrived.contains m)

/-- SLOT_CLOSE_AT_NOMINAL: the first whole microsecond at or after the nominal time (R159). -/
def execSlotCloseAtNominal (dt : Nat) (pod slot : Nat) (s : State) : Out :=
  let s := s.advance dt
  .next (match s.slot? pod slot with
    | some x =>
      if !x.closed && x.defn.policy != 0 && decide (ceilTo 1000 slot ≤ s.now) && x.allArrived then
        s.closeSlot pod slot 0 else s
    | none => s)

/-- SLOT_DEADLINE_TICK (R159). -/
def execSlotDeadlineTick (dt : Nat) (pod slot : Nat) (s : State) : Out :=
  let s := s.advance dt
  .next (match s.slot? pod slot with
    | some x =>
      if !x.closed && decide (deadlineTick x.defn slot ≤ s.now) && (x.defn.policy == 0 || !x.allArrived) then
        s.closeSlot pod slot 1 else s
    | none => s)

/-- The batch timer of a slot expires: the next edition, with cause BATCH; while the matrix drains it is the final one
(R169, R175). -/
def State.batchExpiry (s : State) (p g cause : Nat) : State :=
  match s.slot? p g with
  | some x =>
    if x.final then s
    else (s.revise p g x cause (s.alnDraining && s.allSlots.all (fun z => z.2.2.closed))).drainFinals
  | none => s

/-- REV_BATCH_EXPIRY. -/
def execRevBatchExpiry (dt : Nat) (pod slot : Nat) (s : State) : Out :=
  let s := s.advance dt
  .next (match s.slot? pod slot with
    | some x => if x.batchAt.any (fun t => decide (t ≤ s.now)) then s.batchExpiry pod slot 5 else s
    | none => s)

/-- REV_HORIZON_EXPIRY (R170). -/
def execRevHorizonExpiry (dt : Nat) (pod slot : Nat) (s : State) : Out :=
  let s := s.advance dt
  .next (match s.slot? pod slot with
    | some x => if x.closed && decide (x.horizonAt ≤ s.now) then s.finish pod slot 6 else s
    | none => s)

/-- SLOT_RELEASE: ALN.READ_HOLD_MS after the horizon, and not before the nominal time (R171). -/
def execSlotRelease (dt : Nat) (pod slot : Nat) (s : State) : Out :=
  let s := s.advance dt
  .next (match s.slot? pod slot with
    | some x =>
      if x.closed && x.final && decide (x.horizonAt + x.defn.holdNs ≤ s.now) && decide (slot ≤ s.now) then
        (s.releaseSlot pod slot).pruneDests pod else s
    | none => s)

/-- DEEP_WAIT_EDITION_READY (R167). -/
def execDeepWaitEditionReady (dt : Nat) (pod slot : Nat) (s : State) : Out := .next ((s.advance dt).deepReady pod slot)

/-- OAF_LAYOUT_REPEAT: at a whole second that is a multiple of ALN.OAF_LAYOUT_S (R177). -/
def execOafLayoutRepeat (dt : Nat) (pod : Nat) (s : State) : Out :=
  let s := s.advance dt
  let n := s.parN Par.ALN.OAF_LAYOUT_S pod
  let x := s.podSt pod
  .next (if s.podOn pod && n != 0 && decide (s.now / sec % max n 1 = 0) then s.setPod pod { x with layoutRep := true } else s)

/-! ### Placing entries (R153 to R157, R165 to R168) -/

/-- An entry the classifier hands over: quantity, high word of a COUNT64, value, quality word (R140, R141). -/
structure InEntry where
  q    : Nat
  high : Bool
  v    : Word
  qual : Half
  deriving DecidableEq, Repr

/-- LAG of an arrival against a nominal time (R153). -/
def lagOf (arrival g : Nat) : Half := if arrival < g then 0 else BitVec.ofNat 16 (min ((arrival - g) / 1000) 0xFFFF)

/-- The position of an entry of a source in a definition. -/
def PodDef.find (d : PodDef) (src : Nat) (e : InEntry) : Option Nat :=
  d.positions.findIdx? (fun p => p.src == src && p.q == e.q && (p.kind == 3) == e.high)

/-- Entries of the alignment store (R165). -/
def storeSize : Nat := 5242880

/-- The open slot with the earliest deadline tick of the pods without deep-wait mode (R166). -/
def State.earliestDeadline (s : State) : Option (Nat × Nat) :=
  ((s.allSlots.filter (fun z => !z.2.2.closed && !z.2.2.defn.deep)).foldl (fun best z =>
    let t := deadlineTick z.2.2.defn z.2.1
    match best with
    | some (b : Nat × Nat × Nat) => if b.1 ≤ t then best else some (t, z.1, z.2.1)
    | none => some (t, z.1, z.2.1)) none).map (fun b => b.2)

/-- Close a slot with cause PRESSURE, count it, and log it at most once per second per pod (R166). -/
def State.pressureClose (s : State) (p g : Nat) : State :=
  let s := (s.closeSlot p g 2).countPod 0x0403 p 1
  let x := s.podSt p
  let l := x.press.filter (fun t => decide (s.now < t + sec)) ++ [s.now]
  let due := match x.pressAt with | some t => decide (t + sec ≤ s.now) | none => true
  let s := s.setPod p { x with press := l, pressAt := if due then some s.now else x.pressAt }
  if due then s.logEv 0x0401 4 s.now (evPar l.length p) else s

/-- Make room in the alignment store for one entry (R166). -/
def State.makeRoom (s : State) : State :=
  if storeSize ≤ s.aln.storeUsed then
    match s.earliestDeadline with
    | some (p, g) => s.pressureClose p g
    | none => s
  else s

/-- Late entries the revision store has room for (R171). -/
def lateSize : Nat := 16777216

/-- Write a late entry, or discard it (R156, R168, R169, R171, R175). `free`: a GOOSE message that the slot is to carry in
place of an older one (R157). -/
def State.lateEntry (s : State) (p g pos : Nat) (x : Slot) (e : Entry) (free : Bool) : State :=
  if x.final || decide (x.horizonAt ≤ s.now) ||
      (s.alnDraining && x.batchAt.isNone && s.allSlots.all (fun z => z.2.2.closed)) then s.countPod 0x0405 p 1
  else if !x.defn.revisions then s.countPod 0x0409 p 1
  else if !free && x.present pos then s.countPod 0x0408 p 1
  else if lateSize ≤ s.aln.lateUsed then s.countPod 0x040A p 1
  else
    let e' := e.withQuality (qSet (qClear e.quality 0x0C40) (qLate + qPresent))
    let b := match x.batchAt with
      | some t => some t
      | none => if x.edition < 14 then some (s.now + x.defn.batchNs) else none
    let more := if (x.pendingL.get? pos).isSome then 0 else 1
    let s := s.setSlot p g { x with pendingL := x.pendingL.set pos e', batchAt := b }
    { s with aln := { s.aln with lateUsed := s.aln.lateUsed + more } }.countPod 0x0404 p 1

/-- Deep-wait entries per second (R167). -/
def deepRate : Nat := 8000000

/-- Count an entry of a deep-wait pod into the arrival second's window; false above the rate (R167). -/
def State.deepTake (s : State) (arrival : Nat) : State × Bool :=
  let w := arrival / sec
  let n := (if s.aln.deepSec = w then s.aln.deepCount else 0) + 1
  ({ s with aln := { s.aln with deepSec := w, deepCount := n } }, decide (n ≤ deepRate))

/-- Write an entry into an open slot (R155, R165). -/
def State.openEntry (s : State) (p g pos stamp : Nat) (x : Slot) (e : Entry) : State :=
  let s := s.setSlot p g { x with entries := x.entries.set pos e, stamps := x.stamps.set pos stamp }
  if x.defn.deep then s
  else
    let u := s.aln.storeUsed + 1
    { s with aln := { s.aln with storeUsed := u, storePeak := max s.aln.storePeak u } }

/-- Put one entry at a position of a slot that is held (R155, R156, R166 to R168). -/
def State.putEntry (s : State) (p g pos stamp arrival : Nat) (e : Entry) : State :=
  match s.slot? p g with
  | none => s.countPod 0x0405 p 1
  | some x =>
    if x.closed then s.lateEntry p g pos x e false
    else if x.present pos then s.countPod 0x0408 p 1
    else if x.defn.deep then
      let (s, fit) := s.deepTake arrival
      if fit then s.openEntry p g pos stamp x e else s.countPod 0x040B p 1
    else
      let s := s.makeRoom
      match s.slot? p g with
      | none => s
      | some x => if x.closed then s.lateEntry p g pos x e false else s.openEntry p g pos stamp x e

/-- A member's frame has been written to an open slot: it has arrived, and the last awaited one closes the slot at or
after its nominal time with cause AWAITED (R158, R159). -/
def State.memberArrives (s : State) (p g src : Nat) : State :=
  match s.slot? p g with
  | none => s
  | some x =>
    if x.closed then s
    else
      let y := { x with arrived := if x.arrived.contains src then x.arrived else x.arrived ++ [src] }
      let s := s.setSlot p g y
      if y.defn.policy != 0 && y.awaited.contains src && !x.allArrived && y.allArrived && decide (g ≤ s.now) then
        s.closeSlot p g 0 else s

/-- Put the entries of one frame into a held slot at one fabric instant (R154). -/
def State.putFrame (s : State) (p g src stamp arrival : Nat) (d : PodDef) (es : List InEntry) : State :=
  let s := es.foldl (fun s e =>
    match d.find src e with
    | some pos => s.putEntry p g pos stamp arrival (Entry.mk' e.v e.qual (lagOf arrival g))
    | none => s) s
  s.memberArrives p g src

/-- The stamp lies more than ALN.FUTURE_LIMIT_MS ahead of the time base (R155). -/
def State.tooFar (s : State) (stamp : Nat) : Bool := decide (s.now + 1000000 * s.parN Par.ALN.FUTURE_LIMIT_MS 0 < stamp)

/-- Place the entries of one frame in one pod (R154, R155). -/
def State.placeInPod (s : State) (p src stamp arrival : Nat) (es : List InEntry) : State :=
  let held := (s.podSt p).slots.find? (fun z =>
    decide (gap stamp z.1 ≤ z.2.defn.tolNs) && z.2.defn.members.any (fun m => m.src == src))
  match held with
  | some (g, x) =>
    if s.tooFar stamp then s.countPod 0x0406 p es.length else s.putFrame p g src stamp arrival x.defn es
  | none =>
    if s.podOn p then
      let d := s.podDef p
      match d.members.find? (fun m => m.src == src) with
      | none => s
      | some m =>
        match gridNear d.rate d.tolNs stamp with
        | none => if m.rate = d.rate then s.countPod 0x0407 p es.length else s
        | some g =>
          if s.tooFar stamp then s.countPod 0x0406 p es.length
          else if s.mayOpen p g then (s.openSlot p g).putFrame p g src stamp arrival d es
          else s.countPod 0x0405 p es.length
    else s

/-- Place the entries of one frame in every pod (R150, R154). -/
def State.placeFrame (s : State) (src stamp arrival : Nat) (es : List InEntry) : State :=
  (List.range 64).foldl (fun s p =>
    if s.podOn p || !(s.podSt p).slots.isEmpty then s.placeInPod p src stamp arrival es else s) s

/-- The `n` entries of a GOOSE message stamped too far ahead are discarded in every pod that has its source (R155). -/
def State.gooseFuture (s : State) (src n : Nat) : State :=
  (List.range 64).foldl (fun s p => if s.podOn p && memberBit (s.par Par.ALN.MEMBERS p) src then s.countPod 0x0406 p n else s) s

/-- A GOOSE message that arrives after slots at or after its stamp have closed is a late entry in each of those within
its horizon that it now governs, with the lag of its arrival (R153, R157, R168). -/
def State.gooseLate (s : State) (src arrival : Nat) (m : GooseMsg) : State :=
  (s.allSlots.filter (fun z => z.2.2.closed && !z.2.2.final && decide (m.stamp ≤ z.2.1) && z.2.2.defn.isGoose src &&
      decide (gooseAt (s.src src).goose z.2.1 = some m))).foldl (fun s z =>
    ((List.range z.2.2.defn.positions.length).zip z.2.2.defn.positions).foldl (fun s i =>
      match (if i.2.src = src then m.values.get? i.2.q else none), s.slot? z.1 z.2.1 with
      | some v, some x => s.lateEntry z.1 z.2.1 i.1 x (Entry.mk' v.1 v.2 (lagOf arrival z.2.1)) true
      | _, _ => s) s) s

/-! ### Steps, commits, reset (R172 to R174) -/

/-- The instants of the matrix that a forward step from `a` to `b` passes, in their order: instant, pod, slot (R172). -/
def State.passedInstants (s : State) (a b : Nat) : List (Nat × Nat × Nat) :=
  let l := s.allSlots.flatMap (fun z =>
    let x := z.2.2
    (if x.closed then (x.batchAt.toList ++ (if x.final then [] else [x.horizonAt]))
     else [if x.defn.policy != 0 && x.allArrived then ceilTo 1000 z.2.1 else deadlineTick x.defn z.2.1]).map
      (fun t => (t, z.1, z.2.1)))
  (l.filter (fun t => decide (a < t.1) && decide (t.1 ≤ b))).mergeSort (fun u v => decide (u.1 ≤ v.1))

/-- One passed instant fires at the step (R172). -/
def State.fireStep (s : State) (t : Nat × Nat × Nat) : State :=
  match s.slot? t.2.1 t.2.2 with
  | none => s
  | some x =>
    if !x.closed then s.closeSlot t.2.1 t.2.2 (if x.defn.policy != 0 && x.allArrived then 0 else 3)
    else if x.batchAt = some t.1 then s.batchExpiry t.2.1 t.2.2 3
    else if x.horizonAt = t.1 then s.finish t.2.1 t.2.2 3 else s

/-- The grid instants at rate `r` after `a` up to `b`. -/
def gridBetween (r a b : Nat) : List Nat :=
  ((List.range (b / sec - a / sec + 1)).flatMap (fun i =>
    (List.range r).map (fun k => gridNs r (a / sec + i) k))).filter (fun g => decide (a < g) && decide (g ≤ b))

/-- The slots that a forward step creates and closes at once, with cause STEP; no other instant that it passes creates one
(R172). -/
def State.stepSlots (s : State) (p a b : Nat) : State :=
  if s.podOn p then
    let d := s.podDef p
    let s := (gridBetween d.rate (max a (b - d.waitNs - d.horizonNs - 1)) b).foldl (fun s g =>
      if s.mayOpen p g then (s.openSlot p g).closeSlot p g 3 else s) s
    s.setPod p { s.podSt p with timed := some (max b ((s.podSt p).timed.getD 0)) }
  else s

/-- A step of the time base, already made, from `a` to `b` (R172). -/
def State.alnStep (s : State) (a b : Nat) : State :=
  if a < b then
    let s := (s.passedInstants a b).foldl State.fireStep s
    (List.range 64).foldl (fun s p => s.stepSlots p a b) s
  else
    { s with aln := { s.aln with
        pod := s.aln.pod.map (fun p => (p.1, { p.2 with timed := p.2.timed.map (fun t => min t b) })) } }

/-- Re-form a slot that opened before the boundary of a commit at or after its nominal time (R173). -/
def State.reform (s : State) (p g : Nat) (x : Slot) : State :=
  let pod := s.podSt p
  let s := (s.freeStore x).setPod p { pod with slots := pod.slots.erase g }
  x.entries.foldl (fun s e =>
    match x.defn.positions[e.1]?, x.stamps.get? e.1 with
    | some q, some stamp =>
      if s.podOn p then
        let d := s.podDef p
        match gridNear d.rate d.tolNs stamp,
            d.find q.src { q := q.q, high := q.kind == 3, v := 0, qual := 0 } with
        | some g', some pos =>
          let s := if s.mayOpen p g' then s.openSlot p g' else s
          match s.slot? p g' with
          | some y =>
            if y.closed then s.lateEntry p g' pos y e.2 false
            else if y.present pos then s.countPod 0x0408 p 1
            else
              let s := s.openEntry p g' pos stamp y e.2
              match s.slot? p g' with
              | some z => s.setSlot p g' { z with
                  arrived := if z.arrived.contains q.src then z.arrived else z.arrived ++ [q.src] }
              | none => s
          | none => s.countPod 0x0407 p 1
        | _, _ => s.countPod 0x0407 p 1
      else s.countPod 0x0407 p 1
    | _, _ => s) s

/-- A commit touches a pod at a boundary (R173, R177, R181): the new definition's commit number and boundary, the layout
due, slots re-formed, subscriptions to a disabled pod ended. Slots of the new definition start at the boundary. -/
def State.podCommit (s : State) (p : Nat) (commit : Word) (boundary : Nat) : State :=
  let s := { s with ctl := { s.ctl with cfg := { s.ctl.cfg with pods := s.ctl.cfg.pods.set p (commit, boundary) } } }
  let s := s.setPod p { s.podSt p with layoutDue := true, openFrom := boundary }
  let s := if s.podOn p then s else { s with ctl := { s.ctl with subs := s.ctl.subs.filter (fun x => x.pod != p) } }
  (((s.podSt p).slots.filter (fun z => decide (boundary ≤ z.1) && !z.2.closed)).foldl (fun s z => s.reform p z.1 z.2) s).pruneDests p

/-- Close every open slot, fire every batch timer and make every slot final at once, all with cause RESET (R174). -/
def State.alnFinalise (s : State) : State :=
  let s := (s.allSlots.filter (fun z => !z.2.2.closed)).foldl (fun s z => s.closeSlotCore z.1 z.2.1 4) s
  let s := s.allSlots.foldl (fun s z => s.deepReady z.1 z.2.1) s
  (s.allSlots.filter (fun z => !z.2.2.final)).foldl (fun s z => s.finish z.1 z.2.1 4) s

/-- Empty the revision store and the spill (R174). -/
def State.alnClear (s : State) : State :=
  let s := s.allSlots.foldl (fun s z => s.releaseSlot z.1 z.2.1) s
  { s with aln := { s.aln with pod := s.aln.pod.map (fun (p : Nat × Pod) => (p.1, { p.2 with past := [] })) } }

/-! ### Commands (R178, R180, R181) -/

/-- `k` decimal digits of a number. -/
def digits (k n : Nat) : List Byte := (List.range k).map (fun i => BitVec.ofNat 8 (48 + n / 10 ^ (k - 1 - i) % 10))

/-- The name of a station (R178). -/
def stationName (src : Nat) : List Byte := [0x53, 0x52, 0x43] ++ digits 4 src

/-- The name of a channel: of a phasor by the q of its magnitude, of each bit of a digital word by the word's q (R178, log 13). -/
def channelName (q : Nat) : List Byte := 0x51 :: digits 3 q

/-- The channels of a block, in order: phasors, analogues, 16 for each digital word. -/
def channelQs (ph an dg : Nat) : List Nat :=
  (List.range ph).map (fun k => 2 + 2 * k) ++ (List.range an).map (fun k => 2 + 2 * ph + k) ++
    (List.range dg).flatMap (fun k => List.replicate 16 (2 + 2 * ph + an + k))

/-- A name in the form of a CFG-2 frame: 16 characters, or of a CFG-3 frame: its length first (log 13). -/
def c37Name (three : Bool) (l : List Byte) : List Byte :=
  if three then BitVec.ofNat 8 l.length :: l else l ++ List.replicate (16 - l.length) 0x20

/-- A field that R178 does not name: a free value (log 13). -/
def c37Free (src n place : Nat) : List Byte := beBytes n (Config.c37Field src place)

/-- The block of a member in a CFG-2 or CFG-3 frame: its name, FORMAT 0x000F, its counts and channel names, PHUNIT or PHSCALE with
the type of each phasor, FNOM, CFG_CNT (R178; log 13). -/
def PodDef.cfgBlock (d : PodDef) (three : Bool) (m : Member) : List Byte :=
  let (ph, an, dg) := m.layout.getD (0, 0, 0)
  let current := fun k => (d.positions.find? (fun x => x.src == m.src && x.q == 2 + 2 * k)).any (fun x => x.unit == 2)
  let free := c37Free m.src
  c37Name three (stationName m.src) ++ beBytes 2 (Config.c37BlockId m.src) ++ (if three then free 16 1000 else []) ++
    beBytes 2 0x000F ++ beBytes 2 ph ++ beBytes 2 an ++ beBytes 2 dg ++
    (channelQs ph an dg).flatMap (fun q => c37Name three (channelName q)) ++
    (if three then
      (List.range ph).flatMap (fun k => free 2 (2 + 2 * k) ++ [if current k then 8 else 0] ++ free 1 (3 + 2 * k) ++
        beBytes 4 0x3F800000 ++ beBytes 4 0) ++ (List.range an).flatMap (fun _ => beBytes 4 0x3F800000 ++ beBytes 4 0)
    else
      (List.range ph).flatMap (fun k => (if current k then 1 else 0) :: free 3 (2 + 2 * k)) ++
        (List.range an).flatMap (fun k => free 4 (2 + 2 * ph + k))) ++
    (List.range dg).flatMap (fun k => free 4 (2 + 2 * ph + an + k)) ++ (if three then free 21 1001 else []) ++
    beBytes 2 d.fnom ++ beBytes 2 (d.commit.toNat % 65536)

/-- The CFG-2 or CFG-3 frames of a definition: TIME_BASE, NUM_PMU, the blocks, DATA_RATE; a CFG-3 configuration too large for one
frame in several, by CONT_IDX; none for a CFG-2 configuration too large for its frame (R178; log 13). -/
def State.c37Configs (s : State) (d : PodDef) (three : Bool) : List (List Byte) :=
  let body := beBytes 4 1000000 ++ beBytes 2 d.members.length ++ d.members.flatMap (d.cfgBlock three) ++ beBytes 2 d.rate
  if three then
    let l := segmentsOf 65517 (body.length + 1) body
    ((List.range l.length).zip l).map (fun x =>
      s.c37Sealed 0xAA52 d.idcode s.now s.tq
        (beBytes 2 (if l.length = 1 then 0 else if x.1 + 1 = l.length then 65535 else x.1 + 1) ++ x.2))
  else if 65535 < 16 + body.length then [] else [s.c37Sealed 0xAA31 d.idcode s.now s.tq body]

/-- Send the configuration of a definition to its destination (R178, R179). -/
def State.c37SendConfig (s : State) (p k : Nat) (d : PodDef) (three : Bool) : State :=
  let l := s.c37Configs d three
  if l.isEmpty then s.countPod 0x040E p 1
  else l.foldl (fun s f => s.c37To p k (d.dests.getD k []) (if three then 3 else 2) f) s

/-- The definition of the pod whose destination `k` has this peer: that in force, else one that a slot keeps (R173, R178). -/
def State.c37Peer (s : State) (p k : Nat) (peer : Peer) : Option PodDef :=
  let i := 4 * p + k
  ((if s.podOn p then [s.podDef p] else []) ++ (s.podSt p).slots.map (fun z => z.2.defn)).find? (fun d =>
    let w := d.dests.getD k []
    d.format == 1 && ((wordBits w 0 31 24 == 1 && (destPeer w).addr == peer.addr) ||
      (wordBits w 0 31 24 == 2 && (s.c37Client i w).any (fun c => (s.ctl.tcp.get? c).any (fun t => t.peer == peer)))))

/-- Serve a C37.118.2 command of a destination's peer: 1 off, 2 on, 5 send CFG-2, 6 send CFG-3 (R178, R179; the codes are
the standard's, log 13). -/
def State.c37Command (s : State) (i : Nat) (peer : Peer) (command : Nat) : State :=
  let p := i / 4
  match s.c37Peer p (i % 4) peer with
  | none => s
  | some d =>
    let t := (i, d.dests.getD (i % 4) [])
    let on := s.aln.txOn.filter (fun x => x != t)
    let off := s.aln.txOff.filter (fun x => x != t)
    match command with
    | 1 => { s with aln := { s.aln with txOn := on, txOff := off ++ [t] } }
    | 2 => { s with aln := { s.aln with txOn := on ++ [t], txOff := off } }
    | 5 => s.c37SendConfig p (i % 4) d false
    | 6 => s.c37SendConfig p (i % 4) d true
    | _ => s.countPod 0x040E p 1

/-- C37_OUTPUT_COMMAND: `dest` is the instance of ALN.DEST. -/
def execC37OutputCommand (dt : Nat) (dest : Nat) (peer : Peer) (command : Nat) (s : State) : Out :=
  let s := s.advance dt
  .next (if s.measuring && s.runs 4 then s.c37Command dest peer command else s)

/-- What POD_READ_SLOT answers (R180). -/
def State.podReadSlot (s : State) (q : Req) : Option Ans :=
  let p := q.bits 4 31 24
  let gtf := q.dw 5
  let g := nsOf gtf
  let first := q.bits 7 17 0
  let count := q.bits 8 15 0
  if 63 < p ∨ count = 0 then err 0x0106
  else if 8000 < count then err 0x0116
  else if !s.podOn p then err 0x010E
  else
    match s.slot? p g with
    | none => if gtfValid gtf && isGrid (s.parN Par.ALN.SLOT_RATE p) g then err 0x0127 else err 0x0106
    | some x =>
      if !gtfValid gtf then err 0x0106
      else if !x.closed then err 0x010E
      else
        let n := if q.bits 4 8 8 = 1 then x.edition else q.bits 4 3 0
        let e := x.defn.positions.length
        if x.edition < n then err 0x0106
        else if e < first + count then err 0x0116
        else ok ([BitVec.ofNat 32 (p * 2 ^ 24 + n * 2 ^ 20 + x.causes.getD n 0 * 2 ^ 16 + bitAt x.final 1 + 1),
                  BitVec.ofNat 32 e, BitVec.ofNat 32 count] ++
                 (((x.view n).drop first).take count).flatMap (fun y => [y.v, y.q]))

/-- POD_READ_SLOT, opcode 0x0310. -/
def execPodReadSlot (dt : Nat) (q : Req) (s : State) : Out :=
  .next ((s.advance dt).serve q 0x0310 4 1 5 true (fun _ s => (s, s.podReadSlot q)))

/-- The destination a POD_SUBSCRIBE names: a host ring, or the requester on UDP or the UART (R181). -/
def subscriber (q : Req) : Option NoticeDest :=
  let r := q.bits 4 15 8
  if 56 ≤ r ∧ r ≤ 63 then some (.ring r)
  else if r = 0 then
    match q.carriage with
    | .udp4 n p => some (.peer (.udp4 n p))
    | .udp6 n p => some (.peer (.udp6 n p))
    | .uart => some .uart
    | _ => none
  else none

/-- What POD_SUBSCRIBE does (R181). -/
def State.podSubscribe (s : State) (q : Req) : State × Option Ans :=
  let p := q.bits 4 31 24
  let on := q.bits 4 0 0 = 1
  let layout := q.bits 4 1 1 = 1
  match subscriber q with
  | none => (s, err 0x0106)
  | some d =>
    if 63 < p then (s, err 0x0106)
    else
      let rest := s.ctl.subs.filter (fun x => !(x.pod == p && x.dest == d))
      let held := fun (s : State) => ok [BitVec.ofNat 32 s.ctl.subs.length]
      if on then
        if !s.podOn p then (s, err 0x010E)
        else if rest.length = s.ctl.subs.length ∧ 16 ≤ s.ctl.subs.length then (s, err 0x0117)
        else
          let s := { s with ctl := { s.ctl with subs := rest ++ [{ pod := p, dest := d, layout := layout }] } }
          let s := if layout && s.podOut then s.podDataTo p d false (s.podDef p).layoutOut else s
          (s, held s)
      else
        let s := { s with ctl := { s.ctl with subs := rest } }
        (s, held s)

/-- POD_SUBSCRIBE, opcode 0x0311. -/
def execPodSubscribe (dt : Nat) (q : Req) (s : State) : Out :=
  .next ((s.advance dt).serve q 0x0311 4 1 1 true (fun _ s => s.podSubscribe q))

end Sys2Proof.Machine
end

