-- ==== Sys2Proof/Machine/Topology.lean ====
section
/-! DEFINITION. Branch status (R215 to R219): what a status report makes of a branch, and the recompute its change starts
or joins; the run state of logic stations as sources die and revive (R341). -/

namespace Sys2Proof.Machine

open Sys2Proof

/-! ### Branches -/

/-- The instances of a parameter that do not hold its reset value, with their words. -/
def State.parList (s : State) (id : Nat) : List (Nat × List Word) :=
  (s.ctl.cfg.par.filter (fun p => p.1 / 65536 == id)).map (fun p => (p.1 % 65536, p.2))

/-- The fields of ARM.BRANCH (R215). -/
structure BranchDef where
  kind    : Nat
  badRule : Nat
  invert  : Bool
  from_   : Nat
  to_     : Nat
  bit     : Nat
  bit2    : Nat
  where_  : Nat
  deriving DecidableEq, Repr

/-- A branch definition from its words. -/
def branchDefOf (w : List Word) : BranchDef :=
  { kind := wordBits w 0 30 28, badRule := wordBits w 0 27 26, invert := (w.getD 0 0).getLsbD 25
    from_ := wordBits w 0 23 12, to_ := wordBits w 0 11 0, bit := wordBits w 1 31 27, bit2 := wordBits w 1 26 22
    where_ := wordBits w 1 21 0 }

/-- The used branches in force. -/
def State.branches (s : State) : List (Nat × BranchDef) :=
  ((s.parList Par.ARM.BRANCH).filter (fun p => (p.2.getD 0 0).getLsbD 31)).map (fun p => (p.1, branchDefOf p.2))

/-- A branch's run state. -/
def State.branch (s : State) (b : Nat) : Branch := s.arm.branch.getD b Branch.init

/-- Replace a branch's run state. -/
def State.setBranch (s : State) (b : Nat) (x : Branch) : State :=
  { s with arm := { s.arm with branch := s.arm.branch.put Branch.init b x } }

/-- Start a recompute with every branch at its effective state; the stamp and TEST of the latest change (R219). -/
def State.startRecompute (s : State) (stamp : Nat) (test : Bool) : State :=
  { s with arm := { s.arm with
      running := true, stamp := some (stamp, test), nextStamp := none
      branch := s.arm.branch.map (fun p => (p.1, { p.2 with applied := p.2.closed })) } }

/-- A change starts a recompute, or joins the next one while one runs (R219). -/
def State.needRecompute (s : State) (stamp : Nat) (test : Bool) : State :=
  if s.arm.running then
    let n := match s.arm.nextStamp with
      | some (t, b) => (max t stamp, b || test)
      | none => (stamp, test)
    { s with arm := { s.arm with nextStamp := some n } }
  else s.startRecompute stamp test

/-- Set a branch's effective state (R219). -/
def State.branchSet (s : State) (b : Nat) (closed : Bool) (stamp : Nat) (test : Bool) : State :=
  let x := s.branch b
  if x.closed = closed then s
  else ((s.setBranch b { x with closed := closed }).count 0x0802 0 1).needRecompute stamp test

/-- A status report: closed or open, intermediate, or bad (R217, R218). -/
inductive StatusRep where
  | valid (closed : Bool)
  | inter
  | bad
  deriving DecidableEq, Repr

/-- The state BAD_RULE names (R215, R218). -/
def badState (d : BranchDef) (x : Branch) : Bool :=
  match d.badRule with
  | 0 => true
  | 1 => false
  | _ => x.valid.getD true

/-- A branch becomes bad and takes the state BAD_RULE names (R218); `since` is the first report of an intermediate state that has
lasted too long. -/
def State.branchBad (s : State) (b : Nat) (d : BranchDef) (since : Option Nat) (stamp : Nat) (test : Bool) : State :=
  let x := s.branch b
  if x.bad then s.setBranch b { x with interAt := since }
  else
    let s := (s.setBranch b { x with bad := true, interAt := since, assumed := false }).count 0x0803 0 1
    (s.alarmT 8 5 b true test stamp).branchSet b (badState d x) stamp test

/-- What a report makes of a branch (R218): STATUS_BAD raised at the first bad report and cleared at the next valid one; an
intermediate report after any other holds the branch's state for ARM.TRAVEL_MS. -/
def State.branchReport (s : State) (b : Nat) (d : BranchDef) (r : StatusRep) (stamp : Nat) (test : Bool) : State :=
  let x := s.branch b
  match r with
  | .valid c =>
    let s := s.setBranch b { x with valid := some c, bad := false, interAt := none, assumed := false }
    (s.alarmT 8 5 b false test stamp).branchSet b c stamp test
  | .inter =>
    if x.interAt.isSome then s else s.setBranch b { x with interAt := some s.now, bad := false, assumed := false }
  | .bad => s.branchBad b d none stamp test

/-- The report of a status word (R217). -/
def statusOf (d : BranchDef) (w : Word) : StatusRep :=
  if d.kind = 2 ∨ d.kind = 5 then
    match 2 * bitAt (w.getLsbD d.bit) 0 + bitAt (w.getLsbD d.bit2) 0 with
    | 2 => .valid true
    | 1 => .valid false
    | 0 => .inter
    | _ => .bad
  else .valid (w.getLsbD d.bit != d.invert)

/-- The GOOSE branches of a source. -/
def State.gooseBranches (s : State) (src : Nat) : List (Nat × BranchDef) :=
  s.branches.filter (fun p => (p.2.kind == 4 || p.2.kind == 5) && bitsOf p.2.where_ 19 7 == src)

/-- A GOOSE message reports the branches that read it, without waiting for a pod (R217, R218). -/
def State.gooseReports (s : State) (src stamp : Nat) (m : GooseMsg) : State :=
  if s.measuring && s.runs 8 then
    (s.gooseBranches src).foldl (fun s p =>
      match m.values.get? (bitsOf p.2.where_ 6 0) with
      | some v => s.branchReport p.1 p.2 (if qHas v.2 (qInvalid + qPoison) then .bad else statusOf p.2 v.1) stamp (qHas v.2 qTest)
      | none => s) s
  else s

/-- A dead GOOSE source makes its branches bad (R218). -/
def State.gooseDies (s : State) (src : Nat) : State :=
  if s.measuring && s.runs 8 then
    (s.gooseBranches src).foldl (fun s p => s.branchReport p.1 p.2 .bad s.now false) s
  else s

/-- A GOOSE source that is no longer DEAD reports its branches again, from its latest message (R218). -/
def State.gooseLives (s : State) (src : Nat) : State :=
  match (s.src src).goose with
  | m :: _ => s.gooseReports src s.now m
  | [] => s

/-! ### Stations (R341) -/

/-- A station's run state. -/
def stationInit : Station :=
  { st := 0, seq := 0, sentAt := none, waiting := false, unacked := 0, points := [], sent := none, acked := false }

/-- The run state of the station of a source. -/
def State.station (s : State) (src : Nat) : Station := s.lgc.station.getD src stationInit

/-- Replace the run state of a station. -/
def State.setStation (s : State) (src : Nat) (x : Station) : State :=
  { s with lgc := { s.lgc with station := s.lgc.station.set src x } }

/-- A station becomes LOST: logged once and alarmed (R341). -/
def State.stationLost (s : State) (src : Nat) : State :=
  let x := s.station src
  if x.st = 0 ∨ x.st = 2 then s
  else ((s.setStation src { x with st := 2, waiting := false, unacked := 0 }).logEv 0x0A03 0x0A s.now (evPar 0 src)).alarm
    0x0A 2 src true s.now

/-- The source of a LOST station is live again: RECOVERING (R341). -/
def State.stationBack (s : State) (src : Nat) : State :=
  let x := s.station src
  if x.st = 2 then s.setStation src { x with st := 3, sent := none } else s

end Sys2Proof.Machine
end

