-- ==== Sys2Proof/Machine/Ingress.lean ====
section
/-! DEFINITION. The ingress classifier (05): frame checks, conversion of values, latency model and liveness, C37.118.2
configuration, and the source commands. -/

namespace Sys2Proof.Machine

open Sys2Proof

/-! ### Values (R140) -/

/-- Quality bits of a converted value: OVR for an infinite result, SRC_INVALID for a NaN (R140). -/
def valueBits (w : Word) : Nat :=
  match f32Val w with
  | .inf _ => qOvr
  | .nan => qInvalid
  | .fin _ _ => 0

/-- raw × SCALE + OFFSET in binary64, rounded once to binary32 (R140). -/
def scaled (raw : DWord) (m : Mapping) : Word := f32Of64 (f64Add (f64Mul raw (f64Of32 m.scale)) (f64Of32 m.offset))

/-- The entry of an F32 quantity with raw value `raw` and the frame's quality bits. -/
def entryF32 (q : Nat) (m : Mapping) (raw : DWord) (qual : Half) : InEntry :=
  let v := scaled raw m
  { q := q, high := false, v := v, qual := qSet qual (valueBits v + qPresent) }

/-- The entry of an invalid F32 quantity: a NaN, of free sign and payload (log 7), with SRC_INVALID (R131, R136). -/
def entryNan (q : Nat) (qual : Half) : InEntry :=
  { q := q, high := false, v := f32Nan, qual := qSet qual (qInvalid + qPresent) }

/-- The entry of a STATUS32 quantity. -/
def entryStatus (q : Nat) (w : Word) (qual : Half) : InEntry := { q := q, high := false, v := w, qual := qSet qual qPresent }

/-- The two entries of a COUNT64 quantity, low word first (R140). -/
def entryCount (q : Nat) (v : Nat) (qual : Half) : List InEntry :=
  [{ q := q, high := false, v := BitVec.ofNat 32 v, qual := qSet qual qPresent },
   { q := q, high := true, v := BitVec.ofNat 32 (v / 2 ^ 32), qual := qSet qual qPresent }]

/-- Bits of a quality word and its TQ. -/
def qMake (bits tq : Nat) : Half := BitVec.ofNat 16 (bits + tq * 4096)

/-! ### Acceptance (R125, R127, R144 to R146) -/

/-- Count over the module and for a source (R148). -/
def State.countSrc (s : State) (id src n : Nat) : State := if n = 0 then s else s.count2 id (src + 1) n

/-- The classifier runs (R28). -/
def State.ingRuns (s : State) : Bool := s.up && s.runs 3

/-- The latency model takes a lag in µs (R145). -/
def State.latency (s : State) (src : Nat) (lag : Int) : State :=
  let x := s.src src
  let k := s.parN Par.ING.LAT_SHIFT 0
  let step := s.parN Par.ING.LAT_STEP_US 0
  let l := min (max lag 0) (2 ^ 31 - 1)
  let s := if lag < 0 then s.countSrc 0x030F src 1 else s
  if x.seeded then
    let mean := ((x.mean : Int) + (l - x.mean) / (2 ^ k : Int)).toNat
    let p95 := if (x.p95 : Int) < l then min (x.p95 + 19 * step) (2 ^ 32 - 1) else x.p95 - step
    s.setSrc src { x with mean := mean, p95 := p95 }
  else s.setSrc src { x with seeded := true, mean := l.toNat, p95 := l.toNat }

/-- A frame shows a source alive: a DEAD source becomes live again and its alarm is cleared (R146). -/
def State.shownAlive (s : State) (src : Nat) : State :=
  let x := s.src src
  ((s.setSrc src { x with st := 2, aliveAt := s.now }).alarm 3 1 src false s.now).stationBack src

/-- A message without a new state shows a GOOSE source alive: if it was DEAD, its branches are reported again (R146, R218). -/
def State.revive (s : State) (src : Nat) : State :=
  if (s.src src).st = 3 then (s.shownAlive src).gooseLives src else s.shownAlive src

/-- Step 9 of R127: `n` more in the second of the arrival stamp; false above the limit. -/
def State.rateTake (s : State) (src rate arrival n : Nat) : State × Bool :=
  let x := s.src src
  let w := arrival / sec
  let c := (if x.winSecond = w then x.winCount else 0) + n
  (s.setSrc src { x with winSecond := w, winCount := c },
   decide (c * 100 ≤ rate * s.parN Par.ING.RATE_EXCESS_PCT 0))

/-- A frame is accepted: stamps, latency model from the first stamp, liveness, counters; its entries are placed unless the
device is in CONFIG (R144 to R148). -/
def State.accept (s : State) (src stamp arrival : Nat) (groups : List (Nat × List InEntry)) : State :=
  let s := s.latency src (((arrival : Int) - stamp) / 1000)
  let x := s.src src
  let s := (s.setSrc src { x with lastStamp := some stamp, lastArrival := some arrival, frames := x.frames + 1 }).shownAlive src
  if s.measuring then
    let s := (s.countSrc 0x0301 src 1).countSrc 0x0302 src ((groups.map (fun g => g.2.length)).sum)
    groups.foldl (fun s g => s.placeFrame src g.1 arrival g.2) s
  else s.countSrc 0x0313 src 1

/-- Steps 8 and 9 of R127, then acceptance. `n`: what step 9 counts. -/
def State.checkAccept (s : State) (src : Nat) (d : SrcDef) (stamp arrival n : Nat)
    (groups : List (Nat × List InEntry)) : State × Bool :=
  if (s.src src).lastStamp = some stamp then (s.countSrc 0x030B src 1, false)
  else if d.kind = 4 then (s.accept src stamp arrival groups, true)
  else
    let (s, fit) := s.rateTake src d.rate arrival n
    if fit then (s.accept src stamp arrival groups, true) else (s.countSrc 0x030C src 1, false)

/-- Keys the learn list holds (R126). -/
def learnSize : Nat := 256

/-- An unknown key: counted, and recorded in the learn list (R124, R126). The order in which SOURCE_QUERY gives the records is the
model's choice: the most recently seen first (log 15). -/
def State.unknown (s : State) (kind port : Nat) (key : List Byte) (arrival : Nat) : State :=
  let s := s.count 0x0303 0 1
  if s.parB Par.ING.LEARN_ENABLE 0 then
    let same := fun (r : Learn) => r.kind == kind && r.key == key
    let r : Learn := match s.ing.learn.find? same with
      | some r => { r with port := port, seen := r.seen + 1, last := arrival }
      | none => { kind := kind, port := port, key := key, seen := 1, first := arrival, last := arrival }
    { s with ing := { s.ing with learn := (r :: s.ing.learn.filter (fun r => !same r)).take learnSize } }
  else s

/-- A configuration mismatch: counted, and the state of a source that is not DEAD (R130, R133, R135). -/
def State.mismatch (s : State) (src : Nat) : State :=
  let x := s.src src
  (s.setSrc src { x with st := if x.st = 3 then 3 else 4 }).countSrc 0x0309 src 1

/-- A frame without a tag passes step 5 unless its source requires one (R127, R138). -/
def untaggedOk (d : SrcDef) : Bool := !d.tagRequired

/-! ### C37.118.2 (R129 to R132) -/

/-- The connection that carries a source's C37.118.2 frames, while it is up (R129). -/
def State.c37Conn (s : State) (src : Nat) : Option Nat :=
  (s.ctl.tcp.find? (fun c => c.2.use == 1 && c.2.owner == src)).map Prod.fst

/-- Send a C37.118.2 command to a station: over the source's TCP connection while it is up, else by UDP to the station's port (R129),
from ING.C37_UDP_PORT (log 13), at rank 4. -/
def State.c37SendTo (s : State) (src : Nat) (d : SrcDef) (command : Nat) : State :=
  let l := s.c37CommandFrame d.idcode command
  let msg := some (Output.c37Command src command)
  if d.c37Tcp then
    match s.c37Conn src with
    | some k => s.sendTcp k 4 l msg
    | none => s
  else
    match s.routePort d.station with
    | some n => s.sendUdp n 4 (s.parN Par.ING.C37_UDP_PORT 0) d.station l msg
    | none => s

/-- Send a command to the station of a source in force. -/
def State.c37Send (s : State) (src command : Nat) : State :=
  match s.srcDef src with
  | some d => s.c37SendTo src d command
  | none => s

/-- Request the CFG of a source: 5 "send CFG-2" or 6 "send CFG-3" (R129, R130). -/
def State.askCfg (s : State) (src : Nat) (d : SrcDef) : State :=
  (s.setSrc src { s.src src with cfgAskedAt := s.now }).c37Send src (if d.cfg3 then 6 else 5)

/-- The CFG matches the source: its data rate, and the block's numbers of phasors, analogues and digital words (R130). The
definition gives these by its number of quantities and their kinds in the order of R131 (DEDUCED, log 15). -/
def cfgMatches (d : SrcDef) (c : C37Cfg) : Bool :=
  c.dataRate == (d.rate : Int) && (c.blocks[d.block]?).any (fun b => d.follows b.phnmr b.annmr b.dgnmr)

/-- The message time quality of FRACSEC (R132). -/
def fracTq (s : State) (code : Nat) : Nat :=
  if code = 0 then s.parN Par.ING.C37_LOCKED_TQ 0
  else ([0, 0, 2, 5, 8, 11, 12, 13, 14, 14, 14].getD (code - 1) 15)

/-- The quality bits of a block from STAT and FRACSEC (R132). -/
def State.c37Quality (s : State) (stat : Nat) (fracsec : Nat) : Half :=
  let err := bitsOf stat 15 14
  let tq := match bitsOf stat 8 6 with
    | 0 => fracTq s (bitsOf fracsec 27 24)
    | n => [2, 5, 8, 11, 12, 13, 15].getD (n - 1) 15
  qMake ((if err % 2 = 1 then qInvalid else 0) + (if err = 2 then qTest else 0) + bitAt (stat.testBit 13) 3) tq

/-- A quality word with POISON where the bytes it was formed from are poisoned (R27, R395). -/
def qPoisoned (qual : Half) (bad : Bool) : Half := if bad then qSet qual qPoison else qual

/-- The entries of a block: every mapped quantity (R131, R140). `bad`: bytes of the frame are poisoned, by place and length. -/
def c37Entries (d : SrcDef) (b : C37Blk) (x : C37Block) (qual : Half) (bad : Nat → Nat → Bool) : List InEntry :=
  let vs := c37Values b x
  ((List.range d.maps.length).zip d.maps).map (fun m =>
    match vs[m.1]? with
    | some (v, a, n) =>
      let q := qPoisoned qual (bad a n)
      match v with
      | some v => entryF32 m.1 m.2 v q
      | none => entryNan m.1 q
    | none =>
      let w := x.digitals.getD (m.1 - vs.length) (0, 0)
      entryStatus m.1 (BitVec.ofNat 32 w.1) (qPoisoned qual (bad w.2 2)))

/-- The source stamp of a C37.118.2 frame: SOC and FRACSEC with the CFG's TIME_BASE, converted by R96; a SOC of the first
second after an inserted leap second with leap-second-occurred (FRACSEC bit 29) clear names the inserted second. -/
def State.c37Stamp (s : State) (soc : Nat) (fracsec : Nat) (timeBase : Nat) : Option Nat :=
  let fr := fracsec % 2 ^ 24
  if timeBase = 0 ∨ timeBase ≤ fr then none
  else
    let u : Int := ((soc : Int) - 946684800) * sec
    let x := s.tim
    let first : Int := s.utcOfTai x.leapAt
    let prev : Int := if x.leapDue then x.utcOffset else x.prevOffset.getD x.utcOffset
    let tai := if x.leapKind = 1 ∧ u = first ∧ !fracsec.testBit 29 then u + prev * sec else s.taiOfUtc u
    let t := tai + ((fr * sec + timeBase / 2) / timeBase : Nat)
    if 0 ≤ t ∧ t < 2 ^ 34 * sec then some t.toNat else none

/-- The sources of a stream: of kind 1, with its IDCODE and station (R124). -/
def State.streamOf (s : State) (idcode station : Nat) : List (Nat × SrcDef) :=
  (s.ctl.cfg.sources.map (fun p => (p.1, srcDefOf p.2))).filter
    (fun p => p.2.kind == 1 && p.2.idcode == idcode && p.2.station.addr == station)

/-- The configuration a stream's sources use. -/
def State.streamCfg (s : State) (l : List (Nat × SrcDef)) : Option C37Cfg := l.findSome? (fun p => (s.src p.1).cfg)

/-- The identity key of a block (R124). -/
def c37Key (idcode block station : Nat) : List Byte := beBytes 2 idcode ++ beBytes 1 block ++ beBytes 16 station

/-- Where block `k` of a configuration stands in a data frame (R131). -/
def C37Cfg.blockAt (c : C37Cfg) (k : Nat) : Nat := 14 + ((c.blocks.take k).map C37Blk.size).sum

/-- The length fields of a data frame fit: FRAMESIZE the frame, and the layout of the configuration in use (R128). -/
def c37Fits (c : Option C37Cfg) (l : List Byte) : Bool :=
  fld l 2 2 == l.length && c.all (fun c => c.blockAt c.blocks.length + 2 == l.length)

/-- The block of a source in a data frame, from step 4 of R127 on. `bad`: bytes of the frame are poisoned, by place and length. -/
def State.c37Take (s : State) (arrival : Nat) (l : List Byte) (bad : Nat → Nat → Bool) (src : Nat) (d : SrcDef) : State :=
  let x := s.src src
  if !c37Fits x.cfg l then s.countSrc 0x0306 src 1
  else if !untaggedOk d then s.countSrc 0x0307 src 1
  else
    match x.cfg with
    | none => s.countSrc 0x0308 src 1
    | some c =>
      match (if cfgMatches d c then c.blocks[d.block]? else none) with
      | none => s.mismatch src
      | some b =>
        match s.c37Stamp (fld l 6 4) (fld l 10 4) c.timeBase with
        | none => s.countSrc 0x030A src 1
        | some t =>
          let a := c.blockAt d.block
          let y := c37BlockAt b l a
          let qual := qPoisoned (s.c37Quality y.stat (fld l 10 4)) (bad 0 14 || bad a 2)
          (s.checkAccept src d t arrival 1 [(t, c37Entries d b y qual bad)]).1

/-- The configuration-change bit of a source's block: in STAT where the configuration in use puts the block, else in the first (R130). -/
def State.c37Changed (s : State) (l : List Byte) (src : Nat) (d : SrcDef) : Bool :=
  let c := (s.src src).cfg
  let a := if c37Fits c l then (c.map (fun c => c.blockAt d.block)).getD 14 else 14
  (fld l a 2).testBit 10

/-- A data frame, from step 3 of R127 on: each block of its stream for its source; a block that no source defines is an unknown key.
The configuration-change bit asks for the CFG again, whatever the later steps find (R130). -/
def State.c37Data (s : State) (port arrival station : Nat) (l : List Byte) (bad : Nat → Nat → Bool) : State :=
  let id := fld l 4 2
  let known := s.streamOf id station
  let blocks := if known.isEmpty then [0]
    else (List.range (((s.streamCfg known).map (fun c => c.blocks.length)).getD 0)).filter (fun k => known.all (fun p => p.2.block != k))
  let s := blocks.foldl (fun s k => s.unknown 1 port (c37Key id k station) arrival) s
  known.foldl (fun s p =>
    let ask := s.c37Changed l p.1 p.2
    let s := s.c37Take arrival l bad p.1 p.2
    if ask then s.askCfg p.1 p.2 else s) s

/-- A source's CFG has arrived: it is used from now on, its match sets the state, and a source that awaited it is told "turn on
transmission" (R130). A DEAD source stays DEAD until a frame is accepted (R146). -/
def State.setCfg (s : State) (c : C37Cfg) (src : Nat) (d : SrcDef) : State :=
  let x := s.src src
  let s := s.setSrc src { x with cfg := some c, st := if x.st = 3 then 3 else if cfgMatches d c then 2 else 4 }
  if x.cfg.isNone then s.c37Send src 2 else s

/-- The bytes of CFG-3 frames that a series may hold (R129). -/
def cfgPartSize : Nat := 65536

/-- The body of a CFG-3 frame joins its series by CONT_IDX, 0 one frame alone, 65,535 the last of several (R129; log 13): the state,
and the whole body, none while more is to come, or that the frame does not fit. -/
def State.cfgJoin (s : State) (idcode station idx : Nat) (body : List Byte) : State × Option (Option (List Byte)) :=
  let same := fun (p : CfgPart) => p.idcode == idcode && p.station == station
  let rest := s.ing.parts.filter (fun p => !same p)
  let held := s.ing.parts.find? same
  let keep := fun l => { s with ing := { s.ing with parts := l } }
  let all := (if idx ≤ 1 then [] else (held.map CfgPart.bytes).getD []) ++ body
  if idx = 0 then (keep rest, some (some body))
  else if cfgPartSize < all.length then (keep rest, some none)
  else if idx = 1 then (keep ({ idcode := idcode, station := station, next := 2, bytes := all } :: rest), none)
  else
    match held with
    | none => (s, some none)
    | some h =>
      if idx = 65535 then (keep rest, some (some all))
      else if idx = h.next then (keep ({ h with next := idx + 1, bytes := all } :: rest), none)
      else (keep rest, some none)

/-- A CFG-2 or CFG-3 frame, from step 3 of R127 on (R129, R130). -/
def State.c37CfgFrame (s : State) (port arrival station : Nat) (l : List Byte) : State :=
  let id := fld l 4 2
  let known := s.streamOf id station
  let bad := fun (s : State) => known.foldl (fun s p => s.countSrc 0x0306 p.1 1) s
  let three := c37Type l == 5
  let body := (l.drop 14).take (l.length - 16)
  if known.isEmpty then s.unknown 1 port (c37Key id 0 station) arrival
  else if fld l 2 2 != l.length then bad s
  else
    match (if three then s.cfgJoin id station (fld body 0 2) (body.drop 2) else (s, some (some body))) with
    | (s, none) => s
    | (s, some none) => bad s
    | (s, some (some whole)) =>
      match cfgOf three whole with
      | none => bad s
      | some c => known.foldl (fun s p => if untaggedOk p.2 then s.setCfg c p.1 p.2 else s.countSrc 0x0307 p.1 1) s

/-- A C37.118.2 frame (R127, R129): CFG-1 and header frames are ignored and counted, a command is none for the classifier. -/
def State.c37Receive (s : State) (port arrival station : Nat) (l : List Byte) (bad : Nat → Nat → Bool) : State :=
  if !c37Parses l then s.count 0x0304 0 1
  else if !chkGood l then s.count 0x0305 0 1
  else
    match c37Type l with
    | 0 => s.c37Data port arrival station l bad
    | 3 | 5 => s.c37CfgFrame port arrival station l
    | 4 => s
    | _ => s.count 0x0310 0 1

/-! ### Sampled values (R133, R134) -/

/-- The quality bits of an IEC 61850 quality (R134): validity in bits 1:0, overflow 2, outOfRange 3, failure 6, oldData 7,
inconsistent 8, source substituted 10, test 11 (the standard's bit numbers, PRESUMED, log 14). -/
def State.iecBits (s : State) (w : Word) : Nat :=
  let b := fun k => w.getLsbD k
  let validity := w.toNat % 4
  let bad := validity == 1 || (validity == 3 && s.parB Par.ING.SV_QUESTIONABLE 0) || b 10 || b 6 || b 8 || b 7
  bitAt bad 2 + bitAt (b 2 || b 3) 4 + bitAt (b 11) 8

/-- The quality of an ASDU from smpSynch (R134). -/
def svSync (d : SrcDef) (synch : Nat) : Half :=
  match synch with
  | 0 => qMake qUnlocked 15
  | 1 => qMake qUnlocked 14
  | _ => qMake 0 d.svTq

/-- The stamp of a sample: the whole second nearest to the arrival less smpCnt ÷ rate, plus smpCnt ÷ rate (R134). That an smpCnt ÷ rate
which is no whole ns is rounded to the nearest, half up, is the model's choice (log 13). -/
def svStamp (arrival smpCnt rate : Nat) : Nat :=
  let o := (smpCnt * sec + rate / 2) / max rate 1
  (arrival + sec / 2 - o) / sec * sec + o

/-- The entries of an ASDU: every quantity F32, whatever kind its mapping has (log 14). `bad`: bytes of the frame are poisoned, by
place and length. -/
def State.svEntries (s : State) (d : SrcDef) (a : SvAsdu) (bad : Nat → Nat → Bool) : List InEntry :=
  let first := ((a.pairs.head?).map (fun x => x.2.2)).getD a.at_
  let sync := qPoisoned (svSync d a.smpSynch) (bad 0 4 || bad a.at_ (first - a.at_))
  ((List.range d.maps.length).zip (d.maps.zip a.pairs)).map (fun m =>
    entryF32 m.1 m.2.1 (f64OfInt m.2.2.1.toInt) (qPoisoned (qSet sync (s.iecBits m.2.2.2.1)) (bad m.2.2.2.2 8)))

/-- Samples of a source that are kept. -/
def svKept : Nat := 1024

/-- Every sample goes to the custody engine and the capture engine at full rate (R134). -/
def State.keepSv (s : State) (src : Nat) (gs : List (Nat × List InEntry)) : State :=
  let x := s.src src
  let l := gs.map (fun g => ({ t := g.1, e := g.2.map (fun e => (e.v, e.qual)) } : SvSample))
  s.setSrc src { x with sv := (l.reverse ++ x.sv).take svKept }

/-- The ASDUs of one svID, from step 3 of R127 on. -/
def State.svTake (s : State) (port arrival : Nat) (f : SvFrame) (bad : Nat → Nat → Bool) (svid : List Byte) : State :=
  let asdus := f.asdus.filter (fun a => a.svid == svid)
  let key := beBytes 2 f.appid ++ svid
  match s.identify 2 key with
  | none => s.unknown 2 port key arrival
  | some (src, d) =>
    if !f.fits || decide (8 < f.count) || asdus.any (fun a => decide (d.n < a.pairs.length)) then s.countSrc 0x0306 src 1
    else if !untaggedOk d then s.countSrc 0x0307 src 1
    else if asdus.any (fun a => a.confRev != d.ident.getD 1 0) then s.mismatch src
    else if asdus.any (fun a => decide (d.rate ≤ a.smpCnt)) then s.countSrc 0x0311 src 1
    else
      let gs := asdus.map (fun a => (svStamp arrival a.smpCnt d.rate, s.svEntries d a bad))
      match gs with
      | [] => s
      | g :: _ =>
        let (s, taken) := s.checkAccept src d g.1 arrival gs.length gs
        if taken then s.keepSv src gs else s

/-- A sampled-value frame (R127, R133): the ASDUs of each svID are those of one source. -/
def State.svFrame (s : State) (port arrival : Nat) (l : List Byte) (bad : Nat → Nat → Bool) : State :=
  match svFrameOf l with
  | none => s.count 0x0304 0 1
  | some f => ((f.asdus.map SvAsdu.svid).eraseDups).foldl (fun s id => s.svTake port arrival f bad id) s

/-! ### GOOSE (R135, R136) -/

/-- One step of reading a dataset: the quantities so far, newest first, each with its quality bits. A Quality member applies to the
quantity before it, a Timestamp is skipped (R136). -/
def gooseMember (s : State) (qual : Half) (bad : Nat → Nat → Bool) (acc : List (GooseMember × Half)) (m : GooseMember × Nat × Nat) :
    List (GooseMember × Half) :=
  let b := bad m.2.1 m.2.2
  match m.1, acc with
  | .quality w, (v, q) :: rest => (v, qPoisoned (qSet q (s.iecBits w)) b) :: rest
  | .quality _, [] => []
  | .timestamp, _ => acc
  | v, _ => (v, qPoisoned qual b) :: acc

/-- The entry of a GOOSE quantity (R136). A member whose type does not fit the mapping's kind (a BOOLEAN on F32, an integer on
STATUS32) is written by its type, and of a COUNT64 mapping the low word alone: the model's choice (log 14). -/
def gooseQuantity (q : Nat) (m : Mapping) (v : GooseMember) (qual : Half) : InEntry :=
  match v with
  | .boolean b => entryStatus q (if b then 1 else 0) qual
  | .bits n w => if n ≤ 32 then entryStatus q w qual else entryNan q qual
  | .int i => if -2147483648 ≤ i ∧ i < 4294967296 then entryF32 q m (f64OfInt i) qual else entryNan q qual
  | .float w => entryF32 q m (f64OfFloat w) qual
  | _ => entryNan q qual

/-- The time quality of the quality octet of t: ClockFailure bit 6, ClockNotSynchronized bit 5, accuracy bits 4:0 (R136;
the standard's bit numbers, PRESUMED, log 14). -/
def gooseTime (octet : Nat) : Half :=
  let n := octet % 32
  qMake (bitAt (octet.testBit 5) 3) (if octet.testBit 6 || n == 31 then 15 else tqOf (1000000000 / (2 ^ n : Nat)))

/-- How long a GOOSE message may still be carried into slots, in ns: the longest wait, horizon and lead (R157). -/
def gooseKeep : Nat := 6 * sec

/-- Keep a message of a GOOSE source, with the older ones that slots may still carry. -/
def State.keepGoose (s : State) (src : Nat) (m : GooseMsg) : State :=
  let x := s.src src
  let old := x.goose.filter (fun g => decide (s.now < g.stamp + gooseKeep))
  let one := (x.goose.filter (fun g => decide (g.stamp + gooseKeep ≤ s.now))).take 1
  s.setSrc src { x with goose := m :: old ++ one }

/-- The instant of the t field, in ns of the time base (R96, R136). -/
def State.gooseStamp (s : State) (f : GooseFrame) : Int :=
  s.taiOfUtc (((f.tSec : Int) - 946684800) * sec) + ((f.tFrac * sec + 2 ^ 23) / 2 ^ 24 : Nat)

/-- A GOOSE message with a new stNum, from step 7 of R127 on (R135). -/
def State.gooseNew (s : State) (arrival : Nat) (f : GooseFrame) (src : Nat) (values : List InEntry) : State :=
  let t := s.gooseStamp f
  let x := s.src src
  if t < 0 ∨ 2 ^ 34 * sec ≤ t then s.countSrc 0x030A src 1
  else if x.lastStamp = some t.toNat then s.countSrc 0x030B src 1
  else
    let m : GooseMsg := { stamp := t.toNat, values := values.map (fun e => (e.q, e.v, e.qual)) }
    let far := s.tooFar t.toNat
    let s := (s.setSrc src { x with stNum := some f.stNum, ttlMs := f.ttlMs }).latency src (((arrival : Int) - t) / 1000)
    let s := if far then s else s.keepGoose src m
    let y := s.src src
    let s := (s.setSrc src { y with lastStamp := some t.toNat, lastArrival := some arrival, frames := y.frames + 1 }).shownAlive src
    let s := s.gooseReports src m.stamp m
    if s.measuring then
      let s := (s.countSrc 0x0301 src 1).countSrc 0x0302 src values.length
      if far then s.gooseFuture src values.length else s.gooseLate src arrival m
    else s.countSrc 0x0313 src 1

/-- A GOOSE frame (R127, R135): one with ndsCom set is ignored and counted, a retransmission refreshes liveness only. -/
def State.gooseFrame (s : State) (port arrival : Nat) (l : List Byte) (bad : Nat → Nat → Bool) : State :=
  match gooseFrameOf l with
  | none => s.count 0x0304 0 1
  | some f =>
    match s.identify 4 f.ref with
    | none => s.unknown 4 port f.ref arrival
    | some (src, d) =>
      let qual := qPoisoned (qSet (gooseTime f.tQual) (if f.sim then qTest else 0)) (bad 0 f.dataAt)
      let vs := (f.members.foldl (gooseMember s qual bad) []).reverse
      if f.ndsCom then s.countSrc 0x0310 src 1
      else if !f.fits || decide (d.n < vs.length) then s.countSrc 0x0306 src 1
      else if !untaggedOk d then s.countSrc 0x0307 src 1
      else if f.confRev != d.ident.getD 1 0 then s.mismatch src
      else
        let x := s.src src
        if x.stNum = some f.stNum then (s.setSrc src { x with ttlMs := f.ttlMs }).revive src
        else s.gooseNew arrival f src (((List.range d.maps.length).zip (d.maps.zip vs)).map (fun m =>
          gooseQuantity m.1 m.2.1 m.2.2.1 m.2.2.2))

/-! ### OCF (R137, R138) -/

/-- An OCF entry: index, kind, quality bits, value (R137). -/
structure OcfEntry where
  index : Nat
  kind  : Nat
  bits  : Nat
  value : Nat
  deriving DecidableEq, Repr

/-- Entry `k` of an OCF datagram. -/
def ocfEntry (l : List Byte) (k : Nat) : OcfEntry :=
  let a := 24 + 12 * k
  { index := fld l a 1, kind := fld l (a + 1) 1 / 64, bits := fld l (a + 2) 2, value := fld l (a + 4) 8 }

/-- The header and the entries are well-formed up to step 1 of R127: VERSION, TYPE, no KIND 3, no index twice. -/
def ocfParses (l : List Byte) : Bool :=
  let n := min (fld l 6 2) ((l.length - 24) / 12)
  let es := (List.range n).map (ocfEntry l)
  decide (24 ≤ l.length) && fld l 0 1 == 1 && decide (fld l 1 1 ≤ 2) && es.all (fun e => e.kind != 3) &&
    decide ((es.map OcfEntry.index).Nodup)

/-- The tag of a datagram is valid under a key: HMAC-SHA-256 over every byte before it, first 16 bytes (R138). -/
def ocfTagOk (key : List Byte) (l : List Byte) : Bool :=
  let k := l.length - 16
  decide ((hmac256 key (l.take k)).take 16 = l.drop k)

/-- Step 5 of R127 for an OCF frame (R138). -/
def State.ocfTag (s : State) (d : SrcDef) (l : List Byte) (tagged : Bool) : Bool :=
  if d.keySlot = 0 then tagged || !d.tagRequired
  else if tagged then
    match s.commsKey d.keySlot with
    | some k => ocfTagOk k l
    | none => false
  else !d.tagRequired

/-- One entry of a data frame, and whether its bytes are poisoned: skipped and counted, or its entries (R138). -/
def State.ocfTake (d : SrcDef) (src : Nat) (qual : Half) (acc : State × List InEntry) (e : OcfEntry × Bool) :
    State × List InEntry :=
  let (s, es) := acc
  let q := qPoisoned (qSet qual (e.1.bits &&& 0x0134)) e.2
  let e := e.1
  match d.maps[e.index]? with
  | none => (s.countSrc 0x030D src 1, es)
  | some m =>
    if m.kind != e.kind then (s.countSrc 0x030E src 1, es)
    else match e.kind with
      | 0 => (s, es ++ [entryF32 e.index m (f64OfFloat (e.value % 2 ^ 32)) q])
      | 1 => (s, es ++ entryCount e.index e.value q)
      | _ => (s, es ++ [entryStatus e.index (BitVec.ofNat 32 e.value) q])

/-- An OCF datagram, from step 1 of R127 on. Control-acks belong to the logic engine (R139). -/
def State.ocfFrame (s : State) (port arrival : Nat) (l : List Byte) (bad : Nat → Nat → Bool) : State :=
  if !ocfParses l then s.count 0x0304 0 1
  else
    let id := fld l 8 4
    match fld l 1 1 with
    | 1 => s.count 0x0310 0 1
    | 2 => s
    | _ =>
      match s.identify 3 (beBytes 4 id) with
      | none => s.unknown 3 port (beBytes 4 id) arrival
      | some (src, d) =>
        let tagged := (fld l 3 1) % 2 == 1
        let n := fld l 6 2
        if fld l 4 2 != l.length || l.length != 24 + 12 * n + (if tagged then 16 else 0) || decide (d.n < n) ||
            decide (128 < n) then s.countSrc 0x0306 src 1
        else if !s.ocfTag d l tagged then s.countSrc 0x0307 src 1
        else if !gtfValid (fld l 12 8) then s.countSrc 0x030A src 1
        else
          let t := nsOf (fld l 12 8)
          let st := fld l 21 1
          let qual := qPoisoned (qMake (bitAt (st.testBit 0) 3 + bitAt (st.testBit 1) 8 + bitAt (st.testBit 2) 2) (fld l 20 1 / 16)) (bad 0 24)
          if (s.src src).lastStamp = some t then s.countSrc 0x030B src 1
          else
            let (s, fit) := s.rateTake src d.rate arrival 1
            if !fit then s.countSrc 0x030C src 1
            else
              let (s, es) := ((List.range n).map (fun k => (ocfEntry l k, bad (24 + 12 * k) 12))).foldl (State.ocfTake d src qual) (s, [])
              s.accept src t arrival [(t, es)]

/-! ### Commands and events -/

/-- What the classifier does with a frame (R127). `bad`: bytes of it are poisoned, by place and length. -/
def State.classify (s : State) (port arrival : Nat) (bad : Nat → Nat → Bool) : IngFrame → State
  | .ocf l => s.ocfFrame port arrival l bad
  | .c37 station l => s.c37Receive port arrival station l bad
  | .sv l => s.svFrame port arrival l bad
  | .goose l => s.gooseFrame port arrival l bad

/-- The classifier takes a frame: its words leave the port's FIFO, and what is formed of poisoned ones is marked (R26, R395). -/
def State.ingress (s : State) (port arrival : Nat) (frame : IngFrame) : State :=
  if s.ingRuns then
    let x := s.takeWords port
    x.1.classify port arrival (poisoned x.2) frame
  else s

/-- INGRESS_FRAME. -/
def execIngressFrame (dt : Nat) (port arrival : Nat) (frame : IngFrame) (s : State) : Out :=
  .next ((s.advance dt).ingress port arrival frame)

/-- C37_CFG_RECEIVED: the frame of a station goes through the checks of every C37.118.2 frame (R127, R129, R130). -/
def execC37CfgReceived (dt : Nat) (rx : C37Rx) (s : State) : Out :=
  .next ((s.advance dt).ingress rx.port rx.arrival (.c37 rx.station rx.bytes))

/-- CFG_RETRY_TIMER: a source that awaits its CFG, ING.CFG_RETRY_S after the last request (R130). -/
def execCfgRetryTimer (dt : Nat) (src : Nat) (s : State) : Out :=
  let s := s.advance dt
  .next (match s.srcDef src with
    | some d =>
      if s.ingRuns && d.kind == 1 && (s.src src).cfg.isNone &&
          decide ((s.src src).cfgAskedAt + sec * s.parN Par.ING.CFG_RETRY_S 0 ≤ s.now) then s.askCfg src d else s
    | none => s)

/-- The lowest of the 64 TCP connections not in use (R37). -/
def State.freeConn (s : State) : Option Nat := (List.range 64).find? (fun k => (s.ctl.tcp.get? k).isNone)

/-- C37_RECONNECT_TIMER: every ING.C37_RECONNECT_S while the connection is down, the module opens it; `connected` says
whether the station answered (R129). -/
def execC37ReconnectTimer (dt : Nat) (src : Nat) (connected : Bool) (s : State) : Out :=
  let s := s.advance dt
  .next (match s.srcDef src with
    | some d =>
      let x := s.src src
      if s.ingRuns && d.kind == 1 && d.c37Tcp && !s.ctl.tcp.any (fun c => c.2.use == 1 && c.2.owner == src) &&
          decide (x.tcpTriedAt + sec * s.parN Par.ING.C37_RECONNECT_S 0 ≤ s.now) then
        let s := s.setSrc src { x with tcpTriedAt := s.now }
        match (if connected then s.freeConn else none), s.routePort d.station with
        | some k, some n =>
          { s with ctl := { s.ctl with
              tcp := s.ctl.tcp.set k { peer := d.station, port := n, lport := Config.ownPort k, use := 1, owner := src, lastAt := s.now, sent := 0 } } }
        | _, _ => s
      else s
    | none => s)

/-- The time without an accepted frame after which a source is DEAD, in ns (R146). -/
def State.liveNs (s : State) (src : Nat) (d : SrcDef) : Nat :=
  let x := s.src src
  if d.kind = 4 ∧ x.stNum.isSome then 1000000 * x.ttlMs
  else if d.liveMs = 0 then max (3 * sec / max d.rate 1 * (if d.rate = 0 then 0 else 1)) 10000000
  else 1000000 * d.liveMs

/-- A source becomes DEAD: logged, counted, alarmed (R146); GOOSE branches become bad (R218), a station is lost (R341). -/
def State.sourceDies (s : State) (src : Nat) : State :=
  let s := s.setSrc src { s.src src with st := 3 }
  let s := ((s.logEv 0x0301 3 s.now (evPar 0 src)).countSrc 0x0312 src 1).alarm 3 1 src true s.now
  (s.gooseDies src).stationLost src

/-- SOURCE_DEAD. -/
def execSourceDead (dt : Nat) (src : Nat) (s : State) : Out :=
  let s := s.advance dt
  .next (match s.srcDef src with
    | some d =>
      if s.ingRuns && (s.src src).st != 3 && decide ((s.src src).aliveAt + s.liveNs src d ≤ s.now) then
        s.sourceDies src else s
    | none => s)

/-- A parameter as the maquette would leave it, else in force. -/
def State.parAfter (s : State) (id inst : Nat) : List Word :=
  match s.ctl.maquette.get? (parKey id inst) with
  | some { val := .value ws, .. } => ws
  | _ => s.par id inst

/-- Channel fields of FLT.PG words 1 and 2: 0x3F none (R297). -/
def pgChannels (w : Word) : List Nat := [bitsOf w.toNat 29 24, bitsOf w.toNat 21 16, bitsOf w.toNat 13 8]

/-- The phasors of three channels: each that is present, and the positive sequence when all are (R297). -/
def pgPhasors (w : Word) : Nat :=
  let n := ((pgChannels w).filter (fun c => c != 0x3F)).length
  if n = 3 then 4 else n

/-- The quantities of a phasor group (R297). -/
def pgCount (g : List Word) : Nat := 2 + 2 * (pgPhasors (g.getD 1 0) + pgPhasors (g.getD 2 0))

/-- The report rates a kind accepts (R124, R133, R293). -/
def State.rateOk (s : State) (d : SrcDef) : Bool :=
  match d.kind with
  | 2 => d.rate == 4000 || d.rate == 4800
  | 4 => d.rate == 0
  | 5 =>
    if wordBits d.ident 0 31 28 = 1 then
      d.rate == bitsOf ((s.parAfter Par.FLT.PG (wordBits d.ident 0 2 0)).getD 0 0).toNat 7 0
    else decide (1 ≤ d.rate) && decide (d.rate ≤ 240)
  | _ => decide (1 ≤ d.rate) && decide (d.rate ≤ 240)

/-- The identity words of a kind (R147, R293). -/
def identOk (d : SrcDef) (l : Nat) : Bool :=
  match d.kind with
  | 1 | 3 => l == 6
  | 5 => l == 2 && decide (1 ≤ wordBits d.ident 0 31 28) && decide (wordBits d.ident 0 31 28 ≤ 3) &&
      decide (wordBits d.ident 0 27 24 ≤ (if wordBits d.ident 0 31 28 = 2 then 3 else 0))
  | _ =>
    let n := wordBits d.ident 0 15 8
    decide (1 ≤ n) && decide (n ≤ 129) && l == 2 + (n + 3) / 4

/-- N agrees with the count the identity of a local source implies (R293). -/
def State.localCountOk (s : State) (d : SrcDef) : Bool :=
  if d.kind = 5 then
    match wordBits d.ident 0 31 28 with
    | 1 => d.n == pgCount (s.parAfter Par.FLT.PG (wordBits d.ident 0 2 0))
    | _ => d.n == popCount 32 (d.ident.getD 1 0).toNat
  else true

/-- A mapping triple is in range (R147, R140). -/
def mappingOk (m : Mapping) : Bool :=
  decide (m.kind ≤ 2) && decide (m.unit ≤ 19) && f32Finite m.scale && f32Finite m.offset &&
    (m.kind == 0 || (m.scale == 0x3F800000 && f32Rat m.offset == 0 && decide (m.index + (if m.kind = 1 then 1 else 0) < 2 ^ 18)))

/-- The status of a SOURCE_DEFINE, 0 if it is held (R147). -/
def State.defineStatus (s : State) (ws : List Word) : Nat :=
  let d := srcDefOf ws
  let l := wordBits ws 3 15 0
  if 8191 < wordBits ws 0 31 16 then 0x0105
  else if ws.length != 4 + l + 3 * d.n then 0x0116
  else if !(decide (1 ≤ d.kind) && decide (d.kind ≤ 5)) || !(decide (1 ≤ d.n) && decide (d.n ≤ 128)) ||
      !(decide (1 ≤ l) && decide (l ≤ 35)) || !identOk d l || !(d.keySlot == 0 || (decide (3 ≤ d.keySlot) && decide (d.keySlot ≤ 127))) ||
      !s.rateOk d || (d.kind == 2 && decide (32 < d.n)) || !d.maps.all mappingOk then 0x0106
  else if !s.localCountOk d then 0x0116
  else 0

/-- SOURCE_DEFINE, opcode 0x0300. -/
def execSourceDefine (dt : Nat) (q : Req) (s : State) : Out :=
  .next ((s.advance dt).serve q 0x0300 3 1 0 true (fun _ s =>
    let ws := definitionKept q.payload
    match (if s.ctl.commit.isSome then 0x010B else if q.payload.length < 4 then 0x0106 else s.defineStatus ws) with
    | 0 => s.maqWrite (sourceKey (q.bits 4 31 16)) q.session (.define ws)
    | st => (s, err st)))

/-- SOURCE_REMOVE, opcode 0x0301. -/
def execSourceRemove (dt : Nat) (q : Req) (s : State) : Out :=
  .next ((s.advance dt).serve q 0x0301 3 1 0 true (fun _ s =>
    if s.ctl.commit.isSome then (s, err 0x010B)
    else if q.payload.isEmpty then (s, err 0x0106)
    else if 8191 < q.bits 4 31 16 then (s, err 0x0105)
    else s.maqWrite (sourceKey (q.bits 4 31 16)) q.session .remove))

/-- The words of SOURCE_QUERY on a source: definition length, definition, state, stamps, lags, frames (R147). -/
def State.sourceWords (s : State) (src : Nat) (defn : List Word) (st : Nat) : List Word :=
  let x := if defn.isEmpty then Src.init else s.src src
  [BitVec.ofNat 32 defn.length] ++ defn ++ [BitVec.ofNat 32 st] ++ words64 (gtfOpt x.lastStamp) ++
    words64 (gtfOpt x.lastArrival) ++ [BitVec.ofNat 32 x.mean, BitVec.ofNat 32 x.p95] ++ words64 x.frames

/-- One record of the learn list: 19 words (R147). -/
def learnWords (c : Carriage) (r : Learn) : List Word :=
  [BitVec.ofNat 32 (r.kind * 2 ^ 24 + r.port * 2 ^ 16 + r.key.length)] ++ words64 r.seen ++ gtfWords r.first ++
    gtfWords r.last ++ c.pack (padTo 48 r.key)

/-- What SOURCE_QUERY answers (R147, R468). -/
def State.sourceQuery (s : State) (q : Req) : Option Ans :=
  let src := q.bits 4 31 16
  if src = 0xFFFF then
    let first := (q.w 5).toNat
    let n := (q.w 6).toNat
    if q.payload.length < 3 ∨ n = 0 then err 0x0106
    else if 256 < n then err 0x0116
    else ok ([BitVec.ofNat 32 s.ing.learn.length] ++
      ((s.ing.learn.drop first).take n).flatMap (learnWords q.carriage))
  else if 8191 < src then err 0x0105
  else
    let inForce := (s.ctl.cfg.sources.get? src).getD []
    let st := if inForce.isEmpty then 0 else (s.src src).st
    let w4 := q.w 4
    if q.bits 4 0 0 = 1 then
      match (s.ctl.maquette.get? (sourceKey src)).map MaqEntry.val with
      | some (.define ws) => ok (w4 :: s.sourceWords src ws st)
      | some .remove => ok (w4 :: s.sourceWords src [] 0)
      | _ => ok (w4 :: s.sourceWords src inForce st)
    else ok (w4 :: s.sourceWords src inForce st)

/-- SOURCE_QUERY, opcode 0x0302. -/
def execSourceQuery (dt : Nat) (q : Req) (s : State) : Out :=
  .next ((s.advance dt).serve q 0x0302 3 0 1 true (fun _ s => (s, s.sourceQuery q)))

/-- The catalogue word of an index (R147). -/
def catalogueWord (c : List Pos) (index : Nat) : Word :=
  match c.find? (fun p => p.index == index) with
  | some p => BitVec.ofNat 32 (2 ^ 31 + p.kind * 2 ^ 29 + p.src * 2 ^ 16 + p.q * 256 + p.unit)
  | none => 0

/-- CATALOGUE_READ, opcode 0x0303. -/
def execCatalogueRead (dt : Nat) (q : Req) (s : State) : Out :=
  .next ((s.advance dt).serve q 0x0303 3 0 2 true (fun _ s =>
    let first := q.bits 4 17 0
    let n := q.bits 5 15 0
    if n = 0 then (s, err 0x0106)
    else if 4096 < n ∨ 262144 < first + n then (s, err 0x0116)
    else
      let c := catalogueOf s.ctl.cfg.sources
      (s, ok (BitVec.ofNat 32 n :: (List.range n).map (fun k => catalogueWord c (first + k))))))

end Sys2Proof.Machine
end

