-- ==== Sys2Proof/Machine/Oscillation.lean ====
section
/-! DEFINITION. Oscillation detection (07): the fast band detectors with their directly mapped lands, and the mode
trackers with their alarms and MODE_UPDATE. -/

namespace Sys2Proof.Machine

open Sys2Proof

/-! ### Fast band detectors (R188 to R194) -/

/-- A detector. -/
def State.fd (s : State) (d : Nat) : Fd := s.osc.fd.getD d Fd.init

/-- Replace a detector. -/
def State.setFd (s : State) (d : Nat) (x : Fd) : State :=
  { s with osc := { s.osc with fd := s.osc.fd.put Fd.init d x } }

/-- The lands detectors drive: MOD.FD_ALM of each detector that is picked up (R194). -/
def State.refreshAlm (s : State) : State :=
  let on := fun k => s.osc.fd.any (fun p => p.2.picked && s.parN Par.MOD.FD_ALM p.1 == k + 1)
  { s with lands := { s.lands with almFd := (List.range 16).filter on } }

/-- The pod and the position a detector reads (R188). -/
def State.fdPod (s : State) (d : Nat) : Nat := bitsOf (s.parN Par.MOD.FD_INPUT d) 29 24

/-- The position a detector reads. -/
def State.fdPos (s : State) (d : Nat) : Nat := bitsOf (s.parN Par.MOD.FD_INPUT d) 17 0

/-- Warm-up slots W = 2^(k+2) + ⌈2r ÷ F_LO⌉ (R193). -/
def State.fdWarm (s : State) (d : Nat) : Nat :=
  2 ^ (s.parN Par.MOD.FD_AVG_SHIFT d + 2) +
    (ratCeil (2 * (s.parN Par.ALN.SLOT_RATE (s.fdPod d) : Rat) / f32Rat (s.parW Par.MOD.FD_F_LO d))).toNat

/-- One second-order section, transposed direct form II in binary64 (log 16). -/
def sosStep (b0 b1 b2 a1 a2 : DWord) (z : Sos) (x : DWord) : DWord × Sos :=
  let y := f64Add (f64Mul b0 x) z.z1
  (y, { z1 := f64Add (f64Sub (f64Mul b1 x) (f64Mul a1 y)) z.z2, z2 := f64Sub (f64Mul b2 x) (f64Mul a2 y) })

/-- One section of the band-pass: the analogue section bw·s ÷ ((s − p)(s − p*)) with p = u + iv under the bilinear transform
s = (1 − z⁻¹) ÷ (1 + z⁻¹): b0, b1, b2, a1, a2, each rounded to binary64. -/
def bandSection (bw u v : Int) : List DWord :=
  let m2 := fxMul u u + fxMul v v
  let den := fxOne - 2 * u + m2
  let g := fxDiv bw den
  [g, 0, -g, fxDiv (2 * (m2 - fxOne)) den, fxDiv (fxOne + 2 * u + m2) den].map (fun x => f64OfRat (fxRat x))

/-- The fourth-order Butterworth band-pass at slot rate `r` with corners `lo` and `hi`, prewarped, as two second-order sections
(R188): with w = tan(π·f ÷ r) of each corner, bw their difference and q the second-order prototype pole, the poles are
(q·bw ± √((q·bw)² − 4·w1·w2)) ÷ 2, where (q·bw)² = −i·bw². The section of the upper sign comes first (log 16). -/
def bandPass (r : Nat) (lo hi : Rat) : List DWord :=
  let tan := fun (f : Rat) => let x := fxMul fxPi (fxOf (f / r)); fxDiv (fxSin x) (fxCos x)
  let w1 := tan lo
  let w2 := tan hi
  let bw := w2 - w1
  let b2 := fxMul bw bw
  let x := 4 * fxMul w1 w2
  let mag := fxSqrt (fxMul x x + fxMul b2 b2)
  let im := fxSqrt ((mag + x) / 2)
  let re := if im = 0 then 0 else fxDiv b2 (2 * im)
  let h := fxMul bw (fxSqrt (fxOne / 2))
  bandSection bw ((-h + re) / 2) ((h - im) / 2) ++ bandSection bw ((-h - re) / 2) ((h + im) / 2)

/-- The detector's coefficients, computed at the commit (R188). -/
def State.fdCoef (s : State) (d : Nat) : List DWord :=
  bandPass (s.parN Par.ALN.SLOT_RATE (s.fdPod d)) (f32Rat (s.parW Par.MOD.FD_F_LO d)) (f32Rat (s.parW Par.MOD.FD_F_HI d))

/-- A detector that warms up under the configuration in force (R193). -/
def State.fdStart (s : State) (d : Nat) : Fd := { Fd.init with coef := s.fdCoef d, warm := s.fdWarm d }

/-- The band-pass, the mean square and the rms take one value (R188). -/
def State.fdFilter (s : State) (d : Nat) (f : Fd) (v : Word) : Fd :=
  let c := fun k => f.coef.getD k 0
  let (y1, s1) := sosStep (c 0) (c 1) (c 2) (c 3) (c 4) f.s1 (f64Of32 v)
  let (y, s2) := sosStep (c 5) (c 6) (c 7) (c 8) (c 9) f.s2 y1
  let k := s.parN Par.MOD.FD_AVG_SHIFT d
  let m := f64Add f.m (f64Div (f64Sub (f64Mul y y) f.m) (f64OfInt (2 ^ k)))
  { f with s1 := s1, s2 := s2, m := m, rms := f32Of64 (f64Sqrt m) }

/-- The rms is at or above MOD.FD_LEVEL, in binary64. -/
def State.fdAbove (s : State) (d : Nat) (f : Fd) : Bool :=
  (f32Val (s.parW Par.MOD.FD_LEVEL d)).le (f64Val (f64Sqrt f.m))

/-- The rms is below L × (1 − h ÷ 100) (R190). -/
def State.fdBelow (s : State) (d : Nat) (f : Fd) : Bool :=
  (f64Val (f64Sqrt f.m)).lt ((f32Val (s.parW Par.MOD.FD_LEVEL d)).mul
    (FVal.ofRat (1 - (s.parN Par.MOD.FD_HYST_PCT d : Rat) / 100)))

/-- The counts after an rms update (R190), and whether a slot they count carried TEST (R187). -/
def State.fdCounts (s : State) (d : Nat) (f : Fd) (test : Bool) : Fd :=
  if s.fdAbove d f then { f with above := f.above + 1, below := 0, aboveT := f.aboveT || test, belowT := false }
  else if s.fdBelow d f then { f with below := f.below + 1, above := 0, belowT := f.belowT || test, aboveT := false }
  else { f with above := 0, below := 0, aboveT := false, belowT := false }

/-- Pickup and drop-out (R190, R194): the alarm carries the slot's GTF and the TEST of the slots that count (R187). -/
def State.fdJudge (s : State) (d g : Nat) : State :=
  let f := s.fd d
  let up := !f.picked && decide (s.parN Par.MOD.FD_PICKUP_SLOTS d ≤ f.above)
  let s := if up then ((s.setFd d { f with picked := true }).count2 0x0701 (d + 1) 1).alarmT 7 1 d true f.aboveT g else s
  let f := s.fd d
  let down := f.picked && decide (s.parN Par.MOD.FD_DROP_SLOTS d ≤ f.below)
  let s := if down then (s.setFd d { f with picked := false }).alarmT 7 1 d false f.belowT g else s
  s.refreshAlm

/-- A valid slot: INPUT_LOST ends and starts warm-up; the filter runs; outside warm-up the counts and the pickup rule
apply (R190, R191, R193). -/
def State.fdValid (s : State) (d g : Nat) (e : Entry) : State :=
  let f := s.fd d
  let test := qHas e.quality qTest
  let s := if f.lost then s.alarmT 7 6 d false test g else s
  let f := { f with badRun := 0, badT := false, lost := false, warm := if f.lost then s.fdWarm d else f.warm }
  let f := s.fdFilter d f e.v
  if 0 < f.warm then s.setFd d { f with warm := f.warm - 1, above := 0, below := 0, aboveT := false, belowT := false }
  else (s.setFd d (s.fdCounts d f test)).fdJudge d g

/-- `n` bad slots: at MOD.FD_BAD_LIMIT the detector enters INPUT_LOST; the rms of the zeroed m is 0 (R188, R191). -/
def State.fdBad (s : State) (d g n : Nat) (test : Bool) : State :=
  let f := s.fd d
  let f := { f with badRun := f.badRun + n, badT := f.badT || test }
  if decide (s.parN Par.MOD.FD_BAD_LIMIT d ≤ f.badRun) && !f.lost then
    let s := s.setFd d { f with
      lost := true, picked := false, above := 0, below := 0, aboveT := false, belowT := false, s1 := ⟨0, 0⟩, s2 := ⟨0, 0⟩, m := 0, rms := 0 }
    (((s.alarmT 7 1 d false f.badT g).count2 0x0704 (d + 1) 1).alarmT 7 6 d true f.badT g).refreshAlm
  else s.setFd d f

/-- A value is bad: NaN, POISON or SRC_INVALID, or SUBST where substituted values are not taken (R191, R198). -/
def entryBad (useSubst : Bool) (e : Entry) : Bool :=
  f32IsNan e.v || qHas e.quality (qPoison + qInvalid) || (qHas e.quality qSubst && !useSubst)

/-- The number of a grid instant at rate `r`, counted from GTF 0. -/
def gridIndex (r g : Nat) : Nat := g / sec * r + (g % sec * r + sec / 2) / sec

/-- The grid instant of a number at rate `r`. -/
def gridAt (r i : Nat) : Nat := gridNs r (i / max r 1) (i % max r 1)

/-- The number of the first grid instant at or after `t`. -/
def gridUp (r t : Nat) : Nat := let i := gridIndex r t; if gridAt r i < t then i + 1 else i

/-- A detector takes the first edition of a slot (R190 to R193). -/
def State.fdTake (s : State) (d g : Nat) (x : Slot) : State :=
  let f := s.fd d
  let r := x.defn.rate
  if g < f.fromGtf then s
  else if (match f.lastGtf with | some l => decide (g ≤ l) | none => false) then s.count2 0x0703 (d + 1) 1
  else
    let missed := match f.lastGtf with | some l => gridIndex r g - gridIndex r l - 1 | none => 0
    let s := s.setFd d { f with lastGtf := some g }
    let s := if missed = 0 then s else s.fdBad d g missed false
    let e := x.entryAt 0 (s.fdPos d)
    if entryBad (s.parB Par.MOD.FD_USE_SUBST d) e then
      (s.count2 0x0702 (d + 1) 1).fdBad d g 1 (qHas e.quality qTest)
    else s.fdValid d g e

/-- A detector that runs takes the first edition of a slot of pod `p`, once it is available (R188, R192). -/
def State.fdFirst (s : State) (d p slot : Nat) : State :=
  if s.runs 7 && s.parB Par.MOD.FD_ENABLE d && s.fdPod d == p then
    match s.slot? p slot with
    | some x => if x.closed && x.ready then s.fdTake d slot x else s
    | none => s
  else s

/-- FD_EVALUATE: detector `det` and the slot's nominal time. -/
def execFdEvaluate (dt : Nat) (det slot : Nat) (s : State) : Out :=
  let s := s.advance dt
  .next (if s.measuring then s.fdFirst det (s.fdPod det) slot else s)

/-- A commit boundary that enables, changes or disables a detector, or changes its pod's members or slot rate: alarms
cleared with the boundary, the land released; an enabled detector warms up (R192, R193). -/
def State.fdCommit (s : State) (d boundary : Nat) : State :=
  let s := (s.alarmT 7 1 d false false boundary).alarmT 7 6 d false false boundary
  let f := if s.parB Par.MOD.FD_ENABLE d then { s.fdStart d with fromGtf := boundary } else Fd.init
  (s.setFd d f).refreshAlm

/-- MOD.FD_STATE: 0 off, 1 warming, 2 normal, 3 picked up, 4 INPUT_LOST (R214). -/
def State.fdState (s : State) (d : Nat) : Nat :=
  if !s.parB Par.MOD.FD_ENABLE d then 0
  else
    let f := s.fd d
    if f.lost then 4 else if 0 < f.warm then 1 else if f.picked then 3 else 2

/-! ### Mode trackers (R195 to R209) -/

/-- A tracker. -/
def State.mt (s : State) (t : Nat) : Mt := s.osc.mt.getD t Mt.init

/-- Replace a tracker. -/
def State.setMt (s : State) (t : Nat) (x : Mt) : State :=
  { s with osc := { s.osc with mt := s.osc.mt.put Mt.init t x } }

/-- Slot rate of a tracker's pod. -/
def State.mtSlotRate (s : State) (t : Nat) : Nat := s.parN Par.ALN.SLOT_RATE (s.parN Par.MOD.MT_POD t)

/-- The alarm instance of a mode (R187). -/
def mtInst (t id : Nat) : Nat := 256 * t + id

/-- CLASSES of a mode: 1 POORLY_DAMPED, 2 GROWING, 4 HIGH_ENERGY, 8 FORCED (R208). -/
def classBits (cls : List Nat) : Nat :=
  bitAt (cls.contains 2) 0 + bitAt (cls.contains 3) 1 + bitAt (cls.contains 4) 2 + bitAt (cls.contains 5) 3

/-- Used signals that are in the estimate. -/
def State.mtValid (s : State) (t : Nat) : List (Nat × Nat × Nat) :=
  (s.mtSignals t).filter (fun k => !(s.mt t).dropped.contains k.1)

/-- The tracker rate r_t = r ÷ D (R196). -/
def State.mtRate (s : State) (t : Nat) : Rat := (s.mtSlotRate t : Rat) / s.parN Par.MOD.MT_DECIM t

/-- The natural logarithm, rounded to the tracker's numbers; what has none is a free value (log 17). -/
def mtLn (q : Rat) : Rat := if 0 < q then Config.mtRound (f64Rat (f64Ln (f64OfRat q))) else Config.mtNoLog q

/-- A signal about a mode's frequency, newest first: ±20 % band-passed (R207). -/
def bandPassed (freq rate : Rat) (x : List Rat) : List Rat :=
  (List.range x.length).map (fun k => Config.mtBandPass freq rate (x.drop k))

/-- x·dy at each sample but the oldest, newest first (R207). -/
def energySteps (x y : List Rat) : List Rat :=
  ((x.zip y).zip (y.drop 1)).map (fun z => Config.mtRound (z.1.1 * (z.1.2 - z.2)))

/-- The energy W after each step, oldest first (R207). -/
def energySums : Rat → List Rat → List Rat
  | _, [] => []
  | w, d :: l => Config.mtRound (w + d) :: energySums (Config.mtRound (w + d)) l

/-- The slope of a least-squares line through equidistant values, per step. -/
def leastSlope (l : List Rat) : Rat :=
  let n : Rat := l.length
  let k := (List.range l.length).map (fun (i : Nat) => (i : Rat))
  let sx := k.sum
  let d := n * (k.map (fun x => x * x)).sum - sx * sx
  if d = 0 then 0 else (n * ((k.zip l).map (fun z => z.1 * z.2)).sum - sx * l.sum) / d

/-- The slope of a pair's dissipating energy over the last MOD.MT_FORCED_S, none where it uses a signal that is not in the estimate
(R207). The bands follow the mode's frequency now (log 17). -/
def State.pairSlope (s : State) (t : Nat) (freq : Nat) (w : Word) : Option Rat :=
  let n := w.toNat
  let valid := fun k => (s.mtValid t).any (fun z => z.1 == k)
  let needed := [bitsOf n 31 25, bitsOf n 17 11] ++ ([bitsOf n 24 18, bitsOf n 10 4].filter (fun k => k != 0x7F))
  if needed.all valid then
    let keep := (ratFloor (s.parN Par.MOD.MT_FORCED_S t * s.mtRate t)).toNat + 1
    let sig := fun k => (s.mt t).raw.getD k []
    let pass := fun l => (bandPassed ((freq : Rat) / 1000) (s.mtRate t) l).take keep
    let steps := energySteps (pass (sig (bitsOf n 31 25))) (pass (sig (bitsOf n 17 11)))
    let more := if s.parN Par.MOD.MT_BAND t = 0 ∧ bitsOf n 24 18 ≠ 0x7F ∧ bitsOf n 10 4 ≠ 0x7F then
        energySteps (pass (sig (bitsOf n 24 18))) (pass ((sig (bitsOf n 10 4)).map mtLn)) else []
    let all := if more.isEmpty then steps else (steps.zip more).map (fun z => z.1 + z.2)
    some (leastSlope (energySums 0 all.reverse))
  else none

/-- SOURCE_SIGNAL of a mode: while FORCED, the flow signal of the valid pair with the largest positive slope; else 0xFF (R207). -/
def State.mtSource (s : State) (t : Nat) (m : ModeRun) : Nat :=
  if !m.cls.contains 5 then 0xFF
  else
    let pairs := ((s.par Par.MOD.MT_DEF_PAIRS t).filter (fun w => w.getLsbD 0)).filterMap (fun w =>
      (s.pairSlope t m.est.freq w).map (fun d => (bitsOf w.toNat 31 25, d)))
    ((pairs.foldl (fun (best : Nat × Rat) p => if best.2 < p.2 then p else best) (0xFF, 0))).1

/-- The words of one mode record (R208). -/
def State.modeWords (s : State) (t : Nat) (m : ModeRun) : List Word :=
  [BitVec.ofNat 32 (m.id * 2 ^ 24 + classBits m.cls * 2 ^ 16 + s.mtSource t m * 2 ^ 8 + m.est.ref),
   BitVec.ofNat 32 m.est.freq, BitVec.ofInt 32 m.est.zeta, m.est.amp, BitVec.ofNat 32 (min m.age 0xFFFF * 2 ^ 16)] ++
  ((List.range (s.mtSignals t).length).zip (s.mtSignals t)).map (fun k =>
    if (s.mt t).dropped.contains k.2.1 then 0x00008000
    else
      let (mag, ph) := m.est.shape.getD k.1 (0, 0x8000)
      BitVec.ofNat 32 (mag % 65536 * 65536 + ph % 65536))

/-- The modes in report order: those with a raised alarm first, then by descending amplitude, at most 16 (R201). -/
def reportOrder (l : List ModeRun) : List ModeRun :=
  let byAmp := fun (l : List ModeRun) => l.mergeSort (fun a b => f32Le b.est.amp a.est.amp)
  (byAmp (l.filter (fun m => !m.cls.isEmpty)) ++ byAmp (l.filter (fun m => m.cls.isEmpty))).take 16

/-- Send MODE_UPDATE (R208); `g` is the stamp of the newest sample in the estimate it reports. -/
def State.modeUpdate (s : State) (t g : Nat) : State :=
  let m := s.mt t
  let ms := if m.st = 2 then reportOrder m.modes else []
  s.notify 0xC00C 0 7
    ([BitVec.ofNat 32 (t * 2 ^ 30 + (m.st - 1) * 2 ^ 28 + ms.length * 2 ^ 16 + (s.mtSignals t).length * 256 + m.update % 256)] ++
     gtfWords g ++
     [BitVec.ofNat 32 ((s.mtValid t).length * 256 + s.parN Par.MOD.MT_ORDER t)] ++ ms.flatMap (s.modeWords t))

/-- Clear every mode alarm a tracker holds. -/
def State.clearModes (s : State) (t g : Nat) : State :=
  (s.mt t).modes.foldl (fun s m =>
    [2, 3, 4, 5].foldl (fun s c => s.alarmT 7 c (mtInst t m.id) false false g) s) s

/-- Restart a tracker as WARMING (R202). -/
def State.mtRestart (s : State) (t : Nat) (fromGtf : Nat) : State :=
  let m := s.mt t
  s.setMt t { Mt.init with
    st := 1, lastRead := m.lastRead, fromGtf := fromGtf, update := m.update, nextId := m.nextId, testAt := m.testAt
    buf := m.buf.filter (fun b => decide (fromGtf ≤ b.1)) }

/-- A value read within the window carried TEST (R187, log 17). -/
def State.mtTest (s : State) (t : Nat) : Bool :=
  match (s.mt t).testAt, (s.mt t).lastRead with
  | some g, some l => decide (l < g + sec * s.parN Par.MOD.MT_WINDOW_S t)
  | _, _ => false

/-- Enter SUSPENDED when too few signals are valid, and leave it when there are enough again (R203). -/
def State.mtSuspend (s : State) (t g : Nat) : State :=
  let m := s.mt t
  let few := decide ((s.mtValid t).length < s.parN Par.MOD.MT_MIN_SIGNALS t)
  if few && m.st != 3 then
    let s := s.clearModes t g
    let s := s.setMt t { m with st := 3, modes := [], running := false, count := 0 }
    ((s.alarmT 7 7 (mtInst t 255) true (s.mtTest t) g).count2 0x0708 (t + 1) 1).modeUpdate t m.estGtf
  else if !few && m.st == 3 then
    let s := s.alarmT 7 7 (mtInst t 255) false (s.mtTest t) g
    let s := s.setMt t { Mt.init with
      st := 1, lastRead := m.lastRead, fromGtf := m.fromGtf, update := m.update, nextId := m.nextId, buf := m.buf
      dropped := m.dropped, gap := m.gap, valid := m.valid, testAt := m.testAt }
    s.modeUpdate t m.estGtf
  else s

/-- A value as the tracker takes it; what an infinite one stands for is a free value (log 27). -/
def mtValue (w : Word) : Rat := (f32Val w).rat?.getD (Config.infRat w)

/-- The valid value of a signal in a slot, none where it is missing (R191, R198). -/
def State.mtGood (s : State) (t : Nat) (e : Option Entry) : Option Rat :=
  e.bind (fun e => if entryBad (s.parB Par.MOD.MT_USE_SUBST t) e then none else some (mtValue e.v))

/-- An angle unwrapped: within π of the value before (R197). -/
def unwrapped (before x : Rat) : Rat := Config.mtRound (before + wrapRad (x - before))

/-- A valid value of a signal after an earlier one: an angle is unwrapped (R197). -/
def mtAfter (role : Nat) (before : Option (Nat × Rat)) (x : Rat) : Rat :=
  match before with
  | some b => if role = 1 then unwrapped b.2 x else x
  | none => x

/-- The next valid value of signal number `i` of the used ones within MOD.MT_GAP_MAX slots after slot `g`: how many slots after, and
the value (R198). -/
def State.mtAhead (s : State) (t g i : Nat) : Option (Nat × Rat) :=
  let r := s.mtSlotRate t
  (List.range (s.parN Par.MOD.MT_GAP_MAX t)).findSome? (fun j =>
    (s.mtGood t (((s.mt t).buf.get? (gridAt r (gridIndex r g + j + 1))).bind (fun l => l[i]?))).map (fun x => (j + 1, x)))

/-- A signal leaves the estimate, with its history (R198). -/
def Mt.drop (m : Mt) (k : Nat) : Mt :=
  { m with dropped := m.dropped ++ [k], last := m.last.erase k, line := m.line.erase k, raw := m.raw.erase k
           high := m.high.erase k, data := m.data.erase k }

/-- One signal of a slot that is read: number `i` of the used ones, signal `k` with a role. A missing value is interpolated between
the valid ones on either side; a run of them longer than MOD.MT_GAP_MAX drops the signal (R198). Answers its value at the pod's
rate. -/
def State.mtSignal (s : State) (t g i k role : Nat) (e : Option Entry) : State × Option Rat :=
  let m := s.mt t
  let n := gridIndex (s.mtSlotRate t) g
  let out := m.dropped.contains k
  match s.mtGood t e with
  | some x =>
    let v := mtAfter role (m.last.get? k) x
    let m := { m with gap := m.gap.put 0 k 0, valid := m.valid.put 0 k (m.valid.getD k 0 + 1) }
    (s.setMt t (if out then m else { m with last := m.last.set k (n, v) }), if out then none else some v)
  | none =>
    let run := m.gap.getD k 0 + 1
    let m := { m with gap := m.gap.put 0 k run, valid := m.valid.put 0 k 0, rejoin := m.rejoin.filter (fun j => j != k) }
    let next := s.mtAhead t g i
    let long := match next with
      | some a => decide (s.parN Par.MOD.MT_GAP_MAX t < run + a.1 - 1)
      | none => true
    if long then
      if out then (s.setMt t m, none) else ((s.setMt t (m.drop k)).count2 0x0707 (t + 1) 1, none)
    else
      (s.setMt t m, match m.last.get? k, next with
        | some b, some a =>
          let v := mtAfter role (some b) a.2
          if out then none else some (Config.mtRound (b.2 + (v - b.2) * ((n : Rat) - b.1) / ((n : Rat) + a.1 - b.1)))
        | _, _ => none)

/-- A decimated sample is taken at this slot: every D-th slot once the 16·D + 1 taps are filled (R197). -/
def decimates (d phase : Nat) : Bool := if d ≤ 1 then true else decide (16 * d + 1 ≤ phase) && (phase - (16 * d + 1)) % d == 0

/-- The values the decimating filter spans (R197). -/
def firSpan (d : Nat) : Nat := if d ≤ 1 then 1 else 16 * d + 1

/-- The output of the decimating filter, symmetric about its centre tap (R197). -/
def State.mtFir (s : State) (t : Nat) (x : List Rat) : Rat :=
  let d := s.parN Par.MOD.MT_DECIM t
  if d ≤ 1 then x.headD 0
  else Config.mtRound (((List.range x.length).zip x).map (fun z =>
    Config.mtTap (s.parN Par.MOD.MT_BAND t) d (s.mtSlotRate t) (min z.1 (16 * d - z.1)) * z.2)).sum

/-- A decimated sample of every signal in the estimate, none for one whose filter is not filled (R197). -/
def State.mtSamples (s : State) (t : Nat) : List (Nat × Nat × Option Rat) :=
  let m := s.mt t
  (s.mtValid t).map (fun k =>
    let l := m.line.getD k.1 []
    (k.1, k.2.1, if l.length = firSpan (s.parN Par.MOD.MT_DECIM t) then some (s.mtFir t l) else none))

/-- The samples a tracker keeps of a signal: those of its window and of MOD.MT_FORCED_S. -/
def State.mtKept (s : State) (t : Nat) : Nat :=
  (ratFloor (max (s.parN Par.MOD.MT_WINDOW_S t) (s.parN Par.MOD.MT_FORCED_S t) * s.mtRate t)).toNat + 2

/-- A signal takes a decimated sample: less the mean of the angles, high-passed; without one its history starts anew (R197). -/
def State.mtPrepare (s : State) (t : Nat) (mean : Option Rat) (k role : Nat) (x : Option Rat) (m : Mt) : Mt :=
  match x with
  | none => { m with raw := m.raw.erase k, high := m.high.erase k, data := m.data.erase k }
  | some x =>
    let u := if role = 1 then Config.mtRound (x - mean.getD 0) else x
    let y := Config.mtHigh (s.parN Par.MOD.MT_BAND t) (s.mtRate t) u (m.high.get? k)
    let keep := s.mtKept t
    { m with raw := m.raw.set k ((x :: m.raw.getD k []).take keep), high := m.high.set k (u, y)
             data := m.data.set k ((y :: m.data.getD k []).take keep) }

/-- The data vector: the last p samples of every signal in the estimate, p = ⌈MOD.MT_ORDER ÷ S⌉ + 1, each with its place; a sample
from before a signal's history counts as 0 (R199, log 17). -/
def State.mtVector (s : State) (t : Nat) : List (Nat × Rat) :=
  let l := s.mtValid t
  let p := (s.parN Par.MOD.MT_ORDER t + l.length - 1) / max l.length 1 + 1
  (List.range p).flatMap (fun a => l.map (fun k => (64 * a + k.1, ((s.mt t).data.getD k.1 []).getD a 0)))

/-- The covariance takes a data vector, with forgetting factor 1 − 1 ÷ (MOD.MT_WINDOW_S × r_t) (R199). -/
def State.mtFold (s : State) (t : Nat) : State :=
  let m := s.mt t
  let forget : Rat := 1 - 1 / (s.parN Par.MOD.MT_WINDOW_S t * s.mtRate t)
  let v := s.mtVector t
  let was := fun i j => ((m.cov.find? (fun c => c.1 == i && c.2.1 == j)).map (fun c => c.2.2)).getD 0
  s.setMt t { m with cov := v.flatMap (fun a => v.map (fun b => (a.1, b.1, Config.mtRound (forget * was a.1 b.1 + a.2 * b.2)))) }

/-- A decimated sample of every signal: the mean of two or more angles is taken away, the high-pass runs, the covariance takes the
data vector (R197, R199). -/
def State.mtSample (s : State) (t g : Nat) : State :=
  let r := s.mtSlotRate t
  let d := s.parN Par.MOD.MT_DECIM t
  let l := s.mtSamples t
  let angles := l.filterMap (fun z => if z.2.1 = 1 then z.2.2 else none)
  let mean := if 2 ≤ angles.length then some (Config.mtRound (angles.sum / (angles.length : Rat))) else none
  let m := l.foldl (fun m z => s.mtPrepare t mean z.1 z.2.1 z.2.2 m) (s.mt t)
  (s.setMt t { m with
    samples := m.samples + 1, estGtf := gridAt r (gridIndex r g - (if d ≤ 1 then 0 else 8 * d)) }).mtFold t

/-- The tracker reads slot `g` (R198, R199, R202). -/
def State.mtRead (s : State) (t g : Nat) : State :=
  let r := s.mtSlotRate t
  let d := s.parN Par.MOD.MT_DECIM t
  let es := (s.mt t).buf.get? g
  let s := if es.isNone then s.count2 0x0709 (t + 1) 1 else s
  let sigs := s.mtSignals t
  let s := ((List.range sigs.length).zip sigs).foldl (fun s k =>
    let x := s.mtSignal t g k.1 k.2.1 k.2.2.1 (es.bind (fun l => l[k.1]?))
    let m := x.1.mt t
    x.1.setMt t { m with line := match x.2 with
      | some v => m.line.set k.2.1 ((v :: m.line.getD k.2.1 []).take (firSpan d))
      | none => m.line.erase k.2.1 }) s
  let m := s.mt t
  let test := es.any (fun l => l.any (fun e => qHas e.quality qTest))
  let s := s.setMt t { m with
    lastRead := some g, buf := m.buf.filter (fun b => decide (g < b.1)), testAt := if test then some g else m.testAt
    count := m.count + 1, phase := m.phase + 1 }
  let s := if m.st != 3 && decimates d (m.phase + 1) then s.mtSample t g else s
  let s := s.mtSuspend t g
  let m := s.mt t
  if m.st = 1 ∧ s.parN Par.MOD.MT_WINDOW_S t * r ≤ 2 * d * m.samples then
    (s.setMt t { m with st := 2 }).modeUpdate t m.estGtf
  else s

/-- The next slot a tracker reads: the one after the last, none before the boundary it restarted at (R198, R202). -/
def State.mtNext (s : State) (t : Nat) : Nat :=
  let r := s.mtSlotRate t
  let lo := gridUp r (s.mt t).fromGtf
  gridAt r (match (s.mt t).lastRead with
    | some l => max (gridIndex r l + 1) lo
    | none => lo)

/-- The first edition of slot `k + MOD.MT_GAP_MAX` has been issued, or a later one while that slot is not open (R198). -/
def State.mtDue (s : State) (t : Nat) : Bool :=
  let r := s.mtSlotRate t
  let g := gridAt r (gridIndex r (s.mtNext t) + s.parN Par.MOD.MT_GAP_MAX t)
  let m := s.mt t
  (m.buf.get? g).isSome ||
    (m.buf.any (fun b => decide (g < b.1)) && !((s.slot? (s.parN Par.MOD.MT_POD t) g).any (fun x => !x.closed)))

/-- MT_SLOT_READ. -/
def execMtSlotRead (dt : Nat) (tracker : Nat) (s : State) : Out :=
  let s := s.advance dt
  .next (if s.measuring && s.runs 7 && (s.mt tracker).st != 0 && s.mtDue tracker then
    s.mtRead tracker (s.mtNext tracker) else s)

/-- An extraction starts: signals that may rejoin do, and the dominant subspace of the covariance is refined (R198, R199). -/
def State.mtStart (s : State) (t : Nat) : State :=
  let m := s.mt t
  let s := s.setMt t { m with
    count := 0, running := true, dropped := m.dropped.filter (fun k => !m.rejoin.contains k), rejoin := [] }
  let n := s.mt t
  s.setMt t { n with sub := Config.mtSubspace m.cov (s.parN Par.MOD.MT_ORDER t) m.sub
                     subOf := ((s.mtSignals t).filter (fun k => !m.dropped.contains k.1)).map Prod.fst, subGtf := m.estGtf }

/-- MT_EXTRACTION_START: every MOD.MT_UPDATE_SLOTS slots read; a due extraction is skipped while one runs (R199, R204). -/
def execMtExtractionStart (dt : Nat) (tracker : Nat) (s : State) : Out :=
  let s := s.advance dt
  let m := s.mt tracker
  .next (if s.measuring && s.runs 7 && (m.st == 1 || m.st == 2) &&
      decide (s.parN Par.MOD.MT_UPDATE_SLOTS tracker ≤ m.count) then
    (if m.running then (s.setMt tracker { m with count := 0 }).count2 0x0706 (tracker + 1) 1 else s.mtStart tracker)
  else s)

/-- MT_SIGNAL_REJOIN: a dropped signal valid for 10 s rejoins at the next extraction, at once in a suspended tracker, which
extracts nothing (R198, R203). -/
def execMtSignalRejoin (dt : Nat) (tracker signal : Nat) (s : State) : Out :=
  let s := s.advance dt
  let m := s.mt tracker
  .next (if s.measuring && s.runs 7 && m.dropped.contains signal &&
      decide (10 * s.mtSlotRate tracker ≤ m.valid.getD signal 0) then
    (if m.st = 3 then
      (s.setMt tracker { m with dropped := m.dropped.filter (fun k => k != signal) }).mtSuspend tracker s.now
    else s.setMt tracker { m with rejoin := m.rejoin.filter (fun k => k != signal) ++ [signal] })
  else s)

/-! ### Extraction (R199 to R201, R205, R206) -/

/-- The whole number nearest to a value, half up (log 17). -/
def nearestInt (q : Rat) : Int := ratFloor (q + 1 / 2)

/-- Magnitude and angle of a complex number (R200). -/
def polar (z : Rat × Rat) : Rat × Rat :=
  (f64Rat (f64Sqrt (f64OfRat (z.1 * z.1 + z.2 * z.2))), f64Rat (f64Atan2 (f64OfRat z.2) (f64OfRat z.1)))

/-- A pole as a mode, none where it is discarded: s = r_t × ln z, the damped frequency Im(s) ÷ 2π, the damping −Re(s) ÷ |s|; poles
with negative imaginary part or outside the band are no modes (R199). The shape is the eigenvector's, the largest magnitude 1 at phase
0; that signal is the reference, and the amplitude is estimated in its newest samples, over 10 periods or the window (R200). -/
def State.mtMode (s : State) (t k : Nat) : Option ModeEst :=
  let m := s.mt t
  let n := m.subOf.length
  let z := Config.mtPole m.sub n k
  let rate := s.mtRate t
  let sr := Config.mtRound (rate * mtLn (polar z).1)
  let si := Config.mtRound (rate * (polar z).2)
  let f := Config.mtRound (si / (2 * piRat))
  let size := (polar (sr, si)).1
  let (lo, hi) : Rat × Rat := if s.parN Par.MOD.MT_BAND t = 0 then (1 / 100, 4) else (1 / 20, 20)
  if si < 0 ∨ f < lo ∨ hi < f then none
  else
    let v := ((List.range n).zip m.subOf).map (fun i => (i.2, polar (Config.mtVector m.sub n k i.1)))
    let top := v.foldl (fun (b : Nat × Rat × Rat) x => if b.2.1 < x.2.1 then x else b) (v.headD (0, 0, 0))
    let span := min (ratCeil (10 * rate / f)).toNat (ratFloor (s.parN Par.MOD.MT_WINDOW_S t * rate)).toNat
    some { freq := (nearestInt (1000 * f)).toNat
           zeta := max (-10000) (min 10000 (nearestInt (10000 * Config.mtRound (-sr / size))))
           amp := f32OfRat (Config.mtAmp z ((m.data.getD top.1 []).take span)) &&& 0x7FFFFFFF
           ref := top.1
           shape := (s.mtSignals t).map (fun i =>
             match v.find? (fun x => x.1 == i.1) with
             | none => (0, 0x8000)
             | some x =>
               if x.1 = top.1 then (0xFFFF, 0)
               else ((nearestInt (65535 * Config.mtRound (x.2.1 / top.2.1))).toNat,
                 ((nearestInt (Config.mtRound (wrapRad (x.2.2 - top.2.2)) * 32768 / piRat)) % 65536).toNat)) }

/-- The modes an extraction yields (R199, R200). -/
def State.mtExtract (s : State) (t : Nat) : List ModeEst :=
  let m := s.mt t
  (List.range (min (Config.mtPoles m.sub m.subOf.length) (s.parN Par.MOD.MT_ORDER t))).filterMap (s.mtMode t)

/-- A mode with a new ID and no history. -/
def ModeRun.fresh (id : Nat) (e : ModeEst) : ModeRun :=
  { id := id, est := e, age := 0, missed := 0, cls := [], lowN := 0, lowClr := 0, growN := 0, growAmp := [], growClr := 0
    highN := 0, highClr := 0, forced := [], forcedClr := 0 }

/-- The tracked mode nearest in frequency within the tolerance (R201). -/
def nearestMode (l : List ModeRun) (tol : Nat) (e : ModeEst) : Option ModeRun :=
  l.foldl (fun best m =>
    let d := gap m.est.freq e.freq
    if tol < d then best
    else match best with
      | some b => if d < gap b.est.freq e.freq then some m else best
      | none => some m) none

/-- The next unused MODE_ID from `n` on, cycling through 0 to 254 (R201). -/
def nextModeId (used : List Nat) (n : Nat) : Nat :=
  (((List.range 255).map (fun k => (n + k) % 255)).find? (fun i => !used.contains i)).getD (n % 255)

/-- Match the extracted modes to the tracked ones: the modes of this extraction, the tracked modes left, the next ID. -/
def matchModes (tol : Nat) : List ModeEst → List ModeRun → List ModeRun → Nat → List ModeRun × List ModeRun × Nat
  | [], left, got, next => (got, left, next)
  | e :: es, left, got, next =>
    match nearestMode left tol e with
    | some m =>
      matchModes tol es (left.filter (fun x => x.id != m.id))
        (got ++ [{ m with est := e, age := m.age + 1, missed := 0 }]) next
    | none =>
      let id := nextModeId ((left ++ got).map ModeRun.id) next
      matchModes tol es left (got ++ [ModeRun.fresh id e]) ((id + 1) % 255)

/-- The alarm counts of a mode after an extraction at `now` (R205). `n` is MOD.MT_PERSIST. -/
def State.modeCounts (s : State) (t : Nat) (now : Nat) (m : ModeRun) : ModeRun :=
  let n := s.parN Par.MOD.MT_PERSIST t
  let z := m.est.zeta
  let amp := m.est.amp
  let ampOk := f32Le (s.parW Par.MOD.MT_AMP_MIN t) amp
  let low : Int := s.parN Par.MOD.MT_ZETA_LOW t
  let grow := decide (z < 0) && ampOk
  let poor := decide (z < low) && ampOk
  let poorClr := decide (low + s.parN Par.MOD.MT_ZETA_HYST t ≤ z) || !ampOk
  let high := f32Le (s.parW Par.MOD.MT_AMP_HIGH t) amp
  let highClr := (f32Val amp).lt ((f32Val (s.parW Par.MOD.MT_AMP_HIGH t)).mul (FVal.ofRat (9 / 10)))
  let inBand := decide (z.natAbs ≤ s.parN Par.MOD.MT_ZETA_FORCED t) && ampOk
  let span := sec * s.parN Par.MOD.MT_FORCED_S t
  let old := (m.forced.filter (fun f => decide (f.1 + span ≤ now))).take 1
  { m with
    growN := if grow then min (m.growN + 1) n else 0
    growAmp := if grow then (amp :: m.growAmp).take n else []
    growClr := if 0 ≤ z then m.growClr + 1 else 0
    lowN := if poor then m.lowN + 1 else 0
    lowClr := if poorClr then m.lowClr + 1 else 0
    highN := if high then m.highN + 1 else 0
    highClr := if highClr then m.highClr + 1 else 0
    forced := (now, inBand, amp) :: m.forced.filter (fun f => decide (now < f.1 + span)) ++ old }

/-- The raising condition of FORCED: every extraction of the last MOD.MT_FORCED_S seconds in the damping band, the largest
amplitude at most 1.25 times the smallest, and the mode at least that old (R205). -/
def State.forcedCond (s : State) (t now : Nat) (m : ModeRun) : Bool :=
  let span := sec * s.parN Par.MOD.MT_FORCED_S t
  let l := m.forced.filter (fun f => decide (now ≤ f.1 + span))
  let a := l.map (fun f => f32Rat f.2.2)
  m.forced.any (fun f => decide (f.1 + span ≤ now)) && l.all (fun f => f.2.1) &&
    decide (a.foldl max 0 ≤ 5 / 4 * a.foldl min (a.headD 0))

/-- The classes a mode holds after an extraction (R205, R206): clears first; a lower class of GROWING, FORCED,
POORLY_DAMPED is not raised while a higher one was held, and a higher one clears a lower. -/
def State.modeClasses (s : State) (t now : Nat) (m : ModeRun) : ModeRun :=
  let n := s.parN Par.MOD.MT_PERSIST t
  let has := fun c => m.cls.contains c
  let fc := s.forcedCond t now m
  let m := { m with forcedClr := if fc then 0 else m.forcedClr + 1 }
  let growUp := decide (n ≤ m.growN) && f32Lt (m.growAmp.getLastD 0) (m.growAmp.headD 0)
  let grow := if has 3 then decide (m.growClr < n) else growUp
  let forced := !grow && (if has 5 then decide (m.forcedClr < n) else fc && !has 3)
  let poor := !grow && !forced && (if has 2 then decide (m.lowClr < n) else decide (n ≤ m.lowN) && !has 3 && !has 5)
  let high := if has 4 then decide (m.highClr < n) else decide (n ≤ m.highN)
  { m with cls := (if poor then [2] else []) ++ (if grow then [3] else []) ++ (if high then [4] else []) ++
      (if forced then [5] else []) }

/-- Notify the alarm changes of a mode: clears before raises. -/
def State.modeAlarms (s : State) (t g : Nat) (test : Bool) (cls : List Nat) (id : Nat) : State :=
  let s := ([2, 3, 4, 5].filter (fun c => !cls.contains c)).foldl
    (fun s c => s.alarmT 7 c (mtInst t id) false test g) s
  cls.foldl (fun s c => s.alarmT 7 c (mtInst t id) true test g) s

/-- A mode that the extraction at `now` did not find: its consecutive counts break, and the condition of FORCED does not hold in that
extraction (R205). -/
def ModeRun.unmatched (now : Nat) (m : ModeRun) : ModeRun :=
  { m with missed := m.missed + 1, age := m.age + 1, lowN := 0, lowClr := 0, growN := 0, growAmp := [], growClr := 0, highN := 0
           highClr := 0, forced := (now, false, 0) :: m.forced }

/-- A completed extraction of a running tracker: modes, alarms, MODE_UPDATE when due (R201, R205, R209). -/
def State.mtModes (s : State) (t : Nat) : State :=
  let m := s.mt t
  let n := s.parN Par.MOD.MT_PERSIST t
  let (got, left, next) := matchModes (s.parN Par.MOD.MT_TRACK_MHZ t) (s.mtExtract t) m.modes [] m.nextId
  let got := got.map (fun x => s.modeClasses t s.now (s.modeCounts t s.now x))
  let left := left.map (fun x => s.modeClasses t s.now (x.unmatched s.now))
  let gone := left.filter (fun x => decide (n ≤ x.missed))
  let kept := got ++ left.filter (fun x => decide (x.missed < n))
  let changed := kept.any (fun x => decide (x.cls ≠ ((m.modes.find? (fun y => y.id == x.id)).map ModeRun.cls).getD [])) ||
    gone.any (fun x => !x.cls.isEmpty)
  let s := s.setMt t { m with modes := kept, nextId := next }
  let test := s.mtTest t
  let s := gone.foldl (fun s x => s.modeAlarms t m.subGtf test [] x.id) s
  let s := kept.foldl (fun s x => s.modeAlarms t m.subGtf test x.cls x.id) s
  if changed || m.update % max (s.parN Par.MOD.MT_REPORT_EVERY t) 1 = 0 then s.modeUpdate t m.subGtf else s

/-- MT_EXTRACTION_DONE. -/
def execMtExtractionDone (dt : Nat) (tracker : Nat) (s : State) : Out :=
  let s := s.advance dt
  let m := s.mt tracker
  .next (if s.measuring && s.runs 7 && m.running then
    let s := (s.setMt tracker { m with running := false, update := m.update + 1 }).count2 0x0705 (tracker + 1) 1
    if m.st = 2 then s.mtModes tracker
    else if (m.update + 1) % max (s.parN Par.MOD.MT_REPORT_EVERY tracker) 1 = 0 then s.modeUpdate tracker m.subGtf else s
  else s)

/-- A commit boundary that changes an M parameter of a tracker, or its pod's members or slot rate (R202): mode alarms
cleared, then off, or WARMING from the boundary. -/
def State.mtCommit (s : State) (t boundary : Nat) : State :=
  let was := (s.mt t).st
  let s := (s.clearModes t boundary).alarmT 7 7 (mtInst t 255) false false boundary
  if s.parB Par.MOD.MT_ENABLE t then
    let s := s.mtRestart t boundary
    if was = 2 ∨ was = 3 then s.modeUpdate t (s.mt t).estGtf else s
  else s.setMt t Mt.init

/-- UNIT_RESET of unit 0x07, after its epoch has advanced (R210): detectors and trackers drop out and restart. -/
def State.oscReset (s : State) : State :=
  let s := (List.range 256).foldl (fun s d =>
    if (s.osc.fd.get? d).isSome || s.parB Par.MOD.FD_ENABLE d then
      let s := (s.alarmT 7 1 d false false s.now).alarmT 7 6 d false false s.now
      let f := s.fd d
      s.setFd d (if s.parB Par.MOD.FD_ENABLE d then
        { s.fdStart d with lastGtf := f.lastGtf, fromGtf := f.fromGtf } else Fd.init)
    else s) s
  let s := [0, 1, 2, 3].foldl (fun s t =>
    if (s.mt t).st = 0 then s
    else
      let was := s.mt t
      let s := (s.clearModes t s.now).alarmT 7 7 (mtInst t 255) false false s.now
      let s := s.mtRestart t was.fromGtf
      if was.st = 2 ∨ was.st = 3 then s.modeUpdate t was.estGtf else s) s
  s.refreshAlm

end Sys2Proof.Machine
end

