-- ==== Sys2Proof/Machine/Armature.lean ====
section
/-! DEFINITION. The armature and the balance engine (08): connectivity, measurement tests, islands with their alarms and
ISLAND_UPDATE, balance alarms and reconciliation. -/

namespace Sys2Proof.Machine

open Sys2Proof

/-! ### Networks and nodes (R215) -/

/-- The fields of ARM.NODE. -/
structure NodeDef where
  source : Bool
  anchor : Bool
  net    : Nat
  posA   : Nat
  posB   : Nat
  dp0    : Word
  dpk    : Word
  deriving DecidableEq, Repr

/-- A node definition from its words. -/
def nodeDefOf (w : List Word) : NodeDef :=
  { source := (w.getD 0 0).getLsbD 30, anchor := (w.getD 0 0).getLsbD 29, net := wordBits w 0 27 24
    posA := wordBits w 0 17 0, posB := wordBits w 1 17 0, dp0 := w.getD 2 0, dpk := w.getD 3 0 }

/-- "None" of a position field. -/
def noPos : Nat := 0x3FFFF

/-- The used nodes of active networks. -/
def State.nodes (s : State) : List (Nat × NodeDef) :=
  ((s.parList Par.ARM.NODE).filter (fun p => (p.2.getD 0 0).getLsbD 31)).map (fun p => (p.1, nodeDefOf p.2)) |>.filter
    (fun p => s.parN Par.ARM.NET_TYPE p.2.net != 0)

/-- A node's run state. -/
def State.node (s : State) (n : Nat) : Node := s.arm.node.getD n Node.init

/-- Replace a node's run state. -/
def State.setNode (s : State) (n : Nat) (x : Node) : State :=
  { s with arm := { s.arm with node := s.arm.node.put Node.init n x } }

/-- A network's run state. -/
def State.net (s : State) (n : Nat) : Net := s.arm.net.getD n Net.init

/-- Replace a network's run state. -/
def State.setNet (s : State) (n : Nat) (x : Net) : State :=
  { s with arm := { s.arm with net := s.arm.net.put Net.init n x } }

/-! ### Connectivity (R219, R220) -/

/-- Join the components of two nodes: both take the lower label. -/
def joinLabels (l : AMap Nat) (a b : Nat) : AMap Nat :=
  match l.get? a, l.get? b with
  | some x, some y => l.map (fun p => (p.1, if p.2 = max x y then min x y else p.2))
  | _, _ => l

/-- The component of each node, named by its lowest node, over closed branches. -/
def components (nodes : List Nat) (edges : List (Nat × Nat)) : AMap Nat :=
  edges.foldl (fun l e => joinLabels l e.1 e.2) (nodes.map (fun n => (n, n)))

/-- Put the components of the recompute into the nodes: 0 main, 1 island, 4 de-energised; other nodes are unused (R220,
R228). -/
def State.applyTopology (s : State) : State :=
  let nodes := s.nodes
  let edges := (s.branches.filter (fun b => (s.branch b.1).applied)).map (fun b => (b.2.from_, b.2.to_))
  let comp := components (nodes.map Prod.fst) edges
  let inComp := fun c (f : NodeDef → Bool) => nodes.any (fun n => comp.get? n.1 == some c && f n.2)
  let cls := fun c => if inComp c NodeDef.anchor then 0 else if inComp c NodeDef.source then 1 else 4
  let s := { s with arm := { s.arm with node := s.arm.node.filter (fun p => nodes.any (fun n => n.1 == p.1)) } }
  nodes.foldl (fun s n =>
    let c := comp.getD n.1 n.1
    s.setNode n.1 { s.node n.1 with cls := cls c, comp := c }) s

/-! ### Islands (R224 to R228) -/

/-- A branch that touches one of these nodes is in its BAD_RULE state (R228). -/
def State.uncertain (s : State) (members : List Nat) : Bool :=
  s.branches.any (fun b => ((s.branch b.1).bad || (s.branch b.1).assumed) &&
    (members.contains b.2.from_ || members.contains b.2.to_))

/-- The network is NO_REF, and the ARM.MEAS_PERSIST slots in which that changes no class are over (R225). -/
def State.refLost (s : State) (n : Nat) : Bool :=
  (s.net n).noRef && decide (s.parN Par.ARM.MEAS_PERSIST n < (s.net n).badRun)

/-- A node is measured: it names a position (R222). -/
def NodeDef.measured (d : NodeDef) (ty : Nat) : Bool := d.posA != noPos || (ty == 1 && d.posB != noPos)

/-- The island record of a set of nodes with a reference. -/
def State.islandOf (s : State) (net id cls : Nat) (noMeas : Bool) (ref : Option Nat) (members : List Nat) : Island :=
  { net := net, id := id, cls := cls, noMeas := noMeas, unsure := s.uncertain members, refNode := ref.getD 0xFFF
    members := members, sources := (s.nodes.filter (fun n => members.contains n.1 && n.2.source)).length
    diff := (ref.bind (fun r => (s.node r).diff)).getD f32Nan
    drift := if s.parN Par.ARM.NET_TYPE net = 2 then 0 else (ref.bind (fun r => (s.node r).drift)).getD f32Nan }

/-- A topological island in NO_REF: it keeps its class for ARM.MEAS_PERSIST slots; after them a confirmed one is a TOPO_ISLAND with
NO_MEAS (R225). `i` is the island as its counts make it. -/
def State.noRefIsland (s : State) (i : Island) : Island :=
  let nan := { i with diff := f32Nan, drift := if s.parN Par.ARM.NET_TYPE i.net = 2 then 0 else f32Nan }
  if s.refLost i.net then
    (if i.cls = 3 then { nan with cls := 1, noMeas := true, refNode := 0xFFF } else nan)
  else
    match s.arm.islands.find? (fun j => j.net == i.net && j.id == i.id && j.cls != 2) with
    | some j => { nan with cls := j.cls, noMeas := j.noMeas, refNode := j.refNode }
    | none => nan

/-- The islands of one network, in ascending ID (R220, R224, R225). -/
def State.netIslands (s : State) (n : Nat) : List Island :=
  let nodes := s.nodes.filter (fun x => x.2.net == n)
  let ty := s.parN Par.ARM.NET_TYPE n
  let lost := s.refLost n
  let topo := (nodes.filter (fun x => (s.node x.1).cls == 1 && (s.node x.1).comp == x.1)).map (fun x =>
    let members := (nodes.filter (fun y => (s.node y.1).comp == x.1)).map Prod.fst
    let ref := (nodes.find? (fun y => members.contains y.1 && y.2.measured ty && (s.node y.1).valid)).map Prod.fst
    let conf := ref.any (fun r => (s.node r).diverged)
    let i := s.islandOf n x.1 (if conf then 3 else 1) ref.isNone ref members
    if (s.net n).noRef then s.noRefIsland i else i)
  let div := if lost then [] else
    (nodes.filter (fun x => (s.node x.1).cls == 0 && x.2.measured ty && (s.node x.1).diverged)).map Prod.fst
  let meas := match div with
    | [] => []
    | r :: _ => [s.islandOf n r 2 false (some r) div]
  (topo ++ meas).mergeSort (fun a b => decide (a.id ≤ b.id))

/-- The islands of every network, in ascending network and ID. -/
def State.allIslands (s : State) : List Island := (List.range 16).flatMap s.netIslands

/-- The alarm of an island: class and instance (R227). -/
def Island.key (i : Island) : Nat × Nat := (i.cls, i.net * 4096 + i.id)

/-- What ISLAND_UPDATE reports of an island but for the measured values (R228). -/
def Island.shape (i : Island) : List Nat :=
  [i.net, i.id, i.cls, bitAt i.noMeas 0, bitAt i.unsure 0] ++ i.members

/-- The words of an island record (R228). -/
def islandWords (i : Island) : List Word :=
  [BitVec.ofNat 32 (i.cls * 2 ^ 28 + bitAt i.noMeas 27 + bitAt i.unsure 26 + i.id * 2 ^ 12 + i.refNode),
   BitVec.ofNat 32 (i.members.length * 65536 + i.sources), i.diff, i.drift]

/-- The islands held: at most 256 (R226). -/
def heldOf (l : List Island) : List Island := l.take 256

/-- The islands held now. -/
def State.heldIslands (s : State) : List Island := heldOf s.arm.islands

/-- Send ISLAND_UPDATE of a network (R228). -/
def State.islandUpdate (s : State) (n reason g : Nat) : State :=
  let l := s.heldIslands.filter (fun i => i.net == n)
  s.notify 0xC00D 0 8
    ([BitVec.ofNat 32 (n * 2 ^ 28 + reason * 2 ^ 26 + bitAt (s.arm.overNets.contains n) 25 + bitAt (s.net n).noRef 24 + l.length)] ++
     gtfWords g ++ [s.arm.topoSeq] ++ l.flatMap islandWords)

/-- Replace the islands by those that follow from nodes, counts and flags: at most 256 held, ISLAND_OVERFLOW, alarms cleared and then
raised under one GTF (R220, R224, R226, R227). Answers the islands before. -/
def State.updateIslands (s : State) (g : Nat) (test : Bool) : State × List Island :=
  let old := s.arm.islands
  let all := s.allIslands
  let held := heldOf all
  let extra := ((all.drop 256).map Island.net).dedup
  let s := { s with arm := { s.arm with islands := all, overNets := extra } }
  let s := if extra.isEmpty then s else s.count 0x0805 0 1
  let s := s.alarmT 8 6 0 (!extra.isEmpty) test g
  let gone := (heldOf old).filter (fun i => !(held.any (fun j => decide (j.key = i.key))))
  let new := held.filter (fun i => !((heldOf old).any (fun j => decide (j.key = i.key))))
  let s := gone.foldl (fun s i => s.alarmT 8 i.cls (i.net * 4096 + i.id) false test g) s
  (new.foldl (fun s i => s.alarmT 8 i.cls (i.net * 4096 + i.id) true test g) s, old)

/-- Send ISLAND_UPDATE for every network whose islands changed by a comparison of their records. -/
def State.reportIslands {α : Type} [DecidableEq α] (s : State) (old : List Island) (f : Island → α) (reason : Nat → Nat) (g : Nat)
    (always : Nat → Bool) : State :=
  (List.range 16).foldl (fun s n =>
    let a := (old.filter (fun i => i.net == n)).map f
    let b := (s.arm.islands.filter (fun i => i.net == n)).map f
    if always n || !decide (a = b) then s.islandUpdate n (reason n) g else s) s

/-- A recompute finishes: TOPO_SEQ and the count advance; if changes wait, the next starts at once and nothing is reported; else
components, islands, alarms and ISLAND_UPDATE (R219, R220, R228). `fresh`: a network that takes its first edition after a reset, which
reports with REASON 3 (R232). -/
def State.recomputeDone (s : State) (fresh : Option Nat) : State :=
  let s := { s with arm := { s.arm with topoSeq := s.arm.topoSeq + 1, running := false } }.count 0x0801 0 1
  match s.arm.nextStamp with
  | some (t, b) => s.startRecompute t b
  | none =>
    let (g, test) := s.arm.stamp.getD (s.now, false)
    let s := s.applyTopology
    let (s, old) := s.updateIslands g test
    s.reportIslands old Island.shape (fun n => if some n = fresh then 3 else 0) g (fun n => some n == fresh)

/-- ARM_RECOMPUTE_DONE. -/
def execArmRecomputeDone (dt : Nat) (s : State) : Out :=
  let s := s.advance dt
  .next (if s.measuring && s.runs 8 && s.arm.running then s.recomputeDone none else s)

/-- ARM_STATUS_CHANGE: a branch's effective state changes, with the stamp of the change (R219). -/
def execArmStatusChange (dt : Nat) (branch : Nat) (closed : Bool) (stamp : Nat) (s : State) : Out :=
  let s := s.advance dt
  .next (if s.measuring && s.runs 8 && s.branches.any (fun b => b.1 == branch) then
    s.branchSet branch closed stamp false else s)

/-- A DIN land's debounced level reports the branches that read it (R217). -/
def State.dinReport (s : State) (land : Nat) (stamp : Nat) : State :=
  (s.branches.filter (fun b => b.2.kind == 3 && bitsOf b.2.where_ 2 0 == land)).foldl (fun s b =>
    s.branchReport b.1 b.2 (.valid (s.arm.din.getD land false != b.2.invert)) stamp false) s

/-- DIN_STATUS_DEBOUNCED: a land has held a level for ARM.DIN_DEBOUNCE_US; `stamp` is the first edge of that level. -/
def execDinStatusDebounced (dt : Nat) (land : Nat) (level : Bool) (stamp : Nat) (s : State) : Out :=
  let s := s.advance dt
  .next (if decide (land < 8) && decide (stamp + 1000 * s.parN Par.ARM.DIN_DEBOUNCE_US land ≤ s.now) then
    let s := { s with arm := { s.arm with din := s.arm.din.put false land level }
                      lands := { s.lands with din := s.lands.din.put false land level } }
    if s.measuring && s.runs 8 then s.dinReport land stamp else s
  else s)

/-- TRAVEL_TIMEOUT: an intermediate double-point has lasted ARM.TRAVEL_MS (R218). -/
def execTravelTimeout (dt : Nat) (branch : Nat) (s : State) : Out :=
  let s := s.advance dt
  .next (if s.measuring && s.runs 8 &&
      (s.branch branch).interAt.any (fun t => decide (t + 1000000 * s.parN Par.ARM.TRAVEL_MS 0 ≤ s.now)) then
    match s.branches.find? (fun b => b.1 == branch) with
    | some b => s.branchBad branch b.2 (s.branch branch).interAt s.now false
    | none => s
  else s)

/-! ### Measurement tests (R221 to R225) -/

/-- The entry at a position of an edition. -/
def Slot.at_ (x : Slot) (n pos : Nat) : Option Entry :=
  if pos < x.defn.positions.length then some (x.entryAt n pos) else none

/-- A good value at a position of a first edition. -/
def State.goodAt (s : State) (n : Nat) (x : Slot) (pos : Nat) : Option Word :=
  if pos = noPos then none
  else match x.at_ 0 pos with
    | some e => if entryBad (s.parB Par.ARM.MEAS_USE_SUBST n) e then none else some e.v
    | none => none

/-- A node's measurement is valid in a slot (R221). -/
def State.measValid (s : State) (n : Nat) (x : Slot) (d : NodeDef) : Bool :=
  let ok := fun p => p == noPos || (s.goodAt n x p).isSome
  if s.parN Par.ARM.NET_TYPE n = 1 then d.measured 1 && ok d.posA && ok d.posB
  else (s.goodAt n x d.posA).isSome

/-- wrap() into (−π, π] of a binary64 number; not finite values stay NaN. -/
def wrap64 (a : DWord) : DWord :=
  match (f64Val a).rat? with
  | some q => f64OfRat (wrapRad q)
  | none => f64Nan

/-- The result of the tests of one node: a test holds, a test was skipped, DIFF and DRIFT, and the angle difference. -/
structure MeasRes where
  holds : Bool
  skip  : Bool
  diff  : Option Word
  drift : Option Word
  delta : Option DWord
  deriving DecidableEq, Repr

/-- |a| > b with b a binary32 level. -/
def exceeds (a : DWord) (level : FVal) : Bool := level.lt (f64Val (f64Abs a))

/-- The electrical tests of a node against the anchor (R222). -/
def State.elecTest (s : State) (n g : Nat) (x : Slot) (i : Nat) (d a : NodeDef) : MeasRes :=
  let df := match s.goodAt n x d.posA, s.goodAt n x a.posA with
    | some u, some v => some (f64Sub (f64Of32 u) (f64Of32 v))
    | _, _ => none
  let delta := match s.goodAt n x d.posB, s.goodAt n x a.posB with
    | some u, some v => some (wrap64 (f64Sub (f64Of32 u) (f64Of32 v)))
    | _, _ => none
  let span := s.parN Par.ARM.ANGLE_SPAN_SLOTS n
  let r := x.defn.rate
  let before := ((s.net n).deltas.get? (gridAt r (gridIndex r g - span))).bind (fun m => m.get? i)
  let drift := match delta, before with
    | some u, some v => some (f64Mul (wrap64 (f64Sub u v)) (f64OfRat ((r : Rat) / span)))
    | _, _ => none
  { holds := df.any (fun u => exceeds u (FVal.ofRat ((s.parN Par.ARM.F_DIFF_MHZ n : Rat) / 1000))) ||
      drift.any (fun u => exceeds u (f32Val (s.parW Par.ARM.ANGLE_RATE n)))
    skip := delta.isSome && drift.isNone
    diff := df.map f32Of64, drift := drift.map f32Of64, delta := delta }

/-- The pressure test of a node against the anchor; DIFF is the node's side of it less the anchor's (R222, R228). -/
def State.pipeTest (s : State) (n : Nat) (x : Slot) (d a : NodeDef) : MeasRes :=
  match s.goodAt n x d.posA, s.goodAt n x a.posA with
  | some u, some v =>
    let q := f64Of32 ((s.goodAt n x d.posB).getD 0)
    let drop := f64Add (f64Of32 d.dp0) (f64Mul (f64Of32 d.dpk) (f64Mul q (f64Abs q)))
    let e := f64Sub drop (f64Sub (f64Of32 v) (f64Of32 u))
    { holds := exceeds e (f32Val (s.parW Par.ARM.P_TOL_PA n)), skip := false, diff := some (f32Of64 e), drift := none, delta := none }
  | _, _ => { holds := false, skip := false, diff := none, drift := none, delta := none }

/-- A node's counts after a slot (R223). -/
def State.measNode (s : State) (n i : Nat) (valid : Bool) (m : MeasRes) : State :=
  let x := s.node i
  if !valid then s.setNode i { x with valid := false, divergent := false, diff := none, drift := none }
  else
    let k := s.parN Par.ARM.MEAS_PERSIST n
    let x := { x with valid := true, divergent := m.holds, diff := m.diff, drift := m.drift }
    if m.skip then s.setNode i x
    else
      let dn := if m.holds then x.divN + 1 else 0
      let an := if m.holds then 0 else x.agrN + 1
      s.setNode i { x with
        divN := dn, agrN := an, diverged := if x.diverged then decide (an < k) else decide (k ≤ dn) }

/-- The tests of a network on an edition, and its islands after them (R222 to R225). -/
def State.measure (s : State) (n g : Nat) (x : Slot) : State :=
  let nodes := s.nodes.filter (fun d => d.2.net == n)
  let ty := s.parN Par.ARM.NET_TYPE n
  match nodes.find? (fun d => d.2.anchor) with
  | none => s
  | some (ai, a) =>
    let was := (s.net n).noRef
    let aOk := s.measValid n x a
    let net := s.net n
    let s := s.setNet n { net with noRef := !aOk, badRun := if aOk then 0 else net.badRun + 1 }
    let s := s.setNode ai { s.node ai with valid := aOk }
    let others := nodes.filter (fun d => d.1 != ai && d.2.measured ty)
    let s :=
      if aOk then
        let res := others.map (fun d =>
          (d.1, s.measValid n x d.2, if ty = 1 then s.elecTest n g x d.1 d.2 a else s.pipeTest n x d.2 a))
        let ds := res.filterMap (fun r => if r.2.1 then r.2.2.delta.map (fun v => (r.1, v)) else none)
        let s := res.foldl (fun s r => s.measNode n r.1 r.2.1 r.2.2) s
        let span := s.parN Par.ARM.ANGLE_SPAN_SLOTS n
        let net := s.net n
        let keep := net.deltas.filter (fun z => decide (gridIndex x.defn.rate g < gridIndex x.defn.rate z.1 + span))
        s.setNet n { net with deltas := AMap.set keep g ds }
      else others.foldl (fun s d => s.setNode d.1 { s.node d.1 with
        valid := s.measValid n x d.2, divergent := false, diff := none, drift := none }) s
    if aOk || s.refLost n then
      let (s, old) := s.updateIslands g false
      let s := s.reportIslands old (fun i => (i.net, i.id, i.cls)) (fun _ => 1) g (fun _ => false)
      if was = aOk then s.islandUpdate n 2 g else s
    else if was = aOk then s.islandUpdate n 2 g else s

/-- The status bits of an edition (R217, R218). -/
def State.statusBits (s : State) (n g : Nat) (x : Slot) : State :=
  let mine := s.branches.filter (fun b => (b.2.kind == 1 || b.2.kind == 2) && (s.nodes.any (fun d => d.1 == b.2.from_ && d.2.net == n)))
  mine.foldl (fun s b =>
    match x.at_ 0 (bitsOf b.2.where_ 17 0) with
    | some e =>
      let bad := qHas e.quality (qPoison + qInvalid + qSubst) || !qHas e.quality qPresent
      s.branchReport b.1 b.2 (if bad then .bad else statusOf b.2 e.v) g (qHas e.quality qTest)
    | none => s) s

/-- A network takes a first edition: status bits, the recompute they cause, measurement tests (R221). The first after a reset
recomputes whatever its bits say, and reports (R232). -/
def State.armTake (s : State) (n g : Nat) (x : Slot) : State :=
  if (s.net n).lastGtf.any (fun l => decide (g ≤ l)) then s.count 0x0804 0 1
  else
    let s := s.setNet n { s.net n with lastGtf := some g }
    let before := (s.ctr 0x0802 0)
    let s := s.statusBits n g x
    let fresh := if s.arm.resend.contains n then some n else none
    let s := { s with arm := { s.arm with resend := s.arm.resend.filter (fun k => k != n) } }
    let s := if fresh.isSome && !s.arm.running then s.needRecompute g false else s
    let s := if fresh.isNone && s.ctr 0x0802 0 = before then s
      else
        let s := if s.arm.running then s.recomputeDone (if s.arm.nextStamp.isSome then none else fresh) else s
        if s.arm.running then s.recomputeDone fresh else s
    s.measure n g x

/-- ARM_MEAS_EVALUATE: network `net` and the slot's nominal time. -/
def execArmMeasEvaluate (dt : Nat) (net slot : Nat) (s : State) : Out :=
  let s := s.advance dt
  .next (if s.measuring && s.runs 8 && s.parN Par.ARM.NET_TYPE net != 0 then
    match s.slot? (s.parN Par.ARM.NET_POD net) slot with
    | some x => if x.closed && x.ready then s.armTake net slot x else s
    | none => s
  else s)

/-- ARM.NODE_STATE (R228): the class of the island that holds the node, or its component's. -/
def State.nodeState (s : State) (i : Nat) : Word :=
  if !(s.nodes.any (fun d => d.1 == i)) then 0x50000000
  else
    let x := s.node i
    let isl := s.heldIslands.find? (fun j => j.members.contains i)
    let (c, id) := match isl with
      | some j => (j.cls, j.id)
      | none => (x.cls, x.comp)
    BitVec.ofNat 32 (c * 2 ^ 28 + id * 2 ^ 16 + bitAt x.diverged 2 + bitAt x.divergent 1 + bitAt x.valid 0)

/-- ARM.BRANCH_STATE (R234): an intermediate state that has lasted too long is bad (R218). -/
def State.branchState (s : State) (b : Nat) : Word :=
  if s.branches.any (fun d => d.1 == b) then
    let x := s.branch b
    BitVec.ofNat 32 (bitAt x.closed 0 + bitAt x.bad 1 + bitAt (x.interAt.isSome && !x.bad) 2)
  else 0

/-! ### Balance (R229, R230) -/

/-- A balance group's run state. -/
def State.bal (s : State) (g : Nat) : Bal := s.arm.bal.getD g Bal.init

/-- Replace a balance group's run state. -/
def State.setBal (s : State) (g : Nat) (x : Bal) : State :=
  { s with arm := { s.arm with bal := s.arm.bal.put Bal.init g x } }

/-- The used terms of a group: position and factor. -/
def State.balTerms (s : State) (g : Nat) : List (Nat × Word) :=
  let ws := s.par Par.ARM.BAL_TERMS g
  ((List.range 256).filter (fun i => (ws.getD (2 * i) 0).getLsbD 31)).map (fun i =>
    (wordBits ws (2 * i) 17 0, ws.getD (2 * i + 1) 0))

/-- The products f·x of an edition, none when a term is bad (R229, R230). -/
def products (terms : List (Nat × Word)) (useSubst : Bool) (x : Slot) (n : Nat) : Option (List DWord) :=
  terms.mapM (fun t => match x.at_ n t.1 with
    | some e => if entryBad useSubst e then none else some (f64Mul (f64Of32 t.2) (f64Of32 e.v))
    | none => none)

/-- Sum in binary64, in term order. -/
def sum64 (l : List DWord) : DWord := l.foldl f64Add 0

/-- The alarm rule of a group (R230). -/
def State.balJudge (s : State) (g slot : Nat) (p : List DWord) : State :=
  let r := sum64 p
  let tput := f64Div (sum64 (p.map f64Abs)) (f64OfInt 2)
  let tau := f64Add (f64Of32 (s.parW Par.ARM.BAL_TOL_ABS g))
    (f64Mul (f64Div (f64Of32 (s.parW Par.ARM.BAL_TOL_PCT g)) (f64OfInt 100)) tput)
  let x := s.bal g
  let above := f64Lt tau (f64Abs r)
  let below := (f64Val (f64Abs r)).le (f64Val (f64Mul (f64OfRat (4 / 5)) tau))
  let x := { x with
    resid := f32Of64 r, overN := if above then x.overN + 1 else 0, underN := if !above && below then x.underN + 1 else 0 }
  let k := s.parN Par.ARM.BAL_PERSIST g
  let up := !x.raised && decide (k ≤ x.overN)
  let s := s.setBal g { x with raised := x.raised || up }
  let s := if up then (s.count2 0x0807 (g + 1) 1).alarm 8 4 g true slot else s
  let x := s.bal g
  if x.raised && decide (k ≤ x.underN) then (s.setBal g { x with raised := false }).alarm 8 4 g false slot else s

/-- A group takes the first edition of a slot of its pod, once, from its last boundary on (R22, R230, R469). -/
def State.balFirst (s : State) (g p slot : Nat) : State :=
  match s.slot? p slot with
  | some x =>
    if x.closed && x.ready && s.parB Par.ARM.BAL_ENABLE g && s.parN Par.ARM.BAL_POD g == p && decide ((s.bal g).fromGtf ≤ slot) &&
        !x.took.contains (0, g) then
      let s := s.setSlot p slot { x with took := x.took ++ [(0, g)] }
      match products (s.balTerms g) (s.parB Par.ARM.BAL_USE_SUBST g) x 0 with
      | some l => s.balJudge g slot l
      | none => s.count2 0x0806 (g + 1) 1
    else s
  | none => s

/-- BAL_EVALUATE: group and the slot's nominal time, on its first edition (R230, R469). -/
def execBalEvaluate (dt : Nat) (group slot : Nat) (s : State) : Out :=
  let s := s.advance dt
  .next (if s.measuring && s.runs 8 then s.balFirst group (s.parN Par.ARM.BAL_POD group) slot else s)

/-! ### Reconciliation (R231, R469) -/

/-- Grid instants at rate `r` in [a, b). -/
def gridCount (r a b : Nat) : Nat :=
  let up := fun t => let i := gridIndex r t; if gridAt r i < t then i + 1 else i
  up b - up a

/-- A running interval of a group from `a` to `b`, under the definition in force. -/
def State.recInt (s : State) (g a b : Nat) : RecInt :=
  let p := s.parN Par.ARM.BAL_POD g
  let r := s.parN Par.ALN.SLOT_RATE p
  { start := a, stop := b, terms := s.balTerms g, useSubst := s.parB Par.ARM.BAL_USE_SUBST g, rate := r
    expected := gridCount r a b, evaluated := 0, subst := 0, revised := 0, inSum := 0, outSum := 0, pod := p
    finalNs := s.parN Par.ALN.WAIT_NS p + 1000000 * s.parN Par.ALN.REV_HORIZON_MS p, seen := 0 }

/-- The interval length in ns; 0 off. -/
def State.recNs (s : State) (g : Nat) : Nat := if s.parB Par.ARM.BAL_ENABLE g then sec * s.parN Par.ARM.BAL_REC_S g else 0

/-- Add a final edition to an interval (R231). -/
def RecInt.add (i : RecInt) (x : Slot) : RecInt :=
  match products i.terms i.useSubst x x.edition with
  | none => i
  | some p =>
    let rate := f64OfInt i.rate
    let pos := p.filter (fun v => f64Lt 0 v)
    let neg := (p.filter (fun v => f64Lt v 0)).map f64Abs
    let sub := i.terms.any (fun t => (x.at_ x.edition t.1).any (fun e => qHas e.quality qSubst))
    { i with
      evaluated := i.evaluated + 1, subst := i.subst + (if sub then 1 else 0)
      revised := i.revised + (if 0 < x.edition then 1 else 0)
      inSum := f64Add i.inSum (f64Div (sum64 pos) rate), outSum := f64Add i.outSum (f64Div (sum64 neg) rate) }

/-- The interval holds a slot of a pod (R231). -/
def RecInt.holds (i : RecInt) (p slot : Nat) : Bool := i.pod == p && decide (i.start ≤ slot) && decide (slot < i.stop)

/-- A slot of the pod after the last interval starts the one that follows it; the last slots of the earlier one may still be to come
(R231). -/
def State.recNext (s : State) (g p slot : Nat) : State :=
  let n := s.recNs g
  let b := s.bal g
  match b.runs.getLast? with
  | some i =>
    if n ≠ 0 ∧ i.stop ≤ slot ∧ s.parN Par.ARM.BAL_POD g = p then
      s.setBal g { b with runs := b.runs ++ [s.recInt g i.stop ((i.stop / n + 1) * n)] } else s
  | none => s

/-- A balance group takes the final edition of a slot, once, into the interval that holds it (R22, R231). -/
def State.balTake (s : State) (g p slot : Nat) : State :=
  match s.slot? p slot with
  | some x =>
    if x.closed && x.final && !x.took.contains (1, g) then
      let s := s.recNext g p slot
      let b := s.bal g
      if b.runs.any (fun i => i.holds p slot) then
        (s.setSlot p slot { x with took := x.took ++ [(1, g)] }).setBal g { b with
          runs := b.runs.map (fun i => if i.holds p slot then { i.add x with seen := i.seen + 1 } else i) }
      else s
    else s
  | none => s

/-- The groups of a pod take a final edition (R174, R231). -/
def State.balTakeAll (s : State) (p slot : Nat) : State :=
  if s.runs 8 then (List.range 64).foldl (fun s g => s.balTake g p slot) s else s

/-- BAL_REC_SLOT: group and the slot's nominal time, on its final edition (R231). -/
def execBalRecSlot (dt : Nat) (group slot : Nat) (s : State) : Out :=
  let s := s.advance dt
  .next (if s.measuring && s.runs 8 then
    ((s.parN Par.ARM.BAL_POD group :: (s.bal group).runs.map RecInt.pod).eraseDups).foldl (fun s p => s.balTake group p slot) s
  else s)

/-- The report of an interval: REJECTED is what was expected and not added (R231). -/
def RecInt.report (i : RecInt) : List Word :=
  gtfWords i.start ++ [BitVec.ofNat 32 i.expected, BitVec.ofNat 32 i.evaluated, BitVec.ofNat 32 i.subst,
    BitVec.ofNat 32 i.revised, BitVec.ofNat 32 (i.expected - i.evaluated)] ++ words64 i.inSum.toNat ++
    words64 i.outSum.toNat ++ words64 (f64Sub i.inSum i.outSum).toNat

/-- Close the oldest interval of a group: report and event record (R231). -/
def State.recClose (s : State) (g : Nat) : State :=
  let b := s.bal g
  match b.runs with
  | [] => s
  | i :: rest =>
    let s := s.setBal g { b with last := i.report, runs := rest, recFrom := max b.recFrom i.stop }
    s.logEv 0x0801 8 s.now (evPar (f32Of64 (f64Sub i.inSum i.outSum)).toNat g)

/-- Start the interval that follows the last one of a group, if the group reconciles and none runs after it. -/
def State.recFollow (s : State) (g stop : Nat) : State :=
  let n := s.recNs g
  let b := s.bal g
  if n = 0 ∨ !b.runs.isEmpty then s
  else s.setBal g { b with runs := [s.recInt g stop ((stop / n + 1) * n)] }

/-- The last grid instant of an interval. -/
def RecInt.lastSlot (i : RecInt) : Nat :=
  let k := gridIndex i.rate i.stop
  if gridAt i.rate k < i.stop then gridAt i.rate k else gridAt i.rate (k - 1)

/-- An interval is over: each slot of it that is held has been taken, and either all have, or the last would have been final
(R231). -/
def State.recOver (s : State) (g : Nat) (i : RecInt) : Bool :=
  decide (i.stop ≤ s.now) && (s.podSt i.pod).slots.all (fun z => !i.holds i.pod z.1 || z.2.took.contains (1, g)) &&
    (decide (i.expected ≤ i.seen) || decide (i.lastSlot + i.finalNs ≤ s.now))

/-- BAL_REC_INTERVAL_CLOSE: the oldest interval is over (R231, R469). -/
def execBalRecIntervalClose (dt : Nat) (group : Nat) (s : State) : Out :=
  let s := s.advance dt
  .next (if s.measuring && s.runs 8 then
    match (s.bal group).runs with
    | i :: _ =>
      if s.recOver group i then (s.recClose group).recFollow group i.stop else s
    | [] => s
  else s)

/-- A commit boundary that touches a group (R469): the alarm cleared, counts zero, the running interval ends there, a
partial one starts. -/
def State.balCommit (s : State) (g boundary : Nat) : State :=
  let s := s.alarmT 8 4 g false false boundary
  let b := s.bal g
  let cut := (b.runs.filter (fun i => decide (i.start < boundary))).map (fun i => if boundary < i.stop then
    { i with stop := boundary, expected := gridCount i.rate i.start boundary } else i)
  let n := s.recNs g
  let new := if n = 0 then [] else [s.recInt g boundary ((boundary / n + 1) * n)]
  s.setBal g { b with overN := 0, underN := 0, raised := false, fromGtf := boundary, runs := cut ++ new }

/-! ### Reset, resume, commits (R232) -/

/-- A branch takes its first state after a reset, a boot or a commit that changes it: KIND 0 closed, a DIN land or the
latest GOOSE message read, an aligned one in its BAD_RULE state until the next edition (R232). -/
def State.branchStart (s : State) (b : Nat) (d : BranchDef) (stamp : Nat) : State :=
  let s := s.setBranch b { Branch.init with closed := true }
  match d.kind with
  | 0 => s
  | 3 => s.branchReport b d (.valid (s.arm.din.getD (bitsOf d.where_ 2 0) false != d.invert)) stamp false
  | 4 | 5 =>
    let x := s.src (bitsOf d.where_ 19 7)
    if x.st = 3 then s.branchReport b d .bad stamp false
    else
      match x.goose.head?.bind (fun m => (m.values.get? (bitsOf d.where_ 6 0)).map (fun v => (m, v))) with
      | some (m, v) => s.branchReport b d (if qHas v.2 (qInvalid + qPoison) then .bad else statusOf d v.1) m.stamp (qHas v.2 qTest)
      | none => s
  | _ => s.setBranch b { Branch.init with closed := badState d Branch.init, assumed := true }

/-- The armature starts: branch states and a recompute; each active network reports at its next first edition; intervals, the first
after those that a reset closed (R232). -/
def State.armStart (s : State) : State :=
  let s := s.branches.foldl (fun s b => s.branchStart b.1 b.2 s.now) s
  let s := { s with arm := { s.arm with
    resend := (List.range 16).filter (fun n => s.parN Par.ARM.NET_TYPE n != 0) } }.needRecompute s.now false
  (List.range 64).foldl (fun s g =>
    let n := s.recNs g
    if n = 0 ∨ !(s.bal g).runs.isEmpty then s
    else
      let a := max (s.now / n * n) (s.bal g).recFrom
      s.setBal g { s.bal g with runs := [s.recInt g a ((a / n + 1) * n)] }) s

/-- UNIT_RESET of unit 0x08, after its epoch has advanced (R232). -/
def State.armReset (s : State) : State :=
  let mine := s.alarms.filter (fun a => a.1 == 8)
  let s := mine.foldl (fun s a => s.alarmT 8 a.2.1 a.2.2 false false s.now) s
  let s := (List.range 64).foldl (fun s g =>
    let s := (s.bal g).runs.foldl (fun s _ => s.recClose g) s
    if (s.arm.bal.get? g).isSome then s.setBal g { s.bal g with overN := 0, underN := 0, raised := false } else s) s
  { s with arm := { s.arm with
      branch := [], node := [], islands := [], overNets := [], net := [], running := false, stamp := none, nextStamp := none
      resend := [] } }

/-- A commit boundary touches the armature: changed branches and nodes start afresh, changed networks too, and a recompute
follows (R215, R219). -/
def State.armCommit (s : State) (branches nodes nets : List Nat) (boundary : Nat) : State :=
  if branches.isEmpty && nodes.isEmpty && nets.isEmpty then s
  else
    let s := branches.foldl (fun s b =>
      let s := (s.alarmT 8 5 b false false boundary).setBranch b Branch.init
      match s.branches.find? (fun d => d.1 == b) with
      | some d => s.branchStart b d.2 boundary
      | none => s) s
    let s := nodes.foldl (fun s n => s.setNode n Node.init) s
    let s := nets.foldl (fun s n => s.setNet n Net.init) s
    if s.measuring && s.runs 8 then s.needRecompute boundary false else s

end Sys2Proof.Machine
end

