-- ==== Sys2Proof/Machine/Filters.lean ====
section
/-! DEFINITION. The filter chain (11): presets and bank B, restarts, dwell means, local sources and the phasor
estimate. -/

namespace Sys2Proof.Machine

open Sys2Proof

/-! ### Channels -/

/-- The filter of a channel. -/
def State.flt_ (s : State) (c : Nat) : Flt := s.flt.chan.getD c Flt.init

/-- Replace the filter of a channel. -/
def State.setFlt (s : State) (c : Nat) (x : Flt) : State :=
  { s with flt := { s.flt with chan := s.flt.chan.set c x } }

/-- Volts at the lands of a value in 1/16 LSB, with the gain taken out (R286, codes and ranges of 10). -/
def State.volts (s : State) (c : Nat) (v : Rat) : Rat :=
  if c = 24 then (v / 16 + 32768) * (256 / 100) / 65536
  else v / 16 * (32 / 10) / 65536 / (s.parN Par.CNV.GAIN c : Rat)

/-- Restart a channel's filter: no output combines samples from both sides (R289). -/
def State.fltRestart (s : State) (c : Nat) : State :=
  (s.setFlt c { s.flt_ c with hist := [], since := s.now, sinceB := s.now }).count2 0x0601 (c + 1) 1

/-- Every channel restarts (R94, R289). -/
def State.fltRestartAll (s : State) : State := (List.range 25).foldl State.fltRestart s

/-- Bank B's history restarts after a write of its taps or shape (R291). -/
def State.fltRestartB (s : State) (c : Nat) : State := s.setFlt c { s.flt_ c with sinceB := s.now }

/-! ### Output instants (R286, R287, R291) -/

/-- Output period of a preset in ns. -/
def presetPeriod : Nat → Nat
  | 0 => 250000 | 1 => 62500 | 2 => 15625 | _ => 1000000

/-- Group delay of a FIR preset in ns: half its span. -/
def presetDelay : Nat → Nat
  | 0 => 2000000 | 1 => 500000 | _ => 125000

/-- An output due at a sampling instant: its stamp and the first instant of its span. -/
structure OutDue where
  stamp : Nat
  first : Nat
  deriving DecidableEq, Repr

/-- The output of a preset whose newest sample is taken at `t`, if there is one (R287). -/
def presetDue (p t : Nat) : Option OutDue :=
  if p = 3 then
    if (t + 1000) % 1000000 = 0 ∧ 999000 ≤ t then some { stamp := t - 500000, first := t - 999000 } else none
  else
    let d := presetDelay p
    if t < 2 * d then none
    else
      let tau := ceilTo (presetPeriod p) (t - d)
      if tau < t - d + 1000 then some { stamp := tau, first := ceilTo 1000 (tau - d) } else none

/-- TAPS of bank B (R291, R303). -/
def State.tapsB (s : State) (c : Nat) : Nat := wordBits (s.par Par.FLT.CUSTOM_CFG c) 0 26 16

/-- DECIM of bank B; 1 where none is configured. -/
def State.decimB (s : State) (c : Nat) : Nat := max (wordBits (s.par Par.FLT.CUSTOM_CFG c) 0 9 0) 1

/-- The taps of bank B. -/
def State.coefB (s : State) (c : Nat) : List Word :=
  ((List.range 64).flatMap (fun k => s.par Par.FLT.COEF_B (64 * c + k))).take (s.tapsB c)

/-- Delay of bank B's stamp: half its span for taps of exact symmetry, else DELAY_NS (R291). -/
def State.delayB (s : State) (c : Nat) : Nat :=
  let taps := s.coefB c
  if taps = taps.reverse then (s.tapsB c - 1) * 500 else ((s.par Par.FLT.CUSTOM_CFG c).getD 1 0).toNat

/-- The output of bank B whose newest sample is taken at `t`, if there is one. -/
def State.bankBDue (s : State) (c t : Nat) : Option OutDue :=
  let n := s.tapsB c
  if n = 0 ∨ t % (1000 * s.decimB c) ≠ 0 ∨ t < 1000 * (n - 1) then none
  else some { stamp := t - s.delayB c, first := t - 1000 * (n - 1) }

/-- The output due of a bank. -/
def State.bankDue (s : State) (c bank t : Nat) : Option OutDue :=
  if bank = 1 then s.bankBDue c t else presetDue (s.parN Par.FLT.PRESET c) t

/-- The samples of a span that ends at `t`, newest first, if none is missing since the bank's restart. -/
def State.spanOf (s : State) (c bank first t : Nat) : Option (List Sample) :=
  let x := s.flt_ c
  let l := x.hist.filter (fun y => decide (first ≤ y.t) && decide (y.t ≤ t))
  if (if bank = 1 then x.sinceB else x.since) ≤ first ∧ l.length = (t - first) / 1000 + 1 then some l else none

/-! ### Values and quality (R286 to R288) -/

/-- SUBST_KIND of a quality word. -/
def qSubstKind (q : Half) : Nat := bitsOf q.toNat 11 10

/-- The quality of an output from those of its samples, newest first: OR of the flags, SUBST_KIND of the newest substituted
one, the worst TQ (R288). -/
def foldQuality (l : List Half) : Half :=
  let flags := l.foldl (fun a q => a ||| (q &&& BitVec.ofNat 16 (qOvr + qOpen + qSubst + qPoison + qUnlocked + qInvalid))) 0
  let kind := match l.find? (fun q => qHas q qSubst) with
    | some q => qSubstKind q
    | none => 0
  qWithTq (flags ||| BitVec.ofNat 16 (kind * 1024)) (l.foldl (fun a q => max a (qTq q)) 0)

/-- Exact sum of values. -/
def sumVals (l : List FVal) : FVal := l.foldl FVal.add (.fin false 0)

/-- The value of bank B: the sum of tap × sample in volts, tap 0 on the newest sample, rounded once (R291). -/
def State.valueB (s : State) (c : Nat) (l : List Sample) : Word :=
  f32Of (sumVals (((s.coefB c).zip l).map (fun p => (f32Val p.1).mul (FVal.ofRat (s.volts c p.2.v)))))

/-- The value of a preset in volts (R286, R287): the mean of 1,000 samples for ONE_CYCLE, else the FIR output. -/
def State.valueA (s : State) (c p stamp t : Nat) (l : List Sample) : Word :=
  let vs := l.map Sample.v
  f32OfRat (s.volts c (if p = 3 then (vs.sum : Rat) / 1000
    else Config.presetOut p ((stamp + presetDelay p) - t) vs))

/-- The output of a bank whose newest sample is taken at `t`, if its span is complete. -/
def State.outputAt (s : State) (c bank t : Nat) : Option FltOut :=
  (s.bankDue c bank t).bind (fun d => (s.spanOf c bank d.first t).map (fun l =>
    if bank = 1 then
      { t := d.stamp, v := s.valueB c l
        q := foldQuality ((((s.coefB c).zip l).filter (fun p => f32Rat p.1 != 0)).map (fun p => p.2.q)) }
    else { t := d.stamp, v := s.valueA c (s.parN Par.FLT.PRESET c) d.stamp t l, q := foldQuality (l.map Sample.q) }))

/-- How long delivered outputs are kept for local sources, in ns. -/
def outKeep : Nat := 3 * sec

/-- Deliver an output: one whose stamp is not later than the last delivered is discarded and counted (R94, R292). -/
def State.deliver (s : State) (c : Nat) (o : FltOut) : State :=
  let x := s.flt_ c
  if x.lastT.any (fun l => decide (o.t ≤ l)) then
    if x.stepped then s.count 0x0206 0 1 else s.count2 0x0602 (c + 1) 1
  else s.setFlt c { x with
    lastT := some o.t, stepped := false, outs := o :: x.outs.filter (fun y => decide (s.now ≤ y.t + outKeep)) }

/-- A corrected sample enters a channel's filter, and the output it completes is delivered (R287, R291). -/
def State.fltTake (s : State) (c : Nat) (y : Sample) : State :=
  if s.runs 6 then
    let x := s.flt_ c
    let s := s.setFlt c { x with hist := (y :: x.hist).take 4096 }
    match s.outputAt c x.active y.t with
    | some o => s.deliver c o
    | none => s
  else s

/-- FLT_BANK_SWAP: at an output instant of the incoming bank, with its span full, the delivered bank changes (R292). -/
def execFltBankSwap (dt : Nat) (channel : Nat) (s : State) : Out :=
  let s := s.advance dt
  let x := s.flt_ channel
  let want := s.parN Par.FLT.BANK channel
  .next (if s.up && s.runs 6 && want != x.active then
    match s.bankDue channel want s.now with
    | some d =>
      let l := x.hist.filter (fun y => decide (d.first ≤ y.t) && decide (y.t < s.now))
      if (if want = 1 then x.sinceB else x.since) ≤ d.first ∧ l.length = (s.now - d.first) / 1000 then
        s.setFlt channel { x with active := want }
      else s
    | none => s
  else s)

/-! ### Dwell means (R290) -/

/-- The entry of CNV.AUX_SEQ: input, excitation, pre-excitation in µs, dwell in ms (R272). -/
structure AuxEntry where
  input : Nat
  exc   : Nat
  pre   : Nat
  dwell : Nat
  deriving DecidableEq, Repr

/-- An entry of the sequencer. -/
def State.auxEntryOf (s : State) (k : Nat) : AuxEntry :=
  let w := s.parN Par.CNV.AUX_SEQ k
  { input := bitsOf w 27 24, exc := bitsOf w 21 20, pre := bitsOf w 19 10, dwell := bitsOf w 9 0 }

/-- The stamp of a dwell of `d` ms from `a`. -/
def dwellStamp (a d : Nat) : Nat := a + d * 500000 - 1000

/-- The mean of a dwell from `a` of `d` ms, from the outputs stamped in it: none where ONE_CYCLE did not produce all of
them. -/
def State.dwellMean (s : State) (a d : Nat) : Option FltOut :=
  let l := (s.flt_ 24).outs.filter (fun o => decide (a ≤ o.t) && decide (o.t < a + d * 1000000))
  if l.isEmpty || (s.parN Par.FLT.PRESET 24 == 3 && (s.flt_ 24).active == 0 && l.length != d) then none
  else some { t := dwellStamp a d, q := foldQuality (l.map FltOut.q)
              v := f32Of ((sumVals (l.map (fun o => f32Val o.v))).div (FVal.ofRat l.length)) }

/-- Keep the mean of a dwell of an input, or that it has none; a mean already there stays (R94, R290). -/
def State.keepDwell (s : State) (input st : Nat) (mean : Option FltOut) : State :=
  let x := s.flt_ 24
  let old := (x.dwell.getD input []).filter (fun z => decide (s.now ≤ z.1 + 20 * sec))
  if old.any (fun z => z.1 == st && z.2.isSome) then s
  else s.setFlt 24 { x with dwell := x.dwell.set input ((st, mean) :: old.filter (fun z => z.1 != st)) }

/-- A dwell of an entry from `a` has ended: keep its mean once. -/
def State.endDwell (s : State) (k a : Nat) : State :=
  s.keepDwell (s.auxEntryOf k).input (dwellStamp a (s.auxEntryOf k).dwell) (s.dwellMean a (s.auxEntryOf k).dwell)

/-! ### Local quantities (R294, R295) -/

/-- What a quantity gives at a report instant: not ready yet, never produced, or its raw value and quality. -/
inductive LocalVal where
  | wait
  | miss
  | val (raw : DWord) (q : Half)
  deriving DecidableEq, Repr

/-- The grid of a channel's delivered stamps: period, offset, and from a stamp to its newest sample. -/
structure StampGrid where
  period : Nat
  offset : Nat
  delay  : Nat
  deriving DecidableEq, Repr

/-- The stamp grid of a channel's delivered bank. -/
def State.stampGrid (s : State) (c : Nat) : StampGrid :=
  if (s.flt_ c).active = 1 then
    let m := 1000 * s.decimB c
    { period := m, offset := (m - s.delayB c % m) % m, delay := s.delayB c }
  else
    let p := s.parN Par.FLT.PRESET c
    if p = 3 then { period := 1000000, offset := 499000, delay := 500000 }
    else { period := presetPeriod p, offset := 0, delay := presetDelay p }

/-- The latest stamp of a grid not later than `t`. -/
def StampGrid.floor (g : StampGrid) (t : Nat) : Nat := if t < g.offset then 0 else (t - g.offset) / g.period * g.period + g.offset

/-- The stamps of a grid in (a, b], where a and b are in units of 1 ÷ `u` ns. -/
def StampGrid.within (g : StampGrid) (u a b : Nat) : List Nat :=
  let k0 := g.floor (a / u)
  ((List.range ((b - a) / u / g.period + 3)).map (fun i => k0 + i * g.period)).filter
    (fun t => decide (a < t * u) && decide (t * u ≤ b))

/-- An output stamped `t` has had its time. -/
def State.outDueBy (s : State) (g : StampGrid) (t : Nat) : Bool := decide ((t + g.delay) / 1000 * 1000 ≤ s.now)

/-- The outputs of given stamps: ready, and all delivered. -/
def State.outsAt (s : State) (c : Nat) (g : StampGrid) (ts : List Nat) : Option (Option (List FltOut)) :=
  if ts.all (s.outDueBy g) then
    some (ts.mapM (fun t => (s.flt_ c).outs.find? (fun o => o.t == t)))
  else none

/-- Mean of the values of outputs. -/
def meanOf (l : List FltOut) (f : FVal → FVal) : FVal :=
  (sumVals (l.map (fun o => f (f32Val o.v)))).div (FVal.ofRat l.length)

/-- A quantity of a MAIN source (R294). -/
def State.mainVal (s : State) (c stat tau rate : Nat) : LocalVal :=
  let sel : Nat := if s.parN Par.CNV.SELECT c = 0 then 0 else qInvalid
  let g := s.stampGrid c
  match stat with
  | 0 =>
    let a := g.floor tau
    let ts := if a = tau then [a] else [a, a + g.period]
    match s.outsAt c g ts with
    | none => .wait
    | some none => .miss
    | some (some l) =>
      let q := qSet (foldQuality (l.reverse.map FltOut.q)) sel
      match l with
      | [x] => .val (f64Of32 x.v) q
      | [x, y] =>
        let k := FVal.ofRat (((tau - a : Nat) : Rat) / g.period)
        .val (f64Of ((f32Val x.v).add (((f32Val y.v).sub (f32Val x.v)).mul k))) q
      | _ => .miss
  | 3 =>
    let n := 2 ^ s.parN Par.CNV.AVG_N c
    let back := (n - 1) * 500
    if tau < back then .miss
    else
      let t0 := (tau - back) / (1000 * n) * (1000 * n)
      if s.now < t0 + 1000 * (n - 1) then .wait
      else match (s.cnv.chan.getD c (Chan.init c)).avgOut.find? (fun o => o.t == t0 + back) with
        | some o => .val (f64Of32 o.v) (qSet o.q sel)
        | none => .miss
  | st =>
    let half := sec
    let ts := g.within (2 * rate) (tau * (2 * rate) - half) (tau * (2 * rate) + half)
    match s.outsAt c g ts with
    | none => .wait
    | some none | some (some []) => .miss
    | some (some l) =>
      let q := qSet (foldQuality (l.reverse.map FltOut.q)) sel
      if st = 1 then .val (f64Of (meanOf l id)) q
      else .val (f64Sqrt (f64Of (meanOf l (fun v => v.mul v)))) q

/-- A quantity of an AUX source: the latest dwell mean of its input stamped not later than τ (R294). -/
def State.auxVal (s : State) (input tau : Nat) : LocalVal :=
  let running := s.cnv.auxEntry.any (fun k =>
    let e := s.auxEntryOf k
    e.input == input && decide (dwellStamp s.cnv.auxStart e.dwell ≤ tau) &&
      decide (s.now < s.cnv.auxStart + e.dwell * 1000000))
  let known := ((s.flt_ 24).dwell.getD input []).filter (fun z => decide (z.1 ≤ tau))
  let latest := known.foldl (fun m z => max m z.1) 0
  if running then .wait
  else match known.find? (fun z => z.1 == latest) with
    | some (_, some o) => .val (f64Of32 o.v) o.q
    | _ => .miss

/-! ### Phasor estimation (R297 to R299) -/

/-- A complex number of binary64 parts. -/
structure Cx where
  re : DWord
  im : DWord
  deriving DecidableEq, Repr

/-- Sum of complex numbers. -/
def Cx.add (a b : Cx) : Cx := ⟨f64Add a.re b.re, f64Add a.im b.im⟩

/-- Product of complex numbers. -/
def Cx.mul (a b : Cx) : Cx :=
  ⟨f64Sub (f64Mul a.re b.re) (f64Mul a.im b.im), f64Add (f64Mul a.re b.im) (f64Mul a.im b.re)⟩

/-- Quotient of complex numbers. -/
def Cx.div (a b : Cx) : Cx :=
  let n := f64Add (f64Mul b.re b.re) (f64Mul b.im b.im)
  ⟨f64Div (f64Add (f64Mul a.re b.re) (f64Mul a.im b.im)) n, f64Div (f64Sub (f64Mul a.im b.re) (f64Mul a.re b.im)) n⟩

/-- A complex number scaled. -/
def Cx.scale (k : DWord) (a : Cx) : Cx := ⟨f64Mul k a.re, f64Mul k a.im⟩

/-- Angle of a complex number. -/
def Cx.arg (a : Cx) : DWord := f64Atan2 a.im a.re

/-- Magnitude of a complex number. -/
def Cx.abs (a : Cx) : DWord := f64Sqrt (f64Add (f64Mul a.re a.re) (f64Mul a.im a.im))

/-- e^(jφ) of a rational angle. -/
def cis (phi : Rat) : Cx := let w := f64OfRat (wrapRad phi); ⟨f64Cos w, f64Sin w⟩

/-- A phasor group's settings: class, nominal frequency, rate, channels of the voltages and the currents (R297). -/
structure PgDef where
  mClass : Bool
  f0     : Nat
  rate   : Nat
  volt   : List Nat
  amps   : List Nat
  deriving DecidableEq, Repr

/-- The settings of a group in force. -/
def State.pg (s : State) (g : Nat) : PgDef :=
  let ws := s.par Par.FLT.PG g
  { mClass := (ws.getD 0 0).getLsbD 30, f0 := if (ws.getD 0 0).getLsbD 29 then 60 else 50, rate := wordBits ws 0 7 0
    volt := pgChannels (ws.getD 1 0), amps := pgChannels (ws.getD 2 0) }

/-- Half-length H of the window in ns (R299). -/
def PgDef.halfLen (d : PgDef) : Rat :=
  let s : Rat := sec
  if d.mClass then min (3 * s / d.rate) (10 * s / d.f0) else min (s / d.f0) (2 * s / d.rate - 2000000)

/-- Frequency step h in ns (R299). -/
def PgDef.step (d : PgDef) : Rat := if d.mClass then d.halfLen / 4 else 1000000

/-- The window at offset `o` ns: triangular or Hamming (R298). -/
def PgDef.window (d : PgDef) (o : Rat) : DWord :=
  let hh := d.halfLen
  if d.mClass then
    f64Add (f64OfRat (54 / 100)) (f64Mul (f64OfRat (46 / 100)) (f64Cos (f64OfRat (piRat * o / hh))))
  else f64OfRat (1 - (if o < 0 then -o else o) / hh)

/-- Outputs under the window at `u`. -/
def PgDef.under (d : PgDef) (outs : List FltOut) (u : Rat) : List FltOut :=
  outs.filter (fun x => decide (u - d.halfLen ≤ (x.t : Rat)) && decide ((x.t : Rat) ≤ u + d.halfLen))

/-- Sum of the window over the outputs. -/
def PgDef.weight (d : PgDef) (outs : List FltOut) (u : Rat) : DWord :=
  (d.under outs u).foldl (fun a x => f64Add a (d.window ((x.t : Rat) - u))) 0

/-- X(u) of R298, with S the whole second `sS` ns. -/
def PgDef.demod (d : PgDef) (outs : List FltOut) (u : Rat) (sS : Nat) : Cx :=
  let sum := (d.under outs u).foldl (fun a x =>
    a.add (Cx.scale (f64Mul (d.window ((x.t : Rat) - u)) (f64Of32 x.v))
      (cis (-(2 * piRat * d.f0 * ((x.t : Rat) - sS) / sec))))) ⟨0, 0⟩
  Cx.scale (f64Div (f64Sqrt (f64OfInt 2)) (d.weight outs u)) sum

/-- The window's response at frequency offset `df` Hz (R298). -/
def PgDef.response (d : PgDef) (outs : List FltOut) (u : Rat) (df : Rat) : Cx :=
  let sum := (d.under outs u).foldl (fun a x =>
    a.add (Cx.scale (d.window ((x.t : Rat) - u)) (cis (2 * piRat * df * ((x.t : Rat) - u) / sec)))) ⟨0, 0⟩
  Cx.scale (f64Div (f64OfInt 1) (d.weight outs u)) sum

/-- (Xa + a Xb + a² Xc) ÷ 3 (R298). -/
def posSeq (x y z : Cx) : Cx :=
  Cx.scale (f64Div (f64OfInt 1) (f64OfInt 3)) ((x.add ((cis (2 * piRat / 3)).mul y)).add ((cis (4 * piRat / 3)).mul z))

/-- The phasors of three channels, the positive sequence first when all are present (R297). -/
def triple (f : Nat → Cx) (chs : List Nat) : List Cx :=
  let xs := (chs.filter (fun c => c != 0x3F)).map f
  match xs with
  | [x, y, z] => posSeq x y z :: xs
  | _ => xs

/-- The channels a group uses. -/
def PgDef.channels (d : PgDef) : List Nat := (d.volt ++ d.amps).filter (fun c => c != 0x3F)

/-- θ₁ is the angle of V1, else I1, else the first phase present (R299). -/
def PgDef.theta (d : PgDef) (f : Nat → Cx) : DWord :=
  let v := triple f d.volt
  let i := triple f d.amps
  let pick := if v.length = 4 then v.head? else if v.isEmpty || i.length = 4 then i.head? else v.head?
  match pick with | some x => x.arg | none => 0

/-- The quantities of a group at τ: frequency, ROCOF, then magnitude and angle of each phasor (R297 to R299). -/
def PgDef.estimate (d : PgDef) (outs : Nat → List FltOut) (tau : Nat) : List DWord :=
  let sS := tau / sec * sec
  let h := d.step
  let raw := fun (u : Rat) c => d.demod (outs c) u sS
  let th0 := d.theta (raw tau)
  let thp := d.theta (raw (tau + h))
  let thm := d.theta (raw (tau - h))
  let up := wrap64 (f64Sub thp th0)
  let dn := wrap64 (f64Sub th0 thm)
  let hs := h / sec
  let f := f64Add (f64OfInt d.f0) (f64Div (f64Add up dn) (f64OfRat (4 * piRat * hs)))
  let rocof := f64Div (f64Sub up dn) (f64OfRat (2 * piRat * hs * hs))
  let df := (f64Rat f) - d.f0
  let fixed := fun c => (raw tau c).div (d.response (outs c) tau df)
  [f, rocof] ++ (triple fixed d.volt ++ triple fixed d.amps).flatMap (fun x => [x.abs, x.arg])

/-- What the group gives at τ: the outputs up to τ + H + h must have had their time, and all have been delivered (R299). -/
def State.pgVals (s : State) (g tau : Nat) : LocalVal × List DWord :=
  let d := s.pg g
  let reach := d.halfLen + d.step
  let a := (ratCeil ((tau : Rat) - reach)).toNat
  let b := (ratFloor ((tau : Rat) + reach)).toNat
  let grid : StampGrid := { period := 62500, offset := 0, delay := 500000 }
  let ts := grid.within 1 (a - 1) b
  if !(ts.all (s.outDueBy grid)) || decide (s.now < b + 500000) then (.wait, [])
  else
    let got := d.channels.mapM (fun c => (ts.mapM (fun t => (s.flt_ c).outs.find? (fun o => o.t == t))).map (fun l => (c, l)))
    match got with
    | none => (.miss, [])
    | some l =>
      let q := foldQuality (l.flatMap (fun p => p.2.reverse.map FltOut.q))
      let sel : Nat := if d.channels.all (fun c => s.parN Par.CNV.SELECT c == 0) then 0 else qInvalid
      (.val 0 (qSet q sel), d.estimate (fun c => ((l.find? (fun p => p.1 == c)).map Prod.snd).getD []) tau)

/-! ### The report (R294, R295) -/

/-- The raw values of a local source at τ, in the order of its quantities. -/
def State.localVals (s : State) (d : SrcDef) (tau : Nat) : List LocalVal :=
  let set := (d.ident.getD 1 0)
  let members := (List.range 24).filter (fun c => set.getLsbD c)
  match wordBits d.ident 0 31 28 with
  | 1 =>
    match s.pgVals (wordBits d.ident 0 2 0) tau with
    | (.val _ q, vs) => vs.map (fun v => .val v q)
    | (r, _) => [r]
  | 2 => members.map (fun c => s.mainVal c (wordBits d.ident 0 27 24) tau d.rate)
  | _ => (members.filter (fun c => decide (c < 16))).map (fun c => s.auxVal c tau)

/-- The raw value and quality of a quantity that is ready. -/
def LocalVal.get : LocalVal → DWord × Half
  | .val v q => (v, q)
  | _ => (0, 0)

/-- The instant lies in an interval that a forward step of the clock passed over (R94). -/
def State.jumped (s : State) (t : Nat) : Bool := s.flt.jumps.any (fun j => decide (j.1 < t) && decide (t < j.2))

/-- The report of a local source at τ: written when every quantity is ready, missed when one can never be (R294, R295) or when a
forward step of the clock passed over τ (R94). -/
def State.localReport (s : State) (src : Nat) (d : SrcDef) (tau : Nat) : State :=
  let vals := s.localVals d tau
  if vals.any (fun v => decide (v = .wait)) && !s.jumped tau then s
  else
    let s := s.setSrc src { s.src src with reported := some tau }
    if s.jumped tau || vals.any (fun v => decide (v = .miss)) then s.count2 0x0603 (src + 1) 1
    else
      let raws := vals.map LocalVal.get
      let s := if wordBits d.ident 0 31 28 = 1 then
          { s with flt := { s.flt with
              pgFreq := s.flt.pgFreq.set (wordBits d.ident 0 2 0) (f32Of64 ((raws.head?.map Prod.fst).getD 0)) } }
        else s
      let es := ((List.range d.maps.length).zip (d.maps.zip raws)).map (fun p => entryF32 p.1 p.2.1 p.2.2.1 p.2.2.2)
      s.accept src tau s.now [(tau, es)]

/-- LOCAL_SOURCE_REPORT: a source of kind 5 and its report instant τ. -/
def execLocalSourceReport (dt : Nat) (src report : Nat) (s : State) : Out :=
  let s := s.advance dt
  .next (match s.srcDef src with
    | some d =>
      if d.kind == 5 && s.up && s.runs 6 && s.runs 3 && isGrid d.rate report && decide (report ≤ s.now) &&
          decide ((s.src src).definedAt ≤ report) && (s.src src).reported.all (fun r => decide (r < report)) then
        s.localReport src d report else s
    | none => s)

/-! ### Live writes and commits (R289, R291, R292) -/

/-- A channel feeds a used phasor group in force. -/
def State.inGroup (s : State) (c : Nat) : Bool :=
  (List.range 8).any (fun g => ((s.par Par.FLT.PG g).getD 0 0).getLsbD 31 && (s.pg g).channels.contains c)

/-- The used entries of the sequencer. -/
def State.auxUsed (s : State) : List Nat := (List.range 16).filter (fun k => (s.parN Par.CNV.AUX_SEQ k).testBit 31)

/-- A commit boundary restarts the filters of channels whose selector, gain or preset it changes (R289). -/
def State.fltCommit (s : State) (channels : List Nat) : State := channels.foldl State.fltRestart s

/-- Outputs up to a clock step from `a` to `b` stay; every filter restarts, after a backward step repeats are discarded, and a
forward step leaves an interval without local entries (R94). -/
def State.fltStep (s : State) (a b : Nat) : State :=
  let s := s.fltRestartAll
  let old := (s.flt.jumps.filter (fun j => decide (j.1 < b))).map (fun j => (j.1, min j.2 b))
  if b < a then
    let s := { s with flt := { s.flt with jumps := old } }
    (List.range 25).foldl (fun s c => s.setFlt c { s.flt_ c with stepped := true }) s
  else { s with flt := { s.flt with jumps := (a, b) :: old.take 15 } }

/-- UNIT_RESET of unit 0x06: every filter state, dwell mean and phasor window is discarded (R301). -/
def State.fltReset (s : State) : State :=
  (List.range 25).foldl (fun s c => s.setFlt c { s.flt_ c with hist := [], outs := [], dwell := [] }) s

end Sys2Proof.Machine
end

