-- ==== Sys2Proof/Machine/Converters.lean ====
section
/-! DEFINITION. The converter array (10): sampling, overrange, averaging, the auxiliary sequencer, open-wire detection and
background calibration. -/

namespace Sys2Proof.Machine

open Sys2Proof

/-! ### Channels, slices and codes (R264, R269) -/

/-- A converter channel. -/
def State.chan (s : State) (c : Nat) : Chan := s.cnv.chan.getD c (Chan.init c)

/-- Replace a converter channel. -/
def State.setChan (s : State) (c : Nat) (x : Chan) : State :=
  { s with cnv := { s.cnv with chan := s.cnv.chan.set c x } }

/-- The array converts: CONFIG, SAFE or RUN, with the unit running (R267, R283), and on to the end of custody's steps after PFW_N
(R426). -/
def State.converting (s : State) : Bool := (s.up || s.saving) && s.runs 5

/-- The last calibration of a slice: GTF pattern, offset, gain; all zero before any (R285). -/
def State.calLast (s : State) (slice : Nat) : Nat × Int × Word := s.cnv.calLast.getD slice (0, 0, 0)

/-- A 16-bit code from what the input gives: clamped (codes and ranges). -/
def clamp16 (v : Int) : Int := max (-32768) (min 32767 v)

/-- A code at the end of the range (R269). -/
def isClamped (code : Int) : Bool := code == 32767 || code == -32768

/-- The corrected sample of a raw code: in 1/16 LSB, 20 bits (R269). An uncalibrated slice changes nothing. -/
def State.corrected (s : State) (c : Nat) (code : Int) : Int :=
  let (_, o, g) := s.calLast (s.chan c).slice
  if o = 0 ∧ g = 0 then 16 * code else max (-524288) (min 524287 (Config.calibrated code o g))

/-- TQ and TIME_UNLOCKED of a local sample (R99), with POISON where a word it is formed from is poisoned (R395). -/
def State.localQ (s : State) (poison : Bool) : Half :=
  qWithTq (BitVec.ofNat 16 ((if s.timeLocked then 0 else qUnlocked) + (if poison then qPoison else 0))) s.tq

/-! ### Averaging (R270, R271) -/

/-- The result of a full block: shifted toward minus infinity and saturated to 24 bits; whether it saturated (R270). -/
def avgResult (sum : Int) (shift : Nat) : Int × Bool :=
  let r := sum / (2 ^ shift : Int)
  if 8388607 < r then (8388607, true) else if r < -8388608 then (-8388608, true) else (r, false)

/-- A result of the averaging path: one whose stamp repeats an instant already delivered, after a backward step, is discarded and
counted (R94, R270). -/
def State.avgDeliver (s : State) (c : Nat) (o : FltOut) : State :=
  let x := s.chan c
  if x.avgOut.any (fun z => decide (o.t ≤ z.t)) then s.count 0x0206 0 1
  else s.setChan c { x with avgOut := o :: x.avgOut.filter (fun z => decide (s.now ≤ z.t + outKeep)) }

/-- A sample enters the averaging path of a main channel (R270). A block with a missing sample is discarded (R271). -/
def State.avgTake (s : State) (c : Nat) (y : Sample) : State :=
  let k := s.parN Par.CNV.AVG_N c
  if k = 0 ∨ 24 ≤ c then s
  else
    let n := 2 ^ k
    let x := s.chan c
    let x :=
      if y.t % (1000 * n) = 0 then { x with avgT0 := some y.t, avgN := 1, avgSum := y.v, avgQ := foldQuality [y.q] }
      else if x.avgT0.any (fun t0 => t0 + 1000 * x.avgN == y.t) then
        { x with avgN := x.avgN + 1, avgSum := x.avgSum + y.v, avgQ := foldQuality [y.q, x.avgQ] }
      else { x with avgT0 := none, avgN := 0 }
    match x.avgT0 with
    | some t0 =>
      if x.avgN = n then
        let shift := s.parN Par.CNV.AVG_SHIFT c
        let (r, sat) := avgResult x.avgSum shift
        let o : FltOut := { t := t0 + (n - 1) * 500, q := if sat then qSet x.avgQ qOvr else x.avgQ
                            v := f32OfRat (s.volts c ((r : Rat) * 2 ^ shift / n)) }
        let s := (s.setChan c { x with avgT0 := none, avgN := 0 }).avgDeliver c o
        if sat then s.count2 0x0502 (c + 1) 1 else s
      else s.setChan c x
    | none => s.setChan c x

/-- A corrected sample goes to the averaging path and to the filter (R269). -/
def State.takeSample (s : State) (c : Nat) (y : Sample) : State := (s.avgTake c y).fltTake c y

/-! ### The auxiliary sequencer (R272 to R274) -/

/-- The cycle: entry, its fields, and its start in the cycle in ms. -/
def State.auxCycle (s : State) : List (Nat × AuxEntry × Nat) :=
  (s.auxUsed.foldl (fun (acc : List (Nat × AuxEntry × Nat) × Nat) k =>
    let e := s.auxEntryOf k
    (acc.1 ++ [(k, e, acc.2)], acc.2 + e.dwell)) ([], 0)).1

/-- The length of the cycle in ms. -/
def State.auxLength (s : State) : Nat := (s.auxUsed.map (fun k => (s.auxEntryOf k).dwell)).sum

/-- The place of an instant in the cycle, in ns: cycles start at whole seconds (R272). -/
def State.auxPlace (s : State) (t : Nat) : Nat := t % (max (s.auxLength * 1000000) 1)

/-- Excitation out of each input at an instant: during each dwell and PREEXC_US before it (R273). -/
def State.excAt (s : State) (t : Nat) : AMap Nat :=
  if !s.converting then []
  else
    let place := s.auxPlace t
    let len := s.auxLength * 1000000
    s.auxCycle.foldl (fun m z =>
      let a := z.2.2 * 1000000
      let b := a + z.2.1.dwell * 1000000
      let ahead := (a + len - place) % max len 1
      if z.2.1.exc ≠ 0 ∧ ((a ≤ place ∧ place < b) ∨ (0 < ahead ∧ ahead ≤ z.2.1.pre * 1000)) then
        AMap.set m z.2.1.input z.2.1.exc
      else m) []

/-- Switch the excitation to what the sequence gives now, and show each change at its land (R273). -/
def State.refreshExc (s : State) : State :=
  let new := s.excAt s.now
  let old := s.cnv.exc
  let s := (List.range 16).foldl (fun (s : State) i =>
    if new.getD i 0 = old.getD i 0 then s else s.emit (.current i (new.getD i 0))) s
  { s with cnv := { s.cnv with exc := new } }

/-- The dwell in progress has ended: its mean is kept (R290). -/
def State.closeDwell (s : State) : State :=
  match s.cnv.auxEntry with
  | some k => s.endDwell k s.cnv.auxStart
  | none => s

/-- The dwell in progress is cut short: it has no mean (R94, R295). -/
def State.cutDwell (s : State) : State :=
  match s.cnv.auxEntry with
  | some k => s.keepDwell (s.auxEntryOf k).input (dwellStamp s.cnv.auxStart (s.auxEntryOf k).dwell) none
  | none => s

/-- AUX_DWELL_START: at a whole millisecond that starts an entry of the cycle (R272, R273). -/
def execAuxDwellStart (dt : Nat) (s : State) : Out :=
  let s := s.advance dt
  .next (if s.converting && decide (s.now % 1000000 = 0) then
    match s.auxCycle.find? (fun z => z.2.2 * 1000000 == s.auxPlace s.now) with
    | some z =>
      if s.cnv.auxEntry = some z.1 ∧ s.cnv.auxStart = s.now then s
      else
        let s := s.closeDwell
        { s with cnv := { s.cnv with auxEntry := some z.1, auxStart := s.now } }.refreshExc
    | none => s
  else s)

/-! ### Open-wire chops (R277) -/

/-- Open-wire state of a land. -/
def State.ow (s : State) (land : Nat) : Ow := s.cnv.ow.getD land { open_ := false, fails := 0, passes := 0, last := none }

/-- Replace the open-wire state of a land. -/
def State.setOw (s : State) (land : Nat) (x : Ow) : State := { s with cnv := { s.cnv with ow := s.cnv.ow.set land x } }

/-- The land is enabled for open-wire detection. -/
def State.owOn (s : State) (land : Nat) : Bool := s.parN Par.CNV.OW_CFG land % 4 != 0

/-- The period of the chops in ns. -/
def State.owPeriod (s : State) : Nat := 1000000 * s.parN Par.CNV.OW_PERIOD_MS 0

/-- The land is chopped at the instant `t`: main channel n at n + 1 µs after the period boundary, an auxiliary input at the
500th conversion of its first dwell after the boundary (R277). -/
def State.chopAt (s : State) (land t : Nat) : Bool :=
  s.owOn land &&
    (if land < 24 then t % s.owPeriod == 1000 * (land + 1)
     else
       s.cnv.auxEntry.any (fun k => (s.auxEntryOf k).input == land - 24) && t == s.cnv.auxStart + 499000 &&
         (s.ow land).last.all (fun l => decide (l < s.cnv.auxStart / s.owPeriod * s.owPeriod) || l == t))

/-- The channel a land belongs to. -/
def landChannel (land : Nat) : Nat := if land < 24 then land else 24

/-- The instance an open-wire land counts and logs under: the channel, or 24 + input. -/
def landCount (land : Nat) : Nat := landChannel land + 1

/-- The mean of two neighbours in 1/16 LSB. -/
def neighbourMean (a b : Int) : Int := (a + b) / 2 + (if (a + b) % 2 = 1 ∧ Config.meanUp a b then 1 else 0)

/-- OPEN_WIRE of a land is set or cleared: counted when set, logged, alarmed (R277). -/
def State.owChange (s : State) (land : Nat) (on : Bool) : State :=
  let s := s.setOw land { s.ow land with open_ := on }
  let s := if on then s.count2 0x0505 (landCount land) 1 else s
  (s.logEv 0x0501 5 s.now (evPar 0 (land + bitAt on 8))).alarm 5 1 land on s.now

/-- The judgement of a chop: the counts of failing and passing chops, and OPEN_WIRE at CNV.OW_CONFIRM (R277). -/
def State.owJudge (s : State) (land : Nat) (fails : Bool) : State :=
  let x := s.ow land
  let n := s.parN Par.CNV.OW_CONFIRM 0
  let x := if fails then { x with fails := x.fails + 1, passes := 0 } else { x with passes := x.passes + 1, fails := 0 }
  let s := s.setOw land x
  if fails && !x.open_ && decide (n ≤ x.fails) then s.owChange land true
  else if !fails && x.open_ && decide (n ≤ x.passes) then s.owChange land false
  else s

/-- The flags a sample of a channel carries for its land: OPEN_WIRE. -/
def State.owFlag (s : State) (land : Nat) : Nat := if (s.ow land).open_ then qOpen else 0

/-- OW_CHOP: `land` is chopped now; the raw codes one instant before, of the chop, and one instant after. The chop is judged
unless one of them is clamped, and the mean of its neighbours takes its place in the stream (R277). -/
def execOwChop (dt : Nat) (land : Nat) (before chopped after : Int) (s : State) : Out :=
  let s := s.advance dt
  .next (if s.converting && decide (s.now % 1000 = 0) && s.chopAt land s.now && (s.ow land).last != some s.now then
    let c := landChannel land
    let a := clamp16 before
    let x := clamp16 chopped
    let b := clamp16 after
    let s := (s.setOw land { s.ow land with last := some s.now }).emit (.chop land (s.parN Par.CNV.OW_CFG land % 16))
    let s := if isClamped x then s.count2 0x0501 (c + 1) 1 else s
    let ca := s.corrected c a
    let cb := s.corrected c b
    let s := if isClamped a || isClamped x || isClamped b then s
      else s.owJudge land (decide (32 * (s.parN Par.CNV.OW_THRESHOLD land : Int) < (2 * s.corrected c x - (ca + cb)).natAbs))
    let ch := s.chan c
    let over_ := decide (0 < ch.ovrLeft) || isClamped a || isClamped b
    let s := s.setChan c { ch with ovrLeft := ch.ovrLeft - 1 }
    let q := qSet (s.localQ false) (qSubst + 2 * 1024 + (if over_ then qOvr else 0) + s.owFlag land)
    (s.count2 0x0504 (c + 1) 1).takeSample c { t := s.now, v := neighbourMean ca cb, q := q }
  else s)

/-! ### Sampling (R267 to R269, R274, R275) -/

/-- One conversion of a main channel, formed from a poisoned word or not (R269, R275, R395). -/
def State.sampleMain (s : State) (c : Nat) (code : Int) (poison : Bool) : State :=
  let code := clamp16 code
  if s.chopAt c s.now then s
  else
    let hit := isClamped code
    let x := s.chan c
    let s := if hit then s.count2 0x0501 (c + 1) 1 else s
    let s := s.setChan c { x with ovrLeft := if hit then 3 else x.ovrLeft - 1 }
    let s := if s.parN Par.CNV.SELECT c = 3 then
        { s with cnv := { s.cnv with dieTemp := f32OfRat ((code : Rat) / 64) } } else s
    let flags := (if hit || decide (0 < x.ovrLeft) then qOvr else 0) + s.owFlag c
    s.takeSample c { t := s.now, v := s.corrected c code, q := qSet (s.localQ poison) flags }

/-- The discarded auxiliary conversions that wait are replaced by another of the same input, with SUBST of kind 01 (R274). -/
def State.auxReplace (s : State) (y : Sample) : State :=
  let held := s.cnv.auxHeld
  held.foldl (fun (s : State) t =>
      (s.count2 0x0503 25 1).takeSample 24 { t := t, v := y.v, q := qSet (qClear y.q 0x0C00) (qSubst + 1024) })
    { s with cnv := { s.cnv with auxHeld := [] } }

/-- The dwell of an input ends with discarded conversions waiting: the previous conversion of the input replaces them (R274). -/
def State.auxFlush (s : State) (input : Nat) : State :=
  match s.cnv.auxLast.get? input with
  | some p => s.auxReplace p
  | none => { s with cnv := { s.cnv with auxHeld := [] } }.count2 0x0503 25 s.cnv.auxHeld.length

/-- A conversion of the connected input that is not chopped: discarded where it follows a clamped one, else delivered, with those
that waited for it (R274). -/
def State.auxTake (s : State) (input : Nat) (last : Bool) (y : Sample) : State :=
  let s := if s.cnv.auxDrop then { s with cnv := { s.cnv with auxHeld := s.cnv.auxHeld ++ [y.t] } }
    else { (s.auxReplace y) with cnv := { (s.auxReplace y).cnv with auxLast := s.cnv.auxLast.set input y } }.takeSample 24 y
  if last && !s.cnv.auxHeld.isEmpty then s.auxFlush input else s

/-- One conversion of the auxiliary slice, of the entry connected; the conversion after a clamped one is discarded, whichever
input either belongs to (R272, R274, R275). -/
def State.sampleAux (s : State) (code : Int) (poison : Bool) : State :=
  match s.cnv.auxEntry with
  | none => s
  | some k =>
    let e := s.auxEntryOf k
    let stop := s.cnv.auxStart + e.dwell * 1000000
    if stop ≤ s.now then s
    else
      let code := clamp16 code
      let hit := isClamped code
      let s := if hit then s.count2 0x0501 25 1 else s
      let last := decide (s.now + 1000 = stop)
      let s := if s.chopAt (24 + e.input) s.now then s
        else s.auxTake e.input last { t := s.now, v := s.corrected 24 code
                                      q := qSet (s.localQ poison) ((if hit then qOvr else 0) + s.owFlag (24 + e.input)) }
      let s := { s with cnv := { s.cnv with auxDrop := hit && s.parB Par.CNV.AUX_DISCARD_AFTER_OVR 0 } }
      if last then s.endDwell k s.cnv.auxStart else s

/-- SAMPLING_INSTANT: at a whole microsecond, the codes of channels 0 to 24 in order (R267). Word k of FIFO 70 carries channel k,
and FIFO 71 the instant of all of them: a sample formed from a poisoned word is POISON (R395). -/
def execSamplingInstant (dt : Nat) (codes : List Int) (s : State) : Out :=
  let s := s.advance dt
  .next (if s.converting && decide (s.now % 1000 = 0) then
    let (s, words) := s.takeWords 70
    let (s, late) := s.takeItem 71
    let bad := fun (k : Nat) => late || (words[k]?).any FifoWord.poison
    let s := ((List.range 24).zip codes).foldl (fun s p => s.sampleMain p.1 p.2 (bad p.1)) s
    let s := match codes[24]? with
      | some code => s.sampleAux code (bad 24)
      | none => s
    s.refreshExc
  else s)

/-! ### Background calibration (R279, R280) -/

/-- CNV.SLICE_STATE of a slice (R285). -/
def State.sliceState (s : State) (x : Nat) : Nat := s.cnv.slice.getD x (if x = 25 ∨ x = 26 then 1 else 0)

/-- Set the state of a slice. -/
def State.setSlice (s : State) (x v : Nat) : State := { s with cnv := { s.cnv with slice := s.cnv.slice.set x v } }

/-- Slices that have FAILED. -/
def State.failedSlices (s : State) : Nat := ((List.range 27).filter (fun x => s.sliceState x == 4)).length

/-- CNV.CAL_STATE (R285): 0 off, 1 two spares, 2 one spare, 3 stopped. -/
def State.calState (s : State) : Nat :=
  if s.parB Par.CNV.CAL_ENABLE 0 then min (s.failedSlices + 1) 3 else 0

/-- The rotation a free slice takes: even channels or odd ones (R279). -/
def rotation (x : Nat) : Nat := if x = 25 then 0 else if x = 26 then 1 else x % 2

/-- The channel after `c` in a rotation: every second one with both spares free, else every one (R279). -/
def State.nextChannel (s : State) (c : Nat) : Nat :=
  if s.failedSlices = 0 then (if 24 < c + 2 then c % 2 else c + 2) else (c + 1) % 25

/-- Start a calibration cycle of a free slice on the next channel of its rotation (R279). -/
def State.calStart (s : State) (x : Nat) : State :=
  let r := rotation x
  let c := s.cnv.next.getD (25 + r) r
  let s := (s.setSlice x 2)
  { s with cnv := { s.cnv with
      next := s.cnv.next.set (25 + r) (s.nextChannel c), calAt := s.cnv.calAt.set x s.now
      cycle := s.cnv.cycle.set x
        { channel := c, slice := (s.chan c).slice, step := 1, at_ := s.now, windows := 0, failed := false, selfCal := false } } }

/-- CAL_CYCLE_START: `spare` is a free slice, one cycle per 4.6 s while CNV.CAL_ENABLE is 1 (R279). -/
def execCalCycleStart (dt : Nat) (spare : Nat) (s : State) : Out :=
  let s := s.advance dt
  .next (if s.converting && s.parB Par.CNV.CAL_ENABLE 0 && s.sliceState spare == 1 &&
      (s.cnv.cycle.get? spare).isNone && decide (s.failedSlices < 2) &&
      (s.cnv.calAt.get? spare).all (fun t => decide (t + 4600000000 ≤ s.now)) && (s.ctl.drain.all (fun d => d.1 != 5)) then
    s.calStart spare else s)

/-- Replace a running cycle. -/
def State.setCycle (s : State) (x : Nat) (c : Cal) : State := { s with cnv := { s.cnv with cycle := s.cnv.cycle.set x c } }

/-- A cycle is over. -/
def State.dropCycle (s : State) (x : Nat) : State := { s with cnv := { s.cnv with cycle := s.cnv.cycle.erase x } }

/-- A cycle ends at its current step without a handover: the serving slice keeps its channel, the other one is free
(R279, R281). -/
def State.endCycle (s : State) (x : Nat) : State :=
  match s.cnv.cycle.get? x with
  | some c =>
    let s := s.dropCycle x
    if c.step = 1 ∨ c.selfCal then s.setSlice x 1 else s.setSlice c.slice 1
  | none => s

/-- The spare takes the channel; the slice it relieves calibrates (R279 step 2). -/
def State.handover (s : State) (x : Nat) (c : Cal) : State :=
  let s := s.setChan c.channel { s.chan c.channel with slice := x }
  ((s.setSlice x 0).setSlice c.slice 3).setCycle x { c with step := 3, at_ := s.now, windows := 0, failed := false, selfCal := false }

/-- A calibration failure: counted and logged with its slice, step and whether the slice has FAILED (R280). -/
def State.calFail (s : State) (c : Cal) (slice step : Nat) (dead : Bool) : State :=
  let p := s.mem.patina
  let s := { s with mem := { s.mem with patina := { p with calFail := p.calFail.modify slice 0 (· + 1) } } }
  (s.count2 0x0507 (c.channel + 1) 1).logEv 0x0502 5 s.now (evPar 0 (slice + step * 256 + bitAt dead 16))

/-- A slice has FAILED: the spare serves the channel permanently (R280, R461). -/
def State.sliceDies (s : State) (x : Nat) (c : Cal) : State :=
  ((s.dropCycle x).setSlice c.slice 4).spareUsed 1 c.channel (2 - (s.spareUses 1 + 1))

/-- A comparison window of a cycle ends (R279, R280). Differences are in 1/16 LSB. -/
def State.comparison (s : State) (x : Nat) (c : Cal) (usable : Nat) (mean max_ : Int) : State :=
  if usable < 512 then
    if c.windows + 1 < 8 then s.setCycle x { c with windows := c.windows + 1, at_ := s.now }
    else (s.endCycle x).count2 0x0508 (c.channel + 1) 1
  else if mean.natAbs ≤ 32 ∧ max_.natAbs ≤ 128 then
    if c.step = 1 then s.handover x c
    else
      let s := s.setChan c.channel { s.chan c.channel with slice := c.slice }
      (((s.setSlice c.slice 0).setSlice x 1).dropCycle x).count2 0x0506 (c.channel + 1) 1
  else if c.step = 1 then
    let s := s.calFail c c.slice 2 false
    if c.failed then s.handover x c
    else (s.setSlice x 3).setCycle x { c with step := 3, at_ := s.now, windows := 0, failed := true, selfCal := true }
  else if c.failed then (s.calFail c c.slice 4 true).sliceDies x c
  else ((s.calFail c c.slice 4 false).setSlice c.slice 3).setCycle x { c with step := 3, at_ := s.now, windows := 0, failed := true }

/-- CAL_COMPARISON_DONE: 1,024 samples after its start the window of the free slice `spare` ends: its usable samples, mean and
largest difference (R279). -/
def execCalComparisonDone (dt : Nat) (spare : Nat) (usable : Nat) (meanDiff16 maxDiff16 : Int) (s : State) : Out :=
  let s := s.advance dt
  .next (match s.cnv.cycle.get? spare with
    | some c => if s.converting && (c.step == 1 || c.step == 4) && decide (c.at_ + 1024000 ≤ s.now) then
        s.comparison spare c usable meanDiff16 maxDiff16 else s
    | none => s)

/-- The operating year of R463. -/
def State.serviceYear (s : State) : Nat := s.evt.opsec / 31557600

/-- A calibration has derived new corrections (R280, R285, R463). -/
def State.calibrated (s : State) (x : Nat) (c : Cal) (slice : Nat) (off : Int) (gain : Word) : State :=
  let p := s.mem.patina
  let s := { s with mem := { s.mem with patina := { p with
    calN := p.calN.modify slice 0 (· + 1), drift := p.drift.set (64 * slice + s.serviceYear) (off, gain) } } }
  if 4096 < off.natAbs ∨ (FVal.ofRat 2000).lt ((f32Val gain).abs) ∨ f32IsNan gain then
    let s := s.calFail c slice 3 true
    if c.selfCal then ((s.dropCycle x).setSlice x 4).spareUsed 1 c.channel (2 - (s.spareUses 1 + 1)) else s.sliceDies x c
  else
    let s := { s with cnv := { s.cnv with calLast := s.cnv.calLast.set slice (gtfOf s.now, off, gain) } }
    if c.selfCal then (s.setSlice x 2).setCycle x { c with step := 1, at_ := s.now, windows := 0, selfCal := false }
    else (s.setSlice slice 2).setCycle x { c with step := 4, at_ := s.now, windows := 0 }

/-- CAL_CALIBRATION_DONE: 4,500 ms after its start the calibration of a slice ends: its offset in 1/16 LSB and gain in ppm
(R279). -/
def execCalCalibrationDone (dt : Nat) (slice : Nat) (offset16 : Int) (gainPpm : Word) (s : State) : Out :=
  let s := s.advance dt
  .next (if s.converting then
    match s.cnv.cycle.find? (fun z => z.2.step == 3 && decide (z.2.at_ + 4500000000 ≤ s.now) && (if z.2.selfCal then z.1 == slice else z.2.slice == slice)) with
    | some z => s.calibrated z.1 z.2 slice offset16 gainPpm
    | none => s
  else s)

/-! ### Commits, steps, reset and quiesce (R265, R268, R281, R283) -/

/-- A commit boundary: cycles on channels with a changed selector or gain end, partial blocks are discarded, a changed
sequence starts afresh, filters restart (R265, R281, R289). -/
def State.cnvCommit (s : State) (selGain preset avg : List Nat) (seq : Bool) : State :=
  let s := (s.cnv.cycle.filter (fun z => selGain.contains z.2.channel)).foldl (fun s z => s.endCycle z.1) s
  let s := (selGain ++ avg).foldl (fun s c => s.setChan c { s.chan c with avgT0 := none, avgN := 0 }) s
  let s := if seq then { s with cnv := { s.cnv with auxEntry := none, auxHeld := [], auxDrop := false } }.refreshExc else s
  s.fltCommit (selGain ++ preset).dedup

/-- A clock step from `a` to `b`: partial average blocks are discarded, the dwell in progress is lost, and every filter restarts
(R268, R94). -/
def State.cnvStep (s : State) (a b : Nat) : State :=
  let s := (List.range 24).foldl (fun s c => s.setChan c { s.chan c with avgT0 := none, avgN := 0 }) s
  let s := s.cutDwell
  { s with cnv := { s.cnv with auxEntry := none, auxHeld := [] } }.fltStep a b

/-- No handover or handback runs: the array can stop (R283). -/
def State.cnvDrained (s : State) : Bool := s.cnv.cycle.all (fun z => z.2.step == 3)

/-- Conversions have stopped: cycles end, partial blocks and the dwell in progress are lost, excitation is off; the slice map
and the corrections stay (R283). -/
def State.cnvStop (s : State) : State :=
  let s := s.cnv.cycle.foldl (fun s z => s.endCycle z.1) s.cutDwell
  let s := (List.range 25).foldl (fun s c => s.setChan c { s.chan c with avgT0 := none, avgN := 0, ovrLeft := 0 }) s
  { s with cnv := { s.cnv with auxEntry := none, auxHeld := [], auxDrop := false } }.refreshExc

end Sys2Proof.Machine
end

