-- ==== Sys2Proof/Machine/Capture.lean ====
section
/-! DEFINITION. The capture engine (12): rows, reductions, EDGE triggers, rewind marks, the host's commands and COMTRADE
export. -/

namespace Sys2Proof.Machine

open Sys2Proof

/-! ### Clocks (R304) -/

/-- The grid of a recorder's row instants: period and offset in ns, for the clocks that have a whole period. -/
def State.capGrid (s : State) (n : Nat) : StampGrid :=
  let c := ((s.capInputs n).head?.map (fun p => bitsOf p.2.toNat 4 0)).getD 0
  if s.capKind n = 2 then s.stampGrid c
  else
    let k := 2 ^ s.parN Par.CNV.AVG_N c
    { period := 1000 * k, offset := (k - 1) * 500, delay := 0 }

/-- Row rate in rows per second (R304). -/
def State.rowRate (s : State) (n : Nat) : Rat :=
  match s.capKind n with
  | 1 => s.parN Par.ALN.SLOT_RATE (s.capNumber n)
  | 4 => ((s.srcDef (s.capNumber n)).map SrcDef.rate).getD 0
  | _ => (sec : Rat) / (s.capGrid n).period

/-- The row index of a row instant: the number of row instants from GTF 0 up to it (R304). -/
def State.rowIndex (s : State) (n t : Nat) : Nat :=
  match s.capKind n with
  | 1 => gridIndex (s.parN Par.ALN.SLOT_RATE (s.capNumber n)) t
  | 4 => gridIndex (((s.srcDef (s.capNumber n)).map SrcDef.rate).getD 1) t
  | _ => (t - (s.capGrid n).offset) / max (s.capGrid n).period 1

/-- The entry of a local value: LAG 0 (R306). -/
def localEntry (o : FltOut) : Entry := Entry.mk' o.v (qSet o.q qPresent) 0

/-- The entry that stands where a row's edition never came (R306). -/
def noEntry : Entry := Entry.mk' 0x7FC00000 0xF000 0

/-- The entries of the row at an instant: the first edition of a pod's slot that closed since the arming and has not been taken, the
outputs of the channels, the block results, or the sample as the classifier gives it (R304, R306, R134). Rows of the other clocks
begin at the arming. -/
def State.rowEntries (s : State) (n t : Nat) : Option (List Entry) :=
  let ins := s.capInputs n
  match s.capKind n with
  | 1 =>
    match s.slot? (s.capNumber n) t with
    | some x =>
      if x.closed && x.ready && decide ((s.recorder n).armedAt ≤ x.closedAt) && !x.took.contains (3, n) then
        some (ins.map (fun p => x.entryAt 0 (bitsOf p.2.toNat 17 0)))
      else none
    | none => none
  | k => if t < (s.recorder n).armedAt then none else match k with
  | 2 => ins.mapM (fun p => ((s.flt_ (bitsOf p.2.toNat 4 0)).outs.find? (fun o => o.t == t)).map localEntry)
  | 3 => ins.mapM (fun p => ((s.chan (bitsOf p.2.toNat 4 0)).avgOut.find? (fun o => o.t == t)).map localEntry)
  | 4 => ((s.src (s.capNumber n)).sv.find? (fun x => x.t == t)).map (fun x => ins.map (fun p =>
      ((x.e[bitsOf p.2.toNat 6 0]?).map (fun e => Entry.mk' e.1 e.2 0)).getD noEntry))
  | _ => none

/-! ### Edges (R312) -/

/-- The edge state of a trigger. -/
def Rec.edgeOf (r : Rec) (k : Nat) : EdgeSt := r.edge.getD k { armUp := false, armDn := false }

/-- What an EDGE trigger makes of a row's entry: its state, and whether it fires (R312). -/
def edgeStep (d : TrigDef) (x : EdgeSt) (e : Entry) : EdgeSt × Bool :=
  if !qHas e.quality qPresent || qHas e.quality (qPoison + qInvalid) || f32IsNan e.v then (x, false)
  else
    let v := f32Val e.v
    let l := f32Val d.level
    let h := f32Val d.hyst
    let up := x.armUp && l.le v
    let dn := x.armDn && v.le l
    let a : EdgeSt := { armUp := (x.armUp && !up) || v.lt (l.sub h), armDn := (x.armDn && !dn) || (l.add h).lt v }
    (a, (up && d.takes true) || (dn && d.takes false))

/-- The EDGE triggers of a row: the new edge states, and the causes that fire. -/
def State.edges (s : State) (n : Nat) (row : CapRow) : State × List Nat :=
  let ins := s.capInputs n
  (s.trigs n).foldl (fun acc p =>
    if p.2.kind = 0 then
      match (ins.zip row.e).find? (fun z => z.1.1 == p.2.select) with
      | some z =>
        let r := acc.1.recorder n
        let (x, hit) := edgeStep p.2 (r.edgeOf p.1) z.2
        (acc.1.setRec n { r with edge := r.edge.set p.1 x }, if hit then acc.2 ++ [p.1] else acc.2)
      | none => acc
    else acc) (s, [])

/-! ### Writing rows (R306, R316, R317) -/

/-- Rows a ROLLING recorder or pre-trigger memory keeps. How far back a trigger row may lie is the model's choice: the space that
CAP_ARM asks for (log 53). -/
def State.rowsKept (s : State) (n : Nat) : Nat :=
  if s.capMode n = 2 then s.capCapacity n else (s.recorder n).pre + 1 + (s.recorder n).post

/-- A row joins pre-trigger memory or the rolling rows; overwritten rewind marks become invalid (R316, R321). -/
def State.holdRow (s : State) (n : Nat) (row : CapRow) : State :=
  let r := s.recorder n
  let all := r.rows ++ [row]
  let rows := all.drop (all.length - s.rowsKept n)
  let gone := (all.take (all.length - s.rowsKept n)).map CapRow.t
  let rewind := r.rewind.map (fun m => (m.1, match m.2 with
    | (none, v) => (some row.t, v)
    | (some t, v) => (some t, v && !gone.contains t)))
  s.setRec n { r with
    rows := rows, rewind := rewind, sinceStep := r.sinceStep.map (· + 1)
    st := if r.st = 2 ∧ r.pre ≤ rows.length then 3 else r.st }

/-- A row at the recorder's newest place (R316). -/
def State.appendRow (s : State) (n : Nat) (row : CapRow) : State :=
  let s := s.setRec n { s.recorder n with lastRow := some row.t }
  let r := s.recorder n
  match r.st with
  | 2 | 3 | 5 => s.holdRow n row
  | 4 =>
    match r.cur with
    | some c =>
      s.setRec n { r with cur := some { c with rows := c.rows ++ [row] }, left := r.left - 1 }
    | none => s
  | _ => s

/-- The rows of the recorder that can still be written: the record being written, else the rows held. -/
def Rec.live (r : Rec) : List CapRow := match r.cur with | some c => c.rows | none => r.rows

/-- Triggers whose row has now been written, and the record that is full (R313, R316). -/
def State.settle (s : State) (n : Nat) (t : Nat) (causes : List Nat) : State :=
  let r := s.recorder n
  let due := r.waiting.filter (fun w => decide (w.1 ≤ t))
  let s := s.setRec n { r with waiting := r.waiting.filter (fun w => decide (t < w.1)) }
  let s := s.capFires n (due ++ causes.map (fun k => (t, k)))
  let r := s.recorder n
  if r.cur.isSome && r.left == 0 then s.endRecord n else s

/-- A new row: places passed over by a POD recorder are filled, then the row, its edges and its triggers (R306, R312). -/
def State.newRow (s : State) (n : Nat) (row : CapRow) : State :=
  let fill := match s.capKind n, (s.recorder n).live.getLast? with
    | 1, some l =>
      let r := s.parN Par.ALN.SLOT_RATE (s.capNumber n)
      let i := gridIndex r l.t
      let k := gridIndex r row.t - i - 1
      let k := min k (s.capCapacity n)
      (List.range k).map (fun j => gridAt r (gridIndex r row.t - k + j))
    | _, _ => []
  let blank := (s.capInputs n).map (fun _ => noEntry)
  let s := fill.foldl (fun s t => (s.appendRow n { t := t, e := blank }).settle n t []) s
  let s := s.appendRow n row
  let (s, causes) := s.edges n row
  s.settle n row.t causes

/-- The places of the recorder that hold a row of this instant: the record being written, the rows held, the records held. -/
def Rec.holds (r : Rec) (t : Nat) : Bool :=
  let has := fun (l : List CapRow) => l.any (fun x => x.t == t)
  r.cur.any (fun c => has c.rows) || has r.rows || r.recs.any (fun c => has c.rows)

/-- Write a row in the place held for it. -/
def Rec.put (r : Rec) (row : CapRow) : Rec :=
  let put := fun (l : List CapRow) => l.map (fun x => if x.t = row.t then row else x)
  { r with rows := put r.rows, cur := r.cur.map (fun c => { c with rows := put c.rows })
           recs := r.recs.map (fun c => { c with rows := put c.rows }) }

/-- A row of a POD recorder whose place lies behind the newest: written there if it is held, else discarded and counted. A row of
another clock that is held has been written already (R306). -/
def State.lateRow (s : State) (n : Nat) (row : CapRow) : State :=
  let r := s.recorder n
  if !r.holds row.t then s.count2 0x0B07 (n + 1) 1
  else if s.capKind n ≠ 1 then s
  else
    let (s, causes) := (s.setRec n (r.put row)).edges n row
    s.settle n row.t causes

/-- A row that finds the staging buffer full is lost: a record being written ends at its last row with OVERFLOW, pre-trigger memory
restarts empty, and a ROLLING recorder just misses the row (R309). -/
def State.loseRow (s : State) (n t : Nat) : State :=
  let s := s.count2 0x0B06 (n + 1) 1
  let r := { s.recorder n with lastRow := some t }
  let s := s.setRec n r
  if s.capMode n = 2 then s
  else if r.cur.isSome then s.endRecordTo n 2 (s.afterRecord n)
  else s.setRec n { r with rows := [], sinceStep := none, st := if r.st = 3 ∧ r.pre ≠ 0 then 2 else r.st }

/-- A slot's first edition has been taken by a POD recorder (R22). -/
def State.rowTaken (s : State) (n t : Nat) : State :=
  if s.capKind n = 1 then
    match s.slot? (s.capNumber n) t with
    | some x => s.setSlot (s.capNumber n) t { x with took := x.took ++ [(3, n)] }
    | none => s
  else s

/-- A recorder takes the row of an instant; `full`: DRAM leaves its staging buffer full (R304, R306, R309). -/
def State.capTake (s : State) (recorder row : Nat) (full : Bool) : State :=
  if s.capRuns && s.capKind recorder != 0 && [2, 3, 4, 5].contains (s.recorder recorder).st then
    match s.rowEntries recorder row with
    | some es =>
      let s := s.rowTaken recorder row
      if (s.recorder recorder).lastRow.any (fun l => decide (row ≤ l)) then s.lateRow recorder { t := row, e := es }
      else if full then s.loseRow recorder row
      else s.newRow recorder { t := row, e := es }
    | none => s
  else s

/-- CAP_ROW: a recorder, its row's instant, and whether DRAM leaves its staging buffer full (R304, R306, R309). -/
def execCapRow (dt : Nat) (recorder : Nat) (row : Nat) (full : Bool) (s : State) : Out :=
  .next ((s.advance dt).capTake recorder row full)

/-- DIN_TRIGGER_EDGE: an edge of a land with its time-base stamp (R312). -/
def execDinTriggerEdge (dt : Nat) (land : Nat) (rising : Bool) (stamp : Nat) (s : State) : Out :=
  let s := s.advance dt
  .next (if decide (land < 8) then
    { s with lands := { s.lands with din := s.lands.din.put false land rising } }.capEvent 1 (fun k => if k = land then some rising else none) stamp
  else s)

/-- CAP_AUTO_TIMEOUT: no trigger for CAP.AUTO_TIMEOUT_MS since arming or the last record (R314). -/
def execCapAutoTimeout (dt : Nat) (recorder : Nat) (s : State) : Out :=
  let s := s.advance dt
  let r := s.recorder recorder
  let ms := s.parN Par.CAP.AUTO_TIMEOUT_MS recorder
  .next (if s.capRuns && ms != 0 && (r.st == 2 || r.st == 3) && r.waiting.isEmpty &&
      decide (r.autoAt + 1000000 * ms ≤ s.now) then
    ((s.setRec recorder { r with autoAt := s.now }).count2 0x0B05 (recorder + 1) 1).capFire recorder (s.now, 17)
  else s)

/-- CAP_REARM_END: CAP.REARM_MS after a record ended (R316). -/
def execCapRearmEnd (dt : Nat) (recorder : Nat) (s : State) : Out :=
  let s := s.advance dt
  let r := s.recorder recorder
  .next (if s.capRuns && r.st == 5 && decide (r.rearmAt + 1000000 * s.parN Par.CAP.REARM_MS recorder ≤ s.now) then
    s.setRec recorder { r with st := if r.pre ≤ r.rows.length then 3 else 2 } else s)

/-! ### Arming and releasing (R319) -/

/-- CAP_ARM (R319). The state is checked before the length of the payload (R39). -/
def State.capArm (s : State) (q : Req) : State × Option Ans :=
  let n := q.bits 4 2 0
  let pre := (q.w 5).toNat
  let post := (q.w 6).toNat
  let count := (q.w 7).toNat
  let r := s.recorder n
  let roll := s.capMode n = 2
  let pre := if roll then 0 else pre
  let post := if roll then 0 else post
  let count := if roll then 0 else count
  if !s.measuring then (s, err 0x010E)
  else if s.capKind n = 0 ∨ (r.st ≠ 1 ∧ r.st ≠ 0) then (s, err 0x010E)
  else if q.payload.length < 4 then (s, err 0x0106)
  else if s.capCapacity n < pre + 1 + post then (s, err 0x0106)
  else if s.capMode n = 1 ∧ (s.capCapacity n < rowsHeld r.recs + (pre + 1 + post) ∨ 512 ≤ r.recs.length) then (s, err 0x0117)
  else
    (s.setRec n { r with
      st := if pre = 0 then 3 else 2, pre := pre, post := post, count := count, made := 0, rows := if roll then r.rows else []
      waiting := [], edge := [], autoAt := s.now, sinceStep := none, armedAt := s.now, lastRow := none }, ok [])

/-- Disarm a recorder; a record being written ends with `flags` (R319, R324). -/
def State.capStop (s : State) (n flags : Nat) : State :=
  let r := s.recorder n
  if r.st = 0 ∨ r.st = 1 then s
  else
    let s := s.setRec n { r with waiting := [] }
    let s := s.endRecordTo n (2 ^ flags) 1
    s.setRec n { s.recorder n with st := 1 }

/-- CAP_RELEASE: records up to RECORD_ID are freed; a FULL recorder with room starts pre-fill (R310, R319). -/
def State.capRelease (s : State) (q : Req) : State × Option Ans :=
  let n := q.bits 4 2 0
  let id := (q.w 5).toNat
  let r := s.recorder n
  if s.capMode n = 2 then (s, err 0x010E)
  else if q.payload.length < 2 then (s, err 0x0106)
  else if !(r.recs.any (fun c => c.id == id)) then (s, err 0x0106)
  else
    let kept := r.recs.filter (fun c => decide (id < c.id))
    let room := decide (rowsHeld kept + (r.pre + 1 + r.post) ≤ s.capCapacity n)
    let st := if r.st = 6 ∧ room then (if r.pre = 0 then 3 else 2) else r.st
    (s.setRec n { r with recs := kept, st := st, autoAt := if st = r.st then r.autoAt else s.now },
     ok [BitVec.ofNat 32 (r.recs.length - kept.length)])

/-- CAP_FORCE: the recorders of the mask that accept the trigger (R319). -/
def State.capForce (s : State) (mask : Nat) : State × Option Ans :=
  let ns := (List.range 8).filter (fun n => mask.testBit n)
  let took := ns.filter (fun n => (s.recorder n).st == 2 || (s.recorder n).st == 3)
  (ns.foldl (fun s n => s.capFire n (s.now, 16)) s, ok [BitVec.ofNat 32 ((took.map (fun n => 2 ^ n)).sum)])

/-- CAP_ARM (0x0400). -/
def execCapArm (dt : Nat) (q : Req) (s : State) : Out :=
  .next ((s.advance dt).serve q 0x0400 0x0B 1 0 true (fun _ s => s.capArm q))

/-- CAP_DISARM (0x0401). -/
def execCapDisarm (dt : Nat) (q : Req) (s : State) : Out :=
  .next ((s.advance dt).serve q 0x0401 0x0B 1 1 true (fun _ s => (s.capStop (q.bits 4 2 0) 3, ok [])))

/-- CAP_FORCE (0x0402). -/
def execCapForce (dt : Nat) (q : Req) (s : State) : Out :=
  .next ((s.advance dt).serve q 0x0402 0x0B 1 1 true (fun _ s => s.capForce (q.bits 4 7 0)))

/-- CAP_RELEASE (0x0406). -/
def execCapRelease (dt : Nat) (q : Req) (s : State) : Out :=
  .next ((s.advance dt).serve q 0x0406 0x0B 1 0 true (fun _ s => s.capRelease q))

/-! ### Reductions (R307) -/

/-- The kind of an input's values: 0 F32, 1 COUNT64 low, 2 STATUS32, 3 COUNT64 high. -/
def State.inputKind (s : State) (n : Nat) (w : Word) : Nat :=
  match s.capKind n with
  | 1 => (((s.podDef (s.capNumber n)).positions[bitsOf w.toNat 17 0]?).map Pos.kind).getD 0
  | 4 => ((s.srcDef (s.capNumber n)).bind (fun d => (d.maps[bitsOf w.toNat 6 0]?).map Mapping.kind)).getD 0
  | _ => 0

/-- A sample contributes to a reduction: PRESENT and not NaN (R307). -/
def contributes (kind : Nat) (e : Entry) : Bool := qHas e.quality qPresent && !(kind == 0 && f32IsNan e.v)

/-- The entry of a reduction: 0 MIN, 1 MAX, 2 MEAN, 3 RMS of the contributing samples of an interval (R307). -/
def reduceEntry (kind which : Nat) (all : List Entry) : Entry :=
  let l := all.filter (contributes kind)
  match l with
  | [] => noEntry
  | e0 :: rest =>
    let q := qSet (foldQuality (l.reverse.map Entry.quality) ||| (l.foldl (fun a e => a ||| e.quality) 0) &&& 0x0382) qPresent
    let lag : Half := BitVec.ofNat 16 (min l.length 0xFFFF)
    let v : Word :=
      if kind ≠ 0 then (l.getLast?.map Entry.v).getD 0
      else match which with
        | 0 => rest.foldl (fun a e => if f32Lt e.v a then e.v else a) e0.v
        | 1 => rest.foldl (fun a e => if f32Lt a e.v then e.v else a) e0.v
        | 2 => f32Of64 (f64Div (l.foldl (fun a e => f64Add a (f64Of32 e.v)) 0) (f64OfInt l.length))
        | _ => f32Of64 (f64Sqrt (f64Div (l.foldl (fun a e => f64Add a (f64Mul (f64Of32 e.v) (f64Of32 e.v))) 0)
            (f64OfInt l.length)))
    Entry.mk' v q lag

/-- The selected reductions in order (R307). -/
def selectedRed (w : Nat) : List Nat :=
  (if w.testBit 1 then [0, 1] else []) ++ (if w.testBit 2 then [2] else []) ++ (if w.testBit 3 then [3] else [])

/-- The reduced rows of the whole intervals in a run of rows (R307). -/
def State.reducedRows (s : State) (n : Nat) (rows : List CapRow) : List CapRow :=
  match rows.head?, rows.getLast? with
  | some a, some b =>
    let k := s.parN Par.CAP.REDUCE_N n
    let i0 := (s.rowIndex n a.t + k - 1) / k
    let i1 := (s.rowIndex n b.t + 1) / k
    let ins := s.capInputs n
    let reds := selectedRed (s.parN Par.CAP.REDUCE n)
    (List.range (i1 - i0)).filterMap (fun j =>
      let mine := rows.filter (fun r => s.rowIndex n r.t / k == i0 + j)
      mine.head?.map (fun r0 =>
        { t := r0.t
          e := (List.range ins.length).flatMap (fun i =>
            let kind := s.inputKind n (((ins[i]?).map Prod.snd).getD 0)
            reds.map (fun w => reduceEntry kind w (mine.filterMap (fun r => r.e[i]?)))) }))
  | _, _ => []

/-! ### Reading (R318, R320, R321) -/

/-- The words of a row: GTF, then each entry's V and Q (R306). -/
def CapRow.words (r : CapRow) : List Word := gtfWords r.t ++ r.e.flatMap (fun e => [e.v, e.q])

/-- The 32 words of a record's header (R318). -/
def State.recHeader (s : State) (n : Nat) (c : CapRec) (inProgress : Bool) : List Word :=
  let w := fun k => BitVec.ofNat 32 k
  let marks := (List.range 8).flatMap (fun i => match c.marks[i]? with
    | some m => gtfWords m.1 | none => [0xFFFFFFFF, 0xFFFFFFFF])
  let cause := fun i => ((c.marks[i]?).map Prod.snd).getD 0
  let causes := fun a => w (cause a + 256 * cause (a + 1) + 65536 * cause (a + 2) + 2 ^ 24 * cause (a + 3))
  [w (2 ^ 24 + n * 2 ^ 20 + s.capKind n * 65536 + (c.flags + bitAt inProgress 7)), w c.id] ++ gtfWords c.trig ++
  gtfWords ((c.rows.head?.map CapRow.t).getD c.trig) ++
  [w (ratFloor (1000 * s.rowRate n)).toNat, w c.pre, w c.postRows,
   w ((s.capInputs n).length * 65536 + c.cause * 256 + s.parN Par.CAP.REDUCE n % 16), w (s.parN Par.CAP.REDUCE_N n),
   w (if s.capK n = 0 then 0 else (s.reducedRows n c.rows).length), c.commit, w (min c.nMarks 255 * 2 ^ 24)] ++ marks ++ [causes 0, causes 4]

/-- The records of a recorder with the one being written: record, whether in progress. -/
def Rec.all (r : Rec) : List (CapRec × Bool) := r.recs.map (fun c => (c, false)) ++ r.cur.toList.map (fun c => (c, true))

/-- The rows a ROLLING recorder stores: raw, or its reduced rows (R305, R310). -/
def State.rollRows (s : State) (n : Nat) : List CapRow :=
  let r := s.recorder n
  if (s.parN Par.CAP.REDUCE n).testBit 0 then r.rows else s.reducedRows n r.rows

/-- A reply of items from index `a`. -/
def itemsFrom (l : List (List Word)) (a k : Nat) : Option Ans :=
  let got := (l.drop a).take k
  ok ([BitVec.ofNat 32 got.length, BitVec.ofNat 32 (a + got.length)] ++ got.flatten)

/-- `k` rolling rows from the `a`-th after a rewind mark: a lost mark answers REWIND_LOST once and moves to the oldest row held; a
read advances the mark past the rows returned (R320, R321). -/
def State.readMark (s : State) (n m a k : Nat) : State × Option Ans :=
  let r := s.recorder n
  let rows := s.rollRows n
  match r.rewind.get? m with
  | none => (s, err 0x0106)
  | some (_, false) =>
    ((s.setRec n { r with rewind := r.rewind.set m (rows.head?.map CapRow.t, true) }).count2 0x0B09 (n + 1) 1, err 0x0114)
  | some (t, true) =>
    let from_ := (rows.filter (fun x => t.any (fun t => decide (t ≤ x.t)))).drop a
    let got := from_.take k
    let next := (from_.drop k).head?.map CapRow.t
    (if got.isEmpty then s else s.setRec n { r with rewind := r.rewind.set m (next, true) },
     ok ([BitVec.ofNat 32 got.length, BitVec.ofNat 32 (a + got.length)] ++ got.flatMap CapRow.words))

/-- CAP_READ (R320). -/
def State.capRead (s : State) (q : Req) : State × Option Ans :=
  let n := q.bits 4 31 29
  let r := s.recorder n
  let a := (q.w 8).toNat
  let k := (q.w 9).toNat
  let id := (q.w 5).toNat
  let red := s.parN Par.CAP.REDUCE n
  if [3, 4, 5].contains (q.bits 4 3 0) ∧ s.capMode n ≠ 2 then (s, err 0x010E)
  else if q.payload.length < 6 ∨ k = 0 then (s, err 0x0106) else if 4096 < k then (s, err 0x0116)
  else match q.bits 4 3 0 with
    | 0 =>
      if r.all.any (fun c => c.1.id == id) then
        let got := (r.all.filter (fun c => decide (id ≤ c.1.id))).take k
        (s, ok ([BitVec.ofNat 32 got.length, BitVec.ofNat 32 (id + got.length)] ++
          got.flatMap (fun c => s.recHeader n c.1 c.2)))
      else (s, err 0x0106)
    | 1 =>
      match r.all.find? (fun c => c.1.id == id) with
      | some c => if red.testBit 0 then (s, itemsFrom (c.1.rows.map CapRow.words) a k) else (s, err 0x0106)
      | none => (s, err 0x0106)
    | 2 =>
      match r.all.find? (fun c => c.1.id == id) with
      | some c => if s.capK n ≠ 0 then (s, itemsFrom ((s.reducedRows n c.1.rows).map CapRow.words) a k) else (s, err 0x0106)
      | none => (s, err 0x0106)
    | 3 => if 3 < id then (s, err 0x0106) else s.readMark n id a k
    | 4 =>
      if !gtfValid (q.dw 6) then (s, err 0x0106)
      else (s, itemsFrom (((s.rollRows n).filter (fun x => decide (q.dw 6 ≤ gtfOf x.t))).map CapRow.words) a k)
    | 5 => (s, itemsFrom (r.marks.map (fun m => gtfWords m.1 ++ [BitVec.ofNat 32 m.2] ++ List.replicate 29 0)) a k)
    | _ => (s, err 0x0106)

/-- CAP_READ (0x0403). -/
def execCapRead (dt : Nat) (q : Req) (s : State) : Out :=
  .next ((s.advance dt).serve q 0x0403 0x0B 1 0 true (fun _ s => s.capRead q))

/-- CAP_SET_REWIND (R321). -/
def State.setRewind (s : State) (q : Req) : State × Option Ans :=
  let n := q.bits 4 31 29
  let m := q.bits 4 1 0
  let r := s.recorder n
  let g := q.dw 5
  if s.capMode n ≠ 2 then (s, err 0x010E)
  else if q.payload.length < 3 then (s, err 0x0106)
  else if (q.w 4).getLsbD 8 then
    (s.setRec n { r with rewind := r.rewind.erase m }, ok [0xFFFFFFFF, 0xFFFFFFFF])
  else if g ≠ gtfNone ∧ !gtfValid g then (s, err 0x0106)
  else
    let row := if g = gtfNone then none else (s.rollRows n).find? (fun x => decide (g ≤ gtfOf x.t))
    (s.setRec n { r with rewind := r.rewind.set m (row.map CapRow.t, true) },
     ok (words64 (gtfOpt (row.map CapRow.t))))

/-- CAP_SET_REWIND (0x0404). -/
def execCapSetRewind (dt : Nat) (q : Req) (s : State) : Out :=
  .next ((s.advance dt).serve q 0x0404 0x0B 1 0 true (fun _ s => s.setRewind q))

/-! ### COMTRADE (R323) -/

/-- The bytes of an ASCII text. -/
def ascii (t : String) : List Byte := t.toList.map (fun c => BitVec.ofNat 8 c.toNat)

/-- A decimal number. -/
def decText (n : Nat) : List Byte := ascii (toString n)

/-- A decimal number of at least `k` digits. -/
def padText (k n : Nat) : List Byte := let d := decText n; List.replicate (k - d.length) 48 ++ d

/-- A rate as text: a whole number, or a decimal fraction. -/
def rateText (q : Rat) : List Byte := if q.den = 1 then decText q.num.toNat else Config.decimalText q

/-- Unit texts of the unit codes (05). -/
def unitText : Nat → List Byte
  | 1 => ascii "V" | 2 => ascii "A" | 3 => ascii "rad" | 4 => ascii "Hz" | 5 => ascii "Hz/s" | 6 => ascii "W"
  | 7 => ascii "var" | 8 => ascii "VA" | 9 => ascii "Pa" | 10 => ascii "K" | 11 => ascii "kg/s" | 12 => ascii "m3/s"
  | 13 => ascii "J/kg" | 14 => ascii "Count" | 15 => ascii "Status bits" | 16 => ascii "Dimensionless" | 17 => ascii "degC"
  | 18 => ascii "m3" | 19 => ascii "Wh" | _ => ascii "None"

/-- The unit code of an input: volts for local ones. -/
def State.inputUnit (s : State) (n : Nat) (w : Word) : Nat :=
  match s.capKind n with
  | 1 => (((s.podDef (s.capNumber n)).positions[bitsOf w.toNat 17 0]?).map Pos.unit).getD 0
  | 4 => ((s.srcDef (s.capNumber n)).bind (fun d => (d.maps[bitsOf w.toNat 6 0]?).map Mapping.unit)).getD 0
  | _ => 1

/-- Year, month and day of a day number counted from 2000-01-01. -/
def civil (day : Int) : Int × Int × Int :=
  let z := day + 730425
  let era := z / 146097
  let doe := z - era * 146097
  let yoe := (doe - doe / 1460 + doe / 36524 - doe / 146096) / 365
  let doy := doe - (365 * yoe + yoe / 4 - yoe / 100)
  let mp := (5 * doy + 2) / 153
  let d := doy - (153 * mp + 2) / 5 + 1
  let m := if mp < 10 then mp + 3 else mp - 9
  (yoe + era * 400 + (if m ≤ 2 then 1 else 0), m, d)

/-- A time in UTC, rounded to the µs: dd/mm/yyyy,hh:mm:ss.ssssss (R323, R96). -/
def State.utcText (s : State) (t : Nat) : List Byte :=
  let us := (s.utcOfTai t + 500) / 1000
  let (y, m, d) := civil (us / 86400000000)
  let r := (us % 86400000000).toNat
  padText 2 d.toNat ++ ascii "/" ++ padText 2 m.toNat ++ ascii "/" ++ padText 4 y.toNat ++ ascii "," ++
  padText 2 (r / 3600000000) ++ ascii ":" ++ padText 2 (r / 60000000 % 60) ++ ascii ":" ++ padText 2 (r / 1000000 % 60) ++
  ascii "." ++ padText 6 (r % 1000000)

/-- The line end of a COMTRADE file. -/
def crlf : List Byte := [13, 10]

/-- The rows of a section of a record, one entry per input: raw, or one reduction (R323). -/
def State.sectionRows (s : State) (n : Nat) (c : CapRec) (sect : Nat) : Option (List CapRow) :=
  let red := s.parN Par.CAP.REDUCE n
  if sect = 0 then (if red.testBit 0 then some c.rows else none)
  else
    match (selectedRed red).findIdx? (· == sect - 1) with
    | some j =>
      let k := (selectedRed red).length
      some ((s.reducedRows n c.rows).map (fun r =>
        { r with e := (List.range (r.e.length / max k 1)).filterMap (fun i => r.e[i * k + j]?) }))
    | none => none

/-- Analogue and status inputs: place, number and word (R323). -/
def State.exportInputs (s : State) (n kind : Nat) : List (Nat × Nat × Word) :=
  let ins := s.capInputs n
  (((List.range ins.length).zip ins).map (fun p => (p.1, p.2.1, p.2.2))).filter (fun p => s.inputKind n p.2.2 == kind)

/-- The station name: CAP.STATION, or GLS-4640 when empty (R323). -/
def State.stationName (s : State) : List Byte :=
  let l := (wordsLe (s.par Par.CAP.STATION 0)).takeWhile (fun b => b != 0)
  if l.isEmpty then ascii "GLS-4640" else l

/-- A hexadecimal digit, as the time quality code of a COMTRADE file is written (IEEE C37.111). -/
def hexText (n : Nat) : List Byte := [BitVec.ofNat 8 (if n < 10 then 48 + n else 55 + n)]

/-- The leap second indicator of a section: 1 where a second is inserted between its rows, 2 where one is left out, else 0
(R323). -/
def State.leapIn (s : State) (a b : Nat) : Nat := if a ≤ s.tim.leapAt ∧ s.tim.leapAt ≤ b then s.tim.leapKind else 0

/-- The CFG file of a section (R323). -/
def State.cfgFile (s : State) (n : Nat) (c : CapRec) (sect : Nat) (rows : List CapRow) : List Byte :=
  let an := s.exportInputs n 0
  let st := s.exportInputs n 2
  let rate := if sect = 0 then s.rowRate n else s.rowRate n / s.parN Par.CAP.REDUCE_N n
  let worst := (rows.flatMap (fun r => r.e.map (fun e => qTq e.quality))).foldl max 0
  let first := (rows.head?.map CapRow.t).getD c.trig
  s.stationName ++ ascii ",CAP" ++ decText n ++ ascii "-" ++ decText c.id ++ ascii ",2013" ++ crlf ++
  decText (an.length + 32 * st.length) ++ ascii "," ++ decText an.length ++ ascii "A," ++ decText (32 * st.length) ++ ascii "D" ++ crlf ++
  ((List.range an.length).zip an).flatMap (fun p =>
    decText (p.1 + 1) ++ ascii ",I" ++ padText 3 p.2.2.1 ++ ascii ",,," ++ unitText (s.inputUnit n p.2.2.2) ++ ascii ",1,0,0," ++
    Config.comtradeLimits ++ ascii ",1,1,P" ++ crlf) ++
  ((List.range st.length).zip st).flatMap (fun p => (List.range 32).flatMap (fun b =>
    decText (32 * p.1 + b + 1) ++ ascii ",I" ++ padText 3 p.2.2.1 ++ ascii ".b" ++ padText 2 b ++ ascii ",,,0" ++ crlf)) ++
  decText (s.parN Par.CAP.LINE_HZ n) ++ crlf ++ ascii "1" ++ crlf ++ rateText rate ++ ascii "," ++ decText rows.length ++ crlf ++
  s.utcText first ++ crlf ++ s.utcText c.trig ++ crlf ++ ascii "FLOAT32" ++ crlf ++ ascii "1" ++ crlf ++ ascii "+0,+0" ++ crlf ++
  hexText (c37TimeQuality worst) ++ ascii "," ++ decText (s.leapIn first ((rows.getLast?.map CapRow.t).getD first)) ++ crlf

/-- The value of an entry in a DAT file: non-PRESENT values that are not substituted are 0x7FC0_0000 (R323). -/
def datValue (e : Option Entry) : Word :=
  match e with
  | some e => if qHas e.quality qPresent || qHas e.quality qSubst then e.v else 0x7FC00000
  | none => 0x7FC00000

/-- The DAT file of a section (R323). -/
def State.datFile (s : State) (n : Nat) (rows : List CapRow) : List Byte :=
  let an := s.exportInputs n 0
  let st := s.exportInputs n 2
  let t0 := (rows.head?.map CapRow.t).getD 0
  ((List.range rows.length).zip rows).flatMap (fun p =>
    wordsLe ([BitVec.ofNat 32 (p.1 + 1), BitVec.ofNat 32 ((p.2.t - t0 + 500) / 1000)] ++
      an.map (fun i => datValue p.2.e[i.1]?) ++ st.map (fun i => datValue p.2.e[i.1]?)))

/-- CAP_EXPORT (R323). -/
def State.capExport (s : State) (q : Req) : Option Ans :=
  let n := q.bits 4 31 29
  let sect := q.bits 4 3 0
  let off := (q.w 6).toNat
  let cnt := (q.w 7).toNat
  if s.capMode n = 2 then err 0x010E
  else if q.payload.length < 4 then err 0x0106
  else if 60000 < cnt then err 0x0116
  else if cnt < 4 ∨ cnt % 4 ≠ 0 then err 0x0106
  else
    match (s.recorder n).recs.find? (fun c => c.id == (q.w 5).toNat) with
    | none => err 0x0106
    | some c =>
      match s.sectionRows n c sect with
      | none => err 0x0106
      | some rows =>
        let file := if (q.w 4).getLsbD 4 then s.datFile n rows else s.cfgFile n c sect rows
        let got := (file.drop off).take cnt
        ok ([BitVec.ofNat 32 file.length, BitVec.ofNat 32 got.length] ++ q.carriage.pack got)

/-- CAP_EXPORT (0x0405). -/
def execCapExport (dt : Nat) (q : Req) (s : State) : Out :=
  .next ((s.advance dt).serve q 0x0405 0x0B 1 0 true (fun _ s => (s, s.capExport q)))

/-! ### Commits, steps, reset (R318, R324) -/

/-- CAP.STATE (R316). -/
def State.capState (s : State) (n : Nat) : Nat := if s.capKind n = 0 then 0 else max (s.recorder n).st 1

/-- Every recorder is disarmed; a record being written ends with flag `flags` (R324). -/
def State.capStopAll (s : State) (flags : Nat) : State := (List.range 8).foldl (fun s n => s.capStop n flags) s

/-- UNIT_RESET of unit 0x0B, after its epoch has advanced (R324). -/
def State.capReset (s : State) : State :=
  let s := s.capStopAll 4
  (List.range 8).foldl (fun s n =>
    let r := s.recorder n
    s.setRec n { r with rewind := r.rewind.map (fun m => (m.1, (m.2.1, false))) }) s

/-- The capture region is lost at SLEEP, HALT, power failure and module reset (R324). -/
def State.capLose (s : State) : State :=
  { s with cap := { rec_ := s.cap.rec_.map (fun p => (p.1, { Rec.init with commit := p.2.commit })) } }

/-- A commit boundary that changes a recorder's clock, inputs, sections or mode, or its part of the region (R324). -/
def State.capCommit (s : State) (n : Nat) (commit : Word) : State :=
  let s := s.capStop n 5
  s.setRec n { Rec.init with lastId := (s.recorder n).lastId, st := if s.capKind n = 0 then 0 else 1, commit := commit }

/-- A clock step: records across it are marked TIME_STEP (R318). -/
def State.capStep (s : State) : State :=
  (List.range 8).foldl (fun s n =>
    let r := s.recorder n
    match r.cur with
    | some c => s.setRec n { r with cur := some { c with flags := if c.flags.testBit 6 then c.flags else c.flags + 64 } }
    | none => if r.rows.isEmpty then s else s.setRec n { r with sinceStep := some 0 }) s

end Sys2Proof.Machine
end

