-- ==== Sys2Proof/Machine/LogicImage.lean ====
section
/-! DEFINITION. The logic image: its layout and its checks (R328, R329), and what each block computes (R330 to R332). -/

namespace Sys2Proof.Machine

open Sys2Proof

/-! ### Block signatures (R330) -/

/-- What a block takes at an input or gives at its output: nothing, one type, the shared numeric type or the shared type of
the block, any type, any numeric type, or IN0's type. -/
inductive LSlot where
  | none_ | bool | int | real | time | num | shared | any | anyNum | asIn0
  deriving DecidableEq, Repr

/-- A block's inputs, its output, and whether each input is required. -/
structure LSig where
  in0  : LSlot
  in1  : LSlot
  in2  : LSlot
  out  : LSlot
  req0 : Bool
  req1 : Bool
  req2 : Bool
  deriving DecidableEq, Repr

/-- Signature of a block type, none for an unknown OPCODE (R330, R331). -/
def lsig (op : Nat) : Option LSig :=
  if op = 0x00 then some ⟨.none_, .none_, .none_, .none_, false, false, false⟩
  else if op = 0x01 ∨ op = 0x02 then some ⟨.bool, .bool, .bool, .bool, true, false, false⟩
  else if op = 0x03 ∨ op = 0x05 ∨ op = 0x06 then some ⟨.bool, .bool, .none_, .bool, true, true, false⟩
  else if op = 0x04 then some ⟨.shared, .none_, .none_, .shared, true, false, false⟩
  else if op = 0x07 ∨ op = 0x08 ∨ op = 0x60 then some ⟨.bool, .none_, .none_, .bool, true, false, false⟩
  else if op = 0x10 ∨ op = 0x11 then some ⟨.any, .asIn0, .none_, .bool, true, true, false⟩
  else if 0x12 ≤ op ∧ op ≤ 0x17 then some ⟨.anyNum, .asIn0, .none_, .bool, true, true, false⟩
  else if op = 0x18 then some ⟨.any, .none_, .none_, .bool, true, false, false⟩
  else if 0x20 ≤ op ∧ op ≤ 0x23 then some ⟨.num, .num, .none_, .num, true, true, false⟩
  else if op = 0x24 then some ⟨.num, .none_, .none_, .num, true, false, false⟩
  else if op = 0x25 ∨ op = 0x26 then some ⟨.num, .num, .num, .num, true, false, false⟩
  else if op = 0x27 then some ⟨.num, .num, .num, .num, true, true, true⟩
  else if op = 0x28 then some ⟨.real, .real, .real, .real, true, true, true⟩
  else if op = 0x29 ∨ op = 0x50 ∨ op = 0x51 then some ⟨.real, .none_, .none_, .real, true, false, false⟩
  else if op = 0x2A then some ⟨.int, .none_, .none_, .real, true, false, false⟩
  else if op = 0x2B then some ⟨.real, .none_, .none_, .int, true, false, false⟩
  else if op = 0x2C then some ⟨.bool, .none_, .none_, .int, true, false, false⟩
  else if op = 0x30 then some ⟨.bool, .shared, .shared, .shared, true, true, true⟩
  else if op = 0x31 then some ⟨.shared, .shared, .shared, .shared, true, false, true⟩
  else if 0x40 ≤ op ∧ op ≤ 0x42 then some ⟨.bool, .time, .none_, .bool, true, false, false⟩
  else if op = 0x48 ∨ op = 0x49 then some ⟨.bool, .bool, .none_, .int, true, false, false⟩
  else if op = 0x61 then some ⟨.any, .bool, .none_, .bool, true, false, false⟩
  else none

/-- A variable of type `t` fits a slot, where the output has type `o` and IN0 type `t0`. -/
def LSlot.fits (c : LSlot) (t o t0 : Nat) : Bool :=
  match c with
  | .none_ => true
  | .bool => t == 0
  | .int => t == 1
  | .real => t == 2
  | .time => t == 3
  | .num => t != 0 && t == o
  | .shared => t == o
  | .any => true
  | .anyNum => t != 0
  | .asIn0 => t == t0

/-! ### Layout (R328) -/

/-- The variable in words `w`, `binding`, `init`. -/
def lvarOf (w binding init : Word) : LVar :=
  { ty := bitsOf w.toNat 31 28, kind := bitsOf w.toNat 27 24, binding := binding, init := init }

/-- The block of four words. -/
def lblockOf (a b c d : Word) : LBlock :=
  { op := bitsOf a.toNat 31 24, const := a.getLsbD 23, absent := bitsOf a.toNat 22 20, invOut := a.getLsbD 19
    invIn := bitsOf a.toNat 18 16, out := bitsOf a.toNat 15 0, in0 := bitsOf b.toNat 31 16, in1 := bitsOf b.toNat 15 0
    in2 := bitsOf c.toNat 31 16, param := d }

/-- Variables from `n` entries of three words. -/
def lvars : Nat → List Word → List LVar
  | n + 1, a :: b :: c :: l => lvarOf a b c :: lvars n l
  | _, _ => []

/-- Blocks from `n` records of four words. -/
def lblocks : Nat → List Word → List LBlock
  | n + 1, a :: b :: c :: d :: l => lblockOf a b c d :: lblocks n l
  | _, _ => []

/-- Input `n` of a block is present: its type takes it, CONST does not replace it, and it is not absent. -/
def LBlock.uses (b : LBlock) (g : LSig) (n : Nat) : Bool :=
  (match n with | 0 => g.in0 | 1 => g.in1 | _ => g.in2) != .none_ && !(n == 1 && b.const) && !b.absent.testBit n

/-- The variable of input `n`. -/
def LBlock.inVar (b : LBlock) (n : Nat) : Nat := match n with | 0 => b.in0 | 1 => b.in1 | _ => b.in2

/-! ### Checks (R329) -/

/-- A failed check: reason, failing block or 0xFFFF, item. -/
abbrev LFail := Nat × Nat × Nat

/-- The BINDING of a variable fits its KIND and TYPE (R328, reason 9). -/
def LVar.bindOk (v : LVar) : Bool :=
  decide (v.ty ≤ 3) &&
  (match v.kind with
    | 0 => v.binding == 0
    | 1 => v.ty != 3
    | 2 | 3 | 5 => v.ty == 0
    | 4 => bitsOf v.binding.toNat 1 0 != 3 && v.ty == (if bitsOf v.binding.toNat 1 0 = 2 then 1 else 0)
    | 6 => decide (bitsOf v.binding.toNat 7 0 ≤ 63)
    | _ => false)

/-- The ALM land of a KIND 5 variable. -/
def LVar.land (v : LVar) : Nat := bitsOf v.binding.toNat 3 0

/-- Control block and member of a KIND 6 variable. -/
def LVar.member (v : LVar) : Nat × Nat := (bitsOf v.binding.toNat 28 24, bitsOf v.binding.toNat 7 0)

/-- The first variable that fails: reason and number. `seen` are the lands and the members of the variables before. -/
def checkVars : Nat → List Nat → List (Nat × Nat) → List LVar → Option LFail
  | _, _, _, [] => none
  | i, lands, ms, v :: l =>
    if !v.bindOk || (v.kind == 5 && lands.contains v.land) then some (9, 0xFFFF, i)
    else if v.kind == 6 && ms.contains v.member then some (10, 0xFFFF, i)
    else checkVars (i + 1) (if v.kind = 5 then v.land :: lands else lands) (if v.kind = 6 then v.member :: ms else ms) l

/-- Check one block against the variables and the OUT variables of the blocks before: its reason, if it fails. -/
def checkBlock (vars : List LVar) (outs : List Nat) (b : LBlock) : Option Nat :=
  match lsig b.op with
  | none => some 5
  | some g =>
    let used := [0, 1, 2].filter (fun n => b.uses g n)
    if (g.req0 && b.absent.testBit 0) || (g.req1 && !b.const && b.absent.testBit 1) || (g.req2 && b.absent.testBit 2) then
      some 5
    else if used.any (fun n => decide (vars.length ≤ b.inVar n)) || (b.op != 0 && decide (vars.length ≤ b.out)) then some 6
    else if b.op = 0 then none
    else
      let ty := fun n => ((vars[n]?).map LVar.ty).getD 0
      let o := ty b.out
      let t0 := ty b.in0
      let slot := fun n => match n with | 0 => g.in0 | 1 => g.in1 | _ => g.in2
      if used.any (fun n => !(slot n).fits (ty (b.inVar n)) o t0) || !g.out.fits o o t0 then some 4
      else if outs.contains b.out then some 7
      else if [1, 2, 3, 4].contains (((vars[b.out]?).map LVar.kind).getD 0) then some 8
      else none

/-- The first block that fails. -/
def checkBlocks (vars : List LVar) : Nat → List Nat → List LBlock → Option LFail
  | _, _, [] => none
  | j, outs, b :: l =>
    match checkBlock vars outs b with
    | some r => some (r, j, j)
    | none => checkBlocks vars (j + 1) (if b.op = 0 then outs else b.out :: outs) l

/-- The members of each control block are numbered 0 upward without a hole (reason 10): the first control block that
fails. -/
def checkMembers (vars : List LVar) : Option LFail :=
  let ms := (vars.filter (fun v => v.kind == 6)).map LVar.member
  ((List.range 32).find? (fun cb =>
    let l := (ms.filter (fun m => m.1 == cb)).map Prod.snd
    l.any (fun m => decide (l.length ≤ m)))).map (fun cb => (10, 0xFFFF, cb))

/-- Check and read an image (R329): the first failure, or the image. -/
def parseImage (bytes : List Byte) : Except LFail Image :=
  let n := bytes.length
  let ws := leWords (n / 4) bytes
  let at_ := fun k => (ws.getD k 0).toNat
  let blocks := at_ 2
  let vars := at_ 3
  let period := at_ 4
  if n < 32 then .error (1, 0xFFFF, 0)
  else if at_ 0 ≠ 0x474C4331 ∨ bitsOf (at_ 1) 31 16 ≠ 1 ∨ blocks < 1 ∨ 8192 < blocks ∨ vars < 1 ∨ 65536 < vars ∨
      period < 500 ∨ 1000000 < period ∨ period % 100 ≠ 0 then
    .error (1, 0xFFFF, 0)
  else if at_ 6 ≠ n ∨ n ≠ 36 + 12 * vars + 16 * blocks then .error (2, 0xFFFF, 0)
  else if crc32c (bytes.take (n - 4)) ≠ ws.getD (n / 4 - 1) 0 then .error (3, 0xFFFF, 0)
  else
    let vl := lvars vars (ws.drop 8)
    let bl := lblocks blocks (ws.drop (8 + 3 * vars))
    match checkVars 0 [] [] vl with
    | some f => .error f
    | none =>
      match checkBlocks vl 0 [] bl with
      | some f => .error f
      | none =>
        match checkMembers vl with
        | some f => .error f
        | none => .ok { periodUs := period, id := ws.getD 5 0, vars := vl, blocks := bl }

/-- LENGTH of an image (R328). -/
def Image.bytes (im : Image) : Nat := 36 + 12 * im.vars.length + 16 * im.blocks.length

/-! ### What a block computes (R330 to R332) -/

/-- A BOOL as its word. -/
def boolWord (b : Bool) : Word := if b then 1 else 0

/-- The INT32 or TIME value of a word. -/
def numOf (ty : Nat) (w : Word) : Int := if ty = 1 then w.toInt else w.toNat

/-- The exact value of a word of a numeric type. -/
def exactOf (ty : Nat) (w : Word) : FVal := if ty = 2 then f32Val w else FVal.ofRat (numOf ty w)

/-- A result of INT32 arithmetic wraps; one of TIME outside U32 is not stated by the spec (log 21). -/
def numWord (ty op : Nat) (a b : Word) (r : Int) : Word :=
  if ty = 3 ∧ (r < 0 ∨ 2 ^ 32 ≤ r) then Config.timeOverflow op a b else BitVec.ofInt 32 r

/-- Quotient rounded toward zero. -/
def divZero (a b : Int) : Int := a.tdiv b

/-- The smaller of two binary32, NaN where either is (R14). -/
def f32Min (a b : Word) : Word :=
  if f32IsNan a || f32IsNan b then f32Nan else if f32Lt a b then a else if f32Lt b a then b else a ||| b

/-- The larger of two binary32. -/
def f32Max (a b : Word) : Word :=
  if f32IsNan a || f32IsNan b then f32Nan else if f32Lt b a then a else if f32Lt a b then b else a &&& b

/-- ADD, SUB, MUL, DIV of two values of one type; the second component: SRC_INVALID is produced (R330). -/
def arith (op ty : Nat) (a b : Word) : Word × Bool :=
  if ty = 2 then
    let r := match op with
      | 0x20 => f32Add a b
      | 0x21 => f32Sub a b
      | 0x22 => f32Mul a b
      | _ => f32Div a b
    (r, f32IsNan r)
  else
    let x := numOf ty a
    let y := numOf ty b
    match op with
    | 0x20 => (numWord ty op a b (x + y), false)
    | 0x21 => (numWord ty op a b (x - y), false)
    | 0x22 => (numWord ty op a b (x * y), false)
    | _ => if y = 0 then (0, true) else (BitVec.ofInt 32 (divZero x y), false)

/-- The smaller or larger of two values of one type. -/
def pick2 (larger : Bool) (ty : Nat) (a b : Word) : Word :=
  if ty = 2 then (if larger then f32Max a b else f32Min a b)
  else if larger then (if numOf ty a < numOf ty b then b else a) else (if numOf ty b < numOf ty a then b else a)

/-- IN0 clamped to [IN1, IN2]; an empty interval has no stated result (log 21). -/
def limit (ty : Nat) (x lo hi : Word) : Word :=
  if ty = 2 then
    (if f32IsNan x || f32IsNan lo || f32IsNan hi then f32Nan
     else if f32Lt hi lo then Config.limitEmpty ty x lo hi
     else if f32Lt x lo then lo else if f32Lt hi x then hi else x)
  else if numOf ty hi < numOf ty lo then Config.limitEmpty ty x lo hi
  else if numOf ty x < numOf ty lo then lo else if numOf ty hi < numOf ty x then hi else x

/-- Comparison blocks 0x10 to 0x15: NaN makes every one FALSE except NE. -/
def compareBlock (op ty : Nat) (a b : Word) : Bool :=
  let x := if ty = 0 then FVal.ofRat (a.toNat : Rat) else exactOf ty a
  let y := if ty = 0 then FVal.ofRat (b.toNat : Rat) else exactOf ty b
  match op with
  | 0x10 => x.eq y
  | 0x11 => !x.eq y
  | 0x12 => y.lt x
  | 0x13 => y.le x
  | 0x14 => x.lt y
  | _ => x.le y

/-- IN1 moved by PARAM, for the hysteresis blocks: binary32 for REAL32, exact otherwise. -/
def hystEdge (ty : Nat) (up : Bool) (b param : Word) : FVal :=
  if ty = 2 then f32Val (if up then f32Add b param else f32Sub b param)
  else if up then (exactOf ty b).add (f32Val param) else (exactOf ty b).sub (f32Val param)

/-- HI_HYST and LO_HYST from the latch `own`. -/
def hystBlock (op ty : Nat) (a b param : Word) (own : Bool) : Bool :=
  let x := exactOf ty a
  let y := exactOf ty b
  if op = 0x16 then (if y.le x then true else if x.lt (hystEdge ty false b param) then false else own)
  else (if x.le y then true else if (hystEdge ty true b param).lt x then false else own)

/-- REAL32 to INT32, rounded to nearest even, saturating; NaN gives 0 with SRC_INVALID. -/
def r2i (a : Word) : Word × Bool :=
  match f32Val a with
  | .nan => (0, true)
  | .inf neg => (if neg then 0x80000000 else 0x7FFFFFFF, false)
  | .fin neg q =>
    let r := ratRne (if neg then -q else q)
    (BitVec.ofInt 32 (max (-2147483648) (min 2147483647 r)), false)

/-- VALID (R330): PRESENT, not NaN, neither POISON nor SRC_INVALID. -/
def lvalid (ty : Nat) (x : LVal) : Bool :=
  qHas x.q qPresent && !(ty == 2 && f32IsNan x.v) && !qHas x.q qPoison && !qHas x.q qInvalid

/-- Output quality from the used inputs (R332). -/
def lquality (l : List LVal) : Half :=
  let flags := l.foldl (fun a x => a ||| (x.q &&& 0x03FC)) (0 : Half)
  let kind := ((l.find? (fun x => qHas x.q qSubst)).map (fun x => x.q &&& 0x0C00)).getD 0
  let tq := (l.map (fun x => qTq x.q)).foldl max 0
  let present : Half := if l.all (fun x => qHas x.q qPresent) then 1 else 0
  present ||| flags ||| kind ||| BitVec.ofNat 16 (tq * 4096)

/-- TON, TOF, TP (R331): block state and output from IN0, PT in µs and Δt. -/
def timerBlock (op : Nat) (x : Bool) (pt dt : Nat) (st : BlkSt) : BlkSt × Bool :=
  let grow := min pt (st.et + dt)
  match op with
  | 0x40 =>
    let et := if x then (if st.prev then grow else 0) else 0
    ({ st with et := et, prev := x }, x && decide (pt ≤ et))
  | 0x41 =>
    if x then ({ st with et := 0, prev := x, run := true }, true)
    else if st.run then
      let et := if st.prev then 0 else grow
      ({ st with et := et, prev := x, run := decide (et < pt) }, decide (et < pt))
    else ({ st with prev := x }, false)
  | _ =>
    let st' := if !st.run && x && !st.prev then { st with run := true, et := 0 }
      else if st.run then { st with et := grow } else st
    let run := st'.run && !decide (pt ≤ st'.et)
    ({ st' with run := run, prev := x }, run)

/-- RATE_LIMIT (R330): the exact result rounded once (log 22). -/
def rateLimit (x own param : Word) (dt : Nat) : Word :=
  let o := f32Val own
  let v := f32Val x
  if v.eq o then x else
  let lim := (f32Val param).mul (FVal.ofRat ((dt : Rat) / 1000000))
  let d := v.sub o
  if lim.lt d then f32Of (o.add lim) else if d.lt lim.neg then f32Of (o.sub lim)
  else if d = .nan then f32Nan else x

/-- LAG1 (R330): the exact result rounded once (log 22). -/
def lag1 (x own param : Word) (dt : Nat) : Word :=
  let o := f32Val own
  let t := FVal.ofRat (dt : Rat)
  f32Of (o.add ((((f32Val x).sub o).mul t).div (((f32Val param).mul (FVal.ofRat 1000000)).add t)))

/-- What running a block gives: its value, quality, whether SRC_INVALID was produced, its state. -/
structure BlkOut where
  v   : Word
  q   : Half
  bad : Bool
  st  : BlkSt
  deriving DecidableEq, Repr

/-- A block's state at LGC_START (R330). -/
def blkInit : BlkSt := { et := 0, run := false, prev := false, own := 0, init := false }

/-- Run one block: `ty` the type of IN0, `o` that of OUT; `a`, `b`, `c` its inputs, inverted where marked; `dt` is Δt in µs;
`acked` what STATION_WRITE gives (R340). The result is before INV_OUT. -/
def runBlock (op ty o : Nat) (a b c : Option LVal) (param : Word) (st : BlkSt) (dt : Nat) (acked : Bool) : BlkOut :=
  let used := a.toList ++ b.toList ++ c.toList
  let q := lquality used
  let x := (a.map LVal.v).getD 0
  let y := (b.map LVal.v).getD 0
  let z := (c.map LVal.v).getD 0
  let q0 := qClear ((a.map LVal.q).getD 0) qLate
  let give := fun (v : Word) => ({ v := v, q := q, bad := false, st := st } : BlkOut)
  let num := fun (r : Word × Bool) => ({ v := r.1, q := q, bad := r.2, st := st } : BlkOut)
  let real := fun (v : Word) => ({ v := v, q := q, bad := f32IsNan v, st := st } : BlkOut)
  let tr := fun (w : Word) => w != 0
  match op with
  | 0x01 => give (boolWord (tr x && (b.map (fun i => tr i.v)).getD true && (c.map (fun i => tr i.v)).getD true))
  | 0x02 => give (boolWord (tr x || (b.map (fun i => tr i.v)).getD false || (c.map (fun i => tr i.v)).getD false))
  | 0x03 => give (boolWord (tr x != tr y))
  | 0x04 => give x
  | 0x05 =>
    let r := tr x || (tr st.own && !tr y)
    { v := boolWord r, q := q, bad := false, st := { st with own := boolWord r } }
  | 0x06 =>
    let r := !tr y && (tr x || tr st.own)
    { v := boolWord r, q := q, bad := false, st := { st with own := boolWord r } }
  | 0x07 => { v := boolWord (tr x && !st.prev), q := q0, bad := false, st := { st with prev := tr x } }
  | 0x08 => { v := boolWord (!tr x && st.prev), q := q0, bad := false, st := { st with prev := tr x } }
  | 0x10 | 0x11 | 0x12 | 0x13 | 0x14 | 0x15 => give (boolWord (compareBlock op ty x y))
  | 0x16 | 0x17 =>
    let r := hystBlock op ty x y param (tr st.own)
    { v := boolWord r, q := q, bad := false, st := { st with own := boolWord r } }
  | 0x18 => give (boolWord ((a.map (lvalid ty)).getD false))
  | 0x20 | 0x21 | 0x22 | 0x23 => num (arith op o x y)
  | 0x24 =>
    if o = 2 then real (f32Abs x) else give (numWord o op x 0 (if numOf o x < 0 then - numOf o x else numOf o x))
  | 0x25 | 0x26 =>
    let r := (b.toList ++ c.toList).foldl (fun r i => pick2 (op == 0x26) o r i.v) x
    if o = 2 then real r else give r
  | 0x27 => if o = 2 then real (limit o x y z) else give (limit o x y z)
  | 0x28 => real (f32Add (f32Mul x y) z)
  | 0x29 => real (f32Sqrt x)
  | 0x2A => give (f32OfInt x.toInt)
  | 0x2B => num (r2i x)
  | 0x2C => give (boolWord (tr x))
  | 0x30 =>
    let s := (if tr x then c else b).getD ⟨0, 0⟩
    { v := s.v, q := qClear s.q qLate, bad := false, st := st }
  | 0x31 =>
    let s := ((used.find? (lvalid o)).orElse (fun _ => c)).getD ⟨0, 0⟩
    { v := s.v, q := qClear s.q qLate, bad := false, st := st }
  | 0x40 | 0x41 | 0x42 =>
    let r := timerBlock op (tr x) (match b with | some i => i.v.toNat | none => param.toNat) dt st
    { v := boolWord r.2, q := q0, bad := false, st := r.1 }
  | 0x48 =>
    let cv := if tr y then 0 else if tr x && !st.prev then min 2147483647 (st.own.toInt + 1) else st.own.toInt
    { v := BitVec.ofInt 32 cv, q := q0, bad := false, st := { st with own := BitVec.ofInt 32 cv, prev := tr x } }
  | 0x49 =>
    let cv := if tr y then param.toInt
      else if tr x && !st.prev then max (-2147483648) (st.own.toInt - 1) else st.own.toInt
    { v := BitVec.ofInt 32 cv, q := q0, bad := false, st := { st with own := BitVec.ofInt 32 cv, prev := tr x } }
  | 0x50 =>
    let r := if st.init then rateLimit x st.own param dt else x
    { v := r, q := q, bad := f32IsNan r, st := { st with own := r, init := true } }
  | 0x51 =>
    let r := if st.init then lag1 x st.own param dt else x
    { v := r, q := q, bad := f32IsNan r, st := { st with own := r, init := true } }
  | 0x60 => { v := boolWord (tr x), q := q, bad := false, st := { st with prev := tr x } }
  | _ => give (boolWord acked)

end Sys2Proof.Machine
end

