-- ==== Sys2Proof/Machine/Conflict.lean ====
section
/-! DEFINITION. The conflict check (17): every conflict of R403 in a candidate configuration, as records (R402). The
candidate is a state `t` whose configuration in force is the one that would be; `s` is the state as it stands. -/

namespace Sys2Proof.Machine

open Sys2Proof

/-! ### Records (R402) -/

/-- An item of a record: instance and ID. -/
def item (id inst : Nat) : Word := BitVec.ofNat 32 (inst * 65536 + id)

/-- A record. -/
def conf (code res id inst : Nat) (item2 : Word) (det : Nat) : Conflict :=
  { resource := res, code := code, id1 := id, inst1 := inst, item2 := item2, detail := BitVec.ofNat 32 det }

/-- EXCEEDS. -/
abbrev cExceeds : Nat := 1
/-- EXCLUSIVE. -/
abbrev cExclusive : Nat := 2
/-- NOT_ALLOWED. -/
abbrev cNotAllowed : Nat := 3
/-- MISSING. -/
abbrev cMissing : Nat := 4
/-- WRONG_KIND. -/
abbrev cWrongKind : Nat := 5
/-- HELD. -/
abbrev cHeld : Nat := 6

/-- Every pair of a list, in order. -/
def pairsOf {α : Type} : List α → List (α × α)
  | [] => []
  | x :: l => l.map (fun y => (x, y)) ++ pairsOf l

/-- The user at which a running total first passes its limit, from users with their needs. -/
def firstOver {α : Type} (limit : Nat) : Nat → List (α × Nat) → Option α
  | _, [] => none
  | acc, (x, n) :: l => if limit < acc + n then some x else firstOver limit (acc + n) l

/-- A total above its limit: EXCEEDS, named by the user at which it passes the limit. -/
def exceeds1 (res limit scale : Nat) (users : List ((Nat × Nat) × Nat)) : List Conflict :=
  let total := (users.map Prod.snd).sum
  if limit < total then
    ((firstOver limit 0 users).toList).map (fun u => conf cExceeds res u.1 u.2 0 ((total + scale - 1) / scale))
  else []

/-- Records in order (R402): ascending resource, ID and instance of the first item; at most 4,096. -/
def sortConflicts (l : List Conflict) : List Conflict :=
  let le := fun (a b : Conflict) =>
    decide (a.resource < b.resource ∨ (a.resource = b.resource ∧
      (a.id1 < b.id1 ∨ (a.id1 = b.id1 ∧ a.inst1 ≤ b.inst1))))
  let l := l.mergeSort le
  if 4096 < l.length then l.take 4095 ++ [conf 0xFF 0 0 0 0 0] else l

/-! ### Ports (R84, R102, R105, R121) -/

/-- Ports of a mask. -/
def maskPorts (m : Nat) : List Nat := (List.range 32).filter (fun n => m.testBit n)

/-- PORT, MDIO, PTP_PORTS, DOWNSHIFT. -/
def State.portConflicts (t : State) : List Conflict :=
  let ports := List.range 32
  let mode := fun n => t.parN Par.PRT.MODE n
  let rx := t.parN Par.TIM.PTP_RX_PORTS 0
  let bc := t.parN Par.TIM.PTP_BC_PORTS 0
  let modes := (ports.filter (fun n => (mode n == 1 && decide (28 ≤ n)) || (mode n == 3 && decide (n < 28)))).map
    (fun n => conf cNotAllowed 0x0001 Par.PRT.MODE n 0 (mode n))
  let phys := (pairsOf (ports.filter (fun n => t.parN Par.PRT.MDIO_CLAUSE n != 2))).filter (fun p =>
    p.1 / 4 == p.2 / 4 && t.parN Par.PRT.PHY_ADDR p.1 == t.parN Par.PRT.PHY_ADDR p.2)
  let mdio := phys.map (fun p => conf cExclusive 0x0002 Par.PRT.PHY_ADDR p.1 (item Par.PRT.PHY_ADDR p.2) (p.1 / 4))
  let many := exceeds1 0x0003 4 1 ((maskPorts rx).map (fun _ => ((Par.TIM.PTP_RX_PORTS, 0), 1)))
  let both := (maskPorts (rx &&& bc)).map
    (fun n => conf cExclusive 0x0003 Par.TIM.PTP_RX_PORTS 0 (item Par.TIM.PTP_BC_PORTS 0) n)
  let maskId := fun n => if rx.testBit n then Par.TIM.PTP_RX_PORTS else Par.TIM.PTP_BC_PORTS
  let tsu := ((maskPorts (rx ||| bc)).filter (fun n => decide (n < 28) && t.parN Par.PRT.TSU_ENABLE n == 0)).map
    (fun n => conf cNotAllowed 0x0003 (maskId n) 0 (item Par.PRT.TSU_ENABLE n) n)
  let shifting := ports.filter (fun n => t.parN Par.PRT.DOWNSHIFT_PCT n != 0)
  let shiftPtp := (shifting.filter (fun n => (rx ||| bc).testBit n)).map
    (fun n => conf cExclusive 0x0004 (maskId n) 0 (item Par.PRT.DOWNSHIFT_PCT n) n)
  let shiftMode := (shifting.filter (fun n => mode n != 1)).map
    (fun n => conf cNotAllowed 0x0004 Par.PRT.DOWNSHIFT_PCT n (item Par.PRT.MODE n) (t.parN Par.PRT.DOWNSHIFT_PCT n))
  modes ++ mdio ++ many ++ both ++ tsu ++ shiftPtp ++ shiftMode

/-! ### Sources (R124, R142, R406) -/

/-- The definitions of a configuration. -/
def State.defs (t : State) : List (Nat × SrcDef) := t.ctl.cfg.sources.map (fun p => (p.1, srcDefOf p.2))

/-- TCP: sources with C37_TCP, then TYPE 2 destinations of enabled pods (R406). -/
def State.tcpUsers (t : State) : List (Nat × Nat) :=
  ((t.defs.filter (fun p => p.2.kind == 1 && p.2.c37Tcp)).map (fun p => (Par.ING.SRC_STATE, p.1))) ++
  ((List.range 256).filter (fun i => wordBits (t.par Par.ALN.DEST i) 0 31 24 == 2 && t.podOn (i / 4))).map
    (fun i => (Par.ALN.DEST, i))

/-- The catalogue indices a source maps. -/
def indicesOf (sources : AMap (List Word)) (src : Nat) : List Nat :=
  match sources.get? src with
  | some ws => (srcPos src (srcDefOf ws)).map Pos.index
  | none => []

/-- The hold of a source's indices after it gives them up (R142), from the configuration in force. -/
def State.indexHold (s : State) (src : Nat) : Nat :=
  let pods := (List.range 64).filter (fun p => s.podOn p && memberBit (s.par Par.ALN.MEMBERS p) src)
  (pods.map (fun p => s.parN Par.ALN.WAIT_NS p + 1000000 * s.parN Par.ALN.REV_HORIZON_MS p)).foldl max 0

/-- The instant at which an index is free for source `src`, if it is not: because this commit takes it from the source that owns
it, or because an earlier release still holds it (R142). -/
def State.indexFree (s t : State) (src index : Nat) : Option Nat :=
  match s.catalogue index with
  | some p =>
    if p.src = src ∨ (indicesOf t.ctl.cfg.sources p.src).contains index then none
    else
      let h := s.indexHold p.src
      if h = 0 then none else some (s.now + 1000000 * s.parN Par.CTL.COMMIT_LEAD_MS 0 + h)
  | none =>
    match s.ing.held.get? index with
    | some f => if s.now < f then some f else none
    | none => none

/-- Whole seconds of an instant, rounded up. -/
def secondsUp (t : Nat) : Nat := (t + sec - 1) / sec

/-- TCP, CATALOGUE, SOURCE_COUNT, SOURCE_KEY. -/
def State.sourceConflicts (s t : State) : List Conflict :=
  let st := Par.ING.SRC_STATE
  let ds := t.defs
  let tcp := exceeds1 0x0005 64 1 (t.tcpUsers.map (fun u => (u, 1)))
  let owners := (catalogueOf t.ctl.cfg.sources).map (fun p => (p.index, p.src))
  let twice := ((pairsOf owners).filter (fun p => p.1.1 == p.2.1)).map
    (fun p => conf cExclusive 0x0010 st (min p.1.2 p.2.2) (item st (max p.1.2 p.2.2)) p.1.1)
  let held := owners.filterMap (fun p => (s.indexFree t p.2 p.1).map (fun f => conf cHeld 0x0010 st p.2 0 (secondsUp f)))
  let count := fun kind limit => exceeds1 0x0011 limit 1 ((ds.filter (fun d => d.2.kind == kind)).map (fun d => ((st, d.1), 1)))
  let keys := ((pairsOf (ds.filter (fun d => decide (1 ≤ d.2.kind) && decide (d.2.kind ≤ 4)))).filter
    (fun p => p.1.2.kind == p.2.2.kind && p.1.2.key == p.2.2.key)).map
    (fun p => conf cExclusive 0x0012 st p.1.1 (item st p.2.1) p.1.1)
  tcp ++ twice ++ held ++ count 2 64 ++ count 4 256 ++ keys

/-! ### Pods (R152, R165, R167, R171, R173, R178, R179) -/

/-- What a definition needs of the alignment store, in entries × 10^9, of the deep-wait spill in entries/s, and of the
revision store in entries × 10^9. -/
def PodDef.needs (d : PodDef) : Nat × Nat × Nat :=
  let e := d.positions.length * d.rate
  (if d.deep then 0 else e * d.waitNs, if d.deep then e else 0, e * (d.horizonNs + d.holdNs))

/-- A definition without the commit that made it. -/
def PodDef.plain (d : PodDef) : PodDef := { d with commit := 0, boundary := 0 }

/-- ALN.WAIT_NS plus ALN.REV_HORIZON_MS plus ALN.READ_HOLD_MS of a definition (R173). -/
def PodDef.drainNs (d : PodDef) : Nat := d.waitNs + d.horizonNs + d.holdNs

/-- Enabled pods whose definition the candidate changes or ends. -/
def State.changedPods (s t : State) : List Nat :=
  (List.range 64).filter (fun p => s.podOn p && !(t.podOn p && (s.podDef p).plain == (t.podDef p).plain))

/-- How long the old definitions of the pods a commit changes stay counted after its boundary: the largest of them (R173). -/
def State.drainSpan (s : State) (pods : List Nat) : Nat := (pods.map (fun p => (s.podDef p).drainNs)).foldl max 0

/-- The old definitions still draining, and those this commit would leave to drain: needs and the instant each is free. -/
def State.drainers (s t : State) : List ((Nat × Nat × Nat) × Nat) :=
  let pods := s.changedPods t
  let stop := s.now + 1000000 * s.parN Par.CTL.COMMIT_LEAD_MS 0 + s.drainSpan pods
  ((s.aln.draining.filter (fun d => decide (s.now < d.2.2.2))).map (fun d => ((d.1, d.2.1, d.2.2.1), d.2.2.2))) ++
    pods.map (fun p => ((s.podDef p).needs, stop))

/-- The instant at which enough draining space, in order of time, is free for `need` more. -/
def freeWhen (limit need : Nat) : Nat → List (Nat × Nat) → Nat → Nat
  | _, [], last => last
  | held, (n, f) :: l, last => if need + held ≤ limit then last else freeWhen limit need (held - n) l f

/-- A store shared by pods: EXCEEDS, or HELD where only draining definitions stand in the way. -/
def storeConflict (res limit scale : Nat) (pods : List (Nat × Nat)) (drain : List (Nat × Nat)) : List Conflict :=
  let total := (pods.map Prod.snd).sum
  let held := (drain.map Prod.fst).sum
  if total = 0 ∨ total + held ≤ limit then []
  else
    match firstOver limit held pods with
    | none => []
    | some p =>
      if limit < total then [conf cExceeds res Par.ALN.POD_ENABLE p 0 ((total + scale - 1) / scale)]
      else [conf cHeld res Par.ALN.POD_ENABLE p 0
        (secondsUp (freeWhen limit total held (drain.mergeSort (fun a b => decide (a.2 ≤ b.2))) 0))]

/-- ALIGN_STORE, DEEP_WAIT, REVISION_STORE. -/
def State.storeConflicts (s t : State) : List Conflict :=
  let pods := ((List.range 64).filter t.podOn).map (fun p => (p, (t.podDef p).needs))
  let drain := s.drainers t
  storeConflict 0x0020 (5242880 * sec) sec (pods.map (fun p => (p.1, p.2.1))) (drain.map (fun d => (d.1.1, d.2))) ++
  storeConflict 0x0021 8000000 1 (pods.map (fun p => (p.1, p.2.2.1))) (drain.map (fun d => (d.1.2.1, d.2))) ++
  storeConflict 0x0022 (100663296 * sec) sec (pods.map (fun p => (p.1, p.2.2.2))) (drain.map (fun d => (d.1.2.2, d.2)))

/-- Bytes of a C37.118.2 data frame of a pod: header, blocks of STAT, phasors, FREQ, DFREQ, analogues and digitals, CHK. -/
def PodDef.c37Bytes (d : PodDef) : Nat :=
  16 + (d.members.map (fun m => match m.layout with
    | some (p, a, g) => 10 + 8 * p + 4 * a + 2 * g
    | none => 10)).sum

/-- POD: the definition of one enabled pod. -/
def State.podConflicts (t : State) (p : Nat) : List Conflict :=
  let d := t.podDef p
  let st := Par.ING.SRC_STATE
  let timed := d.members.filter (fun m => m.kind != 4)
  let rates := (timed.filter (fun m => m.rate % max d.rate 1 != 0)).map
    (fun m => conf cNotAllowed 0x0023 Par.ALN.MEMBERS p (item st m.src) m.rate)
  let fastest := (timed.map Member.rate).foldl max d.rate
  let tol := t.parN Par.ALN.GRID_TOL_US p
  let grid := if 1000000 ≤ 2 * tol * fastest then [conf cNotAllowed 0x0023 Par.ALN.GRID_TOL_US p (item Par.ALN.SLOT_RATE p) tol]
    else []
  let dests := ((List.range 4).zip d.dests).map (fun x => (4 * p + x.1, wordBits x.2 0 31 24, wordBits x.2 0 23 16))
  let udp := (dests.filter (fun x => x.2.1 == 1)).map (fun x => t.parN Par.PRT.MAX_FRAME x.2.2 - 22 - 28)
  let c37 := if d.format = 1 then
      ((d.members.filter (fun m => m.kind == 4 || m.layout.isNone)).map
        (fun m => conf cNotAllowed 0x0023 Par.ALN.FORMAT p (item st m.src) 1)) ++
      (if udp.foldl min 65535 < d.c37Bytes then [conf cNotAllowed 0x0023 Par.ALN.FORMAT p 0 1] else [])
    else []
  let oaf2 := (dests.filter (fun x => x.2.1 == 2 && d.format == 0)).map
    (fun x => conf cNotAllowed 0x0023 Par.ALN.DEST x.1 (item Par.ALN.FORMAT p) 2)
  let dead := (dests.filter (fun x => (x.2.1 == 1 || x.2.1 == 2) && t.parN Par.PRT.MODE x.2.2 == 0)).map
    (fun x => conf cMissing 0x0023 Par.ALN.DEST x.1 (item Par.PRT.MODE x.2.2) x.2.2)
  rates ++ grid ++ c37 ++ oaf2 ++ dead

/-! ### Positions -/

/-- What is wrong with a position of a pod that should be of a kind (0 F32, 2 STATUS32): MISSING not below E, WRONG_KIND. -/
def State.posFault (t : State) (pod pos kind : Nat) : Option Nat :=
  match (t.podDef pod).positions[pos]? with
  | none => some cMissing
  | some x => if x.kind = kind then none else some cWrongKind

/-- The record of a faulty position. -/
def State.posConf (t : State) (res id inst pod pos kind : Nat) : List Conflict :=
  match t.posFault pod pos kind with
  | none => []
  | some c => [conf c res id inst (if c = cMissing then item Par.ALN.POD_POSITIONS pod else 0) pos]

/-! ### The logic image (R342, R401) -/

/-- The image's variables, numbered, where its bindings count: while the engine runs or LGC.AUTOSTART is 1. -/
def State.boundVars (t : State) (starting : Bool) : List (Nat × LVar) :=
  match t.lgc.image with
  | none => []
  | some im =>
    if starting || t.lgc.st == 2 || t.parB Par.LGC.AUTOSTART 0 then (List.range im.vars.length).zip im.vars else []

/-- A source is of kind 3 with a control port (R147, R340). -/
def SrcDef.controls (d : SrcDef) : Bool := d.kind == 3 && wordBits d.ident 5 31 16 != 0

/-- The STATION_WRITE blocks of an image: OUT variable, source, point. -/
def Image.writes (im : Image) : List (Nat × Nat × Nat) :=
  (im.blocks.filter (fun b => b.op == 0x61)).map (fun b => (b.out, bitsOf b.param.toNat 28 16, bitsOf b.param.toNat 6 0))

/-- LOGIC: bindings that do not fit. -/
def State.logicConflicts (t : State) (starting : Bool) : List Conflict :=
  let vars := t.boundVars starting
  let id := Par.LGC.IMAGE_ID
  let aligned := (vars.filter (fun v => v.2.kind == 1)).flatMap (fun v =>
    let w := v.2.binding.toNat
    let pod := bitsOf w 23 18
    if !t.podOn pod then [conf cMissing 0x0080 id v.1 (item Par.ALN.POD_ENABLE pod) pod]
    else t.posConf 0x0080 id v.1 pod (bitsOf w 17 0) (if v.2.ty = 2 then 0 else 2))
  let stations := if vars.isEmpty then [] else ((t.lgc.image.map Image.writes).getD []).flatMap (fun b =>
    match t.srcDef b.2.1 with
    | none => [conf cMissing 0x0080 id b.1 (item Par.ING.SRC_STATE b.2.1) b.2.1]
    | some d => if d.controls then [] else [conf cWrongKind 0x0080 id b.1 (item Par.ING.SRC_STATE b.2.1) b.2.1])
  aligned ++ stations

/-! ### Lands (R161, R338, R404, R405) -/

/-- The uses of DIN lands: land, use 0 STATUS, 1 PULSE, 2 TRIGGER, ID and instance. -/
def State.dinUsers (t : State) (starting : Bool) : List (Nat × Nat × Nat × Nat) :=
  ((t.branches.filter (fun b => b.2.kind == 3)).map (fun b => (bitsOf b.2.where_ 2 0, 0, Par.ARM.BRANCH, b.1))) ++
  (((t.parList Par.CUS.POINT).filter (fun p => (p.2.getD 0 0).getLsbD 31 && wordBits p.2 0 27 26 == 3 &&
      (t.par Par.CUS.INPUTS p.1).getD 0 0 != 0xFF)).map
    (fun p => (wordBits (t.par Par.CUS.INPUTS p.1) 0 2 0, 1, Par.CUS.POINT, p.1))) ++
  (((t.boundVars starting).filter (fun v => v.2.kind == 2)).map
    (fun v => (bitsOf v.2.binding.toNat 2 0, 0, Par.LGC.IMAGE_ID, v.1))) ++
  (List.range 8).flatMap (fun n => if t.capKind n = 0 then [] else
    (((List.range 16).map (fun k => (t.par Par.CAP.TRIG n).getD (4 * k) 0)).filter
      (fun w => w.getLsbD 31 && bitsOf w.toNat 30 28 == 1)).map (fun w => (bitsOf w.toNat 2 0, 2, Par.CAP.TRIG, n)))

/-- DIN: a land with two uses, or with two PULSE points. -/
def State.dinConflicts (t : State) (starting : Bool) : List Conflict :=
  ((pairsOf (t.dinUsers starting)).filter (fun p => p.1.1 == p.2.1 && (p.1.2.1 != p.2.2.1 || p.1.2.1 == 1))).map
    (fun p => conf cExclusive 0x0030 p.1.2.2.1 p.1.2.2.2 (item p.2.2.2.1 p.2.2.2.2) p.1.1)

/-- Detectors that run. -/
def State.fdsOn (t : State) : List Nat := ((t.parList Par.MOD.FD_ENABLE).filter (fun p => p.2 == [1])).map Prod.fst

/-- ALM and PPS_OUT. -/
def State.almConflicts (t : State) (starting : Bool) : List Conflict :=
  let lands := ((t.boundVars starting).filter (fun v => v.2.kind == 5)).map (fun v => (v.2.land, v.1))
  let alm := t.fdsOn.flatMap (fun d =>
    let a := t.parN Par.MOD.FD_ALM d
    if a = 0 then [] else
      (if t.parB Par.ALN.DEEP_WAIT (t.fdPod d) then
        [conf cNotAllowed 0x0031 Par.MOD.FD_ALM d (item Par.ALN.DEEP_WAIT (t.fdPod d)) a] else []) ++
      ((lands.filter (fun l => l.1 + 1 == a)).map
        (fun l => conf cExclusive 0x0031 Par.MOD.FD_ALM d (item Par.LGC.IMAGE_ID l.2) l.1)))
  let out := t.parN Par.CAP.TRIG_OUT 0
  alm ++ (if out ≠ 0 ∧ t.parN Par.TIM.PPS_OUT_MODE 0 ≠ 2 then
    [conf cNotAllowed 0x0032 Par.CAP.TRIG_OUT 0 (item Par.TIM.PPS_OUT_MODE 0) out] else [])

/-! ### Timers (R407) -/

/-- The distinct values of one kind, ascending, each with the lowest instance that holds it. -/
def distinctUsers (id : Nat) (l : List (Nat × Nat)) : List (Nat × Nat) :=
  let vs := ((l.map Prod.snd).filter (fun v => v != 0)).dedup.mergeSort (fun a b => decide (a ≤ b))
  vs.map (fun v => (id, ((l.filter (fun p => p.2 == v)).map Prod.fst).foldl min 65535))

/-- The users of schedule timers, in the order of R407. -/
def State.timerUsers (t : State) (starting : Bool) : List (Nat × Nat) :=
  (if t.lgc.image.isSome && (starting || t.lgc.st == 2 || t.parB Par.LGC.AUTOSTART 0) then [(Par.LGC.IMAGE_ID, 0)] else []) ++
  distinctUsers Par.CAP.AUTO_TIMEOUT_MS (((List.range 8).filter (fun n => t.capKind n != 0)).map
    (fun n => (n, t.parN Par.CAP.AUTO_TIMEOUT_MS n))) ++
  distinctUsers Par.CUS.PROFILE_MIN (((t.parList Par.CUS.POINT).filter (fun p => (p.2.getD 0 0).getLsbD 31)).map
    (fun p => (p.1, t.parN Par.CUS.PROFILE_MIN p.1))) ++
  distinctUsers Par.ARM.BAL_REC_S (((List.range 64).filter (fun g => t.parB Par.ARM.BAL_ENABLE g)).map
    (fun g => (g, t.parN Par.ARM.BAL_REC_S g))) ++
  distinctUsers Par.ALN.OAF_LAYOUT_S (((List.range 64).filter t.podOn).map (fun p => (p, t.parN Par.ALN.OAF_LAYOUT_S p)))

/-! ### Channels (R236, R265, R272, R278, R290, R296) -/

/-- The local channels a custody point uses: point and channel, for ELEC points with LOCAL inputs. -/
def State.cusChannels (t : State) : List (Nat × Nat) :=
  ((t.parList Par.CUS.POINT).filter (fun p =>
    (p.2.getD 0 0).getLsbD 31 && wordBits p.2 0 30 28 == 1 && wordBits p.2 0 27 26 == 0)).flatMap (fun p =>
    ((((t.par Par.CUS.INPUTS p.1).take 6).map BitVec.toNat).filter (fun c => c != 0xFF)).map (fun c => (p.1, c)))

/-- The rates of phasor groups by nominal frequency (R299). -/
def pgRates (f0 : Nat) : List Nat := if f0 = 50 then [10, 25, 50, 100, 200] else [10, 12, 15, 20, 30, 60, 120, 240]

/-- CHANNEL. -/
def State.channelConflicts (t : State) : List Conflict :=
  let sel := fun c => t.parN Par.CNV.SELECT c
  let gain := ((List.range 24).filter (fun c => sel c == 1 && t.parN Par.CNV.GAIN c != 1)).map
    (fun c => conf cNotAllowed 0x0040 Par.CNV.SELECT c (item Par.CNV.GAIN c) 1)
  let point := t.cusChannels.flatMap (fun p =>
    let it := item Par.CUS.POINT p.1
    let c := p.2
    if 24 ≤ c then [conf cNotAllowed 0x0040 Par.CUS.INPUTS p.1 it c] else
      (if sel c ≠ 0 then [conf cNotAllowed 0x0040 Par.CNV.SELECT c it (sel c)] else []) ++
      (if t.parN Par.FLT.PRESET c ≠ 1 then [conf cNotAllowed 0x0040 Par.FLT.PRESET c it (t.parN Par.FLT.PRESET c)] else []) ++
      (if t.parN Par.FLT.BANK c = 1 then [conf cNotAllowed 0x0040 Par.FLT.BANK c it 1] else []) ++
      (if bitsOf (t.parN Par.CNV.OW_CFG c) 1 0 ≠ 0 then
        [conf cNotAllowed 0x0040 Par.CNV.OW_CFG c it (t.parN Par.CNV.OW_CFG c)] else []))
  let groups := (List.range 8).filter (fun g => ((t.par Par.FLT.PG g).getD 0 0).getLsbD 31)
  let group := groups.flatMap (fun g =>
    let d := t.pg g
    let it := item Par.FLT.PG g
    let cs := d.volt ++ d.amps
    (if cs.isEmpty then [conf cNotAllowed 0x0040 Par.FLT.PG g 0 ((t.par Par.FLT.PG g).getD 0 0).toNat] else []) ++
    (if (pgRates d.f0).contains d.rate then [] else [conf cNotAllowed 0x0040 Par.FLT.PG g 0 d.rate]) ++
    cs.dedup.flatMap (fun c =>
      (if t.parN Par.FLT.PRESET c ≠ 1 then [conf cNotAllowed 0x0040 Par.FLT.PRESET c it (t.parN Par.FLT.PRESET c)] else []) ++
      (if t.parN Par.FLT.BANK c = 1 then [conf cNotAllowed 0x0040 Par.FLT.BANK c it 1] else []) ++
      (if sel c ≠ 0 then [conf cNotAllowed 0x0040 Par.CNV.SELECT c it (sel c)] else [])))
  let shared := (pairsOf groups).flatMap (fun p =>
    (((t.pg p.1).channels.dedup).filter (fun c => (t.pg p.2).channels.contains c)).map
      (fun c => conf cExclusive 0x0040 Par.FLT.PG p.1 (item Par.FLT.PG p.2) c))
  let local_ := (t.defs.filter (fun p => p.2.kind == 5)).flatMap (fun p =>
    let cls := wordBits p.2.ident 0 31 28
    let set := wordBits p.2.ident 1 31 0
    let chans := maskPorts set
    let bad := if cls = 2 then chans.filter (fun c => decide (24 ≤ c))
      else if cls = 3 then chans.filter (fun c => decide (16 ≤ c)) else []
    (bad.map (fun c => conf cNotAllowed 0x0040 Par.ING.SRC_STATE p.1 0 c)) ++
    (if cls = 2 ∧ wordBits p.2.ident 0 27 24 = 3 then
      ((chans.filter (fun c => decide (c < 24) && t.parN Par.CNV.AVG_N c == 0)).map
        (fun c => conf cNotAllowed 0x0040 Par.ING.SRC_STATE p.1 (item Par.CNV.AVG_N c) c)) else []))
  gain ++ point ++ group ++ shared ++ local_

/-- Every sequencer entry holds its reset value. -/
def State.auxAtReset (t : State) : Bool :=
  (List.range 16).all (fun k => t.par Par.CNV.AUX_SEQ k == parReset t.ident Par.CNV.AUX_SEQ k)

/-- AUX (R272, R290). The reset values of R285 make a cycle of 16 ms, which the length rule of R272 rejects; the cycle of the
reset values is admitted (log 41). -/
def State.auxConflicts (t : State) : List Conflict :=
  let used := t.auxUsed
  let len := (used.map (fun k => (t.auxEntryOf k).dwell)).sum
  let fits := len = 0 ∨ 1000 % len = 0 ∨ (len % 1000 = 0 ∧ len ≤ 16000) ∨ t.auxAtReset
  (if fits then [] else [conf cNotAllowed 0x0041 Par.CNV.AUX_SEQ (used.headD 0) 0 len]) ++
  (if 1 < used.length then
    (if t.parN Par.FLT.PRESET 24 ≠ 3 then
      [conf cNotAllowed 0x0041 Par.FLT.PRESET 24 (item Par.CNV.AUX_SEQ (used.headD 0)) (t.parN Par.FLT.PRESET 24)] else []) ++
    (if t.parN Par.FLT.BANK 24 = 1 then
      [conf cNotAllowed 0x0041 Par.FLT.BANK 24 (item Par.CNV.AUX_SEQ (used.headD 0)) 1] else [])
  else [])

/-! ### Analytics (R189, R196, R216, R229, R231) -/

/-- ANALYTICS: a fast detector. -/
def State.fdConflicts (t : State) (d : Nat) : List Conflict :=
  let pod := t.fdPod d
  let lo := t.parW Par.MOD.FD_F_LO d
  let hi := t.parW Par.MOD.FD_F_HI d
  (if !t.podOn pod then [conf cMissing 0x0050 Par.MOD.FD_INPUT d (item Par.ALN.POD_ENABLE pod) pod]
   else t.posConf 0x0050 Par.MOD.FD_INPUT d pod (t.fdPos d) 0) ++
  (if f32Lt lo hi then [] else [conf cNotAllowed 0x0050 Par.MOD.FD_F_LO d (item Par.MOD.FD_F_HI d) lo.toNat]) ++
  (if f32Rat hi > 45 / 100 * (t.parN Par.ALN.SLOT_RATE pod : Rat) then
    [conf cNotAllowed 0x0050 Par.MOD.FD_F_HI d (item Par.ALN.SLOT_RATE pod) hi.toNat] else [])

/-- A pair of MOD.MT_DEF_PAIRS fits its band and its tracker's signals (R207). -/
def pairOk (signals : List (Nat × Nat × Nat)) (pipe : Bool) (w : Nat) : Bool :=
  let role := fun k => (signals.find? (fun x => x.1 == k)).map (fun x => x.2.1)
  let r := bitsOf w 24 18
  let v := bitsOf w 10 4
  role (bitsOf w 31 25) == some (if pipe then 7 else 4) && role (bitsOf w 17 11) == some (if pipe then 6 else 1) &&
  (r == 0x7F || (!pipe && role r == some 5)) && (v == 0x7F || (!pipe && role v == some 2))

/-- ANALYTICS: a mode tracker. -/
def State.mtConflicts (t : State) (n : Nat) : List Conflict :=
  let pod := t.parN Par.MOD.MT_POD n
  let r := t.parN Par.ALN.SLOT_RATE pod
  let dec := max (t.parN Par.MOD.MT_DECIM n) 1
  let pipe := t.parN Par.MOD.MT_BAND n == 1
  let sig := t.mtSignals n
  let slow := if pipe then decide (r < 100) || decide (r < 50 * dec) else decide (r < 10 * dec)
  let win := t.parN Par.MOD.MT_WINDOW_S n
  let pairs := (t.par Par.MOD.MT_DEF_PAIRS n).map BitVec.toNat
  (if slow then [conf cNotAllowed 0x0050 Par.MOD.MT_BAND n (item Par.MOD.MT_DECIM n) (t.parN Par.MOD.MT_BAND n)] else []) ++
  (if win * r < 4 * t.parN Par.MOD.MT_ORDER n * dec then
    [conf cNotAllowed 0x0050 Par.MOD.MT_WINDOW_S n (item Par.MOD.MT_ORDER n) win] else []) ++
  (sig.flatMap (fun k => t.posConf 0x0050 Par.MOD.MT_SIGNALS n pod k.2.2 0)) ++
  (if sig.length < t.parN Par.MOD.MT_MIN_SIGNALS n then
    [conf cNotAllowed 0x0050 Par.MOD.MT_SIGNALS n (item Par.MOD.MT_MIN_SIGNALS n) sig.length] else []) ++
  ((pairs.filter (fun w => w.testBit 0 && !pairOk sig pipe w)).map
    (fun w => conf cNotAllowed 0x0050 Par.MOD.MT_DEF_PAIRS n (item Par.MOD.MT_SIGNALS n) w))

/-- ARMATURE. -/
def State.armConflicts (t : State) : List Conflict :=
  let used := ((t.parList Par.ARM.NODE).filter (fun p => (p.2.getD 0 0).getLsbD 31)).map (fun p => (p.1, nodeDefOf p.2))
  let ty := fun n => t.parN Par.ARM.NET_TYPE n
  let netOf := fun n => (used.find? (fun p => p.1 == n)).map (fun p => p.2.net)
  let nets := ((List.range 16).filter (fun n => ty n != 0)).flatMap (fun n =>
    let k := (used.filter (fun p => p.2.net == n && p.2.anchor)).length
    if k = 1 then [] else [conf (if k = 0 then cMissing else cNotAllowed) 0x0051 Par.ARM.NET_TYPE n 0 k])
  let nodes := used.flatMap (fun p =>
    if ty p.2.net = 0 then [conf cMissing 0x0051 Par.ARM.NODE p.1 (item Par.ARM.NET_TYPE p.2.net) p.2.net]
    else ([p.2.posA, p.2.posB].filter (fun x => x != noPos)).flatMap
      (fun x => t.posConf 0x0051 Par.ARM.NODE p.1 (t.parN Par.ARM.NET_POD p.2.net) x 0))
  let branches := t.branches.flatMap (fun b =>
    let ends := ([b.2.from_, b.2.to_].filter (fun n => (netOf n).isNone)).map
      (fun n => conf cMissing 0x0051 Par.ARM.BRANCH b.1 (item Par.ARM.NODE n) n)
    let loop := if b.2.from_ = b.2.to_ then [conf cNotAllowed 0x0051 Par.ARM.BRANCH b.1 (item Par.ARM.NODE b.2.to_) b.2.to_] else []
    let net := netOf b.2.from_
    let apart := match net, netOf b.2.to_ with
      | some x, some y => if x = y then [] else [conf cNotAllowed 0x0051 Par.ARM.BRANCH b.1 (item Par.ARM.NODE b.2.to_) y]
      | _, _ => []
    let off := match net with
      | some x => if ty x = 0 then [conf cMissing 0x0051 Par.ARM.BRANCH b.1 (item Par.ARM.NET_TYPE x) x] else []
      | none => []
    let status := if b.2.kind = 1 ∨ b.2.kind = 2 then
        (match net with
          | some x => t.posConf 0x0051 Par.ARM.BRANCH b.1 (t.parN Par.ARM.NET_POD x) (bitsOf b.2.where_ 17 0) 2
          | none => [])
      else if b.2.kind = 4 ∨ b.2.kind = 5 then
        (let src := bitsOf b.2.where_ 19 7
         match t.srcDef src with
         | none => [conf cMissing 0x0051 Par.ARM.BRANCH b.1 (item Par.ING.SRC_STATE src) src]
         | some d => if d.kind = 4 then [] else [conf cWrongKind 0x0051 Par.ARM.BRANCH b.1 (item Par.ING.SRC_STATE src) src])
      else []
    ends ++ loop ++ apart ++ off ++ status)
  nets ++ nodes ++ branches

/-- BALANCE: a group that runs. The table admits only WRONG_KIND and NOT_ALLOWED here. -/
def State.balConflicts (t : State) (g : Nat) : List Conflict :=
  let pod := t.parN Par.ARM.BAL_POD g
  (if !t.podOn pod then [conf cNotAllowed 0x0052 Par.ARM.BAL_POD g (item Par.ALN.POD_ENABLE pod) pod]
   else (t.balTerms g).flatMap (fun x => match t.posFault pod x.1 0 with
     | none => []
     | some c => [conf (if c = cMissing then cNotAllowed else c) 0x0052 Par.ARM.BAL_TERMS g 0 x.1])) ++
  (if t.parN Par.ARM.BAL_REC_S g ≠ 0 ∧ ¬ t.parB Par.ALN.EDITION_POLICY pod then
    [conf cNotAllowed 0x0052 Par.ARM.BAL_POD g (item Par.ALN.EDITION_POLICY pod) 0] else [])

/-! ### Custody (R23, R235 to R237, R257) -/

/-- The fields of CUS.POINT (R235). -/
structure PointDef where
  ty   : Nat
  kind : Nat
  conn : Nat
  flow : Nat
  pod  : Nat
  deriving DecidableEq, Repr

/-- A point's definition from its word. -/
def pointDefOf (w : Nat) : PointDef :=
  { ty := bitsOf w 30 28, kind := bitsOf w 27 26, conn := bitsOf w 25 24, flow := bitsOf w 23 22, pod := bitsOf w 13 8 }

/-- The points that run, in ascending number. -/
def State.points (t : State) : List (Nat × PointDef) :=
  ((t.parList Par.CUS.POINT).filter (fun p => (p.2.getD 0 0).getLsbD 31)).map (fun p => (p.1, pointDefOf (p.2.getD 0 0).toNat))

/-- A combination of TYPE and INPUT_KIND of the table of R235. -/
def PointDef.allowed (d : PointDef) : Bool :=
  match d.ty with
  | 1 => decide (d.kind ≤ 2)
  | 2 | 3 => d.kind == 2
  | 4 | 5 => d.kind == 2 || d.kind == 3
  | _ => false

/-- The words of CUS.INPUTS that name aligned positions. -/
def PointDef.posWords (d : PointDef) : Nat :=
  if d.kind ≠ 2 then 0
  else match d.ty with
    | 1 => 2
    | 2 | 3 => 3
    | 4 => if d.flow = 0 then 1 else 3
    | _ => 1

/-- Registers of a point and the BASE each takes (R236, R237). -/
def PointDef.bases (d : PointDef) : List Nat :=
  match d.ty with
  | 1 => [0, 0, 1, 1, 1, 1]
  | 2 => [2, 2, 0, 0]
  | 3 => [4, 4]
  | 4 => [3, 3]
  | 5 => [5, 5]
  | _ => []

/-- A UNIT code fits its register: its BASE, and an EXP the BASE admits (R237). -/
def unitFits (base code : Nat) : Bool :=
  code / 16 == base && decide (code % 16 ≤ 9) && (base == 0 || base == 1 || base == 5 || decide (3 ≤ code % 16))

/-- The positions a point uses. -/
def State.pointPos (t : State) (p : Nat) (d : PointDef) : List Nat :=
  ((t.par Par.CUS.INPUTS p).take d.posWords).map (fun w => bitsOf w.toNat 17 0)

/-- CUSTODY: a point that runs. -/
def State.pointConflicts (t : State) (p : Nat) (d : PointDef) : List Conflict :=
  let id := Par.CUS.POINT
  let units := dword (t.par Par.CUS.REG_UNIT p)
  let code := fun n => bitsOf units (8 * n + 7) (8 * n)
  if !d.allowed then [conf cNotAllowed 0x0060 id p 0 (t.parN id p)]
  else
    (((List.range d.bases.length).zip d.bases).filter (fun x => !unitFits x.2 (code x.1))).map
      (fun x => conf cWrongKind 0x0060 Par.CUS.REG_UNIT p 0 (code x.1)) ++
    (if d.kind = 2 then
      (if !t.podOn d.pod then [conf cMissing 0x0060 id p (item Par.ALN.POD_ENABLE d.pod) d.pod]
       else (t.pointPos p d).flatMap (fun pos => t.posConf 0x0060 Par.CUS.INPUTS p d.pod pos 0)) ++
      (if t.parB Par.ALN.EDITION_POLICY d.pod then [] else
        [conf cNotAllowed 0x0060 id p (item Par.ALN.EDITION_POLICY d.pod) 0])
    else if d.kind = 1 then
      (let src := ((t.par Par.CUS.INPUTS p).getD 0 0).toNat
       match t.srcDef src with
       | none => [conf cMissing 0x0060 Par.CUS.INPUTS p (item Par.ING.SRC_STATE src) src]
       | some x => if x.kind = 2 then [] else [conf cWrongKind 0x0060 Par.CUS.INPUTS p (item Par.ING.SRC_STATE src) src])
    else [])

/-- The pod settings a sealed point depends on (R257). -/
def sealedPodIds : List Nat :=
  [Par.ALN.SLOT_RATE, Par.ALN.MEMBERS, Par.ALN.WAIT_POLICY, Par.ALN.WAIT_NS, Par.ALN.EDITION_POLICY, Par.ALN.REV_HORIZON_MS]

/-- The settings of a local channel a sealed point depends on. -/
def sealedChannelIds : List Nat := [Par.CNV.SELECT, Par.CNV.GAIN, Par.CNV.AVG_N, Par.CNV.AVG_SHIFT, Par.FLT.PRESET]

/-- The dependencies of a point: parameters by ID and instance, sources by 0x030B (R257). -/
def State.dependencies (s : State) (p : Nat) (d : PointDef) : List (Nat × Nat) :=
  if d.kind = 2 then
    (sealedPodIds.map (fun i => (i, d.pod))) ++
    ((s.pointPos p d).filterMap (fun pos => ((s.podDef d.pod).positions[pos]?).map (fun x => (Par.ING.SRC_STATE, x.src)))).dedup
  else if d.kind = 1 then [(Par.ING.SRC_STATE, ((s.par Par.CUS.INPUTS p).getD 0 0).toNat)]
  else if d.kind = 0 then
    ((s.cusChannels.filter (fun x => x.1 == p)).map Prod.snd).dedup.flatMap (fun c => sealedChannelIds.map (fun i => (i, c)))
  else []

/-- SEALED: changes to the dependencies of points while sealed. -/
def State.sealedConflicts (s t : State) : List Conflict :=
  s.points.flatMap (fun p =>
    ((s.dependencies p.1 p.2).filter (fun x =>
      if x.1 = Par.ING.SRC_STATE then s.ctl.cfg.sources.get? x.2 != t.ctl.cfg.sources.get? x.2
      else s.par x.1 x.2 != t.par x.1 x.2)).map
      (fun x => conf 0x0007 0x0061 x.1 x.2 (item Par.CUS.POINT p.1) p.1))

/-! ### Capture (R305, R308, R309) -/

/-- The period of the delivered bank of a channel, as configured. -/
def State.outPeriod (t : State) (c : Nat) : Nat :=
  if t.parN Par.FLT.BANK c = 1 then 1000 * t.decimB c else if t.parN Par.FLT.PRESET c = 3 then 1000000 else presetPeriod (t.parN Par.FLT.PRESET c)

/-- The write rate W of a recorder, bytes/s (R309). -/
def State.capRate (t : State) (n : Nat) : Rat :=
  t.rowRate n * ((t.rawBytes n : Rat) + (t.redBytes n : Rat) / (max (t.parN Par.CAP.REDUCE_N n) 1 : Nat))

/-- CAPTURE: one recorder. -/
def State.capConflicts (t : State) (n : Nat) : List Conflict :=
  let id := Par.CAP.INPUTS
  let ins := (t.capInputs n).map (fun p => (p.1, p.2.toNat))
  let num := t.capNumber n
  let named := match t.capKind n with
    | 1 =>
      if !t.podOn num then [conf cMissing 0x0070 Par.CAP.SOURCE n (item Par.ALN.POD_ENABLE num) num]
      else (ins.filter (fun i => decide ((t.podDef num).positions.length ≤ bitsOf i.2 17 0))).map
        (fun i => conf cMissing 0x0070 id n (item Par.ALN.POD_POSITIONS num) (bitsOf i.2 17 0))
    | 2 => (ins.filter (fun i => decide (24 < bitsOf i.2 4 0))).map (fun i => conf cMissing 0x0070 id n 0 (bitsOf i.2 4 0))
    | 3 => (ins.filter (fun i => decide (23 < bitsOf i.2 4 0))).map (fun i => conf cMissing 0x0070 id n 0 (bitsOf i.2 4 0))
    | 4 =>
      match t.srcDef num with
      | none => [conf cMissing 0x0070 Par.CAP.SOURCE n (item Par.ING.SRC_STATE num) num]
      | some d =>
        if d.kind ≠ 2 then [conf cWrongKind 0x0070 Par.CAP.SOURCE n (item Par.ING.SRC_STATE num) num]
        else (ins.filter (fun i => decide (d.n ≤ bitsOf i.2 6 0))).map (fun i => conf cMissing 0x0070 id n 0 (bitsOf i.2 6 0))
    | _ => []
  let c0 := ((ins.head?).map (fun i => bitsOf i.2 4 0)).getD 0
  let rates := match t.capKind n with
    | 2 => (ins.filter (fun i => t.outPeriod (bitsOf i.2 4 0) != t.outPeriod c0)).map
        (fun i => conf cNotAllowed 0x0070 id n (item Par.FLT.PRESET (bitsOf i.2 4 0)) (bitsOf i.2 4 0))
    | 3 => (ins.filter (fun i => t.parN Par.CNV.AVG_N (bitsOf i.2 4 0) == 0 ||
          t.parN Par.CNV.AVG_N (bitsOf i.2 4 0) != t.parN Par.CNV.AVG_N c0)).map
        (fun i => conf cNotAllowed 0x0070 id n (item Par.CNV.AVG_N (bitsOf i.2 4 0)) (bitsOf i.2 4 0))
    | _ => []
  let edges := ((List.range 16).map (fun k => (t.par Par.CAP.TRIG n).getD (4 * k) 0)).filter
    (fun w => w.getLsbD 31 && bitsOf w.toNat 30 28 == 0)
  let trig := (edges.filter (fun w => !(ins.map Prod.fst).contains (bitsOf w.toNat 15 0))).map
    (fun w => conf cMissing 0x0070 Par.CAP.TRIG n (item id n) (bitsOf w.toNat 15 0))
  let red := t.parN Par.CAP.REDUCE n
  let roll := if t.capMode n = 2 ∧ red.testBit 0 ∧ bitsOf red 3 1 ≠ 0 then
      [conf cNotAllowed 0x0070 Par.CAP.MODE n (item Par.CAP.REDUCE n) 2] else []
  let w := ratCeil (t.capRate n / 1000000)
  let share := if ((t.parN Par.CAP.BW_SHARE_MBPS n * 1000000 : Nat) : Rat) < t.capRate n then
      [conf cExceeds 0x0072 Par.CAP.BW_SHARE_MBPS n 0 w.toNat] else []
  named ++ rates ++ trig ++ roll ++ share

/-- CAPTURE_REGION and DRAM_SHARE totals. -/
def State.captureTotals (t : State) : List Conflict :=
  exceeds1 0x0071 5120 1 ((List.range 8).map (fun n => ((Par.CAP.REGION_MIB, n), t.parN Par.CAP.REGION_MIB n))) ++
  exceeds1 0x0072 2000 1 ((List.range 8).map (fun n => ((Par.CAP.BW_SHARE_MBPS, n), t.parN Par.CAP.BW_SHARE_MBPS n)))

/-! ### The check (R401) -/

/-- Every conflict of a candidate. `sealedOk`: the change comes in a sealed message (R257). `starting`: at LGC_START, whose
image counts whatever LGC.AUTOSTART says. -/
def State.conflictsOf (s t : State) (sealedOk starting : Bool) : List Conflict :=
  sortConflicts (t.portConflicts ++ s.sourceConflicts t ++ s.storeConflicts t ++
    ((List.range 64).filter t.podOn).flatMap t.podConflicts ++
    t.dinConflicts starting ++ t.almConflicts starting ++
    exceeds1 0x0033 16 1 ((t.timerUsers starting).map (fun u => (u, 1))) ++
    t.channelConflicts ++ t.auxConflicts ++
    t.fdsOn.flatMap t.fdConflicts ++
    ([0, 1, 2, 3].filter (fun n => t.parB Par.MOD.MT_ENABLE n)).flatMap t.mtConflicts ++
    t.armConflicts ++
    ((List.range 64).filter (fun g => t.parB Par.ARM.BAL_ENABLE g)).flatMap t.balConflicts ++
    t.points.flatMap (fun p => t.pointConflicts p.1 p.2) ++
    (if s.sealedBit && !sealedOk then s.sealedConflicts t else []) ++
    ((List.range 8).filter (fun n => t.capKind n != 0)).flatMap t.capConflicts ++ t.captureTotals ++
    t.logicConflicts starting)

/-- The state with a candidate configuration in force. -/
def State.withCfg (s : State) (c : Config) : State := { s with ctl := { s.ctl with cfg := c } }

/-- Keep the records for READ_CONFLICTS (R60). -/
def State.keepConflicts (s : State) (l : List Conflict) : State := { s with ctl := { s.ctl with conflicts := l } }

/-- CONFLICT, its DETAIL naming the first ID of record 0 (R402). -/
def conflictAns (l : List Conflict) : Option Ans := some (0x010A, [detail 0xFFFF ((l.head?.map Conflict.id1).getD 0)])

end Sys2Proof.Machine
end

