-- ==== Sys2Proof/Machine/Logic.lean ====
section
/-! DEFINITION. The cyclic logic engine (13): starting and stopping, the scan, its outputs, forcing, online change, stations
and the host's commands. -/

namespace Sys2Proof.Machine

open Sys2Proof

/-! ### Variables (R332, R335) -/

/-- A variable's program value; an unlisted one holds 0 with quality 0x0001 (R332). -/
def State.lvar (s : State) (i : Nat) : LVal := s.lgc.vals.getD i ⟨0, 1⟩

/-- A variable as blocks and outputs read it: under a force, the forced value with FORCED (R335). -/
def State.leff (s : State) (i : Nat) : LVal :=
  match s.lgc.forces.get? i with
  | some f => ⟨f, qSet (s.lvar i).q qForced⟩
  | none => s.lvar i

/-- Store a program value. -/
def State.setLvar (s : State) (i : Nat) (x : LVal) : State := { s with lgc := { s.lgc with vals := s.lgc.vals.set i x } }

/-- The forces that stand once the pending ones are in effect. -/
def Lgc.requested (l : Lgc) : AMap Word :=
  l.forceNew.foldl (fun m p => m.set p.1 p.2) (l.forces.filter (fun p => !l.relNew.contains p.1))

/-- S(n) in ns (R333). -/
def Image.startOf (im : Image) (n : Nat) : Nat := n * im.periodUs * 1000

/-! ### Stopping and starting (R342, R343) -/

/-- Release every output: lands, GOOSE, and the waits for control-acks (R338, R339, R343). -/
def State.lgcRelease (s : State) : State :=
  { s with lands := { s.lands with almLgc := [] }
           lgc := { s.lgc with
             goose := s.lgc.goose.map (fun g => (g.1, { g.2 with on := false }))
             station := s.lgc.station.map (fun x => (x.1, { x.2 with waiting := false })) } }

/-- The engine stops in state `st`, its outputs released. -/
def State.lgcHalt (s : State) (st : Nat) : State :=
  { s with lgc := { s.lgc with st := st, scanning := false, late := false, suspend := false, stopReq := none } }.lgcRelease

/-- The stations of an image at a start: the command number goes on; a station of a DEAD source starts LOST, any other
ONLINE (log 23). -/
def State.stationsStart (s : State) (im : Image) : State :=
  let srcs := (im.writes.map (fun w => w.2.1)).dedup
  let s := (s.lgc.station.filter (fun x => !srcs.contains x.1)).foldl
    (fun s x => ({ s with lgc := { s.lgc with station := s.lgc.station.erase x.1 } }).alarm 0x0A 2 x.1 false s.now) s
  srcs.foldl (fun s k =>
    let old := s.station k
    if old.st = 0 then
      let s := s.setStation k { stationInit with st := 1, seq := old.seq }
      if (s.src k).st = 3 then s.stationLost k else s
    else s.setStation k { old with sent := none, waiting := false, unacked := 0 }) s

/-- Start scanning: every variable takes INITIAL, block states are zeroed (R328, R330, R334, R342). -/
def State.lgcStart (s : State) (im : Image) : State :=
  let vals : AMap LVal := ((List.range im.vars.length).zip im.vars).map (fun v => (v.1, ⟨v.2.init, 1⟩))
  let s := { s with lgc := { s.lgc with
    st := 2, vals := vals, written := vals, blk := [], n := s.now / (im.periodUs * 1000) + 1, snap := none, prevSnap := none
    scanning := false, late := false, first := true, lastW := none, overruns := 0, clean := 0, suspend := false
    execN := 0, execSum := 0, execMax := 0 } }
  s.stationsStart im

/-- A fresh start on return to SAFE or RUN, or after a reset: as LGC_START, left stopped where a binding no longer fits
(R343). -/
def State.lgcResume (s : State) : State :=
  match s.lgc.image with
  | some im =>
    if s.lgc.st == 3 && s.measuring && s.runs 0x0A then
      (if (s.conflictsOf s true true).isEmpty then s.lgcStart im else { s with lgc := { s.lgc with st := 1 } })
    else s
  | none => s

/-- The device leaves SAFE and RUN, or the unit is quiesced: the engine suspends at the end of its running scan (R343). -/
def State.lgcSuspend (s : State) : State :=
  if s.lgc.st = 2 then
    (if s.lgc.scanning then { s with lgc := { s.lgc with suspend := true } } else s.lgcHalt 3)
  else s

/-- UNIT_RESET of unit 0x0A: the engine stops at once, outputs are released, forces cleared, the image kept; an LGC_STOP
that waited is answered UNIT_RESET (R343, R424). -/
def State.lgcReset (s : State) : State :=
  let ran := s.lgc.st == 2 || s.lgc.st == 3
  let req := s.lgc.stopReq
  let s := if s.lgc.st = 0 then s else s.lgcHalt (if ran then 3 else 1)
  let s := { s with lgc := { s.lgc with
    forces := [], forceNew := [], relNew := [], chgVar := [], chgPar := [], load := none } }
  match req with
  | some q => s.answerLater q 0x0502 0x0A (0x010C, [detail 0xFFFF 0])
  | none => s

/-- The slot in force of the boot flash: the one with the higher load number (R328). -/
def Lgc.slotInForce (l : Lgc) : Option (Nat × Nat × Image) :=
  match l.slots.get? 0, l.slots.get? 1 with
  | some a, some b => if a.1 < b.1 then some (1, b) else some (0, a)
  | some a, none => some (0, a)
  | none, some b => some (1, b)
  | none, none => none

/-- At boot the engine reloads its image, and with LGC.AUTOSTART 1 starts as soon as the device is in SAFE or RUN (R328,
R343). -/
def State.lgcBoot (s : State) : State :=
  let im := s.lgc.slotInForce.map (fun x => x.2.2)
  { s with lgc := { Lgc.init with
      slots := s.lgc.slots, image := im, st := if im.isNone then 0 else if s.parB Par.LGC.AUTOSTART 0 then 3 else 1 } }

/-! ### Snapshot (R333, R335, R336, R341) -/

/-- Forces, releases and online changes that waited take effect (R335, R336). -/
def State.lgcApply (s : State) : State :=
  let l := s.lgc
  let image := l.image.map (fun im => { im with
    blocks := l.chgPar.foldl (fun bs p => bs.modify p.1 (fun b => { b with param := p.2 })) im.blocks })
  let vals := l.chgVar.foldl (fun m p => m.set p.1 ⟨p.2, (m.getD p.1 ⟨0, 1⟩).q⟩) l.vals
  { s with lgc := { l with
      image := image, vals := vals, forces := l.requested, forceNew := [], relNew := [], chgVar := [], chgPar := [] } }

/-- An aligned input (R333): the first edition of the latest slot; a position of a LOST station's source takes the pod's
substitution rule at the snapshot instant (R341). Before any slot has closed the value stays and its quality is 0xF000. -/
def State.alignedInput (s : State) (old : LVal) (ty w : Nat) : LVal :=
  let pod := bitsOf w 23 18
  let pos := bitsOf w 17 0
  let d := s.podDef pod
  let lost := d.positions[pos]?.any (fun p => (s.station p.src).st == 2)
  let e := match (if lost then d.positions[pos]? else none) with
    | some p => some (substitute d (s.podSt pod) s.now p)
    | none => (s.podSt pod).latest.bind (fun l => l.2[pos]?)
  match e with
  | some e => ⟨if ty = 0 then boolWord (e.v.getLsbD (bitsOf w 31 27)) else e.v, e.quality⟩
  | none => ⟨old.v, 0xF000⟩

/-- An input variable's value at the snapshot; none for other kinds. -/
def State.inputVal (s : State) (i : Nat) (v : LVar) : Option LVal :=
  let w := v.binding.toNat
  let q : Half := BitVec.ofNat 16 (qPresent + 4096 * s.tq)
  match v.kind with
  | 1 => some (s.alignedInput (s.lvar i) v.ty w)
  | 2 => some ⟨boolWord (s.lands.din.getD (bitsOf w 2 0) false), q⟩
  | 3 => some ⟨boolWord (s.alarmOn (bitsOf w 31 24) (bitsOf w 23 16) (bitsOf w 15 0)), q⟩
  | 4 => some ⟨(match bitsOf w 1 0 with
      | 0 => boolWord s.lgc.first
      | 1 => boolWord s.timeLocked
      | _ => BitVec.ofNat 32 s.lgc.overruns), q⟩
  | _ => none

/-- The snapshot: inputs not under a force take their values, all read at one instant. -/
def State.snapshot (s : State) (im : Image) : State :=
  let new := ((List.range im.vars.length).zip im.vars).filterMap (fun v =>
    if (s.lgc.forces.get? v.1).isSome then none else (s.inputVal v.1 v.2).map (fun x => (v.1, x)))
  new.foldl (fun s x => s.setLvar x.1 x.2) s

/-! ### Execution (R330 to R332, R340) -/

/-- Input `n` of a block as it reads it: absent, the constant (PRESENT, TQ 0), or a variable, inverted where marked. -/
def State.blkIn (s : State) (im : Image) (b : LBlock) (g : LSig) (n : Nat) : Option LVal :=
  if n = 1 ∧ b.const ∧ g.in1 ≠ .none_ then some ⟨b.param, 1⟩
  else if b.uses g n then
    let i := b.inVar n
    let x := s.leff i
    let bool := ((im.vars[i]?).map LVar.ty).getD 0 == 0
    some (if bool && b.invIn.testBit n then ⟨boolWord (x.v == 0), x.q⟩ else x)
  else none

/-- What a block does beside its output: ALARM_PUB raises or clears its alarm on an edge; STATION_WRITE writes its point. -/
def State.blkEffect (s : State) (b : LBlock) (ty : Nat) (a i1 : Option LVal) (st : BlkSt) : State :=
  let x := (a.map LVal.v).getD 0
  match b.op with
  | 0x60 => if (x != 0) = st.prev then s else s.alarm 0x0A 1 (bitsOf b.param.toNat 15 0) (x != 0) s.now
  | 0x61 =>
    if (i1.map (fun v => v.v != 0)).getD true then
      let k := bitsOf b.param.toNat 28 16
      let z := s.station k
      s.setStation k { z with points := z.points.set (bitsOf b.param.toNat 6 0) (if ty = 2 then 0 else 2, x) }
    else s
  | _ => s

/-- Run block `j`. -/
def State.runBlk (s : State) (im : Image) (dt j : Nat) (b : LBlock) : State :=
  match lsig b.op with
  | none => s
  | some g =>
    if b.op = 0 then s else
      let ty := fun i => ((im.vars[i]?).map LVar.ty).getD 0
      let st := s.lgc.blk.getD j blkInit
      let a := s.blkIn im b g 0
      let i1 := s.blkIn im b g 1
      let z := s.station (bitsOf b.param.toNat 28 16)
      let r := runBlock b.op (ty b.in0) (ty b.out) a i1 (s.blkIn im b g 2) b.param st dt
        (z.st == 1 && z.acked && ((z.sent.getD []).get? (bitsOf b.param.toNat 6 0)).isSome)
      let v := if b.invOut && ty b.out == 0 then boolWord (r.v == 0) else r.v
      let s := s.blkEffect b (ty b.in0) a i1 st
      let s := { s with lgc := { s.lgc with blk := s.lgc.blk.set j r.st } }
      let s := if r.bad then s.count 0x0A04 0 1 else s
      if (s.lgc.forces.get? b.out).isSome then s
      else s.setLvar b.out ⟨v, if r.bad then qSet r.q qInvalid else r.q⟩

/-- The engine is due: it runs, no scan executes, and S(n) has come. -/
def State.lgcDue (s : State) : Bool :=
  s.lgc.st == 2 && s.measuring && s.runs 0x0A && !s.lgc.scanning && !s.lgc.suspend &&
    s.lgc.image.any (fun im => decide (im.startOf s.lgc.n ≤ s.now))

/-- The scan's snapshot and execution. -/
def State.lgcScan (s : State) : State :=
  let s := s.lgcApply
  match s.lgc.image with
  | none => s
  | some im =>
    let dt := match s.lgc.prevSnap with
      | some p => s.now / 1000 - p / 1000
      | none => 0
    let s := { s with lgc := { s.lgc with snap := some s.now, scanning := true } }
    ((List.range im.blocks.length).zip im.blocks).foldl (fun s b => s.runBlk im dt b.1 b.2) (s.snapshot im)

/-- LGC_SCAN: at S(n), or at once for a late scan, the snapshot is taken and the blocks execute (R333). -/
def execLgcScan (dt : Nat) (s : State) : Out :=
  let s := s.advance dt
  .next (if s.lgcDue then s.lgcScan else s)

/-! ### Stations (R139, R340, R341) -/

/-- Bytes of a control frame to a station (R137): every point at its value, SEQ, the scan's snapshot instant; tagged when
the source has a KEY_SLOT (R139). The tag of an unusable KEY_SLOT is a free value (log 69). -/
def State.controlFrame (s : State) (d : SrcDef) (seq snap : Nat) (points : AMap (Nat × Word)) : List Byte :=
  let tagged : Nat := if d.keySlot = 0 then 0 else 1
  let n := points.length
  let body := points.flatMap (fun p => beBytes 1 p.1 ++ beBytes 1 (64 * p.2.1) ++ beBytes 2 0 ++ beBytes 8 p.2.2.toNat)
  let head := beBytes 1 1 ++ beBytes 1 1 ++ beBytes 2 tagged ++ beBytes 2 (24 + 12 * n + 16 * tagged) ++ beBytes 2 n ++
    beBytes 4 (d.ident.getD 0 0).toNat ++ beBytes 8 (gtfOf snap) ++ beBytes 2 0 ++ beBytes 2 seq
  let f := head ++ body
  if tagged = 0 then f
  else match s.commsKey d.keySlot with
    | some k => f ++ (hmac256 k f).take 16
    | none => f ++ (List.range 16).map (fun i => Config.unusableTag d.keySlot f i)

/-- The port that counts a frame for an address that no port reaches with its link up: the lowest with an address of its version
(R116, log 65). -/
def State.homePort (s : State) (p : Peer) : Nat :=
  ((List.range 32).find? (fun n => s.ownIp n (!peerV4 p) (s.addresses n p).1)).getD 0

/-- Send a station its control frame at rank 2, to the address and port of its identity key, with the next command number (R116,
R139, R340). -/
def State.sendControl (s : State) (src : Nat) (points : AMap (Nat × Word)) : State :=
  match s.srcDef src with
  | none => s
  | some d =>
    let x := s.station src
    let seq := (x.seq + 1) % 65536
    let snap := (s.lgc.prevSnap).getD s.now
    let f := s.controlFrame d seq snap points
    ((s.setStation src { x with seq := seq, sentAt := some s.now, waiting := true, acked := false }).sendUdp
      ((s.routePort d.station).getD (s.homePort d.station)) 2 (s.parN Par.ING.OCF_PORT 0) d.station f (some (.control src f))).count2
        0x0A05 (src + 1) 1

/-- A station at W(n): a frame goes when a point changed; it is withheld and counted while the station is LOST. -/
def State.stationWrite (s : State) (src : Nat) : State :=
  let x := s.station src
  let changed := x.sent != some x.points
  let s := s.setStation src { x with sent := some x.points }
  if x.st = 0 ∨ !changed then s
  else if x.st = 2 then s.count2 0x0A08 (src + 1) 1
  else s.sendControl src x.points

/-- STATION_REFRESH: at an output write, a frame goes to a station to which none has gone for LGC.STATION_REFRESH_MS
(R340). -/
def execStationRefresh (dt : Nat) (src : Nat) (s : State) : Out :=
  let s := s.advance dt
  let x := s.station src
  let p := 1000000 * s.parN Par.LGC.STATION_REFRESH_MS 0
  .next (if s.lgc.st = 2 ∧ s.lgc.lastW = some s.now ∧ x.st ≠ 0 ∧ p ≠ 0 ∧ x.sentAt.all (fun t => decide (t + p ≤ s.now)) then
    (if x.st = 2 then s.count2 0x0A08 (src + 1) 1 else s.sendControl src (x.sent.getD []))
  else s)

/-- A control-ack that parses, identifies its station and passes its tag: SEQ and ACK_CODE act on the station (R340,
R341). -/
def State.controlAck (s : State) (src seq code : Nat) : State :=
  let x := s.station src
  if x.st = 0 ∨ seq ≠ x.seq ∨ !x.waiting then s
  else if code = 0 then
    let s := s.setStation src { x with waiting := false, unacked := 0, acked := true, st := if x.st = 3 then 1 else x.st }
    if x.st = 3 then s.alarm 0x0A 2 src false s.now else s
  else
    ((s.setStation src { x with waiting := false, unacked := 0, acked := false }).count2 0x0A07 (src + 1) 1).logEv 0x0A02 0x0A
      s.now (evPar 0 (src + code % 4 * 65536))

/-- STATION_CONTROL_ACK: an OCF datagram of TYPE 2 from a station (R137 to R140). -/
def execStationControlAck (dt : Nat) (port : Nat) (bytes : List Byte) (s : State) : Out :=
  let s := s.advance dt
  .next (if s.ingRuns then
    let s := (s.takeWords port).1
    if !ocfParses bytes then s.count 0x0304 0 1
    else if fld bytes 1 1 ≠ 2 then s
    else
      let key := beBytes 4 (fld bytes 8 4)
      match s.identify 3 key with
      | none => s.unknown 3 port key s.now
      | some (src, d) =>
        let tagged := fld bytes 3 1 % 2 == 1
        if fld bytes 4 2 ≠ bytes.length ∨ bytes.length ≠ 24 + 12 * fld bytes 6 2 + (if tagged then 16 else 0) then
          s.countSrc 0x0306 src 1
        else if !s.ocfTag d bytes tagged then s.countSrc 0x0307 src 1
        else if s.runs 0x0A then s.controlAck src (fld bytes 22 2) (fld bytes 21 1) else s
  else s)

/-- STATION_ACK_TIMEOUT: a frame not acknowledged within LGC.ACK_TIMEOUT_MS; the station becomes LOST after
LGC.ACK_RETRIES of them, and otherwise a new frame goes with the current values (R340, R341). -/
def execStationAckTimeout (dt : Nat) (src : Nat) (s : State) : Out :=
  let s := s.advance dt
  let x := s.station src
  .next (if s.lgc.st = 2 ∧ x.waiting ∧ (x.st = 1 ∨ x.st = 3) ∧
      x.sentAt.any (fun t => decide (t + 1000000 * s.parN Par.LGC.ACK_TIMEOUT_MS 0 ≤ s.now)) then
    if s.parN Par.LGC.ACK_RETRIES 0 ≤ x.unacked + 1 then s.stationLost src
    else ((s.setStation src { x with unacked := x.unacked + 1 }).sendControl src (x.sent.getD [])).count2 0x0A06 (src + 1) 1
  else s)

/-! ### GOOSE (R339) -/

/-- The variables of a control block in member order. -/
def Image.members (im : Image) (cb : Nat) : List Nat :=
  let l := ((List.range im.vars.length).zip im.vars).filter (fun v => v.2.kind == 6 && v.2.member.1 == cb)
  (l.mergeSort (fun a b => decide (a.2.member.2 ≤ b.2.member.2))).map Prod.fst

/-- The Quality member of a quality word: validity invalid (1) or questionable (3), source substituted (bit 10), test
(bit 11) (R339; the standard's bit numbers, log 14). -/
def gooseQuality (q : Half) : Word :=
  BitVec.ofNat 32 ((if qHas q qPoison || qHas q qInvalid then 1 else if qHas q qSubst then 3 else 0) +
    bitAt (qHas q qForced) 10 + bitAt (qHas q qTest) 11)

/-- Wrap of stNum and sqNum to 1. -/
def gooseNext (n : Nat) : Nat := if n + 1 < 2 ^ 32 then n + 1 else 1

/-- A BER element: tag, length in the shortest form, value (IEC 61850-8-1, log 14). -/
def ber (tag : Nat) (l : List Byte) : List Byte :=
  let n := l.length
  beBytes 1 tag ++ (if n < 128 then beBytes 1 n else if n < 256 then beBytes 2 (0x8100 + n) else beBytes 3 (0x820000 + n)) ++ l

/-- A BER integer in the fewest bytes (log 14). -/
def berInt (tag : Nat) (v : Int) : List Byte :=
  let k := ((List.range 8).find? (fun k => decide (-(2 ^ (8 * k + 7) : Int) ≤ v) && decide (v < 2 ^ (8 * k + 7)))).getD 8 + 1
  ber tag (beBytes k (v % 2 ^ (8 * k)).toNat)

/-- A Quality member: a bit string of 13 bits, its validity high bit first (log 14). -/
def berQuality (w : Word) : List Byte :=
  let bit := fun i => bitAt (w.getLsbD (if i = 0 then 1 else if i = 1 then 0 else i)) (15 - i)
  ber 0x84 ([3] ++ beBytes 2 ((List.range 13).map bit).sum)

/-- A dataset member of a type (R339). -/
def gooseDatum (ty : Nat) (v : Word) : List Byte :=
  match ty with
  | 0 => ber 0x83 [if v = 0 then 0 else 1]
  | 1 => berInt 0x85 v.toInt
  | 2 => ber 0x87 ([8] ++ beBytes 4 v.toNat)
  | _ => berInt 0x86 v.toNat

/-- Text `i` of a control block: gocbRef, datSet, goID (R339). -/
def gooseText (w : List Word) (i : Nat) : List Byte := ((wordsLe (w.drop 8)).drop (129 * i)).take (wordBits w 7 (23 - 8 * i) (16 - 8 * i))

/-- The message of a control block: types of its members, and what it sends (R339, IEC 61850-8-1). -/
def goosePdu (w : List Word) (tys : List Nat) (g : GoosePub) : List Byte :=
  let us := g.t + 946684800 * sec
  let t := beBytes 4 (us / sec) ++ beBytes 3 (us % sec * 2 ^ 24 / sec) ++ [g.clock]
  let flag := fun (b : Bool) => [if b then (1 : Byte) else 0]
  let quality := (w.getD 0 0).getLsbD 30
  let data := (tys.zip g.sent).map (fun p => gooseDatum p.1 p.2.1 ++ (if quality then berQuality p.2.2 else []))
  let id := gooseText w 2
  ber 0x61 (ber 0x80 (gooseText w 0) ++ berInt 0x81 (2 * wordBits w 6 15 0) ++ ber 0x82 (gooseText w 1) ++
    (if id.isEmpty then [] else ber 0x83 id) ++ ber 0x84 t ++ berInt 0x85 g.stNum ++ berInt 0x86 g.sqNum ++
    ber 0x87 (flag ((w.getD 0 0).getLsbD 29)) ++ berInt 0x88 (w.getD 5 0).toNat ++ ber 0x89 (flag false) ++
    berInt 0x8A (data.length * (if quality then 2 else 1)) ++ ber 0xAB data.flatten)

/-- The frame of a control block from a port: addresses, VLAN tag, EtherType 0x88B8, APPID, length, simulation bit (R339). -/
def State.gooseBytes (s : State) (n : Nat) (w : List Word) (pdu : List Byte) : List Byte :=
  let dst := (w.getD 1 0).toNat + 2 ^ 32 * ((w.getD 2 0).toNat % 65536)
  let vlan := wordBits w 3 15 13 * 8192 + wordBits w 3 11 0
  beBytes 6 dst ++ beBytes 6 (s.parD Par.PRT.MAC_ADDR n) ++
    (if (w.getD 3 0).getLsbD 16 then beBytes 2 0x8100 ++ beBytes 2 vlan else []) ++
    beBytes 2 0x88B8 ++ beBytes 2 (wordBits w 0 15 0) ++ beBytes 2 (8 + pdu.length) ++
    beBytes 2 (if (w.getD 0 0).getLsbD 29 then 0x8000 else 0) ++ beBytes 2 0 ++ pdu

/-- Publish a control block at rank 2 on every port of its mask (R116, R339). -/
def State.gooseSend (s : State) (im : Image) (cb : Nat) (g : GoosePub) (w : List Word) : State :=
  let s := { s with lgc := { s.lgc with goose := s.lgc.goose.set cb g } }
  let pdu := goosePdu w ((im.members cb).map (fun i => ((im.vars[i]?).map LVar.ty).getD 0)) g
  let msg := Output.goose cb g.stNum g.sqNum g.t (2 * wordBits w 6 15 0) g.sent
  ((maskPorts (w.getD 4 0).toNat).foldl (fun s n => s.sendFrames' n 2 false (some msg) [s.gooseBytes n w pdu]) s).count2 0x0A09 (cb + 1) 1

/-- A control block at W(n): a changed member's value or quality advances stNum and sends at once. -/
def State.gooseWrite (s : State) (im : Image) (cb : Nat) : State :=
  let w := s.par Par.LGC.GOOSE_CB cb
  let ms := im.members cb
  if !(w.getD 0 0).getLsbD 31 ∨ ms.isEmpty then s
  else
    let g := s.lgc.goose.getD cb { stNum := 0, sqNum := 0, t := 0, clock := 0, nextMs := 0, nextAt := 0, sent := [], on := false }
    let vs := ms.map (fun i => let x := s.leff i; (x.v, gooseQuality x.q + x.q.setWidth 32 * 65536))
    let min_ := wordBits w 6 31 16
    if g.on ∧ g.sent = vs then s
    else s.gooseSend im cb
      { stNum := gooseNext g.stNum, sqNum := 0, t := (s.utcOfTai s.now).toNat, clock := Config.gooseClock s.timeLocked s.tq
        nextMs := min_, nextAt := s.now + 1000000 * min_, sent := vs, on := true } w

/-- GOOSE_REPEAT: the message again after its interval, which doubles up to MAX_MS (R339). -/
def execGooseRepeat (dt : Nat) (cb : Nat) (s : State) : Out :=
  let s := s.advance dt
  .next (match s.lgc.image, s.lgc.goose.get? cb with
    | some im, some g =>
      let w := s.par Par.LGC.GOOSE_CB cb
      if s.lgc.st = 2 ∧ g.on ∧ (w.getD 0 0).getLsbD 31 ∧ g.nextAt ≤ s.now then
        let ms := min (2 * g.nextMs) (wordBits w 6 15 0)
        s.gooseSend im cb { g with sqNum := gooseNext g.sqNum, nextMs := ms, nextAt := s.now + 1000000 * ms } w
      else s
    | _, _ => s)

/-! ### Output write (R333, R334, R338) -/

/-- The lands of TRUE KIND 5 variables (R338). -/
def State.lgcLands (s : State) (im : Image) : List Nat :=
  (List.range 16).filter (fun k => ((List.range im.vars.length).zip im.vars).any (fun v =>
    v.2.kind == 5 && v.2.land == k && (s.leff v.1).v != 0))

/-- LOGIC triggers: a BOOL variable whose written value differs from that of the write before (R333, R312). -/
def logicHit (im : Image) (old new : AMap LVal) (k : Nat) : Option Bool :=
  if ((im.vars[k]?).map LVar.ty) = some 0 then
    match old.get? k, new.get? k with
    | some a, some b => if a.v = b.v then none else some (b.v != 0)
    | _, _ => none
  else none

/-- Periods skipped after a late scan that was written at `w` and whose next candidate is `n` (R334). -/
def skipTo (im : Image) (w n : Nat) : Nat := max n ((w + im.periodUs * 1000 - 1) / (im.periodUs * 1000))

/-- An overrun: counted, logged, alarmed (R334). -/
def State.lgcOverrun (s : State) : State :=
  let s := { s with lgc := { s.lgc with overruns := s.lgc.overruns + 1, clean := 0 } }
  let s := (s.count 0x0A02 0 1).logEv 0x0A01 0x0A s.now (evPar 0 s.lgc.n)
  if s.parB Par.LGC.OVERRUN_ALARM 0 then s.alarm 0x0A 3 0 true s.now else s

/-- A scan without an overrun: the alarm clears after 100 in a row (R334). -/
def State.lgcClean (s : State) : State :=
  let s := { s with lgc := { s.lgc with clean := s.lgc.clean + 1 } }
  if 100 ≤ s.lgc.clean then s.alarm 0x0A 3 0 false s.now else s

/-- Which scan runs next, after the write of scan n at this instant (R334). -/
def State.lgcNext (s : State) (im : Image) : State :=
  let n := s.lgc.n
  let late := decide (im.startOf (n + 1) < s.now)
  let s := if late then s.lgcOverrun else s.lgcClean
  if s.lgc.late then
    let m := skipTo im s.now (n + 2)
    { s with lgc := { s.lgc with n := m, late := false } }.count 0x0A03 0 (m - n - 1)
  else { s with lgc := { s.lgc with n := n + 1, late := late } }

/-- The output write of the running scan (R333): all outputs take their values together; a stop or a suspension that waits
takes place. -/
def State.outputWrite (s : State) (im : Image) : State :=
  let w := s.now
  let ex := w - s.lgc.snap.getD w
  let new : AMap LVal := (List.range im.vars.length).map (fun i => (i, s.leff i))
  let old := if s.lgc.lastW.isSome then s.lgc.written else []
  let s := { s with
    lands := { s.lands with almLgc := s.lgcLands im }
    lgc := { s.lgc with
      scanning := false, first := false, written := new, lastW := some w, prevSnap := s.lgc.snap
      execN := s.lgc.execN + 1, execSum := s.lgc.execSum + ex, execMax := max s.lgc.execMax ex } }
  let s := (s.count 0x0A01 0 1).capEvent 3 (logicHit im old new) w
  let s := (List.range 32).foldl (fun s cb => s.gooseWrite im cb) s
  let s := s.lgc.station.keys.foldl State.stationWrite s
  let s := s.lgcNext im
  match s.lgc.stopReq with
  | some q => (s.lgcHalt 1).answerLater q 0x0502 0x0A (0, gtfWords w)
  | none => if s.lgc.suspend then s.lgcHalt 3 else s

/-- LGC_OUTPUT_WRITE: the running scan's outputs at W(n). -/
def execLgcOutputWrite (dt : Nat) (s : State) : Out :=
  let s := s.advance dt
  .next (match s.lgc.image with
    | some im => if s.lgc.st = 2 ∧ s.lgc.scanning then s.outputWrite im else s
    | none => s)

/-! ### Loading (R328, R329, R342) -/

/-- A good image replaces the loaded one and clears forces (R342). -/
def State.lgcInstall (s : State) (im : Image) : State :=
  { s with lgc := { s.lgc with
      image := some im, st := if s.lgc.st = 3 then 3 else 1, result := (0, 0), load := none, vals := [], written := [], blk := []
      forces := [], forceNew := [], relNew := [], chgVar := [], chgPar := [], lastW := none, n := 0 } }

/-- LGC_LOAD. -/
def State.lgcLoad (s : State) (q : Req) : State × Option Ans :=
  let off := (q.w 4).toNat
  let total := (q.w 5).toNat
  let n := (q.w 6).toNat
  if s.lgc.st = 2 then (s, err 0x010E)
  else if 65000 < n ∨ 4 * (q.payload.length - 3) < n then (s, err 0x0116)
  else if n < 4 ∨ n % 4 ≠ 0 then (s, err 0x0106)
  else
    let held := if off = 0 then [] else (s.lgc.load.map Prod.snd).getD []
    let fits := off == held.length && (off == 0 || (s.lgc.load.map Prod.fst) == some total) &&
      decide (off + n ≤ total) && decide (total ≤ 917540)
    if !fits then (s, err 0x0106)
    else
      let bytes := held ++ q.bytes 7 n
      if bytes.length < total then
        ({ s with lgc := { s.lgc with load := some (total, bytes) } }, ok [BitVec.ofNat 32 bytes.length, 0])
      else if s.lgc.writing.isSome then (s, err 0x010B)
      else
        match parseImage bytes with
        | .error (reason, block, it) =>
          ({ s with lgc := { s.lgc with load := none, result := (reason, it) } }, some (0x0121, [detail block 0]))
        | .ok im => ({ (s.lgcInstall im) with lgc := { (s.lgcInstall im).lgc with writing := some q } }, none)

/-- LGC_LOAD (R342). -/
def execLgcLoad (dt : Nat) (q : Req) (s : State) : Out :=
  .next ((s.advance dt).serve q 0x0500 0x0A 1 0 true (fun _ s => s.lgcLoad q))

/-- LGC_IMAGE_STORED: the image stands in the slot not in force with the next load number, the last chunk is answered, and
the other slot is erased (R328, R342). -/
def execLgcImageStored (dt : Nat) (s : State) : Out :=
  let s := s.advance dt
  .next (match s.lgc.writing, s.lgc.image with
    | some q, some im =>
      let (slot, no) := match s.lgc.slotInForce with
        | some (k, no, _) => (1 - k, no + 1)
        | none => (0, 1)
      ({ s with lgc := { s.lgc with writing := none, slots := [(slot, no, im)] } }).answerLater q 0x0500 0x0A
        (0, [BitVec.ofNat 32 im.bytes, im.id])
    | _, _ => s)

/-! ### Commands (R335 to R337, R342) -/

/-- LGC_START (R342): refused without an image, while running, or outside SAFE and RUN; CONFLICT where the check fails. -/
def State.lgcStartCmd (s : State) : State × Option Ans :=
  match s.lgc.image with
  | none => (s, err 0x010E)
  | some im =>
    if s.lgc.st = 2 ∨ !s.measuring then (s, err 0x010E)
    else
      let cs := s.conflictsOf s true true
      if cs.isEmpty then
        let s := s.lgcStart im
        (s, ok (gtfWords (im.startOf s.lgc.n)))
      else (s.keepConflicts cs, conflictAns cs)

/-- LGC_START. -/
def execLgcStart (dt : Nat) (q : Req) (s : State) : Out :=
  .next ((s.advance dt).serve q 0x0501 0x0A 1 0 true (fun _ s => s.lgcStartCmd))

/-- LGC_STOP (R342): answered with W of the last scan, once the running scan has completed. -/
def State.lgcStopCmd (s : State) (q : Req) : State × Option Ans :=
  if s.lgc.st = 2 ∧ s.lgc.scanning then
    (if s.lgc.stopReq.isSome then (s, err 0x010B) else ({ s with lgc := { s.lgc with stopReq := some q } }, none))
  else if s.lgc.st = 2 ∨ s.lgc.st = 3 then (s.lgcHalt 1, ok (words64 (gtfOpt s.lgc.lastW)))
  else (s, err 0x010E)

/-- LGC_STOP. -/
def execLgcStop (dt : Nat) (q : Req) (s : State) : Out :=
  .next ((s.advance dt).serve q 0x0502 0x0A 1 0 true (fun _ s => s.lgcStopCmd q))

/-- Items of `k` words from a list. -/
def itemsOf (k : Nat) : Nat → List Word → List (List Word)
  | 0, _ => []
  | n + 1, l => l.take k :: itemsOf k n (l.drop k)

/-- The first item that fails, with its index. -/
def firstFail {α : Type} (f : α → Option Nat) : Nat → List α → Option (Nat × Nat)
  | _, [] => none
  | i, x :: l => match f x with
    | some st => some (i, st)
    | none => firstFail f (i + 1) l

/-- A value a variable can take: BOOL 0 or 1. -/
def LVar.takes (v : LVar) (w : Word) : Bool := v.ty != 0 || decide (w.toNat ≤ 1)

/-- LGC_FORCE (R335). -/
def State.lgcForce (s : State) (q : Req) : State × Option Ans :=
  match s.lgc.image with
  | none => (s, err 0x010E)
  | some im =>
    let n := (q.w 4).toNat
    let items := (itemsOf 2 n (q.rest 5)).map (fun l => (wordBits l 0 15 0, l.getD 1 0))
    if n = 0 then (s, err 0x0106)
    else if 256 < n ∨ q.payload.length < 1 + 2 * n then (s, err 0x0116)
    else
      match firstFail (fun (x : Nat × Word) => match im.vars[x.1]? with
          | none => some 0x0106
          | some v => if v.takes x.2 then none else some 0x0106) 0 items with
      | some (i, st) => (s, errItem st i 0)
      | none =>
        let l := { s.lgc with
          forceNew := items.foldl (fun m x => m.set x.1 x.2) s.lgc.forceNew
          relNew := s.lgc.relNew.filter (fun v => !(items.map Prod.fst).contains v) }
        if 256 < l.requested.length then (s, err 0x0117) else ({ s with lgc := l }, ok [])

/-- LGC_FORCE. -/
def execLgcForce (dt : Nat) (q : Req) (s : State) : Out :=
  .next ((s.advance dt).serve q 0x0503 0x0A 1 0 true (fun _ s => s.lgcForce q))

/-- LGC_RELEASE (R335): named forces, or all, end at the next snapshot. -/
def State.lgcReleaseCmd (s : State) (q : Req) : State × Option Ans :=
  match s.lgc.image with
  | none => (s, err 0x010E)
  | some _ =>
    let n := q.bits 4 15 0
    let all_ := (q.w 4).getLsbD 31
    if q.payload.isEmpty then (s, err 0x0106)
    else if !all_ && decide (q.payload.length < 1 + n) then (s, err 0x0116)
    else
      let vs := if all_ then s.lgc.requested.keys else ((q.rest 5).take n).map (fun w => bitsOf w.toNat 15 0)
      let l := { s.lgc with
        forceNew := s.lgc.forceNew.filter (fun p => !vs.contains p.1)
        relNew := s.lgc.relNew ++ (vs.filter (fun v => (s.lgc.forces.get? v).isSome && !s.lgc.relNew.contains v)).dedup }
      ({ s with lgc := l }, ok [BitVec.ofNat 32 l.requested.length])

/-- LGC_RELEASE. -/
def execLgcRelease (dt : Nat) (q : Req) (s : State) : Out :=
  .next ((s.advance dt).serve q 0x0504 0x0A 1 0 true (fun _ s => s.lgcReleaseCmd q))

/-- PARAM that a block can take (R336): no negative PT, hysteresis, rate or time constant. -/
def paramOk (op : Nat) (w : Word) : Bool :=
  if 0x40 ≤ op ∧ op ≤ 0x42 then !w.getLsbD 31
  else if [0x16, 0x17, 0x50, 0x51].contains op then
    (match f32Val w with
      | .nan => false
      | .inf neg => !neg
      | .fin neg q => !neg || q == 0)
  else true

/-- An item of LGC_ONLINE_CHANGE: its failure status, if it has one. -/
def changeFault (im : Image) (x : Nat × Nat × Word) : Option Nat :=
  match x.1 with
  | 0 =>
    match im.vars[x.2.1]? with
    | none => some 0x0106
    | some v => if v.kind ≠ 0 then some 0x0107 else if v.takes x.2.2 then none else some 0x0106
  | 1 =>
    match im.blocks[x.2.1]? with
    | none => some 0x0106
    | some b => if paramOk b.op x.2.2 then none else some 0x0106
  | _ => some 0x0106

/-- LGC_ONLINE_CHANGE (R336, R337): all items together at the next snapshot; those that meet a forced variable are listed
with FORCE_CONFLICT. -/
def State.lgcChange (s : State) (q : Req) : State × Option Ans :=
  match s.lgc.image with
  | none => (s, err 0x010E)
  | some im =>
    let n := (q.w 4).toNat
    let raw := itemsOf 2 n (q.rest 5)
    let items := raw.map (fun l => (wordBits l 0 31 30, wordBits l 0 15 0, l.getD 1 0))
    if n = 0 then (s, err 0x0106)
    else if 1024 < n ∨ q.payload.length < 1 + 2 * n then (s, err 0x0116)
    else
      match firstFail (changeFault im) 0 items with
      | some (i, st) => (s, errItem st i 0)
      | none =>
        let forced := s.lgc.requested
        let meets := fun (x : Nat × Nat × Word) =>
          if x.1 = 0 then (forced.get? x.2.1).isSome
          else im.blocks[x.2.1]?.any (fun b => b.op != 0 && (forced.get? b.out).isSome)
        let listed := ((items.zip raw).filter (fun p => meets p.1)).map (fun p => p.2.getD 0 0)
        let l := items.foldl (fun (l : Lgc) x =>
          if x.1 = 0 then { l with chgVar := l.chgVar.set x.2.1 x.2.2 } else { l with chgPar := l.chgPar.set x.2.1 x.2.2 }) s.lgc
        let notice := if listed.isEmpty then 0 else 0x0122
        ({ s with lgc := l }, ok (BitVec.ofNat 32 (notice * 65536 + listed.length) :: listed))

/-- LGC_ONLINE_CHANGE. -/
def execLgcOnlineChange (dt : Nat) (q : Req) (s : State) : Out :=
  .next ((s.advance dt).serve q 0x0505 0x0A 1 0 true (fun _ s => s.lgcChange q))

/-- LGC_READ_VARS (R342): values and qualities from the state after one output write. -/
def State.lgcReadVars (s : State) (q : Req) : Option Ans :=
  match s.lgc.image with
  | none => err 0x010E
  | some im =>
    let a := q.bits 4 15 0
    let n := (q.w 5).toNat
    if n = 0 then err 0x0106
    else if 4096 < n ∨ im.vars.length < a + n then err 0x0116
    else
      ok ([BitVec.ofNat 32 n] ++ words64 (gtfOpt s.lgc.lastW) ++ ((List.range n).flatMap (fun k =>
        let i := a + k
        let x := s.lgc.written.getD i ⟨0, 1⟩
        let ty := ((im.vars[i]?).map LVar.ty).getD 0
        [x.v, BitVec.ofNat 32 (x.q.toNat * 65536 + bitAt (s.lgc.forces.get? i).isSome 4 +
          bitAt (s.lgc.chgVar.get? i).isSome 5 + ty)])))

/-- LGC_READ_VARS. -/
def execLgcReadVars (dt : Nat) (q : Req) (s : State) : Out :=
  .next ((s.advance dt).serve q 0x0506 0x0A 1 0 true (fun _ s => (s, s.lgcReadVars q)))

/-! ### Parameters reported (R346) -/

/-- LGC.EXEC_US: mean and largest execution time in µs, binary32. -/
def State.execUs (s : State) : List Word :=
  [f32OfRat (if s.lgc.execN = 0 then 0 else (s.lgc.execSum : Rat) / s.lgc.execN / 1000), f32OfRat ((s.lgc.execMax : Rat) / 1000)]

end Sys2Proof.Machine
end

