-- ==== Sys2Proof/Machine/Steam.lean ====
section
/-! DEFINITION. Density and specific enthalpy of water and steam by IAPWS-IF97 (R14, R245 to R247). The rule names the standard;
its equations and coefficients stand here as IAPWS published them (PRESUMED, log 24). They are evaluated in exact numbers; a
square root is a binary64 one, and a density of region 3 is found by bisection. -/

namespace Sys2Proof.Machine

open Sys2Proof

/-! ### The equations -/

/-- A term of an equation: exponents `i` of pressure or density and `j` of inverse temperature, and a coefficient m / 10^e. -/
abbrev IfTerm := Nat × Int × Int × Nat

/-- A power with an integer exponent. -/
def ratPow (q : Rat) : Int → Rat
  | .ofNat n => q ^ n
  | .negSucc n => 1 / q ^ (n + 1)

/-- The coefficient of a term. -/
def ifCoef (t : IfTerm) : Rat := mkRat t.2.2.1 (10 ^ t.2.2.2)

/-- Sum of n · C(i) · x^(i−k) · C'(j) · y^(j−l): the terms after `k` derivatives by `x` and `l` by `y`; `k` and `l` at most 2. -/
def ifSum (k l : Nat) (x y : Rat) (ts : List IfTerm) : Rat :=
  let fall : Nat → Int → Int := fun n e => if n = 0 then 1 else if n = 1 then e else e * (e - 1)
  (ts.map (fun t =>
    let c := fall k t.1 * fall l t.2.1
    if c = 0 then 0 else ifCoef t * (c : Rat) * ratPow x ((t.1 : Int) - k) * ratPow y (t.2.1 - l))).sum

/-- Region 1. -/
def if97Liquid : List IfTerm :=
  [(0, -2, 14632971213167, 14), (0, -1, -84548187169114, 14), (0, 0, -3756360367204, 12), (0, 1, 33855169168385, 13),
   (0, 2, -95791963387872, 14), (0, 3, 15772038513228, 14), (0, 4, -16616417199501, 15), (0, 5, 81214629983568, 17),
   (1, -9, 28319080123804, 17), (1, -7, -60706301565874, 17), (1, -1, -18990068218419, 15), (1, 0, -32529748770505, 15),
   (1, 1, -21841717175414, 15), (1, 3, -5283835796993, 17), (2, -3, -47184321073267, 17), (2, 0, -30001780793026, 17),
   (2, 1, 47661393906987, 18), (2, 3, -44141845330846, 19), (2, 17, -72694996297594, 29), (3, -4, -31679644845054, 18),
   (3, 0, -28270797985312, 19), (3, 6, -85205128120103, 23), (4, -5, -22425281908, 16), (4, -2, -65171222895601, 20),
   (4, 10, -14341729937924, 26), (5, -8, -40516996860117, 20), (8, -11, -12734301741641, 22), (8, -6, -17424871230634, 23),
   (21, -29, -68762131295531, 32), (23, -31, 14478307828521, 33), (29, -38, 26335781662795, 36),
   (30, -39, -11947622640071, 36), (31, -40, 18228094581404, 37), (32, -41, -93537087292458, 39)]

/-- Region 2, ideal part. -/
def if97Ideal : List IfTerm :=
  [(0, 0, -96927686500217, 13), (0, 1, 10086655968018, 12), (0, -5, -5608791128302, 15), (0, -4, 71452738081455, 15),
   (0, -3, -40710498223928, 14), (0, -2, 14240819171444, 13), (0, -1, -4383951131945, 12), (0, 2, -28408632460772, 14),
   (0, 3, 21268463753307, 15)]

/-- Region 2, residual part. -/
def if97Vapour : List IfTerm :=
  [(1, 0, -17731742473213, 16), (1, 1, -17834862292358, 15), (1, 2, -45996013696365, 15), (1, 3, -57581259083432, 15),
   (1, 6, -5032527872793, 14), (2, 1, -33032641670203, 18), (2, 2, -18948987516315, 17), (2, 4, -39392777243355, 16),
   (2, 7, -43797295650573, 15), (2, 36, -26674547914087, 18), (3, 0, 20481737692309, 21), (3, 1, 43870667284435, 20),
   (3, 3, -3227767723857, 17), (3, 6, -15033924542148, 16), (3, 35, -40668253562649, 15), (4, 1, -78847309559367, 23),
   (4, 2, 12790717852285, 21), (4, 3, 48225372718507, 20), (5, 7, 22922076337661, 19), (6, 3, -16714766451061, 24),
   (6, 16, -21171472321355, 16), (6, 35, -23895741934104, 12), (7, 0, -5905956432427, 30), (7, 11, -12621808899101, 19),
   (7, 25, -38946842435739, 15), (8, 8, 11256211360459, 24), (8, 36, -82311340897998, 13), (9, 13, 19809712802088, 21),
   (10, 4, 10406965210174, 32), (10, 10, -10234747095929, 26), (10, 14, -10018179379511, 22), (16, 29, -80882908646985, 24),
   (16, 50, 10693031879409, 14), (18, 57, -33662250574171, 14), (20, 20, 89185845355421, 38), (20, 35, 30629316876232, 26),
   (20, 48, -42002467698208, 19), (21, 21, -59056029685639, 39), (22, 53, 37826947613457, 19),
   (23, 39, -12768608934681, 28), (24, 26, 73087610595061, 42), (24, 40, 55414715350778, 30), (24, 58, -9436970724121, 19)]

/-- Region 3, without its logarithmic term. -/
def if97Dense : List IfTerm :=
  [(0, 0, -15732845290239, 12), (0, 1, 20944396974307, 12), (0, 2, -76867707878716, 13), (0, 7, 26185947787954, 13),
   (0, 10, -2808078114862, 12), (0, 12, 12053369696517, 13), (0, 23, -84566812812502, 16), (1, 2, -12654315477714, 13),
   (1, 6, -11524407806681, 13), (1, 15, 88521043984318, 14), (1, 17, -64207765181607, 14), (2, 0, 38493460186671, 14),
   (2, 2, -85214708824206, 14), (2, 6, 48972281541877, 13), (2, 7, -30502617256965, 13), (2, 22, 39420536879154, 15),
   (2, 26, 12558408424308, 14), (3, 0, -2799932969871, 13), (3, 2, 1389979956946, 12), (3, 4, -2018991502357, 12),
   (3, 16, -82147637173963, 16), (3, 26, -47596035734923, 14), (4, 0, 439840744735, 13), (4, 2, -44476435428739, 14),
   (4, 4, 90572070719733, 14), (4, 26, 70522450087967, 14), (5, 1, 10770512626332, 14), (5, 3, -32913623258954, 14),
   (5, 26, -50871062041158, 14), (6, 0, -22175400873096, 15), (6, 2, 94260751665092, 15), (6, 26, 16436278447961, 14),
   (7, 2, -13503372241348, 15), (8, 26, -14834345352472, 15), (9, 2, 57922953628084, 17), (9, 26, 32308904703711, 16),
   (10, 0, 80964802996215, 18), (10, 1, -16557679795037, 17), (11, 26, -44923899061815, 18)]

/-- The specific gas constant of water, in J/(kg K). -/
def if97R : Rat := 461526 / 1000

/-- A square root, rounded to binary64. -/
def sqrtRat (q : Rat) : Rat := f64Rat (f64Sqrt (f64OfRat q))

/-- Density in kg/m³ and specific enthalpy in J/kg. -/
abbrev Steam := Rat × Rat

/-- Region 1 at `p` MPa and `t` K. -/
def if97Region1 (p t : Rat) : Steam :=
  let x := 71 / 10 - p * 100 / 1653
  let y := 1386 / t - 1222 / 1000
  let v := - ifSum 1 0 x y if97Liquid * if97R * t / 16530000
  (if v = 0 then Config.if97Beyond p t else 1 / v, if97R * 1386 * ifSum 0 1 x y if97Liquid)

/-- Region 2 at `p` MPa and `t` K. -/
def if97Region2 (p t : Rat) : Steam :=
  let y := 540 / t
  let v := (1 / p + ifSum 1 0 p (y - 1 / 2) if97Vapour) * if97R * t / 1000000
  (if v = 0 then Config.if97Beyond p t else 1 / v,
   if97R * 540 * (ifSum 0 1 1 y if97Ideal + ifSum 0 1 p (y - 1 / 2) if97Vapour))

/-- The coefficient of region 3's logarithmic term. -/
def if97Log : Rat := 10658070028513 / 10000000000000

/-- Pressure of region 3 in MPa at density `r` and `t` K. -/
def if97P3 (r t : Rat) : Rat :=
  let d := r / 322
  r * if97R * t * d * (if97Log / d + ifSum 1 0 d (647096 / 1000 / t) if97Dense) / 1000000

/-- The sign of that pressure's slope over density. -/
def if97Slope (r t : Rat) : Rat :=
  let d := r / 322
  let y := 647096 / 1000 / t
  2 * (if97Log / d + ifSum 1 0 d y if97Dense) + d * (ifSum 2 0 d y if97Dense - if97Log / (d * d))

/-- The boundary between `lo`, where `f` does not hold, and `hi`, where it does. -/
def bisect (f : Rat → Bool) : Nat → Rat → Rat → Rat
  | 0, lo, hi => (lo + hi) / 2
  | n + 1, lo, hi => let m := (lo + hi) / 2; if f m then bisect f n lo m else bisect f n m hi

/-- Density of region 3 at `p` MPa and `t` K; below the critical temperature on the liquid or the vapour branch, each up to where
its slope vanishes. -/
def if97Rho3 (liquid : Bool) (p t : Rat) : Rat :=
  let at_ := fun r => decide (p ≤ if97P3 r t)
  if 647096 / 1000 ≤ t then bisect at_ 60 100 770
  else if liquid then bisect at_ 60 (bisect (fun r => decide (0 < if97Slope r t)) 60 322 770) 770
  else bisect at_ 60 100 (bisect (fun r => decide (if97Slope r t < 0)) 60 100 322)

/-- Region 3 at `p` MPa and `t` K. -/
def if97Region3 (liquid : Bool) (p t : Rat) : Steam :=
  let r := if97Rho3 liquid p t
  let d := r / 322
  let y := 647096 / 1000 / t
  (r, if97R * (647096 / 1000 * ifSum 0 1 d y if97Dense + t * (if97Log + d * ifSum 1 0 d y if97Dense)))

/-- Coefficient `k` of the saturation equation (region 4), counted from 1. -/
def if97Sat (k : Nat) : Rat :=
  ([11670521452767 / 10 ^ 10, -72421316703206 / 10 ^ 8, -17073846940092 / 10 ^ 12, 12020824702470 / 10 ^ 9,
    -32325550322333 / 10 ^ 7, 14915108613530 / 10 ^ 12, -48232657361591 / 10 ^ 10, 40511340542057 / 10 ^ 8,
    -23855557567849 / 10 ^ 14, 65017534844798 / 10 ^ 11] : List Rat).getD (k - 1) 0

/-- Saturation pressure in MPa at `t` K. -/
def if97Psat (t : Rat) : Rat :=
  let n := if97Sat
  let th := t + n 9 / (t - n 10)
  let a := th * th + n 1 * th + n 2
  let b := n 3 * (th * th) + n 4 * th + n 5
  let c := n 6 * (th * th) + n 7 * th + n 8
  let x := 2 * c / (sqrtRat (b * b - 4 * a * c) - b)
  x ^ 4

/-- Saturation temperature in K at `p` MPa. -/
def if97Tsat (p : Rat) : Rat :=
  let n := if97Sat
  let b2 := sqrtRat p
  let b := sqrtRat b2
  let e := b2 + n 3 * b + n 6
  let f := n 1 * b2 + n 4 * b + n 7
  let g := n 2 * b2 + n 5 * b + n 8
  let d := -(2 * g / (f + sqrtRat (f * f - 4 * e * g)))
  (n 10 + d - sqrtRat ((n 10 + d) * (n 10 + d) - 4 * (n 9 + n 10 * d))) / 2

/-- The boundary between regions 2 and 3 in MPa at `t` K. -/
def if97B23 (t : Rat) : Rat :=
  34805185628969 / 10 ^ 11 - 11671859879975 / 10 ^ 13 * t + 10192970039326 / 10 ^ 16 * (t * t)

/-! ### What a step asks for (R245) -/

/-- Saturated vapour (region 4, x = 1). -/
def if97Saturated (p t : Rat) : Steam := if t ≤ 62315 / 100 then if97Region2 p t else if97Region3 false p t

/-- STEAM at `p` Pa and `t` K by word 0 of CUS.STEAM (R245): 0 the region given by pressure and temperature; 1 and 2 saturated
vapour from pressure alone and from temperature alone. Above the critical point there is none: open (log 24). -/
def if97State (mode : Nat) (p t : Rat) : Steam :=
  let m := p / 1000000
  match mode with
  | 0 =>
    if t ≤ 62315 / 100 then (if if97Psat t < m then if97Region1 m t else if97Region2 m t)
    else if t ≤ 86315 / 100 ∧ if97B23 t < m then if97Region3 (decide (t < 647096 / 1000) && decide (if97Psat t < m)) m t
    else if97Region2 m t
  | 1 => if m ≤ 22064 / 1000 then if97Saturated m (if97Tsat m) else (Config.if97Beyond p 0, Config.if97Beyond p 1)
  | _ => if t ≤ 647096 / 1000 then if97Saturated (if97Psat t) t else (Config.if97Beyond 0 t, Config.if97Beyond 1 t)

end Sys2Proof.Machine
end

