-- ==== Sys2Proof/Machine/Custody.lean ====
section
/-! DEFINITION. The custody engine (09): registers, steps by input kind, gaps, DIRECTION, saves and boots, profile records
and their commands. -/

namespace Sys2Proof.Machine

open Sys2Proof

/-! ### Points -/

/-- A point. -/
def State.point (s : State) (p : Nat) : Point := s.cus.point.getD p Point.init

/-- Replace a point. -/
def State.setPoint (s : State) (p : Nat) (x : Point) : State :=
  { s with cus := { s.cus with point := s.cus.point.put Point.init p x } }

/-- The definition a point runs under. -/
def Point.defn (x : Point) : PointDef := pointDefOf x.word

/-- The point runs. -/
def Point.running (x : Point) : Bool := x.word != 0 && !x.stopped

/-- The points that have an account: they run, or their last record is still to be made. -/
def State.accounts (s : State) : List Nat := (s.cus.point.filter (fun p => p.2.word != 0)).map Prod.fst

/-- UNIT code of register `n` (R237). -/
def Point.unitCode (x : Point) (n : Nat) : Nat := bitsOf x.units (8 * n + 7) (8 * n)

/-- A power of ten. -/
def pow10 (e : Int) : Rat :=
  match e with
  | .ofNat n => (10 ^ n : Nat)
  | .negSucc n => mkRat 1 (10 ^ (n + 1))

/-- What one unit of a UNIT code is in J, var s, kg, m³ or input unit × s (R237). -/
def unitSize (code : Nat) : Rat :=
  pow10 ((code % 16 : Nat) - 3) * (match code / 16 with | 0 | 1 => 3600 | 5 => 1 | _ => 1 / 1000)

/-! ### Registers (R237) -/

/-- Add 10⁻⁹ units to a register. -/
def Reg.add (r : Reg) (n : Nat) : Reg :=
  let fine := r.fine + n
  let value := r.value + fine / 1000000000
  { value := value % 1000000000000, roll := (r.roll + value / 1000000000000) % 65536, fine := fine % 1000000000 }

/-- The neighbour of a quantity in 10⁻⁹ units; which one is open (log 28). -/
def roundFine (q : Rat) : Nat :=
  let f := (ratFloor q).toNat
  if q = (f : Rat) then f else if Config.fineUp q then f + 1 else f

/-- The registers of the engine: legal or provisional. -/
def State.regsOf (s : State) (prov : Bool) : AMap Reg := if prov then s.cus.prov else s.cus.regs

/-- Register `n` of a point. -/
def State.reg (s : State) (prov : Bool) (p n : Nat) : Reg := (s.regsOf prov).getD (8 * p + n) Reg.init

/-- The provisional registers are in use: after a tamper, and in SAFE (R28, R257, R260). -/
def State.provisional (s : State) : Bool := s.cus.frozen || s.pwr.dev == .safe

/-- LEGAL of what a point shows now (R2, R28, R257, R258, R260). -/
def State.legal (s : State) (p : Nat) : Bool :=
  s.sealedBit && !s.provisional && (s.point p).lastTaken.any (fun t => decide (s.cus.legalFrom ≤ t))

/-- A quantity, in SI, in 10⁻⁹ units of register `n` of a point (R237). -/
def State.fineUnits (s : State) (p n : Nat) (amount : Rat) : Nat :=
  roundFine (amount / unitSize ((s.point p).unitCode n) * 1000000000)

/-- Take 10⁻⁹ units off a register: what it held before they were added. -/
def Reg.less (r : Reg) (n : Nat) : Reg :=
  let top := 65536 * 10 ^ 21
  let t := (r.roll * 10 ^ 21 + r.value * 10 ^ 9 + r.fine + top - n % top) % top
  { value := t / 10 ^ 9 % 10 ^ 12, roll := t / 10 ^ 21, fine := t % 10 ^ 9 }

/-- Register `n` of a point at the end `stop` of its running interval: without the steps booked ahead that start after it
(R250, R254). -/
def State.regAt (s : State) (prov : Bool) (p n stop : Nat) : Reg :=
  let later := (s.point p).ahead.filter (fun a => decide (stop ≤ a.start) && (prov || a.legal))
  (s.reg prov p n).less ((later.map (fun a => a.units.getD n 0)).sum)

/-- Add a quantity, in SI, to register `n` of a point: to the provisional registers always, to the legal ones unless they
are frozen or the module is in SAFE (R28, R239, R257, R260). -/
def State.register (s : State) (p n : Nat) (amount : Rat) : State :=
  let k := s.fineUnits p n amount
  let put := fun (m : AMap Reg) => m.put Reg.init (8 * p + n) ((m.getD (8 * p + n) Reg.init).add k)
  { s with cus := { s.cus with
      prov := put s.cus.prov, regs := if s.provisional then s.cus.regs else put s.cus.regs } }

/-! ### Profile intervals (R254) -/

/-- The profile interval of a point, in ns. -/
def State.profileNs (s : State) (p : Nat) : Nat := 60 * sec * s.parN Par.CUS.PROFILE_MIN p

/-- The first instant after `t` whose UTC time of day is a multiple of `per`. -/
def State.boundaryAfter (s : State) (per t : Nat) : Nat :=
  let u := s.utcOfTai t
  (s.taiOfUtc ((u / (per : Int) + 1) * per)).toNat

/-- The last such instant at or before `t`. -/
def State.boundaryBefore (s : State) (per t : Nat) : Nat :=
  let u := s.utcOfTai t
  (s.taiOfUtc (u / (per : Int) * per)).toNat

/-- `t` is such an instant. -/
def State.isBoundary (s : State) (per t : Nat) : Bool := decide (s.utcOfTai t % (per : Int) = 0)

/-- End of the running interval of a point. -/
def State.intervalEnd (s : State) (p : Nat) : Nat := s.boundaryAfter (s.profileNs p) (s.point p).closed

/-! ### Gaps (R248, R249) -/

/-- BOUND of a gap of `ns`: CUS.MAX_RATE × the time, in the unit of register 0 (R249). -/
def State.gapBound (s : State) (p ns : Nat) : Word :=
  match f32Val (s.parW Par.CUS.MAX_RATE p) with
  | .fin _ r => if ns = 0 then 0 else f32OfRat (r * ns / sec / unitSize ((s.point p).unitCode 0))
  | v => if ns = 0 then Config.noGapBound else f32Of v

/-- The longest time one GAP record says, in s. -/
abbrev gapMost : Nat := 1048575

/-- GAP records of a gap of `ns` from `a`; a longer one is split into consecutive records (R249). -/
def State.gapRecords (s : State) : Nat → Nat → Nat → Nat → Nat → State
  | 0, _, _, _, _ => s
  | k + 1, p, reason, a, ns =>
    let n := min ns (gapMost * sec)
    let par := BitVec.ofNat 64 (p * 2 ^ 55 + reason * 2 ^ 52 + (n + sec - 1) / sec * 2 ^ 32 + (s.gapBound p n).toNat)
    (s.logCus 0x0901 a par).gapRecords k p reason (a + n) (ns - n)

/-- Write the GAP records of a gap. -/
def State.gapRecord (s : State) (p reason a ns : Nat) : State :=
  s.gapRecords ((ns + gapMost * sec - 1) / (gapMost * sec)) p reason a ns

/-- A gap known whole is recorded at once; the part of it within the running interval counts in that interval (R249,
R252). -/
def State.gapNow (s : State) (p reason a b : Nat) : State :=
  if a < b then
    let x := s.point p
    (s.setPoint p { x with extra := x.extra + (b - max a (min x.closed b)) }).gapRecord p reason a (b - a)
  else s

/-- Gap time from `a` to `b` is merged into the running interval (R249). -/
def State.gapMerge (s : State) (p reason a b : Nat) : State :=
  let x := s.point p
  s.setPoint p { x with
    gaps := x.gaps.set reason (x.gaps.getD reason 0 + (b - a))
    gapFrom := some (match x.gapFrom with | some g => min g a | none => a) }

/-- The merged gap of the running interval, in ns. -/
def Point.mergedNs (x : Point) : Nat := (x.gaps.map Prod.snd).sum

/-- The one GAP record of an interval that had gap steps (R249). -/
def State.gapClose (s : State) (p : Nat) : State :=
  let x := s.point p
  match x.gapFrom with
  | none => s
  | some a =>
    let l := x.gaps.keys
    s.gapRecord p (l.getD (Config.mergedReason l % max l.length 1) 0) a x.mergedNs

/-! ### Profile records (R254 to R256) -/

/-- Records the MRAM store holds (R256). -/
abbrev profileStore : Nat := 285975

/-- The whole ms of a gap time; the neighbour is open (log 28). -/
def gapMs (ns : Nat) : Nat :=
  min (if ns % 1000000 = 0 then ns / 1000000 else ns / 1000000 + (if Config.gapMsUp ns then 1 else 0)) (2 ^ 22 - 1)

/-- NREG of a type. -/
def PointDef.nreg (d : PointDef) : Nat := d.bases.length

/-- The two words of a register in a record or a reply: VALUE_LO; ROLL, UNIT, VALUE_HI (R254, R259). -/
def regWords (r : Reg) (unit : Nat) : List Word :=
  [BitVec.ofNat 32 r.value, BitVec.ofNat 32 (r.roll * 65536 + unit * 256 + r.value / 2 ^ 32)]

/-- The 22 content words of a record (R254). -/
def State.profileWords (s : State) (p seq : Nat) (flags : Half) (stop ns : Nat) : List Word :=
  let x := s.point p
  let d := x.defn
  let slot := s.parN Par.CUS.SIGN_SLOT 0
  [BitVec.ofNat 32 (p * 2 ^ 23 + d.ty * 2 ^ 20 + d.nreg * 2 ^ 16 + flags.toNat), BitVec.ofNat 32 seq,
   BitVec.ofNat 32 (stop / sec), BitVec.ofNat 32 (s.parN Par.CUS.PROFILE_MIN p * 2 ^ 26 + gapMs ns), s.gapBound p ns,
   BitVec.ofNat 32 (slot * 2 ^ 24 + s.cus.sealCtr.toNat % 2 ^ 24)] ++
  (List.range 8).flatMap (fun n => if n < d.nreg then regWords (s.regAt s.provisional p n stop) (x.unitCode n) else [0, 0])

/-- The vault signs profile records now: it runs, the module is not in SAFE, and the slot fits (R255). -/
def State.canSign (s : State) : Bool :=
  let k := s.keySlot (s.parN Par.CUS.SIGN_SLOT 0)
  s.runs 0x0D && s.up && s.pwr.dev != .safe && k.usable && k.has 0 && k.has 7 && k.ty == 1

/-- Time of the gaps still open that lies in the running interval, up to its end `stop` (R249, R254). -/
def Point.openNs (x : Point) (stop : Nat) : Nat := (x.pend.map (fun g => stop - max g.2 (min x.closed stop))).sum

/-- The task that sends PROFILE_READY of a boundary (R388). -/
def profileTask (t : Nat) : Nat := t / sec

/-- The first record of a boundary is made or refused: its PROFILE_READY task waits for that of every point (R256, R388). -/
def State.boundaryFirst (s : State) (stop : Nat) : State :=
  if (s.cus.ready.get? stop).isSome then s
  else
    let n := (s.accounts.filter (fun p => decide ((s.point p).closed < stop) && s.isBoundary (s.profileNs p) stop)).length
    s.taskWaits 10 (profileTask stop) n

/-- The steps booked ahead that belong to the running interval, up to `stop`, enter it; those up to the frontier are done with
(R249, R250). -/
def State.absorb (s : State) (p stop : Nat) : State :=
  let x := s.point p
  let now := x.ahead.filter (fun a => decide (a.start < stop))
  let s := now.foldl (fun (s : State) (a : Ahead) => match a.gap with
    | some r => s.gapMerge p r a.start a.stop
    | none => s) s
  let x := s.point p
  s.setPoint p { x with
    flags := if now.any Ahead.outStd then qSet x.flags 0x100 else x.flags
    ahead := (x.ahead.filter (fun a => decide (stop ≤ a.start) || decide (x.tail ≤ a.start))).map (fun (a : Ahead) =>
      if a.start < stop then { a with gap := none, outStd := false } else a) }

/-- The interval of a point that ends at `stop` closes: its GAP record, then its profile record, made or refused, with
further `flags` (R249, R254, R256). -/
def State.closeInterval (s : State) (p stop : Nat) (flags : Nat) : State :=
  let s := s.boundaryFirst stop
  let x := s.point p
  let ns := x.mergedNs + x.extra + x.openNs stop
  let s := s.gapClose p
  let y : Point := { x with
    closed := stop, gaps := [], gapFrom := none, extra := 0, flags := 0
    word := if x.stopped then 0 else x.word, stopped := false }
  let tally := s.cus.ready.getD stop (0, 0)
  if profileStore ≤ s.cus.records.length then
    let s := { s with cus := { s.cus with ready := s.cus.ready.set stop (tally.1, tally.2 + 1) } }
    let s := (s.setPoint p { y with refused := true, flags := x.flags }).count2 0x0905 (p + 1) 1
    (s.absorb p (s.intervalEnd p)).prerequisiteDone (profileTask stop)
  else
    let f := qSet x.flags (flags + bitAt (s.legal p) 0 + bitAt (ns != 0) 1 + bitAt x.refused 7 + bitAt s.provisional 9 +
      bitAt (!s.canSign) 11)
    let slot := s.parN Par.CUS.SIGN_SLOT 0
    let r : Profile :=
      { point := p, seq := x.seq + 1, words := s.profileWords p (x.seq + 1) f stop ns, sig := [], slot := slot
        gen := (s.keySlot slot).gen }
    let s := { s with cus := { s.cus with
      records := s.cus.records ++ [r], ready := s.cus.ready.set stop (tally.1 + 1, tally.2) } }
    let s := (s.setPoint p { y with seq := x.seq + 1, refused := false }).count2 0x0904 (p + 1) 1
    (s.absorb p (s.intervalEnd p)).prerequisiteDone (profileTask stop)

/-- A record of this boundary is still to be made. -/
def State.boundaryOpen (s : State) (t : Nat) : Bool :=
  s.accounts.any (fun p => decide ((s.point p).closed < t) && s.isBoundary (s.profileNs p) t)

/-- Every point's record for a boundary is made or refused: PROFILE_GAP where some were refused, the alarm; and the
PROFILE_READY task, ready since its counter reached 0, runs (R256, R388). -/
def State.boundaryDone (s : State) (t : Nat) : State :=
  match s.cus.ready.get? t with
  | none => s
  | some (made, refused) =>
    if s.boundaryOpen t then s
    else
      let s := { s with cus := { s.cus with ready := s.cus.ready.erase t } }
      let s := if refused = 0 then s else s.logCus 0x0903 s.now (evPar refused (t / sec))
      let s := s.alarm 9 3 0 (refused != 0) s.now
      if s.ctl.ready.any (fun (x : Nat × Nat × Nat) => x.1 == 10 && x.2.1 == profileTask t) then
        (s.taskRun (profileTask t)).notify 0xC00A 0 9
          [BitVec.ofNat 32 (t / sec), BitVec.ofNat 32 made, BitVec.ofNat 32 s.cus.records.length, BitVec.ofNat 32 refused]
      else s

/-- Every boundary whose records are complete. -/
def State.boundariesDone (s : State) : State := (s.cus.ready.keys).foldl State.boundaryDone s

/-- A step at `g` is booked ahead of the frontier. -/
def Point.booked (x : Point) (g : Nat) : Bool := x.ahead.any (fun a => decide (a.start ≤ g) && decide (g < a.stop))

/-- The frontier passes the steps booked ahead that no grid instant of rate `r` keeps it from; at most `n`. -/
def Point.forward (r : Nat) : Nat → Point → Point
  | 0, x => x
  | n + 1, x =>
    match x.ahead.find? (fun a => decide (x.tail ≤ a.start) && gridCount r x.tail a.start == 0) with
    | some a => Point.forward r n { x with tail := max x.tail a.stop }
    | none => x

/-- Until when a point's steps are taken or can no longer come: now for LOCAL, SV and PULSE, and for ALIGNED the earliest slot
held whose final edition is not taken yet, or the instant up to which every slot has passed its horizon (R254). -/
def State.cusLimit (s : State) (p : Nat) : Nat :=
  let x := s.point p
  if x.stopped || x.defn.kind != 2 then s.now
  else
    let d := s.podDef x.defn.pod
    let past := s.now - (d.waitNs + d.horizonNs + sec / max d.rate 1 + 1000)
    let held := ((s.podSt x.defn.pod).slots.filter (fun z => decide (x.tail ≤ z.1) && !x.booked z.1)).map Prod.fst
    max x.tail (held.foldl min past)

/-- Slots that never existed between the frontier and `stop`, among the steps booked, are gap steps of reason 4 (R174, R248). -/
def State.bookHole (s : State) (p stop : Nat) : State :=
  let x := s.point p
  let a := max x.tail x.closed
  if x.stopped || x.defn.kind != 2 || !x.pend.isEmpty || decide (stop ≤ a) then s
  else
    let r := (s.podDef x.defn.pod).rate
    let between := x.ahead.filter (fun y => decide (a ≤ y.start) && decide (y.start < stop))
    let n := gridCount r a stop - (between.map (fun y => gridCount r y.start y.stop)).sum
    let ns := (stop - a) - (between.map (fun y => min y.stop stop - y.start)).sum
    let s := if n = 0 then s else
      let s := (s.gapMerge p 4 a (a + ns)).count2 0x0901 (p + 1) n
      s.setPoint p { s.point p with inGap := true }
    s.setPoint p { s.point p with tail := stop }

/-- Close the intervals of a point that end at or before `lim`, oldest first, at most `n`. -/
def State.closeDue (s : State) : Nat → Nat → Nat → State
  | 0, _, _ => s
  | n + 1, p, lim =>
    let e := s.intervalEnd p
    if (s.point p).word != 0 && decide (e ≤ lim) then
      ((s.bookHole p e).closeInterval p e 0).closeDue n p lim
    else s

/-- Close every interval of a point that ends at or before `lim`. -/
def State.closeUpTo (s : State) (p lim : Nat) : State :=
  s.closeDue ((lim - (s.point p).closed) / (60 * sec) + 1) p lim

/-! ### DIRECTION (R244) -/

/-- A sign that has persisted for CUS.REV_DEBOUNCE_MS changes DIRECTION: the REVERSE record, the alarm, the flag of the
running record. -/
def State.directionDue (s : State) (p : Nat) : State :=
  let x := s.point p
  match x.signSince with
  | none => s
  | some a =>
    let t := a + 1000000 * s.parN Par.CUS.REV_DEBOUNCE_MS p
    if x.tail < t then s
    else
      let rev := decide (x.sign < 0)
      let s := s.setPoint p { x with reverse := rev, sign := 0, signSince := none, flags := qSet x.flags 4 }
      let s := s.logCus 0x0902 t (evPar 0 (p + bitAt rev 16))
      (s.alarm 9 1 p rev t).count2 0x0909 (p + 1) 1

/-- The sign of a step from `a` to `b` enters the debounce; 0 does not interrupt it. A step that comes after a later one only
cuts a run of the other sign down to what follows it. -/
def Point.takeSign (x : Point) (sgn : Int) (a b : Nat) : Point :=
  if sgn = 0 then x
  else if x.lastTaken.any (fun t => decide (a < t)) then
    (if x.sign = 0 ∨ x.sign = sgn then x else { x with signSince := x.signSince.map (max b) })
  else if (decide (sgn < 0)) = x.reverse then { x with sign := 0, signSince := none }
  else if x.sign = sgn then x
  else { x with sign := sgn, signSince := some a }

/-- DIRECTION_DEBOUNCE. -/
def execDirectionDebounce (dt : Nat) (point : Nat) (s : State) : Out :=
  let s := s.advance dt
  .next (if s.measuring && s.runs 9 && (s.point point).running then s.directionDue point else s)

/-! ### What a step gives (R239 to R248) -/

/-- The outcome of a step: a gap with its reason; suppressed by R242; or the sign of P or of flow, register amounts in SI, and
whether it was out of the orifice standard. -/
inductive StepQty where
  | gap (reason : Nat)
  | below
  | add (sign : Int) (parts : List (Nat × Rat)) (outStd : Bool)
  deriving DecidableEq, Repr

/-- A binary32 input as a number; what an infinity stands for is open (log 27). -/
def inRat (w : Word) : Rat := (f32Val w).rat?.getD (Config.infRat w)

/-- A quotient; by zero it is open (log 27). -/
def divRat (a b : Rat) : Rat := if b = 0 then Config.divZero a else a / b

/-- The sign of a number. -/
def sgnRat (q : Rat) : Int := if q < 0 then -1 else if 0 < q then 1 else 0

/-- Magnitude. -/
def absRat (q : Rat) : Rat := if q < 0 then -q else q

/-- Word `k` of a BLOB parameter as a number. -/
def State.parRat (s : State) (id inst k : Nat) : Rat := inRat ((s.par id inst).getD k 0)

/-- A logarithm, a cosine, a sine: binary64 functions whose rounding is open (log 9). -/
def lnRat (q : Rat) : Rat := f64Rat (f64Ln (f64OfRat q))
/-- Cosine. -/
def cosRat (q : Rat) : Rat := f64Rat (f64Cos (f64OfRat q))
/-- Sine. -/
def sinRat (q : Rat) : Rat := f64Rat (f64Sin (f64OfRat q))

/-- The used breakpoints of a CUS.CORR instance: X in %, GAIN_PPM, PHASE_URAD (R241). -/
def State.corrPoints (s : State) (inst : Nat) : List (Rat × Rat × Rat) :=
  ((List.range 9).map (fun k => (s.parRat Par.CUS.CORR inst (3 * k), s.parRat Par.CUS.CORR inst (3 * k + 1),
    s.parRat Par.CUS.CORR inst (3 * k + 2)))).takeWhile (fun b => decide (0 < b.1))

/-- Gain and phase at X: linear in log X between breakpoints, the nearest end outside (R241). -/
def corrAt (x : Rat) : List (Rat × Rat × Rat) → Rat × Rat
  | [] => (0, 0)
  | [b] => b.2
  | a :: b :: l =>
    if x ≤ a.1 then a.2
    else if x < b.1 then
      let t := divRat (lnRat x - lnRat a.1) (lnRat b.1 - lnRat a.1)
      (a.2.1 + t * (b.2.1 - a.2.1), a.2.2 + t * (b.2.2 - a.2.2))
    else corrAt x (b :: l)

/-- P and Q of a phase after correction (R240): `gv`, `av` of the voltage and `gi`, `ai` of the current, in ppm and µrad. -/
def phaseCorrected (p q gv av gi ai : Rat) : Rat × Rat :=
  let g := (1 + gv / 1000000) * (1 + gi / 1000000)
  let phi := (ai - av) / 1000000
  (g * (p * cosRat phi - q * sinRat phi), g * (q * cosRat phi + p * sinRat phi))

/-- The samples of a phase: voltage and current in primary values, oldest first; the last `n` are the step's. -/
structure Phase where
  index : Nat
  volts : List Rat
  amps  : List Rat
  deriving DecidableEq, Repr

/-- The mean of the last `n` products. -/
def meanProduct (n : Nat) (a b : List Rat) : Rat :=
  divRat ((((a.reverse.take n).zip (b.reverse.take n)).map (fun x => x.1 * x.2)).sum) n

/-- The product of the Hilbert transformer's output and the current delayed by 127 samples, `k` samples before the newest
(R240). -/
def Phase.quadrature (f : Phase) (k : Nat) : Rat :=
  let v := (f.volts.reverse.drop k).take 255
  let h := if v.length = 255 then Config.hilbert v else Config.noHistory v.length
  h * ((f.amps.reverse.drop (k + 127)).headD (Config.noHistory 0))

/-- P, Q and rms current of a phase over a step of `n` samples, corrected (R240, R241). -/
def State.phasePower (s : State) (p n : Nat) (f : Phase) : Rat × Rat × Rat :=
  let pw := meanProduct n f.volts f.amps
  let q := divRat (((List.range n).map f.quadrature).sum) n
  let rms := f64Rat (f64Sqrt (f64OfRat (meanProduct n f.amps f.amps)))
  let x := divRat (100 * rms) (s.parRat Par.CUS.NOMINAL p 1)
  let (gi, ai) := corrAt x (s.corrPoints (3 * p + f.index))
  let c := phaseCorrected pw q (s.parRat Par.CUS.VT_CORR (3 * p + f.index) 0) (s.parRat Par.CUS.VT_CORR (3 * p + f.index) 1) gi ai
  (c.1, c.2, rms)

/-- Start-up current I_ST (R242). -/
def State.iStart (s : State) (p : Nat) : Rat := inRat (s.parW Par.CUS.IST_PCT p) / 100 * s.parRat Par.CUS.NOMINAL p 1

/-- No-load threshold P_NL (R242). -/
def State.noLoad (s : State) (p : Nat) (d : PointDef) : Rat :=
  (match d.conn with | 0 => 3 | 1 => 2 | _ => 1) * s.parRat Par.CUS.NOMINAL p 0 * s.iStart p / 2

/-- The registers a step of active power `pw` and reactive power `q` over `t` seconds goes to (R240). -/
def elecParts (pw q t : Rat) : List (Nat × Rat) :=
  (if 0 < pw then [(0, pw * t)] else if pw < 0 then [(1, -pw * t)] else []) ++
  (if 0 < q then [(if 0 ≤ pw then 2 else 3, q * t)] else if q < 0 then [(if pw < 0 then 4 else 5, -q * t)] else [])

/-- An ELEC step; `rms` are the phase rms currents, none of an ALIGNED point (R242). -/
def State.elecQty (s : State) (p : Nat) (d : PointDef) (pw q t : Rat) (rms : List Rat) : StepQty :=
  if rms.any (fun i => decide (s.iStart p ≤ i)) || decide (s.noLoad p d ≤ absRat pw) then
    .add (sgnRat pw) (elecParts pw q t) false
  else .below

/-- A quantity of one flow into the register of its direction: `n` the forward register (R239). -/
def flowPart (n : Nat) (x : Rat) : List (Nat × Rat) := if 0 < x then [(n, x)] else if x < 0 then [(n + 1, -x)] else []

/-! ### Pipe quantities (R245 to R247) -/

/-- R_air in J/(kg K). -/
def rAir : Rat := 28705 / 100

/-- Pressure or temperature outside R245's range. -/
def rangeBad (p t : Rat) : Bool :=
  decide (p < 611213 / 1000) || decide (100000000 < p) || decide (t < 27315 / 100) || decide (107315 / 100 < t)

/-- The discharge coefficient of Reader-Harris/Gallagher: `b` = β, `re` the pipe Reynolds number, `l1` and `l2` the tapping
distances in pipe diameters, `dmm` the pipe diameter in mm (R246; the equation of ISO 5167-2, PRESUMED, log 30). -/
def dischargeCoef (b re l1 l2 dmm : DWord) : DWord :=
  let q := fun (n d : Int) => f64OfRat ((n : Rat) / (d : Rat))
  let b4 := f64Mul (f64Mul b b) (f64Mul b b)
  let a := f64Pow (f64Div (f64Mul (q 19000 1) b) re) (q 8 10)
  let m2 := f64Div (f64Mul (q 2 1) l2) (f64Sub (q 1 1) b)
  let m := f64Div (q 1000000 1) re
  let t1 := f64Add (q 5961 10000) (f64Sub (f64Mul (q 261 10000) (f64Mul b b)) (f64Mul (q 216 1000) (f64Mul b4 b4)))
  let t2 := f64Mul (q 521 1000000) (f64Pow (f64Mul m b) (q 7 10))
  let t3 := f64Mul (f64Mul (f64Add (q 188 10000) (f64Mul (q 63 10000) a)) (f64Pow b (q 7 2))) (f64Pow m (q 3 10))
  let e := f64Sub (f64Add (q 43 1000) (f64Mul (q 80 1000) (f64Exp (f64Mul (q (-10) 1) l1))))
    (f64Mul (q 123 1000) (f64Exp (f64Mul (q (-7) 1) l1)))
  let t4 := f64Mul (f64Mul e (f64Sub (q 1 1) (f64Mul (q 11 100) a))) (f64Div b4 (f64Sub (q 1 1) b4))
  let t5 := f64Mul (f64Mul (q 31 1000) (f64Sub m2 (f64Mul (q 8 10) (f64Pow m2 (q 11 10))))) (f64Pow b (q 13 10))
  let t6 := if f64Lt dmm (q 7112 100) then
    f64Mul (f64Mul (q 11 1000) (f64Sub (q 75 100) b)) (f64Sub (q 28 10) (f64Div dmm (q 254 10))) else 0
  f64Add (f64Sub (f64Add (f64Add (f64Add t1 t2) t3) t4) t5) t6

/-- Iterate the mass flow on the Reynolds number until successive flows differ by less than 1 part in 10⁹, at most `n` more
times (R246): `flow` gives the next flow from one. -/
def orificeIterate (flow : DWord → DWord) : Nat → DWord → DWord
  | 0, m => m
  | n + 1, m =>
    let m' := flow m
    if f64Lt (f64Abs (f64Sub m' m)) (f64Mul (f64OfRat (1 / 1000000000)) (f64Abs m')) then m' else orificeIterate flow n m'

/-- The mass flow of an orifice at a differential pressure, pressure, temperature and upstream density, and whether the step is
out of the standard (R246). -/
def State.orificeFlow (s : State) (p : Nat) (dpw pw tw : Word) (rho : Rat) : Rat × Bool :=
  let w := fun k => f64OfRat (s.parRat Par.CUS.ORIFICE p k)
  let tap := ((s.par Par.CUS.ORIFICE p).getD 2 0).toNat
  let q := fun (n d : Int) => f64OfRat ((n : Rat) / (d : Rat))
  let dp := f64OfRat (absRat (inRat dpw))
  let pr := f64OfRat (inRat pw)
  let warm := f64OfRat (inRat tw - 29315 / 100)
  let dd := f64Mul (w 0) (f64Add (q 1 1) (f64Mul (w 3) warm))
  let d := f64Mul (w 1) (f64Add (q 1 1) (f64Mul (w 4) warm))
  let b := f64Div d dd
  let b4 := f64Mul (f64Mul b b) (f64Mul b b)
  let dmm := f64Mul (q 1000 1) dd
  let (l1, l2) := if tap = 1 then (f64Div (q 254 10) dmm, f64Div (q 254 10) dmm)
    else if tap = 2 then (q 1 1, q 47 100) else (0, 0)
  let ratio := f64Pow (f64Sub (q 1 1) (f64Div dp pr)) (f64Div (q 1 1) (w 6))
  let eps := f64Sub (q 1 1) (f64Mul (f64Add (q 351 1000) (f64Add (f64Mul (q 256 1000) b4) (f64Mul (q 93 100) (f64Mul b4 b4))))
    (f64Sub (q 1 1) ratio))
  let base := f64Mul (f64Mul (f64Div eps (f64Sqrt (f64Sub (q 1 1) b4))) (f64Mul (f64OfRat (piRat / 4)) (f64Mul d d)))
    (f64Sqrt (f64Mul (f64Mul (q 2 1) dp) (f64OfRat rho)))
  let re := fun m => f64Div (f64Mul (q 4 1) m) (f64Mul (f64Mul (f64OfRat piRat) (w 5)) dd)
  let flow := fun m => f64Mul (dischargeCoef b (re m) l1 l2 dmm) base
  let m := orificeIterate flow 10 base
  let low := if tap = 1 then
      f64Lt (re m) (q 5000 1) || f64Lt (re m) (f64Mul (f64Mul (q 170 1) (f64Mul b b)) dmm)
    else if f64Le b (q 56 100) then f64Lt (re m) (q 5000 1) else f64Lt (re m) (f64Mul (q 16000 1) (f64Mul b b))
  let value := if inRat dpw < 0 then Config.orificeBack dpw pw tw
    else if f64Finite m then f64Rat m else Config.orificeBack dpw pw tw
  (value, low || f64Lt (q 1 4) (f64Div dp pr))

/-- The flow of a pipe point by FLOW_MODE: what the cut-off tests, the mass flow or the volume flow, and whether it is out of
the standard. `rho` is the density at line conditions (R242, R246). -/
def State.pipeFlow (s : State) (p : Nat) (d : PointDef) (fw pw tw : Word) (rho : Rat) : Rat × Bool :=
  if d.flow = 2 then s.orificeFlow p fw pw tw rho else (inRat fw, false)

/-- |flow| is below CUS.LOW_FLOW (R242). -/
def State.cutOff (s : State) (p : Nat) (flow : Rat) : Bool := decide (absRat flow < inRat (s.parW Par.CUS.LOW_FLOW p))

/-- A STEAM step (R245, R246). -/
def State.steamQty (s : State) (p : Nat) (d : PointDef) (pw tw fw : Word) (t : Rat) : StepQty :=
  if rangeBad (inRat pw) (inRat tw) then .gap 6
  else
  let ws := s.par Par.CUS.STEAM p
  let x := if97State (ws.getD 0 0).toNat (inRat pw) (inRat tw)
  let h := x.2 - inRat (ws.getD 1 0)
  if h < 0 then .gap 6
  else
    let rho := x.1
    let (f, out) := s.pipeFlow p d fw pw tw rho
    if s.cutOff p f then .below
    else
      let m := (if d.flow = 1 then f * rho else f) * t
      .add (sgnRat m) (flowPart 0 m ++ flowPart 2 (m * h)) out

/-- An AIR step (R246, R247). -/
def State.airQty (s : State) (p : Nat) (d : PointDef) (pw tw fw : Word) (t : Rat) : StepQty :=
  if rangeBad (inRat pw) (inRat tw) then .gap 6
  else
    let pn := s.parRat Par.CUS.AIR_REF p 0
    let tn := s.parRat Par.CUS.AIR_REF p 1
    let ratio := s.parRat Par.CUS.AIR_REF p 2
    let rho := divRat (inRat pw) (divRat Config.airZn ratio * rAir * inRat tw)
    let (f, out) := s.pipeFlow p d fw pw tw rho
    if s.cutOff p f then .below
    else
      let v := if d.flow = 1 then f * divRat (inRat pw) pn * divRat tn (inRat tw) * ratio
        else divRat f (divRat pn (Config.airZn * rAir * tn))
      .add (sgnRat f) (flowPart 0 (v * t)) out

/-- A WATER step from a pod (R247). -/
def State.waterQty (s : State) (p : Nat) (d : PointDef) (fw pw tw : Word) (t : Rat) : StepQty :=
  if rangeBad (inRat pw) (inRat tw) then .gap 6
  else
    let rho := (if97Region1 (inRat pw / 1000000) (inRat tw)).1
    let (f, out) := s.pipeFlow p d fw pw tw rho
    if s.cutOff p f then .below
    else .add (sgnRat f) (flowPart 0 ((if d.flow = 1 then f else divRat f rho) * t)) out

/-- A GENERIC step from a pod. -/
def State.genericQty (s : State) (p : Nat) (fw : Word) (t : Rat) : StepQty :=
  if s.cutOff p (inRat fw) then .below else .add (sgnRat (inRat fw)) (flowPart 0 (inRat fw * t)) false

/-- A PULSE step of 1 s (R241, R247): pulses × CUS.PULSE, with the gain of CUS.CORR at the step's flow in % of Q_NOM. -/
def State.pulseQty (s : State) (p n : Nat) : StepQty :=
  let v := n * inRat (s.parW Par.CUS.PULSE p)
  if s.cutOff p v then .below
  else
    let g := (corrAt (divRat (100 * v) (s.parRat Par.CUS.NOMINAL p 2)) (s.corrPoints (3 * p))).1
    .add (sgnRat v) (flowPart 0 (v * (1 + g / 1000000))) false

/-! ### Inputs (R239, R248) -/

/-- ACCEPT_TEST applies (R248). -/
def State.acceptTest (s : State) (p : Nat) : Bool := (s.parN Par.CUS.GAP_RULE p).testBit 0 && !s.sealedBit

/-- TEST or TIME_UNLOCKED of an input makes the step a gap. -/
def State.ruleBad (s : State) (p : Nat) (q : Half) : Bool :=
  (qHas q qTest && !s.acceptTest p) || (qHas q qUnlocked && (s.parN Par.CUS.GAP_RULE p).testBit 1)

/-- An aligned entry that makes the step a gap (R248). -/
def State.entryBad (s : State) (p : Nat) (e : Entry) : Bool :=
  let q := e.quality
  f32IsNan e.v || qHas q (qPoison + qInvalid + qSubst + qForced + qOvr + qOpen) || !qHas q qPresent || s.ruleBad p q

/-- How many words of CUS.INPUTS an ALIGNED point's step needs: WATER needs pressure and temperature in every FLOW_MODE that
computes a density (R235, R247). -/
def PointDef.inputsUsed (d : PointDef) : Nat :=
  match d.ty with
  | 1 => 2
  | 2 | 3 | 4 => 3
  | _ => 1

/-- The outcome of an ALIGNED step: the latest edition of a slot (R239). -/
def State.alignedQty (s : State) (p : Nat) (d : PointDef) (x : Slot) : StepQty :=
  let es := (x.view x.edition)
  let ins := ((s.par Par.CUS.INPUTS p).take d.inputsUsed).map (fun w => es[bitsOf w.toNat 17 0]?)
  if ins.any (fun e => e.all (s.entryBad p)) then .gap 0
  else
    let v := fun k => (((ins.getD k none).map Entry.v).getD 0)
    let t : Rat := 1 / (x.defn.rate : Rat)
    match d.ty with
    | 1 => s.elecQty p d (inRat (v 0)) (inRat (v 1)) t []
    | 2 => s.steamQty p d (v 0) (v 1) (v 2) t
    | 3 => s.airQty p d (v 0) (v 1) (v 2) t
    | 4 => s.waterQty p d (v 0) (v 1) (v 2) t
    | 5 => s.genericQty p (v 0) t
    | _ => .gap 0

/-- Length of a LOCAL or SV step. -/
abbrev cusStepNs : Nat := 10000000

/-- The phases of a connection (R235). -/
def PointDef.phases (d : PointDef) : List Nat :=
  match d.conn with
  | 0 => [0, 1, 2]
  | 1 => [0, 2]
  | _ => [0]

/-- Samples of a channel up to the end of a step, oldest first, from at most 254 before it. -/
def stepWindow {α : Type} (t : α → Nat) (a : Nat) (l : List α) : List α × List α :=
  let now := (l.filter (fun o => decide (a ≤ t o) && decide (t o < a + cusStepNs))).reverse
  let past := ((l.filter (fun o => decide (t o < a))).take 254).reverse
  (past, now)

/-- The samples of LOCAL channel `c` in volts at the lands. -/
def State.localSamples (s : State) (c a : Nat) : List FltOut × List FltOut := stepWindow FltOut.t a (s.flt_ c).outs

/-- The outcome of a LOCAL step that starts at `a` (R239, R240, R248). -/
def State.localQty (s : State) (p : Nat) (d : PointDef) (a : Nat) : StepQty :=
  let ch := fun k => ((s.par Par.CUS.INPUTS p).getD k 0).toNat
  let pairs := d.phases.filter (fun k => ch k != 0xFF && ch (k + 3) != 0xFF)
  let used := pairs.flatMap (fun k => [ch k, ch (k + 3)])
  let rv := s.parRat Par.CUS.RATIO p 0
  let ri := s.parRat Par.CUS.RATIO p 1
  let bad := used.any (fun c =>
    let w := (s.localSamples c a).2
    w.length != 160 || w.any (fun o => qHas o.q (qOvr + qPoison + qOpen) || f32IsNan o.v || s.ruleBad p (qClear o.q qTest)))
  if bad || pairs.isEmpty then .gap 0
  else
    let line := fun (k : Rat) (c : Nat) =>
      let w := s.localSamples c a
      (w.1 ++ w.2).map (fun o => k * inRat o.v)
    let l := pairs.map (fun k => s.phasePower p 160 { index := k, volts := line rv (ch k), amps := line ri (ch (k + 3)) })
    s.elecQty p d ((l.map Prod.fst).sum) ((l.map (fun x => x.2.1)).sum) (1 / 100) (l.map (fun x => x.2.2))

/-- Quantities of an SV source: voltage and current of phase `k`, with the line voltages of a three-wire point as differences
of phase voltages (R235). -/
def svPair (d : PointDef) (e : List (Word × Half)) (k : Nat) : Rat × Rat :=
  let v := fun n => inRat ((e.getD n (0, 0)).1)
  (if d.conn = 1 then v (4 + k) - v 5 else v (4 + k), v k)

/-- The outcome of an SV step that starts at `a` (R239, R240, R248). -/
def State.svQty (s : State) (p : Nat) (d : PointDef) (a : Nat) : StepQty :=
  let src := ((s.par Par.CUS.INPUTS p).getD 0 0).toNat
  let n := ((s.srcDef src).map (fun x => x.rate / 100)).getD 0
  let x := s.src src
  let w := stepWindow SvSample.t a x.sv
  let used := d.phases.flatMap (fun k => (if d.conn = 1 then [k, 4 + k, 5] else [k, 4 + k]))
  let bad := w.2.any (fun o => used.any (fun k =>
    let e := o.e.getD k (0x7FC00000, 0)
    qHas e.2 (qInvalid + qOvr + qPoison) || f32IsNan e.1 || s.ruleBad p e.2))
  if x.st = 3 ∨ n = 0 ∨ w.2.length ≠ n ∨ bad then .gap 0
  else
    let rv := s.parRat Par.CUS.RATIO p 0
    let ri := s.parRat Par.CUS.RATIO p 1
    let l := d.phases.map (fun k => s.phasePower p n
      { index := k, volts := (w.1 ++ w.2).map (fun o => rv * (svPair d o.e k).1)
        amps := (w.1 ++ w.2).map (fun o => ri * (svPair d o.e k).2) })
    s.elecQty p d ((l.map Prod.fst).sum) ((l.map (fun y => y.2.1)).sum) (1 / 100) (l.map (fun y => y.2.2))

/-- The land of a PULSE point: bits 2:0 of word 0 of CUS.INPUTS, whose reset value assigns none (R235). -/
def State.pulseLand (s : State) (p : Nat) : Option Nat :=
  let w := ((s.par Par.CUS.INPUTS p).getD 0 0).toNat
  if w = 0xFF then none else some (w % 8)

/-- Pulses of a point that came in before an instant. -/
def Point.pulsesTo (x : Point) (b : Nat) : Nat := ((x.pulses.filter (fun k => decide (k.1 < b))).map Prod.snd).sum

/-- The outcome of a PULSE step that ends at `b` (R248): a gap while the land is unassigned or the module in reset. -/
def State.pulsesQty (s : State) (p b : Nat) : StepQty :=
  if (s.pulseLand p).isNone || s.pwr.resetLow || (!s.timeLocked && (s.parN Par.CUS.GAP_RULE p).testBit 1) then .gap 0
  else s.pulseQty p ((s.point p).pulsesTo b)

/-! ### Steps -/

/-- Open gaps of a point end at the start of its next step (R252, R427). -/
def State.endPending (s : State) (p a : Nat) : State :=
  let x := s.point p
  x.pend.foldl (fun s g => s.gapNow p g.1 g.2 a) (s.setPoint p { x with pend := [] })

/-- The start of a point's first step at or after its frontier; `a` is that of the step being taken (R427). -/
def State.firstStep (s : State) (p a : Nat) : Nat :=
  let x := s.point p
  if x.defn.kind = 2 then
    let r := (s.podDef x.defn.pod).rate
    min a (gridAt r (gridUp r x.tail))
  else a

/-- A step is taken: it moves the frontier, or is kept among those ahead of it or of the running interval, which ends at
`stop`. -/
def State.stepDone (s : State) (p stop : Nat) (y : Ahead) : State :=
  let x := s.point p
  let r := (s.podDef x.defn.pod).rate
  let x := { x with
    lastTaken := some (max y.start (x.lastTaken.getD 0))
    ahead := x.ahead ++ [if y.start < stop then { y with gap := none, outStd := false } else y] }
  let x := if x.defn.kind = 2 then x.forward r (x.ahead.length + 1) else { x with tail := max x.tail y.stop }
  s.setPoint p { x with ahead := x.ahead.filter (fun a => decide (stop ≤ a.start) || decide (x.tail ≤ a.start)) }

/-- Book a step from `a` to `b` with its outcome to the interval that holds `a` (R239, R244, R248 to R250). -/
def State.bookStep (s : State) (p a b : Nat) (qty : StepQty) : State :=
  let s := s.directionDue p
  let s := if (s.point p).defn.kind = 2 then s else s.closeUpTo p a
  let s := s.endPending p (s.firstStep p a)
  let x := s.point p
  let stop := s.intervalEnd p
  let step : Ahead := { start := a, stop := b, gap := none, outStd := false, units := [], legal := !s.provisional }
  match qty with
  | .gap r =>
    let late := x.lastTaken.any (fun t => decide (a < t))
    let s := s.setPoint p { x with
      inGap := true, below := false, sign := if late then x.sign else 0, signSince := if late then x.signSince else none }
    let s := if a < stop then s.gapMerge p r a b else s
    let s := (s.stepDone p stop { step with gap := some r }).count2 0x0901 (p + 1) 1
    if r = 6 then s.count2 0x0902 (p + 1) 1 else s
  | .below => (s.setPoint p { x with inGap := false, below := true }).stepDone p stop step
  | .add sgn parts out =>
    let s := s.setPoint p ({ x with
      inGap := false, below := false, lastStep := some (max a (x.lastStep.getD 0))
      flags := if out && decide (a < stop) then qSet x.flags 0x100 else x.flags }.takeSign sgn a b)
    let units := parts.foldl (fun (m : AMap Nat) r => m.set r.1 (m.getD r.1 0 + s.fineUnits p r.1 r.2)) []
    let s := parts.foldl (fun s r => s.register p r.1 r.2) s
    let s := s.stepDone p stop { step with outStd := out, units := units }
    if out then s.count2 0x0903 (p + 1) 1 else s

/-- The engine takes steps: in RUN and SAFE, its unit running and no power-fail sequence begun (R28, R415, R426). -/
def State.cusTakes (s : State) : Bool := s.runs 9 && !s.pwr.pfw && s.measuring

/-- A LOCAL or SV step that starts at `a` may run to its end: it began before a fall of PFW_N and before a quiesce of the
engine, which both complete the steps that run (R252, R253). -/
def State.stepRuns (s : State) (a : Nat) : Bool :=
  s.runs 9 && s.measuring &&
  (!s.pwr.pfw || (!s.pwr.pfwSaved && s.cus.pfwStamp.any (fun t => decide (a < t)))) &&
  s.ctl.drain.all (fun d => d.1 != 9 || decide (a < d.2.2))

/-- A point takes the final edition of a slot, once (R22, R239); what it completes is recorded (R254). -/
def State.cusTake (s : State) (p g : Nat) (x : Slot) : State :=
  let pt := s.point p
  if s.cusTakes && pt.running && pt.defn.kind == 2 && decide (pt.tail ≤ g) && !pt.booked g && x.closed && x.final then
    let s := s.bookStep p g (gridAt x.defn.rate (gridIndex x.defn.rate g + 1)) (s.alignedQty p pt.defn x)
    (s.closeUpTo p (s.cusLimit p)).boundariesDone
  else s

/-- Every point of a pod takes a final edition (R174). -/
def State.cusTakeAll (s : State) (pod g : Nat) (x : Slot) : State :=
  s.accounts.foldl (fun s p => if (s.point p).defn.pod = pod then s.cusTake p g x else s) s

/-- The length of the steps of a LOCAL, SV or PULSE point (R239). -/
def PointDef.stepNs (d : PointDef) : Nat := if d.kind = 3 then sec else cusStepNs

/-- One step of a LOCAL, SV or PULSE point from its inputs (R239). -/
def State.windowStep (s : State) (p a : Nat) : State :=
  let d := (s.point p).defn
  match d.kind with
  | 0 => s.bookStep p a (a + cusStepNs) (s.localQty p d a)
  | 1 => s.bookStep p a (a + cusStepNs) (s.svQty p d a)
  | _ =>
    let s := s.bookStep p a (a + sec) (s.pulsesQty p (a + sec))
    let x := s.point p
    s.setPoint p { x with pulses := x.pulses.filter (fun k => decide (a + sec ≤ k.1)) }

/-- The steps of a LOCAL, SV or PULSE point up to the one that ends at `stop`, in order, from its frontier on, as far as they may
run. -/
def State.windowsTo (s : State) (p stop : Nat) : State :=
  let len := (s.point p).defn.stepNs
  let a := ceilTo len (s.point p).tail
  (List.range ((stop - a) / len)).foldl (fun s k =>
    if s.stepRuns (a + k * len) && (!s.pwr.pfw || len == cusStepNs) then s.windowStep p (a + k * len) else s) s

/-- A LOCAL, SV or PULSE step: its start on the grid of its length, not before the last step's end, and its end passed; the steps
before it that are not taken yet come first. -/
def State.cusWindow (s : State) (p a : Nat) : State :=
  let pt := s.point p
  let len := pt.defn.stepNs
  if pt.running && pt.defn.kind != 2 && decide (a % len = 0) && decide (pt.tail ≤ a) && decide (a + len ≤ s.now) then
    s.windowsTo p (a + len)
  else s

/-- CUS_STEP (R239). -/
def execCusStep (dt : Nat) (point : Nat) (input : StepInput) (s : State) : Out :=
  let s := s.advance dt
  let pt := s.point point
  .next (match input with
    | .aligned g =>
      match s.slot? pt.defn.pod g with
      | some x => s.cusTake point g x
      | none => s
    | .lost g byStep =>
      let r := (s.podDef pt.defn.pod).rate
      if s.cusTakes && pt.running && pt.defn.kind == 2 && isGrid r g && decide (pt.tail ≤ g) && decide (g ≤ s.now) &&
          !pt.booked g && (s.slot? pt.defn.pod g).isNone then
        s.bookStep point g (gridAt r (gridIndex r g + 1)) (.gap (if byStep then 5 else 4))
      else s
    | .window a => s.cusWindow point a)

/-- DIN_PULSE_EDGE: a rising edge is a pulse of the PULSE point the land serves (R404). -/
def execDinPulseEdge (dt : Nat) (land : Nat) (rising : Bool) (s : State) : Out :=
  let s := s.advance dt
  let s := { s with lands := { s.lands with din := s.lands.din.put false land rising } }
  .next (if rising && s.runs 9 && s.measuring && !s.pwr.pfwSaved then
    s.accounts.foldl (fun s p =>
      let x := s.point p
      if x.running && x.defn.kind == 3 && s.pulseLand p == some land then
        s.setPoint p { x with pulses := x.pulses.set (s.now / sec * sec) (x.pulses.getD (s.now / sec * sec) 0 + 1) }
      else s) s
  else s)

/-! ### Boundaries -/

/-- PROFILE_BOUNDARY: the records due of the points with CUS.PROFILE_MIN `minutes`, then PROFILE_READY of every boundary that
is complete (R254, R256). Records go on while the unit is in reset (R424). -/
def execProfileBoundary (dt : Nat) (minutes : Nat) (s : State) : Out :=
  let s := s.advance dt
  .next (if s.measuring && !s.pwr.pfw then
    ((s.accounts.filter (fun p => s.parN Par.CUS.PROFILE_MIN p == minutes)).foldl
      (fun s p => s.closeUpTo p (s.cusLimit p)) s).boundariesDone
  else s)

/-! ### Signing (R255) -/

/-- Sign a record under the slot in force: UNSIGNED cleared, RESIGNED where the key differs from the one in force when it was
made. -/
def State.signProfile (s : State) (r : Profile) : Profile :=
  let slot := s.parN Par.CUS.SIGN_SLOT 0
  let k := s.keySlot slot
  let again := slot != r.slot || k.gen != r.gen
  let w0 := (r.words.getD 0 0 &&& ~~~ (0x800 : Word)) ||| (if again then 0x400 else 0)
  let w5 := BitVec.ofNat 32 (slot * 2 ^ 24 + (r.words.getD 5 0).toNat % 2 ^ 24)
  let words := (r.words.set 0 w0).set 5 w5
  let d := ofBe k.secret
  let digest := sha256 (wordsLe words)
  { r with words := words, sig := p256SignWith d (p256Nonce d digest) digest }

/-- Keep a record with UNSIGNED set. -/
def Profile.unsigned (r : Profile) : Profile := { r with words := r.words.set 0 (r.words.getD 0 0 ||| 0x800), sig := [] }

/-- The records with this point and SEQUENCE changed by `f`. -/
def mapProfile (f : Profile → Profile) (p seq : Nat) (l : List Profile) : List Profile :=
  l.map (fun r => if r.point = p ∧ r.seq = seq then f r else r)

/-- PROFILE_SIGNED: the signature of a record is complete, or it stays UNSIGNED while the vault does not sign. -/
def execProfileSigned (dt : Nat) (point sequence : Nat) (s : State) : Out :=
  let s := s.advance dt
  .next (match s.cus.records.find? (fun r => r.point == point && r.seq == sequence && r.sig.isEmpty) with
    | none => s
    | some _ =>
      if s.canSign then
        { s with cus := { s.cus with records := mapProfile s.signProfile point sequence s.cus.records } }.count 0x0D03 0 1
      else { s with cus := { s.cus with records := mapProfile Profile.unsigned point sequence s.cus.records } })

/-! ### Saves, boot, quiesce, reset (R251 to R253) -/

/-- What a copy saves of the points; the pulse residual is what no step holds yet. -/
def State.pointSaves (s : State) : AMap PointSave :=
  s.cus.point.map (fun p => (p.1, { seq := p.2.seq, lastStep := p.2.lastStep, tail := p.2.tail, reverse := p.2.reverse
                                    sign := p.2.sign, signSince := p.2.signSince, pulses := (p.2.pulses.map Prod.snd).sum }))

/-- What the running intervals hold at a save (R253). -/
def State.pointsMarked (s : State) : AMap Point :=
  s.cus.point.map (fun p => (p.1, { p.2 with
    mark := { at_ := s.now, gaps := p.2.gaps, from_ := p.2.gapFrom, extra := p.2.extra, ahead := p.2.ahead } }))

/-- Write a save of a kind alternately to copy A and copy B, legal and provisional (R251). -/
def State.cusSave (s : State) (kind : Nat) (pfw : Option Nat) : State :=
  let n := s.cus.saveSeq + 1
  let t := fun (regs : AMap Reg) =>
    ({ valid := true, seq := n, kind := kind, gtf := s.now, pfw := pfw, regs := regs, points := s.pointSaves } : Totals)
  let c := s.cus
  let c := if n % 2 = 1 then { c with copyA := t c.regs, provA := t c.prov } else { c with copyB := t c.regs, provB := t c.prov }
  ({ s with cus := { c with saveSeq := n, point := s.pointsMarked } }.count 0x0906 0 1).wearAdd (if n % 2 = 1 then 4 else 5) 1

/-- TOTALS_SAVE: every whole TAI second (R251). -/
def execTotalsSave (dt : Nat) (s : State) : Out :=
  let s := s.advance dt
  .next (if s.now % sec = 0 ∧ s.cusTakes then s.cusSave 0 none else s)

/-- The valid copy with the higher sequence (R252). -/
def newerCopy (a b : Totals) : Option Totals :=
  if a.valid && (!b.valid || decide (b.seq < a.seq)) then some a else if b.valid then some b else none

/-- Registers and point states as a copy holds them; a frozen legal register keeps its snapshot (R252, R253, R260). -/
def State.cusLoad (s : State) : State :=
  match newerCopy s.cus.copyA s.cus.copyB with
  | none => s
  | some c =>
    let prov := ((newerCopy s.cus.provA s.cus.provB).map Totals.regs).getD c.regs
    let made := fun (p : Nat) => (s.cus.records.filter (fun r => r.point == p)).foldl (fun m r => max m r.seq) 0
    let s := { s with cus := { s.cus with
      regs := if s.cus.frozen then s.cus.snapshot.getD c.regs else c.regs, prov := prov, saveSeq := max s.cus.saveSeq c.seq } }
    c.points.foldl (fun (s : State) (x : Nat × PointSave) => s.setPoint x.1 { s.point x.1 with
      seq := max x.2.seq (max (made x.1) (s.point x.1).seq), lastStep := x.2.lastStep, tail := x.2.tail, reverse := x.2.reverse
      sign := x.2.sign, signSince := x.2.signSince, pulses := if x.2.pulses = 0 then [] else [(0, x.2.pulses)] }) s

/-- A point starts under the definition in force: its account begins now (R235, R254). -/
def State.pointStart (s : State) (p : Nat) (partial_ : Bool) : State :=
  let x := s.point p
  let per := s.profileNs p
  s.setPoint p { x with
    word := s.parN Par.CUS.POINT p, units := dword (s.par Par.CUS.REG_UNIT p), stopped := false
    closed := if x.word = 0 then s.boundaryBefore per s.now else x.closed, tail := max x.tail s.now
    flags := if partial_ then qSet x.flags 0x40 else x.flags, sign := 0, signSince := none, inGap := false, below := false }

/-- A point stops: its last interval's record is still made, with PARTIAL (R254). -/
def State.pointStop (s : State) (p : Nat) : State :=
  let x := s.point p
  s.setPoint p { x with
    stopped := true, flags := qSet x.flags 0x40, inGap := false, below := false, signSince := none, sign := 0 }

/-- The points follow the configuration in force at a commit boundary or a sealed change (R235, R258). -/
def State.cusCommit (s : State) : State :=
  (List.range 512).foldl (fun s p =>
    let x := s.point p
    let w := s.parN Par.CUS.POINT p
    if w.testBit 31 then
      if x.running then
        s.setPoint p { x with word := w, units := dword (s.par Par.CUS.REG_UNIT p) }
      else s.pointStart p true
    else if x.running then s.pointStop p
    else s) s

/-- CHANGE in the running record of a point (R258). -/
def State.pointChanged (s : State) (p : Nat) : State :=
  let x := s.point p
  if x.word = 0 then s else s.setPoint p { x with flags := qSet x.flags 8 }

/-- The totals at boot: registers and point states from the newer copy; the gaps of R252, R417 and R427; the first record of
each point carries POWER_OFF; the plinth's PFW_N stamp is cleared. Signatures held in DRAM are lost (R255). -/
def State.cusBoot (s : State) : State :=
  let stamp := match newerCopy s.cus.copyA s.cus.copyB with
    | some c => s.cus.pfwStamp.bind (fun t => if c.gtf < t then some t else none)
    | none => none
  let s := { s with cus := { s.cus with
    ready := [], records := s.cus.records.map (fun (r : Profile) => { r with sig := [] }), point := [] } }
  let s := s.cusLoad
  let s := (List.range 512).foldl (fun s p =>
    if (s.parN Par.CUS.POINT p).testBit 31 then
      let x := s.point p
      s.setPoint p { x with
        word := s.parN Par.CUS.POINT p, units := dword (s.par Par.CUS.REG_UNIT p)
        closed := s.boundaryBefore (s.profileNs p) s.now, flags := 0x20 }
    else s) s
  let s := match newerCopy s.cus.copyA s.cus.copyB with
    | none => s.accounts.foldl (fun (s : State) (p : Nat) => s.setPoint p { s.point p with tail := s.now }) s
    | some c =>
      let s := if c.kind = 0 ∧ stamp.isSome then s.count 0x0907 0 1 else s
      s.accounts.foldl (fun (s : State) (p : Nat) =>
        let x := s.point p
        let last := if x.tail = 0 then c.gtf else x.tail
        match c.kind, stamp with
        | 0, some t => ((s.gapNow p 1 c.gtf t)).setPoint p { (s.gapNow p 1 c.gtf t).point p with pend := [(2, t)] }
        | 0, none => s.setPoint p { x with pend := [(1, c.gtf)] }
        | 2, _ => s.setPoint p { x with pend := [(2, c.gtf)] }
        | _, _ => s.setPoint p { x with pend := [(2, last)] }) s
  { s with cus := { s.cus with pfwStamp := none } }

/-- The end of the last step a point has booked. -/
def Point.lastEnd (x : Point) : Nat := x.ahead.foldl (fun m a => max m a.stop) x.tail

/-- Custody stops (CONFIG, a unit quiesce): slots that never came before the last step booked are gap steps, and from its end on
each point has an open gap of reason 4; a point that has one open keeps it (R253, R415). -/
def State.cusOff (s : State) : State :=
  s.accounts.foldl (fun s p =>
    let s := s.bookHole p (s.point p).lastEnd
    let x := s.point p
    if x.pend.isEmpty && x.running then s.setPoint p { x with pend := [(4, x.lastEnd)] } else s) s

/-- The boundaries a point passes from `a` to before `b`, at most `n`: none of its records comes, and the PROFILE_READY tasks
wait no longer for it. -/
def State.boundariesMissed (s : State) (per : Nat) : Nat → Nat → Nat → State
  | 0, _, _ => s
  | n + 1, a, b =>
    let e := s.boundaryAfter per a
    if e ≤ b then (s.prerequisiteDone (profileTask e)).boundariesMissed per n e b else s

/-- Custody begins again on entry to RUN or SAFE: intervals that passed meanwhile make no record, and their gaps are recorded
(R254, R415, R427). -/
def State.cusOn (s : State) : State :=
  s.accounts.foldl (fun s p =>
    let x := s.point p
    let start := s.boundaryBefore (s.profileNs p) s.now
    let on : Point := { x with tail := max x.tail s.now, ahead := [] }
    if x.closed < start then
      let s := (s.gapClose p).boundariesMissed (s.profileNs p) ((start - x.closed) / (60 * sec) + 1) x.closed start
      s.setPoint p { on with
        closed := start, gaps := [], gapFrom := none, extra := 0, word := if x.stopped then 0 else x.word, stopped := false }
    else s.setPoint p on) s

/-- UNIT_RESET of unit 0x09: the last complete save is loaded again, and the time from it is a gap of reason 4 until
UNIT_RESUME; gap steps up to that save stay in the running interval (R253). PROFILE_READY tasks that wait are discarded
(R388). -/
def State.cusReset (s : State) : State :=
  let since := (newerCopy s.cus.copyA s.cus.copyB).map Totals.gtf
  let s := (s.cus.ready.keys.foldl (fun (s : State) t => s.taskDiscard (profileTask t)) s).cusLoad
  s.accounts.foldl (fun s p =>
    let x := s.point p
    let kept := decide (x.closed ≤ x.mark.at_)
    s.setPoint p { x with
      pend := [(4, since.getD x.tail)], sign := 0, signSince := none, inGap := false, below := false
      gaps := if kept then x.mark.gaps else [], gapFrom := if kept then x.mark.from_ else none
      extra := if kept then x.mark.extra else 0, ahead := x.mark.ahead.filter (fun a => decide (x.closed ≤ a.start)) }) s

/-- UNIT_RESUME of unit 0x09: the gap of reason 4 ends (R253). -/
def State.cusResume (s : State) : State :=
  s.accounts.foldl (fun s p =>
    let s := s.endPending p s.now
    s.setPoint p { s.point p with tail := max (s.point p).tail s.now }) s

/-- The time from `a` to `b` that a forward step of the clock takes from a point: gap steps of a reason (R248, R254). -/
def State.bookLost (s : State) (p reason a b : Nat) : State :=
  if b ≤ a then s
  else
    let d := (s.point p).defn
    let n := if d.kind = 2 then gridCount (s.podDef d.pod).rate a b else (b - a) / d.stepNs
    let s := (s.gapMerge p reason a b).count2 0x0901 (p + 1) n
    let x := s.point p
    let y : Ahead := { start := a, stop := b, gap := none, outStd := false, units := [], legal := false }
    let x := { x with inGap := true, ahead := if d.kind = 2 then x.ahead ++ [y] else x.ahead }
    s.setPoint p (if d.kind = 2 then x.forward (s.podDef d.pod).rate (x.ahead.length + 1) else { x with tail := max x.tail b })

/-- What a forward step of the clock from `a` to `b` takes from a point, and why: the grid instants after `a` up to the first
slot held or the first instant after `b` (reason 5), the LOCAL or SV steps that hold no full set of samples (reason 0) (R94, R172,
R248). -/
def State.stepLoss (s : State) (p a b : Nat) : Nat × Nat × Nat :=
  let x := s.point p
  if x.defn.kind = 2 then
    let r := (s.podDef x.defn.pod).rate
    let held := ((s.podSt x.defn.pod).slots.filter (fun z => decide (a < z.1))).map Prod.fst
    (5, max x.tail (gridAt r (gridUp r (a + 1))), held.foldl min (gridAt r (gridUp r (b + 1))))
  else (0, ceilTo cusStepNs x.tail, ceilTo cusStepNs b)

/-- A step of the clock from `a` to `b`. After a forward step: the final editions held and the steps that ended by `a` are
booked, and what the step takes from a point is gap time of the intervals it belongs to; one record for all boundaries passed, END
the last of them, TIME_STEP set. No boundary recurs after a backward step (R254). -/
def State.cusStepClock (s : State) (a b : Nat) : State :=
  if a < b ∧ s.measuring then
    let s := (s.allSlots.filter (fun z => z.2.2.final)).foldl (fun s z => s.cusTakeAll z.1 z.2.1 z.2.2) s
    (s.accounts.foldl (fun s p =>
      let x := s.point p
      let s := if x.running && x.defn.kind != 2 then s.windowsTo p a else s
      let stop := s.boundaryBefore (s.profileNs p) b
      let (reason, lo, hi) := s.stepLoss p a b
      let takes := x.running && x.pend.isEmpty && x.defn.kind != 3 && s.runs 9
      let s := if takes then s.bookLost p reason lo (min hi (max lo stop)) else s
      let s := if (s.point p).closed < stop then s.closeInterval p stop 0x10 else s
      let s := if takes then s.bookLost p reason (max lo stop) hi else s
      let x := s.point p
      if x.defn.kind = 3 then s.setPoint p { x with tail := max x.tail (ceilTo sec b) } else s) s).boundariesDone
  else s

/-- The steps that ran at `t` are completed: every LOCAL and SV point's that began before it and have ended (R252, R253). -/
def State.stepsEnd (s : State) (t : Nat) : State :=
  s.accounts.foldl (fun s p =>
    let x := s.point p
    if x.running && decide (x.defn.kind ≤ 1) then s.windowsTo p (min s.now (ceilTo cusStepNs t)) else s) s

/-! ### Tamper (R260) -/

/-- The legal registers freeze at the last step completed; they go into the snapshot (R260). -/
def State.cusFreeze (s : State) (t : Nat) : State :=
  if s.cus.frozen then s
  else { s with cus := { s.cus with frozen := true, frozenAt := t, snapshot := some s.cus.regs } }

/-- SEAL after a tamper: the legal registers go on from their frozen values, one GAP record with reason 3 per point, LEGAL
from the next step on (R258, R260). -/
def State.cusUnfreeze (s : State) : State :=
  let s := if s.cus.frozen then
      let t := s.cus.frozenAt
      let s := { s with cus := { s.cus with frozen := false, regs := s.cus.snapshot.getD s.cus.regs, snapshot := none } }
      s.accounts.foldl (fun s p => s.gapNow p 3 t s.now) s
    else s
  { s with cus := { s.cus with legalFrom := s.now } }

/-! ### Reading (R256, R259) -/

/-- What CUS_READ_REGISTERS returns of a point (R259). -/
def State.registerWords (s : State) (prov : Bool) (p : Nat) : List Word :=
  let x := s.point p
  let d := if x.running then x.defn else pointDefOf 0
  [BitVec.ofNat 32 (p * 2 ^ 23 + d.ty * 2 ^ 20 + d.nreg * 2 ^ 16 + bitAt s.cus.frozen 3 + bitAt prov 2 + bitAt x.reverse 1 +
     bitAt (!prov && s.legal p) 0)] ++ words64 (gtfOpt x.lastStep) ++
  (List.range d.nreg).flatMap (fun n =>
    let r := s.reg prov p n
    regWords r (x.unitCode n) ++ words64 r.fine)

/-- CUS_READ_REGISTERS (0x0800). -/
def execCusReadRegisters (dt : Nat) (q : Req) (s : State) : Out :=
  .next ((s.advance dt).serve q 0x0800 9 0 3 true (fun _ s =>
    let first := q.bits 4 8 0
    let n := (q.w 5).toNat
    if n = 0 then (s, err 0x0106) else if 256 < n then (s, err 0x0116) else if 512 < first + n then (s, err 0x0106)
    else (s, ok ((List.range n).flatMap (fun k => s.registerWords ((q.w 6).getLsbD 0) (first + k))))))

/-- The records held of a point, oldest first. -/
def State.recordsOf (s : State) (p : Nat) : List Profile := s.cus.records.filter (fun r => r.point == p)

/-- A record as it is read: signed now where its signature is gone and the vault signs (R255). -/
def State.readProfile (s : State) (r : Profile) : Profile :=
  if r.sig.isEmpty then (if s.canSign then s.signProfile r else r.unsigned) else r

/-- CUS_READ_PROFILE (0x0801). A first SEQUENCE that was made and is no longer held answers PROFILE_GAP (R256). -/
def execCusReadProfile (dt : Nat) (q : Req) (s : State) : Out :=
  .next ((s.advance dt).serve q 0x0801 9 0 3 true (fun _ s =>
    let p := q.bits 4 8 0
    let first := (q.w 5).toNat
    let n := q.bits 6 15 0
    let held := s.recordsOf p
    let oldest := (held.head?.map Profile.seq).getD ((s.point p).seq + 1)
    if n = 0 then (s, err 0x0106) else if 100 < n then (s, err 0x0116)
    else if 0 < first ∧ first < oldest ∧ first ≤ (s.point p).seq then (s, some (0x0124, [detail 0xFFFF 0]))
    else
      let l := (held.filter (fun r => decide (first ≤ r.seq))).take n
      let fresh := l.filter (fun r => r.sig.isEmpty && s.canSign)
      let s' := { s with cus := { s.cus with
        records := s.cus.records.map (fun (r : Profile) => if r.point = p ∧ l.any (fun y => y.seq == r.seq) then s.readProfile r else r) } }
      (s'.count 0x0D03 0 fresh.length, ok ([BitVec.ofNat 32 l.length, BitVec.ofNat 32 ((held.head?.map Profile.seq).getD 0),
        BitVec.ofNat 32 ((held.getLast?.map Profile.seq).getD 0)] ++
        l.flatMap (fun r =>
          let y := s.readProfile r
          q.carriage.pack (wordsLe y.words ++ padTo 64 y.sig))))))

/-- CUS_ACK_PROFILE (0x0802): frees the held records up to a SEQUENCE (R256). -/
def execCusAckProfile (dt : Nat) (q : Req) (s : State) : Out :=
  .next ((s.advance dt).serve q 0x0802 9 1 2 true (fun _ s =>
    let all := (q.w 4).getLsbD 31
    let p := q.bits 4 8 0
    let mine := s.cus.records.filter (fun r => all || r.point == p)
    let top := mine.foldl (fun m r => max m r.seq) 0
    if top < (q.w 5).toNat then (s, err 0x0106)
    else
      let gone := fun (r : Profile) => (all || r.point == p) && decide (r.seq ≤ (q.w 5).toNat)
      ({ s with cus := { s.cus with records := s.cus.records.filter (fun r => !gone r) } },
       ok [BitVec.ofNat 32 (mine.filter gone).length])))

/-- CUS_READ_LEGAL_ID (0x0805) (R258): the legally relevant firmware of the running image, then the seal. NOT_LEGAL on
GLS-4640-A (R2). -/
def execCusReadLegalId (dt : Nat) (q : Req) (s : State) : Out :=
  .next ((s.advance dt).serve q 0x0805 9 0 0 true (fun _ s => if !s.ident.variantM then (s, err 0x0118) else
    let image := if s.pwr.bank = 0 then s.pwr.bank0.bytes else s.pwr.bank1.bytes
    let legal := padTo 40 (image.drop 24)
    (s, ok (q.carriage.pack (legal.take 8) ++ q.carriage.pack (legal.drop 8) ++
      [BitVec.ofNat 32 (bitAt s.sealedBit 0 + bitAt s.vlt.latch 1 + bitAt s.provisional 2)] ++
      words64 s.cus.sealCtr.toNat ++ q.carriage.pack s.cus.sealHash))))

end Sys2Proof.Machine
end

