-- ==== Sys2Proof/Machine/Params.lean ====
section
/-! DEFINITION. Writing parameters and applying configurations (02): the checks of an item (R54, R56), the items of a batch
(R50, R52), live writes (R57, R95, R291, R292, R305), the maquette (R58), and what a new configuration in force does in
every unit at its boundary (R62). -/

namespace Sys2Proof.Machine

open Sys2Proof

/-! ### Items (R50 to R56) -/

/-- An item of a write: ID, instance and value. -/
structure WItem where
  id    : Nat
  inst  : Nat
  value : List Word
  deriving DecidableEq, Repr

/-- `n` items of a batch: instance-and-ID word, length word, value. None when the words run out before them (R41). -/
def itemsOf' : Nat → List Word → Option (List WItem)
  | 0, _ => some []
  | n + 1, a :: l :: rest =>
    let k := bitsOf l.toNat 15 0
    if rest.length < k then none
    else (itemsOf' n (rest.drop k)).map
      (fun t => { id := bitsOf a.toNat 15 0, inst := bitsOf a.toNat 31 16, value := rest.take k } :: t)
  | _ + 1, _ => none

/-- The instance lies in the parameter's range. -/
def PDesc.hasInst (d : PDesc) (inst : Nat) : Bool := decide (d.lo ≤ inst) && decide (inst ≤ d.hi)

/-- What is wrong with an item's ID, instance or value (R54). -/
def WItem.fault (x : WItem) : Option Nat :=
  match parDesc x.id with
  | none => some 0x0104
  | some d =>
    if !d.hasInst x.inst then some 0x0105
    else if x.value.length ≠ d.words ∨ !d.range.ok x.id x.value then some 0x0106
    else none

/-- What the class of an item is refused with (R56): S with SEALED, else READ_ONLY. -/
def State.classFault (s : State) (live : Bool) (id : Nat) : Option Nat :=
  match parDesc id with
  | some d =>
    match d.clsOn s.ident.variantM with
    | .L => none
    | .M => if live then some 0x0107 else none
    | .S => some 0x0108
    | _ => some 0x0107
  | none => some 0x0104

/-- What a live write is refused with by the rules of its parameter (R95, R291, R292, R305): TIM.UTC_OFFSET while a PTP
reference that gives it is selected, bank B's taps and shape while it is delivered, FLT.BANK. -/
def State.liveFault (s : State) (x : WItem) : Option Nat :=
  let c := x.inst
  match x.id with
  | 0x0204 => if s.tim.ref == 1 && s.tim.parent.any Announce.utcOffsetValid then some 0x010E else none
  | 0x0604 => if (s.flt_ c).active = 1 then some 0x010B else none
  | 0x0605 => if (s.flt_ (c / 64)).active = 1 then some 0x010B else none
  | 0x0602 =>
    let bank := (x.value.getD 0 0).toNat
    let t := s.setPar Par.FLT.BANK c x.value
    let shared := s.inGroup c || s.cusChannels.any (fun p => p.2 == c) || (c == 24 && decide (1 < s.auxUsed.length))
    let recorder := (List.range 8).any (fun n => s.capKind n == 2 &&
      (s.capInputs n).any (fun i => bitsOf i.2.toNat 4 0 == c)) && t.outPeriod c != s.outPeriod c
    if (bank == 1 && (shared || s.tapsB c == 0)) || recorder then some 0x010E else none
  | _ => none

/-- The first fault of a write: ID, instance, value, class, then the live rules. -/
def State.writeFault (s : State) (live : Bool) (x : WItem) : Option Nat :=
  match x.fault with
  | some f => some f
  | none =>
    match s.classFault live x.id with
    | some f => some f
    | none => if live then s.liveFault x else none

/-- The key of an item. -/
def WItem.key (x : WItem) : Nat := parKey x.id x.inst

/-- A live write takes effect (R57). TIM.UTC_OFFSET is kept in MRAM (R95); a write of bank B's taps or shape restarts its
history (R291). -/
def State.writeLive (s : State) (x : WItem) : State :=
  if x.id = Par.TIM.UTC_OFFSET then { s with tim := { s.tim with utcOffset := (x.value.getD 0 0).toInt } }
  else
    let s := s.setPar x.id x.inst x.value
    if x.id = Par.FLT.CUSTOM_CFG then s.fltRestartB x.inst
    else if x.id = Par.FLT.COEF_B then s.fltRestartB (x.inst / 64)
    else s

/-- An item without the reserved bits of its value (R8). -/
def WItem.kept (x : WItem) : WItem :=
  { x with value := if x.id = Par.ING.SRC_STATE then (if x.value.length = 1 then x.value else definitionKept x.value)
      else valueKept x.id x.value }

/-- The first of numbered items for which the maquette has no room (R58). -/
def maquetteOver (maq : AMap MaqEntry) (l : List (Nat × WItem)) : Option (Nat × WItem) :=
  (l.foldl (fun (a : AMap MaqEntry × Option (Nat × WItem)) p =>
    let m := a.1.set p.2.key { session := 0, val := .remove }
    (m, if a.2.isSome then a.2 else if 524288 < m.length then some p else none)) (maq, none)).2

/-- Write items live, or into the maquette: none of them where one fails (R52), BUSY while a commit is pending (R64),
NO_RESOURCE beyond the maquette's capacity (R58). `batch`: the DETAIL names the item's index (R34). -/
def State.writeItems (s : State) (live batch : Bool) (session : Nat) (l : List WItem) : State × Option Ans :=
  let place := fun i => if batch then i else 0xFFFF
  let l := l.map WItem.kept
  if !live && s.ctl.commit.isSome then (s, err 0x010B)
  else
    let numbered := (List.range l.length).zip l
    match numbered.findSome? (fun p => (s.writeFault live p.2).map (fun f => (p.1, p.2.id, f))) with
    | some (i, id, f) => (s, errItem f (place i) id)
    | none =>
      if live then (l.foldl State.writeLive s, ok [])
      else
        let maq := l.foldl (fun (m : AMap MaqEntry) x => m.set x.key { session := session, val := .value x.value }) s.ctl.maquette
        if 524288 < maq.length then
          (s, match maquetteOver s.ctl.maquette numbered with
            | some (i, x) => errItem 0x0117 (place i) x.id
            | none => err 0x0117)
        else ({ s with ctl := { s.ctl with maquette := maq } }, ok [])

/-- The item of WRITE_PARAM and WRITE_LIVE, none where its length passes the packet (R41, R50). -/
def Req.item (q : Req) : Option WItem :=
  let n := q.bits 5 15 0
  if (q.rest 6).length < n then none
  else some { id := q.bits 4 15 0, inst := q.bits 4 31 16, value := (q.rest 6).take n }

/-! ### The resulting configuration (R58, R60) -/

/-- Set a parameter of a configuration; a reset value is not listed. -/
def Config.setPar (c : Config) (i : Ident) (id inst : Nat) (v : List Word) : Config :=
  { c with par := if v = parReset i id inst then c.par.erase (parKey id inst) else c.par.set (parKey id inst) v }

/-- One entry of the maquette in a configuration. TIM.UTC_OFFSET lives in MRAM of its own (R95). -/
def Config.take (i : Ident) (c : Config) (e : Nat × MaqEntry) : Config :=
  match e.2.val with
  | .value ws =>
    if e.1 / 65536 = Par.TIM.UTC_OFFSET then c else c.setPar i (e.1 / 65536) (e.1 % 65536) ws
  | .define ws => { c with sources := c.sources.set (e.1 % 65536) ws }
  | .remove => { c with sources := c.sources.erase (e.1 % 65536) }

/-- Profile 1 committed with TIM.PTP_VLAN 0 takes its own tag (R101). -/
def Config.vlan (i : Ident) (c : Config) (maq : AMap MaqEntry) : Config :=
  let key := parKey Par.TIM.PTP_PROFILE 0
  let one := match maq.get? key with
    | some { val := .value ws, .. } => ws == [1]
    | _ => false
  if one && (c.par.get? (parKey Par.TIM.PTP_VLAN 0)).isNone then c.setPar i Par.TIM.PTP_VLAN 0 [0x18000] else c

/-- A configuration with a whole maquette applied. -/
def Config.takeAll (c : Config) (i : Ident) (maq : AMap MaqEntry) : Config := (maq.foldl (Config.take i) c).vlan i maq

/-- Bytes of a commit's journal record: number, boundary, entries and CRC (R63). -/
def journalBytes (maq : AMap MaqEntry) : Nat :=
  16 + (maq.map (fun e => 8 + 4 * (match e.2.val with | .value ws => ws.length | .define ws => ws.length | .remove => 1))).sum

/-- An entry of a commit in a journal record: instance and ID, length, value; a removal has one value word, as DIFF_MAQUETTE lists it
(R63, R64). -/
def entryWords (e : Nat × MaqEntry) : List Word :=
  let ws := match e.2.val with
    | .value ws | .define ws => ws
    | .remove => [BitVec.ofNat 32 (e.1 % 65536 * 65536)]
  [BitVec.ofNat 32 (e.1 % 65536 * 65536 + e.1 / 65536), BitVec.ofNat 32 ws.length] ++ ws

/-- The journal record of a commit (R63). -/
def journalRec (number : Word) (b : Nat) (maq : AMap MaqEntry) : JournalRec :=
  { number := number, boundary := b, entries := maq, applied := false
    crc := crc32c (wordsLe (number :: gtfWords b ++ maq.flatMap entryWords)) }

/-- Journal bytes used (R63). -/
def State.journalUsed (s : State) : Nat := (s.ctl.journal.map (fun r => journalBytes r.entries)).sum

/-- Write one of the two configuration slots (R63). -/
def State.setFlash (s : State) (k : Nat) (x : FlashSlot) : State :=
  { s with ctl := { s.ctl with flash := if x = .erased then s.ctl.flash.erase k else s.ctl.flash.set k x } }

/-- Size of the configuration journal (R63). -/
def journalSize : Nat := 589824

/-- Units a maquette touches (R62): of each parameter its own; ingress for source commands. -/
def unitsTouched (maq : AMap MaqEntry) : List Nat := (maq.map (fun e => e.1 / 65536 / 256)).dedup

/-! ### Applying a configuration (R62) -/

/-- Keys whose values differ, as ID and instance. -/
def changedKeys (a b : AMap (List Word)) : List (Nat × Nat) :=
  (((a.keys ++ b.keys).dedup).filter (fun k => a.get? k != b.get? k)).map (fun k => (k / 65536, k % 65536))

/-- The instances of the listed IDs among changed keys. -/
def instsOf (ids : List Nat) (ch : List (Nat × Nat)) : List Nat :=
  ((ch.filter (fun k => ids.contains k.1)).map Prod.snd).dedup

/-- Close the TCP connections that a source or a destination held. -/
def State.tcpFree (s : State) (use : Nat) (owners : List Nat) : State :=
  let gone := s.ctl.tcp.filter (fun c => c.2.use == use && owners.contains c.2.owner)
  gone.foldl (fun s c => s.tcpEnd c.1) s

/-- The indices that source `src` gives up, held from the boundary on; holds that have passed are dropped (R142). `s`: the state
before. -/
def State.releaseIndices (s t : State) (src b : Nat) : AMap Nat :=
  let keep := indicesOf t.ctl.cfg.sources src
  let h := s.indexHold src
  let held := t.ing.held.filter (fun i => decide (b < i.2))
  if h = 0 then held
  else ((indicesOf s.ctl.cfg.sources src).filter (fun i => !keep.contains i)).foldl (fun m i => AMap.set m i (b + h)) held

/-- A commit touches a source (R130, R142, R145, R146): `s` the state before, the DEAD alarm cleared, a removed kind 1 source
told to stop, a defined one fresh from the boundary. -/
def State.sourceCommit (s t : State) (src b : Nat) : State :=
  let was := s.srcDef src
  let t := { t with ing := { t.ing with held := s.releaseIndices t src b } }
  let t := if (s.src src).st = 3 then t.alarm 3 1 src false b else t
  match t.srcDef src with
  | none =>
    let t := match was with
      | some d => if d.kind = 1 then t.c37SendTo src d 1 else t
      | none => t
    (t.tcpFree 1 [src]).setSrc src Src.init
  | some d =>
    let t := t.tcpFree 1 [src]
    let t := t.setSrc src { Src.init with st := if d.kind = 1 then 1 else 2, aliveAt := b, definedAt := b }
    if d.kind = 1 then t.askCfg src d else t

/-- A pod is touched: a parameter of its own changes, or its definition does (R173, R177). -/
def State.podsTouched (s t : State) (ch : List (Nat × Nat)) : List Nat :=
  (List.range 64).filter (fun p =>
    ch.any (fun k => k.1 / 256 == 4 &&
      (if k.1 = Par.ALN.DEST then k.2 / 4 == p else (parDesc k.1).map PDesc.hi == some 63 && k.2 == p)) ||
    ((s.podOn p || t.podOn p) && (s.podDef p).plain != (t.podDef p).plain))

/-- The configuration that a maquette makes of the one in force, as commit `number` with boundary `b` (R58, R63, R177). -/
def State.configAfter (s : State) (maq : AMap MaqEntry) (number : Word) (b : Nat) : Config :=
  let c : Config := { s.ctl.cfg.takeAll s.ident maq with commit := number, boundary := b }
  let pods := s.podsTouched (s.withCfg c) (changedKeys s.ctl.cfg.par c.par)
  { c with pods := pods.foldl (fun m p => m.set p (number, b)) c.pods }

/-- A record of the journal is replayed (R63). A sealed update's record keeps the number in force when it was made, which a base
written since may have passed. -/
def State.replay (s : State) (r : JournalRec) : State :=
  if s.ctl.cfg.commit ≤ r.number then s.withCfg (s.configAfter r.entries r.number r.boundary)
  else s.withCfg (s.configAfter r.entries s.ctl.cfg.commit s.ctl.cfg.boundary)

/-- The configuration in the base slot, if its CRC is valid (R63). -/
def State.baseConfig (s : State) : Config :=
  match s.ctl.flash.get? s.ctl.cfgSlot with
  | some (.whole c crc) => if c.crc = crc then c else Config.init
  | _ => Config.init

/-- What a boot loads (R63): the base, then every journal record that carries its applied mark. The records a base includes are
freed in the write that records it, so that every one the journal holds is newer than the base. -/
def State.storedConfig (s : State) : Config :=
  ((s.ctl.journal.filter JournalRec.applied).foldl State.replay (s.withCfg s.baseConfig)).ctl.cfg

/-- Pods whose members or slot rate change (R193, R202, R469). -/
def State.podsReshaped (s t : State) (pods : List Nat) : List Nat :=
  pods.filter (fun p => s.podOn p != t.podOn p ||
    (s.podDef p).positions != (t.podDef p).positions || (s.podDef p).rate != (t.podDef p).rate)

/-- Instances of a unit's class M parameters in an ID range that change. -/
def mInsts (lo hi : Nat) (ch : List (Nat × Nat)) : List Nat :=
  ((ch.filter (fun k => decide (lo ≤ k.1) && decide (k.1 ≤ hi) && ((parDesc k.1).map PDesc.cls == some .M))).map Prod.snd).dedup

/-- Where a recorder's part of the capture region starts, in MiB (R308). -/
def State.regionStart (s : State) (n : Nat) : Nat := ((List.range n).map (s.parN Par.CAP.REGION_MIB)).sum

/-- Recorders a commit resets: one of their own parameters changes, or their part moves or resizes (12). -/
def State.recordersTouched (s t : State) (ch : List (Nat × Nat)) : List Nat :=
  let own := instsOf [Par.CAP.SOURCE, Par.CAP.INPUTS, Par.CAP.MODE, Par.CAP.REDUCE, Par.CAP.REDUCE_N] ch
  (List.range 8).filter (fun n => own.contains n || s.regionStart n != t.regionStart n ||
    s.parN Par.CAP.REGION_MIB n != t.parN Par.CAP.REGION_MIB n)

/-- Put a configuration into force at boundary `b`, in every unit at one fabric instant (R62). `srcs`: the sources that held
commands define or remove; `wrote`: the parameters written, whether or not their values change (R121). -/
def State.applyConfig (s : State) (c : Config) (b : Nat) (srcs : List Nat) (wrote : List (Nat × Nat)) : State :=
  let ch := changedKeys s.ctl.cfg.par c.par
  let t := s.withCfg c
  let pods := s.podsTouched t ch
  let reshaped := s.podsReshaped t pods
  let changed := s.changedPods t
  let drains := changed.map (fun p =>
    let d := s.podDef p
    (d.needs.1, d.needs.2.1, d.needs.2.2, b + s.drainSpan changed))
  let t := { t with aln := { t.aln with
    draining := t.aln.draining.filter (fun d => decide (b < d.2.2.2)) ++ drains } }
  let t := srcs.foldl (fun (t : State) src => s.sourceCommit t src b) t
  let modes := instsOf [Par.PRT.MODE, Par.PRT.SPEED] ch
  let pcts := instsOf [Par.PRT.DOWNSHIFT_PCT] (ch ++ wrote)
  let t := (modes ++ pcts).dedup.foldl (fun (t : State) n => t.portCommit n (modes.contains n) (pcts.contains n)) t
  let t := t.cnvCommit (instsOf [Par.CNV.SELECT, Par.CNV.GAIN] ch) (instsOf [Par.FLT.PRESET] ch)
    (instsOf [Par.CNV.AVG_N, Par.CNV.AVG_SHIFT] ch) (!(instsOf [Par.CNV.AUX_SEQ] ch).isEmpty)
  let banks := (instsOf [Par.FLT.CUSTOM_CFG] ch ++ (instsOf [Par.FLT.COEF_B] ch).map (fun k => k / 64)).dedup
  let t := banks.foldl State.fltRestartB t
  let t := pods.foldl (fun (t : State) p => t.podCommit p c.commit b) t
  let fds := (mInsts 0x0701 0x070C ch ++ ((List.range 256).filter (fun d => t.parB Par.MOD.FD_ENABLE d && reshaped.contains (t.fdPod d)))).dedup
  let t := fds.foldl (fun (t : State) d => t.fdCommit d b) t
  let mts := (mInsts 0x0710 0x0724 ch ++ ([0, 1, 2, 3].filter (fun k => t.parB Par.MOD.MT_ENABLE k && reshaped.contains (t.parN Par.MOD.MT_POD k)))).dedup
  let t := mts.foldl (fun (t : State) k => t.mtCommit k b) t
  let t := t.armCommit (instsOf [Par.ARM.BRANCH] ch) (instsOf [Par.ARM.NODE] ch)
    (instsOf [Par.ARM.NET_TYPE, Par.ARM.NET_POD] ch) b
  let bals := (mInsts 0x080D 0x0814 ch ++ ((List.range 64).filter (fun g => t.parB Par.ARM.BAL_ENABLE g && reshaped.contains (t.parN Par.ARM.BAL_POD g)))).dedup
  let t := bals.foldl (fun (t : State) g => t.balCommit g b) t
  let t := if ch.any (fun k => k.1 / 256 == 9) then t.cusCommit else t
  (s.recordersTouched t ch).foldl (fun (t : State) n => t.capCommit n c.commit) t

/-- The parameters a maquette writes, as ID and instance. -/
def keysWritten (maq : AMap MaqEntry) : List (Nat × Nat) := maq.map (fun e => (e.1 / 65536, e.1 % 65536))

/-- The sources a maquette's commands define or remove. -/
def sourcesTouched (maq : AMap MaqEntry) : List Nat :=
  maq.filterMap (fun e => match e.2.val with | .value _ => none | _ => some (e.1 % 65536))

/-- TIM.UTC_OFFSET of a maquette goes to its own MRAM at the boundary (R95). -/
def State.offsetCommit (s : State) (maq : AMap MaqEntry) : State :=
  match maq.get? (parKey Par.TIM.UTC_OFFSET 0) with
  | some { val := .value ws, .. } => { s with tim := { s.tim with utcOffset := (ws.getD 0 0).toInt } }
  | _ => s

end Sys2Proof.Machine
end

