-- ==== Sys2Proof/Machine/Device.lean ====
section
/-! DEFINITION. The device states between boot and power-down (01, 18): measuring starts and stops, the entries into CONFIG
and RUN, the boot target rule (R413), and the condition that holds the module in SAFE (R372). -/

namespace Sys2Proof.Machine

open Sys2Proof

/-- Every session ends (R48). -/
def State.endSessions (s : State) : State := { s with ctl := { s.ctl with sessions := [] } }

/-- Set the device state. -/
def State.setDev (s : State) (d : DevState) : State := { s with pwr := { s.pwr with dev := d } }

/-- Slots in time order. -/
def byTime (l : List (Nat × Nat × Slot)) : List (Nat × Nat × Slot) := l.mergeSort (fun u v => decide (u.2.1 ≤ v.2.1))

/-- The final editions held go to custody and to reconciliation, in time order (R174, R415); what took one already takes it
no second time (R22). -/
def State.feedFinals (s : State) : State :=
  (byTime (s.allSlots.filter (fun z => z.2.2.final))).foldl (fun s z =>
    (s.cusTakeAll z.1 z.2.1 z.2.2).balTakeAll z.1 z.2.1) s

/-- The first edition of a slot goes to the detectors, the networks, the balance groups and the recorders of its pod (R174,
R210, R424). -/
def State.feedFirst (s : State) (p g : Nat) : State :=
  let s := (List.range 256).foldl (fun (s : State) d => s.fdFirst d p g) s
  let s := (List.range 16).foldl (fun (s : State) n =>
    if s.runs 8 && s.parN Par.ARM.NET_TYPE n != 0 && s.parN Par.ARM.NET_POD n == p then
      (match s.slot? p g with
        | some x => if x.closed && x.ready then s.armTake n g x else s
        | none => s)
    else s) s
  let s := if s.runs 8 then (List.range 64).foldl (fun (s : State) k => s.balFirst k p g) s else s
  (List.range 8).foldl (fun (s : State) n =>
    if s.capKind n = 1 ∧ s.capNumber n = p then s.capTake n g false else s) s

/-- The alignment matrix closes and finalises every slot; the first editions it issues go to the analytics, and the final ones
are booked (R174, R415). -/
def State.finalsNow (s : State) : State :=
  let opened := byTime (s.allSlots.filter (fun z => !z.2.2.closed))
  let s := s.alnFinalise
  (if s.measuring then opened.foldl (fun (s : State) z => s.feedFirst z.1 z.2.1) s else s).feedFinals

/-- Measuring stops (R324, R343, R415): final editions are booked, then custody is off with a gap of reason 4; logic
suspends; captures end with DISARMED. -/
def State.stopMeasuring (s : State) : State := ((s.finalsNow.lgcSuspend).capStopAll 3).cusOff

/-- Entry into CONFIG from RUN or SAFE (R415). The rule of R413 counts from here. -/
def State.enterConfig (s : State) : State :=
  let s := (if s.measuring then s.stopMeasuring else s).setDev .config
  { s with pwr := { s.pwr with configAt := s.now } }

/-- Measuring starts (R414): pods open slots from the first grid instant after entry; custody, armature and logic start. -/
def State.startMeasuring (s : State) : State :=
  let s := (List.range 64).foldl (fun (s : State) p =>
    if s.podOn p then s.setPod p { s.podSt p with openFrom := s.now + 1 } else s) s
  (s.cusOn.armStart).lgcResume

/-- Entry into a measuring state: SAFE or RUN. Between them measuring goes on. -/
def State.enterMeasuring (s : State) (d : DevState) : State :=
  if s.measuring then s.setDev d else (s.setDev d).startMeasuring

/-- Entry into RUN; the boot target rule has acted or is overridden (R413). -/
def State.enterRun (s : State) : State :=
  let s := s.enterMeasuring .run
  { s with pwr := { s.pwr with ruleDue := false } }

/-- The vault holds the module in SAFE: tamper latch set, or slot 1 or slot 2 not VALID (R372). -/
def State.held (s : State) : Bool := s.vlt.latch || !(s.keySlot 1).has 12 || !(s.keySlot 2).has 12

/-- The boot target rule would enter RUN now (R413). -/
def State.ruleRuns (s : State) : Bool :=
  match s.parN Par.CTL.BOOT_TARGET 0 with
  | 2 => true
  | 1 => s.timeLocked
  | _ => false

/-- The boot target rule, asked again in CONFIG: at a change of TIME_LOCKED (R413). -/
def State.bootRule (s : State) : State :=
  if s.pwr.dev == .config && s.pwr.ruleDue && s.ruleRuns then s.enterRun else s

/-- The module leaves boot, or the condition of R372 ends in SAFE: into RUN where the rule says so at once, else into CONFIG
(R413, R414). -/
def State.leaveHold (s : State) : State :=
  let s := { s with pwr := { s.pwr with ruleDue := s.parN Par.CTL.BOOT_TARGET 0 != 0 } }
  if s.ruleRuns then s.enterRun else s.enterConfig

/-! ### Into BOOT (R411, R412, R417, R419, R429) -/

/-- Field at a byte offset of a bank's manifest (R420). -/
def Bank.word (b : Bank) (offset : Nat) : Nat := ofLe ((b.bytes.drop offset).take 4)

/-- MAGIC, FORMAT and IMAGE_LEN of a bank are valid (R420, R421). -/
def Bank.format (b : Bank) : Bool :=
  b.word 0 == 0x474C4657 && bitsOf (b.word 4) 31 16 == 1 && decide (1 ≤ b.word 8) && decide (b.word 8 ≤ 28311296) &&
  decide (256 + b.word 8 ≤ b.bytes.length)

/-- VARIANT allows the module's variant (R420, R421). -/
def Bank.fits (b : Bank) (i : Ident) : Bool := (b.word 20).testBit (if i.variantM then 0 else 1)

/-- The image authenticates (R421). -/
def Bank.good (b : Bank) (i : Ident) : Bool := b.format && b.auth && b.fits i

/-- A firmware bank. -/
def State.bankOf (s : State) (k : Nat) : Bank := if k = 0 then s.pwr.bank0 else s.pwr.bank1

/-- The boot ROM chooses the bank by the straps; none that authenticates leaves the module in recovery service (R411,
R412). -/
def State.selectBank (s : State) : State :=
  let good := fun k => (s.bankOf k).good s.ident
  let run := fun (s : State) k back => { s with pwr := { s.pwr with bank := k, fallback := back, recovery := false } }
  let recover := { s with pwr := { s.pwr with bank := s.pwr.activeRec, fallback := false, recovery := true } }
  match s.pwr.bootsel with
  | 0 =>
    let a := s.pwr.activeRec
    if good a then run s a false
    else if good (1 - a) then (run s (1 - a) true).count 0x0C0E 0 1
    else recover
  | 1 => if good 0 then run s 0 false else recover
  | 2 => if good 1 then run s 1 false else recover
  | _ => recover

/-- Non-persistent keys are gone (R348, R372, R429). -/
def State.keysKept (s : State) : AMap KeySlot :=
  s.vlt.slot.map (fun k =>
    if k.2.ty != 0 && !k.2.has 10 then
      (k.1, { KeySlot.init with gen := (k.2.gen + 1) % 65536, changed := some s.now })
    else k)

/-- Non-persistent keys are lost (R348, R372). -/
def State.dropVolatile (s : State) : State := { s with vlt := { s.vlt with slot := s.keysKept } }

/-- Slices that have FAILED, and the spares that serve their channels for good (R280). -/
def State.slicesKept (s : State) : Cnv :=
  let bad := fun n => s.cnv.slice.getD n 0 == 4
  let kept := s.cnv.chan.filter (fun c => bad c.1)
  let slice := ((List.range 27).filter bad).foldl (fun (m : AMap Nat) n => m.set n 4) State.reset.cnv.slice
  { State.reset.cnv with
    chan := kept.map (fun c => (c.1, { Chan.init c.1 with slice := c.2.slice }))
    slice := kept.foldl (fun (m : AMap Nat) c => m.erase c.2.slice) slice }

/-- A log after its volatile buffer was lost; LOST marks the next record (R375, R379). -/
def Log.kept (l : Log) : Log := { l with buf := [], lost := l.lost || !l.buf.isEmpty, freeze := none }


/-- What a pass through BOOT leaves of the state (R429): the identity, the flash and MRAM contents, the plinth, the lands the
module reads; everything else as after reset. -/
def State.rebooted (s : State) : State :=
  let r := State.reset
  { r with
    pending := s.pending, ident := s.ident, out := s.out
    pwr := { r.pwr with
      supplies := s.pwr.supplies, resetLow := s.pwr.resetLow, bootsel := s.pwr.bootsel, cause := s.pwr.cause
      activeRec := s.pwr.activeRec, bank := s.pwr.bank, bank0 := s.pwr.bank0, bank1 := s.pwr.bank1, fwNew := s.pwr.fwNew }
    lands := { r.lands with din := s.lands.din }
    ctl := { r.ctl with
      flash := s.ctl.flash, journal := s.ctl.journal, cfgSlot := s.ctl.cfgSlot, consolidations := s.ctl.consolidations
      commitNo := s.storedConfig.commit, linkUp := s.ctl.linkUp, cores := s.ctl.cores }
    tim := { r.tim with
      now := s.tim.now, plinth := s.tim.plinth, plinthAt := s.tim.plinthAt, plinthSet := s.tim.plinthSet
      countLost := s.tim.countLost, utcOffset := s.tim.utcOffset }
    arm := { r.arm with din := s.arm.din }
    cus := { s.cus with regs := [], prov := [], point := [], ready := [] }
    cnv := s.slicesKept
    cap := s.capLose.cap
    lgc := { r.lgc with slots := s.lgc.slots }
    vlt := { s.vlt with slot := s.keysKept, journal := none, batLow := false, capLow := false }
    evt := { s.evt with gen := s.evt.gen.kept, met := s.evt.met.kept, bucket := [], opsec := s.evt.opsecSaved }
    mem := { s.mem with patina := s.mem.saved } }

/-- A pass through BOOT begins with the straps as last sampled; `cause` as CTL.BOOT_CAUSE (R417, R428). -/
def State.startBoot (s : State) (cause : Nat) : State :=
  let t := s.rebooted
  { t with
    pwr := { t.pwr with cause := cause }
    prt := { t.prt with wakeCause := if cause = 2 then s.prt.wakeCause else 0 } }.selectBank

end Sys2Proof.Machine
end

