-- ==== Sys2Proof/Machine/Vault.lean ====
section
/-! DEFINITION. The vault and the plinth (14), and the sealed messages of the custody engine that the vault journal carries
(R257, R258): update messages, the journal, signing, reading keys, tamper, battery and supercapacitor. -/

namespace Sys2Proof.Machine

open Sys2Proof

/-! ### Slots (R347 to R350) -/

/-- Replace a slot. -/
def State.setSlot' (s : State) (k : Nat) (x : KeySlot) : State :=
  { s with vlt := { s.vlt with slot := s.vlt.slot.put KeySlot.init k x } }

/-- The ancestors of a slot, nearest first (R350). -/
def State.ancestors (s : State) : Nat → Nat → List Nat
  | 0, _ => []
  | n + 1, k => let p := (s.keySlot k).parent; if 127 < p then [] else p :: s.ancestors n p

/-- The descendants of a slot (R350). -/
def State.descendants (s : State) (k : Nat) : List Nat :=
  (List.range 128).filter (fun j => j != k && (s.keySlot j).ty != 0 && (s.ancestors 128 j).contains k)

/-- Sessions opened with an affected key end (R48, R363). -/
def State.endSlotSessions (s : State) (l : List Nat) : State :=
  { s with ctl := { s.ctl with sessions := s.ctl.sessions.filter (fun x => !l.contains x.2.slot) } }

/-- Every descendant of a slot becomes ORPHAN, and its sessions end (R350, R363). -/
def State.orphan (s : State) (k : Nat) : State :=
  let l := s.descendants k
  (l.foldl (fun (s : State) (j : Nat) => s.setSlot' j { s.keySlot j with attr := (s.keySlot j).attr ||| 0x800 }) s).endSlotSessions l

/-- A slot changes: its generation advances, its descendants become ORPHAN (R350, R364). -/
def State.changeSlot (s : State) (k : Nat) (x : KeySlot) : State :=
  (s.orphan k).setSlot' k { x with gen := ((s.keySlot k).gen + 1) % 65536, changed := some s.now }

/-- Attributes a type may carry besides PERSISTENT (R349). -/
def typeAttrs : Nat → Nat
  | 1 => 0x283
  | 2 => 0x182
  | 3 => 0x23C
  | 4 => 0x250
  | 5 => 0x078
  | _ => 0

/-- A type and attributes 10:0 agree (R349); the vault's own bits 12:11 are clear (R348). -/
def attrsOk (ty : Nat) (w : Word) : Bool :=
  decide (1 ≤ ty) && decide (ty ≤ 5) && (w &&& 0x1800) == 0 && (w &&& 0x3FF &&& ~~~ BitVec.ofNat 32 (typeAttrs ty)) == 0

/-- The device ID as it enters hashes and derivations: 8 bytes, low first. -/
def State.idBytes (s : State) : List Byte := leBytes 8 s.ident.deviceId.toNat

/-- The vault draws 32 random bytes. -/
def State.draw (s : State) : State × List Byte :=
  ({ s with vlt := { s.vlt with drawn := s.vlt.drawn + 1 } }, (List.range 32).map (Config.randomByte s.vlt.drawn))

/-- A private scalar from drawn bytes: 1 to N − 1. -/
def scalarOf (l : List Byte) : List Byte := beBytes 32 (ofBe l % (p256N - 1) + 1)

/-- A point X, Y lies on the curve (R355). -/
def pointOk (l : List Byte) : Bool := onCurve (ofBe (l.take 32)) (ofBe ((l.drop 32).take 32))

/-- Key material of a slot as derivation takes it: the secret (R351, R352). -/
def KeySlot.material (k : KeySlot) : List Byte := k.secret

/-- The wrap key of R352. -/
def wrapKey (ikm id : List Byte) (slot ty : Nat) : List Byte :=
  hkdf256 ikm id (ascii "GLS-VLT-WRAP" ++ [BitVec.ofNat 8 slot, BitVec.ofNat 8 ty]) 32

/-- The x-coordinate of the ECDH product (R352). -/
def ecdhX (scalar point : List Byte) : List Byte :=
  beBytes 32 (((jAffine (jMul 256 (ofBe scalar) (ofBe (point.take 32), ofBe ((point.drop 32).take 32), 1))).map Prod.fst).getD 0)

/-! ### The counter and the journal (R358, R361) -/

/-- The counter in force: the larger copy (R361). -/
def State.vaultCtr (s : State) : DWord := if s.vlt.ctrMram.toNat < s.vlt.ctrPlinth.toNat then s.vlt.ctrPlinth else s.vlt.ctrMram

/-- COUNTER is above the counter in force; at its end nothing is (R358). -/
def State.ctrAbove (s : State) (c : Nat) : Bool := decide (s.vaultCtr.toNat < c)

/-- Set both copies of the counter. -/
def State.setCtrs (s : State) (c : DWord) : State := { s with vlt := { s.vlt with ctrPlinth := c, ctrMram := c } }

/-- An accepted message is in the journal until its COMMIT (R358, R360). -/
def State.journalled (s : State) (j : Journal) : State := { s with vlt := { s.vlt with journal := some j } }

/-- The metrological log refuses a logged change: frozen, or full (R380, R382). -/
def State.metRefuses (s : State) : Option Nat :=
  if s.evt.met.freeze.isSome then some 0x0126
  else if logSize true ≤ s.evt.met.mram.length + s.evt.met.buf.length then some 0x010F else none

/-- The bytes a signature of a message covers: w4 to the word before SIGNATURE, each word little-endian (R257, R355). -/
def signedBytes (q : Req) : List Byte := wordsLe (q.payload.take (q.payload.length - 16))

/-- SIGNATURE: the last 16 words (R257, R355). -/
def signatureOf (q : Req) : List Byte := q.bytes (q.payload.length - 12) 64

/-- A public key verifies a message's SIGNATURE. -/
def signedBy (q : Req) (pub : List Byte) : Bool := p256Verify pub (sha256 (signedBytes q)) (signatureOf q)

/-! ### Update messages (R355 to R359) -/

/-- The fields of KEY_UPDATE and KEY_INVALIDATE (R355); `inv` for KEY_INVALIDATE. -/
structure KeyMsg where
  inv    : Bool
  op     : Nat
  slot   : Nat
  parent : Nat
  ty     : Nat
  signer : Nat
  attrs  : Word
  m      : Nat
  mat    : List Byte
  deriving DecidableEq, Repr

/-- Read the fields (R355): TYPE 0 of REKEY_ROOT is taken as 5. -/
def keyMsgOf (q : Req) (inv : Bool) : KeyMsg :=
  let op := q.bits 8 31 24
  let ty := q.bits 8 7 4
  { inv := inv, op := op, slot := q.bits 8 23 16, parent := q.bits 8 15 8
    ty := if !inv && op == 2 && ty == 0 then 5 else ty
    signer := q.bits 9 7 0, attrs := q.w 10, m := q.bits 11 15 0, mat := q.bytes 12 (4 * (q.payload.length - 24)) }

/-- The target carries or will carry METROLOGY (R356, R359). -/
def State.keyMetro (s : State) (x : KeyMsg) : Bool :=
  (s.keySlot x.slot).has 7 || (!x.inv && x.attrs.getLsbD 7)

/-- The change is logged in the metrological log (R359). -/
def State.keyLogged (s : State) (x : KeyMsg) : Bool :=
  s.keyMetro x || (s.keySlot x.signer).has 7 || x.slot == 1 || x.slot == 2

/-- The first SET_ANCHOR of a module without an owner (R356). -/
def State.firstAnchor (s : State) (x : KeyMsg) : Bool := !x.inv && x.op == 1 && !(s.keySlot 2).has 12

/-- The signer is accepted for the message (R356). -/
def State.signerOk (s : State) (q : Req) (x : KeyMsg) : Bool :=
  let k := s.keySlot x.signer
  if s.firstAnchor x then x.signer == 2 && isLocal q.carriage
  else
    decide (x.signer ≤ 127) && k.usable && (k.ty == 1 || k.ty == 2) && k.has 1 &&
      (if !x.inv && (x.op == 1 || x.op == 2) then x.signer == 2
       else if s.keyMetro x then (k.has 7 && k.has 8) || (x.signer == 2 && !s.sealedBit)
       else x.signer == 2)

/-- The public key a message is verified with: the slot's, or the one in MATERIAL (R356). -/
def State.signerKey (s : State) (x : KeyMsg) : List Byte :=
  if s.firstAnchor x then x.mat.take 64 else (s.keySlot x.signer).pub

/-- A parent slot holds a usable key with attribute `b`. -/
def State.parentHas (s : State) (p b : Nat) : Bool := decide (p ≤ 127) && (s.keySlot p).usable && (s.keySlot p).has b

/-- The parent chain allows the load: at most 8 ancestors, the parent neither the target nor below it (R350). -/
def State.chainOk (s : State) (slot parent : Nat) : Bool :=
  parent != slot && !(s.descendants slot).contains parent && decide ((s.ancestors 128 parent).length + 1 ≤ 8)

/-- Step 8 of R357: COUNT_EXCEEDS, VALUE_RANGE, or 0. -/
def State.keyFields (s : State) (q : Req) (x : KeyMsg) : Nat :=
  let working := decide (3 ≤ x.slot) && decide (x.slot ≤ 127)
  if q.payload.length ≠ 24 + x.m then 0x0116
  else
    let good :=
      if x.inv then x.op == 0 && working
      else attrsOk x.ty x.attrs &&
        (match x.op with
        | 1 => x.slot == 2 && x.parent == 0xFF && x.m == 16 && x.ty == 2 && pointOk x.mat
        | 2 => x.slot == 1 && x.parent == 0xFF && x.m == 0 && x.ty == 5
        | 3 => working && x.parent == 0xFF && x.m == 0 && x.ty == 1
        | 4 => working && s.parentHas x.parent 4 && s.chainOk x.slot x.parent && decide (x.m ≤ 16) && decide (3 ≤ x.ty)
        | 5 => working && x.ty != 2 && s.chainOk x.slot x.parent &&
          (if x.parent = 0 then x.m == 31 && pointOk x.mat
           else x.m == 15 && s.parentHas x.parent 5 && s.parentHas x.parent 3)
        | 6 => working && x.parent == 0xFF && x.m == 16 && x.ty == 2 && pointOk x.mat
        | _ => false)
    if good then 0 else 0x0106

/-- Steps 1 to 8 of R357: the first failure, or 0. -/
def State.keyStatus (s : State) (q : Req) (x : KeyMsg) : Nat :=
  if q.dw 4 ≠ s.ident.deviceId.toNat then 0x0112
  else if !s.ctrAbove (q.dw 6) then 0x0111
  else if !s.signerOk q x then 0x0109
  else if !signedBy q (s.signerKey x) then 0x0113
  else if s.vlt.latch && !(!x.inv && (x.op == 1 || x.op == 2)) then 0x0110
  else match (if s.keyLogged x then s.metRefuses else none) with
    | some st => st
    | none => if s.vlt.journal.isSome then 0x010B else s.keyFields q x

/-- A key as a message loads it: VALID, no parent unless given. -/
def KeyMsg.load (x : KeyMsg) (secret pub : List Byte) (parent : Nat) : KeySlot :=
  { KeySlot.init with
    attr := (x.attrs &&& 0x7FF) ||| 0x1000, ty := x.ty, parent := parent, secret := secret, pub := pub }

/-- The material LOAD_WRAPPED opens (R352): none where the tag fails. -/
def State.unwrap (s : State) (q : Req) (x : KeyMsg) : Option (List Byte) :=
  let (ikm, rest) := if x.parent = 0 then (ecdhX (s.keySlot 0).secret x.mat, x.mat.drop 64)
    else ((s.keySlot x.parent).material, x.mat)
  gcmOpen (wrapKey ikm s.idBytes x.slot x.ty) (rest.take 12) (wordsLe (q.payload.take 8)) ((rest.drop 12).take 32)
    ((rest.drop 44).take 16)

/-- What an accepted message does at its COMMIT, or the failure of step 9 (R351, R352, R355). -/
def State.keyEffect (s : State) (q : Req) (x : KeyMsg) : State × Except Nat VaultOp :=
  if x.inv then (s, .ok (.invalidate x.slot))
  else match x.op with
    | 1 => (s, .ok (.key 1 2 { KeySlot.init with attr := 0x1502, ty := 2, pub := x.mat.take 64 }))
    | 2 => let (s, r) := s.draw; (s, .ok (.rekey r))
    | 3 =>
      let (s, r) := s.draw
      (s, .ok (.key 3 x.slot (x.load (scalarOf r) (p256Public (ofBe (scalarOf r))) 0xFF)))
    | 4 =>
      let info := ascii "GLS-VLT-DRV" ++ [BitVec.ofNat 8 x.slot, BitVec.ofNat 8 x.ty] ++ x.mat
      (s, .ok (.key 4 x.slot (x.load (hkdf256 (s.keySlot x.parent).material s.idBytes info 32) [] x.parent)))
    | 5 =>
      match s.unwrap q x with
      | none => (s, .error 0x0113)
      | some key =>
        let d := ofBe key
        if x.ty = 1 ∧ (d = 0 ∨ p256N ≤ d) then (s, .error 0x0106)
        else (s, .ok (.key 5 x.slot (x.load key (if x.ty = 1 then p256Public d else []) x.parent)))
    | _ => (s, .ok (.key 6 x.slot (x.load [] (x.mat.take 64) 0xFF)))

/-- A refused update message: counted and recorded (R359). -/
def State.refuseKey (s : State) (x : KeyMsg) (st : Nat) : State × Option Ans :=
  ((s.count 0x0D02 0 1).logEv 0x0D02 0x0D s.now (BitVec.ofNat 64 (x.op * 2 ^ 56 + x.slot * 2 ^ 48 + st)), err st)

/-- KEY_UPDATE and KEY_INVALIDATE (R355 to R360): the checks; an accepted message waits for the journal. -/
def State.keyUpdate (s : State) (q : Req) (inv : Bool) : State × Option Ans :=
  let x := keyMsgOf q inv
  match s.keyStatus q x with
  | 0 =>
    match s.keyEffect q x with
    | (_, .error st) => s.refuseKey x st
    | (s', .ok op) =>
      (s'.journalled { req := q, op := op, code := x.op, slot := x.slot, counter := BitVec.ofNat 64 (q.dw 6), metro := s.keyLogged x }, none)
  | st => s.refuseKey x st

/-- Serve KEY_UPDATE. -/
def State.serveKeyUpdate (s : State) (q : Req) : State := s.serve q 0x0600 0x0D 0 24 true (fun _ s => s.keyUpdate q false)

/-- KEY_UPDATE SET_ANCHOR. The row is the operation the packet names (R355); each of the six rows serves the packet. -/
def execKeyUpdateSetAnchor (dt : Nat) (q : Req) (s : State) : Out := .next ((s.advance dt).serveKeyUpdate q)

/-- KEY_UPDATE REKEY_ROOT. -/
def execKeyUpdateRekeyRoot (dt : Nat) (q : Req) (s : State) : Out := .next ((s.advance dt).serveKeyUpdate q)

/-- KEY_UPDATE GENERATE. -/
def execKeyUpdateGenerate (dt : Nat) (q : Req) (s : State) : Out := .next ((s.advance dt).serveKeyUpdate q)

/-- KEY_UPDATE DERIVE. -/
def execKeyUpdateDerive (dt : Nat) (q : Req) (s : State) : Out := .next ((s.advance dt).serveKeyUpdate q)

/-- KEY_UPDATE LOAD_WRAPPED. -/
def execKeyUpdateLoadWrapped (dt : Nat) (q : Req) (s : State) : Out := .next ((s.advance dt).serveKeyUpdate q)

/-- KEY_UPDATE LOAD_PUBLIC. -/
def execKeyUpdateLoadPublic (dt : Nat) (q : Req) (s : State) : Out := .next ((s.advance dt).serveKeyUpdate q)

/-- KEY_INVALIDATE (0x0601). -/
def execKeyInvalidate (dt : Nat) (q : Req) (s : State) : Out :=
  .next ((s.advance dt).serve q 0x0601 0x0D 0 24 true (fun _ s => s.keyUpdate q true))

/-! ### Sealed messages (R257, R258) -/

/-- SIGNER of a sealed message is accepted: METROLOGY and OWNER, or slot 2 while not sealed (R258); in SAFE with an unkeyed
vault none is (R28). -/
def State.sealSigner (s : State) (k : Nat) : Bool :=
  let x := s.keySlot k
  decide (k ≤ 127) && x.usable && (x.ty == 1 || x.ty == 2) && x.has 1 &&
    ((x.has 7 && x.has 8) || (k == 2 && !s.sealedBit)) &&
    !(s.pwr.dev == .safe && !s.vlt.latch)

/-- CUS.SIGN_SLOT can sign records (R255, R258). -/
def State.signSlotOk (s : State) : Bool :=
  let k := s.keySlot (s.parN Par.CUS.SIGN_SLOT 0)
  k.usable && k.has 0 && k.has 7 && k.ty == 1

/-- The dependencies of the points of two configurations (R257). -/
def State.sealedDeps (s t : State) : List (Nat × Nat) :=
  s.points.flatMap (fun p => s.dependencies p.1 p.2) ++ t.points.flatMap (fun p => t.dependencies p.1 p.2)

/-- What is wrong with an item of CUS_SEALED_UPDATE (step 9 of R258): ID, instance, class, value. A source definition is an
item of ID 0x030B as DIFF_MAQUETTE carries it. -/
def State.sealedFault (s : State) (deps : List (Nat × Nat)) (x : WItem) : Option Nat :=
  match parDesc x.id with
  | none => some 0x0104
  | some d =>
    if !d.hasInst x.inst then some 0x0105
    else if d.cls != .S && !deps.contains (x.id, x.inst) then some 0x0107
    else if x.id = Par.ING.SRC_STATE then
      (if x.value.length = 1 then none
       else match s.defineStatus x.value with
         | 0 => if wordBits x.value 0 31 16 = x.inst then none else some 0x0106
         | st => some st)
    else if x.value.length ≠ d.words ∨ !d.range.ok x.id x.value then some 0x0106
    else none

/-- The configuration with the items of a sealed update applied. -/
def Config.takeItem (i : Ident) (c : Config) (x : WItem) : Config :=
  if x.id = Par.ING.SRC_STATE then
    (if x.value.length = 1 then { c with sources := c.sources.erase x.inst } else { c with sources := c.sources.set x.inst x.value })
  else c.setPar i x.id x.inst x.value

/-- The fields of a sealed message: OPERATION, COUNT, items or points. -/
structure SealMsg where
  update : Bool
  op     : Nat
  count  : Nat
  signer : Nat
  body   : List Word
  deriving DecidableEq, Repr

/-- Read them (R257). -/
def sealMsgOf (q : Req) (update : Bool) : SealMsg :=
  { update := update, op := q.bits 8 31 24, count := q.bits 8 15 0, signer := q.bits 9 7 0
    body := (q.rest 10).take (q.payload.length - 22) }

/-- Steps 1 to 8 of R258: the first failure, or 0. A frozen metrological log refuses as a full one does (R382). -/
def State.sealStatus (s : State) (q : Req) (x : SealMsg) : Nat :=
  if !s.ident.variantM then 0x0118
  else if q.dw 4 ≠ s.ident.deviceId.toNat then 0x0112
  else if !s.ctrAbove (q.dw 6) then 0x0111
  else if !s.sealSigner x.signer then 0x0109
  else if !signedBy q (s.keySlot x.signer).pub then 0x0113
  else if s.vlt.latch then 0x0110
  else match s.metRefuses with
    | some st => st
    | none =>
      if x.update then (if x.op = 0 then 0 else 0x0106)
      else match x.op with
        | 1 => if s.sealedBit then 0x0108 else 0
        | 2 => if s.sealedBit then 0 else 0x0128
        | 3 => if s.sealedBit then 0x0108 else 0
        | _ => 0x0106

/-- Steps 9 and 10 of R258 for CUS_SEALED_UPDATE: what it will do, or its answer. -/
def State.sealedUpdate (s : State) (x : SealMsg) : State × Except (Option Ans) VaultOp :=
  if x.count = 0 then (s, .error (err 0x0106))
  else if 1024 < x.count then (s, .error (err 0x0116))
  else match (itemsOf' x.count x.body).map (fun l => l.map WItem.kept) with
    | none => (s, .error (err 0x0116))
    | some items =>
      let c := items.foldl (Config.takeItem s.ident) s.ctl.cfg
      let t := s.withCfg c
      let deps := s.sealedDeps t
      match ((List.range items.length).zip items).findSome? (fun p => (s.sealedFault deps p.2).map (fun f => (p.1, p.2.id, f))) with
      | some (i, id, f) => (s, .error (errItem f i id))
      | none =>
        if s.ctl.commit.isSome then (s, .error (err 0x010B))
        else
          let l := s.conflictsOf t true false
          if l.isEmpty then (s, .ok (.update (items.map (fun x => (x.id, x.inst, x.value)))))
          else (s.keepConflicts l, .error (conflictAns l))

/-- Steps 9 and 10 of R258: what an accepted message will do, or its answer. -/
def State.sealBody (s : State) (x : SealMsg) : State × Except (Option Ans) VaultOp :=
  if x.update then s.sealedUpdate x
  else if x.op = 3 then
    (if x.count = 0 ∨ x.body.any (fun w => decide (511 < w.toNat)) then (s, .error (err 0x0106))
     else if 512 < x.count ∨ x.body.length < x.count then (s, .error (err 0x0116))
     else if s.ctl.commit.isSome then (s, .error (err 0x010B))
     else (s, .ok (.clear ((x.body.take x.count).map BitVec.toNat))))
  else if x.count ≠ 0 then (s, .error (err 0x0106))
  else if s.ctl.commit.isSome then (s, .error (err 0x010B))
  else if x.op = 1 then (if s.signSlotOk then (s, .ok .seal) else (s, .error (err 0x0109)))
  else (s, .ok .break_)

/-- CUS_SEAL and CUS_SEALED_UPDATE (R258): the checks; an accepted message waits for the journal, one at a time (R358). -/
def State.sealMessage (s : State) (q : Req) (update : Bool) : State × Option Ans :=
  let x := sealMsgOf q update
  match s.sealStatus q x with
  | 0 =>
    if s.vlt.journal.isSome then (s, err 0x010B)
    else match s.sealBody x with
      | (s, .error a) => (s, a)
      | (s, .ok op) =>
        (s.journalled { req := q, op := op, code := x.op, slot := 0xFF, counter := BitVec.ofNat 64 (q.dw 6), metro := true }, none)
  | st => (s, err st)

/-- Serve CUS_SEAL. -/
def State.serveSeal (s : State) (q : Req) : State := s.serve q 0x0803 9 0 22 true (fun _ s => s.sealMessage q false)

/-- CUS_SEAL SEAL. The row is the operation the packet names (R257); each of the three rows serves the packet. -/
def execCusSealSeal (dt : Nat) (q : Req) (s : State) : Out := .next ((s.advance dt).serveSeal q)

/-- CUS_SEAL BREAK. -/
def execCusSealBreak (dt : Nat) (q : Req) (s : State) : Out := .next ((s.advance dt).serveSeal q)

/-- CUS_SEAL CLEAR_REGISTERS. -/
def execCusSealClearRegisters (dt : Nat) (q : Req) (s : State) : Out := .next ((s.advance dt).serveSeal q)

/-- CUS_SEALED_UPDATE (0x0804). -/
def execCusSealedUpdate (dt : Nat) (q : Req) (s : State) : Out :=
  .next ((s.advance dt).serve q 0x0804 9 0 22 true (fun _ s => s.sealMessage q true))

/-! ### The COMMIT (R258, R360) -/

/-- A metrological record of a seal operation; one that finds the log full counts in CUS_MLOG_LOST (R67, R262). -/
def State.sealLog (s : State) (code : Nat) (par : Nat) : State :=
  let (s, kept) := s.admitMet code 9 1 false s.now (BitVec.ofNat 64 par)
  if kept then s else s.count 0x0908 0 1

/-- SEAL_OP (R377). -/
def State.sealOp (s : State) (op : Nat) (c : DWord) : State := s.sealLog 0x0905 (c.toNat % 2 ^ 32 * 2 ^ 32 + op)

/-- The SHA-256 of the sealed configuration in force (R258). -/
def State.sealedHash (s : State) : List Byte :=
  (List.range 32).map (Config.sealedHashByte s.ctl.cfg.par s.ctl.cfg.sources)

/-- SEAL: SEALED set, the hash logged, the legal registers unfrozen (R258, R260, R377). -/
def State.applySeal (s : State) (c : DWord) : State :=
  let hash := s.sealedHash
  let s := { s with cus := { s.cus with sealed := true, sealHash := hash } }.sealOp 1 c
  let s := [0, 1, 2, 3].foldl (fun (s : State) k => s.sealLog 0x0906 (ofLe ((hash.drop (8 * k)).take 8))) s
  s.cusUnfreeze

/-- Zero a point's registers, provisional ones included, and log the used legal ones before (R258, R377). -/
def State.clearPoint (s : State) (p : Nat) : State :=
  let x := s.point p
  let d := if x.word = 0 then pointDefOf (s.parN Par.CUS.POINT p) else x.defn
  let s := (List.range d.nreg).foldl (fun (s : State) n =>
    let r := s.reg false p n
    s.sealLog (0x0910 + p / 256 * 8 + n) (p % 256 * 2 ^ 56 + r.roll * 2 ^ 40 + r.value)) s
  let keep := fun (m : AMap Reg) => m.filter (fun r => r.1 / 8 != p)
  { s with cus := { s.cus with
    regs := keep s.cus.regs, prov := keep s.cus.prov, snapshot := s.cus.snapshot.map keep } }.pointChanged p

/-- The points an item of a sealed update touches (R258). -/
def State.pointsOf (s : State) (id inst : Nat) : List Nat :=
  if id / 256 = 9 then
    (match parDesc id with
     | some d => if d.hi = 511 then [inst] else if d.hi = 1535 then [inst / 3] else s.points.map Prod.fst
     | none => [])
  else (s.points.filter (fun p => (s.dependencies p.1 p.2).contains (id, inst))).map Prod.fst

/-- The value an item replaces. -/
def State.itemValue (s : State) (id inst : Nat) : List Word :=
  if id = Par.ING.SRC_STATE then (s.ctl.cfg.sources.get? inst).getD [] else s.par id inst

/-- The entries that a sealed update's items make in a journal record. -/
def sealedEntries (l : List WItem) : AMap MaqEntry :=
  l.foldl (fun (m : AMap MaqEntry) x =>
    let v : MaqVal := if x.id = Par.ING.SRC_STATE then (if x.value.length = 1 then .remove else .define x.value) else .value x.value
    AMap.set m x.key { session := 0, val := v }) []

/-- CUS_SEALED_UPDATE: a record per item, the new configuration at one instant, CHANGE (R258); while sealed, the hash of the
configuration now in force. It is kept as an applied record of the configuration journal under the commit number in force, its
capacity not checked (DESIGN CHOICE, log 70). -/
def State.applySealed (s : State) (items : List (Nat × Nat × List Word)) : State :=
  let l := items.map (fun x => ({ id := x.1, inst := x.2.1, value := x.2.2 } : WItem))
  let kept := { journalRec s.ctl.cfg.commit s.ctl.cfg.boundary (sealedEntries l) with applied := true }
  let points := l.flatMap (fun x => s.pointsOf x.id x.inst)
  let s := l.foldl (fun (s : State) x => s.sealLog 0x0904 (x.id * 2 ^ 48 + x.inst * 2 ^ 32 +
    ofLe ((sha256 (wordsLe (s.itemValue x.id x.inst) ++ wordsLe x.value)).take 4))) s
  let srcs := (l.filter (fun x => x.id == Par.ING.SRC_STATE)).map WItem.inst
  let s := s.applyConfig (s.configAfter kept.entries kept.number kept.boundary) s.now srcs
    (l.map (fun x => (x.id, x.inst)))
  let s := { s with ctl := { s.ctl with journal := s.ctl.journal ++ [kept] } }
  let s := if s.cus.sealed then { s with cus := { s.cus with sealHash := s.sealedHash } } else s
  let after := l.flatMap (fun x => s.pointsOf x.id x.inst)
  (points ++ after).dedup.foldl State.pointChanged s

/-- KEY_ACCEPTED in the log of R359. -/
def State.keyAccepted (s : State) (j : Journal) : State :=
  let par := BitVec.ofNat 64 (j.code * 2 ^ 56 + j.slot * 2 ^ 48 + j.counter.toNat % 2 ^ 48)
  let s := s.count 0x0D01 0 1
  if j.metro then (s.admitMet 0x0D01 0x0D 1 false s.now par).1 else s.logEv 0x0D01 0x0D s.now par

/-- What the COMMIT of a journal operation applies (R258, R360, R363, R371). -/
def State.applyVault (s : State) (j : Journal) : State :=
  let s := s.setCtrs j.counter
  match j.op with
  | .key _ k x => (s.changeSlot k x).keyAccepted j
  | .invalidate k =>
    let x := s.keySlot k
    let s := (s.changeSlot k { x with attr := x.attr &&& ~~~ (0x1800 : Word), secret := [] }).endSlotSessions [k]
    s.keyAccepted j
  | .rekey r =>
    let s := s.changeSlot 1 { KeySlot.init with attr := 0x1410, ty := 5, secret := r }
    let s := { s with vlt := { s.vlt with latch := false } }.alarm 0x0D 1 0 false s.now
    let s := s.keyAccepted j
    if s.pwr.dev == .safe && !s.held then s.leaveHold else s
  | .seal => { s with cus := { s.cus with sealCtr := j.counter } }.applySeal j.counter
  | .break_ => { s with cus := { s.cus with sealCtr := j.counter, sealed := false } }.sealOp 2 j.counter
  | .clear ps =>
    let s := { s with cus := { s.cus with sealCtr := j.counter } }.sealOp 3 j.counter
    ps.dedup.foldl State.clearPoint s
  | .update items => { s with cus := { s.cus with sealCtr := j.counter } }.applySealed items

/-- Opcode and unit of a journal operation's reply. -/
def VaultOp.opcode : VaultOp → Nat × Nat
  | .key .. => (0x0600, 0x0D)
  | .rekey _ => (0x0600, 0x0D)
  | .invalidate _ => (0x0601, 0x0D)
  | .update _ => (0x0804, 9)
  | _ => (0x0803, 9)

/-- Answer a journal operation. -/
def State.answerJournal (s : State) (j : Journal) (a : Ans) : State := s.answerLater j.req j.op.opcode.1 j.op.opcode.2 a

/-- The journal operation in progress ends: applied, its metrological records in MRAM, answered OK (R360, R379). -/
def State.journalCommit (s : State) : State :=
  match s.vlt.journal with
  | none => s
  | some j =>
    let s := { s with vlt := { s.vlt with journal := none } }.applyVault j
    (if j.metro then s.flushLog true else s).answerJournal j (0, [])

/-- VAULT_JOURNAL_COMMIT. The vault works in every state but BOOT, SLEEP and HALT, outside the power-fail sequence. -/
def execVaultJournalCommit (dt : Nat) (s : State) : Out :=
  let s := s.advance dt
  .next (if s.up && !s.pwr.pfw then s.journalCommit else s)

/-! ### Signing and reading (R354, R364) -/

/-- Signing is refused in SAFE: TAMPERED with the latch set, else NOT_AUTHORISED (R28). -/
def State.safeRefusal (s : State) : Option Nat :=
  if s.pwr.dev == .safe then some (if s.vlt.latch then 0x0110 else 0x0109) else none

/-- SIGN (0x0603). -/
def execSign (dt : Nat) (q : Req) (s : State) : Out :=
  .next ((s.advance dt).serve q 0x0603 0x0D 1 9 true (fun _ s =>
    let n := q.bits 4 7 0
    let k := s.keySlot n
    match s.safeRefusal with
    | some st => (s, err st)
    | none =>
      if 127 < n then (s, err 0x0106)
      else if !k.usable || k.ty != 1 || !k.has 0 || k.has 7 then (s, err 0x0109)
      else
        let d := ofBe k.secret
        let c := s.vaultCtr.toNat
        let digest := if n = 0 then sha256 (ascii "GLENIS-ATTEST-V1" ++ s.idBytes ++ leBytes 8 c ++ q.bytes 5 32) else q.bytes 5 32
        (s.count 0x0D03 0 1, ok (q.carriage.pack (p256SignWith d (p256Nonce d digest) digest) ++
          (if n = 0 then words64 c else [0, 0])))))

/-- VERIFY (0x0604). A slot holds a usable key of type 1 or 2 with VERIFY. -/
def execVerify (dt : Nat) (q : Req) (s : State) : Out :=
  .next ((s.advance dt).serve q 0x0604 0x0D 0 41 true (fun _ s =>
    let n := q.bits 4 7 0
    let k := s.keySlot n
    if n ≠ 0xFF ∧ 127 < n then (s, err 0x0106)
    else if n ≠ 0xFF ∧ !(k.usable && (k.ty == 1 || k.ty == 2) && k.has 1) then (s, err 0x0109)
    else if p256Verify (if n = 0xFF then q.bytes 13 64 else k.pub) (q.bytes 5 32) (q.bytes 29 64) then (s, ok [])
    else (s.count 0x0D04 0 1, err 0x0113)))

/-- The words KEY_INFO returns of a slot (R364). -/
def keyWords (c : Carriage) (k : KeySlot) : List Word :=
  [k.attr, BitVec.ofNat 32 (k.ty * 2 ^ 28 + k.parent * 2 ^ 16 + k.gen)] ++ words64 (gtfOpt k.changed) ++
  c.pack (padTo 64 k.pub) ++
  (if 3 ≤ k.ty ∧ !k.secret.isEmpty then c.pack ((hmac256 k.secret (ascii "KCV")).take 4) else [0])

/-- KEY_INFO without EXPORT. -/
def State.keyInfo (s : State) (q : Req) : Option Ans :=
  if 127 < q.bits 4 7 0 then err 0x0106 else ok (keyWords q.carriage (s.keySlot (q.bits 4 7 0)))

/-- KEY_INFO with EXPORT (R354): the key wrapped for a partner, under a fresh nonce. -/
def State.keyExport (s : State) (q : Req) (role : Nat) : State × Option Ans :=
  let n := q.bits 4 7 0
  let k := s.keySlot n
  let w := s.keySlot (q.bits 4 23 16)
  if 127 < n ∨ q.payload.length < 4 then (s, err 0x0106)
  else if role < 2 ∨ !k.usable ∨ !k.has 9 ∨ 127 < q.bits 4 23 16 ∨ !w.usable ∨ !w.has 5 ∨ !w.has 2 then (s, err 0x0109)
  else
    let (s, r) := s.draw
    let target := q.bits 5 7 0
    let id := leBytes 8 (q.dw 6)
    let aad := (List.range 32).map (Config.exportData n target (BitVec.ofNat 64 (q.dw 6)))
    let (ct, tag) := gcmSeal (wrapKey w.material id target k.ty) (r.take 12) aad k.secret
    (s, ok (keyWords q.carriage k ++ q.carriage.pack (r.take 12 ++ ct ++ tag)))

/-- Serve KEY_INFO (0x0602): bit 8 of w4 is EXPORT. -/
def State.serveKeyInfo (s : State) (q : Req) : State :=
  s.serve q 0x0602 0x0D 0 1 true (fun role s => if (q.w 4).getLsbD 8 then s.keyExport q role else (s, s.keyInfo q))

/-- KEY_INFO without EXPORT; each of the two rows serves the packet as its EXPORT bit says. -/
def execKeyInfo (dt : Nat) (q : Req) (s : State) : Out := .next ((s.advance dt).serveKeyInfo q)

/-- KEY_INFO with EXPORT. -/
def execKeyInfoExport (dt : Nat) (q : Req) (s : State) : Out := .next ((s.advance dt).serveKeyInfo q)

/-- DEVICE_CERT (0x0605). -/
def execDeviceCert (dt : Nat) (q : Req) (s : State) : Out :=
  .next ((s.advance dt).serve q 0x0605 0x0D 0 3 true (fun _ s =>
    let which := q.bits 4 0 0
    let first := (q.w 5).toNat
    let n := (q.w 6).toNat
    let total := Config.certLength which
    if n < 4 ∨ n % 4 ≠ 0 then (s, err 0x0106) else if 4096 < n then (s, err 0x0116) else if total < first then (s, err 0x0106)
    else
      let k := min n (total - first)
      (s, ok ([BitVec.ofNat 32 total, BitVec.ofNat 32 k] ++
        q.carriage.pack ((List.range k).map (fun i => Config.certByte which (first + i)))))))

/-- COUNTER_READ (0x0606). -/
def execCounterRead (dt : Nat) (q : Req) (s : State) : Out :=
  .next ((s.advance dt).serve q 0x0606 0x0D 0 0 true (fun _ s =>
    (s, ok (words64 s.vaultCtr.toNat ++ words64 s.vlt.ctrPlinth.toNat ++ words64 s.vlt.ctrMram.toNat ++
      [BitVec.ofNat 32 (bitAt s.vlt.journal.isSome 0 + bitAt s.vlt.latch 1)]))))

/-! ### Tamper (R369 to R372) -/

/-- A source is watched now: always, or enabled by VLT.TAMPER_EN, during BOOT as it is stored (R370). -/
def State.tamperWatched (s : State) (source : Nat) : Bool :=
  let en := if s.pwr.dev = .boot then
      (((s.storedConfig.par.get? (parKey Par.VLT.TAMPER_EN 0)).getD (parReset s.ident Par.VLT.TAMPER_EN 0)).getD 0 0).toNat
    else s.parN Par.VLT.TAMPER_EN 0
  match source with
  | 6 => en.testBit 0
  | 0 => false
  | k => if 2 ≤ k ∧ k ≤ 5 then en.testBit (k - 1) else decide (k ≤ 11)

/-- The plinth's own response (R371): slot 1 and the vault RAM zeroed, the latch set, a record while fewer than 8 are
held. -/
def State.plinthTamper (s : State) (source : Nat) (copied : Bool) : State :=
  let old := s.keySlot 1
  let s := (if old.ty = 0 then s else s.setSlot' 1 { KeySlot.init with gen := (old.gen + 1) % 65536, changed := some s.now }).dropVolatile
  let v := s.vlt
  let recs := if v.records.length < 8 then v.records ++ [{ source := source, gtf := gtfOf s.plinthNow, copied := copied }] else v.records
  { s with vlt := { v with
    latch := true, lastSource := source, records := recs, count := min (v.count + 1) 0xFFFF } }.count 0x0D05 0 1

/-- Secret working keys are erased: types 1, 3, 4, 5 of slots 3 to 127 (R353). -/
def State.eraseSecrets (s : State) : State :=
  (s.vlt.slot.filter (fun k => decide (3 ≤ k.1) && decide (k.2.ty != 2) && k.2.ty != 0)).foldl (fun (s : State) k =>
    s.setSlot' k.1 { KeySlot.init with gen := (k.2.gen + 1) % 65536, changed := some s.now }) s

/-- Descendants of slot 1 that keep no material are empty; type 2 keys have no parent. The tamper records not yet copied go
to the metrological log, stamped by the plinth (R371). -/
def State.copyTampers (s : State) : State :=
  let due := s.vlt.records.filter (fun r => !r.copied)
  let s := due.foldl (fun (s : State) r =>
    (s.admitMet 0x0D03 0x0D 4 true (nsOf r.gtf) (BitVec.ofNat 64 (s.vlt.count * 65536 + r.source))).1) s
  { s with vlt := { s.vlt with records := s.vlt.records.map (fun r => { r with copied := true }) } }

/-- The TAMPER notification (R371). -/
def State.tamperNotice (s : State) : State :=
  let v := s.vlt
  s.notify 0xC005 0 0x0D ([BitVec.ofNat 32 (v.lastSource * 2 ^ 24 + v.records.length * 2 ^ 20 + bitAt v.latch 16 + v.count)] ++
    words64 ((v.records.getLast?.map TamperRec.gtf).getD (gtfOf s.plinthNow)))

/-- The main die's part (R371): SAFE, working keys erased, sessions ended, SEALED cleared, legal registers frozen, alarm,
notification, records copied; an update in progress is aborted with TAMPERED (R362). -/
def State.mainTamper (s : State) (t : Nat) : State :=
  let s := match s.vlt.journal with
    | some j => { s with vlt := { s.vlt with journal := none } }.answerJournal j (0x0110, [detail 0xFFFF 0])
    | none => s
  let s := (s.eraseSecrets).endSessions
  let s := s.enterMeasuring .safe
  let s := (s.cusFreeze t).alarm 0x0D 1 0 true t
  let s := { s with cus := { s.cus with sealed := false }, vlt := { s.vlt with pendingT := false } }
  s.tamperNotice.copyTampers

/-- The plinth memory was lost (R369): the check word is invalid at boot. Its counter copy, count, stamp, records and latch
are gone; with slot 1 shown VALID by the journal it is a tamper, else nothing is latched. -/
def State.plinthLost (s : State) : State :=
  let valid := (s.keySlot 1).has 12
  let s := { s with
    vlt := { s.vlt with ctrPlinth := s.vlt.ctrMram, latch := false, records := [] }
    tim := { s.tim with plinth := 0, plinthAt := s.now, plinthSet := false, countLost := true }
    cus := { s.cus with pfwStamp := none } }
  if valid then
    let s := s.plinthTamper 11 false
    { s with vlt := { s.vlt with pendingT := true } }
  else s

/-- TAMPER_DETECTED. In RUN, CONFIG and SAFE the main die acts at once; in BOOT at its end; in HALT and unpowered at the next
boot; in SLEEP the plinth wakes the module into BOOT with cause 2 (R371, R417). Source 11 is found at boot (R369). -/
def State.tamper (s : State) (source : Nat) : State :=
  if source = 11 then (if s.pwr.dev == .boot then s.plinthLost else s)
  else if !s.tamperWatched source then s
  else
    let t := s.now
    let s := s.plinthTamper source false
    match s.pwr.dev with
    | .run | .config | .safe => if s.pwr.pfw then { s with vlt := { s.vlt with pendingT := true } } else s.mainTamper t
    | .sleep => { s with vlt := { s.vlt with pendingT := true } }.startBoot 2
    | _ => { s with vlt := { s.vlt with pendingT := true } }

/-- TAMPER_DETECTED. -/
def execTamperDetected (dt : Nat) (source : Nat) (s : State) : Out := .next ((s.advance dt).tamper source)

/-! ### Battery and supercapacitor (R367, R451) -/

/-- The module measures while its main die is powered. -/
def State.powered (s : State) : Bool := s.pwr.supplies && !s.pwr.resetLow && s.pwr.dev != .sleep && s.pwr.dev != .boot

/-- SUPPLY_MEASUREMENT: the two voltages, and BATTERY_LOW and SUPERCAP_LOW by them (R367). -/
def execSupplyMeasurement (dt : Nat) (vbatMv vplcMv : Nat) (s : State) : Out :=
  let s := s.advance dt
  .next (if s.powered then
      let s := { s with vlt := { s.vlt with vbat := min vbatMv 5000, vplc := min vplcMv 5000 } }
      let bat := decide (vbatMv < s.parN Par.VLT.BAT_LOW_MV 0)
      let cap := decide (vplcMv < 2500) && decide (s.vlt.vio33At + 300 * sec < s.now)
      let cap := if vplcMv < 2500 then cap || s.vlt.capLow else decide (vplcMv = 2500) && s.vlt.capLow
      let bat := bat || (s.vlt.batLow && decide (vbatMv = s.parN Par.VLT.BAT_LOW_MV 0))
      let s := { s with vlt := { s.vlt with batLow := bat, capLow := cap } }
      (s.alarm 0x0D 2 0 bat s.now).alarm 0x0D 3 0 cap s.now
    else s)

/-- BATTERY_INSERTION: recorded and counted (R367, R451). -/
def execBatteryInsertion (dt : Nat) (s : State) : Out :=
  let s := s.advance dt
  .next { s with vlt := { s.vlt with batInsert := some s.now, insertions := s.vlt.insertions + 1 } }

end Sys2Proof.Machine
end

