-- ==== Sys2Proof/Machine/Packet.lean ====
section
/-! DEFINITION. Packets as bytes (02): the fields of R31, steps 1 to 4 of R39, the replies of R40, the serving unit of an
opcode (R45, R49), and what waits in the command buffers (R70). -/

namespace Sys2Proof.Machine

open Sys2Proof

/-- The words of a byte string in the carriage's byte order; missing bytes of the last word read as 0. -/
def wordsOf (c : Carriage) (l : List Byte) : List Word := c.pack l

/-- Request opcodes (R49). -/
def requestOps : List Nat :=
  List.range 7 ++ (List.range 9).map (0x100 + ·) ++ [0x200, 0x201, 0x202, 0x300, 0x301, 0x302, 0x303, 0x310, 0x311] ++
  (List.range 7).map (0x400 + ·) ++ (List.range 7).map (0x500 + ·) ++ (List.range 7).map (0x600 + ·) ++
  (List.range 5).map (0x700 + ·) ++ (List.range 6).map (0x800 + ·) ++ (List.range 4).map (0x900 + ·) ++
  (List.range 7).map (0xA00 + ·)

/-- The unit of a parameter or counter ID: its high byte, the control complex where that names none (R45). -/
def idUnit (id : Nat) : Nat := let u := id / 256; if 1 ≤ u ∧ u ≤ 0x0F then u else 0x0C

/-- The unit named in w4 of a unit opcode, the control complex where that names none (R45). -/
def namedUnit (w4 : Word) : Nat :=
  let u := bitsOf w4.toNat 7 0
  if 1 ≤ u ∧ u ≤ 0x0F then u else 0x0C

/-- The serving unit of an opcode, from w4 where it depends on it (R45, R49). -/
def opUnit (op : Nat) (w4 : Word) : Nat :=
  match op / 256 with
  | 1 => if op ≤ 0x102 then idUnit (bitsOf w4.toNat 15 0) else 0x0C
  | 2 => if op ≤ 0x201 then idUnit (bitsOf w4.toNat 15 0) else 0x0C
  | 3 => if op < 0x310 then 3 else 4
  | 4 => 0x0B
  | 5 => 0x0A
  | 6 => 0x0D
  | 7 => 0x0E
  | 8 => 9
  | 10 =>
    match op with
    | 0xA03 | 0xA04 => 0x0F
    | 0xA05 => 0x0C
    | _ => namedUnit w4
  | _ => 0x0C

/-- LENGTH of a packet. -/
def lengthOf (c : Carriage) (l : List Byte) : Nat := bitsOf ((wordsOf c (padTo 4 l)).getD 0 0).toNat 31 16

/-- The carriage is a stream, for which step 2 does not apply (R37). -/
def isStream : Carriage → Bool
  | .tcp _ => true
  | _ => false

/-- Steps 1 to 3 of R39 on a packet's bytes; `size` is what step 2 compares with. -/
def packetFault (c : Carriage) (size : Nat) (l : List Byte) : Option Nat :=
  let n := lengthOf c l
  if n < 5 ∨ n = 0xFFFF then some 0x0101
  else if 16384 < n then some 0x0102
  else if !isStream c && decide (size ≠ 4 * n) then some 0x0101
  else if wordsOf c (padTo 4 (l.drop (4 * (n - 1)))) = [crc32c (l.take (4 * (n - 1)))] then none
  else some 0x0103

/-- The request of a packet that passes them, with its opcode. -/
def requestOf (c : Carriage) (l : List Byte) : Nat × Req :=
  let n := lengthOf c l
  let ws := wordsOf c l
  let w1 := (ws.getD 1 0).toNat
  let auth := w1.testBit 8
  let stop := n - 1 - (if auth then 4 else 0)
  (bitsOf (ws.getD 0 0).toNat 15 0,
   { carriage := c, tag := BitVec.ofNat 16 (w1 / 65536), auth := auth, noreply := w1.testBit 9, urgent := w1.testBit 10
     session := w1 % 256, seq := ws.getD 2 0, epoch := (ws.getD 3 0).setWidth 16, rsv := w1 / 2048 % 32
     status := BitVec.ofNat 16 ((ws.getD 3 0).toNat / 65536)
     authTag := if auth then (l.drop (4 * stop)).take 16 else [], payload := (ws.take stop).drop 4 })

/-- The packet that carries a request: the words of R31's table, its tag as a byte string, the CRC of all of it (R31 to
R33). -/
def encodePacket (op : Nat) (q : Req) : List Byte :=
  sealedPacket q.carriage.big
    (packetWords op q.tag q.flags q.session q.seq q.status.toNat q.epoch q.payload (if q.auth then 4 else 0)) q.authTag

/-- The reply to a packet that fails steps 1 to 3 (R40): OPCODE, TAG and SEQUENCE as received, no session, no tag. Of a field of
which only some bytes were received, the model keeps those and fills the rest with 0: the source says it only of a field of
which none were (log 66, DESIGN CHOICE). -/
def State.badPacketReply (s : State) (c : Carriage) (l : List Byte) (st : Nat) : Reply :=
  let ws := wordsOf c (padTo 12 l)
  { carriage := c, opcode := bitsOf (ws.getD 0 0).toNat 14 0 + 0x8000, tag := BitVec.ofNat 16 ((ws.getD 1 0).toNat / 65536)
    session := 0, seq := ws.getD 2 0, status := st, epoch := s.epochOf 0x0C, payload := [detail 0xFFFF 0], authTag := [] }

/-! ### Command buffers (R70, R392, R424) -/

/-- A packet that waits in a command buffer, as the request it is; none where it fails steps 1 to 4. -/
def queuedRequest (b : Carriage × FetchedPacket) : Option (Nat × Req) :=
  if (packetFault b.1 b.2.bufLen b.2.bytes).isSome then none
  else
    let r := requestOf b.1 b.2.bytes
    if requestOps.contains r.1 then some r else none

/-- A buffered packet is a request that unit `u` would serve; every buffered packet waits for the control complex. -/
def queuedFor (u : Nat) (b : Carriage × FetchedPacket) : Bool :=
  u == 0x0C || (queuedRequest b).any (fun r => opUnit r.1 (r.2.w 4) == u)

/-- Requests queued for a unit are answered with UNIT_RESET, not executed; of the control complex, all of them (R392,
R424). -/
def State.flushQueued (s : State) (u : Nat) : State :=
  let mine := fun (b : Carriage × FetchedPacket) => queuedFor u b && (match b.1 with | .host _ => false | _ => true)
  let gone := s.ctl.buffers.filter (queuedFor u) ++ s.ctl.unfetched.filter mine
  let s := { s with ctl := { s.ctl with
    buffers := s.ctl.buffers.filter (fun b => !queuedFor u b), unfetched := s.ctl.unfetched.filter (fun b => !mine b) } }
  let s := gone.foldl (fun (s : State) b =>
    match queuedRequest b with
    | some (op, q) => s.answer (s.sessionKey q) q op (if u = 0x0C then 0x0C else opUnit op (q.w 4)) (0x010C, [detail 0xFFFF 0])
    | none => s) s
  gone.foldl (fun (s : State) _ => s.fetchMore) s

end Sys2Proof.Machine
end

