-- ==== Sys2Proof/Machine/Ptp.lean ====
section
/-! DEFINITION. What the time base reads and sends: PTP messages by IEEE 1588-2019 and IEEE C37.238-2017 (R82, R85), and IRIG-B frames
by IRIG Standard 200 and IEEE 1344 (R86, R87). Octets and elements are the standards' (PRESUMED, log 71). -/

namespace Sys2Proof.Machine

open Sys2Proof

/-! ### PTP messages received (R82) -/

/-- A PTP message that the module reads: of type `ty`, version 2, majorSdoId 0, its length within the bytes, in the module's domain, not
of the module itself. -/
def State.ptpReads (s : State) (ty : Nat) (l : List Byte) : Bool :=
  fld l 0 1 == ty && fld l 1 1 % 16 == 2 && decide (34 ≤ fld l 2 2) && decide (fld l 2 2 ≤ l.length) && fld l 4 1 == s.ptpDomain &&
    fld l 20 8 != s.clockId

/-- The value of the first IEEE_C37_238 TLV from `a` on: its short grandmaster identity and totalTimeInaccuracy. Other TLVs, the
ALTERNATE_TIME_OFFSET_INDICATOR among them, are passed over (R82). -/
def c37Tlv (l : List Byte) : Nat → Nat → Option (Nat × Nat)
  | 0, _ => none
  | n + 1, a =>
    let len := fld l (a + 2) 2
    if l.length < a + 4 ∨ l.length < a + 4 + len then none
    else if fld l a 2 = 3 ∧ len = 18 ∧ fld l (a + 4) 6 = 0x1C129D000002 then some (fld l (a + 10) 2, fld l (a + 16) 4)
    else c37Tlv l n (a + 4 + len)

/-- An Announce in the interval accepted, none where the message is no such (R82). The TLV is read in profile 1. -/
def State.announceOf (s : State) (l : List Byte) : Option Announce :=
  if s.ptpReads 11 l && decide (64 ≤ fld l 2 2) && fld l 33 1 == 0 && decide (fld l 61 2 < 255) then
    let tlv := if s.parN Par.TIM.PTP_PROFILE 0 = 1 then c37Tlv (l.take (fld l 2 2)) l.length 64 else none
    let flags := fld l 7 1
    some { clockIdentity := fld l 20 8, portIdentity := fld l 20 10, gmIdentity := fld l 53 8, priority1 := fld l 47 1
           clockClass := fld l 48 1, clockAccuracy := fld l 49 1, variance := fld l 50 2, priority2 := fld l 52 1
           stepsRemoved := fld l 61 2, timeSource := fld l 63 1, inaccuracy := tlv.map Prod.snd, shortId := (tlv.map Prod.fst).getD 0
           utcOffset := sfld l 44 2, utcOffsetValid := flags.testBit 2, leap59 := flags.testBit 1, leap61 := flags.testBit 0 }
  else none

/-- What a Sync or a Follow_Up says (R82): its sender, sequence, interval in ns, whether a Follow_Up is to come, correction in 2^-16 ns,
and the instant it names. Intervals of 1/16 s to 1 s are accepted. -/
def State.syncOf (s : State) (ty : Nat) (l : List Byte) : Option (Nat × Nat × Nat × Bool × Int × Int) :=
  let k := -(sfld l 33 1)
  if s.ptpReads ty l && decide (44 ≤ fld l 2 2) && decide (0 ≤ k) && decide (k ≤ 4) then
    some (fld l 20 10, fld l 30 2, sec / 2 ^ k.toNat, (fld l 6 1).testBit 1, sfld l 8 8,
      ((fld l 34 6 : Int) - 946684800) * sec + fld l 40 4)
  else none

/-! ### Clock accuracy (R80, R83) -/

/-- The bounds in ns of the clockAccuracy values from 0x17 on (IEEE 1588-2019); 0x31 names none. -/
def accuracyBounds : List Rat :=
  [1 / 1000, 1 / 400, 1 / 100, 1 / 40, 1 / 10, 1 / 4, 1, 5 / 2, 10, 25, 100, 250, 1000, 2500, 10000, 25000, 100000, 250000, 1000000,
   2500000, 10000000, 25000000, 100000000, 250000000, 1000000000, 10000000000]

/-- The upper bound of a clockAccuracy in ns, none where it names none (R80). -/
def accuracyBound (c : Nat) : Option Rat := if c < 0x17 then none else accuracyBounds[c - 0x17]?

/-- clockAccuracy: the smallest enumeration whose bound is not less than E in ns, 0xFE in FREE (R83). -/
def accuracyOf : Option Rat → Nat
  | none => 0xFE
  | some e => 0x17 + (accuracyBounds.takeWhile (fun b => decide (b < e))).length

/-! ### PTP messages sent (R82, R85) -/

/-- The sequence of the next PTP message of a type, which it uses up. -/
def State.ptpNext (s : State) (n ty : Nat) : State × Nat :=
  let k := s.tim.ptpSeq.getD (16 * n + ty) 0
  ({ s with tim := { s.tim with ptpSeq := s.tim.ptpSeq.put 0 (16 * n + ty) ((k + 1) % 65536) } }, k)

/-- Send a PTP message of port `n`: to the queue at rank 1 (R116). -/
def State.ptpSend (s : State) (n ty seq flags control interval : Nat) (body : List Byte) : State :=
  s.queueTx n (s.ptpItem n ty seq (s.ptpMessage n ty flags seq control interval body))

/-- The twoStepFlag of event messages (R82). -/
def State.ptpFlags (s : State) : Nat := if s.parB Par.TIM.PTP_ONE_STEP 0 then 0 else 0x0200

/-- Send a Sync; its origin is stamped as it starts (R97). -/
def State.sendSync (s : State) (n : Nat) : State :=
  let (s, k) := s.ptpNext n 0
  s.ptpSend n 0 k s.ptpFlags 0 0 (List.replicate 10 0)

/-- Send a Pdelay_Req. -/
def State.sendPdelayReq (s : State) (n : Nat) : State :=
  let (s, k) := s.ptpNext n 2
  s.ptpSend n 2 k 0 5 0x7F (List.replicate 20 0)

/-- Answer a Pdelay_Req whose delimiter came at `t`: the Pdelay_Resp names that instant and the requester (R82). -/
def State.sendPdelayResp (s : State) (n t : Nat) (l : List Byte) : State :=
  s.ptpSend n 3 (fld l 30 2) s.ptpFlags 5 0x7F (ptpTime t ++ (l.drop 20).take 10)

end Sys2Proof.Machine

namespace Sys2Proof

/-! ### IRIG-B frames (R86, R87) -/

/-- The number that `n` elements from index count `a` carry, the least significant first. -/
def IrigFrame.digit (f : IrigFrame) (a n : Nat) : Nat :=
  ((List.range n).map (fun k => if f.bits.getD (a + k) false then 2 ^ k else 0)).sum

/-- The BCD fields: seconds, minutes, hours, day of year, year. -/
def IrigFrame.second (f : IrigFrame) : Nat := f.digit 1 4 + 10 * f.digit 6 3
def IrigFrame.minute (f : IrigFrame) : Nat := f.digit 10 4 + 10 * f.digit 15 3
def IrigFrame.hour (f : IrigFrame) : Nat := f.digit 20 4 + 10 * f.digit 25 2
def IrigFrame.day (f : IrigFrame) : Nat := f.digit 30 4 + 10 * f.digit 35 4 + 100 * f.digit 40 2
def IrigFrame.year (f : IrigFrame) : Nat := f.digit 50 4 + 10 * f.digit 55 4

/-- B000, B001, B004 and B005 carry control functions, here the IEEE 1344 extension. -/
def IrigFrame.hasExtension (f : IrigFrame) : Bool := f.format % 4 < 2

/-- B000, B003, B004 and B007 carry straight binary seconds. -/
def IrigFrame.hasSbs (f : IrigFrame) : Bool := f.format % 4 == 0 || f.format % 4 == 3

/-- A year comes in BCD in B004 to B007, else from the extension, in the same elements (R87). -/
def IrigFrame.hasYear (f : IrigFrame) : Bool := decide (4 ≤ f.format) || f.hasExtension

/-- The second of the day. -/
def IrigFrame.daySecond (f : IrigFrame) : Nat := 3600 * f.hour + 60 * f.minute + f.second

/-- Every BCD digit is one, and the fields name a time. -/
def IrigFrame.bcdOk (f : IrigFrame) : Bool :=
  [f.digit 1 4, f.digit 10 4, f.digit 20 4, f.digit 30 4, f.digit 35 4].all (fun d => decide (d ≤ 9)) &&
    (!f.hasYear || (decide (f.digit 50 4 ≤ 9) && decide (f.digit 55 4 ≤ 9))) &&
    decide (f.second ≤ 60) && decide (f.minute ≤ 59) && decide (f.hour ≤ 23) && decide (1 ≤ f.day) && decide (f.day ≤ 366)

/-- The parity of the extension, over the elements up to its own, position identifiers left out. -/
def IrigFrame.parityOk (f : IrigFrame) : Bool :=
  let ones := ((List.range 76).filter (fun k => k % 10 != 9 && k != 0 && f.bits.getD k false)).length
  (ones % 2 == 1) == Config.irigParity

/-- The frame passes its checks (R86, R87): format, digits, binary seconds against BCD, parity, a year. -/
def IrigFrame.valid (f : IrigFrame) : Bool :=
  decide (f.format < 8) && f.bits.length == 100 && f.bcdOk && (!f.hasSbs || f.digit 80 9 + 512 * f.digit 90 8 == f.daySecond) &&
    (!f.hasExtension || f.parityOk) && f.hasYear

/-- The field of the extension at `a`, 0 in a format without one. -/
def IrigFrame.ext (f : IrigFrame) (a n : Nat) : Nat := if f.hasExtension then f.digit a n else 0

/-- The time carried, in seconds since 2000-01-01 of the IRIG clock: years are 2000 to 2099. -/
def IrigFrame.seconds (f : IrigFrame) : Nat := (365 * f.year + (f.year + 3) / 4 + f.day - 1) * 86400 + f.daySecond

/-- The time offset in half hours. -/
def IrigFrame.offsetHalfH (f : IrigFrame) : Int :=
  let h : Int := (2 * f.ext 65 4 + f.ext 70 1 : Nat)
  if f.ext 64 1 = 1 then -h else h

end Sys2Proof
end

