-- ==== Sys2Proof/Machine/Time.lean ====
section
/-! DEFINITION. The time base (03): references and their qualification (R80, R467), the selection (R81), steering with slews
and steps (R78, R93, R94), holdover (R91), TIME_QUALITY (R100), PTP (R82 to R85), IRIG-B (R86, R87), PPS (R88, R89),
REF10M_IN (R90), leap seconds (R95, R96) and the plinth count (R365). -/

namespace Sys2Proof.Machine

open Sys2Proof

/-! ### Notifications (R100) -/

/-- REF of TIME_QUALITY and TIM.REF_SELECTED (R100). -/
def State.refCode (s : State) : Nat :=
  match s.tim.st with
  | 2 => s.tim.ref
  | 3 => 7
  | 1 => if s.tim.fromHold then 7 else 0
  | _ => 0

/-- Word w4 of TIME_QUALITY (R100). OLD_TQ is the TQ that the last TIME_QUALITY sent, also where changes of TQ have been held since;
the source does not say which it is then (DESIGN CHOICE, log 74). -/
def State.qualityWord (s : State) (step : Bool) : Nat :=
  (if s.refCode = 1 then s.tim.refPort * 2 ^ 16 else 0) + s.refCode * 2 ^ 12 + s.tim.st * 2 ^ 10 + bitAt step 9 +
    bitAt s.timeLocked 8 + s.tim.sentTq * 2 ^ 4 + s.tq

/-- A step in ns as STEP_NS: S32, saturating at plus and minus 2,147,483,647 (R100). -/
def stepWord (d : Int) : Word := BitVec.ofInt 32 (max (-2147483647) (min 2147483647 d))

/-- Send TIME_QUALITY: it opens a second in which changes of TQ alone are held (R100). -/
def State.sendQuality (s : State) (step : Option Int) : State :=
  let w := s.qualityWord step.isSome
  let q := s.tq
  let s := s.notify 0xC002 0 2 ([BitVec.ofNat 32 w] ++ gtfWords s.now ++ [stepWord (step.getD 0)])
  { s with tim := { s.tim with sentTq := q, holdEnd := some (s.now + sec) } }

/-- What follows a change of the time base: `change` of state or reference, `step` of the clock. TIME_QUALITY goes at once
but for TQ alone inside a held second; TIME_STATE and TIME_STEP are recorded; TIME_LOCKED moves the boot target rule
(R81, R93, R100, R413). -/
def State.timeChanged (s : State) (change : Bool) (step : Option Int) : State :=
  let q := s.tq
  let locked := s.timeLocked
  let w := s.qualityWord step.isSome
  let lockMoved := locked != s.tim.lastLocked
  let tqMoved := q != s.tim.lastTq
  let s := { s with tim := { s.tim with lastTq := q, lastLocked := locked } }
  let s := if change || step.isSome || lockMoved || (tqMoved && !s.tim.holdEnd.any (fun t => decide (s.now < t))) then
    s.sendQuality step else s
  let s := if change then s.logEv 0x0201 2 s.now (BitVec.ofNat 64 w) else s
  let s := match step with
    | some d => s.logEv 0x0202 2 s.now (evPar w (stepWord d).toNat)
    | none => s
  if lockMoved then s.bootRule else s

/-! ### Steps of the clock (R93, R94) -/

/-- Move what the time base and the plinth measure from along with a step of the clock. Firmware timers follow the stepped time
base (R389), and stamps keep their values (R94). -/
def State.shiftTimers (s : State) (f : Nat → Nat) : State :=
  let t := s.tim
  { s with
    tim := { t with
      ptp := { t.ptp with since := f t.ptp.since }, irig := { t.irig with since := f t.irig.since }
      pps := { t.pps with since := f t.pps.since }, holdSince := f t.holdSince, offsetAt := f t.offsetAt
      announces := t.announces.map (fun x => (x.1, x.2.1, f x.2.2)), syncAt := f t.syncAt
      sync := t.sync.map (fun x => (x.1, f x.2.1, x.2.2)), ptpAt := t.ptpAt.map f
      irigTod := t.irigTod.map (fun x => (f x.1, x.2)), irigLast := t.irigLast.map f
      ppsLast := t.ppsLast.map f, ppsAt := f t.ppsAt, ref10mLost := f t.ref10mLost, plinthAt := f t.plinthAt }
    cnv := { s.cnv with
      calAt := s.cnv.calAt.map (fun x => (x.1, f x.2)), cycle := s.cnv.cycle.map (fun x => (x.1, { x.2 with at_ := f x.2.at_ })) }
    vlt := { s.vlt with vio33At := f s.vlt.vio33At } }

/-- Set the clock to `b`. -/
def State.setClock (s : State) (b : Nat) : State :=
  let a := s.now
  let s := s.shiftTimers (fun t => t + b - a)
  { s with tim := { s.tim with now := b } }

/-- What a step of the clock from `a` to `b`, already made, does in the units (R94, R172, R254, R268, R318). -/
def State.stepUnits (s : State) (a b : Nat) : State :=
  (((s.alnStep a b).cnvStep a b).capStep).cusStepClock a b

/-! ### Steering (R78, R79, R81, R91, R93) -/

/-- The kinds of TIM.REF_PRIORITY, the highest first (R101). -/
def State.refPriority (s : State) : List Nat :=
  let w := s.parN Par.TIM.REF_PRIORITY 0
  ([bitsOf w 11 8, bitsOf w 7 4, bitsOf w 3 0].filter (fun k => decide (1 ≤ k) && decide (k ≤ 3))).dedup

/-- The parameters name a reference: it is in TIM.REF_PRIORITY and its input is in use (R80, R467). -/
def State.refNamed (s : State) (kind : Nat) : Bool :=
  s.refPriority.contains kind &&
  (match kind with
    | 1 => s.parN Par.TIM.PTP_RX_PORTS 0 != 0
    | 2 => s.parB Par.TIM.IRIG_ENABLE 0
    | 3 => s.parN Par.TIM.PPS_IN_MODE 0 != 0
    | _ => false)

/-- Replace what is known of a reference kind. -/
def State.setRef (s : State) (kind : Nat) (r : Ref) : State :=
  match kind with
  | 1 => { s with tim := { s.tim with ptp := r } }
  | 2 => { s with tim := { s.tim with irig := r } }
  | 3 => { s with tim := { s.tim with pps := r } }
  | _ => s

/-- The references the clock may be steered by, in order of priority (R80, R81). -/
def State.refsReady (s : State) : List Nat :=
  s.refPriority.filter (fun k => s.refNamed k && (s.tim.refOf k).qualified)

/-- A reference is qualifying (R79). -/
def State.refsQualifying (s : State) : Bool :=
  s.refPriority.any (fun k => s.refNamed k && (s.tim.refOf k).watched && !(s.tim.refOf k).qualified)

/-- The time base runs: it takes references. -/
def State.timeRuns (s : State) : Bool := s.up && s.runs 2

/-- The offset of a reference now: as it was measured, less the correction applied to the clock since (R78). -/
def State.offsetTo (s : State) (kind : Nat) : Int := (s.tim.refOf kind).offset + (s.tim.refOf kind).corrected - s.clockMoved

/-- The offset `o` to the reference in use: slew it away, or step the clock (R93). `done`: the correction applied before; `first`:
the clock leaves FREE for the first time since boot; `change`: the state or the reference has just changed. -/
def State.correct (s : State) (o done : Int) (first change : Bool) : State :=
  if first || decide ((s.parN Par.TIM.STEP_LIMIT_NS 0 : Int) < o.natAbs) then
    let a := s.now
    let b := ((a : Int) - o).toNat
    let s := s.setClock b
    let s := { s with tim := { s.tim with offset := 0, offsetAt := b, corrected := done + ((a : Int) - b) } }.count 0x0205 0 1
    (s.timeChanged change (some (-o))).stepUnits a b
  else
    { s with tim := { s.tim with offset := o, offsetAt := s.now, corrected := done } }.timeChanged change none

/-- TIM.UTC_OFFSET follows the PTP reference in use where its offset is valid (R95). -/
def State.ptpUtc (s : State) : State :=
  match s.tim.parent with
  | some a => if s.tim.st = 2 ∧ s.tim.ref = 1 ∧ a.utcOffsetValid then { s with tim := { s.tim with utcOffset := a.utcOffset } } else s
  | none => s

/-- Steer by a qualified reference (R81). -/
def State.steerBy (s : State) (kind : Nat) : State :=
  let t := s.tim
  let first := !t.leftFree
  let o := s.offsetTo kind
  let done := s.clockMoved
  let gm : DWord := if kind = 1 then BitVec.ofNat 64 ((t.parent.map Announce.gmIdentity).getD 0) else 0
  let s := { s with tim := { t with st := 2, ref := kind, fromHold := false, leftFree := true, gmId := gm } }
  s.ptpUtc.correct o done first (t.st != 2 || t.ref != kind)

/-- Enter HOLDOVER: E goes on from its value now (R91). -/
def State.holdover (s : State) : State :=
  let t := s.tim
  let e := s.errorE.getD 0
  { s with tim := { t with
    st := 3, ref := 0, gmId := 0, e0 := e, holdSince := s.now, offset := s.offsetAt s.now, offsetAt := s.now
    corrected := s.clockMoved } }.timeChanged true none

/-- The reference in use is lost: the next qualified one, else HOLDOVER (R81). -/
def State.reselect (s : State) : State :=
  match s.refsReady with
  | k :: _ => s.steerBy k
  | [] => s.holdover

/-- ACQUIRING is entered from FREE and HOLDOVER while a reference qualifies, and left when none does (R79). -/
def State.acquire (s : State) : State :=
  let t := s.tim
  if (t.st = 0 ∨ t.st = 3) ∧ s.refsQualifying then
    { s with tim := { t with st := 1, fromHold := t.st == 3 } }.timeChanged true none
  else if t.st = 1 ∧ ¬ s.refsQualifying ∧ s.refsReady.isEmpty then
    { s with tim := { t with st := if t.fromHold then 3 else 0, fromHold := false } }.timeChanged true none
  else s

/-- A reference meets a condition of "Disqualified by": it is watched again from its next valid item (R80, R467). -/
def State.disqualify (s : State) (kind : Nat) : State :=
  let r := s.tim.refOf kind
  (s.setRef kind { r with watched := false, qualified := false, good := 0, bad := 0 }).acquire

/-- A missing or bad item of a watched reference is counted; `limit` of them in a row disqualify it, and any breaks its
qualification (R80, R467). -/
def State.badItem (s : State) (kind counter limit : Nat) : State :=
  let r := s.tim.refOf kind
  if r.watched then
    let s := s.count counter 0 1
    if limit ≤ r.bad + 1 then s.disqualify kind
    else s.setRef kind { r with bad := r.bad + 1, good := 0 }
  else s

/-- A valid item of a reference that the parameters name: it is watched from here (R467), with its inaccuracy and measured
offset; `counts`: the item counts for qualification. A reference in use is followed (R78). -/
def State.goodItem (s : State) (kind : Nat) (inacc : Rat) (offset : Int) (counts : Bool) : State :=
  if s.refNamed kind then
    let r := s.tim.refOf kind
    let s := s.setRef kind { r with
      watched := true, bad := 0, good := if counts then r.good + 1 else 0, inacc := inacc, offset := offset
      corrected := s.clockMoved }
    if s.tim.st = 2 ∧ s.tim.ref = kind then s.correct offset s.clockMoved false false else s.acquire
  else s

/-- A reference has completed TIM.QUALIFY_S (R80): PTP by the time since Announce and Sync of its parent, the others by
consecutive items. -/
def State.qualifies (s : State) (kind : Nat) : Bool :=
  let r := s.tim.refOf kind
  let q := s.parN Par.TIM.QUALIFY_S 0
  s.refNamed kind && r.watched && !r.qualified &&
    (if kind = 1 then r.good == 2 && decide (r.since + q * sec ≤ s.now) else decide (q ≤ r.good))

/-- REFERENCE_QUALIFIED: the time base locks to it; while it is LOCKED to another, a reference of higher priority waits for
TIM.REVERT_S from here (R81). -/
def execReferenceQualified (dt : Nat) (kind : Nat) (s : State) : Out :=
  let s := s.advance dt
  .next (if s.timeRuns && s.qualifies kind then
      let s := s.setRef kind { s.tim.refOf kind with qualified := true, since := s.now }
      if s.tim.st = 2 then s else s.reselect
    else s)

/-- REFERENCE_DISQUALIFIED: the reference in use is no longer qualified (R81). -/
def execReferenceDisqualified (dt : Nat) (kind : Nat) (s : State) : Out :=
  let s := s.advance dt
  .next (if s.timeRuns && s.tim.st == 2 && s.tim.ref == kind && !(s.tim.refOf kind).qualified then s.reselect else s)

/-- The qualified references of higher priority than the one in use whose TIM.REVERT_S has passed, the highest first
(R81). -/
def State.revertTo (s : State) : List Nat :=
  let wait := s.parN Par.TIM.REVERT_S 0
  if s.tim.st = 2 ∧ wait ≠ 0 then
    ((s.refPriority.takeWhile (fun k => k != s.tim.ref)).filter (fun k => s.refsReady.contains k)).filter
      (fun k => decide ((s.tim.refOf k).since + wait * sec ≤ s.now))
  else []

/-- REFERENCE_REVERT (R81). -/
def execReferenceRevert (dt : Nat) (s : State) : Out :=
  let s := s.advance dt
  .next (match s.timeRuns, s.revertTo with
    | true, k :: _ => s.steerBy k
    | _, _ => s)

/-- TQ_CHANGE: E has crossed a bound (R91, R93, R100). -/
def execTqChange (dt : Nat) (s : State) : Out :=
  let s := s.advance dt
  .next (if s.up then s.timeChanged false none else s)

/-- TIME_QUALITY_HOLD_END: the latest TQ goes where it differs from the one last sent (R100). -/
def execTimeQualityHoldEnd (dt : Nat) (s : State) : Out :=
  let s := s.advance dt
  .next (if s.up && s.tim.holdEnd.any (fun t => decide (t ≤ s.now)) then
      let s := { s with tim := { s.tim with holdEnd := none } }
      let moved := s.timeLocked != s.tim.lastLocked
      let s := s.timeChanged false none
      if !moved && s.tim.holdEnd.isNone && s.tq != s.tim.sentTq then s.sendQuality none else s
    else s)

/-! ### PTP (R82 to R85) -/

/-- The port takes part in PTP: it is in one of the masks, its link is up and the ports run. -/
def State.ptpOn (s : State) (n : Nat) : Bool :=
  ((s.parN Par.TIM.PTP_RX_PORTS 0).testBit n || (s.parN Par.TIM.PTP_BC_PORTS 0).testBit n) && s.linkIsUp n && s.runs 1


/-- clockClass of the module's own default data set, leaving PTP aside (R83). -/
def State.ownClass (s : State) : Nat :=
  match s.tim.st with
  | 2 => if s.tim.ref = 1 then 248 else 6
  | 3 => if s.tq ≤ 8 then 7 else 52
  | _ => 248

/-- The first of two lists that differ decides (data set comparison of IEEE 1588-2019). -/
def lexLt : List Nat → List Nat → Bool
  | a :: l, b :: m => decide (a < b) || (a == b && lexLt l m)
  | _, _ => false

/-- What the comparison of two data sets weighs first: the grandmasters, the lower list the better; then, of one grandmaster, the way to
it, with the receiving port last (IEEE 1588-2019, R83). -/
def grandRank (a : Announce) : List Nat := [a.priority1, a.clockClass, a.clockAccuracy, a.variance, a.priority2, a.gmIdentity]
def pathRank (port : Nat) (a : Announce) : List Nat := [a.stepsRemoved, a.clockIdentity, a.portIdentity, port]

/-- An Announce on a port is a better data set than another (R83). -/
def betterSet (x y : Nat × Announce) : Bool :=
  if x.2.gmIdentity = y.2.gmIdentity then lexLt (pathRank x.1 x.2) (pathRank y.1 y.2)
  else lexLt (grandRank x.2) (grandRank y.2)

/-- The module's own default data set is the better (R83). -/
def State.ownBetter (s : State) (a : Announce) : Bool :=
  lexLt [s.parN Par.TIM.PTP_PRIORITY1 0, s.ownClass, accuracyOf s.errorE, Config.ptpVariance, s.parN Par.TIM.PTP_PRIORITY2 0, s.clockId]
    (grandRank a)

/-- The Announces of receiver ports no older than three announce intervals, each with its port (R80, R83). -/
def State.announcesHeld (s : State) : List (Nat × Announce) :=
  (s.tim.announces.filter (fun x => (s.parN Par.TIM.PTP_RX_PORTS 0).testBit (x.1 / 2 ^ 80) && decide (s.now < x.2.2 + 3 * sec))).map
    (fun x => (x.1 / 2 ^ 80, x.2.1))

/-- The best of some Announces. -/
def bestOf (l : List (Nat × Announce)) : Option (Nat × Announce) :=
  l.foldl (fun best p => match best with
    | none => some p
    | some b => if betterSet p b then some p else best) none

/-- The best Announce that receiver ports hold, with its port (R83). -/
def State.bestAnnounce (s : State) : Option (Nat × Announce) := bestOf s.announcesHeld

/-- The better set is so by topology alone: one grandmaster, and a way to it as long, or longer by the module's own step (IEEE 1588-2019,
R83). -/
def State.byTopology (s : State) (best worse : Announce) : Bool :=
  best.gmIdentity == worse.gmIdentity &&
    (best.stepsRemoved == worse.stepsRemoved ||
      (best.stepsRemoved + 1 == worse.stepsRemoved && decide (worse.clockIdentity < s.clockId)))

/-- The role of a receiver port: 1 time receiver, 2 master, 3 passive (R83). -/
def State.roleOf (s : State) (port : Nat) : Nat :=
  match bestOf (s.announcesHeld.filter (fun x => x.1 == port)), s.bestAnnounce with
  | some a, some b =>
    if s.ownBetter b.2 then 2
    else if b.1 = port then 1
    else if s.byTopology b.2 a.2 then 3 else 2
  | _, _ => 2

/-- clockClass 6 or 7 (R80). -/
def goodClass (a : Announce) : Bool := a.clockClass == 6 || a.clockClass == 7

/-- R of a PTP reference (R80). -/
def State.ptpInacc (s : State) (a : Announce) : Rat :=
  let profile := s.parN Par.TIM.PTP_PROFILE 0
  let unknown : Rat := (Config.refInaccuracy profile : Nat)
  if profile = 1 then (match a.inaccuracy with | some r => (r : Rat) | none => unknown)
  else match accuracyBound a.clockAccuracy with
    | some r => r + (50 * a.stepsRemoved : Nat)
    | none => unknown

/-- An Announce of the parent: the reference is watched from it, and follows what it says; a clockClass other than 6 or 7
disqualifies it (R80, R467). -/
def State.parentAnnounce (s : State) (a : Announce) : State :=
  let s := { s with tim := { s.tim with parent := some a } }
  let r := s.tim.ptp
  if !goodClass a then (if r.watched then s.disqualify 1 else s)
  else if s.refNamed 1 then
    let s := s.setRef 1 { r with watched := true, inacc := s.ptpInacc a, good := max r.good 1, since := if r.watched then r.since else s.now }
    let s : State := if r.watched then s else { s with tim := { s.tim with syncAt := s.now, syncEvery := sec, sync := none } }
    let s := if s.tim.st = 2 ∧ s.tim.ref = 1 then
        { s with tim := { s.tim with gmId := BitVec.ofNat 64 a.gmIdentity } }.ptpUtc.timeChanged false none
      else s
    s.acquire
  else s

/-- The best-master algorithm: the roles of the receiver ports, and the parent of the best port. Another parent has yet to
qualify (R80, R83). -/
def State.bestMaster (s : State) : State :=
  let ports := (List.range 32).filter (fun n => (s.parN Par.TIM.PTP_RX_PORTS 0).testBit n)
  let s := { s with tim := { s.tim with ptpRole := ports.map (fun n => (n, s.roleOf n)) } }
  match s.bestAnnounce with
  | none => s
  | some (port, a) =>
    if s.roleOf port ≠ 1 then s
    else if s.tim.parent.map Announce.portIdentity = some a.portIdentity ∧ s.tim.refPort = port then s
    else
      let s := if s.tim.ptp.watched then s.disqualify 1 else s
      { s with tim := { s.tim with refPort := port } }.parentAnnounce a

/-- PTP_ANNOUNCE_RECEIVED: an Announce of the domain on a receiver port (R83). Without a parent the algorithm runs at
once. -/
def State.announce (s : State) (port : Nat) (a : Announce) : State :=
  let s := { s with tim := { s.tim with announces := s.tim.announces.set (port * 2 ^ 80 + a.portIdentity) (a, s.now) } }
  if s.tim.parent.map Announce.portIdentity = some a.portIdentity ∧ s.tim.refPort = port then s.parentAnnounce a
  else if s.tim.ptp.watched then s
  else s.bestMaster

/-- The end of the last UTC day of the month in which instant `t` lies, as a UTC instant (R96). -/
def State.monthEnd (s : State) (t : Nat) : Int :=
  let day := s.utcOfTai t / (86400 * sec : Nat)
  let next := ((List.range 32).map (fun (k : Nat) => day + 1 + (k : Int))).find? (fun d => (civil d).2.2 == 1)
  (next.getD day) * (86400 * sec : Nat)

/-- A leap second is announced by the reference in use: it is due at the end of the month (R95, R96). -/
def State.leapAnnounced (s : State) (insert : Bool) : State :=
  if s.tim.leapDue then s
  else
    let u := s.monthEnd s.now
    let new := s.tim.utcOffset + (if insert then 1 else -1)
    { s with tim := { s.tim with
      leapDue := true, leapKind := if insert then 1 else 2, leapAt := (u + new * sec).toNat } }

/-- An Announce of the module's domain on a receiver port: the parent's, while it is the reference in use, may announce a leap
second (R83, R95). -/
def State.announceTaken (s : State) (port : Nat) (a : Announce) : State :=
  let s := s.announce port a
  if s.tim.st = 2 ∧ s.tim.ref = 1 ∧ s.tim.refPort = port ∧ s.tim.parent.map Announce.portIdentity = some a.portIdentity ∧
      (a.leap59 || a.leap61) then s.leapAnnounced a.leap61 else s

/-- PTP_ANNOUNCE_RECEIVED: `msg` from its PTP header on. -/
def execPtpAnnounceReceived (dt : Nat) (port : Nat) (msg : List Byte) (s : State) : Out :=
  let s := s.advance dt
  .next (match s.announceOf msg with
    | some a => if s.timeRuns && s.ptpOn port && (s.parN Par.TIM.PTP_RX_PORTS 0).testBit port then s.announceTaken port a else s
    | none => s)

/-- The offset to the parent is measured (R78): the reference has Announce and Sync, and is followed where it is in use. -/
def State.ptpMeasured (s : State) (offset : Int) : State :=
  let r := s.tim.ptp
  let s := s.setRef 1 { r with good := 2, since := if r.good = 2 ∨ r.qualified then r.since else s.now, offset := offset
                               corrected := s.clockMoved }
  if s.tim.st = 2 ∧ s.tim.ref = 1 then s.correct offset s.clockMoved false false else s

/-- The offset that a Sync measures (R78, R82, R97): its arrival less the instant it names, the corrections of the messages, the peer
delay and the link asymmetry; rounded half up to a ns (log 71). -/
def State.ptpOffset (s : State) (n arrival : Nat) (origin corr delay : Int) : Int :=
  arrival - origin - (2 * corr + 65536) / 131072 - delay - (s.parW Par.TIM.PORT_ASYM_NS n).toInt

/-- A Sync of the parent, or its Follow_Up, arrives (R82). A two-step Sync waits for its Follow_Up. -/
def State.syncTaken (s : State) (n : Nat) (msg : List Byte) (stamp : Nat) (delay : Int) : State :=
  let mine := fun (p : Nat) => s.tim.refPort == n && s.tim.parent.map Announce.portIdentity == some p
  let t := stamp - s.parN Par.TIM.PORT_RX_DELAY_NS n
  match s.syncOf 0 msg, s.syncOf 8 msg with
  | some (p, seq, every, twoStep, corr, origin), _ =>
    if mine p then
      let s := { s with tim := { s.tim with syncAt := s.now, syncEvery := every
                                            sync := if twoStep then some (seq, t, corr) else none } }
      if twoStep then s else s.ptpMeasured (s.ptpOffset n t origin corr delay)
    else s
  | none, some (p, seq, _, _, corr, origin) =>
    match s.tim.sync with
    | some (k, t, c) =>
      if mine p && k == seq then
        { s with tim := { s.tim with sync := none } }.ptpMeasured (s.ptpOffset n t origin (c + corr) delay)
      else s
    | none => s
  | none, none => s

/-- PTP_SYNC_RECEIVED: a Sync or a Follow_Up from its PTP header on (R78, R82, R97). -/
def execPtpSyncReceived (dt : Nat) (port : Nat) (msg : List Byte) (heard : PtpHeard) (s : State) : Out :=
  let s := s.advance dt
  .next (if s.timeRuns && s.ptpOn port && s.tim.ptp.watched then s.syncTaken port msg heard.stamp heard.delay else s)

/-- PTP_PDELAY_REQ_RECEIVED: every PTP port answers it (R82). -/
def execPtpPdelayReqReceived (dt : Nat) (rx : PtpRx) (s : State) : Out :=
  let s := s.advance dt
  .next (if s.timeRuns && s.ptpOn rx.port && s.ptpReads 2 rx.msg then
      s.sendPdelayResp rx.port (rx.stamp - s.parN Par.TIM.PORT_RX_DELAY_NS rx.port) rx.msg
    else s)

/-- The grandmaster data set that master ports announce, as an Announce of the module's own (R85); what the spec gives nothing of is
free (log 37). -/
def State.announced (s : State) : Announce :=
  let own := fun (c : Nat) =>
    ({ clockIdentity := s.clockId, portIdentity := 0, gmIdentity := s.clockId, priority1 := s.parN Par.TIM.PTP_PRIORITY1 0, clockClass := c
       clockAccuracy := accuracyOf s.errorE, variance := Config.ptpVariance, priority2 := s.parN Par.TIM.PTP_PRIORITY2 0, stepsRemoved := 0
       timeSource := Config.ptpTimeSource, inaccuracy := some (Config.ownInaccuracy s.tq), shortId := Config.ptpShortId
       utcOffset := s.tim.utcOffset, utcOffsetValid := true, leap59 := s.tim.leapDue && s.tim.leapKind == 2
       leap61 := s.tim.leapDue && s.tim.leapKind == 1 } : Announce)
  match s.tim.st, s.tim.ref, s.tim.parent with
  | 2, 1, some a =>
    { a with stepsRemoved := a.stepsRemoved + 1, inaccuracy := some (a.inaccuracy.getD (Config.refInaccuracy 1) + 20) }
  | 2, 1, none => own 248
  | 2, _, _ => own 6
  | 3, _, _ => own (if s.tq ≤ 8 then 7 else 52)
  | _, _, _ => own (if s.tim.st = 1 ∧ s.tim.fromHold then 52 else 248)

/-- The flags of an Announce: leap seconds, a valid offset, TAI, and traceable where a class 6 or 7 is announced (IEEE 1588-2019,
log 71). -/
def announceFlags (a : Announce) : Nat :=
  bitAt a.leap61 0 + bitAt a.leap59 1 + bitAt a.utcOffsetValid 2 + 8 + (if goodClass a then 48 else 0)

/-- The body of an Announce; the IEEE_C37_238 TLV is sent in profile 1 (R82, R85). -/
def State.announceBody (s : State) (a : Announce) : List Byte :=
  ptpTime s.now ++ beBytes 2 (BitVec.ofInt 16 a.utcOffset).toNat ++ [0, BitVec.ofNat 8 a.priority1, BitVec.ofNat 8 a.clockClass,
    BitVec.ofNat 8 a.clockAccuracy] ++ beBytes 2 a.variance ++ [BitVec.ofNat 8 a.priority2] ++ beBytes 8 a.gmIdentity ++
    beBytes 2 a.stepsRemoved ++ [BitVec.ofNat 8 a.timeSource] ++
    (if s.parN Par.TIM.PTP_PROFILE 0 = 1 then
      beBytes 2 3 ++ beBytes 2 18 ++ beBytes 6 0x1C129D000002 ++ beBytes 2 a.shortId ++ List.replicate 4 0 ++
        beBytes 4 (a.inaccuracy.getD 0) ++ [0, 0]
     else [])

/-- Send an Announce (R85). -/
def State.sendAnnounce (s : State) (n : Nat) : State :=
  let a := s.announced
  let (s, k) := s.ptpNext n 11
  s.ptpSend n 11 k (announceFlags a) 5 0 (s.announceBody a)

/-- An announce interval: the algorithm runs; master ports send Announce and Sync, every PTP port Pdelay_Req (R82, R83, R85). -/
def State.ptpInterval (s : State) : State :=
  let s := { s with tim := { s.tim with ptpAt := some s.now } }.bestMaster
  let ports := (List.range 32).filter s.ptpOn
  let masters := ports.filter (fun n =>
    (s.parN Par.TIM.PTP_BC_PORTS 0).testBit n || s.tim.ptpRole.getD n 0 == 2)
  let s := masters.foldl (fun (s : State) n => (s.sendAnnounce n).sendSync n) s
  ports.foldl State.sendPdelayReq s

/-- PTP_ANNOUNCE_INTERVAL: 1 s after the last (R82). -/
def execPtpAnnounceInterval (dt : Nat) (s : State) : Out :=
  let s := s.advance dt
  .next (if s.timeRuns && s.tim.ptpAt.all (fun t => decide (t + sec ≤ s.now)) then s.ptpInterval else s)

/-- Three announce intervals without Announce of the parent (R80, R467): counted while the reference is watched. The parent's data set is
announced on until the reference is left (R85). -/
def State.announceTimeout (s : State) : State :=
  (if s.tim.ptp.watched then (s.count 0x0201 0 1).disqualify 1 else s).bestMaster

/-- PTP_ANNOUNCE_TIMEOUT: three announce intervals without Announce, or three sync intervals without Sync, of the parent on a receiver
port (R80, R467). The Announces of other senders that are as old are dropped and not counted (R467 counts what is missing of a
watched reference; the model's reading, log 72). -/
def execPtpAnnounceTimeout (dt : Nat) (port : Nat) (sync : Bool) (s : State) : Out :=
  let s := s.advance dt
  let key := port * 2 ^ 80 + (s.tim.parent.map Announce.portIdentity).getD 0
  let old := fun (t : Nat) => decide (t + 3 * sec ≤ s.now)
  let parentOld := s.tim.parent.isSome && s.tim.refPort == port && (s.tim.announces.get? key).any (fun x => old x.2)
  .next (if s.timeRuns && (s.parN Par.TIM.PTP_RX_PORTS 0).testBit port then
      (if sync then
        (if s.tim.ptp.watched && s.tim.refPort == port && decide (s.tim.syncAt + 3 * s.tim.syncEvery ≤ s.now) then s.disqualify 1
         else s)
       else
        let s := { s with tim := { s.tim with announces := s.tim.announces.filter (fun x => !(x.1 / 2 ^ 80 == port && old x.2.2)) } }
        if parentOld then s.announceTimeout else s)
    else s)

/-! ### IRIG-B (R86, R87) -/

/-- R of an IRIG-B reference (R80): code 0 is TIM.IRIG_LOCKED_NS, code c its bound by IEEE 1344, plus 10 ns. -/
def State.irigInacc (s : State) (code : Nat) : Rat :=
  ((if code = 0 then s.parN Par.TIM.IRIG_LOCKED_NS 0 else if code ≤ 11 then 10 ^ (code - 1) else Config.irigReserved code) + 10 : Nat)

/-- The TAI instant that a frame's on-time edge names (R87, R96): UTC is IRIG time plus the time offset; a frame that counts
second 60 takes the previous offset. -/
def State.irigTai (s : State) (f : IrigFrame) : Int :=
  let u := ((f.seconds : Int) + 1800 * f.offsetHalfH) * sec
  if f.second = 60 then u + (if s.tim.leapDue then s.tim.utcOffset else s.tim.prevOffset.getD s.tim.utcOffset) * sec
  else s.taiOfUtc u

/-- The on-time edge of a frame, its cable and driver delay taken off (R87). -/
def State.irigEdge (s : State) (f : IrigFrame) : Nat := f.edge - s.parN Par.TIM.IRIG_DELAY_NS 0

/-- The clock follows IRIG-B's time of day: steered by it, or by PPS_IN in mode 1. -/
def State.followsIrig (s : State) : Bool :=
  s.tim.st == 2 && (s.tim.ref == 2 || (s.tim.ref == 3 && s.parN Par.TIM.PPS_IN_MODE 0 == 1))

/-- A complete frame (R80, R86, R87, R467). While IRIG-B is the selected reference it is steered by its own edge; PPS_IN in mode 1
replaces that edge for phase as the reference PPS_IN (R88; the model's reading, log 72). -/
def State.irigFrame (s : State) (f : IrigFrame) : State :=
  let s := { s with tim := { s.tim with irigLast := some (s.irigEdge f) } }
  if !f.valid then s.badItem 2 0x0202 2
  else if f.ext 71 4 = 0xF then (if s.tim.irig.watched then s.disqualify 2 else s)
  else
    let edge := s.irigEdge f
    let tai := s.irigTai f
    let s := { s with tim := { s.tim with irigTod := some (edge, tai.toNat) } }
    let s := s.goodItem 2 (s.irigInacc (f.ext 71 4)) ((edge : Int) - tai) true
    if f.ext 60 1 = 1 ∧ s.followsIrig then s.leapAnnounced (f.ext 61 1 == 0) else s

/-- IRIG_FRAME_RECEIVED. -/
def execIrigFrameReceived (dt : Nat) (f : IrigFrame) (s : State) : Out :=
  let s := s.advance dt
  .next (if s.timeRuns && s.parB Par.TIM.IRIG_ENABLE 0 then s.irigFrame f else s)

/-- IRIG_FRAME_MISSING (R80, R467): no frame is complete 2 s after the last on-time edge, where the next one, a second later, would
be. -/
def execIrigFrameMissing (dt : Nat) (s : State) : Out :=
  let s := s.advance dt
  .next (match s.tim.irigLast with
    | some t =>
      if s.timeRuns && s.parB Par.TIM.IRIG_ENABLE 0 && decide (t + 2 * sec ≤ s.now) then
        { s with tim := { s.tim with irigLast := some (t + sec) } }.badItem 2 0x0202 2
      else s
    | none => s)

/-! ### PPS_IN (R88) -/

/-- The distance of two instants. -/
def apart (a b : Nat) : Nat := (a - b) + (b - a)

/-- The second an edge at `t` names (R88): in mode 1 that of the IRIG-B frame whose on-time edge lies within 1 µs, which may
be the second after the last frame's; in mode 2 TIM.PPS_NEXT_GTF. -/
def State.ppsSecond (s : State) (t : Nat) : Option Nat :=
  match s.parN Par.TIM.PPS_IN_MODE 0 with
  | 1 =>
    match s.tim.irigTod with
    | some (edge, tai) =>
      if apart t edge ≤ 1000 then some tai else if apart t (edge + sec) ≤ 1000 then some (tai + sec) else none
    | none => none
  | 2 =>
    let g := s.parD Par.TIM.PPS_NEXT_GTF 0
    if g = gtfNone then none else some (nsOf g)
  | _ => none

/-- A rising edge (R80, R88, R467): one that lies 1 s after the last, to 1 µs, with its second known, counts for
qualification; one more than 1 µs off is counted and disqualifies. -/
def State.ppsEdge (s : State) (stamp : Nat) : State :=
  let t := stamp - s.parN Par.TIM.PPS_IN_DELAY_NS 0
  let named := s.ppsSecond t
  let s := if s.parN Par.TIM.PPS_IN_MODE 0 = 2 then
      (match named with
        | some n => s.setPar Par.TIM.PPS_NEXT_GTF 0 (gtfWords (n + sec))
        | none => s)
    else s
  let last := s.tim.ppsLast
  let s := { s with tim := { s.tim with ppsLast := some t } }
  let placed := last.any (fun x => decide (apart t (x + sec) ≤ 1000))
  if s.tim.pps.watched && !placed then (s.count 0x0203 0 1).disqualify 3
  else
    let inacc : Rat := (s.parN Par.TIM.PPS_IN_ERR_NS 0 : Nat)
    match named with
    | some n => s.goodItem 3 inacc ((t : Int) - n) placed
    | none =>
      let r := s.tim.pps
      if s.refNamed 3 then (s.setRef 3 { r with watched := true, bad := 0, good := 0, inacc := inacc }).acquire else s

/-- PPS_IN_EDGE: off in mode 0. -/
def execPpsInEdge (dt : Nat) (stamp : Nat) (s : State) : Out :=
  let s := s.advance dt
  .next (if s.timeRuns && s.parN Par.TIM.PPS_IN_MODE 0 != 0 then s.ppsEdge stamp else s)

/-- PPS_IN_MISSING: no edge has come 1 s and 1 µs after the last; the next is due a second later (R80, R467). -/
def execPpsInMissing (dt : Nat) (s : State) : Out :=
  let s := s.advance dt
  let due := s.tim.ppsLast.any (fun t => decide (t + s.parN Par.TIM.PPS_IN_DELAY_NS 0 + sec + 1000 ≤ s.now))
  .next (if s.timeRuns && s.parN Par.TIM.PPS_IN_MODE 0 != 0 && due then
      { s with tim := { s.tim with ppsLast := s.tim.ppsLast.map (fun t => t + sec) } }.badItem 3 0x0203 2
    else s)

/-! ### PPS_OUT and REF10M_IN (R89, R90) -/

/-- PPS_OUT_SECOND: at a whole TAI second PPS_OUT rises, or stays low from the first second at which TQ is worse than
TIM.PPS_OUT_MIN_TQ to the first at which it is not (R89). -/
def execPpsOutSecond (dt : Nat) (s : State) : Out :=
  let s := s.advance dt
  let good := decide (s.tq ≤ s.parN Par.TIM.PPS_OUT_MIN_TQ 0)
  .next (if s.up && s.parN Par.TIM.PPS_OUT_MODE 0 == 1 && s.now % sec == 0 then
      let s := if s.tim.ppsHeld == good then
          { s with tim := { s.tim with ppsHeld := !good } }.logEv 0x0203 2 s.now (BitVec.ofNat 64 (bitAt (!good) 0 + s.tq * 16))
        else s
      if good then { s with tim := { s.tim with ppsOut := true, ppsAt := s.now } } else s
    else s)

/-- PPS_OUT_WIDTH_END (R89, R315). -/
def execPpsOutWidthEnd (dt : Nat) (s : State) : Out :=
  let s := s.advance dt
  .next (if s.tim.ppsOut && decide (s.tim.ppsAt + 1000 * s.parN Par.TIM.PPS_OUT_WIDTH_US 0 ≤ s.now) then
      { s with tim := { s.tim with ppsOut := false } } else s)

/-- REF10M_LOSS: to the internal oscillator, without a phase step (R90); while that is in use, the input is not valid. -/
def execRef10mLoss (dt : Nat) (s : State) : Out :=
  let s := s.advance dt
  let t := { s with tim := { s.tim with ref10m := false, ref10mLost := s.now } }
  .next (if s.up && s.tim.ref10m then (t.count 0x0204 0 1).logEv 0x0204 2 s.now 1
    else if s.up && s.parB Par.TIM.REF10M_ENABLE 0 then t else s)

/-- REF10M_RESTORE: after 10 s without a loss (R90). -/
def execRef10mRestore (dt : Nat) (s : State) : Out :=
  let s := s.advance dt
  .next (if s.up && s.parB Par.TIM.REF10M_ENABLE 0 && !s.tim.ref10m && decide (s.tim.ref10mLost + 10 * sec ≤ s.now) then
      { s with tim := { s.tim with ref10m := true } }.logEv 0x0204 2 s.now 0
    else s)

/-! ### Leap seconds and the plinth count (R95, R96, R365) -/

/-- LEAP_SECOND_APPLY: the new offset from the end of the announced UTC day; the GTF clock does not change (R95, R96). -/
def execLeapSecondApply (dt : Nat) (s : State) : Out :=
  let s := s.advance dt
  let t := s.tim
  let new := t.utcOffset + (if t.leapKind = 1 then 1 else -1)
  .next (if s.up && t.leapDue && decide (t.leapAt ≤ s.now) then
      { s with tim := { t with utcOffset := new, prevOffset := some t.utcOffset, leapDue := false } }.logEv 0x0205 2 s.now
        ((BitVec.ofInt 32 new) ++ (BitVec.ofInt 32 t.utcOffset))
    else s)

/-- PLINTH_TIME_SET: at a whole second while TIME_LOCKED is set (R365). -/
def execPlinthTimeSet (dt : Nat) (s : State) : Out :=
  let s := s.advance dt
  .next (if s.up && s.timeLocked && s.now % sec == 0 then
      { s with tim := { s.tim with plinth := s.now, plinthAt := s.now, plinthSet := true } }
    else s)

/-! ### Commits, quiesce, reset and boot -/

/-- TIM.LEAP_GTF: the next or the last leap, kept for 86,400 s (R96, R101). -/
def State.leapWords (s : State) : List Word :=
  let t := s.tim
  if t.leapDue ∨ (t.prevOffset.isSome ∧ s.now < t.leapAt + 86400 * sec) then gtfWords t.leapAt ++ [BitVec.ofNat 32 t.leapKind]
  else [0, 0, 0]

/-- The parameters of a commit reach the time base at boundary `b`; `s` is the state before (R91, R467). A reference that is no
longer named is watched no more; a changed TIM.HO_RATE_PPB goes on from E. -/
def State.timCommit (s t : State) (b : Nat) : State :=
  let t := if s.hoRate ≠ t.hoRate ∧ (s.tim.st = 3 ∨ (s.tim.st = 1 ∧ s.tim.fromHold)) then
      { t with tim := { t.tim with e0 := s.holdE b, holdSince := b } } else t
  let rx := t.parN Par.TIM.PTP_RX_PORTS 0
  let kept := t.tim.announces.filter (fun p => rx.testBit (p.1 / 2 ^ 80))
  let t := { t with tim := { t.tim with announces := kept } }
  let lost := !rx.testBit t.tim.refPort && t.tim.parent.isSome
  let t := if lost then
      { t with tim := { t.tim with parent := none, ptp := { t.tim.ptp with watched := false, qualified := false, good := 0, bad := 0 } } }
    else t
  let t := [1, 2, 3].foldl (fun (t : State) k =>
    if t.refNamed k then t
    else t.setRef k { t.tim.refOf k with watched := false, qualified := false, good := 0, bad := 0 }) t
  let inacc : Rat := (t.parN Par.TIM.PPS_IN_ERR_NS 0 : Nat)
  let t : State := { t with tim := { t.tim with pps := { t.tim.pps with inacc := inacc } } }
  let on := t.parB Par.TIM.REF10M_ENABLE 0
  let t := if s.parB Par.TIM.REF10M_ENABLE 0 == on then t else { t with tim := { t.tim with ref10m := on } }
  let t : State := if t.parN Par.TIM.PPS_OUT_MODE 0 = 1 then t else { t with tim := { t.tim with ppsHeld := false } }
  if t.tim.st = 2 ∧ (t.tim.refOf t.tim.ref).qualified = false then t.reselect
  else (t.timeChanged false none).acquire

/-- The time base stops taking references: quiesce and reset of unit 0x02. The clock counts on in HOLDOVER, from E as it was (R91,
R424). -/
def State.timStop (s : State) : State :=
  let s := if s.tim.st = 2 then s.holdover else s
  { s with tim := { s.tim with ptp := Ref.init, irig := Ref.init, pps := Ref.init, announces := [], ptpRole := [], sync := none
                               parent := none, irigTod := none, irigLast := none, ppsLast := none } }.acquire

/-- The time base at the end of boot: FREE, from the plinth count or from GTF 0 if that was lost; a lost count starts again
from 0 (R79, R429). -/
def State.timBoot (s : State) : State :=
  let t := s.tim
  let g := if t.countLost then 0 else s.plinthNow
  let s := s.setClock g
  let tq := if t.plinthSet then 14 else 15
  { s with tim := { Tim.init with
    now := g, plinth := if t.countLost then 0 else t.plinth, plinthAt := if t.countLost then g else s.tim.plinthAt
    plinthSet := t.plinthSet, countLost := false, utcOffset := t.utcOffset
    sentTq := tq, lastTq := tq, ref10m := s.parB Par.TIM.REF10M_ENABLE 0 } }

end Sys2Proof.Machine
end

