-- ==== Sys2Proof/Machine/Spares.lean ====
section
/-! DEFINITION. Spares, wear and service life (20): the SRAM, DRAM and MRAM repairs, the voltage margin, the spare inventory
and the patina counters. -/

namespace Sys2Proof.Machine

open Sys2Proof

/-! ### Inventory (R456, R461) -/

/-- SRAM rows used over all macros. -/
def State.sramRowsUsed (s : State) : Nat := (s.mem.sramUsed.map Prod.snd).sum

/-- Key slots 3 to 127 that hold a key (R461). -/
def State.workingKeys (s : State) : Nat := (s.vlt.slot.filter (fun k => decide (3 ≤ k.1) && k.2.ty != 0)).length

/-- REMAINING of a kind as SPARE_STATUS reports it (R461). -/
def State.sparesLeft (s : State) (kind : Nat) : Nat :=
  match kind with
  | 1 => 2 - s.spareUses 1
  | 2 => 2 - s.spareUses 2
  | 3 => (s.mem.sramUsed.map (fun p => 8 - p.2)).foldl min 8
  | 4 => 16384 - s.mem.dramUsed
  | 5 => 1024 - s.mem.mramMap.length
  | 6 => 125 - s.workingKeys
  | 8 => 8 - s.mem.vstep
  | _ => 0

/-- USED of a kind (R461). -/
def State.sparesUsed (s : State) (kind : Nat) : Nat :=
  match kind with
  | 6 => s.workingKeys
  | 7 => s.vlt.insertions
  | k => s.spareUses k

/-- SPARE_STATUS (0x0A03). -/
def execSpareStatus (dt : Nat) (q : Req) (s : State) : Out :=
  .next ((s.advance dt).serve q 0x0A03 0x0F 0 0 true (fun _ s =>
    (s, ok ([1, 2, 3, 4, 5, 6, 7, 8].flatMap (fun k =>
      [BitVec.ofNat 32 (k * 2 ^ 24 + s.sparesLeft k), BitVec.ofNat 32 (s.sparesUsed k)])))))

/-! ### SRAM (R457) -/

/-- The row of a byte address, and the macro of a row: 256 macros of 2,048 rows of 128 bytes (R457). -/
def sramRow (a : Nat) : Nat := a / 128 % 524288

/-- The macro of a row. -/
def sramMacro (row : Nat) : Nat := row / 2048

/-- A row is to be repaired: the next scrub pass copies it to a spare of its macro; with none left it stays in service, the
denial is counted, and SPARE_USED says SPARE_EXHAUSTED (R457). -/
def State.sramRepair (s : State) (row : Nat) : State :=
  let m := s.mem
  let mac := sramMacro row
  if m.sramDue.contains row || m.sramStuck.contains row then s
  else if m.sramUsed.getD mac 0 + (m.sramDue.filter (fun r => sramMacro r == mac)).length < 8 then
    { s with mem := { m with sramDue := m.sramDue ++ [row] } }
  else
    ({ s with mem := { m with sramStuck := m.sramStuck ++ [row] } }.count 0x0F02 0 1).notify 0xC008 0x0125 0x0F
      ([BitVec.ofNat 32 (3 * 2 ^ 24 + min (2048 - s.sramRowsUsed) 255 * 65536 + mac),
        BitVec.ofNat 32 (bitAt (s.sramRowsUsed == 2048) 0)] ++ gtfWords s.now)

/-- A corrected error at an address: the second one at it has its row repaired; the table keeps 4,096 addresses and drops
its oldest (R457). -/
def State.sramCorrected (s : State) (a : Nat) : State :=
  let m := s.mem
  let s := s.wearAdd 0 1
  if m.sramTable.contains a then
    { s with mem := { s.mem with sramTable := m.sramTable.erase a } }.sramRepair (sramRow a)
  else
    let l := m.sramTable ++ [a]
    { s with mem := { s.mem with sramTable := l.drop (l.length - 4096) } }

/-- Copy a row that is due to a spare (R457). -/
def State.sramCopy (s : State) (row : Nat) : State :=
  let m := s.mem
  let mac := sramMacro row
  let s := { s with mem := { m with
    sramUsed := m.sramUsed.modify mac 0 (· + 1), sramDue := m.sramDue.erase row } }.count 0x0F01 0 1
  s.spareUsed 3 mac (2048 - s.sramRowsUsed)

/-- A scrub pass: rows due are copied, then its errors are taken (R457). -/
def State.scrub (s : State) (corrected uncorrectable : List Nat) : State :=
  let s := s.mem.sramDue.foldl State.sramCopy s
  let s := corrected.foldl State.sramCorrected s
  uncorrectable.foldl (fun (s : State) a => (s.wearAdd 1 1).sramRepair (sramRow a)) s

/-- SRAM_SCRUB_PASS: byte addresses at which the pass found a corrected or an uncorrectable error. -/
def execSramScrubPass (dt : Nat) (corrected uncorrectable : List Nat) (s : State) : Out :=
  let s := s.advance dt
  .next (if s.up then s.scrub corrected uncorrectable else s)

/-! ### DRAM and MRAM (R458, R459) -/

/-- A failing page is retired and replaced from the reserve; with the reserve empty it stays in service (R458). -/
def State.dramRetire (s : State) (page : Nat) : State :=
  let m := s.mem
  if m.dramPages.contains page || decide (16384 ≤ m.dramUsed) then s
  else
    let s := { s with mem := { m with dramUsed := m.dramUsed + 1, dramPages := m.dramPages ++ [page] } }.count 0x0F03 0 1
    s.spareUsed 4 (Config.dramBank page % 64) (16384 - s.mem.dramUsed)

/-- DRAM_PAGE_RETIRE: a page with an uncorrectable error, or with a second corrected error at one address (R458). -/
def execDramPageRetire (dt : Nat) (page : Nat) (uncorrectable : Bool) (s : State) : Out :=
  let s := s.advance dt
  .next (if s.up then (s.wearAdd (if uncorrectable then 3 else 2) 1).dramRetire page else s)

/-- Post-package repair at boot: a retired page whose bank has its repair left returns to the reserve (R458). -/
def State.dramRepair (s : State) : State :=
  s.mem.dramPages.foldl (fun (s : State) page =>
    let m := s.mem
    let bank := Config.dramBank page % 64
    if m.dramPpr.getD bank 0 = 0 then
      { s with mem := { m with
        dramPpr := m.dramPpr.set bank 1, dramPages := m.dramPages.erase page, dramUsed := m.dramUsed - 1 } }
    else s) s

/-- MRAM_BLOCK_RETIRE: the block's contents move to a spare block (R459). -/
def State.mramRetire (s : State) (block : Nat) : State :=
  let m := s.mem
  if m.mramMap.length < 1024 ∧ (m.mramMap.get? block).isNone then
    let s := { s with mem := { m with mramMap := m.mramMap.set block (7168 + m.mramMap.length) } }
    ((s.count 0x0F04 0 1).wearAdd 8 1).spareUsed 5 block (1024 - s.mem.mramMap.length)
  else s

/-- MRAM_BLOCK_RETIRE. -/
def execMramBlockRetire (dt : Nat) (block : Nat) (s : State) : Out :=
  let s := s.advance dt
  .next (if s.up then s.mramRetire block else s)

/-! ### Voltage margin (R460) -/

/-- MARGIN_MONITOR: a low margin raises the fabric voltage by one step of 5 mV at a whole second. -/
def execMarginMonitor (dt : Nat) (low : Bool) (s : State) : Out :=
  let s := s.advance dt
  let v := s.mem.vstep
  .next (if s.up && low && decide (v < 8) && s.now % sec == 0 then
      { s with mem := { s.mem with vstep := v + 1 } }.spareUsed 8 v (8 - (v + 1))
    else s)

/-! ### Patina counters (R463) -/

/-- The main die is powered: BOOT, SAFE, CONFIG, RUN and HALT (R376). -/
def State.mainPowered (s : State) : Bool := s.pwr.supplies && !s.pwr.resetLow && s.pwr.dev != .sleep

/-- The junction temperature bin of a sample in 0.001 °C (R463). -/
def tempBin (t : Int) : Nat :=
  if t ≤ 25000 then 0 else if t ≤ 55000 then 1 else if t ≤ 70000 then 2 else if t ≤ 85000 then 3
  else if t ≤ 95000 then 4 else if t ≤ 105000 then 5 else if t ≤ 115000 then 6 else 7

/-- OPERATING_SECOND: OPSEC advances, and the hottest die sensor is sampled (R376, R463). -/
def execOperatingSecond (dt : Nat) (tjMilli : Int) (s : State) : Out :=
  let s := s.advance dt
  let p := s.mem.patina
  .next (if s.mainPowered && s.now % sec == 0 then
      { s with
        evt := { s.evt with opsec := s.evt.opsec + 1 }
        mem := { s.mem with patina := { p with
          bins := p.bins.modify (tempBin tjMilli) 0 (· + 1), tjSum := p.tjSum + tjMilli, tjN := p.tjN + 1 } } }
    else s)

/-- The patina counters and OPSEC are saved in MRAM (R463). -/
def State.savePatina (s : State) : State :=
  { s with mem := { s.mem with saved := s.mem.patina }, evt := { s.evt with opsecSaved := s.evt.opsec } }

/-- PATINA_SAVE, every 60 s. -/
def execPatinaSave (dt : Nat) (s : State) : Out :=
  let s := s.advance dt
  .next (if s.up then s.savePatina else s)

/-- Time-weighted mean junction temperature in °C (R463). -/
def State.tjMean (s : State) : Word :=
  let p := s.mem.patina
  if p.tjN = 0 then 0 else f32OfRat ((p.tjSum : Rat) / (1000 * p.tjN))

/-- Words of a section (R463). -/
def patinaSize (section_ : Nat) : Nat :=
  match section_ with
  | 0 => 6 | 1 => 16 | 2 => 82 | _ => 20

/-- The baseline words of a section: as recorded at manufacture on -E units, else all zero (R3, R463). -/
def State.baselineWords (s : State) (section_ slice : Nat) : List Word :=
  let n := patinaSize section_
  let ws := if s.ident.screenedE then s.ident.baseline.getD (section_ + (if section_ = 2 then 16 * slice else 0)) [] else []
  ws.take n ++ List.replicate (n - ws.length) 0

/-- The words of a section of the patina counters (R463). -/
def State.patinaWords (s : State) (section_ slice : Nat) : List Word :=
  let p := s.mem.patina
  match section_ with
  | 0 => [BitVec.ofNat 32 s.evt.opsec, BitVec.ofNat 32 s.evt.cycles, s.tjMean, BitVec.ofNat 32 s.mem.vstep] ++
      (s.baselineWords 0 0).drop 4
  | 1 => (List.range 8).flatMap (fun k => words64 (p.bins.getD k 0))
  | 2 => [BitVec.ofNat 32 (p.calN.getD slice 0), BitVec.ofNat 32 (p.calFail.getD slice 0)] ++
      (List.range 40).flatMap (fun y =>
        let d := p.drift.getD (64 * slice + y) (0, 0)
        [BitVec.ofInt 32 d.1, d.2])
  | _ => (List.range 10).flatMap (fun k => words64 (p.wear.getD k 0))

/-- PATINA_READ (0x0A04). -/
def execPatinaRead (dt : Nat) (q : Req) (s : State) : Out :=
  .next ((s.advance dt).serve q 0x0A04 0x0F 0 1 true (fun _ s =>
    let k := q.bits 4 3 0
    let slice := q.bits 5 4 0
    if 3 < k then (s, err 0x0106)
    else if k = 2 ∧ q.payload.length < 2 then (s, err 0x0106)
    else if k = 2 ∧ 26 < slice then (s, err 0x0106)
    else (s, ok (if (q.w 4).getLsbD 8 then s.baselineWords k slice else s.patinaWords k slice))))

end Sys2Proof.Machine
end

