-- ==== Sys2Proof/Machine/Scheduler.lean ====
section
/-! DEFINITION. Cores, scheduler, FIFO levels and self-tests of the control complex (16). -/

namespace Sys2Proof.Machine

open Sys2Proof

/-! ### Cores (R385, R386) -/

/-- CTL.CORE_STATE of a core (R400). -/
def State.core (s : State) (n : Nat) : Nat := s.ctl.cores.getD n 0

/-- Set a core's state. -/
def State.setCore (s : State) (n st : Nat) : State := { s with ctl := { s.ctl with cores := s.ctl.cores.put 0 n st } }

/-- Cores in service. -/
def State.coresOn (s : State) : List Nat := (List.range 18).filter (fun n => s.core n == 0)

/-- CTL.CORES: bit n for core n, and their count in bits 22:18 (R400). -/
def State.coresWord (s : State) : Nat := (s.coresOn.map (fun n => 2 ^ n)).sum + s.coresOn.length * 2 ^ 18

/-- A core is retired (R386): its task, as level and number, runs again from the head of its level's queue; a spare takes its
place; with none left one core fewer is in service. -/
def State.retireCore (s : State) (core : Nat) (task : Option (Nat × Nat)) : State :=
  let s := (s.setCore core 2).count 0x0C0B 0 1
  let s := match task with
    | some (level, n) =>
      { s with ctl := { s.ctl with ready := (level, n, s.now) :: s.ctl.ready } }.count 0x0C0C 0 1
    | none => s
  match (List.range 18).find? (fun n => s.core n == 1) with
  | some n => (s.setCore n 0).spareUsed 2 core (2 - (s.spareUses 2 + 1))
  | none => s

/-- CORE_RETIRE: an uncorrectable error in a core's cache (R386). -/
def execCoreRetire (dt : Nat) (core : Nat) (task : Option (Nat × Nat)) (s : State) : Out :=
  let s := s.advance dt
  .next (if s.up && decide (core < 18) && s.core core == 0 then s.retireCore core task else s)

/-- The self-test of a core in service has run: two failures in a row retire it (R386). -/
def State.coreTested (s : State) (core : Nat) (bad : Bool) : State :=
  if s.core core ≠ 0 then s
  else if bad then
    let n := s.ctl.coreFails.getD core 0 + 1
    let s := { s with ctl := { s.ctl with coreFails := s.ctl.coreFails.set core n } }.wearAdd 9 1
    if 2 ≤ n then s.retireCore core none else s
  else { s with ctl := { s.ctl with coreFails := s.ctl.coreFails.erase core } }

/-- The cores in service have run their self-test; `failed` are those that fail (R386). -/
def State.coresTested (s : State) (failed : List Nat) : State :=
  s.coresOn.foldl (fun (s : State) n => s.coreTested n (failed.contains n)) { s with ctl := { s.ctl with coreTestAt := s.now } }

/-- CORE_SELF_TEST_TIMER: each core in service is tested once per CTL.CORE_TEST_S, counted from boot (R386). -/
def execCoreSelfTestTimer (dt : Nat) (failed : List Nat) (s : State) : Out :=
  let s := s.advance dt
  let period := s.parN Par.CTL.CORE_TEST_S 0 * sec
  .next (if s.up && period != 0 && decide (s.ctl.coreTestAt + period ≤ s.now) then s.coresTested failed else s)

/-! ### Delay lists (R387, R389) -/

/-- The tick's order: ascending expiry, then task number (R389). -/
def delayOrder (a b : Nat × Nat × Nat) : Bool := decide (a.2.1 < b.2.1) || (a.2.1 == b.2.1 && decide (a.2.2 ≤ b.2.2))

/-- A free core takes the oldest ready task of the highest level it may run; `low`: only levels 0 to 3 (R385, R387). -/
def takeTask (low : Bool) (l : List (Nat × Nat × Nat)) : List (Nat × Nat × Nat) :=
  match (List.range (if low then 4 else 16)).findSome? (fun k => l.find? (fun t => t.1 == k)) with
  | some t => l.erase t
  | none => l

/-- DELAY_EXPIRY: at a tick of 10 µs the expired tasks become ready, and the cores, free again, take from the queues
(R387, R389). -/
def execDelayExpiry (dt : Nat) (s : State) : Out :=
  let s := s.advance dt
  .next (if s.up && s.now % 10000 == 0 then
      let due := (s.ctl.delays.filter (fun d => decide (d.2.1 ≤ s.now))).mergeSort delayOrder
      let keep := s.ctl.delays.filter (fun d => !decide (d.2.1 ≤ s.now))
      let s := { s with ctl := { s.ctl with delays := keep, ready := s.ctl.ready ++ due.map (fun (d : Nat × Nat × Nat) => (d.1, d.2.2, s.now)) } }
      let s := s.noteDepth (List.range 16)
      let left := (List.range s.coresOn.length).foldl (fun l k => takeTask (k == 0) l) s.ctl.ready
      { s with ctl := { s.ctl with ready := left } }
    else s)

/-- SCHED_STATS (0x0A05): the window's statistics; CLEAR starts a new one after the reply (R390). -/
def State.schedStats (s : State) : List Word :=
  let on := s.coresOn
  gtfWords s.ctl.statsStart ++ gtfWords s.now ++ [BitVec.ofNat 32 ((on.map (fun n => 2 ^ n)).sum)] ++
  (List.range 16).flatMap (fun k => [BitVec.ofNat 32 (s.depth k), BitVec.ofNat 32 (s.ctl.maxDepth.getD k 0),
    Config.schedWait k 0 (s.now - s.ctl.statsStart), Config.schedWait k 1 (s.now - s.ctl.statsStart)]) ++
  (List.range 18).flatMap (fun n =>
    if on.contains n then (List.range 17).map (fun k => Config.schedLoad (17 * n + k) (s.now - s.ctl.statsStart))
    else List.replicate 17 0)

/-- SCHED_STATS (0x0A05). -/
def execSchedStats (dt : Nat) (q : Req) (s : State) : Out :=
  .next ((s.advance dt).serve q 0x0A05 0x0C 0 1 true (fun _ s =>
    let ws := s.schedStats
    (if (q.w 4).getLsbD 0 then { s with ctl := { s.ctl with statsStart := s.now, maxDepth := [] } } else s, ok ws)))

/-! ### FIFO levels (R396) -/

/-- The writer of a FIFO writes words; a full FIFO holds the writer, so that no word is dropped and no more than 16 are in it
(R394). The largest fill follows (R396, R400). -/
def State.fifoWrite (s : State) (fifo : Nat) (words : List FifoWord) : State :=
  let l := (s.ctl.fifo.getD fifo [] ++ words).take 16
  { s with ctl := { s.ctl with
    fifo := s.ctl.fifo.put [] fifo l, fifoPeak := s.ctl.fifoPeak.put 0 fifo (max l.length (s.ctl.fifoPeak.getD fifo 0)) } }

/-- Back-pressure of a port's transmit FIFO on its host rings (R396). -/
def State.holdPort (s : State) (fifo : Nat) (on : Bool) : State :=
  if 32 ≤ fifo ∧ fifo ≤ 63 then s.setPort (fifo - 32) { s.port (fifo - 32) with held := on } else s

/-- FIFO_LEVEL_HIT: words are written to a FIFO; where the fill rises past its level, that is counted and holds back what R396
names. -/
def execFifoLevelHit (dt : Nat) (fifo : Nat) (words : List FifoWord) (s : State) : Out :=
  let s := s.advance dt
  let level := s.parN Par.CTL.FIFO_LEVEL fifo
  .next (if s.up && decide (fifo ≤ 73) then
      let t := s.fifoWrite fifo words
      if s.fifoFill fifo ≤ level ∧ level < t.fifoFill fifo then (t.count2 0x0C0A (fifo + 1) 1).holdPort fifo true else t
    else s)

/-- FIFO_LEVEL_RELEASE: the reader takes words until `left` are in the FIFO; where the fill falls to its level again, held rings
go on and command fetch resumes (R70, R394, R396). -/
def execFifoLevelRelease (dt : Nat) (fifo left : Nat) (s : State) : Out :=
  let s := s.advance dt
  let level := s.parN Par.CTL.FIFO_LEVEL fifo
  .next (if s.up && decide (fifo ≤ 73) then
      let t := s.fifoRead fifo (s.fifoFill fifo - left)
      if t.fifoFill fifo ≤ level then
        let t := t.holdPort fifo false
        let t := if 32 ≤ fifo ∧ fifo ≤ 63 then t.startTx (fifo - 32) else t
        if fifo = 64 then (List.range 64).foldl (fun (s : State) _ => s.fetchMore) t else t
      else t
    else s)

/-! ### SELF_TEST (R393) -/

/-- SELF_TEST (0x0A06): it starts; the reply comes when the tests are done. -/
def execSelfTest (dt : Nat) (q : Req) (s : State) : Out :=
  let u := q.bits 4 7 0
  .next ((s.advance dt).serve q 0x0A06 (if 1 ≤ u ∧ u ≤ 15 then u else 0x0C) 1 1 false (fun _ s =>
    if 15 < u then (s, err 0x0106)
    else if u ≠ 0 ∧ !s.runs u then (s, err 0x010E)
    else if s.ctl.selfTest.isSome then (s, err 0x010B)
    else ({ s with ctl := { s.ctl with selfTest := some (u, q) } }, none)))

/-- A fault that a self-test finds: kind and instance of the spare it needs (channel, core, row address, page, block, or the
voltage step). The spare comes into service by its own rule; the answer says whether there was one (R393). -/
def State.cure (s : State) (kind inst : Nat) : State × Bool :=
  match kind with
  | 1 =>
    match [25, 26].find? (fun x => s.cnv.slice.getD x 0 == 1) with
    | some x =>
      let old := (s.chan inst).slice
      let s := ((s.setSlice old 4).setSlice x 0).setChan inst { s.chan inst with slice := x }
      (s.spareUsed 1 inst (2 - (s.spareUses 1 + 1)), true)
    | none => (s, false)
  | 2 =>
    let any := (List.range 18).any (fun n => s.core n == 1)
    (if s.core inst = 0 then s.retireCore inst none else s, any)
  | 3 =>
    let t := s.sramRepair (sramRow inst)
    (t, !t.mem.sramStuck.contains (sramRow inst))
  | 4 => (s.dramRetire inst, decide (s.mem.dramUsed < 16384))
  | 5 => (s.mramRetire inst, decide (s.mem.mramMap.length < 1024))
  | 8 =>
    let v := s.mem.vstep
    if v < 8 then ({ s with mem := { s.mem with vstep := v + 1 } }.spareUsed 8 v (8 - (v + 1)), true) else (s, false)
  | _ => (s, true)

/-- The words of a unit's record (R393): unit, tests run, failed, first failing test, duration in µs. -/
def testWords (r : Nat × Nat × Nat × Nat × Nat) : List Word :=
  [BitVec.ofNat 32 (r.1 * 2 ^ 24 + r.2.1 % 256 * 65536 + r.2.2.1 % 256 * 256 + r.2.2.2.1 % 256), BitVec.ofNat 32 r.2.2.2.2]

/-- SELF_TEST_DONE: the results, in ascending unit order, and the faults that need a spare (R393). -/
def State.selfTestDone (s : State) (u : Nat) (q : Req) (records : List (Nat × Nat × Nat × Nat × Nat))
    (faults : List (Nat × Nat)) : State :=
  let s := { s with ctl := { s.ctl with selfTest := none } }
  let out := faults.foldl (fun (a : State × Option Nat) f =>
    let (s, good) := a.1.cure f.1 f.2
    (s, if a.2.isNone && !good then some f.1 else a.2)) (s, none)
  let recs := unitIds.filterMap (fun n => if u = 0 ∨ u = n then records.find? (fun r => r.1 == n) else none)
  let unit := if u = 0 then 0x0C else u
  match out.2 with
  | some kind => out.1.answerLater q 0x0A06 unit (0x0125, [detail 0xFFFF kind])
  | none => out.1.answerLater q 0x0A06 unit (0, BitVec.ofNat 32 recs.length :: recs.flatMap testWords)

/-- SELF_TEST_DONE. -/
def execSelfTestDone (dt : Nat) (records : List (Nat × Nat × Nat × Nat × Nat)) (faults : List (Nat × Nat)) (s : State) : Out :=
  let s := s.advance dt
  .next (match s.ctl.selfTest with
    | some (u, q) => if s.up then s.selfTestDone u q records faults else s
    | none => s)

end Sys2Proof.Machine
end

