-- ==== Sys2Proof/Machine/Boot.lean ====
section
/-! DEFINITION. Power, boot, the device states, low power and power failure (18, 19). -/

namespace Sys2Proof.Machine

open Sys2Proof

/-! ### Supplies and RESET_N (R411, R419, R437, R438) -/

/-- POWER_UP: the supplies come up; RESET_N is held low (R437). The next boot has cause 0. -/
def execPowerUp (dt : Nat) (s : State) : Out :=
  let s := s.advance dt
  .next (if s.pwr.supplies then s
    else { s with
      pwr := { s.pwr with supplies := true, resetLow := true, cause := 0 }, vlt := { s.vlt with vio33At := s.now } })

/-- RESET_N low: every land released, all work abandoned without a save (R419). -/
def State.resetLow (s : State) (supplies : Bool) : State :=
  let t := s.rebooted
  { t with pwr := { t.pwr with supplies := supplies, resetLow := true, cause := 1 } }

/-- RESET_N_ASSERT (R419). -/
def execResetNAssert (dt : Nat) (s : State) : Out :=
  let s := s.advance dt
  .next (if s.pwr.supplies then s.resetLow true else s)

/-- SUPPLY_OUT_OF_TOLERANCE: as RESET_N asserted, without a save (R438). -/
def execSupplyOutOfTolerance (dt : Nat) (s : State) : Out :=
  let s := s.advance dt
  .next (if s.pwr.supplies then s.resetLow false else s)

/-- RESET_N_RELEASE: the straps are sampled, and the boot ROM chooses the bank (R411, R412). A rail that came back releases it
the same way (R438). -/
def execResetNRelease (dt : Nat) (straps : Nat) (s : State) : Out :=
  let s := s.advance dt
  .next (if s.pwr.resetLow then
      { s with pwr := { s.pwr with supplies := true, resetLow := false, bootsel := straps % 4 } }.selectBank
    else s)

/-! ### Firmware records (R377, R381, R423) -/

/-- VERSION of a bank (R420). -/
def Bank.version (b : Bank) : Nat := b.word 12

/-- LEGAL_ID of a bank: 8 bytes (R420). -/
def Bank.legal (b : Bank) : List Byte := (b.bytes.drop 24).take 8

/-- BOOT record (R377). -/
def State.bootRecord (s : State) : State :=
  s.logEv 0x0001 0 s.now (evPar (s.bankOf s.pwr.bank).version (s.pwr.cause + s.pwr.bank * 256))

/-- Activated firmware runs for the first time: a legal identifier other than that of the metrological log starts a new one,
whose first record is SW_VERSION_CHANGE and whose SEQUENCE goes on (R381); then FW_ACTIVATED (R423). -/
def State.firmwareRuns (s : State) : State :=
  let b := s.bankOf s.pwr.bank
  let s := { s with pwr := { s.pwr with fwNew := false } }
  let s := if b.legal = s.evt.legal then s
    else
      let old := s.evt
      let s := { s with evt := { old with met := { old.met with mram := [], buf := [], near := false }, legal := b.legal } }
      s.logEv 0x0009 0x0C s.now (evPar (ofLe (old.legal.take 4)) old.met.seq)
  s.logEv 0x0008 0x0C s.now (evPar (b.word 32) b.version)

/-! ### The end of boot (R252, R361, R412, R413) -/

/-- Sources at boot: defined ones await their CFG or are live, with liveness counted from now (R130, R146). -/
def State.sourcesBoot (s : State) : State :=
  s.ctl.cfg.sources.foldl (fun (s : State) (e : Nat × List Word) =>
    let d := srcDefOf e.2
    let s := s.setSrc e.1 { Src.init with st := if d.kind = 1 then 1 else 2, aliveAt := s.now }
    if d.kind = 1 then s.askCfg e.1 d else s) s

/-- Pods, detectors, trackers, balance groups, filters and recorders at boot, under the configuration in force. -/
def State.analyticsBoot (s : State) : State :=
  let c := s.ctl.cfg
  let s := ((List.range 64).filter s.podOn).foldl (fun (s : State) p =>
    s.setPod p { Pod.init with layoutDue := true, openFrom := s.now + 1 }) s
  let s := ((List.range 256).filter (fun d => s.parB Par.MOD.FD_ENABLE d)).foldl (fun (s : State) d => s.fdCommit d s.now) s
  let s := ((List.range 4).filter (fun k => s.parB Par.MOD.MT_ENABLE k)).foldl (fun (s : State) k => s.mtCommit k s.now) s
  let s := (List.range 25).foldl (fun (s : State) c => s.setFlt c { Flt.init with
    since := s.now, sinceB := s.now, active := s.parN Par.FLT.BANK c }) s
  (List.range 8).foldl (fun (s : State) n => s.capCommit n c.commit) s

/-- The vault's counter in force goes back to both copies (R361). -/
def State.vaultBoot (s : State) : State :=
  let c := s.vaultCtr
  { s with vlt := { s.vlt with ctrPlinth := c, ctrMram := c } }

/-- Every unit runs. -/
def State.unitsBoot (s : State) : State :=
  { s with units := unitIds.map (fun u => (u, { epoch := (s.unit u).epoch, st := 0 })) }

/-- The configuration that boot loads: the base with the journal records that carry an applied mark; the others are discarded, and a
slot not in force that is not erased is erased (R63). -/
def State.configBoot (s : State) : State :=
  let c := s.storedConfig
  { s with ctl := { s.ctl with
    cfg := c, journal := s.ctl.journal.filter JournalRec.applied
    consolidating := if (s.ctl.flash.get? (1 - s.ctl.cfgSlot)).isSome then 3 else 0 } }

/-- The ports run: their PHYs are brought up (R106). -/
def State.portsBoot (s : State) : State := (List.range 32).foldl State.bringUp s

/-- Boot has ended: everything runs; the state is SAFE where R372 holds, else CONFIG or RUN by the rule (R413). -/
def State.bootComplete (s : State) : State :=
  let s := { s with
    evt := { s.evt with cycles := s.evt.cycles + 1 }, pwr := { s.pwr with loaded := true } }
  let s := s.dramRepair.vaultBoot.configBoot.timBoot.unitsBoot.portsBoot
  let s := { s with ctl := { s.ctl with statsStart := s.now, coreTestAt := s.now } }
  let s := s.cusBoot.lgcBoot.sourcesBoot.analyticsBoot
  let s := if s.pwr.fwNew && s.pwr.bank == s.pwr.activeRec then s.firmwareRuns else s
  let s := s.bootRecord
  if s.held then
    if s.vlt.pendingT then s.mainTamper s.now
    else
      let s := s.enterMeasuring .safe
      (if s.vlt.latch then s.alarm 0x0D 1 0 true s.now else s).copyTampers
  else s.copyTampers.leaveHold

/-- BOOT_COMPLETE. -/
def execBootComplete (dt : Nat) (s : State) : Out :=
  let s := s.advance dt
  .next (if s.pwr.dev == .boot && !s.pwr.recovery && !s.pwr.resetLow && s.pwr.supplies && !s.pwr.pfw then s.bootComplete
    else s)

/-- LOCK_WAIT_TIMEOUT: CTL.LOCK_WAIT_S after CONFIG was reached, with boot target 1 (R413). -/
def execLockWaitTimeout (dt : Nat) (s : State) : Out :=
  let s := s.advance dt
  .next (if s.up && s.pwr.dev == .config && s.pwr.ruleDue && s.parN Par.CTL.BOOT_TARGET 0 == 1 &&
      decide (s.pwr.configAt + s.parN Par.CTL.LOCK_WAIT_S 0 * sec ≤ s.now) then s.enterRun else s)

/-! ### SET_STATE (R414 to R418) -/

/-- Every freeze ends with a cause, and the event buffer is written to MRAM (R382). -/
def State.closeLogs (s : State) (cause : Nat) : State := ((s.endFreeze false cause).endFreeze true cause).flushLogs

/-- The engine suspends, whatever it was doing (R343). -/
def State.lgcOff (s : State) : State := if s.lgc.st = 2 then s.lgcHalt 3 else s

/-- What the ports hold on to: in SLEEP a port that may wake the module its link and speed, in HALT none (R120, R418). -/
def State.portsOff (s : State) (sleep : Bool) : State :=
  { s with prt := { s.prt with port :=
    (s.prt.port.filter (fun p => sleep && s.parN Par.PRT.WAKE_EN p.1 != 0)).map (fun p =>
      (p.1, { Port.init with up := p.2.up, speed := p.2.speed, shifted := p.2.shifted, anDone := p.2.anDone })) } }

/-- Steps 1 to 4 of R416; the maquette and a pending commit are discarded (R418), and with them what they have stored (R63). Replies
already made are sent, and no other is due any more. -/
def State.powerSettle (s : State) : State :=
  let s := (s.lgcOff.capStopAll 3)
  let s := (if s.measuring then s.finalsNow.cusOff else s).cusSave 2 none
  let s := (s.closeLogs 4).savePatina
  let s := { s with
    ctl := { s.ctl with
      maquette := [], commit := none, journal := s.ctl.journal.filter JournalRec.applied, image := none, included := 0, drain := [], selfTest := none, subs := [], delays := [], ready := [], waits := [], tcp := []
      owed := s.ctl.owed.filter (fun o => o.reply.isSome) }
    tim := { s.tim with ppsOut := false } }
  s.sendOwed

/-- Entry into SLEEP: every unit sends UNIT_STATE 4, and the domains are off (R416). -/
def State.enterSleep (s : State) : State :=
  let s := s.powerSettle
  let s := unitIds.foldl (fun (s : State) u => s.setUnit u 4) s
  (s.endSessions.portsOff true).setDev .sleep

/-- Entry into HALT: only the control complex's command service stays on; the time base is off, so the state word shows no
TIME_LOCKED (R28, R418). -/
def State.enterHalt (s : State) : State :=
  let s := (s.powerSettle.endSessions.portsOff false).setDev .halt
  let s := { s with tim := { s.tim with st := 0 } }
  unitIds.foldl (fun (s : State) u => if u = 0x0C then s else s.setUnitQuiet u 4) s

/-- SET_STATE (0x0003): the transitions of R414; any other target is refused. -/
def State.setStateTo (s : State) (q : Req) : State × Option Ans :=
  let free := fun (s : State) => { s with pwr := { s.pwr with ruleDue := false } }
  match s.pwr.dev, q.bits 4 3 0 with
  | .config, 4 => (s.enterRun, ok [])
  | .run, 3 => (free s.enterConfig, ok [])
  | .safe, 5 | .config, 5 | .run, 5 => ((s.answer (s.sessionKey q) q 0x0003 0x0C (1, [])).enterSleep, none)
  | .safe, 6 | .config, 6 | .run, 6 => ((s.answer (s.sessionKey q) q 0x0003 0x0C (0, [])).enterHalt, none)
  | _, _ => (s, err 0x010E)

/-- SET_STATE (0x0003). -/
def execSetState (dt : Nat) (q : Req) (s : State) : Out :=
  .next ((s.advance dt).serve q 0x0003 0x0C 1 1 true (fun _ s => s.setStateTo q))

/-! ### Power failure (R425 to R428) -/

/-- PFW_N falls (R426): the plinth stamps it, ingress, analytics, capture and command service stop, and logic suspends at the end of its
scan. -/
def State.powerEdge (s : State) : State :=
  let s := (s.count 0x0C0F 0 1).lgcSuspend
  { s with cus := { s.cus with pfwStamp := some s.now }, pwr := { s.pwr with pfw := true } }

/-- The rest of the power-fail sequence, once the custody steps in progress have ended (R252, R426): the totals are saved with kind 1,
POWER_WARNING on the host link, the logs flushed and freezes ended, patina counters and OPSEC written, every land released. -/
def State.powerSave (s : State) : State :=
  let t := s.cus.pfwStamp.getD s.now
  let s := (s.stepsEnd t).lgcOff.cusSave 1 (some t)
  let n : Notice := { opcode := 0xC006, status := 0, unit := 0x0C, epoch := (s.unit 0x0C).epoch
                      payload := [3] ++ gtfWords t }
  let s := if s.noticeOn 0 0xC006 then s.noticeTo (.ring (s.parN Par.CTL.NOTIFY_RING 0)) n else s
  let s := (s.endFreeze false 3).endFreeze true 3
  let s := (s.logEv 0x0004 0 s.now (evPar s.evt.opsec 1)).flushLogs
  let s := s.savePatina
  { s with pwr := { s.pwr with pfwSaved := true }, tim := { s.tim with ppsOut := false } }

/-- PFW_N_FALL: in SAFE, CONFIG and RUN the sequence begins; the row that follows while it runs stands for the end of the steps in
progress, from which it runs on to its end (log 58). In BOOT the boot stops and nothing is saved; in SLEEP and HALT it is ignored
(R426, R428). -/
def execPfwNFall (dt : Nat) (s : State) : Out :=
  let s := s.advance dt
  .next (if s.saving then s.powerSave
    else if s.up then s.powerEdge
    else if s.pwr.dev == .boot && !s.pwr.loaded && s.pwr.supplies && !s.pwr.resetLow then
      { s with pwr := { s.pwr with pfw := true } }
    else s)

/-- PFW_N_RETURN: high for 100 ms with the supplies held; the module passes through BOOT with cause 0. The sequence has run to its end
before (R428). -/
def execPfwNReturn (dt : Nat) (s : State) : Out :=
  let s := s.advance dt
  .next (if s.pwr.pfw && s.pwr.supplies && !s.pwr.resetLow then (if s.saving then s.powerSave else s).startBoot 0 else s)

/-! ### Waking (R120, R417) -/

/-- PCIE_L1_EXIT_WAKE: the host moves the link out of L1 (R417). -/
def execPcieL1ExitWake (dt : Nat) (s : State) : Out :=
  let s := s.advance dt
  .next (if s.pwr.dev == .sleep && s.ctl.linkUp then { s with prt := { s.prt with wakeCause := 0 } }.startBoot 2 else s)

/-- The first 128 bytes of a frame, its FCS among them, padded, match a pattern of 128 bytes where its mask has a one (R120). -/
def wakeMatch (pattern frame : List Byte) : Bool :=
  let mask := ofLe (pattern.drop 128)
  ((List.range 128).zip ((padTo 128 frame).zip pattern)).all (fun x => !mask.testBit x.1 || x.2.1 == x.2.2)

/-- Six bytes 0xFF followed by 16 copies of an address stand somewhere in a frame (R120). -/
def holdsMagic (magic : List Byte) : List Byte → Bool
  | [] => false
  | b :: l => (b :: l).take magic.length == magic || holdsMagic magic l

/-- The PRT.WAKE_EN bits of a port that a frame meets (R120). -/
def State.wakeBits (s : State) (port : Nat) (frame : List Byte) : Nat :=
  let en := s.parN Par.PRT.WAKE_EN port
  let patterns := [0, 1, 2, 3].filter (fun k =>
    en.testBit k && wakeMatch (wordsLe (s.par Par.PRT.WAKE_PATTERN (4 * port + k))) frame)
  let magic := List.replicate 6 0xFF ++ (List.replicate 16 (beBytes 6 (s.parD Par.PRT.MAC_ADDR port))).flatten
  (patterns.map (fun k => 2 ^ k)).sum + bitAt (en.testBit 4 && holdsMagic magic frame) 4

/-- WAKE_FRAME: the frame's bytes from the destination address on, FCS included. -/
def execWakeFrame (dt : Nat) (port : Nat) (bytes : List Byte) (s : State) : Out :=
  let s := s.advance dt
  .next (if s.pwr.dev == .sleep && s.linkIsUp port && fcsGood bytes && s.wakeBits port bytes != 0 then
      { s with prt := { s.prt with wakeCause := BitVec.ofNat 32 (port % 32 * 65536 + s.wakeBits port bytes) } }.startBoot 2
    else s)

end Sys2Proof.Machine
end

