-- ==== Sys2Proof/Machine/Units.lean ====
section
/-! DEFINITION. Quiesce, reset and resume of single units (R424, with the unit rules its table names), and firmware banks and
their activation (R420 to R423). -/

namespace Sys2Proof.Machine

open Sys2Proof

/-! ### What each unit does (R424) -/

/-- The drain of a unit that began at `t` is over (R424 and the unit's own rule): custody's when the steps that ran have ended. -/
def State.drained (s : State) (u t : Nat) : Bool :=
  match u with
  | 1 => s.prt.port.all (fun p => p.2.tx.isEmpty && p.2.sending.isNone)
  | 4 => s.alnDrained
  | 5 => s.cnvDrained
  | 7 => s.osc.mt.all (fun m => !m.2.running)
  | 8 => !s.arm.running
  | 9 => decide (ceilTo cusStepNs t ≤ s.now)
  | 0x0A => !s.lgc.scanning
  | 0x0D => s.vlt.journal.isNone
  | _ => true

/-- What a unit does as it stops for a quiesce that began at `t` (R175, R253, R283, R343, R424). -/
def State.unitStops (s : State) (u t : Nat) : State :=
  match u with
  | 2 => s.timStop
  | 4 => s.feedFinals
  | 5 => s.cnvStop
  | 9 => ((s.stepsEnd t).cusSave 2 none).cusOff
  | 0x0A => s.lgcOff
  | 0x0E => s.flushLogs
  | _ => s

/-- What a unit does as it runs again (R174, R232, R253, R283, R301, R343). -/
def State.unitResumes (s : State) (u : Nat) : State :=
  match u with
  | 1 => s.portsBoot
  | 4 => (List.range 64).foldl (fun (s : State) p =>
      if s.podOn p then s.setPod p { s.podSt p with openFrom := s.now + 1 } else s) s
  | 5 => s.fltRestartAll.refreshExc
  | 6 => s.fltRestartAll
  | 8 => if s.measuring then s.armStart else s
  | 9 => s.cusResume
  | 0x0A => s.lgcResume
  | _ => s

/-- Latency models are discarded: each source reseeds its own (R145, R424). -/
def State.ingReset (s : State) : State :=
  { s with ing := { s.ing with src := s.ing.src.map (fun p => (p.1, { p.2 with seeded := false, mean := 0, p95 := 0 })) } }

/-- A reset of the control complex (R392): queued tasks and delay lists go, fetched sends complete with STATUS 3, sessions and
subscriptions end. -/
def State.ctlReset (s : State) : State :=
  let rings := ((List.range 16).map (· + 32)).filter (fun r => s.sendBusy r || !(s.ring r).sends.isEmpty)
  let s := rings.foldl (fun (s : State) r =>
    let x := s.ring r
    let n := (if s.sendBusy r then 1 else 0) + (x.sends.filter TxDesc.eop).length
    let s := s.setRing r { x with inFlight := x.inFlight + x.sends.length, sends := [] }
    let s := s.completeSend r 3 none
    (List.range (n - 1)).foldl (fun (s : State) _ => s.emit (.txDone r 3 none)) s) s
  let busy := fun (x : TxItem) => x.ring.any (fun r => rings.contains r)
  { s with
    prt := { s.prt with port := s.prt.port.map (fun p => (p.1, { p.2 with
      tx := p.2.tx.filter (fun x => !busy x), sending := if p.2.sending.any busy then none else p.2.sending })) }
    ctl := { s.ctl with delays := [], ready := [], waits := [], subs := [], sessions := [] } }

/-- The FIFOs a unit writes (dual-clock FIFOs). -/
def fifosOf (u : Nat) : List Nat :=
  match u with
  | 2 => [71]
  | 5 => [70]
  | 0x0C => [65, 67]
  | 0x0D => [73]
  | _ => []

/-- Data in flight of a unit that is reset is delivered with POISON: the words of it that wait in a FIFO (R424). -/
def State.poisonFlight (s : State) (u : Nat) : State :=
  { s with ctl := { s.ctl with fifo := s.ctl.fifo.map (fun f =>
    (f.1, if (fifosOf u).contains f.1 then f.2.map (fun (w : FifoWord) => { w with poison := true }) else f.2)) } }

/-- What a reset discards in each unit, once its epoch has advanced (R424 and the unit's own rule). -/
def State.unitDiscards (s : State) (u : Nat) : State :=
  match u with
  | 1 => s.portsReset
  | 2 => s.timStop
  | 3 => s.ingReset
  | 4 => s.finalsNow.alnClear
  | 5 => s.cnvStop.fltRestartAll
  | 6 => s.fltReset
  | 7 => s.oscReset
  | 8 => s.armReset
  | 9 => s.cusReset
  | 0x0A => s.lgcReset
  | 0x0B => s.capReset
  | 0x0C => s.ctlReset
  | 0x0D => s.dropVolatile.endSessions
  | _ => s

/-- A waiting UNIT_QUIESCE or SELF_TEST of a unit that is reset is answered with UNIT_RESET (R424). -/
def State.waitersReset (s : State) (u : Nat) : State :=
  let mine := s.ctl.drain.filter (fun d => d.1 == u)
  let s := { s with ctl := { s.ctl with drain := s.ctl.drain.filter (fun d => d.1 != u) } }
  let s := mine.foldl (fun (s : State) d => s.answerLater d.2.1 0x0A00 u (0x010C, [detail 0xFFFF 0])) s
  match s.ctl.selfTest with
  | some (v, q) =>
    if v = u then
      { s with ctl := { s.ctl with selfTest := none } }.answerLater q 0x0A06 u (0x010C, [detail 0xFFFF 0])
    else s
  | none => s

/-- Units 0x0C, 0x0D and 0x0E run again at the end of their reset (R424). -/
def afterReset (u : Nat) : Nat := if 0x0C ≤ u then 0 else 2

/-- UNIT_RESET of a unit; one that runs again at the end of its reset is in reset for no time, and both changes are
notified (R424). -/
def State.resetUnit (s : State) (u : Nat) : State :=
  let s := if u = 0x0D then s.journalCommit else if u = 0x0E then s.flushLogs else s
  let s := (((s.clearCounters u).newEpoch u 2).poisonFlight u).unitDiscards u
  let s := s.waitersReset u
  if afterReset u = 0 then s.setUnit u 0 else s

/-! ### UNIT_QUIESCE, UNIT_RESET, UNIT_RESUME -/

/-- A unit that these commands can name: 0x01 to 0x0E (R424). -/
def unitNamed (u : Nat) : Bool := decide (1 ≤ u) && decide (u ≤ 0x0E)

/-- UNIT_QUIESCE (0x0A00): the unit drains; the answer comes when it is quiesced. -/
def execUnitQuiesce (dt : Nat) (q : Req) (s : State) : Out :=
  let u := q.bits 4 7 0
  .next ((s.advance dt).serve q 0x0A00 (namedUnit (q.w 4)) 1 1 (unitNamed u) (fun _ s =>
    if !unitNamed u then (s, err 0x0106)
    else if u = 0x0C then (s, err 0x010E)
    else if (s.unit u).st = 1 then (s, ok [])
    else if s.ctl.drain.any (fun d => d.1 == u) then (s, err 0x010B)
    else
      let s := { s with ctl := { s.ctl with drain := s.ctl.drain ++ [(u, q, s.now)] } }
      (if u = 4 then s.drainFinals else s, none)))

/-- The drain belongs to a firmware activation, which answers nobody (R423). -/
def State.ofActivation (s : State) (d : Nat × Req × Nat) : Bool := s.pwr.activate.any (fun a => a.1 == d.2.1)

/-- UNIT_QUIESCE_DRAINED: the oldest drain that is over ends; the unit is quiesced and answered OK (R424). -/
def State.quiesceDrained (s : State) : State :=
  match s.ctl.drain.find? (fun d => s.drained d.1 d.2.2 && !s.ofActivation d) with
  | some d =>
    let s := s.unitStops d.1 d.2.2
    let s := { s with ctl := { s.ctl with drain := s.ctl.drain.filter (fun x => x.1 != d.1) } }.setUnit d.1 1
    s.answerLater d.2.1 0x0A00 d.1 (0, [])
  | none => s

/-- UNIT_QUIESCE_DRAINED. -/
def execUnitQuiesceDrained (dt : Nat) (s : State) : Out :=
  let s := s.advance dt
  .next (if s.up then s.quiesceDrained else s)

/-- UNIT_QUIESCE_TIMEOUT: a drain that has not ended within CTL.QUIESCE_MAX_MS is answered TIMEOUT; the unit runs on
(R424). -/
def execUnitQuiesceTimeout (dt : Nat) (s : State) : Out :=
  let s := s.advance dt
  .next (match s.ctl.drain.find? (fun d =>
      decide (d.2.2 + 1000000 * s.parN Par.CTL.QUIESCE_MAX_MS 0 ≤ s.now) && !s.ofActivation d) with
    | some d =>
      if s.up then
        { s with ctl := { s.ctl with drain := s.ctl.drain.filter (fun x => x.1 != d.1) } }.answerLater d.2.1 0x0A00 d.1
          (0x0119, [detail 0xFFFF 0])
      else s
    | none => s)

/-- UNIT_RESET (0x0A01): acts at once; requests queued for the unit are answered with UNIT_RESET; the reply comes under the new
epoch and carries it. -/
def execUnitReset (dt : Nat) (q : Req) (s : State) : Out :=
  let u := q.bits 4 7 0
  .next ((s.advance dt).serve q 0x0A01 (namedUnit (q.w 4)) 1 1 false (fun _ s =>
    if !unitNamed u then (s, err 0x0106)
    else if (s.unit u).st = 3 then (s, err 0x010B)
    else
      let key := s.sessionKey q
      let s := (s.resetUnit u).flushQueued u
      let ws := [BitVec.ofNat 32 (s.unit u).epoch.toNat]
      if (s.sessionKey q).isSome || key.isNone then (s, ok ws) else (s.count 0x0C07 0 1, none)))

/-- UNIT_RESUME (0x0A02): a unit in reset or quiesced runs again; a running one returns WRONG_STATE. -/
def execUnitResume (dt : Nat) (q : Req) (s : State) : Out :=
  let u := q.bits 4 7 0
  .next ((s.advance dt).serve q 0x0A02 (namedUnit (q.w 4)) 1 1 false (fun _ s =>
    if !unitNamed u then (s, err 0x0106)
    else
      match (s.unit u).st with
      | 1 | 2 => ((s.setUnit u 0).unitResumes u, ok [])
      | 3 => (s, err 0x010B)
      | _ => (s, err 0x010E)))

/-! ### Firmware banks (R420 to R423) -/

/-- Replace a firmware bank. -/
def State.setBank (s : State) (k : Nat) (b : Bank) : State :=
  if k = 0 then { s with pwr := { s.pwr with bank0 := b } } else { s with pwr := { s.pwr with bank1 := b } }

/-- The bank that is not running (R422). -/
def State.idleBank (s : State) : Nat := 1 - s.pwr.bank

/-- The image of a bank. -/
def Bank.image (b : Bank) : List Byte := (b.bytes.drop 256).take (b.word 8)

/-- IMAGE_SHA and LEGAL_SHA match and SIGNATURE verifies against the firmware public key (R420, R421). -/
def Bank.authentic (b : Bank) : Bool :=
  let at_ := fun a n => (b.bytes.drop a).take n
  at_ 64 32 == sha256 b.image && at_ 32 32 == (List.range 32).map (Config.legalSha b.image) &&
  p256Verify ((List.range 64).map Config.firmwareKey) (sha256 (at_ 0 128)) (at_ 128 64)

/-- FW_STAGE: a chunk at OFFSET 0 erases the bank; any other must be the next one (R422). -/
def State.fwStage (s : State) (q : Req) : State × Option Ans :=
  let off := (q.w 4).toNat
  let total := (q.w 5).toNat
  let n := (q.w 6).toNat
  if 65000 < n ∨ 4 * (q.payload.length - 3) < n then (s, err 0x0116)
  else if off % 4 ≠ 0 ∨ total < 256 ∨ 28311552 < total ∨ n < 4 ∨ n % 4 ≠ 0 ∨ total < off + n then (s, err 0x0106)
  else if off ≠ 0 ∧ s.pwr.stage ≠ some (total, off) then (s, err 0x0106)
  else
    let k := s.idleBank
    let bytes := (if off = 0 then [] else (s.bankOf k).bytes) ++ q.bytes 7 n
    let b : Bank := { bytes := bytes, auth := false, verified := false }
    let b := { b with auth := decide (total ≤ bytes.length) && b.format && b.authentic }
    let s := s.setBank k b
    ({ s with pwr := { s.pwr with stage := some (total, bytes.length) } }, ok [BitVec.ofNat 32 bytes.length])

/-- FW_STAGE (0x0900). -/
def execFwStage (dt : Nat) (q : Req) (s : State) : Out :=
  .next ((s.advance dt).serve q 0x0900 0x0C 1 3 true (fun _ s =>
    if s.pwr.activate.isSome then (s, err 0x010B) else s.fwStage q))

/-- FW_VERIFY (0x0901): format, then hashes and signature, then variant (R421, R422). -/
def execFwVerify (dt : Nat) (q : Req) (s : State) : Out :=
  .next ((s.advance dt).serve q 0x0901 0x0C 1 0 true (fun _ s =>
    let k := s.idleBank
    let b := s.bankOf k
    if !b.format then (s, err 0x0106)
    else if !b.auth then (s, err 0x0113)
    else if !b.fits s.ident then (s, err 0x0118)
    else (s.setBank k { b with verified := true },
      ok ([BitVec.ofNat 32 b.version, BitVec.ofNat 32 (b.word 16)] ++ q.carriage.pack b.legal))))

/-- The first condition of R422 that FW_ACTIVATE fails. -/
def State.activateFault (s : State) : Option Nat :=
  let b := s.bankOf s.idleBank
  let other := b.legal != (s.bankOf s.pwr.bank).legal
  if !b.verified then some 0x010E
  else if other && s.cus.sealed then some 0x0108
  else if other && decide (s.evt.met.readTo < s.evt.met.seq) then some 0x010E
  else if s.ctl.commit.isSome || s.vlt.journal.isSome || s.pwr.activate.isSome then some 0x010B
  else none

/-- FW_ACTIVATE (0x0902): the active-bank record switches in one write; with NOW the marked units drain (R423). -/
def execFwActivate (dt : Nat) (q : Req) (s : State) : Out :=
  .next ((s.advance dt).serve q 0x0902 0x0C 2 1 true (fun _ s =>
    match s.activateFault with
    | some f => (s, err f)
    | none =>
      let k := s.idleBank
      let units := bitsOf ((s.bankOf k).word 16) 15 0
      let s := { s with pwr := { s.pwr with activeRec := k, fwNew := true } }
      if (q.w 4).getLsbD 0 && s.pwr.dev != .boot then
        let marked := unitIds.filter (fun u => units.testBit u && s.runs u && u != 0x0C && u != 0x0F)
        let s := { s with
          pwr := { s.pwr with activate := some (q, units) }
          ctl := { s.ctl with drain := s.ctl.drain ++ marked.map (fun (u : Nat) => (u, q, s.now)) } }
        let e := (s.unit 0x0C).epoch + (if units.testBit 0x0C then 1 else 0)
        (if marked.contains 4 then s.drainFinals else s, ok [BitVec.ofNat 32 e.toNat])
      else (s, ok [0])))

/-- A marked unit is updated: it holds UNIT_STATE 3 and runs again under a new epoch (R423). -/
def State.updateUnit (s : State) (t u : Nat) : State :=
  let st := (s.unit u).st
  let s := if st = 0 then s.unitStops u t else s
  let s := (s.setUnit u 3).newEpoch u st
  if st = 0 then s.unitResumes u else s

/-- FW_ACTIVATION_DRAINED: every marked unit has drained and runs the new firmware, the control complex last (R423). -/
def State.activated (s : State) (q : Req) (units : Nat) : State :=
  let t := ((s.ctl.drain.find? (fun d => d.2.1 == q)).map (fun d => d.2.2)).getD s.now
  let s := { s with
    pwr := { s.pwr with activate := none, bank := s.pwr.activeRec, fallback := false, cause := 3 }
    ctl := { s.ctl with drain := s.ctl.drain.filter (fun d => d.2.1 != q) } }
  let s := (unitIds.filter (fun u => units.testBit u && u != 0x0C)).foldl (fun (s : State) u => s.updateUnit t u) s
  let s := if units.testBit 0x0C then
      let s := (s.setUnit 0x0C 3).newEpoch 0x0C 0
      s.ctlReset.flushQueued 0x0C
    else s
  s.firmwareRuns.bootRecord

/-- FW_ACTIVATION_DRAINED. -/
def execFwActivationDrained (dt : Nat) (s : State) : Out :=
  let s := s.advance dt
  .next (match s.pwr.activate with
    | some (q, units) =>
      if s.up && (s.ctl.drain.filter s.ofActivation).all (fun d => s.drained d.1 d.2.2) then s.activated q units else s
    | none => s)

/-- FW_INFO of a bank: 20 words (R421). -/
def State.bankWords (s : State) (c : Carriage) (k : Nat) : List Word :=
  let b := s.bankOf k
  [BitVec.ofNat 32 (bitAt (b.good s.ident) 0 + bitAt (s.pwr.bank == k) 1 + bitAt b.verified 2), BitVec.ofNat 32 b.version,
   BitVec.ofNat 32 (b.word 16)] ++
  c.pack (padTo 8 b.legal ++ padTo 32 ((b.bytes.drop 32).take 32) ++ padTo 16 ((b.bytes.drop 64).take 16)) ++ [0, 0, 0]

/-- FW_INFO (0x0903). -/
def execFwInfo (dt : Nat) (q : Req) (s : State) : Out :=
  .next ((s.advance dt).serve q 0x0903 0x0C 0 0 true (fun _ s =>
    (s, ok (s.bankWords q.carriage 0 ++ s.bankWords q.carriage 1))))

end Sys2Proof.Machine
end

