-- ==== Sys2Proof/Machine/Access.lean ====
section
/-! DEFINITION. Reading the module (02): the values of read-only parameters from the state (R12), READ_PARAM and READ_BATCH
(R51 to R55), writing parameters (R50, R52, R56), counters (R65, R66), and the live window (R50, R71). -/

namespace Sys2Proof.Machine

open Sys2Proof

/-! ### Values of read-only and factory parameters -/

/-- A number as a one-word value. -/
def one (n : Nat) : List Word := [BitVec.ofNat 32 n]

/-- PRT (R123). -/
def State.roPrt (s : State) (id n : Nat) : List Word :=
  match id with
  | 0x0104 => words64 s.ident.macBase
  | 0x0115 => [s.prt.wakeCause]
  | _ =>
    let p := s.port n
    one (bitAt p.up 0 + 2 * p.speed + bitAt p.shifted 4 + bitAt p.anDone 5)

/-- TIM (R101). The remaining offset shrinks by the slew while LOCKED (R93). -/
def State.roTim (s : State) (id : Nat) : List Word :=
  match id with
  | 0x0201 => one s.tim.st
  | 0x0202 => one s.tq
  | 0x0203 => one s.refCode
  | 0x0222 => s.leapWords
  | 0x0223 => words64 s.tim.gmId.toNat
  | _ => words64 (BitVec.ofInt 64 (if s.tim.st = 2 then s.offsetAt s.now else s.tim.offset)).toNat

/-- ING (R147, R149). -/
def State.roIng (s : State) (id n : Nat) : List Word :=
  match id with
  | 0x030B => one (s.src n).st
  | 0x030C => one (s.src n).mean
  | 0x030D => one (s.src n).p95
  | 0x030E => one s.ctl.cfg.sources.length
  | _ => one (catalogueOf s.ctl.cfg.sources).length

/-- ALN (R186). The revision store takes 8 bytes for an entry of a first edition and 16 for a late entry (R171: 768 MiB hold
100,663,296 entries, 256 MiB 16,777,216). -/
def State.roAln (s : State) (id n : Nat) : List Word :=
  match id with
  | 0x0415 => one s.aln.storeUsed
  | 0x0416 => one s.aln.storePeak
  | 0x0417 =>
    words64 (8 * (((s.allSlots.filter (fun z => z.2.2.closed)).map (fun z => z.2.2.defn.positions.length)).sum) + 16 * s.aln.lateUsed)
  | _ => one (if s.podOn n then (s.podDef n).positions.length else 0)

/-- CNV (R285). -/
def State.roCnv (s : State) (id n : Nat) : List Word :=
  match id with
  | 0x050D => one s.calState
  | 0x050E => one (s.chan n).slice
  | 0x050F => one (s.sliceState n)
  | 0x0510 =>
    let c := s.calLast n
    words64 c.1 ++ [BitVec.ofInt 32 c.2.1, c.2.2]
  | _ => [s.cnv.dieTemp]

/-- FLT (R303). -/
def State.roFlt (s : State) (id n : Nat) : List Word :=
  match id with
  | 0x0603 => one (s.flt_ n).active
  | 0x0607 => [s.flt.pgFreq.getD n 0]
  | _ =>
    let period := if (s.flt_ n).active = 1 then 1000 * s.decimB n
      else if s.parN Par.FLT.PRESET n = 3 then 1000000 else presetPeriod (s.parN Par.FLT.PRESET n)
    [f32OfRat ((sec : Rat) / period)]

/-- MOD (R214). -/
def State.roMod (s : State) (id n : Nat) : List Word :=
  match id with
  | 0x070D => [(s.osc.fd.getD n Fd.init).rms]
  | 0x070E => one (s.fdState n)
  | 0x0725 => one (s.mt n).st
  | _ =>
    if s.parB Par.MOD.MT_ENABLE n then
      [f32OfRat ((s.mtSlotRate n : Rat) / (max (s.parN Par.MOD.MT_DECIM n) 1 : Nat))]
    else [0]

/-- ARM (R234). -/
def State.roArm (s : State) (id n : Nat) : List Word :=
  match id with
  | 0x0815 => (s.bal n).last
  | 0x0816 => [s.nodeState n]
  | 0x0817 => [s.branchState n]
  | 0x0818 => [s.arm.topoSeq]
  | 0x0819 => [(s.bal n).resid]
  | _ => one s.arm.islands.length

/-- CUS (R263). -/
def State.roCus (s : State) (id n : Nat) : List Word :=
  match id with
  | 0x0913 => one (bitAt s.sealedBit 0 + bitAt s.cus.frozen 1 + bitAt s.provisional 2)
  | 0x0914 => s.ident.legalId
  | 0x0915 => one s.cus.records.length
  | _ =>
    let x := s.point n
    one (bitAt x.running 0 + bitAt x.reverse 1 + bitAt x.inGap 2 + bitAt x.below 3)

/-- LGC (R346). -/
def State.roLgc (s : State) (id n : Nat) : List Word :=
  match id with
  | 0x0A07 => one s.lgc.st
  | 0x0A08 => [(s.lgc.image.map Image.id).getD 0]
  | 0x0A09 => one s.lgc.result.1 ++ one s.lgc.result.2
  | 0x0A0A => s.execUs
  | 0x0A0B => one (s.station n).st
  | _ => one s.lgc.requested.length

/-- CAP (R327). -/
def State.roCap (s : State) (id n : Nat) : List Word :=
  match id with
  | 0x0B0E => one (s.capState n)
  | 0x0B0F => words64 (if s.capKind n = 0 then 0 else s.capCapacity n)
  | 0x0B11 => one (s.recorder n).recs.length
  | _ => [if s.capKind n = 0 then 0 else f32OfRat (s.capRate n / 1000000)]

/-- CTL (R400, R430). -/
def State.roCtl (s : State) (id n : Nat) : List Word :=
  match id with
  | 0x0C0E => one s.coresWord
  | 0x0C0F => one (s.core n)
  | 0x0C10 => one (min (Config.schedLoad (17 * n + 16) (s.now / sec)).toNat 1000)
  | 0x0C11 => one (s.ctl.fifoPeak.getD n 0)
  | 0x0C15 => one (s.pwr.bank + bitAt s.pwr.fallback 8)
  | 0x0C16 => one s.pwr.bootsel
  | 0x0C17 => one s.pwr.cause
  | _ => one s.ctl.cfgSlot ++ one s.journalUsed ++ words64 s.ctl.consolidations.toNat

/-- VLT (R374). -/
def State.roVlt (s : State) (id n : Nat) : List Word :=
  match id with
  | 0x0D02 => one (bitAt s.vlt.latch 0 + s.vlt.lastSource % 16 * 256 + s.vlt.count * 65536)
  | 0x0D03 =>
    let l := s.vlt.records.flatMap (fun r => words64 r.gtf ++ [BitVec.ofNat 32 r.source, 0])
    (l ++ List.replicate 32 0).take 32
  | 0x0D04 => words64 s.vaultCtr.toNat
  | 0x0D05 =>
    let k := s.keySlot n
    [k.attr, BitVec.ofNat 32 (k.ty * 2 ^ 28 + k.parent * 2 ^ 16 + k.gen)]
  | 0x0D06 => one (125 - s.workingKeys)
  | 0x0D07 => words64 s.ident.deviceId.toNat
  | 0x0D08 => gtfWords s.plinthNow
  | 0x0D09 => one s.vlt.vbat
  | 0x0D0A => one s.vlt.vplc
  | _ => words64 (gtfOpt s.vlt.batInsert)

/-- EVT (R384): instance 1 is the metrological log. -/
def State.roEvt (s : State) (id n : Nat) : List Word :=
  match id with
  | 0x0E03 => one (s.logOf (n == 1)).mram.length
  | 0x0E04 => one (s.logOf (n == 1)).seq
  | 0x0E05 => one s.evt.opsec
  | _ => one s.evt.cycles

/-- MEM (R465). -/
def State.roMem (s : State) (id n : Nat) : List Word :=
  match id with
  | 0x0F02 => one (s.sparesLeft n)
  | 0x0F03 => [s.tjMean]
  | _ => one s.mem.vstep

/-- The value of a read-only or factory parameter now; index 0x00 of each group is its version (R54). -/
def State.roValue (s : State) (id n : Nat) : List Word :=
  if id % 256 = 0 then [Config.groupVersion (id / 256)]
  else
    match id / 256 with
    | 1 => s.roPrt id n | 2 => s.roTim id | 3 => s.roIng id n | 4 => s.roAln id n | 5 => s.roCnv id n | 6 => s.roFlt id n
    | 7 => s.roMod id n | 8 => s.roArm id n | 9 => s.roCus id n | 10 => s.roLgc id n | 11 => s.roCap id n
    | 12 => s.roCtl id n | 13 => s.roVlt id n | 14 => s.roEvt id n | _ => s.roMem id n

/-- The value of a parameter now. TIM.UTC_OFFSET is kept in MRAM of its own (R95). -/
def State.readValue (s : State) (d : PDesc) (inst : Nat) : List Word :=
  if d.id = Par.TIM.UTC_OFFSET then [BitVec.ofInt 32 s.tim.utcOffset]
  else
    match d.cls with
    | .RO | .F => s.roValue d.id inst
    | _ => s.par d.id inst

/-! ### READ_PARAM, READ_BATCH -/

/-- The value a read returns: of the maquette where SELECT is set and it holds one (R50). -/
def State.selectValue (s : State) (d : PDesc) (inst : Nat) (select : Bool) : List Word :=
  match (if select then s.ctl.maquette.get? (parKey d.id inst) else none) with
  | some { val := .value ws, .. } => ws
  | _ => s.readValue d inst

/-- What a read of a parameter fails with: unknown ID, then role, then instance (R55). -/
def State.readFault (s : State) (role id inst : Nat) : Option Nat :=
  match parDesc id with
  | none => some 0x0104
  | some d =>
    if role = 0 ∧ (d.clsOn s.ident.variantM = .L ∨ d.clsOn s.ident.variantM = .M) then some 0x0109
    else if !d.hasInst inst then some 0x0105
    else none

/-- A type word (R51); 0 for an unknown ID. -/
def State.typeWord (s : State) (id : Nat) : Word :=
  match parDesc id with
  | some d => BitVec.ofNat 32 ((d.clsOn s.ident.variantM).code * 2 ^ 28 + d.ty.code * 2 ^ 24)
  | none => 0

/-- An item as a read returns it (R50, R51): echo, item header, type word, value. -/
def State.readItem (s : State) (role : Nat) (w : Word) (select : Bool) : List Word :=
  let id := bitsOf w.toNat 15 0
  let inst := bitsOf w.toNat 31 16
  match s.readFault role id inst, parDesc id with
  | none, some d =>
    let v := s.selectValue d inst select
    [w, BitVec.ofNat 32 v.length, s.typeWord id] ++ v
  | some f, _ => [w, BitVec.ofNat 32 (f * 65536), s.typeWord id]
  | none, none => [w, 0, 0]

/-- READ_PARAM (0x0100). A refusal for want of the role counts in CMD_AUTH_FAIL (R66). -/
def execReadParam (dt : Nat) (q : Req) (s : State) : Out :=
  let id := q.bits 4 15 0
  .next ((s.advance dt).serve q 0x0100 (idUnit id) 0 2 true (fun role s =>
    match s.readFault role id (q.bits 4 31 16) with
    | some f => (if f = 0x0109 then s.count 0x0C03 0 1 else s, errId f id)
    | none => (s, ok (s.readItem role (q.w 4) ((q.w 5).getLsbD 0)))))

/-- READ_BATCH (0x0103): each item is answered on its own (R52). -/
def execReadBatch (dt : Nat) (q : Req) (s : State) : Out :=
  .next ((s.advance dt).serve q 0x0103 0x0C 0 1 true (fun role s =>
    let n := q.bits 4 15 0
    if n = 0 then (s, err 0x0106)
    else if 4096 < n ∨ (q.rest 5).length < n then (s, err 0x0116)
    else
      let items := (q.rest 5).take n
      let refused := (items.filter (fun w => s.readFault role (bitsOf w.toNat 15 0) (bitsOf w.toNat 31 16) == some 0x0109)).length
      (s.count 0x0C03 0 refused, ok (one n ++ items.flatMap (fun w => s.readItem role w ((q.w 4).getLsbD 16))))))

/-! ### WRITE_PARAM, WRITE_LIVE, WRITE_BATCH -/

/-- A write of one item, live or into the maquette. -/
def State.writeOne (s : State) (q : Req) (live : Bool) : State × Option Ans :=
  match Req.item q with
  | some x => s.writeItems live false q.session [x]
  | none => if !live && s.ctl.commit.isSome then (s, err 0x010B) else (s, errId 0x0116 (q.bits 4 15 0))

/-- WRITE_PARAM (0x0101): a pending commit refuses it before its payload is looked at (R39, R64). -/
def execWriteParam (dt : Nat) (q : Req) (s : State) : Out :=
  .next ((s.advance dt).serve q 0x0101 (idUnit (q.bits 4 15 0)) 1 0 true (fun _ s =>
    if s.ctl.commit.isSome then (s, err 0x010B)
    else if q.payload.length < 2 then (s, err 0x0106)
    else s.writeOne q false))

/-- WRITE_LIVE (0x0102). -/
def execWriteLive (dt : Nat) (q : Req) (s : State) : Out :=
  .next ((s.advance dt).serve q 0x0102 (idUnit (q.bits 4 15 0)) 1 2 true (fun _ s => s.writeOne q true))

/-- WRITE_BATCH (0x0104): every item is checked before any is written (R52). -/
def execWriteBatch (dt : Nat) (q : Req) (s : State) : Out :=
  .next ((s.advance dt).serve q 0x0104 0x0C 1 0 true (fun _ s =>
    let n := q.bits 4 15 0
    let live := (q.w 4).getLsbD 16
    if !live && s.ctl.commit.isSome then (s, err 0x010B)
    else if q.payload.isEmpty then (s, err 0x0106)
    else if n = 0 then (s, err 0x0106)
    else if 4096 < n then (s, err 0x0116)
    else
      match itemsOf' n (q.rest 5) with
      | some l => s.writeItems live true q.session l
      | none => (s, err 0x0116)))

/-! ### Counters (R65, R66) -/

/-- The first fault of a counter read: an ID not defined, then an instance beyond it. -/
def counterFault (ids : List Nat) (last : Nat) : Option (Nat × Nat) :=
  match ids.find? (fun id => (counterTop id).isNone) with
  | some id => some (0x0104, id)
  | none => (ids.find? (fun id => decide ((counterTop id).getD 0 < last))).map (fun id => (0x0105, id))

/-- READ_COUNTERS and PEEK_COUNTERS: the values, cleared as they are sampled where `clear` is set (R66). -/
def State.readCounters (s : State) (q : Req) (clear : Bool) : State × Option Ans :=
  let id := q.bits 4 15 0
  let inst := q.bits 4 31 16
  let nId := q.bits 5 15 0
  let nInst := q.bits 5 31 16
  if nId = 0 ∨ nInst = 0 then (s, err 0x0106)
  else
    let ids := (List.range nId).map (id + ·)
    match counterFault ids (inst + nInst - 1) with
    | some (f, k) => (s, errId f k)
    | none =>
      if q.carriage.maxLength < 2 * (nId * nInst) + 6 then (s, err 0x0116)
      else
        let keys := ((List.range nInst).map (inst + ·)).flatMap (fun i => ids.map (fun k => (k, i)))
        let values := keys.flatMap (fun k => words64 (s.ctr k.1 k.2))
        (if clear then keys.foldl (fun (s : State) k => s.setCtr k.1 k.2 0) s else s, ok (one (nId * nInst) ++ values))

/-- READ_COUNTERS (0x0200). -/
def execReadCounters (dt : Nat) (q : Req) (s : State) : Out :=
  .next ((s.advance dt).serve q 0x0200 (idUnit (q.bits 4 15 0)) 0 2 true (fun _ s => s.readCounters q true))

/-- PEEK_COUNTERS (0x0201). -/
def execPeekCounters (dt : Nat) (q : Req) (s : State) : Out :=
  .next ((s.advance dt).serve q 0x0201 (idUnit (q.bits 4 15 0)) 0 2 true (fun _ s => s.readCounters q false))

/-! ### Live window (R50, R71) -/

/-- The 64-bit value at an offset of the live window, a multiple of 8; 0 in its reserved parts (02, Live window). -/
def State.liveValue (s : State) (offset : Nat) : Nat :=
  let k := offset / 8
  if k = 0 then gtfOf s.now
  else if k = 1 then s.stateWord.toNat + s.almWord * 2 ^ 32
  else if k = 2 then s.tq + (BitVec.ofInt 16 (s.utcOffsetAt s.now)).toNat * 65536
  else if k = 3 then s.ctl.cfg.commit.toNat
  else if 5 ≤ k ∧ k ≤ 0x13 then (s.unit (k - 4)).epoch.toNat + (s.unit (k - 4)).st * 256
  else if 0x20 ≤ k ∧ k < 0x60 then gtfOpt (s.podSt (k - 0x20)).lastClosed
  else if 0x60 ≤ k ∧ k < 0x80 then (s.port (k - 0x60)).liveFrames
  else 0

/-- READ_STATUS_BLOCK (0x0202): live-window bytes 0x000 to 0x0FF at one instant. -/
def execReadStatusBlock (dt : Nat) (q : Req) (s : State) : Out :=
  .next ((s.advance dt).serve q 0x0202 0x0C 0 0 true (fun _ s =>
    (s, ok ((List.range 32).flatMap (fun k => words64 (s.liveValue (8 * k)))))))

/-- A register of BAR0 as the host reads it (R69): STATE as GET_STATE gives it, a ring's registers, the MSI-X table, the vectors that
wait as pending bits. What else lies there is open (log 73). -/
def State.bar0Value (s : State) (offset : Nat) : Word :=
  if offset = 0 then 0x46400101
  else if offset = 4 then s.stateWord
  else if offset = 8 then s.ctl.hostCtl
  else if offset = 0xC then s.ctl.irqHoldoff
  else if 0x1000 ≤ offset ∧ offset < 0x1800 then
    let r := s.ring ((offset - 0x1000) / 32)
    match offset % 32 with
    | 0 => r.base.extractLsb' 0 32
    | 4 => r.base.extractLsb' 32 32
    | 8 => r.size
    | 0xC => BitVec.ofNat 32 (bitAt r.enable 0)
    | 0x14 => BitVec.ofNat 32 (r.head % 65536)
    | _ => Config.bar0Open offset
  else if 0x2000 ≤ offset ∧ offset < 0x2400 then s.ctl.msix.getD (offset - 0x2000) 0
  else if offset = 0x3000 ∨ offset = 0x3004 then
    BitVec.ofNat 32 (((List.range 32).filter (fun k => s.ctl.irqHeld.contains (8 * (offset - 0x3000) + k))).map (fun k => 2 ^ k)).sum
  else Config.bar0Open offset

/-- BAR0 can be read: the link is up, in BOOT as well (R69, R412). -/
def State.bar0Up (s : State) : Bool :=
  s.ctl.linkUp && s.pwr.supplies && !s.pwr.resetLow && s.pwr.dev != .sleep && !s.pwr.pfw

/-- The endpoint of the host link answers: the link is up and the main die serves it (R411, R417, R419, R426). -/
def State.endpointUp (s : State) : Bool :=
  s.ctl.linkUp && (match s.pwr.dev with
    | .boot => s.pwr.recovery
    | .sleep => false
    | .halt => true
    | _ => !s.pwr.pfw)

/-- A 4-byte read of the low half of a live-window value: the high half is latched for the requester; 8 requesters hold a latch, the
one used longest ago loses its own (R71). -/
def State.readLow (s : State) (requester offset : Nat) : State :=
  let v := s.liveValue offset
  let l : Latch := { requester := requester, offset := offset, high := BitVec.ofNat 32 (v / 2 ^ 32) }
  { s with ctl := { s.ctl with
    latches := (l :: s.ctl.latches.filter (fun x => x.requester != requester)).take 8 } }.emit (.barRead (BitVec.ofNat 32 v))

/-- An 8-byte read of a live-window value: both halves of one instant, the low one first; no latch is touched (R71). -/
def State.readWhole (s : State) (offset : Nat) : State :=
  let v := s.liveValue offset
  (s.emit (.barRead (BitVec.ofNat 32 v))).emit (.barRead (BitVec.ofNat 32 (v / 2 ^ 32)))

/-- LIVE_WINDOW_LOW_READ, and the reads that no row of their own stands for: an 8-byte read (R71), a register of BAR0 (R69). -/
def execLiveWindowLowRead (dt : Nat) (requester : Nat) (read : HostRead) (s : State) : Out :=
  let s := s.advance dt
  .next (match read with
    | .low offset => if s.endpointUp then s.readLow requester offset else s
    | .whole offset => if s.endpointUp then s.readWhole offset else s
    | .bar0 offset => if s.bar0Up then s.emit (.barRead (s.bar0Value offset)) else s)

/-- LIVE_WINDOW_HIGH_READ: the latched half, whose latch is cleared, or the live half (R71). -/
def execLiveWindowHighRead (dt : Nat) (requester offset : Nat) (s : State) : Out :=
  let s := s.advance dt
  .next (if s.endpointUp then
      match s.ctl.latches.find? (fun x => x.requester == requester && x.offset == offset) with
      | some l =>
        { s with ctl := { s.ctl with latches := s.ctl.latches.filter (fun x => x.requester != requester) } }.emit (.barRead l.high)
      | none => s.emit (.barRead (BitVec.ofNat 32 (s.liveValue offset / 2 ^ 32)))
    else s)

/-- LIVE_WINDOW_WRITE: ignored and counted (R71). -/
def execLiveWindowWrite (dt : Nat) (_offset : Nat) (_value : DWord) (s : State) : Out :=
  let s := s.advance dt
  .next (if s.endpointUp then s.count 0x0C08 0 1 else s)

end Sys2Proof.Machine
end

