-- ==== Sys2Proof/Machine/Commit.lean ====
section
/-! DEFINITION. The maquette's commits (02): the check, the boundary and the storage of a commit (R59 to R64), and the
consolidation of the configuration store (R63). -/

namespace Sys2Proof.Machine

open Sys2Proof

/-! ### Starting a commit (R59, R61, R64) -/

/-- Set or drop the pending commit. -/
def State.setCommit (s : State) (c : Option Commit) : State := { s with ctl := { s.ctl with commit := c } }

/-- A COMMIT_MAQUETTE is received: fields, then an empty maquette; the check then runs (R59, R61, R76). The conflict list of
the check before is dropped (R60). -/
def State.commitStart (s : State) (q : Req) : State × Option Ans :=
  let s := s.keepConflicts []
  let kind := q.bits 4 1 0
  let pod := q.bits 4 15 8
  let gtf := q.dw 5
  if s.ctl.commit.isSome then (s, err 0x010B)
  else if q.payload.length < 3 then (s, err 0x0106)
  else if kind = 3 ∨ (kind = 1 ∧ 63 < pod) ∨ (kind = 2 ∧ gtfValid gtf = false) then (s, err 0x0106)
  else if kind = 1 ∧ s.podOn pod = false then (s, errId 0x0106 Par.ALN.POD_ENABLE)
  else if s.ctl.maquette.isEmpty then (s, err 0x0120)
  else
    (s.setCommit (some { req := q, kind := kind, pod := pod, at_ := nsOf gtf, stage := .checking, number := 0, boundary := 0
                         toFlash := false }), none)

/-- COMMIT_MAQUETTE (0x0105): the reply comes when the check is done. -/
def execCommitMaquette (dt : Nat) (q : Req) (s : State) : Out :=
  .next ((s.advance dt).serve q 0x0105 0x0C 1 0 true (fun _ s => s.commitStart q))

/-! ### The check is done (R60, R61, R63) -/

/-- The first grid instant of a rate at or after `t` (R151). -/
def nextGrid (r t : Nat) : Nat :=
  let k := gridIndex r t
  (([k - 1, k, k + 1].map (gridAt r)).find? (fun g => decide (t ≤ g))).getD (gridAt r (k + 2))


/-- Nanoseconds of CTL.COMMIT_LEAD_MS. -/
def State.commitLead (s : State) : Nat := 1000000 * s.parN Par.CTL.COMMIT_LEAD_MS 0

/-- The maquette's journal record fits the free journal space (R63). -/
def State.journalFits (s : State) : Bool := decide (journalBytes s.ctl.maquette + s.journalUsed ≤ journalSize)

/-- A consolidation runs, erasure included (R63). -/
def State.consolidates (s : State) : Bool := s.ctl.consolidating == 1 || s.ctl.consolidating == 2

/-- The storage instant (R61). -/
def State.storageAt (s : State) : Nat :=
  if s.journalFits then s.now else if s.consolidates then s.now + 120 * sec else s.now + 60 * sec

/-- The boundary of a commit whose check is done, none for an AT too early (R61). -/
def State.boundaryOf (s : State) (c : Commit) : Option Nat :=
  let least := s.storageAt + s.commitLead
  match c.kind with
  | 0 => some (ceilTo sec least)
  | 1 => some (nextGrid (s.parN Par.ALN.SLOT_RATE c.pod) least)
  | _ => if c.at_ < least then none else some c.at_

/-- The slot that is not in force (R63). -/
def State.spareSlot (s : State) : Nat := 1 - s.ctl.cfgSlot

/-- A configuration begins to be programmed into the slot not in force; it includes `n` records of the journal (R63). -/
def State.program (s : State) (c : Config) (n : Nat) : State :=
  let s := s.setFlash s.spareSlot .partly
  { s with ctl := { s.ctl with image := some c, included := n } }

/-- The programming ends: the slot holds its configuration with a CRC (R63). -/
def State.programmed (s : State) : State :=
  match s.ctl.image with
  | some c =>
    let s := s.setFlash s.spareSlot (.whole c c.crc)
    { s with ctl := { s.ctl with image := none } }
  | none => s

/-- In one MRAM write the slot programmed becomes the base and the journal records it includes are freed; the other slot is then
erased: work `w` (R63). -/
def State.rebase (s : State) (w : Nat) : State :=
  let old := s.ctl.cfgSlot
  let s := { s with ctl := { s.ctl with
    cfgSlot := 1 - old, journal := s.ctl.journal.drop s.ctl.included, included := 0, consolidating := w } }
  s.setFlash old .partly

/-- The flash write of a commit begins (R63). -/
def State.flashCommit (s : State) (c : Commit) : State :=
  (s.setCommit (some { c with stage := .flash, toFlash := true })).program
    (s.configAfter s.ctl.maquette c.number c.boundary) s.ctl.journal.length

/-- An accepted commit is stored: in the journal at once, or by a flash write, which waits for a running consolidation and for
the slot to be erased (R61, R63). -/
def State.commitStore (s : State) (c : Commit) (b : Nat) : State :=
  let number := s.ctl.commitNo + 1
  let c := { c with number := number, boundary := b }
  let s := { s with ctl := { s.ctl with commitNo := number } }
  if s.journalFits then
    let s := s.setCommit (some { c with stage := .stored })
    { s with ctl := { s.ctl with journal := s.ctl.journal ++ [journalRec number b s.ctl.maquette] } }
  else if s.ctl.consolidating = 0 then s.flashCommit c
  else s.setCommit (some { c with stage := .waitConsolidation, toFlash := true })

/-- The conflict check ends: CONFLICT with its list kept, or the commit is accepted (R60). -/
def State.commitChecked (s : State) (c : Commit) : State :=
  let l := s.conflictsOf (s.withCfg (s.ctl.cfg.takeAll s.ident s.ctl.maquette)) false false
  if !l.isEmpty then
    ((s.setCommit none).keepConflicts (l.take 4096)).answerLater c.req 0x0105 0x0C ((conflictAns l).getD (0x010A, []))
  else
    match s.boundaryOf c with
    | none => (s.setCommit none).answerLater c.req 0x0105 0x0C (0x0106, [detail 0xFFFF 0])
    | some b =>
      let s := s.commitStore c b
      s.answerLater c.req 0x0105 0x0C (1, s.ctl.commitNo :: gtfWords b)

/-- COMMIT_CHECK_DONE. -/
def execCommitCheckDone (dt : Nat) (s : State) : Out :=
  let s := s.advance dt
  .next (match s.ctl.commit with
    | some c => if s.up && c.stage == .checking then s.commitChecked c else s
    | none => s)

/-- COMMIT_FLASH_STORED: the flash write of a commit ends (R63). -/
def execCommitFlashStored (dt : Nat) (s : State) : Out :=
  let s := s.advance dt
  .next (match s.ctl.commit with
    | some c => if s.up && c.stage == .flash then s.programmed.setCommit (some { c with stage := .stored }) else s
    | none => s)

/-! ### The boundary (R62, R63) -/

/-- The touched unit that keeps a commit from being applied: the lowest that does not run (R62). -/
def State.blockingUnit (s : State) : Option Nat :=
  ((unitsTouched s.ctl.maquette).filter (fun u => !s.runs u)).foldl (fun (m : Option Nat) u =>
    some ((m.map (fun k => min k u)).getD u)) none

/-- The stored form of a commit is discarded: its journal record, or the slot written for it, which is erased again (R62 to
R64). -/
def State.unstore (s : State) (c : Commit) : State :=
  let s := s.setCommit none
  if c.toFlash then
    (if c.stage = .waitConsolidation then s
     else
       let s := s.setFlash s.spareSlot .partly
       { s with ctl := { s.ctl with image := none, included := 0, consolidating := 3 } })
  else if c.stage = .stored then
    { s with ctl := { s.ctl with journal := s.ctl.journal.filter (fun r => r.applied || r.number != c.number) } }
  else s

/-- COMMIT_APPLIED is written and MAQUETTE_APPLIED sent; `block` the blocking unit or 0 (R62, R68). -/
def State.commitReport (s : State) (c : Commit) (status block : Nat) : State :=
  (s.logEv 0x0006 0x0C c.boundary (evPar block c.number.toNat)).notify 0xC003 status 0x0C
    (c.number :: gtfWords c.boundary ++ [BitVec.ofNat 32 block])

/-- The applied mark of a commit is written: one in a flash slot makes that slot the base and frees the journal records it
includes; one in the journal stays there (R63). -/
def State.storeApplied (s : State) (c : Commit) : State :=
  if c.toFlash then s.rebase 3
  else { s with ctl := { s.ctl with journal := s.ctl.journal.map (fun r =>
    if r.number = c.number then { r with applied := true } else r) } }

/-- The maquette is applied to every unit at one fabric instant (R62). -/
def State.commitApplied (s : State) (c : Commit) : State :=
  let maq := s.ctl.maquette
  let cfg := s.configAfter maq c.number c.boundary
  let t := (s.applyConfig cfg c.boundary (sourcesTouched maq) (keysWritten maq)).offsetCommit maq
  let t := (s.timCommit t c.boundary).storeApplied c
  { t with ctl := { t.ctl with maquette := [], commit := none } }.commitReport c 0 0

/-- COMMIT_BOUNDARY: the boundary of a stored commit is reached. -/
def execCommitBoundary (dt : Nat) (s : State) : Out :=
  let s := s.advance dt
  .next (match s.ctl.commit with
    | some c =>
      if s.up && c.stage == .stored && decide (c.boundary ≤ s.now) then
        match s.blockingUnit with
        | some u => (s.unstore c).commitReport c 0x010C u
        | none => s.commitApplied c
      else s
    | none => s)

/-! ### DISCARD_MAQUETTE, DIFF_MAQUETTE, READ_CONFLICTS (R64, R402) -/

/-- A DISCARD_MAQUETTE: refused while the check runs and within the lead of the boundary; else the commit is cancelled and
the maquette empty (R64). -/
def State.discard (s : State) : State × Option Ans :=
  let s := s.keepConflicts []
  match s.ctl.commit with
  | some c =>
    if c.stage = .checking ∨ c.boundary < s.now + s.commitLead then (s, err 0x010B)
    else
      let s := s.unstore c
      ({ s with ctl := { s.ctl with maquette := [] } }, ok [])
  | none => ({ s with ctl := { s.ctl with maquette := [] } }, ok [])

/-- DISCARD_MAQUETTE (0x0106). -/
def execDiscardMaquette (dt : Nat) (q : Req) (s : State) : Out :=
  .next ((s.advance dt).serve q 0x0106 0x0C 1 0 true (fun _ s => s.discard))

/-- An entry of DIFF_MAQUETTE: instance and ID, session and length, value; a removal is one word (R64). -/
def diffWords (e : Nat × MaqEntry) : List Word :=
  let ws := match e.2.val with
    | .value ws | .define ws => ws
    | .remove => [BitVec.ofNat 32 (e.1 % 65536 * 65536)]
  [BitVec.ofNat 32 (e.1 % 65536 * 65536 + e.1 / 65536), BitVec.ofNat 32 (e.2.session * 65536 + ws.length)] ++ ws

/-- A page of a list: `first`, at most `n` of at most `most`, each item its words, with the total before them. -/
def pageAns {α : Type} (l : List α) (words : α → List Word) (first n most : Nat) : Option Ans :=
  if n = 0 then err 0x0106 else if most < n then err 0x0116
  else ok (one l.length ++ ((l.drop first).take n).flatMap words)

/-- DIFF_MAQUETTE (0x0107). -/
def execDiffMaquette (dt : Nat) (q : Req) (s : State) : Out :=
  .next ((s.advance dt).serve q 0x0107 0x0C 1 2 true (fun _ s =>
    (s, pageAns s.ctl.maquette diffWords (q.w 4).toNat (q.bits 5 15 0) 4096)))

/-- A record of READ_CONFLICTS (R64). -/
def Conflict.words (c : Conflict) : List Word :=
  [BitVec.ofNat 32 (c.code * 65536 + c.resource), BitVec.ofNat 32 (c.inst1 * 65536 + c.id1), c.item2, c.detail]

/-- READ_CONFLICTS (0x0108). -/
def execReadConflicts (dt : Nat) (q : Req) (s : State) : Out :=
  .next ((s.advance dt).serve q 0x0108 0x0C 1 2 true (fun _ s =>
    (s, pageAns s.ctl.conflicts Conflict.words (q.w 4).toNat (q.bits 5 15 0) 4092)))

/-! ### Consolidation (R63) -/

/-- UTC reads 00:00:00 now. -/
def State.utcMidnight (s : State) : Bool := decide (s.utcOfTai s.now % (86400 * sec : Nat) = 0)

/-- A consolidation is due: the journal is past half full, or it is 00:00 UTC and the journal holds records; no flash write
of a commit and no other consolidation runs. -/
def State.consolidationDue (s : State) : Bool :=
  s.up && s.ctl.consolidating == 0 && !s.ctl.commit.any Commit.toFlash &&
    (decide (journalSize < 2 * s.journalUsed) || (!s.ctl.journal.isEmpty && s.utcMidnight))

/-- CONFIG_CONSOLIDATION_START: the configuration in force is written to the slot that is not in force. The record of a commit
that is stored and not yet applied is not part of it. -/
def execConfigConsolidationStart (dt : Nat) (s : State) : Out :=
  let s := s.advance dt
  .next (if s.consolidationDue then
      let s := s.program s.ctl.cfg (s.ctl.journal.filter JournalRec.applied).length
      { s with ctl := { s.ctl with consolidating := 1 } }
    else s)

/-- CONFIG_CONSOLIDATION_DONE: in one MRAM write the slot becomes the base and frees the records it includes; the other slot
is erased. -/
def execConfigConsolidationDone (dt : Nat) (s : State) : Out :=
  let s := s.advance dt
  .next (if s.up && s.ctl.consolidating == 1 then
      let s := s.programmed.rebase 2
      { s with ctl := { s.ctl with consolidations := s.ctl.consolidations + 1 } }
    else s)

/-- CONSOLIDATION_ERASE_DONE: the slot not in force is erased, after a consolidation or after the flash write of a commit; a waiting
commit's flash write starts (R61, R63). -/
def execConsolidationEraseDone (dt : Nat) (s : State) : Out :=
  let s := s.advance dt
  .next (if s.up && decide (2 ≤ s.ctl.consolidating) then
      let s := s.setFlash s.spareSlot .erased
      let s := { s with ctl := { s.ctl with consolidating := 0 } }
      match s.ctl.commit with
      | some c => if c.stage = .waitConsolidation then s.flashCommit c else s
      | none => s
    else s)

end Sys2Proof.Machine
end

