-- ==== Sys2Proof/Machine/EventLog.lean ====
section
/-! DEFINITION. The event recorder's commands (15): reading, freezing, thawing and clearing the logs, the flush timer and
the refill of rate-limit buckets. -/

namespace Sys2Proof.Machine

open Sys2Proof

/-- The eight words of a record (R375). -/
def EvRec.words (r : EvRec) : List Word :=
  [BitVec.ofNat 32 (r.code * 2 ^ 16 + r.unit * 2 ^ 12 + r.sev * 2 ^ 8 + r.supp * 2 ^ 3 + bitAt r.plinth 2 +
     bitAt r.lost 1 + bitAt r.free 0), BitVec.ofNat 32 r.seq, BitVec.ofNat 32 r.opsec, BitVec.ofNat 32 r.cycles] ++
  words64 r.gtf ++ words64 r.par.toNat

/-- SEQUENCE of the first record of a list, 0 where there is none. -/
def firstSeq (l : List EvRec) : Nat := (l.head?.map EvRec.seq).getD 0

/-- SEQUENCE of the last record of a list, 0 where there is none. -/
def lastSeqOf (l : List EvRec) : Nat := (l.getLast?.map EvRec.seq).getD 0

/-- LOG_READ and MLOG_READ (R382): records from a SEQUENCE on, the buffered ones included. -/
def State.readLog (s : State) (m : Bool) (q : Req) : State × Option Ans :=
  let n := (q.w 5).toNat
  if n = 0 then (s, err 0x0106) else if 2000 < n then (s, err 0x0116) else
    let l := s.logOf m
    let all := l.mram ++ l.buf
    let recs := (all.filter (fun r => decide ((q.w 4).toNat ≤ r.seq))).take n
    let s := s.setLog m { l with readTo := max l.readTo (lastSeqOf recs) }
    (s, ok ([BitVec.ofNat 32 recs.length, BitVec.ofNat 32 (firstSeq all), BitVec.ofNat 32 l.seq] ++
      recs.flatMap EvRec.words))

/-- LOG_FREEZE (R382); the records held are those LOG_READ finds, the buffered ones included. -/
def State.freezeLog (s : State) (m : Bool) : State × Option Ans :=
  let l := s.logOf m
  let all := l.mram ++ l.buf
  if l.freeze.isSome then (s, err 0x0126) else
    let id := (Config.freezeId s.evt.freezeId).toNat
    let s := { s with evt := { s.evt with freezeId := s.evt.freezeId + 1 } }
    let s := s.setLog m { l with freeze := some { id := id, at_ := s.now, lost := 0 } }
    (s, ok [BitVec.ofNat 32 id, BitVec.ofNat 32 (firstSeq all), BitVec.ofNat 32 (lastSeqOf all)])

/-- LOG_THAW (R382). -/
def State.thawLog (s : State) (m : Bool) (id : Nat) : State × Option Ans :=
  match (s.logOf m).freeze with
  | none => (s, err 0x0106)
  | some f => if f.id ≠ id then (s, err 0x0106) else (s.endFreeze m 0, ok [BitVec.ofNat 32 f.lost])

/-- LOG_CLEAR of the general log (R382). -/
def State.clearLog (s : State) : State × Option Ans :=
  if s.evt.gen.freeze.isSome then (s, err 0x0126) else
    let l := s.evt.gen
    let all := l.mram ++ l.buf
    let s := s.setLog false { l with mram := [], buf := [], near := false }
    (s.logEv 0x0002 0x0E s.now (evPar (lastSeqOf all) all.length), ok [BitVec.ofNat 32 all.length])

/-- LOG_READ (0x0700). -/
def execLogRead (dt : Nat) (q : Req) (s : State) : Out :=
  .next ((s.advance dt).serve q 0x0700 0x0E 0 2 true (fun _ s => s.readLog false q))

/-- MLOG_READ (0x0704). -/
def execMlogRead (dt : Nat) (q : Req) (s : State) : Out :=
  .next ((s.advance dt).serve q 0x0704 0x0E 0 2 true (fun _ s => s.readLog true q))

/-- LOG_FREEZE (0x0701). -/
def execLogFreeze (dt : Nat) (q : Req) (s : State) : Out :=
  .next ((s.advance dt).serve q 0x0701 0x0E 0 1 true (fun _ s => s.freezeLog (q.bits 4 0 0 == 1)))

/-- LOG_THAW (0x0702). -/
def execLogThaw (dt : Nat) (q : Req) (s : State) : Out :=
  .next ((s.advance dt).serve q 0x0702 0x0E 0 1 true (fun _ s => s.thawLog (q.bits 4 0 0 == 1) (q.bits 4 31 16)))

/-- LOG_CLEAR (0x0703): the metrological log is never cleared. -/
def execLogClear (dt : Nat) (q : Req) (s : State) : Out :=
  .next ((s.advance dt).serve q 0x0703 0x0E 0 1 true
    (fun _ s => if q.bits 4 0 0 = 1 then (s, err 0x0107) else s.clearLog))

/-- The freeze of a log has lasted EVT.FREEZE_MAX_S (R382). -/
def execFreezeMaxTimeout (dt : Nat) (metrological : Bool) (s : State) : Out :=
  let s := s.advance dt
  match (s.logOf metrological).freeze with
  | some f => .next (if f.at_ + s.parN Par.EVT.FREEZE_MAX_S 0 * sec ≤ s.now then s.endFreeze metrological 1 else s)
  | none => .next s

/-- The 5 s flush (R379). -/
def execLogFlushTimer (dt : Nat) (s : State) : Out :=
  let s := s.advance dt
  .next (if s.up && decide (s.evt.flushAt + 5 * sec ≤ s.now) then
      { s with evt := { s.evt with flushAt := s.now } }.flushLogs else s)

/-- A bucket below 8 tokens gains one at a whole multiple of EVT.REFILL_MS of its class from the instant it fell below 8
(R378). -/
def execTokenRefill (dt : Nat) (code : Nat) (s : State) : Out :=
  let s := s.advance dt
  let b := s.bucket code
  let period := s.parN Par.EVT.REFILL_MS (evInfo code).2.1 * 1000000
  .next (if b.tokens < 8 ∧ b.fellAt < s.now ∧ (s.now - b.fellAt) % period = 0 ∧ b.gainedAt < s.now then
      s.setBucket code { b with tokens := b.tokens + 1, gainedAt := s.now } else s)

end Sys2Proof.Machine
end

