-- ==== Sys2Proof/Machine/Session.lean ====
section
/-! DEFINITION. The generic commands (R50) and the sessions (R46 to R48). -/

namespace Sys2Proof.Machine

open Sys2Proof

/-! ### Generic commands (R50) -/

/-- NOP (0x0000). -/
def execNop (dt : Nat) (q : Req) (s : State) : Out :=
  .next ((s.advance dt).serve q 0x0000 0x0C 0 0 true (fun _ s => (s, ok [])))

/-- What IDENTIFY answers: device, variant and screening, revision and protocol, firmware version, bank (R50). -/
def State.identity (s : State) : List Word :=
  words64 s.ident.deviceId.toNat ++
  [BitVec.ofNat 32 (0x46400000 + (if s.ident.variantM then 0x4D00 else 0x4100) + (if s.ident.screenedE then 0x45 else 0)),
   BitVec.ofNat 32 (s.ident.siliconRev.toNat * 65536 + 1), BitVec.ofNat 32 (s.bankOf s.pwr.bank).version,
   BitVec.ofNat 32 s.pwr.bank]

/-- IDENTIFY (0x0001). -/
def execIdentify (dt : Nat) (q : Req) (s : State) : Out :=
  .next ((s.advance dt).serve q 0x0001 0x0C 0 0 true (fun _ s => (s, ok s.identity)))

/-- GET_STATE (0x0002). -/
def execGetState (dt : Nat) (q : Req) (s : State) : Out :=
  .next ((s.advance dt).serve q 0x0002 0x0C 0 0 true (fun _ s => (s, ok [s.stateWord])))

/-- ECHO_TIME (0x0006): a GTF that is no time is refused (R76). The request is received, and its reply queued, at one instant of
the model. -/
def execEchoTime (dt : Nat) (q : Req) (s : State) : Out :=
  .next ((s.advance dt).serve q 0x0006 0x0C 0 2 true (fun _ s =>
    if gtfValid (q.dw 4) || q.dw 4 == gtfNone then
      (s, ok ([q.w 4, q.w 5] ++ gtfWords s.now ++ gtfWords s.now ++ one s.tq))
    else (s, err 0x0106)))

/-! ### Sessions (R46 to R48) -/

/-- A session ends. -/
def State.endSession (s : State) (n : Nat) : State := { s with ctl := { s.ctl with sessions := s.ctl.sessions.erase n } }

/-- The session key: HKDF-SHA-256 of the slot's key, salted with both nonces, bound to device and session number (R47). -/
def sessionKeyOf (ikm id host module : List Byte) (n : Nat) : List Byte :=
  hkdf256 ikm (host ++ module) (ascii "SUNDIC-SES" ++ id ++ [BitVec.ofNat 8 n]) 32

/-- The lowest session number that is free. -/
def State.freeSession (s : State) : Nat :=
  (((List.range 255).map (· + 1)).find? (fun n => (s.ctl.sessions.get? n).isNone)).getD 0

/-- Phase 1 of OPEN_SESSION: the slot must be VALID, not ORPHAN and carry COMMS; at most 32 sessions (R46, R47). -/
def State.openPhase1 (s : State) (q : Req) : State × Option Ans :=
  let slot := q.bits 4 31 16
  let role := q.bits 4 15 8
  if q.session ≠ 0 then (s.count 0x0C03 0 1, err 0x0109)
  else if q.payload.length < 5 ∨ slot < 3 ∨ 127 < slot ∨ role = 0 ∨ 2 < role then (s, err 0x0106)
  else
    match s.commsKey slot with
    | none => (s, err 0x0109)
    | some ikm =>
      if 32 ≤ s.ctl.sessions.length then (s, err 0x0117)
      else
        let n := s.freeSession
        let (s, drawn) := s.draw
        let module := drawn.take 16
        let x : Session :=
          { slot := slot, role := role, key := sessionKeyOf ikm s.idBytes (q.bytes 5 16) module n, active := false
            hostNonce := q.bytes 5 16, modNonce := module, lastSeq := none, lastAt := s.now
            conn := match q.carriage with | .tcp k => some k | _ => none }
        ({ s with ctl := { s.ctl with sessions := s.ctl.sessions.set n x } },
         ok (one n ++ q.carriage.pack module ++ words64 s.ident.deviceId.toNat))

/-- What the owner anchor signs in phase 2 (R46): device ID, nonces, key slot. -/
def State.ownerProof (s : State) (x : Session) : List Byte := s.idBytes ++ x.hostNonce ++ x.modNonce ++ [BitVec.ofNat 8 x.slot]

/-- Phase 2: within 10 s; for OWNER, signed by the owner anchor of slot 2; OK activates the session (R46, R47). -/
def State.openPhase2 (s : State) (q : Req) : State × Option Ans :=
  match s.ctl.sessions.get? q.session with
  | none => (s.count 0x0C03 0 1, err 0x0109)
  | some x =>
    if x.active then (s, err 0x0109)
    else if x.lastAt + 10 * sec < s.now then (s.endSession q.session, err 0x0119)
    else if q.bits 4 31 16 ≠ x.slot ∨ q.bits 4 15 8 ≠ x.role ∨ (x.role = 2 ∧ q.payload.length < 17) then (s, err 0x0106)
    else if x.role = 2 && !((s.keySlot 2).usable && p256Verify (s.keySlot 2).pub (sha256 (s.ownerProof x)) (q.bytes 5 64)) then
      (s, err 0x0113)
    else
      ({ s with ctl := { s.ctl with sessions := s.ctl.sessions.set q.session { x with active := true, lastAt := s.now } } }, ok [])

/-- OPEN_SESSION (0x0004), by the phase the packet names. -/
def State.serveOpen (s : State) (q : Req) : State :=
  s.serve q 0x0004 0x0C 0 1 true (fun _ s =>
    match q.bits 4 7 0 with
    | 1 => s.openPhase1 q
    | 2 => s.openPhase2 q
    | _ => (s, err 0x0106))

/-- OPEN_SESSION, phase 1. -/
def execOpenSessionPhase1 (dt : Nat) (q : Req) (s : State) : Out := .next ((s.advance dt).serveOpen q)

/-- OPEN_SESSION, phase 2. -/
def execOpenSessionPhase2 (dt : Nat) (q : Req) (s : State) : Out := .next ((s.advance dt).serveOpen q)

/-- SESSION_PHASE2_TIMEOUT: a number whose phase 2 has not come within 10 s is freed (R47). -/
def execSessionPhase2Timeout (dt : Nat) (session : Nat) (s : State) : Out :=
  let s := s.advance dt
  .next (match s.ctl.sessions.get? session with
    | some x => if s.up && !x.active && decide (x.lastAt + 10 * sec ≤ s.now) then s.endSession session else s
    | none => s)

/-- CLOSE_SESSION (0x0005): the packet's own session ends; a packet of none ends none (R48). -/
def execCloseSession (dt : Nat) (q : Req) (s : State) : Out :=
  .next ((s.advance dt).serve q 0x0005 0x0C 1 0 true (fun _ s => (s.endSession q.session, ok [])))

/-- SESSION_IDLE_TIMEOUT: CTL.SESSION_IDLE_S without a valid request ends a session (R48). -/
def execSessionIdleTimeout (dt : Nat) (session : Nat) (s : State) : Out :=
  let s := s.advance dt
  .next (match s.ctl.sessions.get? session with
    | some x =>
      if s.up && x.active && decide (x.lastAt + sec * s.parN Par.CTL.SESSION_IDLE_S 0 ≤ s.now) then s.endSession session else s
    | none => s)

end Sys2Proof.Machine
end

