-- ==== Sys2Proof/Machine/Rings.lean ====
section
/-! DEFINITION. The host link's registers and rings (R69, R70, R391, R419), packets that fail their framing (R36, R40), and the
TCP engine's connections (R37, R406). -/

namespace Sys2Proof.Machine

open Sys2Proof

/-! ### Rings (R69, R70) -/

/-- SIZE is valid: a power of two from 16 to 65,536 (R69). -/
def sizeValid (w : Word) : Bool := (List.range 13).any (fun k => w.toNat == 2 ^ (k + 4))

/-- A ring is disabled: what its descriptors held that the module has not taken is let go; the transmit descriptors of a send in
progress complete. -/
def State.disableRing (s : State) (n : Nat) : State :=
  let r := s.ring n
  let s := s.setRing n { r with
    enable := false, posted := [], sends := [], producer := (r.head + r.inFlight) % max r.size.toNat 1 }
  { s with ctl := { s.ctl with unfetched := s.ctl.unfetched.filter (fun x => x.1 != .host n) } }

/-- RING_CTL_WRITE: ENABLE stays 0 where SIZE is invalid (R69). -/
def execRingCtlWrite (dt : Nat) (ring : Nat) (value : Word) (s : State) : Out :=
  let s := s.advance dt
  let r := s.ring ring
  .next (if s.endpointUp && decide (ring < 64) then
      if !value.getLsbD 0 then s.disableRing ring
      else if r.enable || sizeValid r.size then s.setRing ring { r with enable := true } else s
    else s)

/-- A register of a ring that is read and written while the ring is disabled: BASE_LO, BASE_HI, SIZE (R69). -/
def Ring.write (r : Ring) (offset : Nat) (value : Word) : Ring :=
  if r.enable then r
  else
    match offset with
    | 0 => { r with base := (r.base.extractLsb' 32 32) ++ (value &&& ~~~ (0x1F : Word)) }
    | 4 => { r with base := value ++ (r.base.extractLsb' 0 32) }
    | 8 => { r with size := value }
    | _ => r

/-- An interrupt held back is raised once IRQ_HOLDOFF has passed and its vector is not masked (R69). -/
def State.releaseIrq (s : State) (v : Nat) : State :=
  let hold := bitsOf s.ctl.irqHoldoff.toNat 15 0 * 1000
  if s.ctl.irqHeld.contains v && !s.irqMasked v && (s.ctl.irqLast.get? v).all (fun t => decide (t + hold ≤ s.now)) then
    { s with ctl := { s.ctl with
      irqHeld := s.ctl.irqHeld.filter (fun x => x != v), irqLast := s.ctl.irqLast.set v s.now } }.emit (.irq v)
  else s

/-- BAR0_REGISTER_WRITE: HOST_CTL, IRQ_HOLDOFF, a ring's BASE and SIZE, the MSI-X table, where a vector unmasked is raised if it is
pending; reserved bits and read-only registers are not written (R8, R69). -/
def execBar0RegisterWrite (dt : Nat) (offset : Nat) (value : Word) (s : State) : Out :=
  let s := s.advance dt
  .next (if s.endpointUp then
      if offset = 0x0008 then { s with ctl := { s.ctl with hostCtl := value &&& 3 } }
      else if offset = 0x000C then { s with ctl := { s.ctl with irqHoldoff := value &&& 0xFFFF } }
      else if 0x1000 ≤ offset ∧ offset < 0x1800 then
        let n := (offset - 0x1000) / 32
        s.setRing n ((s.ring n).write (offset % 32) value)
      else if 0x2000 ≤ offset ∧ offset < 0x2400 then
        { s with ctl := { s.ctl with msix := s.ctl.msix.put 0 (offset - 0x2000) value } }.releaseIrq ((offset - 0x2000) / 16)
      else s
    else s)

/-- Waiting replies take the free descriptors of a reply ring, oldest first (R70). -/
def State.placeWaiting (s : State) (n : Nat) : Nat → State
  | 0 => s
  | k + 1 =>
    match (s.ring n).waiting, s.freeBuf n with
    | (_, r) :: rest, some len => ((s.setRing n { s.ring n with waiting := rest }).placeReply n len r).placeWaiting n k
    | _, _ => s

/-- What a doorbell of `k` new descriptors brings: packets are fetched, transmit descriptors taken, empty buffers posted and
given to the replies that wait (R70, R114, R117). -/
def State.ringData (s : State) (n k : Nat) (d : RingData) : State :=
  let r := s.ring n
  match d with
  | .packets l =>
    if 48 ≤ n ∧ n ≤ 55 then
      let s := { s with ctl := { s.ctl with unfetched := s.ctl.unfetched ++ (l.take k).map (fun p => (Carriage.host n, p)) } }
      (List.range 64).foldl (fun (s : State) _ => s.fetchMore) s
    else s
  | .sends l => if 32 ≤ n ∧ n ≤ 47 then s.setRing n { r with sends := r.sends ++ l.take k } else s
  | .buffers l =>
    if n < 32 ∨ 56 ≤ n then
      let s := s.setRing n { r with posted := r.posted ++ l.take k }
      s.placeWaiting n (s.ring n).waiting.length
    else s

/-- DOORBELL_WRITE: the producer index of an enabled ring, modulo SIZE; an index equal to HEAD is an empty ring (R69, R391).
`data` is what the module finds in the new descriptors. -/
def execDoorbellWrite (dt : Nat) (ring : Nat) (index : Nat) (data : RingData) (s : State) : Out :=
  let s := s.advance dt
  let r := s.ring ring
  .next (if s.endpointUp && r.enable then
      let size := max r.size.toNat 1
      let k := (index % size + size - r.producer) % size
      (s.setRing ring { r with producer := index % size }).ringData ring k data
    else s)

/-- REPLY_WAIT_TIMEOUT: the oldest reply of a ring that has waited CTL.REPLY_WAIT_MS is dropped and counted (R70). -/
def execReplyWaitTimeout (dt : Nat) (ring : Nat) (s : State) : Out :=
  let s := s.advance dt
  let r := s.ring ring
  .next (match r.waiting with
    | (t, _) :: rest =>
      if decide (t + 1000000 * s.parN Par.CTL.REPLY_WAIT_MS 0 ≤ s.now) then
        (s.setRing ring { r with waiting := rest }).count 0x0C07 0 1
      else s
    | [] => s)

/-- IRQ_HOLDOFF_EXPIRY: a held-back interrupt is raised once IRQ_HOLDOFF has passed (R69). -/
def execIrqHoldoffExpiry (dt : Nat) (vector : Nat) (s : State) : Out :=
  .next ((s.advance dt).releaseIrq vector)

/-- PE_PERST_N_ASSERT: only the host link is reset: every ring is disabled, replies in flight are dropped and counted (R419). -/
def execPePerstNAssert (dt : Nat) (s : State) : Out :=
  let s := s.advance dt
  let dropped := (s.ctl.rings.map (fun r => r.2.waiting.length)).sum
  let s := (List.range 64).foldl (fun (s : State) n =>
    (s.setRing n { s.ring n with waiting := [] }).disableRing n) s
  .next ({ s with ctl := { s.ctl with linkUp := false, irqHeld := [], latches := [] } }.count 0x0C07 0 dropped)

/-- PE_PERST_N_RELEASE: the link retrains; the rings stay disabled. -/
def execPePerstNRelease (dt : Nat) (s : State) : Out :=
  let s := s.advance dt
  .next { s with ctl := { s.ctl with linkUp := true } }

/-! ### Packets and frames that fail (R36, R37, R40) -/

/-- A packet fails steps 1 to 3 of R39: counted, answered even with NOREPLY; a TCP connection then closes (R37, R40). -/
def State.badPacket (s : State) (c : Carriage) (l : List Byte) (st : Nat) : State := s.framingReply (s.badPacketReply c l st)

/-- PACKET_BAD_FRAMING: the packet's bytes as received, in a buffer of `bufLen` bytes on the host link; steps 1 to 4 of R39. A
packet that passes them is another command's. One whose words cross a FIFO poisoned fails its CRC (R395). -/
def execPacketBadFraming (dt : Nat) (c : Carriage) (bufLen : Nat) (bytes : List Byte) (s : State) : Out :=
  let s := s.advance dt
  .next (if s.hears c then
      let size := match c with | .host _ => bufLen | _ => bytes.length
      match packetFault c size bytes with
      | some st => ((s.release c).arrive c 0).1.badPacket c bytes st
      | none =>
        let r := requestOf c bytes
        if requestOps.contains r.1 then s
        else
          let op := bitsOf r.1 14 0
          match (s.release c).arrive c 0 with
          | (s, true, _) => s.poisonedRequest r.2 op
          | (s, false, _) => s.answer (s.sessionKey r.2) r.2 op 0x0C (0x0100, [detail 0xFFFF 0])
    else s)

/-- Bytes decode as COBS: each code byte is followed by as many bytes less one, none of them 0 (R36). -/
def cobsOk : Nat → List Byte → Bool
  | _, [] => true
  | 0, _ => false
  | n + 1, b :: l =>
    let k := b.toNat - 1
    decide (b.toNat ≠ 0) && decide (k ≤ l.length) && (l.take k).all (fun x => x != 0) && cobsOk n (l.drop k)

/-- UART_FRAME_BAD: a frame that is too long or no COBS is counted and discarded (R36). -/
def execUartFrameBad (dt : Nat) (frame : List Byte) (s : State) : Out :=
  let s := s.advance dt
  .next (if s.hears .uart && (decide (65795 < frame.length) || !cobsOk (frame.length + 1) frame) then s.count 0x0C05 0 1 else s)

/-! ### TCP connections (R37, R179, R406) -/

/-- A connection for a peer that none is reserved for is free (R406). -/
def State.tcpSpare (s : State) : Bool :=
  decide ((s.ctl.tcp.filter (fun c => c.2.use == 0)).length + s.tcpUsers.length < 64)

/-- A SYN is accepted on the lowest free connection. -/
def State.tcpAccept (s : State) (port lport use owner : Nat) (peer : Peer) : State :=
  match s.freeConn with
  | some k =>
    { s with ctl := { s.ctl with
      tcp := s.ctl.tcp.set k
        { peer := peer, port := port, lport := lport, use := use, owner := owner, lastAt := s.now, sent := 0 } } }.emit (.tcpAccept k peer)
  | none => s

/-- A SYN to a listening port: of a TYPE 2 destination, one client at a time; of the command interpreter, where a connection is
free. Another is answered with RST, and counted where none is free (R37, R179, R406). -/
def State.tcpSyn (s : State) (port tcpPort : Nat) (peer : Peer) : State :=
  match s.listener port tcpPort with
  | some i =>
    if s.ctl.tcp.any (fun c => c.2.use == 2 && c.2.owner == i) then s.emit (.tcpRst peer) else s.tcpAccept port tcpPort 2 i peer
  | none =>
    if s.parB Par.CTL.TCP_ENABLE port && tcpPort == s.parN Par.CTL.UDP_PORT 0 then
      if s.tcpSpare then s.tcpAccept port tcpPort 0 0 peer else (s.count 0x0C0D 0 1).emit (.tcpRst peer)
    else s

/-- TCP_CONNECTION_REQUEST. -/
def execTcpConnectionRequest (dt : Nat) (port tcpPort : Nat) (peer : Peer) (s : State) : Out :=
  let s := s.advance dt
  .next (if s.up && s.linkIsUp port then s.tcpSyn port tcpPort peer else s)

/-- TCP_CONNECTION_IDLE_CLOSE: a command connection that has carried no packet for CTL.SESSION_IDLE_S closes (R37). -/
def execTcpConnectionIdleClose (dt : Nat) (conn : Nat) (s : State) : Out :=
  let s := s.advance dt
  .next (match s.ctl.tcp.get? conn with
    | some t =>
      if s.up && t.use == 0 && decide (t.lastAt + sec * s.parN Par.CTL.SESSION_IDLE_S 0 ≤ s.now) then s.tcpEnd conn else s
    | none => s)

end Sys2Proof.Machine
end

