-- ==== Sys2Proof/Machine/Dispatch.lean ====
section
/-! DEFINITION. The command dispatcher: one arm for each row of spec/opcode_table.json, in the table's order. -/

namespace Sys2Proof.Machine

open Sys2Proof

def exec (i : Instr) (s : State) : Host.Outcome State Fault Refusal :=
  match i with
  | .nop dt q => Sys2Proof.Machine.execNop dt q s
  | .identify dt q => Sys2Proof.Machine.execIdentify dt q s
  | .getState dt q => Sys2Proof.Machine.execGetState dt q s
  | .setState dt q => Sys2Proof.Machine.execSetState dt q s
  | .openSessionPhase1 dt q => Sys2Proof.Machine.execOpenSessionPhase1 dt q s
  | .openSessionPhase2 dt q => Sys2Proof.Machine.execOpenSessionPhase2 dt q s
  | .sessionPhase2Timeout dt session => Sys2Proof.Machine.execSessionPhase2Timeout dt session s
  | .closeSession dt q => Sys2Proof.Machine.execCloseSession dt q s
  | .sessionIdleTimeout dt session => Sys2Proof.Machine.execSessionIdleTimeout dt session s
  | .echoTime dt q => Sys2Proof.Machine.execEchoTime dt q s
  | .readParam dt q => Sys2Proof.Machine.execReadParam dt q s
  | .writeParam dt q => Sys2Proof.Machine.execWriteParam dt q s
  | .writeLive dt q => Sys2Proof.Machine.execWriteLive dt q s
  | .readBatch dt q => Sys2Proof.Machine.execReadBatch dt q s
  | .writeBatch dt q => Sys2Proof.Machine.execWriteBatch dt q s
  | .commitMaquette dt q => Sys2Proof.Machine.execCommitMaquette dt q s
  | .commitCheckDone dt => Sys2Proof.Machine.execCommitCheckDone dt s
  | .commitFlashStored dt => Sys2Proof.Machine.execCommitFlashStored dt s
  | .commitBoundary dt => Sys2Proof.Machine.execCommitBoundary dt s
  | .discardMaquette dt q => Sys2Proof.Machine.execDiscardMaquette dt q s
  | .diffMaquette dt q => Sys2Proof.Machine.execDiffMaquette dt q s
  | .readConflicts dt q => Sys2Proof.Machine.execReadConflicts dt q s
  | .configConsolidationStart dt => Sys2Proof.Machine.execConfigConsolidationStart dt s
  | .configConsolidationDone dt => Sys2Proof.Machine.execConfigConsolidationDone dt s
  | .readCounters dt q => Sys2Proof.Machine.execReadCounters dt q s
  | .peekCounters dt q => Sys2Proof.Machine.execPeekCounters dt q s
  | .readStatusBlock dt q => Sys2Proof.Machine.execReadStatusBlock dt q s
  | .packetBadFraming dt carriage bufLen bytes => Sys2Proof.Machine.execPacketBadFraming dt carriage bufLen bytes s
  | .uartFrameBad dt frame => Sys2Proof.Machine.execUartFrameBad dt frame s
  | .tcpConnectionRequest dt port tcpPort peer => Sys2Proof.Machine.execTcpConnectionRequest dt port tcpPort peer s
  | .tcpConnectionIdleClose dt conn => Sys2Proof.Machine.execTcpConnectionIdleClose dt conn s
  | .replyWaitTimeout dt ring => Sys2Proof.Machine.execReplyWaitTimeout dt ring s
  | .doorbellWrite dt ring index data => Sys2Proof.Machine.execDoorbellWrite dt ring index data s
  | .ringCtlWrite dt ring value => Sys2Proof.Machine.execRingCtlWrite dt ring value s
  | .bar0RegisterWrite dt offset value => Sys2Proof.Machine.execBar0RegisterWrite dt offset value s
  | .liveWindowLowRead dt requester read => Sys2Proof.Machine.execLiveWindowLowRead dt requester read s
  | .liveWindowHighRead dt requester offset => Sys2Proof.Machine.execLiveWindowHighRead dt requester offset s
  | .liveWindowWrite dt offset value => Sys2Proof.Machine.execLiveWindowWrite dt offset value s
  | .pePerstNAssert dt => Sys2Proof.Machine.execPePerstNAssert dt s
  | .pcieL1ExitWake dt => Sys2Proof.Machine.execPcieL1ExitWake dt s
  | .frameReceived dt port frame => Sys2Proof.Machine.execFrameReceived dt port frame s
  | .rxFrameSteer dt port => Sys2Proof.Machine.execRxFrameSteer dt port s
  | .fragmentReceived dt frag => Sys2Proof.Machine.execFragmentReceived dt frag s
  | .reassemblyTimeout dt => Sys2Proof.Machine.execReassemblyTimeout dt s
  | .phyStatusPoll dt port status => Sys2Proof.Machine.execPhyStatusPoll dt port status s
  | .linkDown dt port => Sys2Proof.Machine.execLinkDown dt port s
  | .linkUp dt port status => Sys2Proof.Machine.execLinkUp dt port status s
  | .txSend dt ring => Sys2Proof.Machine.execTxSend dt ring s
  | .txFrame dt port => Sys2Proof.Machine.execTxFrame dt port s
  | .downshiftWindow dt port rxBits txBits => Sys2Proof.Machine.execDownshiftWindow dt port rxBits txBits s
  | .downshiftLinkTimeout dt port => Sys2Proof.Machine.execDownshiftLinkTimeout dt port s
  | .wakeFrame dt port bytes => Sys2Proof.Machine.execWakeFrame dt port bytes s
  | .ptpAnnounceReceived dt port msg => Sys2Proof.Machine.execPtpAnnounceReceived dt port msg s
  | .ptpSyncReceived dt port msg heard => Sys2Proof.Machine.execPtpSyncReceived dt port msg heard s
  | .ptpPdelayReqReceived dt rx => Sys2Proof.Machine.execPtpPdelayReqReceived dt rx s
  | .ptpAnnounceInterval dt => Sys2Proof.Machine.execPtpAnnounceInterval dt s
  | .ptpAnnounceTimeout dt port sync => Sys2Proof.Machine.execPtpAnnounceTimeout dt port sync s
  | .irigFrameReceived dt f => Sys2Proof.Machine.execIrigFrameReceived dt f s
  | .irigFrameMissing dt => Sys2Proof.Machine.execIrigFrameMissing dt s
  | .ppsInEdge dt stamp => Sys2Proof.Machine.execPpsInEdge dt stamp s
  | .ppsInMissing dt => Sys2Proof.Machine.execPpsInMissing dt s
  | .referenceQualified dt kind => Sys2Proof.Machine.execReferenceQualified dt kind s
  | .referenceDisqualified dt kind => Sys2Proof.Machine.execReferenceDisqualified dt kind s
  | .referenceRevert dt => Sys2Proof.Machine.execReferenceRevert dt s
  | .tqChange dt => Sys2Proof.Machine.execTqChange dt s
  | .timeQualityHoldEnd dt => Sys2Proof.Machine.execTimeQualityHoldEnd dt s
  | .ppsOutSecond dt => Sys2Proof.Machine.execPpsOutSecond dt s
  | .ref10mLoss dt => Sys2Proof.Machine.execRef10mLoss dt s
  | .ref10mRestore dt => Sys2Proof.Machine.execRef10mRestore dt s
  | .leapSecondApply dt => Sys2Proof.Machine.execLeapSecondApply dt s
  | .plinthTimeSet dt => Sys2Proof.Machine.execPlinthTimeSet dt s
  | .ingressFrame dt port arrival frame => Sys2Proof.Machine.execIngressFrame dt port arrival frame s
  | .c37CfgReceived dt rx => Sys2Proof.Machine.execC37CfgReceived dt rx s
  | .cfgRetryTimer dt src => Sys2Proof.Machine.execCfgRetryTimer dt src s
  | .c37ReconnectTimer dt src connected => Sys2Proof.Machine.execC37ReconnectTimer dt src connected s
  | .sourceDead dt src => Sys2Proof.Machine.execSourceDead dt src s
  | .sourceDefine dt q => Sys2Proof.Machine.execSourceDefine dt q s
  | .sourceRemove dt q => Sys2Proof.Machine.execSourceRemove dt q s
  | .sourceQuery dt q => Sys2Proof.Machine.execSourceQuery dt q s
  | .catalogueRead dt q => Sys2Proof.Machine.execCatalogueRead dt q s
  | .slotOpen dt pod slot => Sys2Proof.Machine.execSlotOpen dt pod slot s
  | .slotCloseAtNominal dt pod slot => Sys2Proof.Machine.execSlotCloseAtNominal dt pod slot s
  | .slotDeadlineTick dt pod slot => Sys2Proof.Machine.execSlotDeadlineTick dt pod slot s
  | .revBatchExpiry dt pod slot => Sys2Proof.Machine.execRevBatchExpiry dt pod slot s
  | .revHorizonExpiry dt pod slot => Sys2Proof.Machine.execRevHorizonExpiry dt pod slot s
  | .slotRelease dt pod slot => Sys2Proof.Machine.execSlotRelease dt pod slot s
  | .deepWaitEditionReady dt pod slot => Sys2Proof.Machine.execDeepWaitEditionReady dt pod slot s
  | .oafLayoutRepeat dt pod => Sys2Proof.Machine.execOafLayoutRepeat dt pod s
  | .c37OutputCommand dt dest peer command => Sys2Proof.Machine.execC37OutputCommand dt dest peer command s
  | .podReadSlot dt q => Sys2Proof.Machine.execPodReadSlot dt q s
  | .podSubscribe dt q => Sys2Proof.Machine.execPodSubscribe dt q s
  | .fdEvaluate dt det slot => Sys2Proof.Machine.execFdEvaluate dt det slot s
  | .mtSlotRead dt tracker => Sys2Proof.Machine.execMtSlotRead dt tracker s
  | .mtExtractionStart dt tracker => Sys2Proof.Machine.execMtExtractionStart dt tracker s
  | .mtExtractionDone dt tracker => Sys2Proof.Machine.execMtExtractionDone dt tracker s
  | .mtSignalRejoin dt tracker signal => Sys2Proof.Machine.execMtSignalRejoin dt tracker signal s
  | .armStatusChange dt branch closed stamp => Sys2Proof.Machine.execArmStatusChange dt branch closed stamp s
  | .dinStatusDebounced dt land level stamp => Sys2Proof.Machine.execDinStatusDebounced dt land level stamp s
  | .travelTimeout dt branch => Sys2Proof.Machine.execTravelTimeout dt branch s
  | .armRecomputeDone dt => Sys2Proof.Machine.execArmRecomputeDone dt s
  | .armMeasEvaluate dt net slot => Sys2Proof.Machine.execArmMeasEvaluate dt net slot s
  | .balEvaluate dt group slot => Sys2Proof.Machine.execBalEvaluate dt group slot s
  | .balRecSlot dt group slot => Sys2Proof.Machine.execBalRecSlot dt group slot s
  | .balRecIntervalClose dt group => Sys2Proof.Machine.execBalRecIntervalClose dt group s
  | .cusStep dt point input => Sys2Proof.Machine.execCusStep dt point input s
  | .directionDebounce dt point => Sys2Proof.Machine.execDirectionDebounce dt point s
  | .totalsSave dt => Sys2Proof.Machine.execTotalsSave dt s
  | .profileBoundary dt minutes => Sys2Proof.Machine.execProfileBoundary dt minutes s
  | .profileSigned dt point sequence => Sys2Proof.Machine.execProfileSigned dt point sequence s
  | .cusReadRegisters dt q => Sys2Proof.Machine.execCusReadRegisters dt q s
  | .cusReadProfile dt q => Sys2Proof.Machine.execCusReadProfile dt q s
  | .cusAckProfile dt q => Sys2Proof.Machine.execCusAckProfile dt q s
  | .cusSealSeal dt q => Sys2Proof.Machine.execCusSealSeal dt q s
  | .cusSealBreak dt q => Sys2Proof.Machine.execCusSealBreak dt q s
  | .cusSealClearRegisters dt q => Sys2Proof.Machine.execCusSealClearRegisters dt q s
  | .cusSealedUpdate dt q => Sys2Proof.Machine.execCusSealedUpdate dt q s
  | .cusReadLegalId dt q => Sys2Proof.Machine.execCusReadLegalId dt q s
  | .owChop dt land before chopped after => Sys2Proof.Machine.execOwChop dt land before chopped after s
  | .auxDwellStart dt => Sys2Proof.Machine.execAuxDwellStart dt s
  | .calCycleStart dt spare => Sys2Proof.Machine.execCalCycleStart dt spare s
  | .calComparisonDone dt spare usable meanDiff16 maxDiff16 => Sys2Proof.Machine.execCalComparisonDone dt spare usable meanDiff16 maxDiff16 s
  | .calCalibrationDone dt slice offset16 gainPpm => Sys2Proof.Machine.execCalCalibrationDone dt slice offset16 gainPpm s
  | .fltBankSwap dt channel => Sys2Proof.Machine.execFltBankSwap dt channel s
  | .localSourceReport dt src report => Sys2Proof.Machine.execLocalSourceReport dt src report s
  | .capRow dt recorder row full => Sys2Proof.Machine.execCapRow dt recorder row full s
  | .dinTriggerEdge dt land rising stamp => Sys2Proof.Machine.execDinTriggerEdge dt land rising stamp s
  | .capAutoTimeout dt recorder => Sys2Proof.Machine.execCapAutoTimeout dt recorder s
  | .capRearmEnd dt recorder => Sys2Proof.Machine.execCapRearmEnd dt recorder s
  | .capArm dt q => Sys2Proof.Machine.execCapArm dt q s
  | .capDisarm dt q => Sys2Proof.Machine.execCapDisarm dt q s
  | .capForce dt q => Sys2Proof.Machine.execCapForce dt q s
  | .capRead dt q => Sys2Proof.Machine.execCapRead dt q s
  | .capSetRewind dt q => Sys2Proof.Machine.execCapSetRewind dt q s
  | .capExport dt q => Sys2Proof.Machine.execCapExport dt q s
  | .capRelease dt q => Sys2Proof.Machine.execCapRelease dt q s
  | .lgcScan dt => Sys2Proof.Machine.execLgcScan dt s
  | .lgcOutputWrite dt => Sys2Proof.Machine.execLgcOutputWrite dt s
  | .gooseRepeat dt cb => Sys2Proof.Machine.execGooseRepeat dt cb s
  | .stationControlAck dt port bytes => Sys2Proof.Machine.execStationControlAck dt port bytes s
  | .stationAckTimeout dt src => Sys2Proof.Machine.execStationAckTimeout dt src s
  | .stationRefresh dt src => Sys2Proof.Machine.execStationRefresh dt src s
  | .lgcLoad dt q => Sys2Proof.Machine.execLgcLoad dt q s
  | .lgcImageStored dt => Sys2Proof.Machine.execLgcImageStored dt s
  | .lgcStart dt q => Sys2Proof.Machine.execLgcStart dt q s
  | .lgcStop dt q => Sys2Proof.Machine.execLgcStop dt q s
  | .lgcForce dt q => Sys2Proof.Machine.execLgcForce dt q s
  | .lgcRelease dt q => Sys2Proof.Machine.execLgcRelease dt q s
  | .lgcOnlineChange dt q => Sys2Proof.Machine.execLgcOnlineChange dt q s
  | .lgcReadVars dt q => Sys2Proof.Machine.execLgcReadVars dt q s
  | .keyUpdateSetAnchor dt q => Sys2Proof.Machine.execKeyUpdateSetAnchor dt q s
  | .keyUpdateRekeyRoot dt q => Sys2Proof.Machine.execKeyUpdateRekeyRoot dt q s
  | .keyUpdateGenerate dt q => Sys2Proof.Machine.execKeyUpdateGenerate dt q s
  | .keyUpdateDerive dt q => Sys2Proof.Machine.execKeyUpdateDerive dt q s
  | .keyUpdateLoadWrapped dt q => Sys2Proof.Machine.execKeyUpdateLoadWrapped dt q s
  | .keyUpdateLoadPublic dt q => Sys2Proof.Machine.execKeyUpdateLoadPublic dt q s
  | .keyInvalidate dt q => Sys2Proof.Machine.execKeyInvalidate dt q s
  | .vaultJournalCommit dt => Sys2Proof.Machine.execVaultJournalCommit dt s
  | .keyInfo dt q => Sys2Proof.Machine.execKeyInfo dt q s
  | .keyInfoExport dt q => Sys2Proof.Machine.execKeyInfoExport dt q s
  | .sign dt q => Sys2Proof.Machine.execSign dt q s
  | .verify dt q => Sys2Proof.Machine.execVerify dt q s
  | .deviceCert dt q => Sys2Proof.Machine.execDeviceCert dt q s
  | .counterRead dt q => Sys2Proof.Machine.execCounterRead dt q s
  | .tamperDetected dt source => Sys2Proof.Machine.execTamperDetected dt source s
  | .supplyMeasurement dt vbatMv vplcMv => Sys2Proof.Machine.execSupplyMeasurement dt vbatMv vplcMv s
  | .batteryInsertion dt => Sys2Proof.Machine.execBatteryInsertion dt s
  | .logRead dt q => Sys2Proof.Machine.execLogRead dt q s
  | .mlogRead dt q => Sys2Proof.Machine.execMlogRead dt q s
  | .logFreeze dt q => Sys2Proof.Machine.execLogFreeze dt q s
  | .logThaw dt q => Sys2Proof.Machine.execLogThaw dt q s
  | .logClear dt q => Sys2Proof.Machine.execLogClear dt q s
  | .freezeMaxTimeout dt metrological => Sys2Proof.Machine.execFreezeMaxTimeout dt metrological s
  | .logFlushTimer dt => Sys2Proof.Machine.execLogFlushTimer dt s
  | .tokenRefill dt code => Sys2Proof.Machine.execTokenRefill dt code s
  | .delayExpiry dt => Sys2Proof.Machine.execDelayExpiry dt s
  | .coreSelfTestTimer dt failed => Sys2Proof.Machine.execCoreSelfTestTimer dt failed s
  | .coreRetire dt core task => Sys2Proof.Machine.execCoreRetire dt core task s
  | .fifoLevelHit dt fifo words => Sys2Proof.Machine.execFifoLevelHit dt fifo words s
  | .schedStats dt q => Sys2Proof.Machine.execSchedStats dt q s
  | .selfTest dt q => Sys2Proof.Machine.execSelfTest dt q s
  | .unitQuiesce dt q => Sys2Proof.Machine.execUnitQuiesce dt q s
  | .unitQuiesceDrained dt => Sys2Proof.Machine.execUnitQuiesceDrained dt s
  | .unitQuiesceTimeout dt => Sys2Proof.Machine.execUnitQuiesceTimeout dt s
  | .unitReset dt q => Sys2Proof.Machine.execUnitReset dt q s
  | .unitResume dt q => Sys2Proof.Machine.execUnitResume dt q s
  | .fwStage dt q => Sys2Proof.Machine.execFwStage dt q s
  | .fwVerify dt q => Sys2Proof.Machine.execFwVerify dt q s
  | .fwActivate dt q => Sys2Proof.Machine.execFwActivate dt q s
  | .fwActivationDrained dt => Sys2Proof.Machine.execFwActivationDrained dt s
  | .fwInfo dt q => Sys2Proof.Machine.execFwInfo dt q s
  | .spareStatus dt q => Sys2Proof.Machine.execSpareStatus dt q s
  | .patinaRead dt q => Sys2Proof.Machine.execPatinaRead dt q s
  | .powerUp dt => Sys2Proof.Machine.execPowerUp dt s
  | .resetNAssert dt => Sys2Proof.Machine.execResetNAssert dt s
  | .resetNRelease dt straps => Sys2Proof.Machine.execResetNRelease dt straps s
  | .bootComplete dt => Sys2Proof.Machine.execBootComplete dt s
  | .lockWaitTimeout dt => Sys2Proof.Machine.execLockWaitTimeout dt s
  | .pfwNFall dt => Sys2Proof.Machine.execPfwNFall dt s
  | .pfwNReturn dt => Sys2Proof.Machine.execPfwNReturn dt s
  | .supplyOutOfTolerance dt => Sys2Proof.Machine.execSupplyOutOfTolerance dt s
  | .sramScrubPass dt corrected uncorrectable => Sys2Proof.Machine.execSramScrubPass dt corrected uncorrectable s
  | .dramPageRetire dt page uncorrectable => Sys2Proof.Machine.execDramPageRetire dt page uncorrectable s
  | .mramBlockRetire dt block => Sys2Proof.Machine.execMramBlockRetire dt block s
  | .marginMonitor dt low => Sys2Proof.Machine.execMarginMonitor dt low s
  | .patinaSave dt => Sys2Proof.Machine.execPatinaSave dt s
  | .samplingInstant dt codes => Sys2Proof.Machine.execSamplingInstant dt codes s
  | .ppsOutWidthEnd dt => Sys2Proof.Machine.execPpsOutWidthEnd dt s
  | .irqHoldoffExpiry dt vector => Sys2Proof.Machine.execIrqHoldoffExpiry dt vector s
  | .fifoLevelRelease dt fifo left => Sys2Proof.Machine.execFifoLevelRelease dt fifo left s
  | .selfTestDone dt records faults => Sys2Proof.Machine.execSelfTestDone dt records faults s
  | .consolidationEraseDone dt => Sys2Proof.Machine.execConsolidationEraseDone dt s
  | .dinPulseEdge dt land rising => Sys2Proof.Machine.execDinPulseEdge dt land rising s
  | .pePerstNRelease dt => Sys2Proof.Machine.execPePerstNRelease dt s
  | .operatingSecond dt tjMilli => Sys2Proof.Machine.execOperatingSecond dt tjMilli s

end Sys2Proof.Machine
end

