-- ==== Sys2Proof/Laws/PerInstr.lean ====
section
/-! SUPPORT. Per-instruction facts about the commands as syntax. -/

namespace Sys2Proof

/-- The request packet a command carries, if it carries one. -/
def Instr.request : Instr → Option Req
  | .nop _ q => some q
  | .identify _ q => some q
  | .getState _ q => some q
  | .setState _ q => some q
  | .openSessionPhase1 _ q => some q
  | .openSessionPhase2 _ q => some q
  | .sessionPhase2Timeout _ _ => none
  | .closeSession _ q => some q
  | .sessionIdleTimeout _ _ => none
  | .echoTime _ q => some q
  | .readParam _ q => some q
  | .writeParam _ q => some q
  | .writeLive _ q => some q
  | .readBatch _ q => some q
  | .writeBatch _ q => some q
  | .commitMaquette _ q => some q
  | .commitCheckDone _ => none
  | .commitFlashStored _ => none
  | .commitBoundary _ => none
  | .discardMaquette _ q => some q
  | .diffMaquette _ q => some q
  | .readConflicts _ q => some q
  | .configConsolidationStart _ => none
  | .configConsolidationDone _ => none
  | .readCounters _ q => some q
  | .peekCounters _ q => some q
  | .readStatusBlock _ q => some q
  | .packetBadFraming _ _ _ _ => none
  | .uartFrameBad _ _ => none
  | .tcpConnectionRequest _ _ _ _ => none
  | .tcpConnectionIdleClose _ _ => none
  | .replyWaitTimeout _ _ => none
  | .doorbellWrite _ _ _ _ => none
  | .ringCtlWrite _ _ _ => none
  | .bar0RegisterWrite _ _ _ => none
  | .liveWindowLowRead _ _ _ => none
  | .liveWindowHighRead _ _ _ => none
  | .liveWindowWrite _ _ _ => none
  | .pePerstNAssert _ => none
  | .pcieL1ExitWake _ => none
  | .frameReceived _ _ _ => none
  | .rxFrameSteer _ _ => none
  | .fragmentReceived _ _ => none
  | .reassemblyTimeout _ => none
  | .phyStatusPoll _ _ _ => none
  | .linkDown _ _ => none
  | .linkUp _ _ _ => none
  | .txSend _ _ => none
  | .txFrame _ _ => none
  | .downshiftWindow _ _ _ _ => none
  | .downshiftLinkTimeout _ _ => none
  | .wakeFrame _ _ _ => none
  | .ptpAnnounceReceived _ _ _ => none
  | .ptpSyncReceived _ _ _ _ => none
  | .ptpPdelayReqReceived _ _ => none
  | .ptpAnnounceInterval _ => none
  | .ptpAnnounceTimeout _ _ _ => none
  | .irigFrameReceived _ _ => none
  | .irigFrameMissing _ => none
  | .ppsInEdge _ _ => none
  | .ppsInMissing _ => none
  | .referenceQualified _ _ => none
  | .referenceDisqualified _ _ => none
  | .referenceRevert _ => none
  | .tqChange _ => none
  | .timeQualityHoldEnd _ => none
  | .ppsOutSecond _ => none
  | .ref10mLoss _ => none
  | .ref10mRestore _ => none
  | .leapSecondApply _ => none
  | .plinthTimeSet _ => none
  | .ingressFrame _ _ _ _ => none
  | .c37CfgReceived _ _ => none
  | .cfgRetryTimer _ _ => none
  | .c37ReconnectTimer _ _ _ => none
  | .sourceDead _ _ => none
  | .sourceDefine _ q => some q
  | .sourceRemove _ q => some q
  | .sourceQuery _ q => some q
  | .catalogueRead _ q => some q
  | .slotOpen _ _ _ => none
  | .slotCloseAtNominal _ _ _ => none
  | .slotDeadlineTick _ _ _ => none
  | .revBatchExpiry _ _ _ => none
  | .revHorizonExpiry _ _ _ => none
  | .slotRelease _ _ _ => none
  | .deepWaitEditionReady _ _ _ => none
  | .oafLayoutRepeat _ _ => none
  | .c37OutputCommand _ _ _ _ => none
  | .podReadSlot _ q => some q
  | .podSubscribe _ q => some q
  | .fdEvaluate _ _ _ => none
  | .mtSlotRead _ _ => none
  | .mtExtractionStart _ _ => none
  | .mtExtractionDone _ _ => none
  | .mtSignalRejoin _ _ _ => none
  | .armStatusChange _ _ _ _ => none
  | .dinStatusDebounced _ _ _ _ => none
  | .travelTimeout _ _ => none
  | .armRecomputeDone _ => none
  | .armMeasEvaluate _ _ _ => none
  | .balEvaluate _ _ _ => none
  | .balRecSlot _ _ _ => none
  | .balRecIntervalClose _ _ => none
  | .cusStep _ _ _ => none
  | .directionDebounce _ _ => none
  | .totalsSave _ => none
  | .profileBoundary _ _ => none
  | .profileSigned _ _ _ => none
  | .cusReadRegisters _ q => some q
  | .cusReadProfile _ q => some q
  | .cusAckProfile _ q => some q
  | .cusSealSeal _ q => some q
  | .cusSealBreak _ q => some q
  | .cusSealClearRegisters _ q => some q
  | .cusSealedUpdate _ q => some q
  | .cusReadLegalId _ q => some q
  | .owChop _ _ _ _ _ => none
  | .auxDwellStart _ => none
  | .calCycleStart _ _ => none
  | .calComparisonDone _ _ _ _ _ => none
  | .calCalibrationDone _ _ _ _ => none
  | .fltBankSwap _ _ => none
  | .localSourceReport _ _ _ => none
  | .capRow _ _ _ _ => none
  | .dinTriggerEdge _ _ _ _ => none
  | .capAutoTimeout _ _ => none
  | .capRearmEnd _ _ => none
  | .capArm _ q => some q
  | .capDisarm _ q => some q
  | .capForce _ q => some q
  | .capRead _ q => some q
  | .capSetRewind _ q => some q
  | .capExport _ q => some q
  | .capRelease _ q => some q
  | .lgcScan _ => none
  | .lgcOutputWrite _ => none
  | .gooseRepeat _ _ => none
  | .stationControlAck _ _ _ => none
  | .stationAckTimeout _ _ => none
  | .stationRefresh _ _ => none
  | .lgcLoad _ q => some q
  | .lgcImageStored _ => none
  | .lgcStart _ q => some q
  | .lgcStop _ q => some q
  | .lgcForce _ q => some q
  | .lgcRelease _ q => some q
  | .lgcOnlineChange _ q => some q
  | .lgcReadVars _ q => some q
  | .keyUpdateSetAnchor _ q => some q
  | .keyUpdateRekeyRoot _ q => some q
  | .keyUpdateGenerate _ q => some q
  | .keyUpdateDerive _ q => some q
  | .keyUpdateLoadWrapped _ q => some q
  | .keyUpdateLoadPublic _ q => some q
  | .keyInvalidate _ q => some q
  | .vaultJournalCommit _ => none
  | .keyInfo _ q => some q
  | .keyInfoExport _ q => some q
  | .sign _ q => some q
  | .verify _ q => some q
  | .deviceCert _ q => some q
  | .counterRead _ q => some q
  | .tamperDetected _ _ => none
  | .supplyMeasurement _ _ _ => none
  | .batteryInsertion _ => none
  | .logRead _ q => some q
  | .mlogRead _ q => some q
  | .logFreeze _ q => some q
  | .logThaw _ q => some q
  | .logClear _ q => some q
  | .freezeMaxTimeout _ _ => none
  | .logFlushTimer _ => none
  | .tokenRefill _ _ => none
  | .delayExpiry _ => none
  | .coreSelfTestTimer _ _ => none
  | .coreRetire _ _ _ => none
  | .fifoLevelHit _ _ _ => none
  | .schedStats _ q => some q
  | .selfTest _ q => some q
  | .unitQuiesce _ q => some q
  | .unitQuiesceDrained _ => none
  | .unitQuiesceTimeout _ => none
  | .unitReset _ q => some q
  | .unitResume _ q => some q
  | .fwStage _ q => some q
  | .fwVerify _ q => some q
  | .fwActivate _ q => some q
  | .fwActivationDrained _ => none
  | .fwInfo _ q => some q
  | .spareStatus _ q => some q
  | .patinaRead _ q => some q
  | .powerUp _ => none
  | .resetNAssert _ => none
  | .resetNRelease _ _ => none
  | .bootComplete _ => none
  | .lockWaitTimeout _ => none
  | .pfwNFall _ => none
  | .pfwNReturn _ => none
  | .supplyOutOfTolerance _ => none
  | .sramScrubPass _ _ _ => none
  | .dramPageRetire _ _ _ => none
  | .mramBlockRetire _ _ => none
  | .marginMonitor _ _ => none
  | .patinaSave _ => none
  | .samplingInstant _ _ => none
  | .ppsOutWidthEnd _ => none
  | .irqHoldoffExpiry _ _ => none
  | .fifoLevelRelease _ _ _ => none
  | .selfTestDone _ _ _ => none
  | .consolidationEraseDone _ => none
  | .dinPulseEdge _ _ _ => none
  | .pePerstNRelease _ => none
  | .operatingSecond _ _ => none

/-- A well-formed command that carries a request carries one whose SESSION, payload and tag have the sizes of R31. -/
def Laws.Valid.Statement (i : Instr) : Prop :=
  i.wf = true → ∀ q, i.request = some q →
    q.session < 256 ∧ q.payload.length ≤ 16379 ∧ q.authTag.length = (if q.auth then 16 else 0)

/-- What the well-formedness of a request says of its sizes. -/
theorem Req.wf_sizes {q : Req} (h : q.wf = true) :
    q.session < 256 ∧ q.payload.length ≤ 16379 ∧ q.authTag.length = (if q.auth then 16 else 0) := by
  simp only [Req.wf, Bool.and_eq_true, decide_eq_true_eq] at h
  refine ⟨h.1.1.1.2, h.1.1.2, ?_⟩
  split <;> simp_all

/-- A command that carries no request says nothing. -/
theorem Laws.Valid.of_none {i : Instr} (h : i.request = none) : Laws.Valid.Statement i := by
  intro _ q hq; rw [h] at hq; cases hq

/-- A command whose well-formedness is that of its request. -/
theorem Laws.Valid.of_some {i : Instr} {q : Req} (h : i.request = some q) (hw : i.wf = q.wf) : Laws.Valid.Statement i := by
  intro w q' hq; rw [h] at hq; cases hq; exact Req.wf_sizes (hw ▸ w)

theorem Laws.Valid.nop (dt : Nat) (q : Req) : Laws.Valid.Statement (.nop dt q) := Laws.Valid.of_some rfl rfl
theorem Laws.Valid.identify (dt : Nat) (q : Req) : Laws.Valid.Statement (.identify dt q) := Laws.Valid.of_some rfl rfl
theorem Laws.Valid.getState (dt : Nat) (q : Req) : Laws.Valid.Statement (.getState dt q) := Laws.Valid.of_some rfl rfl
theorem Laws.Valid.setState (dt : Nat) (q : Req) : Laws.Valid.Statement (.setState dt q) := Laws.Valid.of_some rfl rfl
theorem Laws.Valid.openSessionPhase1 (dt : Nat) (q : Req) : Laws.Valid.Statement (.openSessionPhase1 dt q) := Laws.Valid.of_some rfl rfl
theorem Laws.Valid.openSessionPhase2 (dt : Nat) (q : Req) : Laws.Valid.Statement (.openSessionPhase2 dt q) := Laws.Valid.of_some rfl rfl
theorem Laws.Valid.sessionPhase2Timeout (dt : Nat) (session : Nat) : Laws.Valid.Statement (.sessionPhase2Timeout dt session) := Laws.Valid.of_none rfl
theorem Laws.Valid.closeSession (dt : Nat) (q : Req) : Laws.Valid.Statement (.closeSession dt q) := Laws.Valid.of_some rfl rfl
theorem Laws.Valid.sessionIdleTimeout (dt : Nat) (session : Nat) : Laws.Valid.Statement (.sessionIdleTimeout dt session) := Laws.Valid.of_none rfl
theorem Laws.Valid.echoTime (dt : Nat) (q : Req) : Laws.Valid.Statement (.echoTime dt q) := Laws.Valid.of_some rfl rfl
theorem Laws.Valid.readParam (dt : Nat) (q : Req) : Laws.Valid.Statement (.readParam dt q) := Laws.Valid.of_some rfl rfl
theorem Laws.Valid.writeParam (dt : Nat) (q : Req) : Laws.Valid.Statement (.writeParam dt q) := Laws.Valid.of_some rfl rfl
theorem Laws.Valid.writeLive (dt : Nat) (q : Req) : Laws.Valid.Statement (.writeLive dt q) := Laws.Valid.of_some rfl rfl
theorem Laws.Valid.readBatch (dt : Nat) (q : Req) : Laws.Valid.Statement (.readBatch dt q) := Laws.Valid.of_some rfl rfl
theorem Laws.Valid.writeBatch (dt : Nat) (q : Req) : Laws.Valid.Statement (.writeBatch dt q) := Laws.Valid.of_some rfl rfl
theorem Laws.Valid.commitMaquette (dt : Nat) (q : Req) : Laws.Valid.Statement (.commitMaquette dt q) := Laws.Valid.of_some rfl rfl
theorem Laws.Valid.commitCheckDone (dt : Nat) : Laws.Valid.Statement (.commitCheckDone dt) := Laws.Valid.of_none rfl
theorem Laws.Valid.commitFlashStored (dt : Nat) : Laws.Valid.Statement (.commitFlashStored dt) := Laws.Valid.of_none rfl
theorem Laws.Valid.commitBoundary (dt : Nat) : Laws.Valid.Statement (.commitBoundary dt) := Laws.Valid.of_none rfl
theorem Laws.Valid.discardMaquette (dt : Nat) (q : Req) : Laws.Valid.Statement (.discardMaquette dt q) := Laws.Valid.of_some rfl rfl
theorem Laws.Valid.diffMaquette (dt : Nat) (q : Req) : Laws.Valid.Statement (.diffMaquette dt q) := Laws.Valid.of_some rfl rfl
theorem Laws.Valid.readConflicts (dt : Nat) (q : Req) : Laws.Valid.Statement (.readConflicts dt q) := Laws.Valid.of_some rfl rfl
theorem Laws.Valid.configConsolidationStart (dt : Nat) : Laws.Valid.Statement (.configConsolidationStart dt) := Laws.Valid.of_none rfl
theorem Laws.Valid.configConsolidationDone (dt : Nat) : Laws.Valid.Statement (.configConsolidationDone dt) := Laws.Valid.of_none rfl
theorem Laws.Valid.readCounters (dt : Nat) (q : Req) : Laws.Valid.Statement (.readCounters dt q) := Laws.Valid.of_some rfl rfl
theorem Laws.Valid.peekCounters (dt : Nat) (q : Req) : Laws.Valid.Statement (.peekCounters dt q) := Laws.Valid.of_some rfl rfl
theorem Laws.Valid.readStatusBlock (dt : Nat) (q : Req) : Laws.Valid.Statement (.readStatusBlock dt q) := Laws.Valid.of_some rfl rfl
theorem Laws.Valid.packetBadFraming (dt : Nat) (carriage : Carriage) (bufLen : Nat) (bytes : List Byte) : Laws.Valid.Statement (.packetBadFraming dt carriage bufLen bytes) := Laws.Valid.of_none rfl
theorem Laws.Valid.uartFrameBad (dt : Nat) (frame : List Byte) : Laws.Valid.Statement (.uartFrameBad dt frame) := Laws.Valid.of_none rfl
theorem Laws.Valid.tcpConnectionRequest (dt : Nat) (port tcpPort : Nat) (peer : Peer) : Laws.Valid.Statement (.tcpConnectionRequest dt port tcpPort peer) := Laws.Valid.of_none rfl
theorem Laws.Valid.tcpConnectionIdleClose (dt : Nat) (conn : Nat) : Laws.Valid.Statement (.tcpConnectionIdleClose dt conn) := Laws.Valid.of_none rfl
theorem Laws.Valid.replyWaitTimeout (dt : Nat) (ring : Nat) : Laws.Valid.Statement (.replyWaitTimeout dt ring) := Laws.Valid.of_none rfl
theorem Laws.Valid.doorbellWrite (dt : Nat) (ring : Nat) (index : Nat) (data : RingData) : Laws.Valid.Statement (.doorbellWrite dt ring index data) := Laws.Valid.of_none rfl
theorem Laws.Valid.ringCtlWrite (dt : Nat) (ring : Nat) (value : Word) : Laws.Valid.Statement (.ringCtlWrite dt ring value) := Laws.Valid.of_none rfl
theorem Laws.Valid.bar0RegisterWrite (dt : Nat) (offset : Nat) (value : Word) : Laws.Valid.Statement (.bar0RegisterWrite dt offset value) := Laws.Valid.of_none rfl
theorem Laws.Valid.liveWindowLowRead (dt : Nat) (requester : Nat) (read : HostRead) : Laws.Valid.Statement (.liveWindowLowRead dt requester read) := Laws.Valid.of_none rfl
theorem Laws.Valid.liveWindowHighRead (dt : Nat) (requester : Nat) (offset : Nat) : Laws.Valid.Statement (.liveWindowHighRead dt requester offset) := Laws.Valid.of_none rfl
theorem Laws.Valid.liveWindowWrite (dt : Nat) (offset : Nat) (value : DWord) : Laws.Valid.Statement (.liveWindowWrite dt offset value) := Laws.Valid.of_none rfl
theorem Laws.Valid.pePerstNAssert (dt : Nat) : Laws.Valid.Statement (.pePerstNAssert dt) := Laws.Valid.of_none rfl
theorem Laws.Valid.pcieL1ExitWake (dt : Nat) : Laws.Valid.Statement (.pcieL1ExitWake dt) := Laws.Valid.of_none rfl
theorem Laws.Valid.frameReceived (dt : Nat) (port : Nat) (frame : RxFrame) : Laws.Valid.Statement (.frameReceived dt port frame) := Laws.Valid.of_none rfl
theorem Laws.Valid.rxFrameSteer (dt : Nat) (port : Nat) : Laws.Valid.Statement (.rxFrameSteer dt port) := Laws.Valid.of_none rfl
theorem Laws.Valid.fragmentReceived (dt : Nat) (frag : Fragment) : Laws.Valid.Statement (.fragmentReceived dt frag) := Laws.Valid.of_none rfl
theorem Laws.Valid.reassemblyTimeout (dt : Nat) : Laws.Valid.Statement (.reassemblyTimeout dt) := Laws.Valid.of_none rfl
theorem Laws.Valid.phyStatusPoll (dt : Nat) (port : Nat) (status : PhyStatus) : Laws.Valid.Statement (.phyStatusPoll dt port status) := Laws.Valid.of_none rfl
theorem Laws.Valid.linkDown (dt : Nat) (port : Nat) : Laws.Valid.Statement (.linkDown dt port) := Laws.Valid.of_none rfl
theorem Laws.Valid.linkUp (dt : Nat) (port : Nat) (status : PhyStatus) : Laws.Valid.Statement (.linkUp dt port status) := Laws.Valid.of_none rfl
theorem Laws.Valid.txSend (dt : Nat) (ring : Nat) : Laws.Valid.Statement (.txSend dt ring) := Laws.Valid.of_none rfl
theorem Laws.Valid.txFrame (dt : Nat) (port : Nat) : Laws.Valid.Statement (.txFrame dt port) := Laws.Valid.of_none rfl
theorem Laws.Valid.downshiftWindow (dt : Nat) (port : Nat) (rxBits txBits : Nat) : Laws.Valid.Statement (.downshiftWindow dt port rxBits txBits) := Laws.Valid.of_none rfl
theorem Laws.Valid.downshiftLinkTimeout (dt : Nat) (port : Nat) : Laws.Valid.Statement (.downshiftLinkTimeout dt port) := Laws.Valid.of_none rfl
theorem Laws.Valid.wakeFrame (dt : Nat) (port : Nat) (bytes : List Byte) : Laws.Valid.Statement (.wakeFrame dt port bytes) := Laws.Valid.of_none rfl
theorem Laws.Valid.ptpAnnounceReceived (dt : Nat) (port : Nat) (msg : List Byte) : Laws.Valid.Statement (.ptpAnnounceReceived dt port msg) := Laws.Valid.of_none rfl
theorem Laws.Valid.ptpSyncReceived (dt : Nat) (port : Nat) (msg : List Byte) (heard : PtpHeard) : Laws.Valid.Statement (.ptpSyncReceived dt port msg heard) := Laws.Valid.of_none rfl
theorem Laws.Valid.ptpPdelayReqReceived (dt : Nat) (rx : PtpRx) : Laws.Valid.Statement (.ptpPdelayReqReceived dt rx) := Laws.Valid.of_none rfl
theorem Laws.Valid.ptpAnnounceInterval (dt : Nat) : Laws.Valid.Statement (.ptpAnnounceInterval dt) := Laws.Valid.of_none rfl
theorem Laws.Valid.ptpAnnounceTimeout (dt : Nat) (port : Nat) (sync : Bool) : Laws.Valid.Statement (.ptpAnnounceTimeout dt port sync) := Laws.Valid.of_none rfl
theorem Laws.Valid.irigFrameReceived (dt : Nat) (f : IrigFrame) : Laws.Valid.Statement (.irigFrameReceived dt f) := Laws.Valid.of_none rfl
theorem Laws.Valid.irigFrameMissing (dt : Nat) : Laws.Valid.Statement (.irigFrameMissing dt) := Laws.Valid.of_none rfl
theorem Laws.Valid.ppsInEdge (dt : Nat) (stamp : Nat) : Laws.Valid.Statement (.ppsInEdge dt stamp) := Laws.Valid.of_none rfl
theorem Laws.Valid.ppsInMissing (dt : Nat) : Laws.Valid.Statement (.ppsInMissing dt) := Laws.Valid.of_none rfl
theorem Laws.Valid.referenceQualified (dt : Nat) (kind : Nat) : Laws.Valid.Statement (.referenceQualified dt kind) := Laws.Valid.of_none rfl
theorem Laws.Valid.referenceDisqualified (dt : Nat) (kind : Nat) : Laws.Valid.Statement (.referenceDisqualified dt kind) := Laws.Valid.of_none rfl
theorem Laws.Valid.referenceRevert (dt : Nat) : Laws.Valid.Statement (.referenceRevert dt) := Laws.Valid.of_none rfl
theorem Laws.Valid.tqChange (dt : Nat) : Laws.Valid.Statement (.tqChange dt) := Laws.Valid.of_none rfl
theorem Laws.Valid.timeQualityHoldEnd (dt : Nat) : Laws.Valid.Statement (.timeQualityHoldEnd dt) := Laws.Valid.of_none rfl
theorem Laws.Valid.ppsOutSecond (dt : Nat) : Laws.Valid.Statement (.ppsOutSecond dt) := Laws.Valid.of_none rfl
theorem Laws.Valid.ref10mLoss (dt : Nat) : Laws.Valid.Statement (.ref10mLoss dt) := Laws.Valid.of_none rfl
theorem Laws.Valid.ref10mRestore (dt : Nat) : Laws.Valid.Statement (.ref10mRestore dt) := Laws.Valid.of_none rfl
theorem Laws.Valid.leapSecondApply (dt : Nat) : Laws.Valid.Statement (.leapSecondApply dt) := Laws.Valid.of_none rfl
theorem Laws.Valid.plinthTimeSet (dt : Nat) : Laws.Valid.Statement (.plinthTimeSet dt) := Laws.Valid.of_none rfl
theorem Laws.Valid.ingressFrame (dt : Nat) (port : Nat) (arrival : Nat) (frame : IngFrame) : Laws.Valid.Statement (.ingressFrame dt port arrival frame) := Laws.Valid.of_none rfl
theorem Laws.Valid.c37CfgReceived (dt : Nat) (rx : C37Rx) : Laws.Valid.Statement (.c37CfgReceived dt rx) := Laws.Valid.of_none rfl
theorem Laws.Valid.cfgRetryTimer (dt : Nat) (src : Nat) : Laws.Valid.Statement (.cfgRetryTimer dt src) := Laws.Valid.of_none rfl
theorem Laws.Valid.c37ReconnectTimer (dt : Nat) (src : Nat) (connected : Bool) : Laws.Valid.Statement (.c37ReconnectTimer dt src connected) := Laws.Valid.of_none rfl
theorem Laws.Valid.sourceDead (dt : Nat) (src : Nat) : Laws.Valid.Statement (.sourceDead dt src) := Laws.Valid.of_none rfl
theorem Laws.Valid.sourceDefine (dt : Nat) (q : Req) : Laws.Valid.Statement (.sourceDefine dt q) := Laws.Valid.of_some rfl rfl
theorem Laws.Valid.sourceRemove (dt : Nat) (q : Req) : Laws.Valid.Statement (.sourceRemove dt q) := Laws.Valid.of_some rfl rfl
theorem Laws.Valid.sourceQuery (dt : Nat) (q : Req) : Laws.Valid.Statement (.sourceQuery dt q) := Laws.Valid.of_some rfl rfl
theorem Laws.Valid.catalogueRead (dt : Nat) (q : Req) : Laws.Valid.Statement (.catalogueRead dt q) := Laws.Valid.of_some rfl rfl
theorem Laws.Valid.slotOpen (dt : Nat) (pod slot : Nat) : Laws.Valid.Statement (.slotOpen dt pod slot) := Laws.Valid.of_none rfl
theorem Laws.Valid.slotCloseAtNominal (dt : Nat) (pod slot : Nat) : Laws.Valid.Statement (.slotCloseAtNominal dt pod slot) := Laws.Valid.of_none rfl
theorem Laws.Valid.slotDeadlineTick (dt : Nat) (pod slot : Nat) : Laws.Valid.Statement (.slotDeadlineTick dt pod slot) := Laws.Valid.of_none rfl
theorem Laws.Valid.revBatchExpiry (dt : Nat) (pod slot : Nat) : Laws.Valid.Statement (.revBatchExpiry dt pod slot) := Laws.Valid.of_none rfl
theorem Laws.Valid.revHorizonExpiry (dt : Nat) (pod slot : Nat) : Laws.Valid.Statement (.revHorizonExpiry dt pod slot) := Laws.Valid.of_none rfl
theorem Laws.Valid.slotRelease (dt : Nat) (pod slot : Nat) : Laws.Valid.Statement (.slotRelease dt pod slot) := Laws.Valid.of_none rfl
theorem Laws.Valid.deepWaitEditionReady (dt : Nat) (pod slot : Nat) : Laws.Valid.Statement (.deepWaitEditionReady dt pod slot) := Laws.Valid.of_none rfl
theorem Laws.Valid.oafLayoutRepeat (dt : Nat) (pod : Nat) : Laws.Valid.Statement (.oafLayoutRepeat dt pod) := Laws.Valid.of_none rfl
theorem Laws.Valid.c37OutputCommand (dt : Nat) (dest : Nat) (peer : Peer) (command : Nat) : Laws.Valid.Statement (.c37OutputCommand dt dest peer command) := Laws.Valid.of_none rfl
theorem Laws.Valid.podReadSlot (dt : Nat) (q : Req) : Laws.Valid.Statement (.podReadSlot dt q) := Laws.Valid.of_some rfl rfl
theorem Laws.Valid.podSubscribe (dt : Nat) (q : Req) : Laws.Valid.Statement (.podSubscribe dt q) := Laws.Valid.of_some rfl rfl
theorem Laws.Valid.fdEvaluate (dt : Nat) (det slot : Nat) : Laws.Valid.Statement (.fdEvaluate dt det slot) := Laws.Valid.of_none rfl
theorem Laws.Valid.mtSlotRead (dt : Nat) (tracker : Nat) : Laws.Valid.Statement (.mtSlotRead dt tracker) := Laws.Valid.of_none rfl
theorem Laws.Valid.mtExtractionStart (dt : Nat) (tracker : Nat) : Laws.Valid.Statement (.mtExtractionStart dt tracker) := Laws.Valid.of_none rfl
theorem Laws.Valid.mtExtractionDone (dt : Nat) (tracker : Nat) : Laws.Valid.Statement (.mtExtractionDone dt tracker) := Laws.Valid.of_none rfl
theorem Laws.Valid.mtSignalRejoin (dt : Nat) (tracker signal : Nat) : Laws.Valid.Statement (.mtSignalRejoin dt tracker signal) := Laws.Valid.of_none rfl
theorem Laws.Valid.armStatusChange (dt : Nat) (branch : Nat) (closed : Bool) (stamp : Nat) : Laws.Valid.Statement (.armStatusChange dt branch closed stamp) := Laws.Valid.of_none rfl
theorem Laws.Valid.dinStatusDebounced (dt : Nat) (land : Nat) (level : Bool) (stamp : Nat) : Laws.Valid.Statement (.dinStatusDebounced dt land level stamp) := Laws.Valid.of_none rfl
theorem Laws.Valid.travelTimeout (dt : Nat) (branch : Nat) : Laws.Valid.Statement (.travelTimeout dt branch) := Laws.Valid.of_none rfl
theorem Laws.Valid.armRecomputeDone (dt : Nat) : Laws.Valid.Statement (.armRecomputeDone dt) := Laws.Valid.of_none rfl
theorem Laws.Valid.armMeasEvaluate (dt : Nat) (net slot : Nat) : Laws.Valid.Statement (.armMeasEvaluate dt net slot) := Laws.Valid.of_none rfl
theorem Laws.Valid.balEvaluate (dt : Nat) (group slot : Nat) : Laws.Valid.Statement (.balEvaluate dt group slot) := Laws.Valid.of_none rfl
theorem Laws.Valid.balRecSlot (dt : Nat) (group slot : Nat) : Laws.Valid.Statement (.balRecSlot dt group slot) := Laws.Valid.of_none rfl
theorem Laws.Valid.balRecIntervalClose (dt : Nat) (group : Nat) : Laws.Valid.Statement (.balRecIntervalClose dt group) := Laws.Valid.of_none rfl
theorem Laws.Valid.cusStep (dt : Nat) (point : Nat) (input : StepInput) : Laws.Valid.Statement (.cusStep dt point input) := Laws.Valid.of_none rfl
theorem Laws.Valid.directionDebounce (dt : Nat) (point : Nat) : Laws.Valid.Statement (.directionDebounce dt point) := Laws.Valid.of_none rfl
theorem Laws.Valid.totalsSave (dt : Nat) : Laws.Valid.Statement (.totalsSave dt) := Laws.Valid.of_none rfl
theorem Laws.Valid.profileBoundary (dt : Nat) (minutes : Nat) : Laws.Valid.Statement (.profileBoundary dt minutes) := Laws.Valid.of_none rfl
theorem Laws.Valid.profileSigned (dt : Nat) (point sequence : Nat) : Laws.Valid.Statement (.profileSigned dt point sequence) := Laws.Valid.of_none rfl
theorem Laws.Valid.cusReadRegisters (dt : Nat) (q : Req) : Laws.Valid.Statement (.cusReadRegisters dt q) := Laws.Valid.of_some rfl rfl
theorem Laws.Valid.cusReadProfile (dt : Nat) (q : Req) : Laws.Valid.Statement (.cusReadProfile dt q) := Laws.Valid.of_some rfl rfl
theorem Laws.Valid.cusAckProfile (dt : Nat) (q : Req) : Laws.Valid.Statement (.cusAckProfile dt q) := Laws.Valid.of_some rfl rfl
theorem Laws.Valid.cusSealSeal (dt : Nat) (q : Req) : Laws.Valid.Statement (.cusSealSeal dt q) := Laws.Valid.of_some rfl rfl
theorem Laws.Valid.cusSealBreak (dt : Nat) (q : Req) : Laws.Valid.Statement (.cusSealBreak dt q) := Laws.Valid.of_some rfl rfl
theorem Laws.Valid.cusSealClearRegisters (dt : Nat) (q : Req) : Laws.Valid.Statement (.cusSealClearRegisters dt q) := Laws.Valid.of_some rfl rfl
theorem Laws.Valid.cusSealedUpdate (dt : Nat) (q : Req) : Laws.Valid.Statement (.cusSealedUpdate dt q) := Laws.Valid.of_some rfl rfl
theorem Laws.Valid.cusReadLegalId (dt : Nat) (q : Req) : Laws.Valid.Statement (.cusReadLegalId dt q) := Laws.Valid.of_some rfl rfl
theorem Laws.Valid.owChop (dt : Nat) (land : Nat) (before chopped after : Int) : Laws.Valid.Statement (.owChop dt land before chopped after) := Laws.Valid.of_none rfl
theorem Laws.Valid.auxDwellStart (dt : Nat) : Laws.Valid.Statement (.auxDwellStart dt) := Laws.Valid.of_none rfl
theorem Laws.Valid.calCycleStart (dt : Nat) (spare : Nat) : Laws.Valid.Statement (.calCycleStart dt spare) := Laws.Valid.of_none rfl
theorem Laws.Valid.calComparisonDone (dt : Nat) (spare : Nat) (usable : Nat) (meanDiff16 maxDiff16 : Int) : Laws.Valid.Statement (.calComparisonDone dt spare usable meanDiff16 maxDiff16) := Laws.Valid.of_none rfl
theorem Laws.Valid.calCalibrationDone (dt : Nat) (slice : Nat) (offset16 : Int) (gainPpm : Word) : Laws.Valid.Statement (.calCalibrationDone dt slice offset16 gainPpm) := Laws.Valid.of_none rfl
theorem Laws.Valid.fltBankSwap (dt : Nat) (channel : Nat) : Laws.Valid.Statement (.fltBankSwap dt channel) := Laws.Valid.of_none rfl
theorem Laws.Valid.localSourceReport (dt : Nat) (src : Nat) (report : Nat) : Laws.Valid.Statement (.localSourceReport dt src report) := Laws.Valid.of_none rfl
theorem Laws.Valid.capRow (dt : Nat) (recorder : Nat) (row : Nat) (full : Bool) : Laws.Valid.Statement (.capRow dt recorder row full) := Laws.Valid.of_none rfl
theorem Laws.Valid.dinTriggerEdge (dt : Nat) (land : Nat) (rising : Bool) (stamp : Nat) : Laws.Valid.Statement (.dinTriggerEdge dt land rising stamp) := Laws.Valid.of_none rfl
theorem Laws.Valid.capAutoTimeout (dt : Nat) (recorder : Nat) : Laws.Valid.Statement (.capAutoTimeout dt recorder) := Laws.Valid.of_none rfl
theorem Laws.Valid.capRearmEnd (dt : Nat) (recorder : Nat) : Laws.Valid.Statement (.capRearmEnd dt recorder) := Laws.Valid.of_none rfl
theorem Laws.Valid.capArm (dt : Nat) (q : Req) : Laws.Valid.Statement (.capArm dt q) := Laws.Valid.of_some rfl rfl
theorem Laws.Valid.capDisarm (dt : Nat) (q : Req) : Laws.Valid.Statement (.capDisarm dt q) := Laws.Valid.of_some rfl rfl
theorem Laws.Valid.capForce (dt : Nat) (q : Req) : Laws.Valid.Statement (.capForce dt q) := Laws.Valid.of_some rfl rfl
theorem Laws.Valid.capRead (dt : Nat) (q : Req) : Laws.Valid.Statement (.capRead dt q) := Laws.Valid.of_some rfl rfl
theorem Laws.Valid.capSetRewind (dt : Nat) (q : Req) : Laws.Valid.Statement (.capSetRewind dt q) := Laws.Valid.of_some rfl rfl
theorem Laws.Valid.capExport (dt : Nat) (q : Req) : Laws.Valid.Statement (.capExport dt q) := Laws.Valid.of_some rfl rfl
theorem Laws.Valid.capRelease (dt : Nat) (q : Req) : Laws.Valid.Statement (.capRelease dt q) := Laws.Valid.of_some rfl rfl
theorem Laws.Valid.lgcScan (dt : Nat) : Laws.Valid.Statement (.lgcScan dt) := Laws.Valid.of_none rfl
theorem Laws.Valid.lgcOutputWrite (dt : Nat) : Laws.Valid.Statement (.lgcOutputWrite dt) := Laws.Valid.of_none rfl
theorem Laws.Valid.gooseRepeat (dt : Nat) (cb : Nat) : Laws.Valid.Statement (.gooseRepeat dt cb) := Laws.Valid.of_none rfl
theorem Laws.Valid.stationControlAck (dt : Nat) (port : Nat) (bytes : List Byte) : Laws.Valid.Statement (.stationControlAck dt port bytes) := Laws.Valid.of_none rfl
theorem Laws.Valid.stationAckTimeout (dt : Nat) (src : Nat) : Laws.Valid.Statement (.stationAckTimeout dt src) := Laws.Valid.of_none rfl
theorem Laws.Valid.stationRefresh (dt : Nat) (src : Nat) : Laws.Valid.Statement (.stationRefresh dt src) := Laws.Valid.of_none rfl
theorem Laws.Valid.lgcLoad (dt : Nat) (q : Req) : Laws.Valid.Statement (.lgcLoad dt q) := Laws.Valid.of_some rfl rfl
theorem Laws.Valid.lgcImageStored (dt : Nat) : Laws.Valid.Statement (.lgcImageStored dt) := Laws.Valid.of_none rfl
theorem Laws.Valid.lgcStart (dt : Nat) (q : Req) : Laws.Valid.Statement (.lgcStart dt q) := Laws.Valid.of_some rfl rfl
theorem Laws.Valid.lgcStop (dt : Nat) (q : Req) : Laws.Valid.Statement (.lgcStop dt q) := Laws.Valid.of_some rfl rfl
theorem Laws.Valid.lgcForce (dt : Nat) (q : Req) : Laws.Valid.Statement (.lgcForce dt q) := Laws.Valid.of_some rfl rfl
theorem Laws.Valid.lgcRelease (dt : Nat) (q : Req) : Laws.Valid.Statement (.lgcRelease dt q) := Laws.Valid.of_some rfl rfl
theorem Laws.Valid.lgcOnlineChange (dt : Nat) (q : Req) : Laws.Valid.Statement (.lgcOnlineChange dt q) := Laws.Valid.of_some rfl rfl
theorem Laws.Valid.lgcReadVars (dt : Nat) (q : Req) : Laws.Valid.Statement (.lgcReadVars dt q) := Laws.Valid.of_some rfl rfl
theorem Laws.Valid.keyUpdateSetAnchor (dt : Nat) (q : Req) : Laws.Valid.Statement (.keyUpdateSetAnchor dt q) := Laws.Valid.of_some rfl rfl
theorem Laws.Valid.keyUpdateRekeyRoot (dt : Nat) (q : Req) : Laws.Valid.Statement (.keyUpdateRekeyRoot dt q) := Laws.Valid.of_some rfl rfl
theorem Laws.Valid.keyUpdateGenerate (dt : Nat) (q : Req) : Laws.Valid.Statement (.keyUpdateGenerate dt q) := Laws.Valid.of_some rfl rfl
theorem Laws.Valid.keyUpdateDerive (dt : Nat) (q : Req) : Laws.Valid.Statement (.keyUpdateDerive dt q) := Laws.Valid.of_some rfl rfl
theorem Laws.Valid.keyUpdateLoadWrapped (dt : Nat) (q : Req) : Laws.Valid.Statement (.keyUpdateLoadWrapped dt q) := Laws.Valid.of_some rfl rfl
theorem Laws.Valid.keyUpdateLoadPublic (dt : Nat) (q : Req) : Laws.Valid.Statement (.keyUpdateLoadPublic dt q) := Laws.Valid.of_some rfl rfl
theorem Laws.Valid.keyInvalidate (dt : Nat) (q : Req) : Laws.Valid.Statement (.keyInvalidate dt q) := Laws.Valid.of_some rfl rfl
theorem Laws.Valid.vaultJournalCommit (dt : Nat) : Laws.Valid.Statement (.vaultJournalCommit dt) := Laws.Valid.of_none rfl
theorem Laws.Valid.keyInfo (dt : Nat) (q : Req) : Laws.Valid.Statement (.keyInfo dt q) := Laws.Valid.of_some rfl rfl
theorem Laws.Valid.keyInfoExport (dt : Nat) (q : Req) : Laws.Valid.Statement (.keyInfoExport dt q) := Laws.Valid.of_some rfl rfl
theorem Laws.Valid.sign (dt : Nat) (q : Req) : Laws.Valid.Statement (.sign dt q) := Laws.Valid.of_some rfl rfl
theorem Laws.Valid.verify (dt : Nat) (q : Req) : Laws.Valid.Statement (.verify dt q) := Laws.Valid.of_some rfl rfl
theorem Laws.Valid.deviceCert (dt : Nat) (q : Req) : Laws.Valid.Statement (.deviceCert dt q) := Laws.Valid.of_some rfl rfl
theorem Laws.Valid.counterRead (dt : Nat) (q : Req) : Laws.Valid.Statement (.counterRead dt q) := Laws.Valid.of_some rfl rfl
theorem Laws.Valid.tamperDetected (dt : Nat) (source : Nat) : Laws.Valid.Statement (.tamperDetected dt source) := Laws.Valid.of_none rfl
theorem Laws.Valid.supplyMeasurement (dt : Nat) (vbatMv vplcMv : Nat) : Laws.Valid.Statement (.supplyMeasurement dt vbatMv vplcMv) := Laws.Valid.of_none rfl
theorem Laws.Valid.batteryInsertion (dt : Nat) : Laws.Valid.Statement (.batteryInsertion dt) := Laws.Valid.of_none rfl
theorem Laws.Valid.logRead (dt : Nat) (q : Req) : Laws.Valid.Statement (.logRead dt q) := Laws.Valid.of_some rfl rfl
theorem Laws.Valid.mlogRead (dt : Nat) (q : Req) : Laws.Valid.Statement (.mlogRead dt q) := Laws.Valid.of_some rfl rfl
theorem Laws.Valid.logFreeze (dt : Nat) (q : Req) : Laws.Valid.Statement (.logFreeze dt q) := Laws.Valid.of_some rfl rfl
theorem Laws.Valid.logThaw (dt : Nat) (q : Req) : Laws.Valid.Statement (.logThaw dt q) := Laws.Valid.of_some rfl rfl
theorem Laws.Valid.logClear (dt : Nat) (q : Req) : Laws.Valid.Statement (.logClear dt q) := Laws.Valid.of_some rfl rfl
theorem Laws.Valid.freezeMaxTimeout (dt : Nat) (metrological : Bool) : Laws.Valid.Statement (.freezeMaxTimeout dt metrological) := Laws.Valid.of_none rfl
theorem Laws.Valid.logFlushTimer (dt : Nat) : Laws.Valid.Statement (.logFlushTimer dt) := Laws.Valid.of_none rfl
theorem Laws.Valid.tokenRefill (dt : Nat) (code : Nat) : Laws.Valid.Statement (.tokenRefill dt code) := Laws.Valid.of_none rfl
theorem Laws.Valid.delayExpiry (dt : Nat) : Laws.Valid.Statement (.delayExpiry dt) := Laws.Valid.of_none rfl
theorem Laws.Valid.coreSelfTestTimer (dt : Nat) (failed : List Nat) : Laws.Valid.Statement (.coreSelfTestTimer dt failed) := Laws.Valid.of_none rfl
theorem Laws.Valid.coreRetire (dt : Nat) (core : Nat) (task : Option (Nat × Nat)) : Laws.Valid.Statement (.coreRetire dt core task) := Laws.Valid.of_none rfl
theorem Laws.Valid.fifoLevelHit (dt : Nat) (fifo : Nat) (words : List FifoWord) : Laws.Valid.Statement (.fifoLevelHit dt fifo words) := Laws.Valid.of_none rfl
theorem Laws.Valid.schedStats (dt : Nat) (q : Req) : Laws.Valid.Statement (.schedStats dt q) := Laws.Valid.of_some rfl rfl
theorem Laws.Valid.selfTest (dt : Nat) (q : Req) : Laws.Valid.Statement (.selfTest dt q) := Laws.Valid.of_some rfl rfl
theorem Laws.Valid.unitQuiesce (dt : Nat) (q : Req) : Laws.Valid.Statement (.unitQuiesce dt q) := Laws.Valid.of_some rfl rfl
theorem Laws.Valid.unitQuiesceDrained (dt : Nat) : Laws.Valid.Statement (.unitQuiesceDrained dt) := Laws.Valid.of_none rfl
theorem Laws.Valid.unitQuiesceTimeout (dt : Nat) : Laws.Valid.Statement (.unitQuiesceTimeout dt) := Laws.Valid.of_none rfl
theorem Laws.Valid.unitReset (dt : Nat) (q : Req) : Laws.Valid.Statement (.unitReset dt q) := Laws.Valid.of_some rfl rfl
theorem Laws.Valid.unitResume (dt : Nat) (q : Req) : Laws.Valid.Statement (.unitResume dt q) := Laws.Valid.of_some rfl rfl
theorem Laws.Valid.fwStage (dt : Nat) (q : Req) : Laws.Valid.Statement (.fwStage dt q) := Laws.Valid.of_some rfl rfl
theorem Laws.Valid.fwVerify (dt : Nat) (q : Req) : Laws.Valid.Statement (.fwVerify dt q) := Laws.Valid.of_some rfl rfl
theorem Laws.Valid.fwActivate (dt : Nat) (q : Req) : Laws.Valid.Statement (.fwActivate dt q) := Laws.Valid.of_some rfl rfl
theorem Laws.Valid.fwActivationDrained (dt : Nat) : Laws.Valid.Statement (.fwActivationDrained dt) := Laws.Valid.of_none rfl
theorem Laws.Valid.fwInfo (dt : Nat) (q : Req) : Laws.Valid.Statement (.fwInfo dt q) := Laws.Valid.of_some rfl rfl
theorem Laws.Valid.spareStatus (dt : Nat) (q : Req) : Laws.Valid.Statement (.spareStatus dt q) := Laws.Valid.of_some rfl rfl
theorem Laws.Valid.patinaRead (dt : Nat) (q : Req) : Laws.Valid.Statement (.patinaRead dt q) := Laws.Valid.of_some rfl rfl
theorem Laws.Valid.powerUp (dt : Nat) : Laws.Valid.Statement (.powerUp dt) := Laws.Valid.of_none rfl
theorem Laws.Valid.resetNAssert (dt : Nat) : Laws.Valid.Statement (.resetNAssert dt) := Laws.Valid.of_none rfl
theorem Laws.Valid.resetNRelease (dt : Nat) (straps : Nat) : Laws.Valid.Statement (.resetNRelease dt straps) := Laws.Valid.of_none rfl
theorem Laws.Valid.bootComplete (dt : Nat) : Laws.Valid.Statement (.bootComplete dt) := Laws.Valid.of_none rfl
theorem Laws.Valid.lockWaitTimeout (dt : Nat) : Laws.Valid.Statement (.lockWaitTimeout dt) := Laws.Valid.of_none rfl
theorem Laws.Valid.pfwNFall (dt : Nat) : Laws.Valid.Statement (.pfwNFall dt) := Laws.Valid.of_none rfl
theorem Laws.Valid.pfwNReturn (dt : Nat) : Laws.Valid.Statement (.pfwNReturn dt) := Laws.Valid.of_none rfl
theorem Laws.Valid.supplyOutOfTolerance (dt : Nat) : Laws.Valid.Statement (.supplyOutOfTolerance dt) := Laws.Valid.of_none rfl
theorem Laws.Valid.sramScrubPass (dt : Nat) (corrected uncorrectable : List Nat) : Laws.Valid.Statement (.sramScrubPass dt corrected uncorrectable) := Laws.Valid.of_none rfl
theorem Laws.Valid.dramPageRetire (dt : Nat) (page : Nat) (uncorrectable : Bool) : Laws.Valid.Statement (.dramPageRetire dt page uncorrectable) := Laws.Valid.of_none rfl
theorem Laws.Valid.mramBlockRetire (dt : Nat) (block : Nat) : Laws.Valid.Statement (.mramBlockRetire dt block) := Laws.Valid.of_none rfl
theorem Laws.Valid.marginMonitor (dt : Nat) (low : Bool) : Laws.Valid.Statement (.marginMonitor dt low) := Laws.Valid.of_none rfl
theorem Laws.Valid.patinaSave (dt : Nat) : Laws.Valid.Statement (.patinaSave dt) := Laws.Valid.of_none rfl
theorem Laws.Valid.samplingInstant (dt : Nat) (codes : List Int) : Laws.Valid.Statement (.samplingInstant dt codes) := Laws.Valid.of_none rfl
theorem Laws.Valid.ppsOutWidthEnd (dt : Nat) : Laws.Valid.Statement (.ppsOutWidthEnd dt) := Laws.Valid.of_none rfl
theorem Laws.Valid.irqHoldoffExpiry (dt : Nat) (vector : Nat) : Laws.Valid.Statement (.irqHoldoffExpiry dt vector) := Laws.Valid.of_none rfl
theorem Laws.Valid.fifoLevelRelease (dt : Nat) (fifo left : Nat) : Laws.Valid.Statement (.fifoLevelRelease dt fifo left) := Laws.Valid.of_none rfl
theorem Laws.Valid.selfTestDone (dt : Nat) (records : List (Nat × Nat × Nat × Nat × Nat)) (faults : List (Nat × Nat)) : Laws.Valid.Statement (.selfTestDone dt records faults) := Laws.Valid.of_none rfl
theorem Laws.Valid.consolidationEraseDone (dt : Nat) : Laws.Valid.Statement (.consolidationEraseDone dt) := Laws.Valid.of_none rfl
theorem Laws.Valid.dinPulseEdge (dt : Nat) (land : Nat) (rising : Bool) : Laws.Valid.Statement (.dinPulseEdge dt land rising) := Laws.Valid.of_none rfl
theorem Laws.Valid.pePerstNRelease (dt : Nat) : Laws.Valid.Statement (.pePerstNRelease dt) := Laws.Valid.of_none rfl
theorem Laws.Valid.operatingSecond (dt : Nat) (tjMilli : Int) : Laws.Valid.Statement (.operatingSecond dt tjMilli) := Laws.Valid.of_none rfl

end Sys2Proof
end

