-- ==== Sys2Proof/Safety.lean ====
section
/-! DEFINITION. What counts as a safe run: every step answers a next state. The block has no command whose effect is a stop,
so a run is never cut short. -/

namespace Sys2Proof

open Sys2Proof.Machine

/-- An outcome that goes on. -/
def goesOn : Out → Bool
  | .next _ => true
  | .fault _ => false
  | .refused _ => false

/-- A run of `k` steps from `s` is never cut short. -/
def SafeFor (k : Nat) (s : State) : Prop := goesOn (Host.Core.run core k s) = true

/-! ### What statements about requests speak of (R38, R39) -/

/-- Nothing lies in a FIFO or a command buffer. -/
abbrev Quiet (s : State) : Prop := s.ctl.fifo = [] ∧ s.ctl.taken = [] ∧ s.ctl.buffers = []

/-- A request of opcode `op` arrives in `s`, none of its words poisoned (R395), and passes steps 4 to 8 of R39 at unit `u`, whose opcode
asks for the role `least` and for at least `need` payload words: it runs in the state `t`, with the role `role`. -/
abbrev Admitted (s : State) (q : Req) (op u least need : Nat) (unitCheck : Bool) (t : State) (role : Nat) : Prop :=
  s.hears q.carriage = true ∧ ((s.release q.carriage).arrive q.carriage op).2 = (false, false) ∧
    ((s.release q.carriage).arrive q.carriage op).1.admission q op u least unitCheck = (t, role, none) ∧ need ≤ q.payload.length

/-- An OK reply with the payload `ws` fits the carriage of the request admitted in `t` (R38). -/
abbrev ReplyFits (t : State) (q : Req) (ws : List Word) : Prop := fits q.carriage (t.sessionKey q).isSome (0, ws) = true

/-- The request admitted in `t` has brought the block to `t'` and is answered with OK and the payload `ws` (R34, R44). -/
def replied (t t' : State) (q : Req) (op u : Nat) (ws : List Word) : State := t'.answer (t.sessionKey q) q op u (0, ws)

/-- The request admitted in `t` is refused with the status `st`, and nothing else happens (R40). -/
def turnedAway (t : State) (q : Req) (op u st id : Nat) : State := t.answer (t.sessionKey q) q op u (st, [detail 0xFFFF id])

end Sys2Proof
end

