-- ==== Sys2Proof/Certificates/Slice0/Obligations.lean ====
section
/-! DEFINITION. The statements about the model, for the provers. `a` is everywhere the state after the command's `dt` has
passed; for a request, `t` is the state in which it runs once it has passed steps 4 to 8 of R39. -/

open Sys2Proof Sys2Proof.Machine

/-! ### The queue, reset, and what every command has in common -/

/-- A step takes the command at the front of the queue and is that command's meaning, with the queue's rest. -/
def Obligations.StepRunsTheFrontCommand : Prop :=
  ∀ (c : Instr) (rest : List Instr) (s : State),
    step { s with pending := c :: rest } = exec c { s with pending := rest }

/-- No command's effect is a stop: every command in every state answers a next state. The model's choice (log 2): on an empty
queue the block idles. -/
def Obligations.EveryStepGoesOn : Prop :=
  (∀ (c : Instr) (s : State), ∃ t, exec c s = .next t) ∧
  (∀ s : State, s.pending = [] → step s = .next s)

/-- R28, R58, R65, R69, R79, R378: right after reset the module is in BOOT, no land conducts, no unit runs, every register of
a ring is 0, every counter 0, nothing is configured, the maquette is empty, the clock is FREE with TQ 15. -/
def Obligations.ResetLeavesTheModuleInBoot : Prop :=
  State.reset.pending = [] ∧ State.reset.pwr.dev = .boot ∧ State.reset.healthy = false ∧
  (∀ k, State.reset.alm k = false) ∧ State.reset.tim.ppsOut = false ∧ (∀ u, State.reset.runs u = false) ∧ (∀ n, State.reset.ring n = Ring.init) ∧
  (∀ id inst, State.reset.ctr id inst = 0) ∧ State.reset.ctl.maquette = [] ∧ State.reset.ctl.commitNo = 0 ∧
  State.reset.ctl.sessions = [] ∧ State.reset.tim.st = 0 ∧ State.reset.tq = 15 ∧ State.reset.timeLocked = false ∧
  (∀ c, (State.reset.bucket c).tokens = 8) ∧ State.reset.out = [] ∧ State.reset.mem.degraded = false ∧
  State.reset.ctl.sessions.wf = true

/-- R29: HEALTHY conducts only while STATE is RUN and every unit runs: a unit that is quiesced, in reset or being updated
releases it until it runs again; DEGRADED alone does not release it; and in RUN with every unit running, outside the
power-fail sequence (R426), it conducts. -/
def Obligations.HealthyConductsOnlyInRunWithEveryUnit : Prop :=
  ∀ (s : State),
    (s.healthy = true → s.pwr.dev = .run ∧ ∀ u, 1 ≤ u → u ≤ 15 → (s.unit u).st = 0) ∧
    (s.pwr.dev = .run → s.pwr.pfw = false → (∀ u, 1 ≤ u → u ≤ 15 → s.runs u = true) → s.healthy = true) ∧
    (∀ d u st, 1 ≤ u → u ≤ 15 → s.healthy = true → ({ s with mem := { s.mem with degraded := d } }).healthy = true ∧
      (st ≠ 0 → ({ s with units := s.units.set u { s.unit u with st := st } }).healthy = false))

/-- What the operations that every unit shares change: a count the counters alone; an output the outputs; a notification and a
reply the control complex's rings, interrupts, counters, connections and FIFO words, the ports' queues and the outputs, and of
the control complex neither the configuration, the sessions, the maquette nor the commit; a parameter the configuration in
force; a record the logs, counters, wear and what its notification sends; a spare the spares besides. Everything else stands.
-/
def Obligations.SharedOperationsChangeOnlyTheirOwn : Prop :=
  ∀ (s : State),
    (∀ id inst n, ∃ c, s.count id inst n = { s with ctl := { s.ctl with counters := c } }) ∧
    (∀ o, s.emit o = { s with out := s.out ++ [o] }) ∧
    (∀ op st u ws, ∃ c o p, s.notify op st u ws = { s with ctl := c, out := o, prt := { s.prt with port := p } } ∧
      c.cfg = s.ctl.cfg ∧ c.sessions = s.ctl.sessions ∧ c.maquette = s.ctl.maquette ∧ c.commit = s.ctl.commit) ∧
    (∀ key q op u x, ∃ c o p, s.answer key q op u x = { s with ctl := c, out := o, prt := { s.prt with port := p } } ∧
      c.cfg = s.ctl.cfg ∧ c.sessions = s.ctl.sessions ∧ c.maquette = s.ctl.maquette ∧ c.commit = s.ctl.commit) ∧
    (∀ id inst ws, ∃ c, s.setPar id inst ws = { s with ctl := { s.ctl with cfg := c } }) ∧
    (∀ code u t par, ∃ c o p e m, s.logEv code u t par =
        { s with ctl := c, out := o, prt := { s.prt with port := p }, evt := e, mem := m } ∧
      c.cfg = s.ctl.cfg ∧ c.sessions = s.ctl.sessions ∧ m.degraded = s.mem.degraded) ∧
    (∀ kind inst left, ∃ c o p e m, s.spareUsed kind inst left =
        { s with ctl := c, out := o, prt := { s.prt with port := p }, evt := e, mem := m } ∧
      m.degraded = (s.mem.degraded || left == 0) ∧ m.used.getD kind 0 = s.mem.used.getD kind 0 + 1)

/-- R461: DEGRADED never clears. -/
def Obligations.DegradedNeverClears : Prop :=
  ∀ (s t : State), s.mem.degraded = true → step s = .next t → t.mem.degraded = true

/-- What manufacture fixed (variant, screening, device ID, silicon revision, MAC base, legal identifier, baseline) no command
changes; what has left the module stays sent; and no command reaches into the queue. -/
def Obligations.IdentityIsFixedAndOutputsStand : Prop :=
  ∀ (c : Instr) (s t : State), exec c s = .next t → t.ident = s.ident ∧ s.out <+: t.out ∧ t.pending = s.pending

/-- R46: at most 32 sessions are open at once: from every state with sessions in order of their numbers and at most 32 of
them, a step leads to such a state. -/
def Obligations.AtMost32SessionsAreOpen : Prop :=
  ∀ (s t : State), s.ctl.sessions.wf = true → s.ctl.sessions.length ≤ 32 → step s = .next t →
    t.ctl.sessions.wf = true ∧ t.ctl.sessions.length ≤ 32

/-! ### Packets, admission, replies, counters (02) -/

/-- R31, R33, R39: a packet written field by field from R31's table passes steps 1 to 3 on its carriage, and its request reads
back with every field as it was, and its opcode. R32: the CRC-32C of the nine bytes "123456789" is 0xE306_9283. -/
def Obligations.PacketReadsBackAsWritten : Prop :=
  (∀ (op : Nat) (q : Req), op < 65536 → q.session < 256 → q.rsv < 32 →
     q.payload.length + 5 + (if q.auth = true then 4 else 0) ≤ 16384 →
     (if q.auth = true then q.authTag.length = 16 else q.authTag = []) →
     packetFault q.carriage (encodePacket op q).length (encodePacket op q) = none ∧
     requestOf q.carriage (encodePacket op q) = (op, q)) ∧
  (crc32c (ascii "123456789") = 0xE3069283#32)

/-- R39 (steps 5, 6 and 8), R43: where nothing lies in a FIFO or a command buffer, a request of SESSION 0 without a tag, with
EPOCH 0 or the unit's, heard on its carriage in SAFE, CONFIG or RUN while its unit runs, is admitted with the role of its
carriage where its opcode asks for no more; and so is a request of an open session with a good tag, a SEQUENCE above the last
and role enough, with the session's role: the session alone changes, its last SEQUENCE and the instant of its last request.
Taking a request off the host link, a UDP port or the UART then changes nothing (R37: a TCP connection keeps the instant). -/
def Obligations.RequestsAreAdmitted : Prop :=
  (∀ (s : State) (q : Req) (op u least need : Nat) (uc : Bool), Quiet s → s.hears q.carriage = true → s.up = true →
     q.session = 0 → q.auth = false → q.epoch = 0 ∨ q.epoch = s.epochOf u → s.runs u = true →
     least ≤ s.openRole q.carriage → need ≤ q.payload.length →
     Admitted s q op u least need uc (s.release q.carriage) (s.openRole q.carriage)) ∧
  (∀ (s : State) (q : Req) (op u least need : Nat) (uc : Bool) (x : Session), Quiet s → s.hears q.carriage = true →
     s.up = true → q.session ≠ 0 → q.epoch = 0 ∨ q.epoch = s.epochOf u → s.runs u = true → need ≤ q.payload.length →
     s.ctl.sessions.get? q.session = some x → x.active = true → least ≤ x.role → q.auth = true →
     q.authTag = authTagOf x.key (tagWords q op) → (∀ l, x.lastSeq = some l → l.toNat < q.seq.toNat) →
     let r := s.release q.carriage
     Admitted s q op u least need uc
       { r with ctl := { r.ctl with
           sessions := s.ctl.sessions.set q.session { x with lastSeq := some q.seq, lastAt := s.now } } } x.role) ∧
  (∀ (s : State) (c : Carriage), Quiet s → (∀ k, c ≠ .tcp k) → s.release c = s)

/-- R39, R40, R43, R45, R66, R395: what a request of any opcode, body and unit that is heard in SAFE, CONFIG or RUN is turned away
with, and what is counted, while nothing lies in a FIFO or a command buffer: an EPOCH that is neither 0 nor the unit's with
STALE_EPOCH; a session that is not open, a wrong tag, or a tag with SESSION 0 with NOT_AUTHORISED and CMD_AUTH_FAIL; a SEQUENCE
not above the last with NOT_AUTHORISED and CMD_REPLAY; a role below the opcode's with NOT_AUTHORISED and CMD_AUTH_FAIL; a unit in
reset, updating or powered down with UNIT_RESET, BUSY or WRONG_STATE. A request of which a word is poisoned is a CRC failure. The
model's choice (log 3): an admitted request whose payload is shorter than its opcode's fixed words is turned away with
VALUE_RANGE. -/
def Obligations.AdmissionRefusesByStep : Prop :=
  (∀ (a : State) (q : Req) (op u least need : Nat) (uc : Bool) (body : Nat → State → State × Option Ans), Quiet a →
     a.hears q.carriage = true → a.up = true →
     let b := a.release q.carriage
     let served := a.serve q op u least need uc body
     let refused := fun (t : State) (st : Nat) => t.answer (t.sessionKey q) q op u (st, [detail 0xFFFF 0])
     (q.epoch ≠ 0 → q.epoch ≠ a.epochOf u → served = refused b 0x010D) ∧
     (q.epoch = 0 ∨ q.epoch = a.epochOf u →
       (q.session = 0 → q.auth = true → served = refused (b.count 0x0C03 0 1) 0x0109) ∧
       (q.session = 0 → q.auth = false → a.openRole q.carriage < least → served = refused (b.count 0x0C03 0 1) 0x0109) ∧
       (q.session ≠ 0 → a.ctl.sessions.get? q.session = none → served = refused (b.count 0x0C03 0 1) 0x0109) ∧
       (∀ x, q.session ≠ 0 → a.ctl.sessions.get? q.session = some x →
         (q.auth = false ∨ q.authTag ≠ authTagOf x.key (tagWords q op) → served = refused (b.count 0x0C03 0 1) 0x0109) ∧
         (∀ l, x.active = true → q.auth = true → q.authTag = authTagOf x.key (tagWords q op) → x.lastSeq = some l →
           q.seq.toNat ≤ l.toNat → served = refused (b.count 0x0C04 0 1) 0x0109)) ∧
       (q.session = 0 → q.auth = false → least ≤ a.openRole q.carriage → uc = true →
         ((a.unit u).st = 2 → served = refused b 0x010C) ∧ ((a.unit u).st = 3 → served = refused b 0x010B) ∧
         ((a.unit u).st = 4 → served = refused b 0x010E)))) ∧
  (∀ (a t : State) (q : Req) (op u least need : Nat) (uc lost : Bool) (body : Nat → State → State × Option Ans),
     a.hears q.carriage = true → (a.release q.carriage).arrive q.carriage op = (t, true, lost) →
     a.serve q op u least need uc body = t.poisonedRequest q op) ∧
  (∀ (a t : State) (q : Req) (op u least need role : Nat) (uc : Bool) (body : Nat → State → State × Option Ans),
     Admitted a q op u least 0 uc t role → q.payload.length < need →
     a.serve q op u least need uc body = turnedAway t q op u 0x0106 0)

/-- R31, R33, R34, R40, R44, R45, R48: an answer to a request is one reply, with bit 15 of OPCODE set, TAG, SESSION and SEQUENCE as
in the request, the EPOCH of the serving unit and a tag where the session has a key; with NOREPLY none, and nothing changes. R42:
while an earlier request of its source waits for its reply at the unit the reply waits behind it; else it leaves, and so does
every reply of a TCP connection. R35 to R37, R70: a reply leaves on the UART as its packet in COBS; from a UDP port and on a TCP
connection as its packet to the peer; on the host link, with the link up, into the reply ring of its command ring: it waits
there where no descriptor is free, and one that passes the buffer is replaced by the six-word reply of status NO_RESOURCE. -/
def Obligations.RepliesGoOutOnce : Prop :=
  (∀ (t : State) (key : Option (List Byte)) (q : Req) (op u : Nat) (x : Ans),
     (q.noreply = true → t.answer key q op u x = t) ∧
     (q.noreply = false → ∃ r : Reply, r.carriage = q.carriage ∧
       r.opcode = op + 0x8000 ∧ r.tag = q.tag ∧ r.session = q.session ∧ r.seq = q.seq ∧ r.status = x.1 ∧ r.payload = x.2 ∧
       r.epoch = t.epochOf u ∧
       r.authTag = (match key with
         | some k => authTagOf k (packetWords (op + 0x8000) q.tag 256 q.session q.seq x.1 (t.epochOf u) x.2 4)
         | none => []) ∧
       ((∀ c, q.carriage.source = some c → t.owes u c = false) → t.answer key q op u x = t.sendReply r) ∧
       (∀ c, q.carriage.source = some c → t.owes u c = true → op < 0x8000 → t.answer key q op u x = { t with ctl := { t.ctl with
         owed := t.ctl.owed ++ [{ unit := u, source := c, op := op, tag := q.tag, seq := q.seq, reply := some r }] } }))) ∧
  (∀ (t : State) (r : Reply), Quiet t →
     (r.carriage = .uart → t.sendReply r = { t with out := t.out ++ [.reply r (cobs r.packet ++ [0])] }) ∧
     (∀ p peer, r.carriage = .udp4 p peer ∨ r.carriage = .udp6 p peer →
       t.sendReply r = t.sendUdp p 4 (t.parN Par.CTL.UDP_PORT 0) peer r.packet (some (.reply r r.packet))) ∧
     (∀ k, r.carriage = .tcp k → t.sendReply r = t.sendTcp k 4 r.packet (some (.reply r r.packet))) ∧
     (∀ ring, r.carriage = .host ring → t.ctl.linkUp = true →
       let n := t.parN Par.CTL.REPLY_RING (ring - 48)
       (t.freeBuf n = none →
         t.sendReply r = t.setRing n { t.ring n with waiting := (t.ring n).waiting ++ [(t.now, r)] }) ∧
       (∀ len, (t.ring n).waiting = [] → t.freeBuf n = some len →
         let sent : Reply := if len < 4 * r.len then { r with status := 0x0117, payload := [detail 0xFFFF 0], authTag := [] } else r
         t.sendReply r = (t.emit (.reply sent sent.packet)).fillBuf n)))

/-! ### Generic commands, sessions, device state, parameters (02, 18) -/

/-- R50, R71: NOP answers nothing; IDENTIFY the device ID, variant and screening, revision and protocol, firmware version and
bank; GET_STATE the state word; ECHO_TIME the two words it got, the instant twice and TQ; READ_STATUS_BLOCK the first 256
bytes of the live window. None of them changes anything. -/
def Obligations.GenericReadsAnswer : Prop :=
  ∀ (s t : State) (dt : Nat) (q : Req) (role : Nat),
    (Admitted (s.advance dt) q 0x0000 0x0C 0 0 true t role → exec (.nop dt q) s = .next (replied t t q 0x0000 0x0C [])) ∧
    (Admitted (s.advance dt) q 0x0001 0x0C 0 0 true t role →
      exec (.identify dt q) s = .next (replied t t q 0x0001 0x0C (words64 t.ident.deviceId.toNat ++
        [BitVec.ofNat 32 (0x46400000 + (if t.ident.variantM then 0x4D00 else 0x4100) + (if t.ident.screenedE then 0x45 else 0)),
         BitVec.ofNat 32 (t.ident.siliconRev.toNat * 65536 + 1), BitVec.ofNat 32 (t.bankOf t.pwr.bank).version,
         BitVec.ofNat 32 t.pwr.bank]))) ∧
    (Admitted (s.advance dt) q 0x0002 0x0C 0 0 true t role →
      exec (.getState dt q) s = .next (replied t t q 0x0002 0x0C [t.stateWord])) ∧
    (Admitted (s.advance dt) q 0x0006 0x0C 0 2 true t role → gtfValid (q.dw 4) = true ∨ q.dw 4 = gtfNone →
      exec (.echoTime dt q) s = .next (replied t t q 0x0006 0x0C
        ([q.w 4, q.w 5] ++ gtfWords t.now ++ gtfWords t.now ++ [BitVec.ofNat 32 t.tq]))) ∧
    (Admitted (s.advance dt) q 0x0202 0x0C 0 0 true t role →
      exec (.readStatusBlock dt q) s = .next (replied t t q 0x0202 0x0C
        ((List.range 32).flatMap (fun k => words64 (t.liveValue (8 * k))))))

/-- R46, R47, R48: phase 1 of OPEN_SESSION with a slot that carries COMMS, fewer than 32 sessions open, takes the lowest free
number and answers it with the module's nonce and the device ID; phase 2 within 10 s with the same slot and role activates the
session, for OWNER where the owner anchor's signature verifies; CLOSE_SESSION ends the packet's own session. R47, R48: in
SAFE, CONFIG or RUN a session not activated within 10 s of phase 1, and an active one idle for CTL.SESSION_IDLE_S, ends;
before that instant the rows change nothing. -/
def Obligations.SessionsOpenCloseAndTimeOut : Prop :=
  (∀ (s t : State) (dt : Nat) (q : Req) (role : Nat),
     (∀ ikm, Admitted (s.advance dt) q 0x0004 0x0C 0 1 true t role → q.bits 4 7 0 = 1 → q.session = 0 → 5 ≤ q.payload.length →
       3 ≤ q.bits 4 31 16 → q.bits 4 31 16 ≤ 127 → 1 ≤ q.bits 4 15 8 → q.bits 4 15 8 ≤ 2 →
       t.commsKey (q.bits 4 31 16) = some ikm → t.ctl.sessions.length < 32 →
       let n := t.freeSession
       let nonce := t.draw.2.take 16
       let x : Session := {
         slot := q.bits 4 31 16, role := q.bits 4 15 8, key := sessionKeyOf ikm t.idBytes (q.bytes 5 16) nonce n
         active := false, hostNonce := q.bytes 5 16, modNonce := nonce, lastSeq := none, lastAt := t.now
         conn := match q.carriage with | .tcp k => some k | _ => none }
       ReplyFits t q (BitVec.ofNat 32 n :: q.carriage.pack nonce ++ words64 t.ident.deviceId.toNat) →
       exec (.openSessionPhase1 dt q) s = .next (replied t
         { t.draw.1 with ctl := { t.ctl with sessions := t.ctl.sessions.set n x } } q 0x0004 0x0C
         (BitVec.ofNat 32 n :: q.carriage.pack nonce ++ words64 t.ident.deviceId.toNat))) ∧
     (∀ x, Admitted (s.advance dt) q 0x0004 0x0C 0 1 true t role → q.bits 4 7 0 = 2 →
       t.ctl.sessions.get? q.session = some x → x.active = false → t.now ≤ x.lastAt + 10 * sec →
       q.bits 4 31 16 = x.slot → q.bits 4 15 8 = x.role →
       (x.role = 2 → 17 ≤ q.payload.length ∧ (t.keySlot 2).usable = true ∧
         p256Verify (t.keySlot 2).pub (sha256 (t.ownerProof x)) (q.bytes 5 64) = true) →
       exec (.openSessionPhase2 dt q) s = .next (replied t
         { t with ctl := { t.ctl with sessions := t.ctl.sessions.set q.session { x with active := true, lastAt := t.now } } }
         q 0x0004 0x0C [])) ∧
     (Admitted (s.advance dt) q 0x0005 0x0C 1 0 true t role →
       exec (.closeSession dt q) s = .next (replied t
         { t with ctl := { t.ctl with sessions := t.ctl.sessions.erase q.session } } q 0x0005 0x0C []))) ∧
  (∀ (s a : State) (dt n : Nat) (x : Session), s.advance dt = a → a.up = true → a.ctl.sessions.get? n = some x →
     let ended := { a with ctl := { a.ctl with sessions := a.ctl.sessions.erase n } }
     (x.active = false → x.lastAt + 10 * sec ≤ a.now → exec (.sessionPhase2Timeout dt n) s = .next ended) ∧
     (x.active = false → a.now < x.lastAt + 10 * sec → exec (.sessionPhase2Timeout dt n) s = .next a) ∧
     (x.active = true → x.lastAt + sec * a.parN Par.CTL.SESSION_IDLE_S 0 ≤ a.now →
       exec (.sessionIdleTimeout dt n) s = .next ended) ∧
     (x.active = true → a.now < x.lastAt + sec * a.parN Par.CTL.SESSION_IDLE_S 0 →
       exec (.sessionIdleTimeout dt n) s = .next a))

/-- R50, R414, R415, R416, R418: SET_STATE takes CONFIG to RUN and RUN to CONFIG and answers OK after it; it takes SAFE, CONFIG or
RUN to SLEEP after an OK_PENDING, or to HALT after an OK, where no session and no maquette is left; every other target answers
WRONG_STATE, and nothing else happens. -/
def Obligations.SetStateMakesTheTransitionsOfR414 : Prop :=
  ∀ (s t : State) (dt : Nat) (q : Req) (role : Nat), Admitted (s.advance dt) q 0x0003 0x0C 1 1 true t role →
    let target := q.bits 4 3 0
    let answered := fun (st : Nat) => t.answer (t.sessionKey q) q 0x0003 0x0C (st, [])
    (t.pwr.dev = .config → target = 4 →
      exec (.setState dt q) s = .next (replied t t.enterRun q 0x0003 0x0C []) ∧ t.enterRun.pwr.dev = .run) ∧
    (t.pwr.dev = .run → target = 3 → ∃ u, exec (.setState dt q) s = .next (replied t u q 0x0003 0x0C []) ∧ u.pwr.dev = .config) ∧
    (t.up = true → target = 5 →
      exec (.setState dt q) s = .next (answered 1).enterSleep ∧ (answered 1).enterSleep.pwr.dev = .sleep ∧
      (answered 1).enterSleep.ctl.sessions = [] ∧ (answered 1).enterSleep.ctl.maquette = []) ∧
    (t.up = true → target = 6 →
      exec (.setState dt q) s = .next (answered 0).enterHalt ∧ (answered 0).enterHalt.pwr.dev = .halt ∧
      (answered 0).enterHalt.ctl.sessions = [] ∧ (answered 0).enterHalt.ctl.maquette = []) ∧
    (t.up = true → (t.pwr.dev = .config ∧ target ≠ 4 ∨ t.pwr.dev = .run ∧ target ≠ 3 ∨ t.pwr.dev = .safe) → target ≠ 5 →
      target ≠ 6 → exec (.setState dt q) s = .next (turnedAway t q 0x0003 0x0C 0x010E 0))

/-- R50, R51, R55: READ_PARAM of a parameter the role may read answers the echo, the header, the type word and the value,
which is that of the maquette where SELECT is set and it holds one; an ID or an instance that does not exist is named in
DETAIL. R52, R66: READ_BATCH answers each of its items on its own, in their order, an item that fails with its status in the
header; an item refused for want of the role counts in CMD_AUTH_FAIL. -/
def Obligations.ParametersAreRead : Prop :=
  (∀ (s t : State) (dt : Nat) (q : Req) (role : Nat),
     Admitted (s.advance dt) q 0x0100 (idUnit (q.bits 4 15 0)) 0 2 true t role →
     let u := idUnit (q.bits 4 15 0)
     (∀ d, parDesc (q.bits 4 15 0) = some d → t.readFault role (q.bits 4 15 0) (q.bits 4 31 16) = none →
       let v := t.selectValue d (q.bits 4 31 16) ((q.w 5).getLsbD 0)
       ReplyFits t q ([q.w 4, BitVec.ofNat 32 v.length, t.typeWord (q.bits 4 15 0)] ++ v) →
       exec (.readParam dt q) s =
         .next (replied t t q 0x0100 u ([q.w 4, BitVec.ofNat 32 v.length, t.typeWord (q.bits 4 15 0)] ++ v))) ∧
     (parDesc (q.bits 4 15 0) = none → exec (.readParam dt q) s = .next (turnedAway t q 0x0100 u 0x0104 (q.bits 4 15 0))) ∧
     (∀ d, parDesc (q.bits 4 15 0) = some d → 1 ≤ role → d.hasInst (q.bits 4 31 16) = false →
       exec (.readParam dt q) s = .next (turnedAway t q 0x0100 u 0x0105 (q.bits 4 15 0)))) ∧
  (∀ (s t : State) (dt : Nat) (q : Req) (role : Nat), Admitted (s.advance dt) q 0x0103 0x0C 0 1 true t role →
     let n := q.bits 4 15 0
     let items := (q.rest 5).take n
     let ws := BitVec.ofNat 32 n :: items.flatMap (fun w => t.readItem role w ((q.w 4).getLsbD 16))
     let refused := items.filter (fun w => t.readFault role (bitsOf w.toNat 15 0) (bitsOf w.toNat 31 16) == some 0x0109)
     1 ≤ n → n ≤ 4096 → n ≤ (q.rest 5).length → ReplyFits t q ws →
     exec (.readBatch dt q) s = .next (replied t (t.count 0x0C03 0 refused.length) q 0x0103 0x0C ws))

/-- R8, R50, R58: WRITE_PARAM of one item without fault, with no commit pending and the maquette not full, puts its value, without
its reserved bits, and the writing session under its key into the maquette, and nothing in force changes; R64: with a commit
pending it answers BUSY. R50, R54 to R57: WRITE_LIVE of a class L parameter within its range and not one with a rule of its own
(TIM.UTC_OFFSET, the filter banks) sets the value in force at once, and nothing else; of a class M parameter it answers
READ_ONLY, of a value out of range VALUE_RANGE. R52, R58: WRITE_BATCH into the maquette writes all of its items where none has a
fault, and where the item of index `i` is the first with a fault answers that fault with the index and the ID in DETAIL and
writes none. -/
def Obligations.ParametersAreWritten : Prop :=
  (∀ (s t : State) (dt : Nat) (q : Req) (role : Nat) (x : WItem),
     let u := idUnit (q.bits 4 15 0)
     (Admitted (s.advance dt) q 0x0101 u 1 2 true t role → Req.item q = some x → t.ctl.commit = none →
       t.writeFault false x.kept = none →
       let maq := t.ctl.maquette.set x.key { session := q.session, val := .value x.kept.value }
       maq.length ≤ 524288 →
       exec (.writeParam dt q) s = .next (replied t { t with ctl := { t.ctl with maquette := maq } } q 0x0101 u [])) ∧
     (Admitted (s.advance dt) q 0x0101 u 1 0 true t role → t.ctl.commit ≠ none →
       exec (.writeParam dt q) s = .next (turnedAway t q 0x0101 u 0x010B 0))) ∧
  (∀ (s t : State) (dt : Nat) (q : Req) (role : Nat) (x : WItem) (d : PDesc),
     Admitted (s.advance dt) q 0x0102 (idUnit (q.bits 4 15 0)) 1 2 true t role → Req.item q = some x → parDesc x.id = some d →
     d.hasInst x.inst = true →
     let u := idUnit (q.bits 4 15 0)
     let v := x.kept.value
     (d.clsOn t.ident.variantM = .L → v.length = d.words → d.range.ok x.id v = true → x.id ≠ Par.TIM.UTC_OFFSET →
       x.id / 256 ≠ 6 → exec (.writeLive dt q) s = .next (replied t (t.setPar x.id x.inst v) q 0x0102 u [])) ∧
     (d.clsOn t.ident.variantM = .M → v.length = d.words → d.range.ok x.id v = true →
       exec (.writeLive dt q) s = .next (turnedAway t q 0x0102 u 0x0107 x.id)) ∧
     (v.length ≠ d.words ∨ d.range.ok x.id v = false →
       exec (.writeLive dt q) s = .next (turnedAway t q 0x0102 u 0x0106 x.id))) ∧
  (∀ (s t : State) (dt : Nat) (q : Req) (role : Nat) (l : List WItem),
     Admitted (s.advance dt) q 0x0104 0x0C 1 1 true t role → t.ctl.commit = none → (q.w 4).getLsbD 16 = false →
     1 ≤ q.bits 4 15 0 → q.bits 4 15 0 ≤ 4096 → itemsOf' (q.bits 4 15 0) (q.rest 5) = some l →
     (let maq := l.foldl (fun (m : AMap MaqEntry) x => m.set x.key { session := q.session, val := .value x.kept.value }) t.ctl.maquette
      (∀ x ∈ l, t.writeFault false x.kept = none) → maq.length ≤ 524288 →
      exec (.writeBatch dt q) s = .next (replied t { t with ctl := { t.ctl with maquette := maq } } q 0x0104 0x0C [])) ∧
     (∀ pre x post f, l = pre ++ x :: post → (∀ y ∈ pre, t.writeFault false y.kept = none) → t.writeFault false x.kept = some f →
      exec (.writeBatch dt q) s =
        .next (t.answer (t.sessionKey q) q 0x0104 0x0C (f, [detail pre.length x.id]))))

/-- R65: counters are 64 bits wide and saturate; counting changes that counter alone. R65, R66: READ_COUNTERS and
PEEK_COUNTERS of counters that exist answer how many values follow and each value as it stands, low word first, per instance in
ascending order and in it per counter in ascending ID; PEEK changes nothing, READ clears what it sampled and no other counter.
An ID beyond those defined answers BAD_PARAM_ID, an instance beyond them BAD_INSTANCE, with the ID in DETAIL, and nothing is
read or cleared. -/
def Obligations.CountersSaturateAreReadAndCleared : Prop :=
  (∀ (s : State) (id inst n k j : Nat), inst < 65536 → j < 65536 → s.ctl.counters.wf = true →
     (s.count id inst n).ctr id inst = min (s.ctr id inst + n) (2 ^ 64 - 1) ∧
     ((k, j) ≠ (id, inst) → (s.count id inst n).ctr k j = s.ctr k j) ∧
     s.count id inst n = { s with ctl := { s.ctl with counters := (s.count id inst n).ctl.counters } }) ∧
  (∀ (s t : State) (dt : Nat) (q : Req) (role : Nat),
     let id := q.bits 4 15 0
     let inst := q.bits 4 31 16
     let nId := q.bits 5 15 0
     let nInst := q.bits 5 31 16
     let keys := ((List.range nInst).map (inst + ·)).flatMap (fun i => ((List.range nId).map (id + ·)).map (fun k => (k, i)))
     let ws := BitVec.ofNat 32 (nId * nInst) :: keys.flatMap (fun k => words64 (t.ctr k.1 k.2))
     1 ≤ nId → 1 ≤ nInst →
     ((∀ k ∈ keys, ∃ top, counterTop k.1 = some top ∧ k.2 ≤ top) →
     2 * (nId * nInst) + 6 ≤ q.carriage.maxLength → ReplyFits t q ws →
     (Admitted (s.advance dt) q 0x0201 (idUnit id) 0 2 true t role →
       exec (.peekCounters dt q) s = .next (replied t t q 0x0201 (idUnit id) ws)) ∧
     (Admitted (s.advance dt) q 0x0200 (idUnit id) 0 2 true t role →
       exec (.readCounters dt q) s =
         .next (replied t (keys.foldl (fun (u : State) k => u.setCtr k.1 k.2 0) t) q 0x0200 (idUnit id) ws))) ∧
     (∀ k f, k < nId →
       (f = 0x0104 ∧ counterTop (id + k) = none ∧ (∀ j, j < k → counterTop (id + j) ≠ none) ∨
        f = 0x0105 ∧ (∀ j, j < nId → counterTop (id + j) ≠ none) ∧ (∃ top, counterTop (id + k) = some top ∧ top < inst + nInst - 1) ∧
          (∀ j top, j < k → counterTop (id + j) = some top → inst + nInst - 1 ≤ top)) →
       (Admitted (s.advance dt) q 0x0201 (idUnit id) 0 2 true t role →
         exec (.peekCounters dt q) s =
           .next (t.answer (t.sessionKey q) q 0x0201 (idUnit id) (f, [detail 0xFFFF (id + k)]))) ∧
       (Admitted (s.advance dt) q 0x0200 (idUnit id) 0 2 true t role →
         exec (.readCounters dt q) s =
           .next (t.answer (t.sessionKey q) q 0x0200 (idUnit id) (f, [detail 0xFFFF (id + k)])))))

/-! ### Commits and stored configuration (02) -/

/-- R42, R59, R61, R64: COMMIT_MAQUETTE for the next whole second, for the grid of an enabled pod or for a valid time, with a
maquette that holds something and no commit pending, starts the check, owes the reply until its end, and drops the conflict list
of the check before; with a commit pending it answers BUSY, with an empty maquette NOTHING_STAGED. R59 to R61, R63, R402: when
the check of a commit finds no conflict, its boundary is not too early and the journal has room, the commit takes the next
number, is stored in the journal, and is answered OK_PENDING with the number and the boundary, which for kind 0 is the first
whole second at or after now and CTL.COMMIT_LEAD_MS; where it finds conflicts, the commit is dropped and the conflicts kept for
READ_CONFLICTS. R62, R63, R64, R68: a stored commit at its boundary, with every unit it touches running, comes into force as one
configuration with its number and boundary, its maquette is spent and it is no longer pending; with a unit that does not run it
is dropped and the maquette stays. R62: a commit whose boundary has not come, or that is not stored yet, waits; only time
passes. -/
def Obligations.CommitsAreCheckedStoredAndApplied : Prop :=
  (∀ (s t : State) (dt : Nat) (q : Req) (role : Nat), Admitted (s.advance dt) q 0x0105 0x0C 1 3 true t role →
     let t' := { t with ctl := { t.ctl with conflicts := [] } }
     (t.up = true → t.ctl.commit = none →
       q.bits 4 1 0 = 0 ∨ q.bits 4 1 0 = 1 ∧ q.bits 4 15 8 ≤ 63 ∧ t.podOn (q.bits 4 15 8) = true ∨
         q.bits 4 1 0 = 2 ∧ gtfValid (q.dw 5) = true → t.ctl.maquette ≠ [] →
       exec (.commitMaquette dt q) s = .next ({ t' with ctl := { t'.ctl with commit := some {
         req := q, kind := q.bits 4 1 0, pod := q.bits 4 15 8, at_ := nsOf (q.dw 5), stage := .checking, number := 0, boundary := 0
         toFlash := false } } }.owe q 0x0105 0x0C)) ∧
     (t.ctl.commit ≠ none →
       exec (.commitMaquette dt q) s = .next (t'.answer (t.sessionKey q) q 0x0105 0x0C (0x010B, [detail 0xFFFF 0]))) ∧
     (t.ctl.commit = none → q.bits 4 1 0 = 0 → t.ctl.maquette = [] →
       exec (.commitMaquette dt q) s = .next (t'.answer (t.sessionKey q) q 0x0105 0x0C (0x0120, [detail 0xFFFF 0])))) ∧
  (∀ (s a : State) (dt : Nat) (c : Commit), s.advance dt = a → a.up = true → a.ctl.commit = some c → c.stage = .checking →
     let found := a.conflictsOf (a.withCfg (a.ctl.cfg.takeAll a.ident a.ctl.maquette)) false false
     let n := a.ctl.commitNo + 1
     (∀ b, found = [] → a.boundaryOf c = some b →
       journalBytes a.ctl.maquette + (a.ctl.journal.map (fun r => journalBytes r.entries)).sum ≤ 589824 →
       exec (.commitCheckDone dt) s = .next (({ a with ctl := { a.ctl with
         commitNo := n, commit := some { c with number := n, boundary := b, stage := .stored }
         journal := a.ctl.journal ++ [journalRec n b a.ctl.maquette] } }).answerLater c.req 0x0105 0x0C
           (1, n :: gtfWords b))) ∧
     (c.kind = 0 → journalBytes a.ctl.maquette + (a.ctl.journal.map (fun r => journalBytes r.entries)).sum ≤ 589824 →
       a.boundaryOf c = some (ceilTo sec (a.now + 1000000 * a.parN Par.CTL.COMMIT_LEAD_MS 0))) ∧
     (found ≠ [] → ∃ ws, exec (.commitCheckDone dt) s = .next (({ a with ctl := { a.ctl with
         commit := none, conflicts := found.take 4096 } }).answerLater c.req 0x0105 0x0C (0x010A, ws)))) ∧
  (∀ (s a : State) (dt : Nat) (c : Commit), s.advance dt = a → a.up = true → a.ctl.commit = some c → c.stage = .stored →
     c.boundary ≤ a.now →
     (a.blockingUnit = none → ∃ u, exec (.commitBoundary dt) s = .next u ∧ u.ctl.maquette = [] ∧ u.ctl.commit = none ∧
       u.ctl.cfg = a.configAfter a.ctl.maquette c.number c.boundary) ∧
     (∀ n, a.blockingUnit = some n → ∃ u, exec (.commitBoundary dt) s = .next u ∧ u.ctl.maquette = a.ctl.maquette ∧
       u.ctl.commit = none ∧ u.ctl.cfg = a.ctl.cfg)) ∧
  (∀ (s a : State) (dt : Nat) (c : Commit), s.advance dt = a → a.ctl.commit = some c →
     (a.now < c.boundary ∨ c.stage ≠ .stored → exec (.commitBoundary dt) s = .next a) ∧
     (c.stage ≠ .checking → exec (.commitCheckDone dt) s = .next a))

/-- R64: DISCARD_MAQUETTE with no commit pending empties the maquette and the conflict list; with one stored in the journal
whose boundary is at least CTL.COMMIT_LEAD_MS away it cancels that too, and its record goes; while the check runs it answers BUSY
and keeps the maquette. DIFF_MAQUETTE and READ_CONFLICTS answer the number held and the page asked for, and change nothing. R63:
a commit's flash write ends with the configuration whole in its slot under its CRC and the commit stored; a consolidation that is
due programs the configuration in force, with the applied records of the journal, into the slot not in force; when it is
programmed that slot becomes the base, the records it includes are freed, and the old slot is erased; when that ends the
consolidation is complete, and a commit's flash write that waited for it starts. -/
def Obligations.MaquetteAndStore : Prop :=
  (∀ (s t : State) (dt : Nat) (q : Req) (role : Nat),
     (Admitted (s.advance dt) q 0x0106 0x0C 1 0 true t role → t.ctl.commit = none →
       exec (.discardMaquette dt q) s =
         .next (replied t { t with ctl := { t.ctl with conflicts := [], maquette := [] } } q 0x0106 0x0C [])) ∧
     (∀ c, Admitted (s.advance dt) q 0x0106 0x0C 1 0 true t role → t.ctl.commit = some c → c.stage = .stored → c.toFlash = false →
       t.now + 1000000 * t.parN Par.CTL.COMMIT_LEAD_MS 0 ≤ c.boundary →
       exec (.discardMaquette dt q) s = .next (replied t { t with ctl := { t.ctl with
         conflicts := [], maquette := [], commit := none
         journal := t.ctl.journal.filter (fun r => r.applied || r.number != c.number) } } q 0x0106 0x0C [])) ∧
     (∀ c, Admitted (s.advance dt) q 0x0106 0x0C 1 0 true t role → t.ctl.commit = some c → c.stage = .checking →
       exec (.discardMaquette dt q) s = .next (({ t with ctl := { t.ctl with conflicts := [] } }).answer (t.sessionKey q) q
         0x0106 0x0C (0x010B, [detail 0xFFFF 0]))) ∧
     (Admitted (s.advance dt) q 0x0107 0x0C 1 2 true t role → 1 ≤ q.bits 5 15 0 → q.bits 5 15 0 ≤ 4096 →
       let ws := BitVec.ofNat 32 t.ctl.maquette.length ::
         ((t.ctl.maquette.drop (q.w 4).toNat).take (q.bits 5 15 0)).flatMap diffWords
       ReplyFits t q ws → exec (.diffMaquette dt q) s = .next (replied t t q 0x0107 0x0C ws)) ∧
     (Admitted (s.advance dt) q 0x0108 0x0C 1 2 true t role → 1 ≤ q.bits 5 15 0 → q.bits 5 15 0 ≤ 4092 →
       let ws := BitVec.ofNat 32 t.ctl.conflicts.length ::
         ((t.ctl.conflicts.drop (q.w 4).toNat).take (q.bits 5 15 0)).flatMap Conflict.words
       ReplyFits t q ws → exec (.readConflicts dt q) s = .next (replied t t q 0x0108 0x0C ws))) ∧
  (∀ (s a : State) (dt : Nat), s.advance dt = a →
     let other := 1 - a.ctl.cfgSlot
     let used := (a.ctl.journal.map (fun r => journalBytes r.entries)).sum
     (∀ c x, a.up = true → a.ctl.commit = some c → c.stage = .flash → a.ctl.image = some x →
       exec (.commitFlashStored dt) s = .next { a with ctl := { a.ctl with
         commit := some { c with stage := .stored }, image := none, flash := a.ctl.flash.set other (.whole x x.crc) } }) ∧
     (a.up = true → a.ctl.consolidating = 0 → (∀ c, a.ctl.commit = some c → c.toFlash = false) →
       589824 < 2 * used ∨ a.ctl.journal ≠ [] ∧ a.utcMidnight = true →
       exec (.configConsolidationStart dt) s = .next { a with ctl := { a.ctl with
         consolidating := 1, image := some a.ctl.cfg, included := (a.ctl.journal.filter JournalRec.applied).length
         flash := a.ctl.flash.set other .partly } }) ∧
     (∀ x, a.up = true → a.ctl.consolidating = 1 → a.ctl.image = some x →
       exec (.configConsolidationDone dt) s = .next { a with ctl := { a.ctl with
         consolidating := 2, cfgSlot := other, journal := a.ctl.journal.drop a.ctl.included, included := 0
         consolidations := a.ctl.consolidations + 1, image := none
         flash := (a.ctl.flash.set other (.whole x x.crc)).set a.ctl.cfgSlot .partly } }) ∧
     (a.up = true → 2 ≤ a.ctl.consolidating → (∀ c, a.ctl.commit = some c → c.stage ≠ .waitConsolidation) →
       exec (.consolidationEraseDone dt) s = .next { a with ctl := { a.ctl with
         consolidating := 0, flash := a.ctl.flash.erase other } }) ∧
     (∀ c, a.up = true → 2 ≤ a.ctl.consolidating → a.ctl.commit = some c → c.stage = .waitConsolidation →
       exec (.consolidationEraseDone dt) s = .next { a with ctl := { a.ctl with
         consolidating := 0, commit := some { c with stage := .flash, toFlash := true }
         image := some (a.configAfter a.ctl.maquette c.number c.boundary), included := a.ctl.journal.length
         flash := (a.ctl.flash.erase other).set other .partly } }))

/-! ### Carriages and the host link (02) -/

/-- R69, R8: with the endpoint up, HOST_CTL takes its two bits, IRQ_HOLDOFF its sixteen, BASE_LO (the low five bits reserved),
BASE_HI and SIZE of a disabled ring their words, an MSI-X table word its word, while its vector is not pending; an enabled ring's
BASE and SIZE are not written; RING_CTL enables a ring whose SIZE is a power of two from 16 to 65,536 and leaves another disabled. R69: RING_CTL
with ENABLE 0 disables the ring: what is posted and not taken is let go, and packets of it that wait are not fetched; no other
ring changes. R69, R70, R114, R117: a doorbell of an enabled ring takes as many new descriptors as the producer index moved,
modulo SIZE: empty buffers of a receive or notification ring are posted behind those held, transmit descriptors behind those
that wait; and of a reply ring on which no reply waits nothing else changes either. R70, R391, R396: a packet on a command
ring, while none waits, a command buffer is free and the FIFO of the host link is below CTL.FIFO_LEVEL, is taken into a buffer, the
ring's HEAD advances, and the ring is the one served last. -/
def Obligations.HostRingsServe : Prop :=
  (∀ (s a : State) (dt n : Nat) (v : Word), s.advance dt = a → a.endpointUp = true → n < 64 →
     exec (.bar0RegisterWrite dt 0x0008 v) s = .next { a with ctl := { a.ctl with hostCtl := v &&& 3 } } ∧
     exec (.bar0RegisterWrite dt 0x000C v) s = .next { a with ctl := { a.ctl with irqHoldoff := v &&& 0xFFFF } } ∧
     ((a.ring n).enable = false →
       exec (.bar0RegisterWrite dt (0x1000 + 32 * n) v) s =
         .next (a.setRing n { a.ring n with base := (a.ring n).base.extractLsb' 32 32 ++ (v &&& 0xFFFFFFE0) }) ∧
       exec (.bar0RegisterWrite dt (0x1004 + 32 * n) v) s =
         .next (a.setRing n { a.ring n with base := v ++ (a.ring n).base.extractLsb' 0 32 }) ∧
       exec (.bar0RegisterWrite dt (0x1008 + 32 * n) v) s = .next (a.setRing n { a.ring n with size := v })) ∧
     ((a.ring n).enable = true →
       exec (.bar0RegisterWrite dt (0x1008 + 32 * n) v) s = .next (a.setRing n (a.ring n))) ∧
     (∀ k, k < 0x400 → k / 16 ∉ a.ctl.irqHeld → exec (.bar0RegisterWrite dt (0x2000 + k) v) s =
         .next { a with ctl := { a.ctl with msix := a.ctl.msix.put 0 k v } }) ∧
     (∀ k, 4 ≤ k → k ≤ 16 → (a.ring n).size.toNat = 2 ^ k → v.getLsbD 0 = true →
       exec (.ringCtlWrite dt n v) s = .next (a.setRing n { a.ring n with enable := true })) ∧
     ((∀ k, 4 ≤ k → k ≤ 16 → (a.ring n).size.toNat ≠ 2 ^ k) → (a.ring n).enable = false → v.getLsbD 0 = true →
       exec (.ringCtlWrite dt n v) s = .next a)) ∧
  (∀ (s a : State) (dt n : Nat) (v : Word), s.advance dt = a → a.endpointUp = true → n < 64 → v.getLsbD 0 = false →
     a.ctl.rings.wf = true →
     ∃ u, exec (.ringCtlWrite dt n v) s = .next u ∧ (u.ring n).enable = false ∧ (u.ring n).posted = [] ∧ (u.ring n).sends = [] ∧
       (u.ring n).waiting = (a.ring n).waiting ∧ (∀ m, m ≠ n → u.ring m = a.ring m) ∧
       u.ctl.unfetched = a.ctl.unfetched.filter (fun p => p.1 != .host n) ∧ u = { a with ctl := { a.ctl with rings := u.ctl.rings, unfetched := u.ctl.unfetched } }) ∧
  (∀ (s a : State) (dt n index : Nat), s.advance dt = a → a.endpointUp = true → (a.ring n).enable = true → a.ctl.rings.wf = true →
     let size := max (a.ring n).size.toNat 1
     let k := (index % size + size - (a.ring n).producer) % size
     (∀ l, (n < 32 ∨ 56 ≤ n) → (a.ring n).waiting = [] →
       ∃ u, exec (.doorbellWrite dt n index (.buffers l)) s = .next u ∧
         u.ring n = { a.ring n with producer := index % size, posted := (a.ring n).posted ++ l.take k } ∧
         (∀ m, m ≠ n → u.ring m = a.ring m) ∧ u = { a with ctl := { a.ctl with rings := u.ctl.rings } }) ∧
     (∀ l, 32 ≤ n → n ≤ 47 →
       ∃ u, exec (.doorbellWrite dt n index (.sends l)) s = .next u ∧
         u.ring n = { a.ring n with producer := index % size, sends := (a.ring n).sends ++ l.take k } ∧
         (∀ m, m ≠ n → u.ring m = a.ring m) ∧ u = { a with ctl := { a.ctl with rings := u.ctl.rings } })) ∧
  (∀ (s a : State) (dt n index : Nat) (p : FetchedPacket), s.advance dt = a → a.endpointUp = true → 48 ≤ n → n ≤ 55 →
     (a.ring n).enable = true → a.ctl.rings.wf = true → a.ctl.unfetched = [] → a.ctl.buffers.length < 64 →
     (a.ctl.fifo.getD 64 []).length ≤ a.parN Par.CTL.FIFO_LEVEL 64 →
     (index % max (a.ring n).size.toNat 1 + max (a.ring n).size.toNat 1 - (a.ring n).producer) % max (a.ring n).size.toNat 1 = 1 →
     ∃ u, exec (.doorbellWrite dt n index (.packets [p])) s = .next u ∧ u.ctl.buffers = a.ctl.buffers ++ [(.host n, p)] ∧
       u.ctl.unfetched = [] ∧ u.ctl.lastCmdRing = n ∧ (u.ring n).head = ((a.ring n).head + 1) % max (a.ring n).size.toNat 1)

/-- R70, R391: the oldest reply that has waited CTL.REPLY_WAIT_MS for a descriptor is dropped and counted in
CMD_REPLY_DROPPED, not before. R69: an interrupt that IRQ_HOLDOFF holds back is raised once the holdoff has passed and its vector is
not masked, not before. R71: a read of the low half of a 64-bit value of the live window answers it and latches the high half for
its requester, in the place of that requester's latch before, at most eight latches in all; the read of the high half at that
offset answers what was latched and clears the latch, and without a latch the high half as it is now; an 8-byte read answers both
halves of one instant and touches no latch; a write is ignored and counted in CMD_LIVE_WRITE. R69: a register of BAR0 reads its
value, ID 0x4640_0101, and the read changes nothing. -/
def Obligations.HostTimersAndLiveWindow : Prop :=
  (∀ (s a : State) (dt n : Nat), s.advance dt = a →
     (∀ t r rest, (a.ring n).waiting = (t, r) :: rest →
       (t + 1000000 * a.parN Par.CTL.REPLY_WAIT_MS 0 ≤ a.now →
         exec (.replyWaitTimeout dt n) s = .next ((a.setRing n { a.ring n with waiting := rest }).count 0x0C07 0 1)) ∧
       (a.now < t + 1000000 * a.parN Par.CTL.REPLY_WAIT_MS 0 → exec (.replyWaitTimeout dt n) s = .next a)) ∧
     (n ∈ a.ctl.irqHeld → a.irqMasked n = false →
       (∀ t, a.ctl.irqLast.get? n = some t → t + 1000 * (a.ctl.irqHoldoff.toNat % 65536) ≤ a.now) →
       exec (.irqHoldoffExpiry dt n) s = .next { a with
         ctl := { a.ctl with irqHeld := a.ctl.irqHeld.filter (fun v => v != n), irqLast := a.ctl.irqLast.set n a.now }
         out := a.out ++ [.irq n] }) ∧
     (∀ t, a.ctl.irqLast.get? n = some t → a.now < t + 1000 * (a.ctl.irqHoldoff.toNat % 65536) →
       exec (.irqHoldoffExpiry dt n) s = .next a)) ∧
  (∀ (s a : State) (dt requester offset : Nat) (v : DWord), s.advance dt = a → a.endpointUp = true →
     exec (.liveWindowLowRead dt requester (.low offset)) s = .next { a with
       ctl := { a.ctl with latches := (({ requester := requester, offset := offset
                                          high := BitVec.ofNat 32 (a.liveValue offset / 2 ^ 32) } : Latch) ::
         a.ctl.latches.filter (fun x => x.requester != requester)).take 8 }
       out := a.out ++ [.barRead (BitVec.ofNat 32 (a.liveValue offset))] } ∧
     exec (.liveWindowLowRead dt requester (.whole offset)) s = .next { a with
       out := a.out ++ [.barRead (BitVec.ofNat 32 (a.liveValue offset)), .barRead (BitVec.ofNat 32 (a.liveValue offset / 2 ^ 32))] } ∧
     (a.bar0Up = true →
       exec (.liveWindowLowRead dt requester (.bar0 offset)) s = .next { a with out := a.out ++ [.barRead (a.bar0Value offset)] } ∧
       a.bar0Value 0 = 0x46400101 ∧ a.bar0Value 4 = a.stateWord) ∧
     (∀ l, a.ctl.latches.find? (fun x => x.requester == requester && x.offset == offset) = some l →
       exec (.liveWindowHighRead dt requester offset) s = .next { a with
         ctl := { a.ctl with latches := a.ctl.latches.filter (fun x => x.requester != requester) }
         out := a.out ++ [.barRead l.high] }) ∧
     ((∀ x ∈ a.ctl.latches, x.requester = requester → x.offset ≠ offset) →
       exec (.liveWindowHighRead dt requester offset) s =
         .next { a with out := a.out ++ [.barRead (BitVec.ofNat 32 (a.liveValue offset / 2 ^ 32))] }) ∧
     exec (.liveWindowWrite dt offset v) s = .next (a.count 0x0C08 0 1))

/-- R419: PE_PERST_N low resets the host link alone: every ring is disabled with nothing posted or waiting, held interrupts
and latches are gone, the replies that waited are counted in CMD_REPLY_DROPPED; when it is released the link is up and the
rings stay as they were. R36, R37, R39, R40, R66: a packet heard on any carriage, while nothing lies in a FIFO or a command buffer,
that fails step 1 or 2 counts in CMD_FRAMING_BAD, one that fails its CRC in CMD_CRC_BAD; either is answered, whatever its NOREPLY
says, with the opcode, TAG and SEQUENCE it carried and the status, and a TCP connection then closes; a good packet of an opcode
that does not exist is answered BAD_OPCODE. A UART frame that is too long or no COBS is counted in CMD_COBS_BAD and not answered.
R37, R179, R406: a SYN for the port of a TYPE 2 destination is accepted on the lowest free connection where the destination has
no client, else answered with RST; one for the command interpreter's port, where CTL.TCP_ENABLE is set and a connection is free,
is accepted on the lowest free one; where none is, it is counted and answered with RST; a command connection that has carried no
packet for CTL.SESSION_IDLE_S closes, and the sessions opened on it end. -/
def Obligations.CarriagesFailAndReset : Prop :=
  (∀ (s a : State) (dt : Nat), s.advance dt = a →
     (a.ctl.rings.wf = true → (∀ k ∈ a.ctl.rings, k.1 < 64) → a.ctl.counters.wf = true →
       ∃ u, exec (.pePerstNAssert dt) s = .next u ∧ u.ctl.linkUp = false ∧ u.ctl.irqHeld = [] ∧ u.ctl.latches = [] ∧
         (∀ n, (u.ring n).enable = false ∧ (u.ring n).posted = [] ∧ (u.ring n).waiting = []) ∧ u = { a with ctl := u.ctl } ∧
         u.ctr 0x0C07 0 = min (a.ctr 0x0C07 0 + (a.ctl.rings.map (fun r => r.2.waiting.length)).sum) (2 ^ 64 - 1) ∧
         u.ctl.cfg = a.ctl.cfg ∧ u.ctl.sessions = a.ctl.sessions ∧ u.ctl.maquette = a.ctl.maquette) ∧
     exec (.pePerstNRelease dt) s = .next { a with ctl := { a.ctl with linkUp := true } }) ∧
  (∀ (s a : State) (dt : Nat) (c : Carriage) (bytes : List Byte) (n : Nat), s.advance dt = a → a.hears c = true → Quiet a →
     let size := match c with | .host _ => n | _ => bytes.length
     let b := a.release c
     let q := requestOf c bytes
     (∀ st, packetFault c size bytes = some st →
       let r := b.badPacketReply c bytes st
       let t := (b.count (if st = 0x0103 then 0x0C02 else 0x0C01) 0 1).sendInOrder 0x0C r
       (12 ≤ bytes.length → r.opcode = q.1 % 0x8000 + 0x8000 ∧ r.tag = q.2.tag ∧ r.seq = q.2.seq) ∧
       r.carriage = c ∧ r.session = 0 ∧ r.status = st ∧ r.authTag = [] ∧
       exec (.packetBadFraming dt c n bytes) s = .next (match c with | .tcp k => t.tcpEnd k | _ => t)) ∧
     (packetFault c size bytes = none → q.1 ∉ requestOps →
       exec (.packetBadFraming dt c n bytes) s =
         .next (b.answer (b.sessionKey q.2) q.2 (bitsOf q.1 14 0) 0x0C (0x0100, [detail 0xFFFF 0])))) ∧
  (∀ (s a : State) (dt : Nat) (bytes : List Byte), s.advance dt = a → a.hears .uart = true →
     (cobsOk (bytes.length + 1) bytes = false ∨ 65795 < bytes.length →
       exec (.uartFrameBad dt bytes) s = .next (a.count 0x0C05 0 1)) ∧
     (cobsOk (bytes.length + 1) bytes = true → bytes.length ≤ 65795 → exec (.uartFrameBad dt bytes) s = .next a)) ∧
  (∀ (s a : State) (dt port tcpPort k : Nat) (peer : Peer), s.advance dt = a → a.up = true →
     (let taken : Nat → Nat → State := fun use owner => { a with
         ctl := { a.ctl with
           tcp := a.ctl.tcp.set k { peer := peer, port := port, lport := tcpPort, use := use, owner := owner, lastAt := a.now, sent := 0 } }
         out := a.out ++ [.tcpAccept k peer] }
      a.linkIsUp port = true →
       (∀ i, a.listener port tcpPort = some i →
         ((∀ c ∈ a.ctl.tcp, c.2.use = 2 → c.2.owner ≠ i) → a.freeConn = some k →
           exec (.tcpConnectionRequest dt port tcpPort peer) s = .next (taken 2 i)) ∧
         ((∃ c ∈ a.ctl.tcp, c.2.use = 2 ∧ c.2.owner = i) →
           exec (.tcpConnectionRequest dt port tcpPort peer) s = .next (a.emit (.tcpRst peer)))) ∧
       (a.listener port tcpPort = none → a.parB Par.CTL.TCP_ENABLE port = true → tcpPort = a.parN Par.CTL.UDP_PORT 0 →
         (a.tcpSpare = true → a.freeConn = some k → exec (.tcpConnectionRequest dt port tcpPort peer) s = .next (taken 0 0)) ∧
         (a.tcpSpare = false →
           exec (.tcpConnectionRequest dt port tcpPort peer) s = .next ((a.count 0x0C0D 0 1).emit (.tcpRst peer))))) ∧
     (∀ t, a.ctl.tcp.get? k = some t → t.use = 0 → t.lastAt + sec * a.parN Par.CTL.SESSION_IDLE_S 0 ≤ a.now →
       exec (.tcpConnectionIdleClose dt k) s = .next { a with
         ctl := { a.ctl with
           tcp := a.ctl.tcp.erase k, sessions := a.ctl.sessions.filter (fun x => x.2.conn != some k) }
         out := a.out ++ [.tcpClose k] }))

/-! ### Ports (04) -/

/-- R107 to R109, R111: a frame on a port that receives, with no fault and room in the FIFO, is stored last in it with its
arrival stamp; a frame with a fault counts in that fault's counter of the port (symbol error, too short, too long, FCS and the
others) and is not stored; nothing else changes. R111, R112, R114: the oldest frame of a port's FIFO leaves it, while no word waits
in a FIFO, is counted with its octets, and goes to the time base, the classifier, the TCP engine or reassembly, to the command
interpreter as a buffered packet, to the neighbour protocols, which answer it, each counted, or without its FCS and with its
arrival stamp to the management ring. R113: a fragment of a datagram not yet held starts one while fewer than 16 are in
reassembly, and is counted against its port where 16 are; a datagram not complete 1 s after its first fragment is dropped and
counted, and the others stay. -/
def Obligations.FramesAreReceivedAndSteered : Prop :=
  (∀ (s a : State) (dt n : Nat) (f : RxFrame), s.advance dt = a → a.up = true → a.runs 1 = true → a.linkIsUp n = true →
     (a.rxVerdict n f = none → exec (.frameReceived dt n f) s =
       .next (a.setPort n { a.port n with
         fifo := (a.port n).fifo ++ [(a.now - a.parN Par.TIM.PORT_RX_DELAY_NS n, f.bytes)] })) ∧
     (∀ c, a.rxVerdict n f = some c → exec (.frameReceived dt n f) s = .next (a.count c n 1)) ∧
     (f.symbolErr = true → exec (.frameReceived dt n f) s = .next (a.count 0x0107 n 1)) ∧
     (f.symbolErr = false → f.bytes.length < 64 → exec (.frameReceived dt n f) s = .next (a.count 0x0108 n 1)) ∧
     (f.symbolErr = false → 64 ≤ f.bytes.length → a.parN Par.PRT.MAX_FRAME n < f.bytes.length →
       exec (.frameReceived dt n f) s = .next (a.count 0x0109 n 1)) ∧
     (f.symbolErr = false → f.oddBits = false → 64 ≤ f.bytes.length → f.bytes.length ≤ a.parN Par.PRT.MAX_FRAME n →
       fcsGood f.bytes = false → exec (.frameReceived dt n f) s = .next (a.count 0x010B n 1))) ∧
  (∀ (s a : State) (dt n t : Nat) (l : List Byte) (rest : List (Nat × List Byte)), s.advance dt = a → a.up = true →
     a.runs 1 = true → Quiet a → (a.port n).fifo = (t, l) :: rest →
     let b := ((a.setPort n { a.port n with fifo := rest, liveFrames := ((a.port n).liveFrames + 1) % 2 ^ 64 }).count
       0x0101 n 1).count 0x0102 n l.length
     let stamp := if n < 28 ∧ b.parB Par.PRT.TSU_ENABLE n = false then b.now else t
     let data := l.take (l.length - 4)
     let gone := fun (c d : Nat) => (b.count c n 1).emit (.steered n d)
     (b.steer n l = 0 → exec (.rxFrameSteer dt n) s = .next (b.toManagement n stamp data)) ∧
     (b.steer n l = 1 → exec (.rxFrameSteer dt n) s = .next (gone 0x0104 1)) ∧
     (b.steer n l = 2 → exec (.rxFrameSteer dt n) s = .next (gone 0x0103 2)) ∧
     (∀ v, b.steer n l = 3 → ipView l = some v →
       exec (.rxFrameSteer dt n) s = .next ((gone 0x0105 3).bufferPacket (udpCommand n l v).1 (udpCommand n l v).2)) ∧
     (b.steer n l = 4 ∨ b.steer n l = 5 → exec (.rxFrameSteer dt n) s = .next (gone 0x0105 (b.steer n l))) ∧
     (b.steer n l = 6 → exec (.rxFrameSteer dt n) s =
       .next ((gone 0x0105 6).sendFrames' n 4 false none ((gone 0x0105 6).neighbourFrames n data)))) ∧
  (∀ (s a : State) (dt : Nat) (f : Fragment), s.advance dt = a →
     let r : Reassembly := { port := f.port, v6 := f.v6, src := f.src, dst := f.dst, ident := f.ident, proto := f.proto
                             firstAt := a.now, parts := [(f.offset, f.more, f.data)]
                             head := if f.offset = 0 then f.head else [], poison := false }
     (a.up = true → a.runs 12 = true → Quiet a → (∀ x ∈ a.ctl.reasm, x.same f = false) →
       (a.ctl.reasm.length < 16 → f.more = true → f.offset + f.data.length ≤ reasmMost f.v6 →
         exec (.fragmentReceived dt f) s = .next { a with ctl := { a.ctl with reasm := a.ctl.reasm ++ [r] } }) ∧
       (a.ctl.reasm.length = 16 → exec (.fragmentReceived dt f) s = .next (a.count 0x0110 f.port 1))) ∧
     (∀ x, a.ctl.reasm = [x] → x.firstAt + sec ≤ a.now → exec (.reassemblyTimeout dt) s =
       .next (({ a with ctl := { a.ctl with reasm := [] } } : State).count 0x0110 x.port 1)) ∧
     ((∀ x ∈ a.ctl.reasm, a.now < x.firstAt + sec) → exec (.reassemblyTimeout dt) s = .next a))

/-- R102, R103, R106, R121, R122, R123: in SAFE, CONFIG or RUN a link that is up goes down: its speed and auto-negotiation read 0,
PRT_LINK_DROPS counts it, every frame queued on the port is dropped and counted; a link whose set-up is done comes up with the
speed of its mode; a poll of a PHY that is due does the one or the other, and the next is due PRT.MDIO_POLL_MS after it; a
partner that offers only half duplex to a port that negotiates is refused and counted once. R116 to R118, R122: the frame being
sent on a port whose link is up, while no word waits in a FIFO, is counted with its octets and leaves, and so does the message
whose last frame it is, the next frame starts, and where it ends a host send that send is completed with STATUS 0; a send of a
host ring that breaks a limit is counted and completed with STATUS 2, one to a port whose link is down counted and completed
with STATUS 1, and another is queued on its port. R121: in RUN, once a second, a shifted port whose window carries more than
80 Mb goes back to 1,000 Mb/s; one not shifted and below its threshold counts one more second below it, and shifts when that
makes PRT.DOWNSHIFT_S of them at 1,000 Mb/s; one not below it counts from 0 again; a shifted link that has not come up within
10 s goes back and shifts no more until the next commit. -/
def Obligations.LinksAndSends : Prop :=
  (∀ (s a : State) (dt n : Nat) (st : PhyStatus), s.advance dt = a → a.up = true →
     ((a.port n).up = true →
       exec (.linkDown dt n) s = .next (((a.setPort n { a.port n with up := false, speed := 0, anDone := false }).count
         0x0116 n 1).dropQueued n 1)) ∧
     ((a.port n).up = false → exec (.linkDown dt n) s = .next a) ∧
     (a.runs 1 = true → st.up = true → a.parN Par.PRT.MODE n ≠ 0 →
       let polled := a.setPort n { a.port n with polledAt := some a.now }
       let up := fun (b : State) => b.setPort n { b.port n with
         up := true, speed := a.speedCode n st, anDone := a.negotiates n && st.anDone, hdRefused := false, awaitUp := false }
       (st.halfOnly = false ∨ a.negotiates n = false →
         (a.linkReady n st = true → exec (.linkUp dt n st) s = .next (up a)) ∧
         (a.phyManaged n = true → a.pollDue n = true → polled.linkReady n st = true →
           exec (.phyStatusPoll dt n st) s = .next (up polled))) ∧
       (st.halfOnly = true → a.negotiates n = true → (a.port n).up = false → (a.port n).hdRefused = false →
         exec (.linkUp dt n st) s = .next ((a.setPort n { a.port n with hdRefused := true }).count 0x0117 n 1))) ∧
     (a.runs 1 = true → a.phyManaged n = true → a.pollDue n = true → st.up = false → (a.port n).up = false →
       a.prt.port.wf = true → exec (.phyStatusPoll dt n st) s =
         .next (a.setPort n { a.port n with polledAt := some a.now, hdRefused := false }))) ∧
  (∀ (s a : State) (dt n : Nat), s.advance dt = a →
     (∀ x, Quiet a → a.linkIsUp n = true → (a.port n).sending = some x →
       let b := (((a.setPort n { a.port n with sending := none }).count 0x0111 n 1).count 0x0112 n (x.bytes.length + 4)).emit
         (.frame n x.rank x.bytes)
       let c := if x.tso then b.count 0x0113 n 1 else b
       let d := match x.msg with
         | some o => if x.last then c.emit o else c
         | none => c
       (x.ring = none ∨ x.last = false → exec (.txFrame dt n) s = .next (d.startTx n)) ∧
       (∀ r, x.ring = some r → x.last = true → exec (.txFrame dt n) s =
         .next ((d.completeSend r 0 (if x.tsReq then (d.ring r).txStamp else none)).startTx n))) ∧
     (∀ ds e, a.up = true → a.runs 1 = true → (a.ring n).enable = true → (a.ring n).inFlight = 0 →
       takeSend (a.ring n).sends = some ds → ds.getLast? = some e →
       let b := a.setRing n { a.ring n with sends := (a.ring n).sends.drop ds.length, inFlight := ds.length }
       (b.sendFrames ds = none → exec (.txSend dt n) s = .next ((b.count 0x0115 e.port 1).completeSend n 2 none)) ∧
       (∀ fs, b.sendFrames ds = some fs → b.linkIsUp e.port = false →
         exec (.txSend dt n) s = .next ((b.count 0x0114 e.port 1).completeSend n 1 none)) ∧
       (∀ fs, b.sendFrames ds = some fs → b.linkIsUp e.port = true →
         exec (.txSend dt n) s = .next (b.queueSend e.port n e.tsReq e.tso true fs)))) ∧
  (∀ (s a : State) (dt n rx tx : Nat), s.advance dt = a →
     (a.pwr.dev = .run → a.runs 1 = true → a.parN Par.PRT.MODE n = 1 → a.parN Par.PRT.DOWNSHIFT_PCT n ≠ 0 →
       (a.port n).up = true → (a.port n).windowAt + sec ≤ a.now →
       let b := a.setPort n { a.port n with windowAt := a.now }
       let below := max rx tx * 100 < b.parN Par.PRT.DOWNSHIFT_PCT n * 1000000000
       let enough := b.parN Par.PRT.DOWNSHIFT_S n ≤ (b.port n).lowSeconds + 1 ∧ (b.port n).noShift = false ∧ (b.port n).speed = 3
       ((b.port n).shifted = true → 80000000 < max rx tx → exec (.downshiftWindow dt n rx tx) s = .next (b.shift n false)) ∧
       ((b.port n).shifted = true → max rx tx ≤ 80000000 → exec (.downshiftWindow dt n rx tx) s = .next b) ∧
       ((b.port n).shifted = false → below → enough → exec (.downshiftWindow dt n rx tx) s = .next (b.shift n true)) ∧
       ((b.port n).shifted = false → below → ¬ enough → exec (.downshiftWindow dt n rx tx) s =
         .next (b.setPort n { b.port n with lowSeconds := (b.port n).lowSeconds + 1 })) ∧
       ((b.port n).shifted = false → ¬ below → exec (.downshiftWindow dt n rx tx) s =
         .next (b.setPort n { b.port n with lowSeconds := 0 }))) ∧
     ((a.port n).shifted = true → (a.port n).awaitUp = true → (a.port n).shiftAt + 10 * sec ≤ a.now →
       exec (.downshiftLinkTimeout dt n) s =
         .next ((a.shift n false).setPort n { (a.shift n false).port n with noShift := true })))

/-! ### Power, reset, boot (18) -/

/-- R411, R419, R437, R438: with the supplies down, POWER_UP brings them up with RESET_N low and boot cause 0; with them up,
RESET_N low and a supply out of tolerance bring the module into BOOT with cause 1 and RESET_N low; every land is released,
every session, the maquette, a pending commit and what is in the parameters' place in force is gone; the configuration stores,
the vault's counter, the totals copies and the metrological records in MRAM stay. R411, R412: at the release of RESET_N the
straps are sampled into BOOTSEL, and with BOOTSEL 0 the boot ROM takes the bank of the active-bank record where it
authenticates, else the other, which is a fallback and counted in CTL_BOOT_FALLBACK; where none does, the module stays in
recovery service. R252, R425 to R428: PFW_N falling in SAFE, CONFIG or RUN is stamped and counted and starts the power-fail
sequence, in which no measuring and no command service goes on; once the steps in progress have ended, the totals are saved with
kind 1, the patina counters and OPSEC are written, no land conducts and the sequence is at its end; in BOOT before the totals were
loaded the boot stops and nothing is saved; in SLEEP and HALT nothing happens. When it returns with the supplies held, the
module passes through BOOT with cause 0. R120, R417: in SLEEP the host moving the link out of L1 wakes the module into BOOT
with cause 2 and wake cause 0, and a frame with a good FCS on a port that kept its link, which meets a pattern enabled in
PRT.WAKE_EN, does with its port and the bits met in PRT.WAKE_CAUSE; a frame that meets none leaves it asleep. -/
def Obligations.ResetPowerFailAndSleep : Prop :=
  (∀ (s a : State) (dt : Nat), s.advance dt = a →
     (a.pwr.supplies = false → exec (.powerUp dt) s = .next { a with
       pwr := { a.pwr with supplies := true, resetLow := true, cause := 0 }, vlt := { a.vlt with vio33At := a.now } }) ∧
     (a.pwr.supplies = true → ∃ u v, exec (.resetNAssert dt) s = .next u ∧ exec (.supplyOutOfTolerance dt) s = .next v ∧
       u.pwr.supplies = true ∧ v = { u with pwr := { u.pwr with supplies := false } } ∧
       u.pwr.dev = .boot ∧ u.pwr.resetLow = true ∧ u.pwr.cause = 1 ∧ u.healthy = false ∧ (∀ k, u.alm k = false) ∧
       u.ctl.sessions = [] ∧ u.ctl.maquette = [] ∧ u.ctl.commit = none ∧ u.ctl.cfg = Config.init ∧
       u.ctl.flash = a.ctl.flash ∧ u.ctl.journal = a.ctl.journal ∧ u.ctl.cfgSlot = a.ctl.cfgSlot ∧
       u.vlt.ctrPlinth = a.vlt.ctrPlinth ∧ u.vlt.ctrMram = a.vlt.ctrMram ∧
       u.cus.copyA = a.cus.copyA ∧ u.cus.copyB = a.cus.copyB ∧ u.cus.records = a.cus.records ∧
       u.evt.met.mram = a.evt.met.mram ∧ u.evt.gen.mram = a.evt.gen.mram ∧ u.ident = a.ident ∧ u.now = a.now)) ∧
  (∀ (s a : State) (dt straps : Nat), s.advance dt = a → a.pwr.resetLow = true → a.pwr.activeRec ≤ 1 → straps % 4 = 0 →
     let b := { a with pwr := { a.pwr with supplies := true, resetLow := false, bootsel := 0 } }
     ((a.bankOf a.pwr.activeRec).good a.ident = true → exec (.resetNRelease dt straps) s =
       .next { b with pwr := { b.pwr with bank := a.pwr.activeRec, fallback := false, recovery := false } }) ∧
     ((a.bankOf a.pwr.activeRec).good a.ident = false → (a.bankOf (1 - a.pwr.activeRec)).good a.ident = true →
       exec (.resetNRelease dt straps) s = .next
         (({ b with pwr := { b.pwr with bank := 1 - a.pwr.activeRec, fallback := true, recovery := false } } : State).count
           0x0C0E 0 1)) ∧
     ((a.bankOf 0).good a.ident = false → (a.bankOf 1).good a.ident = false → exec (.resetNRelease dt straps) s =
       .next { b with pwr := { b.pwr with bank := a.pwr.activeRec, fallback := false, recovery := true } })) ∧
  (∀ (s a : State) (dt : Nat), s.advance dt = a →
     (a.up = true → ∃ u, exec (.pfwNFall dt) s = .next u ∧ u.pwr.pfw = true ∧ u.cus.pfwStamp = some a.now ∧
       u.pwr.dev = a.pwr.dev ∧ u.measuring = false ∧ u.up = false ∧ (a.ctl.counters.wf = true → a.ctr 0x0C0F 0 < 2 ^ 64 - 1 →
         u.ctr 0x0C0F 0 = a.ctr 0x0C0F 0 + 1)) ∧
     (∀ t, a.saving = true → a.cus.pfwStamp = some t →
       let b := ((a.stepsEnd t).lgcOff).cusSave 1 (some t)
       ∃ u, exec (.pfwNFall dt) s = .next u ∧ u.pwr.pfwSaved = true ∧ u.cus.copyA = b.cus.copyA ∧
       u.cus.copyB = b.cus.copyB ∧ u.evt.opsecSaved = u.evt.opsec ∧ u.mem.saved = u.mem.patina ∧ u.healthy = false ∧
       (∀ k, u.alm k = false) ∧ u.tim.ppsOut = false) ∧
     (a.pwr.dev = .boot → a.pwr.loaded = false → a.pwr.supplies = true → a.pwr.resetLow = false →
       exec (.pfwNFall dt) s = .next { a with pwr := { a.pwr with pfw := true } }) ∧
     (a.pwr.dev = .sleep ∨ a.pwr.dev = .halt → exec (.pfwNFall dt) s = .next a) ∧
     (a.pwr.pfw = true → a.pwr.supplies = true → a.pwr.resetLow = false →
       ∃ u, exec (.pfwNReturn dt) s = .next u ∧ u.pwr.dev = .boot ∧ u.pwr.pfw = false ∧ u.pwr.cause = 0 ∧
         u.ctl.flash = a.ctl.flash ∧ u.ctl.cfgSlot = a.ctl.cfgSlot)) ∧
  (∀ (s a : State) (dt port : Nat) (bytes : List Byte), s.advance dt = a → a.pwr.dev = .sleep →
     (a.ctl.linkUp = true → ∃ u, exec (.pcieL1ExitWake dt) s = .next u ∧ u.pwr.dev = .boot ∧ u.pwr.cause = 2 ∧
       u.prt.wakeCause = 0) ∧
     (a.linkIsUp port = true → fcsGood bytes = true → a.wakeBits port bytes ≠ 0 → ∃ u, exec (.wakeFrame dt port bytes) s = .next u ∧
       u.pwr.dev = .boot ∧ u.pwr.cause = 2 ∧
       u.prt.wakeCause = BitVec.ofNat 32 (port % 32 * 65536 + a.wakeBits port bytes)) ∧
     (fcsGood bytes = false ∨ a.wakeBits port bytes = 0 → exec (.wakeFrame dt port bytes) s = .next a))

/-- R361, R372, R376, R413: boot that is not held completes with every unit running under the stored configuration,
POWER_CYCLES one higher and the vault's counter in both of its copies; with the tamper latch clear and slots 1 and 2 VALID the
module leaves BOOT for CONFIG or RUN, otherwise for SAFE. R413: CTL.LOCK_WAIT_S after CONFIG was reached, with boot target 1
and the rule still to act, the module enters RUN and the rule has acted; before that instant nothing changes. -/
def Obligations.BootCompletesIntoItsState : Prop :=
  (∀ (s a : State) (dt : Nat), s.advance dt = a → a.pwr.dev = .boot → a.pwr.recovery = false → a.pwr.resetLow = false →
     a.pwr.supplies = true → a.pwr.pfw = false →
     ∃ u, exec (.bootComplete dt) s = .next u ∧ u.evt.cycles = a.evt.cycles + 1 ∧ u.pwr.loaded = true ∧
       (∀ n ∈ unitIds, u.runs n = true) ∧ u.ctl.cfg = a.storedConfig ∧
       (a.vlt.pendingT = false → (a.held = true → u.pwr.dev = .safe) ∧
         (a.held = false → u.pwr.dev = .config ∨ u.pwr.dev = .run))) ∧
  (∀ (s a : State) (dt : Nat), s.advance dt = a → a.up = true → a.pwr.dev = .config → a.pwr.ruleDue = true →
     a.parN Par.CTL.BOOT_TARGET 0 = 1 →
     (a.pwr.configAt + a.parN Par.CTL.LOCK_WAIT_S 0 * sec ≤ a.now →
       ∃ u, exec (.lockWaitTimeout dt) s = .next u ∧ u.pwr.dev = .run ∧ u.pwr.ruleDue = false) ∧
     (a.now < a.pwr.configAt + a.parN Par.CTL.LOCK_WAIT_S 0 * sec → exec (.lockWaitTimeout dt) s = .next a))

/-! ### Time (03) -/

/-- R75, R77: the GTF pattern holds seconds in bits 63:30 and nanoseconds in bits 29:0, and names its instant; TQ is the code
of the smallest bound of R77's table that E does not pass, 14 for a greater E; without an estimate TQ is 15, or 14 where the
plinth count has been set while TIME_LOCKED. -/
def Obligations.GtfAndTimeQualityCodes : Prop :=
  (∀ t : Nat, gtfOf t = t / 1000000000 * 2 ^ 30 + t % 1000000000 ∧ nsOf (gtfOf t) = t) ∧
  (∀ e : Rat, tqOf e = (([25, 50, 100, 250, 500, 1000, 2500, 5000, 10000, 25000, 50000, 100000, 1000000, 10000000] :
    List Rat).findIdx (fun b => decide (e ≤ b)))) ∧
  (∀ s : State, s.tim.st = 0 → s.tq = if s.tim.plinthSet then 14 else 15) ∧
  (∀ s : State, s.timeLocked = true ↔ (s.tim.st = 2 ∨ s.tim.st = 3) ∧ s.tq ≤ 8)

/-- R80, R82, R83, R467: with the time base running, an Announce of the domain on a receiver port is kept as that sender's; one
of the parent renews what is known of it, and one of another while no reference is watched has the best-master algorithm run; a
message that is no Announce of the domain changes nothing. R78, R82, R97: a one-step Sync of the parent measures the offset, its
arrival less what it names, the corrections, the peer delay and PORT_ASYM_NS, which in LOCKED by PTP is slewed away within
TIM.STEP_LIMIT_NS, else kept; a two-step one waits for its Follow_Up, which does the same; a Pdelay_Req is answered with its arrival.
R82, R83, R85: an announce interval after the last the best-master algorithm runs, then each port that takes part and is a
boundary-clock port or a master sends Announce and Sync, and each that takes part sends Pdelay_Req. R80, R83, R467: without Announce
of the parent for three intervals its Announce is forgotten, the loss counted, the reference disqualified and the algorithm run;
without Sync for three of its intervals it is disqualified; before that nothing changes. -/
def Obligations.PtpIsFollowed : Prop :=
  (∀ (s a : State) (dt port : Nat) (msg : List Byte), s.advance dt = a → a.timeRuns = true → a.ptpOn port = true →
     (a.parN Par.TIM.PTP_RX_PORTS 0).testBit port = true →
     (∀ x, a.announceOf msg = some x → x.leap59 = false → x.leap61 = false →
       let b := { a with tim := { a.tim with announces := a.tim.announces.set (port * 2 ^ 80 + x.portIdentity) (x, a.now) } }
       (a.tim.parent.map Announce.portIdentity = some x.portIdentity → a.tim.refPort = port →
         exec (.ptpAnnounceReceived dt port msg) s = .next (b.parentAnnounce x)) ∧
       (a.tim.ptp.watched = false → a.tim.parent.map Announce.portIdentity ≠ some x.portIdentity ∨ a.tim.refPort ≠ port →
         exec (.ptpAnnounceReceived dt port msg) s = .next b.bestMaster)) ∧
     (a.announceOf msg = none → exec (.ptpAnnounceReceived dt port msg) s = .next a) ∧
     (∀ p seq corr origin, a.tim.ptp.watched = true → a.tim.refPort = port → a.tim.parent = some p → a.tim.ptp.good = 2 →
       ∀ (stamp : Nat) (delay : Int),
       let t := stamp - a.parN Par.TIM.PORT_RX_DELAY_NS port
       let measured := fun (b : State) (o : Int) =>
         let c := { b with tim := { b.tim with ptp := { b.tim.ptp with offset := o, corrected := a.clockMoved } } }
         (a.tim.st ≠ 2 ∨ a.tim.ref ≠ 1 → exec (.ptpSyncReceived dt port msg ⟨stamp, delay⟩) s = .next c) ∧
         (a.tim.st = 2 → a.tim.ref = 1 → o.natAbs ≤ a.parN Par.TIM.STEP_LIMIT_NS 0 →
           exec (.ptpSyncReceived dt port msg ⟨stamp, delay⟩) s = .next (({ c with tim := { c.tim with
             offset := o, offsetAt := a.now, corrected := a.clockMoved } } : State).timeChanged false none))
       (∀ every, a.syncOf 0 msg = some (p.portIdentity, seq, every, false, corr, origin) →
         measured { a with tim := { a.tim with syncAt := a.now, syncEvery := every, sync := none } }
           (t - origin - (2 * corr + 65536) / 131072 - delay - (a.parW Par.TIM.PORT_ASYM_NS port).toInt)) ∧
       (∀ every, a.syncOf 0 msg = some (p.portIdentity, seq, every, true, corr, origin) →
         exec (.ptpSyncReceived dt port msg ⟨stamp, delay⟩) s = .next { a with tim := { a.tim with
           syncAt := a.now, syncEvery := every, sync := some (seq, t, corr) } }) ∧
       (∀ every two (came : Nat) (first : Int), a.syncOf 0 msg = none →
         a.syncOf 8 msg = some (p.portIdentity, seq, every, two, corr, origin) → a.tim.sync = some (seq, came, first) →
         measured { a with tim := { a.tim with sync := none } }
           (came - origin - (2 * (first + corr) + 65536) / 131072 - delay - (a.parW Par.TIM.PORT_ASYM_NS port).toInt))) ∧
     (∀ stamp, a.ptpReads 2 msg = true → exec (.ptpPdelayReqReceived dt ⟨port, msg, stamp⟩) s =
       .next (a.sendPdelayResp port (stamp - a.parN Par.TIM.PORT_RX_DELAY_NS port) msg))) ∧
  (∀ (s a : State) (dt port : Nat), s.advance dt = a → a.timeRuns = true →
     ((∀ t, a.tim.ptpAt = some t → t + sec ≤ a.now) →
       let b := ({ a with tim := { a.tim with ptpAt := some a.now } } : State).bestMaster
       let ports := (List.range 32).filter b.ptpOn
       let masters := ports.filter (fun n => (b.parN Par.TIM.PTP_BC_PORTS 0).testBit n || b.tim.ptpRole.getD n 0 == 2)
       exec (.ptpAnnounceInterval dt) s =
         .next (ports.foldl State.sendPdelayReq (masters.foldl (fun (u : State) n => (u.sendAnnounce n).sendSync n) b))) ∧
     (∀ t, a.tim.ptpAt = some t → a.now < t + sec → exec (.ptpAnnounceInterval dt) s = .next a) ∧
     ((a.parN Par.TIM.PTP_RX_PORTS 0).testBit port = true → a.tim.refPort = port → a.tim.ptp.watched = true →
       (a.tim.syncAt + 3 * a.tim.syncEvery ≤ a.now → exec (.ptpAnnounceTimeout dt port true) s = .next (a.disqualify 1)) ∧
       (a.now < a.tim.syncAt + 3 * a.tim.syncEvery → exec (.ptpAnnounceTimeout dt port true) s = .next a) ∧
       (∀ p x t, a.tim.parent = some p → a.tim.announces.get? (port * 2 ^ 80 + p.portIdentity) = some (x, t) →
         (t + 3 * sec ≤ a.now → exec (.ptpAnnounceTimeout dt port false) s =
           .next ((({ a with tim := { a.tim with announces := a.tim.announces.filter (fun y =>
             !(y.1 / 2 ^ 80 == port && decide (y.2.2 + 3 * sec ≤ a.now))) } } : State).count 0x0201 0 1).disqualify 1).bestMaster) ∧
         ((∀ y ∈ a.tim.announces, a.now < y.2.2 + 3 * sec) → exec (.ptpAnnounceTimeout dt port false) s = .next a))))

/-- R80, R86, R88, R467: a bad IRIG-B frame, one that is missing 2 s after the last on-time edge, and a PPS_IN edge that is missing
1 s and 1 µs after the last, of a watched reference, count in TIM_IRIG_BAD and TIM_PPS_BAD; the second in a row disqualifies the
reference, the first breaks its qualification; a frame of code 0xF disqualifies a watched IRIG-B reference at once. R80, R86 to
R88, R467: in ACQUIRING a good IRIG-B frame gives the time of day its edge names, and leaves the reference watched with one more
good item; so does an edge of PPS_IN in mode 1 one second after the last, to 1 µs, with its offset from the second it names; an
edge further off is counted in TIM_PPS_BAD and disqualifies. -/
def Obligations.ReferenceItemsAreWatched : Prop :=
  (∀ (s a : State) (dt : Nat) (f : IrigFrame), s.advance dt = a → a.timeRuns = true →
     (a.parB Par.TIM.IRIG_ENABLE 0 = true → a.tim.irig.watched = true →
       let after := fun (t : Nat) => { a with tim := { a.tim with irigLast := some t } }
       let came := after (a.irigEdge f)
       (f.valid = false → 1 ≤ a.tim.irig.bad →
         exec (.irigFrameReceived dt f) s = .next ((came.count 0x0202 0 1).disqualify 2)) ∧
       (f.valid = false → a.tim.irig.bad = 0 → exec (.irigFrameReceived dt f) s =
         .next ((came.count 0x0202 0 1).setRef 2 { a.tim.irig with bad := 1, good := 0 })) ∧
       (f.valid = true → f.ext 71 4 = 0xF → exec (.irigFrameReceived dt f) s = .next (came.disqualify 2)) ∧
       (∀ t, a.tim.irigLast = some t → t + 2 * sec ≤ a.now →
         (1 ≤ a.tim.irig.bad →
           exec (.irigFrameMissing dt) s = .next (((after (t + sec)).count 0x0202 0 1).disqualify 2)) ∧
         (a.tim.irig.bad = 0 → exec (.irigFrameMissing dt) s =
           .next (((after (t + sec)).count 0x0202 0 1).setRef 2 { a.tim.irig with bad := 1, good := 0 }))) ∧
       (∀ t, a.tim.irigLast = some t → a.now < t + 2 * sec → exec (.irigFrameMissing dt) s = .next a)) ∧
     (∀ t, a.parN Par.TIM.PPS_IN_MODE 0 ≠ 0 → a.tim.pps.watched = true → a.tim.ppsLast = some t →
       t + a.parN Par.TIM.PPS_IN_DELAY_NS 0 + sec + 1000 ≤ a.now →
       let b := { a with tim := { a.tim with ppsLast := some (t + sec) } }
       (1 ≤ a.tim.pps.bad → exec (.ppsInMissing dt) s = .next ((b.count 0x0203 0 1).disqualify 3)) ∧
       (a.tim.pps.bad = 0 → exec (.ppsInMissing dt) s =
         .next ((b.count 0x0203 0 1).setRef 3 { a.tim.pps with bad := 1, good := 0 })))) ∧
  (∀ (s a : State) (dt stamp : Nat) (f : IrigFrame), s.advance dt = a → a.timeRuns = true →
     (a.parB Par.TIM.IRIG_ENABLE 0 = true → a.refNamed 2 = true → f.valid = true → f.ext 71 4 ≠ 0xF → f.ext 60 1 ≠ 1 →
       a.tim.st = 1 →
       ∃ u, exec (.irigFrameReceived dt f) s = .next u ∧ u.tim.irig.watched = true ∧ u.tim.irig.bad = 0 ∧
         u.tim.irig.good = a.tim.irig.good + 1 ∧ u.tim.irigTod = some (a.irigEdge f, (a.irigTai f).toNat)) ∧
     (∀ x n, a.parN Par.TIM.PPS_IN_MODE 0 = 1 → a.refNamed 3 = true → a.tim.st = 1 → a.tim.ppsLast = some x →
       let t := stamp - a.parN Par.TIM.PPS_IN_DELAY_NS 0
       a.ppsSecond t = some n → x + sec ≤ t + 1000 → t ≤ x + sec + 1000 →
       ∃ u, exec (.ppsInEdge dt stamp) s = .next u ∧ u.tim.pps.watched = true ∧ u.tim.pps.bad = 0 ∧
         u.tim.pps.good = a.tim.pps.good + 1 ∧ u.tim.pps.offset = (t : Int) - n ∧ u.tim.ppsLast = some t) ∧
     (∀ x, a.parN Par.TIM.PPS_IN_MODE 0 = 1 → a.tim.pps.watched = true → a.tim.ppsLast = some x →
       let t := stamp - a.parN Par.TIM.PPS_IN_DELAY_NS 0
       t + 1000 < x + sec ∨ x + sec + 1000 < t →
       exec (.ppsInEdge dt stamp) s = .next ((({ a with tim := { a.tim with ppsLast := some t } } : State).count
         0x0203 0 1).disqualify 3)))

/-- R79 to R81, R91: a reference that has completed TIM.QUALIFY_S qualifies; while the clock is not LOCKED it locks to the
first qualified one by priority, and while LOCKED the one in use stays; when the reference in use is no longer qualified and
none other is, the clock enters HOLDOVER with its estimate going on; a qualified reference of higher priority whose
TIM.REVERT_S has passed is taken. R93, R94: a measured offset above TIM.STEP_LIMIT_NS steps the clock: the clock then reads
the instant less the offset; one within the limit leaves the clock as it is and is slewed away from now. -/
def Obligations.ReferencesAreSelectedAndFollowed : Prop :=
  (∀ (s a : State) (dt k : Nat), s.advance dt = a → a.timeRuns = true →
     (a.qualifies k = true → a.tim.st = 2 → exec (.referenceQualified dt k) s =
       .next (a.setRef k { a.tim.refOf k with qualified := true, since := a.now })) ∧
     (∀ j l, a.qualifies k = true → a.tim.st ≠ 2 →
       let b := a.setRef k { a.tim.refOf k with qualified := true, since := a.now }
       b.refsReady = j :: l → exec (.referenceQualified dt k) s = .next (b.steerBy j)) ∧
     (a.tim.st = 2 → a.tim.ref = k → (a.tim.refOf k).qualified = false → a.refsReady = [] →
       ∃ u, exec (.referenceDisqualified dt k) s = .next u ∧ u.tim.st = 3 ∧ u.tim.ref = 0 ∧ u.tim.holdSince = a.now ∧
         u.tim.e0 = a.errorE.getD 0) ∧
     (∀ l, a.revertTo = k :: l → exec (.referenceRevert dt) s = .next (a.steerBy k))) ∧
  (∀ (a : State) (o done : Int),
     (a.parN Par.TIM.STEP_LIMIT_NS 0 < o.natAbs → o ≤ a.now → (a.correct o done false false).tim.now = (a.now - o).toNat) ∧
     (o.natAbs ≤ a.parN Par.TIM.STEP_LIMIT_NS 0 → (a.correct o done false false).tim.now = a.now ∧
       (a.correct o done false false).tim.offset = o ∧ (a.correct o done false false).tim.offsetAt = a.now))

/-- R100: outside a held second a change of TQ sends TIME_QUALITY with the new TQ and opens a second; inside one a change of
TQ alone waits; at the second's end the TQ then in force is sent where it differs from the one sent last. R89: with PPS_OUT
on, at a whole second with TQ good enough PPS_OUT goes high, and with TQ too poor it stays low and the first such second is
recorded; it goes low when TIM.PPS_OUT_WIDTH_US has passed. R90, R95, R96, R365: losing REF10M_IN is counted and recorded and
its return, after 10 s without a loss, recorded; an announced leap second is applied at its instant: TIM.UTC_OFFSET moves by one, the offset before it is
kept, and LEAP_APPLIED recorded with both; in each whole second while TIME_LOCKED the plinth count is set to the clock. -/
def Obligations.TimeQualityPpsAndClockEvents : Prop :=
  (∀ (s a : State) (dt : Nat), s.advance dt = a → a.up = true → a.timeLocked = a.tim.lastLocked →
     let seen := { a with tim := { a.tim with lastTq := a.tq, lastLocked := a.timeLocked } }
     (a.tq ≠ a.tim.lastTq → a.tim.holdEnd = none → exec (.tqChange dt) s = .next (seen.sendQuality none)) ∧
     (∀ t, a.tim.holdEnd = some t → a.now < t → exec (.tqChange dt) s = .next seen) ∧
     (∀ t, a.tim.holdEnd = some t → t ≤ a.now → a.tq = a.tim.lastTq → a.tq ≠ a.tim.sentTq →
       exec (.timeQualityHoldEnd dt) s = .next (({ seen with tim := { seen.tim with holdEnd := none } } : State).sendQuality none)) ∧
     (∀ t, a.tim.holdEnd = some t → a.now < t → exec (.timeQualityHoldEnd dt) s = .next a)) ∧
  (∀ (s a : State) (dt : Nat), s.advance dt = a →
     (a.up = true → a.parN Par.TIM.PPS_OUT_MODE 0 = 1 → a.now % sec = 0 →
       (a.tq ≤ a.parN Par.TIM.PPS_OUT_MIN_TQ 0 → a.tim.ppsHeld = false → exec (.ppsOutSecond dt) s =
         .next { a with tim := { a.tim with ppsOut := true, ppsAt := a.now } }) ∧
       (a.parN Par.TIM.PPS_OUT_MIN_TQ 0 < a.tq → a.tim.ppsHeld = false → exec (.ppsOutSecond dt) s =
         .next (({ a with tim := { a.tim with ppsHeld := true } } : State).logEv 0x0203 2 a.now
           (BitVec.ofNat 64 (1 + a.tq * 16))))) ∧
     (a.tim.ppsOut = true → a.tim.ppsAt + 1000 * a.parN Par.TIM.PPS_OUT_WIDTH_US 0 ≤ a.now →
       exec (.ppsOutWidthEnd dt) s = .next { a with tim := { a.tim with ppsOut := false } }) ∧
     (a.tim.ppsOut = true → a.now < a.tim.ppsAt + 1000 * a.parN Par.TIM.PPS_OUT_WIDTH_US 0 →
       exec (.ppsOutWidthEnd dt) s = .next a)) ∧
  (∀ (s a : State) (dt : Nat), s.advance dt = a → a.up = true →
     (a.tim.ref10m = true → exec (.ref10mLoss dt) s =
       .next ((({ a with tim := { a.tim with ref10m := false, ref10mLost := a.now } } : State).count 0x0204 0 1).logEv
         0x0204 2 a.now 1)) ∧
     (a.tim.ref10m = false → a.parB Par.TIM.REF10M_ENABLE 0 = true → a.tim.ref10mLost + 10 * sec ≤ a.now →
       exec (.ref10mRestore dt) s = .next (({ a with tim := { a.tim with ref10m := true } } : State).logEv 0x0204 2 a.now 0)) ∧
     (a.now < a.tim.ref10mLost + 10 * sec → exec (.ref10mRestore dt) s = .next a) ∧
     (a.tim.leapDue = true → a.tim.leapAt ≤ a.now →
       let new := a.tim.utcOffset + (if a.tim.leapKind = 1 then 1 else -1)
       exec (.leapSecondApply dt) s = .next (({ a with tim := { a.tim with
         utcOffset := new, prevOffset := some a.tim.utcOffset, leapDue := false } } : State).logEv 0x0205 2 a.now
           (BitVec.ofInt 32 new ++ BitVec.ofInt 32 a.tim.utcOffset))) ∧
     (a.tim.leapDue = true → a.now < a.tim.leapAt → exec (.leapSecondApply dt) s = .next a) ∧
     (a.timeLocked = true → a.now % sec = 0 → exec (.plinthTimeSet dt) s = .next { a with tim := { a.tim with
       plinth := a.now, plinthAt := a.now, plinthSet := true } }))

/-! ### Ingress (05) -/

/-- R124 to R127, R138, R144, R148: an OCF data datagram, while no word waits in a FIFO, is taken through the steps of R127: one
that does not parse counts in ING_MALFORMED, one of no defined source goes to the learn list, one whose lengths disagree, whose tag
is missing or wrong, whose stamp is no time or equals the last one accepted counts in that step's counter of the source; the others
are accepted, with the entries the source's mappings give, where the rate window has room. R127, R129, R133, R135: of the other kinds
one that does not parse counts in ING_MALFORMED, a C37.118.2 frame whose CHK fails in its counter, a CFG-1 or header frame and a
GOOSE frame with ndsCom set are ignored and counted; a GOOSE retransmission takes its time to live and shows its source alive. R125,
R145 to R147: accepting a frame makes its stamp and arrival the source's last, counts it, and leaves the source live from now. -/
def Obligations.OcfDatagramsPassTheStepsOfR127 : Prop :=
  (∀ (s a : State) (dt port arr station : Nat) (l : List Byte), s.advance dt = a → a.ingRuns = true → Quiet a →
     (ocfParses l = false → exec (.ingressFrame dt port arr (.ocf l)) s = .next (a.count 0x0304 0 1)) ∧
     (c37Parses l = false → exec (.ingressFrame dt port arr (.c37 station l)) s = .next (a.count 0x0304 0 1)) ∧
     (c37Parses l = true → chkGood l = false → exec (.ingressFrame dt port arr (.c37 station l)) s = .next (a.count 0x0305 0 1)) ∧
     (c37Parses l = true → chkGood l = true → c37Type l ≠ 0 → c37Type l ≠ 3 → c37Type l ≠ 4 → c37Type l ≠ 5 →
       exec (.ingressFrame dt port arr (.c37 station l)) s = .next (a.count 0x0310 0 1)) ∧
     (svFrameOf l = none → exec (.ingressFrame dt port arr (.sv l)) s = .next (a.count 0x0304 0 1)) ∧
     (gooseFrameOf l = none → exec (.ingressFrame dt port arr (.goose l)) s = .next (a.count 0x0304 0 1)) ∧
     (∀ f, gooseFrameOf l = some f →
       (a.identify 4 f.ref = none → exec (.ingressFrame dt port arr (.goose l)) s = .next (a.unknown 4 port f.ref arr)) ∧
       (∀ src d, a.identify 4 f.ref = some (src, d) →
         (f.ndsCom = true → exec (.ingressFrame dt port arr (.goose l)) s = .next (a.countSrc 0x0310 src 1)) ∧
         (f.ndsCom = false → f.fits = true → f.members.length ≤ d.n → d.tagRequired = false → f.confRev = d.ident.getD 1 0 →
           (a.src src).stNum = some f.stNum →
           exec (.ingressFrame dt port arr (.goose l)) s = .next ((a.setSrc src { a.src src with ttlMs := f.ttlMs }).revive src)))) ∧
     (ocfParses l = true → fld l 1 1 ≠ 1 → fld l 1 1 ≠ 2 →
       let key := beBytes 4 (fld l 8 4)
       (a.identify 3 key = none → exec (.ingressFrame dt port arr (.ocf l)) s = .next (a.unknown 3 port key arr)) ∧
       (∀ src d, a.identify 3 key = some (src, d) →
         let tagged := fld l 3 1 % 2 == 1
         let n := fld l 6 2
         (fld l 4 2 ≠ l.length → exec (.ingressFrame dt port arr (.ocf l)) s = .next (a.countSrc 0x0306 src 1)) ∧
         (fld l 4 2 = l.length → l.length = 24 + 12 * n + (if tagged then 16 else 0) → n ≤ d.n → n ≤ 128 →
           (a.ocfTag d l tagged = false → exec (.ingressFrame dt port arr (.ocf l)) s = .next (a.countSrc 0x0307 src 1)) ∧
           (a.ocfTag d l tagged = true → gtfValid (fld l 12 8) = false →
             exec (.ingressFrame dt port arr (.ocf l)) s = .next (a.countSrc 0x030A src 1)) ∧
           (a.ocfTag d l tagged = true → gtfValid (fld l 12 8) = true →
             let t := nsOf (fld l 12 8)
             let st := fld l 21 1
             let q := qMake (bitAt (st.testBit 0) 3 + bitAt (st.testBit 1) 8 + bitAt (st.testBit 2) 2) (fld l 20 1 / 16)
             let b := a.rateTake src d.rate arr 1
             let c := ((List.range n).map (fun k => (ocfEntry l k, false))).foldl (State.ocfTake d src q) (b.1, [])
             ((a.src src).lastStamp = some t →
               exec (.ingressFrame dt port arr (.ocf l)) s = .next (a.countSrc 0x030B src 1)) ∧
             ((a.src src).lastStamp ≠ some t → b.2 = false →
               exec (.ingressFrame dt port arr (.ocf l)) s = .next (b.1.countSrc 0x030C src 1)) ∧
             ((a.src src).lastStamp ≠ some t → b.2 = true →
               exec (.ingressFrame dt port arr (.ocf l)) s = .next (c.1.accept src t arr [(t, c.2)]))))))) ∧
  (∀ (s : State) (src stamp arr : Nat) (g : List (Nat × List InEntry)),
     let x := (s.accept src stamp arr g).src src
     x.lastStamp = some stamp ∧ x.lastArrival = some arr ∧ x.frames = (s.src src).frames + 1 ∧ x.st = 2 ∧ x.aliveAt = s.now)

/-- R129, R130: a good CFG-2 frame of a source's stream, while no word waits in a FIFO, is in use from now; it sets the state live or
CFG_MISMATCH, or leaves it DEAD, and where the source awaited it asks the station to turn on its data; a source that awaits its CFG
asks again after ING.CFG_RETRY_S; a TCP source whose connection is down tries it every ING.C37_RECONNECT_S, and where the station
answers holds the lowest free connection. R146: a
source whose liveness time has passed without an accepted frame is DEAD: SOURCE_DEAD is recorded, ING_DEAD counts it and the
alarm of the source is raised; one that has time left, or is DEAD already, stays as it is. -/
def Obligations.SourcesAskAndDie : Prop :=
  (∀ (s a : State) (dt src : Nat) (d : SrcDef), s.advance dt = a → a.ingRuns = true → a.srcDef src = some d → d.kind = 1 →
     (∀ (port arr station : Nat) (l : List Byte) (c : C37Cfg), Quiet a → c37Parses l = true → chkGood l = true → c37Type l = 3 →
       a.streamOf (fld l 4 2) station = [(src, d)] → fld l 2 2 = l.length → d.tagRequired = false →
       cfgOf false ((l.drop 14).take (l.length - 16)) = some c →
       let b := a.setSrc src { a.src src with
         cfg := some c, st := if (a.src src).st = 3 then 3 else if cfgMatches d c then 2 else 4 }
       exec (.c37CfgReceived dt ⟨port, arr, station, l⟩) s = .next (if (a.src src).cfg = none then b.c37Send src 2 else b)) ∧
     ((a.src src).cfg = none →
       ((a.src src).cfgAskedAt + sec * a.parN Par.ING.CFG_RETRY_S 0 ≤ a.now →
         exec (.cfgRetryTimer dt src) s = .next ((a.setSrc src { a.src src with cfgAskedAt := a.now }).c37Send src
           (if d.cfg3 then 6 else 5))) ∧
       (a.now < (a.src src).cfgAskedAt + sec * a.parN Par.ING.CFG_RETRY_S 0 → exec (.cfgRetryTimer dt src) s = .next a)) ∧
     (∀ k n, d.c37Tcp = true → (∀ c ∈ a.ctl.tcp, c.2.use = 1 → c.2.owner ≠ src) →
       (a.src src).tcpTriedAt + sec * a.parN Par.ING.C37_RECONNECT_S 0 ≤ a.now →
       let b := a.setSrc src { a.src src with tcpTriedAt := a.now }
       exec (.c37ReconnectTimer dt src false) s = .next b ∧
       (b.freeConn = some k → b.routePort d.station = some n →
         let x : TcpConn := { peer := d.station, port := n, use := 1, owner := src, lastAt := b.now, lport := Config.ownPort k, sent := 0 }
         exec (.c37ReconnectTimer dt src true) s = .next { b with ctl := { b.ctl with tcp := b.ctl.tcp.set k x } }))) ∧
  (∀ (s a : State) (dt src : Nat) (d : SrcDef), s.advance dt = a → a.ingRuns = true → a.srcDef src = some d →
     ((a.src src).st ≠ 3 → (a.src src).aliveAt + a.liveNs src d ≤ a.now →
       ∃ u, exec (.sourceDead dt src) s = .next u ∧ (u.src src).st = 3 ∧ u.alarmOn 3 1 src = true ∧
         u.ctl.cfg = a.ctl.cfg) ∧
     ((a.src src).st = 3 ∨ a.now < (a.src src).aliveAt + a.liveNs src d → exec (.sourceDead dt src) s = .next a))

/-- R8, R58, R64, R147: SOURCE_DEFINE of a definition without fault, less its reserved bits, and SOURCE_REMOVE of a source enter their
command into the maquette under the source's key, and nothing in force changes; while a commit is pending both answer BUSY. R126, R142, R147,
R468: SOURCE_QUERY answers a source's definition in force and its state; with SELECT the maquette's definition, or D 0 and
state 0 where the maquette holds a removal, or as without SELECT where it holds no command; of source 0xFFFF a page of the
learn list. CATALOGUE_READ answers one word for each index. Neither changes anything. -/
def Obligations.SourceCommandsAnswer : Prop :=
  (∀ (s t : State) (dt : Nat) (q : Req) (role : Nat),
     let key := sourceKey (q.bits 4 31 16)
     (Admitted (s.advance dt) q 0x0300 3 1 0 true t role →
       let ws := definitionKept q.payload
       (4 ≤ q.payload.length → t.ctl.commit = none → t.defineStatus ws = 0 → t.ctl.maquette.length < 524288 →
         exec (.sourceDefine dt q) s = .next (replied t { t with ctl := { t.ctl with
           maquette := t.ctl.maquette.set key { session := q.session, val := .define ws } } } q 0x0300 3 [])) ∧
       (t.ctl.commit ≠ none → exec (.sourceDefine dt q) s = .next (turnedAway t q 0x0300 3 0x010B 0))) ∧
     (Admitted (s.advance dt) q 0x0301 3 1 0 true t role →
       (1 ≤ q.payload.length → t.ctl.commit = none → q.bits 4 31 16 ≤ 8191 → t.ctl.maquette.length < 524288 →
         exec (.sourceRemove dt q) s = .next (replied t { t with ctl := { t.ctl with
           maquette := t.ctl.maquette.set key { session := q.session, val := .remove } } } q 0x0301 3 [])) ∧
       (t.ctl.commit ≠ none → exec (.sourceRemove dt q) s = .next (turnedAway t q 0x0301 3 0x010B 0)))) ∧
  (∀ (s t : State) (dt : Nat) (q : Req) (role : Nat),
     let src := q.bits 4 31 16
     let inForce := (t.ctl.cfg.sources.get? src).getD []
     let st := if inForce.isEmpty then 0 else (t.src src).st
     let held := (t.ctl.maquette.get? (sourceKey src)).map MaqEntry.val
     (∀ ws, Admitted (s.advance dt) q 0x0302 3 0 1 true t role → src ≤ 8191 →
       ((q.bits 4 0 0 = 0 ∨ held = none) ∧ ws = t.sourceWords src inForce st) ∨
       (q.bits 4 0 0 = 1 ∧ held = some .remove ∧ ws = t.sourceWords src [] 0) ∨
       (q.bits 4 0 0 = 1 ∧ ∃ defn, held = some (.define defn) ∧ ws = t.sourceWords src defn st) →
       ReplyFits t q (q.w 4 :: ws) → exec (.sourceQuery dt q) s = .next (replied t t q 0x0302 3 (q.w 4 :: ws))) ∧
     (Admitted (s.advance dt) q 0x0302 3 0 1 true t role → src = 0xFFFF → 3 ≤ q.payload.length → 1 ≤ (q.w 6).toNat →
       (q.w 6).toNat ≤ 256 →
       let ws := BitVec.ofNat 32 t.ing.learn.length ::
         ((t.ing.learn.drop (q.w 5).toNat).take (q.w 6).toNat).flatMap (learnWords q.carriage)
       ReplyFits t q ws → exec (.sourceQuery dt q) s = .next (replied t t q 0x0302 3 ws)) ∧
     (Admitted (s.advance dt) q 0x0303 3 0 2 true t role → 1 ≤ q.bits 5 15 0 → q.bits 5 15 0 ≤ 4096 →
       q.bits 4 17 0 + q.bits 5 15 0 ≤ 262144 →
       let ws := BitVec.ofNat 32 (q.bits 5 15 0) ::
         (List.range (q.bits 5 15 0)).map (fun k => catalogueWord (catalogueOf t.ctl.cfg.sources) (q.bits 4 17 0 + k))
       ReplyFits t q ws → exec (.catalogueRead dt q) s = .next (replied t t q 0x0303 3 ws)))

/-! ### Alignment (06) -/

/-- R155, R159, R167 to R171, R177: a slot opens at its nominal time with its awaited set fixed; an open one whose awaited
members have all arrived closes at the first whole microsecond at or after that time with cause AWAITED, else at its deadline
tick with cause DEADLINE; a batch timer and the horizon issue the editions of R169 and R170; a final slot is released once its
hold time is over; a deep-wait edition reaches its consumers once, with POISON on the entries whose words are poisoned; a layout becomes due at a whole multiple of
ALN.OAF_LAYOUT_S. Before its instant each row lets time pass only. -/
def Obligations.SlotsOpenCloseAndRelease : Prop :=
  ∀ (s a : State) (dt pod slot : Nat), s.advance dt = a →
    (slot ≤ a.now → a.mayOpen pod slot = true → ∃ u, exec (.slotOpen dt pod slot) s = .next u ∧
      u.slot? pod slot = some (Slot.fresh (a.podDef pod) (a.awaitedSet (a.podDef pod))) ∧ (u.podSt pod).timed = some slot) ∧
    (a.now < slot ∨ a.mayOpen pod slot = false → exec (.slotOpen dt pod slot) s = .next a) ∧
    (∀ x, a.slot? pod slot = some x → x.closed = false →
      (x.defn.policy ≠ 0 → x.allArrived = true → ceilTo 1000 slot ≤ a.now →
        exec (.slotCloseAtNominal dt pod slot) s = .next (a.closeSlot pod slot 0)) ∧
      (a.now < ceilTo 1000 slot → exec (.slotCloseAtNominal dt pod slot) s = .next a) ∧
      (x.defn.policy = 0 ∨ x.allArrived = false → ceilTo 1000 (slot + x.defn.waitNs) ≤ a.now →
        exec (.slotDeadlineTick dt pod slot) s = .next (a.closeSlot pod slot 1)) ∧
      (a.now < ceilTo 1000 (slot + x.defn.waitNs) → exec (.slotDeadlineTick dt pod slot) s = .next a)) ∧
    (∀ x t, a.slot? pod slot = some x → x.batchAt = some t →
      (t ≤ a.now → exec (.revBatchExpiry dt pod slot) s = .next (a.batchExpiry pod slot 5)) ∧
      (a.now < t → exec (.revBatchExpiry dt pod slot) s = .next a)) ∧
    (∀ x, a.slot? pod slot = some x → x.closed = true →
      (x.horizonAt ≤ a.now → exec (.revHorizonExpiry dt pod slot) s = .next (a.finish pod slot 6)) ∧
      (a.now < x.horizonAt → exec (.revHorizonExpiry dt pod slot) s = .next a) ∧
      (x.final = true → x.horizonAt + x.defn.holdNs ≤ a.now → slot ≤ a.now →
        exec (.slotRelease dt pod slot) s = .next ((a.releaseSlot pod slot).pruneDests pod)) ∧
      (a.now < x.horizonAt + x.defn.holdNs → exec (.slotRelease dt pod slot) s = .next a) ∧
      (x.ready = true → exec (.deepWaitEditionReady dt pod slot) s = .next a) ∧
      (x.ready = false → ∃ u y, exec (.deepWaitEditionReady dt pod slot) s = .next u ∧ u.slot? pod slot = some y ∧
        y = { x with ready := true, entries := poisonEntries (a.takeWords 68).2 x.entries })) ∧
    (a.podOn pod = true → a.parN Par.ALN.OAF_LAYOUT_S pod ≠ 0 →
      (a.now / sec % a.parN Par.ALN.OAF_LAYOUT_S pod = 0 →
        exec (.oafLayoutRepeat dt pod) s = .next (a.setPod pod { a.podSt pod with layoutRep := true })) ∧
      (a.now / sec % a.parN Par.ALN.OAF_LAYOUT_S pod ≠ 0 → exec (.oafLayoutRepeat dt pod) s = .next a))

/-- R159, R162, R163, R170: closing an open slot leaves it closed from now with its cause, the awaited members that have not
arrived missing, its horizon at the first whole microsecond at or after now plus ALN.HORIZON, and one entry for each position
in order: the one that arrived, or the one that the substitution rule gives. -/
def Obligations.ClosingFillsTheSlot : Prop :=
  ∀ (a : State) (pod slot cause : Nat) (x : Slot), a.slot? pod slot = some x → x.closed = false →
    ∃ y, (a.closeSlotCore pod slot cause).slot? pod slot = some y ∧ y.closed = true ∧ y.causes = [cause] ∧
      y.closedAt = a.now ∧ y.missing = x.awaited.filter (fun m => !x.arrived.contains m) ∧
      y.horizonAt = ceilTo 1000 (a.now + x.defn.horizonNs) ∧ y.entries.keys = List.range x.defn.positions.length ∧
      (∀ i p, x.defn.positions[i]? = some p →
        y.entries.get? i = some (a.closeEntry (a.podSt pod) slot x i p)) ∧
      (∀ i e, i < x.defn.positions.length → x.entries.get? i = some e → y.entries.get? i = some e)

/-- R156: an entry that names a position already PRESENT in the slot is discarded and counted in ALN_REPEAT; the entry written
first stands; so too with late entries. -/
def Obligations.RepeatedEntriesAreDiscarded : Prop :=
  ∀ (a : State) (pod slot pos stamp arrival : Nat) (e : Entry) (x : Slot), a.slot? pod slot = some x → x.present pos = true →
    (x.closed = false → a.putEntry pod slot pos stamp arrival e = a.count2 0x0408 (pod + 1) 1) ∧
    (x.closed = true → x.final = false → a.now < x.horizonAt → a.alnDraining = false → x.defn.revisions = true →
      a.putEntry pod slot pos stamp arrival e = a.count2 0x0408 (pod + 1) 1) ∧
    ((a.count2 0x0408 (pod + 1) 1).slot? pod slot = some x)

/-- R178 to R181: POD_READ_SLOT of positions of a closed slot answers the edition asked for, one that is not held
SLOT_NOT_HELD; POD_SUBSCRIBE adds or removes the requester's subscription and answers how many are held; commands 1 and 2 of a
destination's peer turn its C37.118.2 output off and on, 5 and 6 have the CFG-2 and CFG-3 configuration sent, and any other is
counted. -/
def Obligations.PodsAreReadAndSubscribed : Prop :=
  ∀ (s t : State) (dt : Nat) (q : Req) (role : Nat),
    (Admitted (s.advance dt) q 0x0310 4 1 5 true t role →
      let p := q.bits 4 31 24
      let g := nsOf (q.dw 5)
      let first := q.bits 7 17 0
      let count := q.bits 8 15 0
      p ≤ 63 → 1 ≤ count → count ≤ 8000 → t.podOn p = true → gtfValid (q.dw 5) = true →
      (∀ x, t.slot? p g = some x → x.closed = true →
        let n := if q.bits 4 8 8 = 1 then x.edition else q.bits 4 3 0
        let ws := [BitVec.ofNat 32 (p * 2 ^ 24 + n * 2 ^ 20 + x.causes.getD n 0 * 2 ^ 16 + bitAt x.final 1 + 1),
            BitVec.ofNat 32 x.defn.positions.length, BitVec.ofNat 32 count] ++
          (((x.view n).drop first).take count).flatMap (fun y => [y.v, y.q])
        n ≤ x.edition → first + count ≤ x.defn.positions.length → ReplyFits t q ws →
        exec (.podReadSlot dt q) s = .next (replied t t q 0x0310 4 ws)) ∧
      (t.slot? p g = none → isGrid (t.parN Par.ALN.SLOT_RATE p) g = true →
        exec (.podReadSlot dt q) s = .next (turnedAway t q 0x0310 4 0x0127 0))) ∧
    (∀ d, Admitted (s.advance dt) q 0x0311 4 1 1 true t role → subscriber q = some d →
      let p := q.bits 4 31 24
      let rest := t.ctl.subs.filter (fun x => !(x.pod == p && x.dest == d))
      p ≤ 63 →
      (q.bits 4 0 0 = 0 → exec (.podSubscribe dt q) s = .next (replied t { t with ctl := { t.ctl with subs := rest } } q 0x0311 4
        [BitVec.ofNat 32 rest.length])) ∧
      (q.bits 4 0 0 = 1 → q.bits 4 1 1 = 0 → t.podOn p = true → rest.length < 16 →
        exec (.podSubscribe dt q) s = .next (replied t
          { t with ctl := { t.ctl with subs := rest ++ [{ pod := p, dest := d, layout := false }] } } q 0x0311 4
          [BitVec.ofNat 32 (rest.length + 1)])) ∧
      (q.bits 4 0 0 = 1 → q.bits 4 1 1 = 1 → t.podOn p = true → rest.length < 16 →
        let u : State := { t with ctl := { t.ctl with subs := rest ++ [{ pod := p, dest := d, layout := true }] } }
        exec (.podSubscribe dt q) s = .next (replied t (if t.podOut then u.podDataTo p d false (u.podDef p).layoutOut else u)
          q 0x0311 4 [BitVec.ofNat 32 (rest.length + 1)])) ∧
      (q.bits 4 0 0 = 1 → t.podOn p = false → exec (.podSubscribe dt q) s = .next (turnedAway t q 0x0311 4 0x010E 0))) ∧
    (∀ (a : State) (dest : Nat) (peer : Peer) (d : PodDef), s.advance dt = a → a.measuring = true → a.runs 4 = true →
      a.c37Peer (dest / 4) (dest % 4) peer = some d →
      let x : Nat × List Word := (dest, d.dests.getD (dest % 4) [])
      let on := a.aln.txOn.filter (fun y => y != x)
      let off := a.aln.txOff.filter (fun y => y != x)
      exec (.c37OutputCommand dt dest peer 1) s = .next { a with aln := { a.aln with txOn := on, txOff := off ++ [x] } } ∧
      exec (.c37OutputCommand dt dest peer 2) s = .next { a with aln := { a.aln with txOn := on ++ [x], txOff := off } } ∧
      exec (.c37OutputCommand dt dest peer 5) s = .next (a.c37SendConfig (dest / 4) (dest % 4) d false) ∧
      exec (.c37OutputCommand dt dest peer 6) s = .next (a.c37SendConfig (dest / 4) (dest % 4) d true) ∧
      (∀ n, n ≠ 1 → n ≠ 2 → n ≠ 5 → n ≠ 6 →
        exec (.c37OutputCommand dt dest peer n) s = .next (a.countPod 0x040E (dest / 4) 1)))

/-! ### Oscillation, armature, balance (07, 08) -/

/-- R190 to R193: a detector takes a slot once; a bad value counts in FD_BAD and its run of bad slots, a good one goes through
the band-pass; a run that reaches MOD.FD_BAD_LIMIT enters INPUT_LOST with the alarm out, the counts and the mean square zero
and the warm-up to come; a full run of slots at or above the level picks up. R198, R199, R202 to R204, R209: a tracker that is
on reads its next slot once it is due; after MOD.MT_UPDATE_SLOTS slots an extraction starts, with the signals that may rejoin
back in, or, while one runs, is skipped and counted; a finished one counts in the updates and, where the tracker is not
running, sends MODE_UPDATE every MOD.MT_REPORT_EVERY of them; a dropped signal valid for 10 s is marked to rejoin. -/
def Obligations.DetectorsAndTrackersFollowTheirSlots : Prop :=
  (∀ (s a : State) (dt d slot : Nat) (x : Slot), s.advance dt = a → a.measuring = true → a.runs 7 = true →
     a.parB Par.MOD.FD_ENABLE d = true → a.slot? (a.fdPod d) slot = some x → x.closed = true → x.ready = true →
     (slot < (a.fd d).fromGtf → exec (.fdEvaluate dt d slot) s = .next a) ∧
     ((a.fd d).fromGtf ≤ slot →
       (∀ l, (a.fd d).lastGtf = some l → slot ≤ l →
         exec (.fdEvaluate dt d slot) s = .next (a.count2 0x0703 (d + 1) 1)) ∧
       (((a.fd d).lastGtf.all (fun l => decide (l < slot))) = true →
         let r := x.defn.rate
         let missed := match (a.fd d).lastGtf with
           | some l => gridIndex r slot - gridIndex r l - 1
           | none => 0
         let c := a.setFd d { a.fd d with lastGtf := some slot }
         let b := if missed = 0 then c else c.fdBad d slot missed false
         let e := x.entryAt 0 (a.fdPos d)
         (entryBad (a.parB Par.MOD.FD_USE_SUBST d) e = true →
           exec (.fdEvaluate dt d slot) s = .next ((b.count2 0x0702 (d + 1) 1).fdBad d slot 1 (qHas e.quality qTest))) ∧
         (entryBad (a.parB Par.MOD.FD_USE_SUBST d) e = false →
           exec (.fdEvaluate dt d slot) s = .next (b.fdValid d slot e)))) ∧
     (∀ n t, a.parN Par.MOD.FD_BAD_LIMIT d ≤ (a.fd d).badRun + n → (a.fd d).lost = false →
       let f := (a.fdBad d slot n t).fd d
       f.lost = true ∧ f.picked = false ∧ f.above = 0 ∧ f.below = 0 ∧ f.m = 0) ∧
     ((a.fd d).picked = false → a.parN Par.MOD.FD_PICKUP_SLOTS d ≤ (a.fd d).above →
       (a.fd d).below < a.parN Par.MOD.FD_DROP_SLOTS d → ((a.fdJudge d slot).fd d).picked = true)) ∧
  (∀ (s a : State) (dt t : Nat), s.advance dt = a → a.measuring = true → a.runs 7 = true →
     let m := a.mt t
     (m.st ≠ 0 → a.mtDue t = true → exec (.mtSlotRead dt t) s = .next (a.mtRead t (a.mtNext t))) ∧
     (a.mtDue t = false → exec (.mtSlotRead dt t) s = .next a) ∧
     (m.st = 1 ∨ m.st = 2 → a.parN Par.MOD.MT_UPDATE_SLOTS t ≤ m.count →
       (m.running = true → exec (.mtExtractionStart dt t) s =
         .next ((a.setMt t { m with count := 0 }).count2 0x0706 (t + 1) 1)) ∧
       (m.running = false → exec (.mtExtractionStart dt t) s = .next (a.mtStart t) ∧ (a.mtStart t).mt t = { m with
         count := 0, running := true, dropped := m.dropped.filter (fun k => !m.rejoin.contains k), rejoin := []
         sub := Config.mtSubspace m.cov (a.parN Par.MOD.MT_ORDER t) m.sub, subGtf := m.estGtf
         subOf := ((a.mtSignals t).filter (fun k => !m.dropped.contains k.1)).map Prod.fst })) ∧
     (m.count < a.parN Par.MOD.MT_UPDATE_SLOTS t → exec (.mtExtractionStart dt t) s = .next a) ∧
     (m.running = true →
       let b := (a.setMt t { m with running := false, update := m.update + 1 }).count2 0x0705 (t + 1) 1
       (m.st = 2 → exec (.mtExtractionDone dt t) s = .next (b.mtModes t)) ∧
       (m.st ≠ 2 → 1 ≤ a.parN Par.MOD.MT_REPORT_EVERY t → exec (.mtExtractionDone dt t) s = .next
         (if (m.update + 1) % a.parN Par.MOD.MT_REPORT_EVERY t = 0 then b.modeUpdate t m.subGtf else b))) ∧
     (m.running = false → exec (.mtExtractionDone dt t) s = .next a) ∧
     (∀ k, m.dropped.contains k = true → m.st ≠ 3 → 10 * a.mtSlotRate t ≤ m.valid.getD k 0 →
       exec (.mtSignalRejoin dt t k) s =
         .next (a.setMt t { m with rejoin := m.rejoin.filter (fun j => j != k) ++ [k] })) ∧
     (∀ k, m.dropped.contains k = true → m.st = 3 → 10 * a.mtSlotRate t ≤ m.valid.getD k 0 →
       exec (.mtSignalRejoin dt t k) s =
         .next ((a.setMt t { m with dropped := m.dropped.filter (fun j => j != k) }).mtSuspend t a.now)) ∧
     (∀ k, m.dropped.contains k = false ∨ m.valid.getD k 0 < 10 * a.mtSlotRate t →
       exec (.mtSignalRejoin dt t k) s = .next a))

/-- R217 to R219: a branch's change of state counts and starts a recompute with that stamp, or joins the next one while one
runs; a report of the state it has changes nothing; a land that has held a level for
ARM.DIN_DEBOUNCE_US keeps it and reports the branches that read it; an intermediate state of ARM.TRAVEL_MS
becomes a bad report, which raises STATUS_BAD; a finished recompute advances TOPO_SEQ and its count and, where changes wait,
the next starts. R221, R229 to R231: a network takes a first edition once; a balance group judges an edition once, one whose terms are
all good against its tolerance, and counts one with a bad term; the interval that holds it takes a final edition once, and closes
when it is over and no slot of it can still become final, with its report and its record. -/
def Obligations.BranchesNetworksAndBalances : Prop :=
  (∀ (s a : State) (dt br : Nat) (d : BranchDef), s.advance dt = a → a.measuring = true → a.runs 8 = true →
     a.branches.find? (fun b => b.1 == br) = some (br, d) →
     (∀ c stamp, (a.branch br).closed = c → exec (.armStatusChange dt br c stamp) s = .next a) ∧
     (∀ c stamp, (a.branch br).closed ≠ c →
       let b := (a.setBranch br { a.branch br with closed := c }).count 0x0802 0 1
       (a.arm.running = false → exec (.armStatusChange dt br c stamp) s = .next (b.startRecompute stamp false)) ∧
       (a.arm.running = true → a.arm.nextStamp = none → exec (.armStatusChange dt br c stamp) s =
         .next { b with arm := { b.arm with nextStamp := some (stamp, false) } })) ∧
     (∀ t, (a.branch br).interAt = some t →
       (t + 1000000 * a.parN Par.ARM.TRAVEL_MS 0 ≤ a.now →
         exec (.travelTimeout dt br) s = .next (a.branchBad br d (some t) a.now false)) ∧
       (a.now < t + 1000000 * a.parN Par.ARM.TRAVEL_MS 0 → exec (.travelTimeout dt br) s = .next a)) ∧
     (∀ land level stamp, land < 8 →
       let held := stamp + 1000 * a.parN Par.ARM.DIN_DEBOUNCE_US land
       let u : State := { a with arm := { a.arm with din := a.arm.din.put false land level }
                                 lands := { a.lands with din := a.lands.din.put false land level } }
       (held ≤ a.now → exec (.dinStatusDebounced dt land level stamp) s = .next (u.dinReport land stamp) ∧
         ((∀ b ∈ a.branches, b.2.kind ≠ 3) → u.dinReport land stamp = u)) ∧
       (a.now < held → exec (.dinStatusDebounced dt land level stamp) s = .next a)) ∧
     ((a.branch br).bad = false → ∃ u, u = a.branchReport br d .bad a.now false ∧ u.alarmOn 8 5 br = true) ∧
     (a.arm.running = true → ∃ u, exec (.armRecomputeDone dt) s = .next u ∧ u.arm.topoSeq = a.arm.topoSeq + 1 ∧
       (u.arm.running = true ↔ a.arm.nextStamp ≠ none)) ∧
     (a.arm.running = false → exec (.armRecomputeDone dt) s = .next a)) ∧
  (∀ (s a : State) (dt g slot : Nat) (x : Slot), s.advance dt = a → a.measuring = true → a.runs 8 = true → x.closed = true →
     (a.slot? (a.parN Par.ARM.NET_POD g) slot = some x → x.ready = true → a.parN Par.ARM.NET_TYPE g ≠ 0 →
       (∀ l, (a.net g).lastGtf = some l → slot ≤ l → exec (.armMeasEvaluate dt g slot) s = .next (a.count 0x0804 0 1)) ∧
       (((a.net g).lastGtf.all (fun l => decide (l < slot))) = true →
         exec (.armMeasEvaluate dt g slot) s = .next (a.armTake g slot x))) ∧
     (a.slot? (a.parN Par.ARM.BAL_POD g) slot = some x → x.ready = true → a.parB Par.ARM.BAL_ENABLE g = true →
       (slot < (a.bal g).fromGtf ∨ x.took.contains (0, g) = true → exec (.balEvaluate dt g slot) s = .next a) ∧
       ((a.bal g).fromGtf ≤ slot → x.took.contains (0, g) = false →
         let b := a.setSlot (a.parN Par.ARM.BAL_POD g) slot { x with took := x.took ++ [(0, g)] }
         let terms := products (a.balTerms g) (a.parB Par.ARM.BAL_USE_SUBST g) x 0
         (terms = none → exec (.balEvaluate dt g slot) s = .next (b.count2 0x0806 (g + 1) 1)) ∧
         (∀ p, terms = some p → exec (.balEvaluate dt g slot) s = .next (b.balJudge g slot p)))) ∧
     (∀ p i, a.slot? p slot = some x → x.final = true → p = a.parN Par.ARM.BAL_POD g → (a.bal g).runs = [i] → i.holds p slot = true →
       (x.took.contains (1, g) = true → exec (.balRecSlot dt g slot) s = .next a) ∧
       (x.took.contains (1, g) = false → exec (.balRecSlot dt g slot) s =
         .next ((a.setSlot p slot { x with took := x.took ++ [(1, g)] }).setBal g { a.bal g with
           runs := [{ i.add x with seen := i.seen + 1 }] }))) ∧
     (∀ i rest, (a.bal g).runs = i :: rest →
       (a.recOver g i = false → exec (.balRecIntervalClose dt g) s = .next a) ∧
       (a.recOver g i = true → exec (.balRecIntervalClose dt g) s = .next (((a.setBal g { a.bal g with
           last := i.report, runs := rest, recFrom := max (a.bal g).recFrom i.stop }).logEv 0x0801 8
             a.now (evPar (f32Of64 (f64Sub i.inSum i.outSum)).toNat g)).recFollow g i.stop))))

/-! ### Custody (09) -/

/-- R237, R239, R248, R249: adding a quantity to a register keeps VALUE below 10^12 and the fine part below 10^9 and loses
nothing modulo the range of ROLL; a gap step adds to no register; a step suppressed by
R242 adds to no register; the last step taken is at or after each step booked, the last one accumulated at or after each that
accumulates. R254, R256: an interval that closes while the store has
room leaves one more record, with the point's next SEQUENCE and the interval's end; with a full store the record is refused
and counted and none is overwritten. -/
def Obligations.RegistersAndProfilesAreKept : Prop :=
  ((∀ (r : Reg) (n : Nat), r.value < 1000000000000 → r.fine < 1000000000 → r.roll < 65536 →
     (r.add n).value < 1000000000000 ∧ (r.add n).fine < 1000000000 ∧ (r.add n).roll < 65536 ∧
     (((r.add n).roll * 1000000000000 + (r.add n).value) * 1000000000 + (r.add n).fine) % (65536 * 10 ^ 21) =
       ((r.roll * 1000000000000 + r.value) * 1000000000 + r.fine + n) % (65536 * 10 ^ 21)) ∧
   (∀ (a : State) (p x y reason : Nat), (a.bookStep p x y (.gap reason)).cus.regs = a.cus.regs ∧
     (a.bookStep p x y (.gap reason)).cus.prov = a.cus.prov ∧ (a.bookStep p x y .below).cus.regs = a.cus.regs ∧
     (a.bookStep p x y .below).cus.prov = a.cus.prov) ∧
   (∀ (a : State) (p x y : Nat) (q : StepQty), ∃ t, ((a.bookStep p x y q).point p).lastTaken = some t ∧ x ≤ t) ∧
   (∀ (a : State) (p x y : Nat) (sgn : Int) (parts : List (Nat × Rat)) (out : Bool),
     ∃ t, ((a.bookStep p x y (.add sgn parts out)).point p).lastStep = some t ∧ x ≤ t)) ∧
  (∀ (a : State) (p stop flags : Nat),
     (a.cus.records.length < 285975 → ∃ r, (a.closeInterval p stop flags).cus.records = a.cus.records ++ [r] ∧ r.point = p ∧
       r.seq = (a.point p).seq + 1 ∧ r.sig = [] ∧ ((a.closeInterval p stop flags).point p).seq = (a.point p).seq + 1) ∧
     (285975 ≤ a.cus.records.length → (a.closeInterval p stop flags).cus.records = a.cus.records ∧
       ((a.closeInterval p stop flags).point p).seq = (a.point p).seq ∧
       ((a.closeInterval p stop flags).point p).refused = true))

/-- R239, R244, R251, R254, R404: a custody point takes the final edition of a slot not yet taken, a slot that never came, or
its own windows up to one that has ended, once each; a sign that has lasted the debounce becomes DIRECTION; in each whole second the totals are saved; a
pulse counts at the PULSE points of its land; at a profile boundary the intervals that are due close; a record is signed, or
kept UNSIGNED while the vault does not sign. Else the rows let time pass only. -/
def Obligations.CustodyRunsInItsRhythm : Prop :=
  ∀ (s a : State) (dt p : Nat), s.advance dt = a → a.measuring = true → a.pwr.pfw = false → a.runs 9 = true →
    let pt := a.point p
    (pt.running = true → pt.defn.kind = 2 →
      (∀ g x, a.slot? pt.defn.pod g = some x → x.closed = true → x.final = true →
        let b := a.bookStep p g (gridAt x.defn.rate (gridIndex x.defn.rate g + 1)) (a.alignedQty p pt.defn x)
        (pt.tail ≤ g → pt.booked g = false →
          exec (.cusStep dt p (.aligned g)) s = .next (b.closeUpTo p (b.cusLimit p)).boundariesDone) ∧
        (g < pt.tail ∨ pt.booked g = true → exec (.cusStep dt p (.aligned g)) s = .next a)) ∧
      (∀ g step, a.slot? pt.defn.pod g = none → isGrid (a.podDef pt.defn.pod).rate g = true → pt.tail ≤ g → g ≤ a.now →
        pt.booked g = false → exec (.cusStep dt p (.lost g step)) s = .next (a.bookStep p g
          (gridAt (a.podDef pt.defn.pod).rate (gridIndex (a.podDef pt.defn.pod).rate g + 1)) (.gap (if step then 5 else 4))))) ∧
    (pt.running = true → pt.defn.kind ≠ 2 → ∀ w, let len := pt.defn.stepNs
      w % len = 0 → pt.tail ≤ w →
        (w + len ≤ a.now → exec (.cusStep dt p (.window w)) s = .next (a.windowsTo p (w + len)) ∧
          (ceilTo len pt.tail = w → a.stepRuns w = true → a.windowsTo p (w + len) = a.windowStep p w)) ∧
        (a.now < w + len → exec (.cusStep dt p (.window w)) s = .next a)) ∧
    (pt.running = true → ∀ t, pt.signSince = some t →
      (pt.tail < t + 1000000 * a.parN Par.CUS.REV_DEBOUNCE_MS p → exec (.directionDebounce dt p) s = .next a) ∧
      (t + 1000000 * a.parN Par.CUS.REV_DEBOUNCE_MS p ≤ pt.tail →
        ∃ u, exec (.directionDebounce dt p) s = .next u ∧ (u.point p).reverse = decide (pt.sign < 0) ∧
          u.alarmOn 9 1 p = decide (pt.sign < 0))) ∧
    (a.now % sec = 0 → ∃ u, exec (.totalsSave dt) s = .next u ∧ u.cus.saveSeq = a.cus.saveSeq + 1 ∧
      (let c := if (a.cus.saveSeq + 1) % 2 = 1 then u.cus.copyA else u.cus.copyB
       c.valid = true ∧ c.regs = a.cus.regs ∧ c.gtf = a.now ∧ c.seq = a.cus.saveSeq + 1)) ∧
    (a.now % sec ≠ 0 → exec (.totalsSave dt) s = .next a) ∧
    (∀ land, exec (.dinPulseEdge dt land false) s =
      .next { a with lands := { a.lands with din := a.lands.din.put false land false } }) ∧
    (a.accounts = [p] → a.pwr.pfwSaved = false → pt.running = true → pt.defn.kind = 3 → ∀ land, a.pulseLand p = some land →
      let second := a.now / sec * sec
      exec (.dinPulseEdge dt land true) s = .next (({ a with lands := { a.lands with din := a.lands.din.put false land true } }
        : State).setPoint p { pt with pulses := pt.pulses.set second (pt.pulses.getD second 0 + 1) })) ∧
    (∀ minutes, exec (.profileBoundary dt minutes) s = .next
      ((a.accounts.filter (fun k => a.parN Par.CUS.PROFILE_MIN k == minutes)).foldl
        (fun b k => b.closeUpTo k (b.cusLimit k)) a).boundariesDone) ∧
    (∀ n r, a.cus.records.find? (fun r => r.point == p && r.seq == n && r.sig.isEmpty) = some r →
      (a.canSign = true → exec (.profileSigned dt p n) s = .next (({ a with cus := { a.cus with
        records := mapProfile a.signProfile p n a.cus.records } } : State).count 0x0D03 0 1)) ∧
      (a.canSign = false → exec (.profileSigned dt p n) s = .next { a with cus := { a.cus with
        records := mapProfile Profile.unsigned p n a.cus.records } }))

/-- R256, R258, R259: CUS_READ_REGISTERS answers the registers of 1 to 256 points and changes nothing; CUS_READ_PROFILE the
held records of a point from a SEQUENCE on, signed where they are not yet, or PROFILE_GAP; CUS_ACK_PROFILE frees the records
up to a SEQUENCE and answers how many; CUS_READ_LEGAL_ID the legally relevant identity, on GLS-4640-A NOT_LEGAL. -/
def Obligations.CustodyAnswersItsCommands : Prop :=
  ∀ (s t : State) (dt : Nat) (q : Req) (role : Nat),
    (Admitted (s.advance dt) q 0x0800 9 0 3 true t role → 1 ≤ (q.w 5).toNat → (q.w 5).toNat ≤ 256 →
      q.bits 4 8 0 + (q.w 5).toNat ≤ 512 →
      let ws := (List.range (q.w 5).toNat).flatMap (fun k => t.registerWords ((q.w 6).getLsbD 0) (q.bits 4 8 0 + k))
      ReplyFits t q ws → exec (.cusReadRegisters dt q) s = .next (replied t t q 0x0800 9 ws)) ∧
    (Admitted (s.advance dt) q 0x0801 9 0 3 true t role → 1 ≤ q.bits 6 15 0 → q.bits 6 15 0 ≤ 100 →
      let held := t.recordsOf (q.bits 4 8 0)
      let n := (q.w 5).toNat
      let l := (held.filter (fun r => decide (n ≤ r.seq))).take (q.bits 6 15 0)
      let freed := 0 < n ∧ n < (held.head?.map Profile.seq).getD ((t.point (q.bits 4 8 0)).seq + 1) ∧ n ≤ (t.point (q.bits 4 8 0)).seq
      (freed → exec (.cusReadProfile dt q) s = .next (turnedAway t q 0x0801 9 0x0124 0)) ∧
      (¬ freed →
        let ws := [BitVec.ofNat 32 l.length, BitVec.ofNat 32 ((held.head?.map Profile.seq).getD 0),
            BitVec.ofNat 32 ((held.getLast?.map Profile.seq).getD 0)] ++
          l.flatMap (fun r => q.carriage.pack (wordsLe (t.readProfile r).words ++ padTo 64 (t.readProfile r).sig))
        let rs := t.cus.records.map (fun r => if r.point = q.bits 4 8 0 ∧ l.any (fun y => y.seq == r.seq) then t.readProfile r else r)
        ReplyFits t q ws → exec (.cusReadProfile dt q) s = .next (replied t
          (({ t with cus := { t.cus with records := rs } } : State).count 0x0D03 0
            (l.filter (fun r => r.sig.isEmpty && t.canSign)).length) q 0x0801 9 ws))) ∧
    (Admitted (s.advance dt) q 0x0802 9 1 2 true t role →
      let mine := t.cus.records.filter (fun r => (q.w 4).getLsbD 31 || r.point == q.bits 4 8 0)
      let gone := fun (r : Profile) => ((q.w 4).getLsbD 31 || r.point == q.bits 4 8 0) && decide (r.seq ≤ (q.w 5).toNat)
      (q.w 5 = 0 ∨ ∃ r ∈ mine, (q.w 5).toNat ≤ r.seq) →
      exec (.cusAckProfile dt q) s = .next (replied t { t with cus := { t.cus with
        records := t.cus.records.filter (fun r => !gone r) } } q 0x0802 9 [BitVec.ofNat 32 (mine.filter gone).length])) ∧
    (Admitted (s.advance dt) q 0x0805 9 0 0 true t role →
      (t.ident.variantM = false → exec (.cusReadLegalId dt q) s = .next (turnedAway t q 0x0805 9 0x0118 0)) ∧
      (t.ident.variantM = true →
        let legal := padTo 40 ((if t.pwr.bank = 0 then t.pwr.bank0.bytes else t.pwr.bank1.bytes).drop 24)
        let ws := q.carriage.pack (legal.take 8) ++ q.carriage.pack (legal.drop 8) ++
          [BitVec.ofNat 32 (bitAt t.sealedBit 0 + bitAt t.vlt.latch 1 + bitAt t.provisional 2)] ++
          words64 t.cus.sealCtr.toNat ++ q.carriage.pack t.cus.sealHash
        ReplyFits t q ws → exec (.cusReadLegalId dt q) s = .next (replied t t q 0x0805 9 ws)))

/-! ### The vault (14) -/

/-- R357: the checks of an update message run in order and the first that fails answers: DEVICE_ID, COUNTER, SIGNER,
SIGNATURE, the tamper latch (SET_ANCHOR and REKEY_ROOT excepted), a frozen or full metrological log where the change is logged
there, an operation in progress. -/
def Obligations.UpdateMessagesFailAtTheFirstCheck : Prop :=
  ∀ (t : State) (q : Req) (x : KeyMsg),
    (q.dw 4 ≠ t.ident.deviceId.toNat → t.keyStatus q x = 0x0112) ∧
    (q.dw 4 = t.ident.deviceId.toNat → q.dw 6 ≤ t.vaultCtr.toNat → t.keyStatus q x = 0x0111) ∧
    (q.dw 4 = t.ident.deviceId.toNat → t.vaultCtr.toNat < q.dw 6 →
      (t.signerOk q x = false → t.keyStatus q x = 0x0109) ∧
      (t.signerOk q x = true → signedBy q (t.signerKey x) = false → t.keyStatus q x = 0x0113) ∧
      (t.signerOk q x = true → signedBy q (t.signerKey x) = true →
        (t.vlt.latch = true → x.inv = true ∨ (x.op ≠ 1 ∧ x.op ≠ 2) → t.keyStatus q x = 0x0110) ∧
        (t.vlt.latch = false →
          (t.keyLogged x = true → t.evt.met.freeze ≠ none → t.keyStatus q x = 0x0126) ∧
          (t.keyLogged x = true → t.evt.met.freeze = none → 32768 ≤ t.evt.met.mram.length + t.evt.met.buf.length →
            t.keyStatus q x = 0x010F) ∧
          (t.keyLogged x = false → t.vlt.journal ≠ none → t.keyStatus q x = 0x010B) ∧
          (t.keyLogged x = false → t.vlt.journal = none → t.keyStatus q x = t.keyFields q x))))

/-- R355 to R360: an update message that passes every check waits in the journal with its counter, and is answered at its
COMMIT; one that fails counts and is recorded with its status, and answered with it; what the packet names decides, whichever
row it comes as. R257, R258: a sealed message that passes every check waits in the journal; a second one answers BUSY; one
that fails is answered and changes nothing; GLS-4640-A answers NOT_LEGAL. -/
def Obligations.VaultMessagesEnterTheJournal : Prop :=
  (∀ (s t : State) (dt : Nat) (q : Req) (role : Nat),
     (Admitted (s.advance dt) q 0x0600 0x0D 0 24 true t role →
       let x := keyMsgOf q false
       let refused := fun (st : Nat) => (((t.count 0x0D02 0 1).logEv 0x0D02 0x0D t.now (BitVec.ofNat 64 (x.op * 2 ^ 56 +
         x.slot * 2 ^ 48 + st)))).answer (t.sessionKey q) q 0x0600 0x0D (st, [detail 0xFFFF 0])
       ∀ c ∈ [Instr.keyUpdateSetAnchor dt q, .keyUpdateRekeyRoot dt q, .keyUpdateGenerate dt q, .keyUpdateDerive dt q,
           .keyUpdateLoadWrapped dt q, .keyUpdateLoadPublic dt q],
         (∀ b op, t.up = true → t.keyStatus q x = 0 → t.keyEffect q x = (b, .ok op) →
           exec c s = .next ({ b with vlt := { b.vlt with
             journal := some { req := q, op := op, code := x.op, slot := x.slot, counter := BitVec.ofNat 64 (q.dw 6)
                               metro := t.keyLogged x } } }.owe q 0x0600 0x0D)) ∧
         (∀ b st, t.keyStatus q x = 0 → t.keyEffect q x = (b, .error st) → exec c s = .next (refused st)) ∧
         (t.keyStatus q x ≠ 0 → exec c s = .next (refused (t.keyStatus q x)))) ∧
     (Admitted (s.advance dt) q 0x0601 0x0D 0 24 true t role →
       let x := keyMsgOf q true
       (t.up = true → t.keyStatus q x = 0 → exec (.keyInvalidate dt q) s = .next ({ t with vlt := { t.vlt with
         journal := some { req := q, op := .invalidate x.slot, code := x.op, slot := x.slot
                           counter := BitVec.ofNat 64 (q.dw 6), metro := t.keyLogged x } } }.owe q 0x0601 0x0D)) ∧
       (t.keyStatus q x ≠ 0 → exec (.keyInvalidate dt q) s = .next
         ((((t.count 0x0D02 0 1).logEv 0x0D02 0x0D t.now (BitVec.ofNat 64 (x.op * 2 ^ 56 + x.slot * 2 ^ 48 +
           t.keyStatus q x)))).answer (t.sessionKey q) q 0x0601 0x0D (t.keyStatus q x, [detail 0xFFFF 0]))))) ∧
  (∀ (s t : State) (dt : Nat) (q : Req) (role : Nat),
     (Admitted (s.advance dt) q 0x0803 9 0 22 true t role →
       let x := sealMsgOf q false
       ∀ c ∈ [Instr.cusSealSeal dt q, .cusSealBreak dt q, .cusSealClearRegisters dt q],
         (∀ b op, t.up = true → t.sealStatus q x = 0 → t.vlt.journal = none → t.sealBody x = (b, .ok op) →
           exec c s = .next ({ b with vlt := { b.vlt with journal := some { req := q, op := op, code := x.op, slot := 0xFF
                                                                            counter := BitVec.ofNat 64 (q.dw 6), metro := true } } }.owe
             q 0x0803 9)) ∧
         (t.sealStatus q x = 0 → t.vlt.journal ≠ none → exec c s = .next (turnedAway t q 0x0803 9 0x010B 0)) ∧
         (t.sealStatus q x ≠ 0 → exec c s = .next (turnedAway t q 0x0803 9 (t.sealStatus q x) 0)) ∧
         (t.ident.variantM = false → exec c s = .next (turnedAway t q 0x0803 9 0x0118 0))) ∧
     (Admitted (s.advance dt) q 0x0804 9 0 22 true t role →
       let x := sealMsgOf q true
       (∀ b op, t.up = true → t.sealStatus q x = 0 → t.vlt.journal = none → t.sealBody x = (b, .ok op) →
         exec (.cusSealedUpdate dt q) s = .next ({ b with vlt := { b.vlt with
           journal := some { req := q, op := op, code := x.op, slot := 0xFF, counter := BitVec.ofNat 64 (q.dw 6)
                             metro := true } } }.owe q 0x0804 9)) ∧
       (∀ b a, t.sealStatus q x = 0 → t.vlt.journal = none → t.sealBody x = (b, .error (some a)) →
         fits q.carriage (t.sessionKey q).isSome a = true →
         exec (.cusSealedUpdate dt q) s = .next (b.answer (t.sessionKey q) q 0x0804 9 a)) ∧
       (t.ident.variantM = false → exec (.cusSealedUpdate dt q) s = .next (turnedAway t q 0x0804 9 0x0118 0))))

/-- R258, R350, R358, R360, R363: the COMMIT of the operation in the journal empties it and sets both counter copies: a load
puts the key into its slot with a new generation, REKEY_ROOT a fresh root key into slot 1 and clears the latch, an
invalidation takes away the key and VALID, SEAL sets SEALED and unfreezes the legal registers, BREAK clears SEALED,
CLEAR_REGISTERS zeroes the registers of its points. -/
def Obligations.JournalCommitApplies : Prop :=
  ∀ (s a : State) (dt : Nat) (j : Journal), s.advance dt = a → a.up = true → a.pwr.pfw = false → a.vlt.journal = some j →
    ∃ u, exec (.vaultJournalCommit dt) s = .next u ∧ u.vlt.journal = none ∧ u.vlt.ctrPlinth = j.counter ∧
      u.vlt.ctrMram = j.counter ∧
      (∀ n k x, j.op = .key n k x → (u.keySlot k).secret = x.secret ∧ (u.keySlot k).pub = x.pub ∧ (u.keySlot k).ty = x.ty ∧
        (u.keySlot k).attr = x.attr ∧ (u.keySlot k).gen = ((a.keySlot k).gen + 1) % 65536) ∧
      (∀ r, j.op = .rekey r → u.vlt.latch = false ∧ (u.keySlot 1).secret = r ∧ (u.keySlot 1).usable = true) ∧
      (∀ k, j.op = .invalidate k → (u.keySlot k).secret = [] ∧ (u.keySlot k).usable = false) ∧
      (j.op = .seal → u.cus.sealed = true ∧ u.cus.sealCtr = j.counter ∧ u.cus.frozen = false) ∧
      (j.op = .break_ → u.cus.sealed = false ∧ u.cus.sealCtr = j.counter) ∧
      (∀ ps, j.op = .clear ps → ∀ p ∈ ps, ∀ n < 8, u.reg false p n = Reg.init ∧ u.reg true p n = Reg.init)

/-- R351, R354, R361, R364: SIGN with a usable signing key that is no metrology key answers the signature over the digest, for
slot 0 over the attestation with the counter, in SAFE NOT_AUTHORISED or TAMPERED; VERIFY OK or BAD_SIGNATURE, counted;
KEY_INFO what a slot holds, with EXPORT the wrapped key under a fresh draw; DEVICE_CERT a piece of the certificate;
COUNTER_READ the counter, its copies and the journal's state. -/
def Obligations.VaultAnswersItsCommands : Prop :=
  ∀ (s t : State) (dt : Nat) (q : Req) (role : Nat),
    let n := q.bits 4 7 0
    let k := t.keySlot n
    (Admitted (s.advance dt) q 0x0603 0x0D 1 9 true t role →
      (t.pwr.dev = .safe → exec (.sign dt q) s =
        .next (turnedAway t q 0x0603 0x0D (if t.vlt.latch = true then 0x0110 else 0x0109) 0)) ∧
      (t.pwr.dev ≠ .safe → n ≤ 127 → k.usable = true → k.ty = 1 → k.has 0 = true → k.has 7 = false →
        let digest := if n = 0 then sha256 (ascii "GLENIS-ATTEST-V1" ++ t.idBytes ++ leBytes 8 t.vaultCtr.toNat ++ q.bytes 5 32)
          else q.bytes 5 32
        let ws := q.carriage.pack (p256SignWith (ofBe k.secret) (p256Nonce (ofBe k.secret) digest) digest) ++
          (if n = 0 then words64 t.vaultCtr.toNat else [0, 0])
        ReplyFits t q ws → exec (.sign dt q) s = .next (replied t (t.count 0x0D03 0 1) q 0x0603 0x0D ws))) ∧
    (Admitted (s.advance dt) q 0x0604 0x0D 0 41 true t role →
      n = 0xFF ∨ (n ≤ 127 ∧ k.usable = true ∧ (k.ty = 1 ∨ k.ty = 2) ∧ k.has 1 = true) →
      let good := p256Verify (if n = 0xFF then q.bytes 13 64 else k.pub) (q.bytes 5 32) (q.bytes 29 64)
      (good = true → exec (.verify dt q) s = .next (replied t t q 0x0604 0x0D [])) ∧
      (good = false → exec (.verify dt q) s =
        .next ((t.count 0x0D04 0 1).answer (t.sessionKey q) q 0x0604 0x0D (0x0113, [detail 0xFFFF 0])))) ∧
    (Admitted (s.advance dt) q 0x0602 0x0D 0 1 true t role →
      ((q.w 4).getLsbD 8 = false → n ≤ 127 → ReplyFits t q (keyWords q.carriage k) →
        exec (.keyInfo dt q) s = .next (replied t t q 0x0602 0x0D (keyWords q.carriage k))) ∧
      ((q.w 4).getLsbD 8 = true → n ≤ 127 → 4 ≤ q.payload.length → 2 ≤ role → k.usable = true → k.has 9 = true →
        q.bits 4 23 16 ≤ 127 → (t.keySlot (q.bits 4 23 16)).usable = true → (t.keySlot (q.bits 4 23 16)).has 5 = true →
        (t.keySlot (q.bits 4 23 16)).has 2 = true →
        let sealed := gcmSeal (wrapKey (t.keySlot (q.bits 4 23 16)).material (leBytes 8 (q.dw 6)) (q.bits 5 7 0) k.ty)
          (t.draw.2.take 12) ((List.range 32).map (Config.exportData n (q.bits 5 7 0) (BitVec.ofNat 64 (q.dw 6)))) k.secret
        let ws := keyWords q.carriage k ++ q.carriage.pack (t.draw.2.take 12 ++ sealed.1 ++ sealed.2)
        ReplyFits t q ws → exec (.keyInfoExport dt q) s = .next (replied t t.draw.1 q 0x0602 0x0D ws))) ∧
    (Admitted (s.advance dt) q 0x0605 0x0D 0 3 true t role → (q.w 6).toNat % 4 = 0 → 4 ≤ (q.w 6).toNat → (q.w 6).toNat ≤ 4096 →
      (q.w 5).toNat ≤ Config.certLength (q.bits 4 0 0) →
      let m := min (q.w 6).toNat (Config.certLength (q.bits 4 0 0) - (q.w 5).toNat)
      let ws := [BitVec.ofNat 32 (Config.certLength (q.bits 4 0 0)), BitVec.ofNat 32 m] ++
        q.carriage.pack ((List.range m).map (fun i => Config.certByte (q.bits 4 0 0) ((q.w 5).toNat + i)))
      ReplyFits t q ws → exec (.deviceCert dt q) s = .next (replied t t q 0x0605 0x0D ws)) ∧
    (Admitted (s.advance dt) q 0x0606 0x0D 0 0 true t role → exec (.counterRead dt q) s = .next (replied t t q 0x0606 0x0D
      (words64 t.vaultCtr.toNat ++ words64 t.vlt.ctrPlinth.toNat ++ words64 t.vlt.ctrMram.toNat ++
        [BitVec.ofNat 32 (bitAt t.vlt.journal.isSome 0 + bitAt t.vlt.latch 1)])))

/-- R353, R367, R369, R370, R371: a tamper from a source that is watched sets the latch and zeroes slot 1; in RUN, CONFIG or SAFE it
takes the module to SAFE, ends every session, clears SEALED and freezes the legal registers; the working keys of types 1, 3, 4
and 5 are erased, with attribute word 0 and parent 0xFF, and persistent keys of type 2 and slot 0 stand; from a source that is
not watched it does nothing. R369: memory lost, found at boot, takes the counter from the copy left, and latches a tamper only where
slot 1 was VALID. A measured supply keeps both voltages; an inserted battery is recorded and counted. -/
def Obligations.TamperLatches : Prop :=
  ∀ (s a : State) (dt src : Nat), s.advance dt = a → src ≠ 11 →
    (a.tamperWatched src = false → exec (.tamperDetected dt src) s = .next a) ∧
    (a.tamperWatched src = true → a.up = true → a.pwr.pfw = false →
      ∃ u, exec (.tamperDetected dt src) s = .next u ∧ u.vlt.latch = true ∧ u.vlt.lastSource = src ∧ (u.keySlot 1).ty = 0 ∧
        u.pwr.dev = .safe ∧ u.ctl.sessions = [] ∧ u.cus.sealed = false ∧ u.cus.frozen = true ∧ u.alarmOn 0x0D 1 0 = true ∧
        (a.vlt.slot.wf = true →
          (∀ k, 3 ≤ k → k ≤ 127 → (a.keySlot k).ty ∈ [1, 3, 4, 5] → (u.keySlot k).ty = 0 ∧ (u.keySlot k).attr = 0 ∧
            (u.keySlot k).parent = 0xFF ∧ (u.keySlot k).secret = [] ∧ (u.keySlot k).pub = []) ∧
          (∀ k, (a.keySlot k).has 10 = true → k = 0 ∨ (a.keySlot k).ty = 2 ∧ 2 ≤ k → u.keySlot k = a.keySlot k))) ∧
    (∀ bat cap, a.powered = true → ∃ u, exec (.supplyMeasurement dt bat cap) s = .next u ∧ u.vlt.vbat = min bat 5000 ∧
      u.vlt.vplc = min cap 5000 ∧ (bat < a.parN Par.VLT.BAT_LOW_MV 0 → u.vlt.batLow = true ∧ u.alarmOn 0x0D 2 0 = true)) ∧
    (a.pwr.dev ≠ .boot → exec (.tamperDetected dt 11) s = .next a) ∧
    (a.pwr.dev = .boot → ∃ u, exec (.tamperDetected dt 11) s = .next u ∧ u.vlt.ctrPlinth = a.vlt.ctrMram ∧
      u.vlt.latch = (a.keySlot 1).has 12 ∧ (u.keySlot 1).has 12 = false) ∧
    exec (.batteryInsertion dt) s = .next { a with vlt := { a.vlt with
      batInsert := some a.now, insertions := a.vlt.insertions + 1 } }

/-! ### Converters, filters, capture (10 to 12) -/

/-- R267, R269, R272, R277, R279, R280: while the array converts, at a whole microsecond each channel's code becomes a sample,
one at the end of the range holds OVR on for three more; an entry of the auxiliary cycle starts at its millisecond; a chop is
taken once at its instant; a free slice starts a cycle, takes the channel over where the comparison is within its limits, and
gives it back; new corrections within their limits come into force. While it does not convert nothing of this happens. R292,
R294, R295: at an output instant of the incoming bank whose span is full of samples the delivered bank changes; a channel
whose bank is the one asked for changes nothing; a local source that is due reports once, in SAFE, CONFIG or RUN. -/
def Obligations.ConvertersAndFiltersRun : Prop :=
  (∀ (s a : State) (dt : Nat), s.advance dt = a →
     (a.converting = true → a.now % 1000 = 0 → ∀ codes : List Int,
       let w := a.takeWords 70
       let i := w.1.takeItem 71
       let bad := fun (k : Nat) => i.2 || (w.2[k]?).any FifoWord.poison
       let b := ((List.range 24).zip codes).foldl (fun (b : State) p => b.sampleMain p.1 p.2 (bad p.1)) i.1
       (codes.length ≤ 24 → exec (.samplingInstant dt codes) s = .next b.refreshExc) ∧
       (∀ code, codes[24]? = some code → exec (.samplingInstant dt codes) s = .next (b.sampleAux code (bad 24)).refreshExc)) ∧
     (∀ c code bad, a.chopAt c a.now = false → code ≤ -32768 ∨ 32767 ≤ code →
       ((a.sampleMain c code bad).chan c).ovrLeft = 3) ∧
     (a.now % 1000 ≠ 0 → ∀ codes, exec (.samplingInstant dt codes) s = .next a) ∧
     (∀ z, a.converting = true → a.now % 1000000 = 0 → a.auxCycle.find? (fun z => z.2.2 * 1000000 == a.auxPlace a.now) = some z →
       ∃ u, exec (.auxDwellStart dt) s = .next u ∧ u.cnv.auxEntry = some z.1 ∧ u.cnv.auxStart = a.now) ∧
     (∀ land x y z, a.converting = true → a.now % 1000 = 0 → a.chopAt land a.now = true →
       ((a.ow land).last ≠ some a.now → ∃ u, exec (.owChop dt land x y z) s = .next u ∧ (u.ow land).last = some a.now) ∧
       ((a.ow land).last = some a.now → exec (.owChop dt land x y z) s = .next a)) ∧
     (∀ x, a.converting = true → a.parB Par.CNV.CAL_ENABLE 0 = true → a.sliceState x = 1 → a.cnv.cycle.get? x = none →
       a.failedSlices < 2 → a.cnv.calAt.get? x = none → (∀ d ∈ a.ctl.drain, d.1 ≠ 5) →
       ∃ u, exec (.calCycleStart dt x) s = .next u ∧ u.sliceState x = 2) ∧
     (∀ x c n m k, a.converting = true → a.cnv.cycle.get? x = some c → c.at_ + 1024000 ≤ a.now → 512 ≤ n → m.natAbs ≤ 32 →
       k.natAbs ≤ 128 → x ≠ c.slice →
       (c.step = 1 → ∃ u, exec (.calComparisonDone dt x n m k) s = .next u ∧ (u.chan c.channel).slice = x ∧
         u.sliceState x = 0 ∧ u.sliceState c.slice = 3) ∧
       (c.step = 4 → ∃ u, exec (.calComparisonDone dt x n m k) s = .next u ∧ (u.chan c.channel).slice = c.slice ∧
         u.sliceState x = 1 ∧ u.sliceState c.slice = 0)) ∧
     (∀ x c slice off gain, a.converting = true →
       a.cnv.cycle.find? (fun z => z.2.step == 3 && decide (z.2.at_ + 4500000000 ≤ a.now) &&
         (if z.2.selfCal then z.1 == slice else z.2.slice == slice)) = some (x, c) →
       off.natAbs ≤ 4096 → (FVal.ofRat 2000).lt (f32Val gain).abs = false → f32IsNan gain = false →
       ∃ u, exec (.calCalibrationDone dt slice off gain) s = .next u ∧ u.calLast slice = (gtfOf a.now, off, gain)) ∧
     (a.converting = false → ∀ codes land x y z, exec (.samplingInstant dt codes) s = .next a ∧
       exec (.owChop dt land x y z) s = .next a ∧ exec (.auxDwellStart dt) s = .next a)) ∧
  (∀ (s a : State) (dt : Nat), s.advance dt = a → a.up = true → a.runs 6 = true →
     (∀ c d, a.parN Par.FLT.BANK c ≠ (a.flt_ c).active → a.bankDue c (a.parN Par.FLT.BANK c) a.now = some d →
       (if a.parN Par.FLT.BANK c = 1 then (a.flt_ c).sinceB else (a.flt_ c).since) ≤ d.first →
       ((a.flt_ c).hist.filter (fun y => decide (d.first ≤ y.t) && decide (y.t < a.now))).length = (a.now - d.first) / 1000 →
       exec (.fltBankSwap dt c) s = .next (a.setFlt c { a.flt_ c with active := a.parN Par.FLT.BANK c })) ∧
     (∀ c, a.parN Par.FLT.BANK c = (a.flt_ c).active → exec (.fltBankSwap dt c) s = .next a) ∧
     (∀ src tau d, a.srcDef src = some d → d.kind = 5 → a.runs 3 = true → isGrid d.rate tau = true →
       (tau ≤ a.now → (a.src src).definedAt ≤ tau → (a.src src).reported.all (fun r => decide (r < tau)) = true →
         exec (.localSourceReport dt src tau) s = .next (a.localReport src d tau)) ∧
       (∀ r, (a.src src).reported = some r → tau ≤ r → exec (.localSourceReport dt src tau) s = .next a)))

/-- R304, R306, R309, R312, R314, R316: a recorder that is armed takes the row of an instant, in its place where it lies behind the
newest, and loses one that finds the staging buffer full; a land's edge keeps its level and fires the triggers that select it; without a trigger for CAP.AUTO_TIMEOUT_MS cause
17 fires; CAP.REARM_MS after a record the recorder is armed again. -/
def Obligations.RecordersRunBetweenCommands : Prop :=
  ∀ (s a : State) (dt n : Nat), s.advance dt = a → a.capRuns = true →
    let r := a.recorder n
    (∀ row es, a.capKind n ≠ 0 → 2 ≤ r.st → r.st ≤ 5 → a.rowEntries n row = some es →
      let b := a.rowTaken n row
      let behind := r.lastRow.any (fun l => decide (row ≤ l))
      let x : CapRow := { t := row, e := es }
      (∀ full, behind = true → exec (.capRow dt n row full) s = .next (b.lateRow n x)) ∧
      (behind = false → exec (.capRow dt n row false) s = .next (b.newRow n x)) ∧
      (behind = false → exec (.capRow dt n row true) s = .next (b.loseRow n row))) ∧
    (∀ row full, r.st < 2 ∨ 5 < r.st ∨ a.rowEntries n row = none → exec (.capRow dt n row full) s = .next a) ∧
    (∀ land rising stamp, land < 8 → exec (.dinTriggerEdge dt land rising stamp) s =
      .next (({ a with lands := { a.lands with din := a.lands.din.put false land rising } } : State).capEvent 1
        (fun k => if k = land then some rising else none) stamp)) ∧
    (a.parN Par.CAP.AUTO_TIMEOUT_MS n ≠ 0 → r.st = 2 ∨ r.st = 3 → r.waiting = [] →
      (r.autoAt + 1000000 * a.parN Par.CAP.AUTO_TIMEOUT_MS n ≤ a.now → exec (.capAutoTimeout dt n) s =
        .next (((a.setRec n { r with autoAt := a.now }).count2 0x0B05 (n + 1) 1).capFire n (a.now, 17))) ∧
      (a.now < r.autoAt + 1000000 * a.parN Par.CAP.AUTO_TIMEOUT_MS n → exec (.capAutoTimeout dt n) s = .next a)) ∧
    (r.st = 5 →
      (r.rearmAt + 1000000 * a.parN Par.CAP.REARM_MS n ≤ a.now → exec (.capRearmEnd dt n) s =
        .next (a.setRec n { r with st := if r.pre ≤ r.rows.length then 3 else 2 })) ∧
      (a.now < r.rearmAt + 1000000 * a.parN Par.CAP.REARM_MS n → exec (.capRearmEnd dt n) s = .next a))

/-- R318 to R323: CAP_ARM of a recorder that is disarmed, with its rows in its region, arms it; CAP_DISARM disarms it and ends
the record being written; CAP_FORCE fires cause 16 on the recorders of its mask and answers those that took it; CAP_RELEASE
frees the records up to an ID, after which a FULL recorder with room pre-fills again; CAP_READ answers headers, and rolling rows
from a time; CAP_SET_REWIND clears a mark, or sets one; CAP_EXPORT answers a piece of a file.
-/
def Obligations.RecordersTakeTheirCommands : Prop :=
  ∀ (s t : State) (dt : Nat) (q : Req) (role : Nat),
    (Admitted (s.advance dt) q 0x0400 0x0B 1 0 true t role →
      let n := q.bits 4 2 0
      let r := t.recorder n
      let given := fun (k : Nat) => if t.capMode n = 2 then 0 else (q.w k).toNat
      (t.measuring = true → t.capKind n ≠ 0 → r.st ≤ 1 → 4 ≤ q.payload.length → given 5 + 1 + given 6 ≤ t.capCapacity n →
        (t.capMode n = 1 → rowsHeld r.recs + (given 5 + 1 + given 6) ≤ t.capCapacity n ∧ r.recs.length < 512) →
        exec (.capArm dt q) s = .next (replied t (t.setRec n { r with
          st := if given 5 = 0 then 3 else 2, pre := given 5, post := given 6, count := given 7, made := 0
          rows := if t.capMode n = 2 then r.rows else [], waiting := [], edge := [], autoAt := t.now, sinceStep := none
          armedAt := t.now, lastRow := none }) q 0x0400 0x0B [])) ∧
      (t.measuring = false ∨ 2 ≤ r.st → exec (.capArm dt q) s = .next (turnedAway t q 0x0400 0x0B 0x010E 0))) ∧
    (Admitted (s.advance dt) q 0x0401 0x0B 1 1 true t role → ∃ b, exec (.capDisarm dt q) s = .next (replied t b q 0x0401 0x0B []) ∧
      (b.recorder (q.bits 4 2 0)).st ≤ 1 ∧
      (2 ≤ (t.recorder (q.bits 4 2 0)).st → (b.recorder (q.bits 4 2 0)).recs.length =
        (t.recorder (q.bits 4 2 0)).recs.length + (t.recorder (q.bits 4 2 0)).cur.toList.length)) ∧
    (Admitted (s.advance dt) q 0x0402 0x0B 1 1 true t role →
      let ns := (List.range 8).filter (fun n => (q.bits 4 7 0).testBit n)
      exec (.capForce dt q) s = .next (replied t (ns.foldl (fun b n => b.capFire n (b.now, 16)) t) q 0x0402 0x0B
        [BitVec.ofNat 32 (((ns.filter (fun n => (t.recorder n).st == 2 || (t.recorder n).st == 3)).map (fun n => 2 ^ n)).sum)])) ∧
    (Admitted (s.advance dt) q 0x0406 0x0B 1 0 true t role →
      let n := q.bits 4 2 0
      let r := t.recorder n
      let kept := r.recs.filter (fun c => decide ((q.w 5).toNat < c.id))
      let again := r.st = 6 ∧ rowsHeld kept + (r.pre + 1 + r.post) ≤ t.capCapacity n
      t.capMode n ≠ 2 → 2 ≤ q.payload.length → (∃ c ∈ r.recs, c.id = (q.w 5).toNat) →
      (¬ again → exec (.capRelease dt q) s = .next (replied t (t.setRec n { r with recs := kept }) q 0x0406 0x0B
        [BitVec.ofNat 32 (r.recs.length - kept.length)])) ∧
      (again → exec (.capRelease dt q) s = .next (replied t (t.setRec n { r with
        recs := kept, st := if r.pre = 0 then 3 else 2, autoAt := t.now }) q 0x0406 0x0B
          [BitVec.ofNat 32 (r.recs.length - kept.length)]))) ∧
    (Admitted (s.advance dt) q 0x0403 0x0B 1 0 true t role → q.bits 4 3 0 = 0 → 1 ≤ (q.w 9).toNat → (q.w 9).toNat ≤ 4096 →
      6 ≤ q.payload.length →
      let all := (t.recorder (q.bits 4 31 29)).all
      let got := (all.filter (fun c => decide ((q.w 5).toNat ≤ c.1.id))).take (q.w 9).toNat
      let ws := [BitVec.ofNat 32 got.length, BitVec.ofNat 32 ((q.w 5).toNat + got.length)] ++
        got.flatMap (fun c => t.recHeader (q.bits 4 31 29) c.1 c.2)
      (∃ c ∈ all, c.1.id = (q.w 5).toNat) → ReplyFits t q ws →
      exec (.capRead dt q) s = .next (replied t t q 0x0403 0x0B ws)) ∧
    (Admitted (s.advance dt) q 0x0403 0x0B 1 0 true t role → q.bits 4 3 0 = 4 → t.capMode (q.bits 4 31 29) = 2 →
      6 ≤ q.payload.length → 1 ≤ (q.w 9).toNat → (q.w 9).toNat ≤ 4096 → gtfValid (q.dw 6) = true →
      let got := (((t.rollRows (q.bits 4 31 29)).filter (fun x => decide (q.dw 6 ≤ gtfOf x.t))).drop (q.w 8).toNat).take (q.w 9).toNat
      let ws := [BitVec.ofNat 32 got.length, BitVec.ofNat 32 ((q.w 8).toNat + got.length)] ++ got.flatMap CapRow.words
      ReplyFits t q ws → exec (.capRead dt q) s = .next (replied t t q 0x0403 0x0B ws)) ∧
    (Admitted (s.advance dt) q 0x0404 0x0B 1 0 true t role → t.capMode (q.bits 4 31 29) = 2 → 3 ≤ q.payload.length →
      let n := q.bits 4 31 29
      let r := t.recorder n
      ((q.w 4).getLsbD 8 = true → exec (.capSetRewind dt q) s = .next (replied t
        (t.setRec n { r with rewind := r.rewind.erase (q.bits 4 1 0) }) q 0x0404 0x0B [0xFFFFFFFF, 0xFFFFFFFF])) ∧
      ((q.w 4).getLsbD 8 = false → gtfValid (q.dw 5) = true →
        let row := ((t.rollRows n).find? (fun x => decide (q.dw 5 ≤ gtfOf x.t))).map CapRow.t
        exec (.capSetRewind dt q) s = .next (replied t
          (t.setRec n { r with rewind := r.rewind.set (q.bits 4 1 0) (row, true) }) q 0x0404 0x0B (words64 (gtfOpt row))))) ∧
    (Admitted (s.advance dt) q 0x0405 0x0B 1 0 true t role → t.capMode (q.bits 4 31 29) ≠ 2 → 4 ≤ q.payload.length →
      4 ≤ (q.w 7).toNat →
      (q.w 7).toNat ≤ 60000 → (q.w 7).toNat % 4 = 0 →
      ∀ c rows, (t.recorder (q.bits 4 31 29)).recs.find? (fun c => c.id == (q.w 5).toNat) = some c →
        t.sectionRows (q.bits 4 31 29) c (q.bits 4 3 0) = some rows →
        let file := if (q.w 4).getLsbD 4 then t.datFile (q.bits 4 31 29) rows
          else t.cfgFile (q.bits 4 31 29) c (q.bits 4 3 0) rows
        let got := (file.drop (q.w 6).toNat).take (q.w 7).toNat
        let ws := [BitVec.ofNat 32 file.length, BitVec.ofNat 32 got.length] ++ q.carriage.pack got
        ReplyFits t q ws → exec (.capExport dt q) s = .next (replied t t q 0x0405 0x0B ws))

/-! ### Logic (13) -/

/-- R333, R334, R339 to R341: at S(n) a scan's snapshot is taken and it executes; at W(n) its outputs are written together; a
GOOSE control block repeats after its interval, which doubles up to MAX_MS; a station to which nothing went for
LGC.STATION_REFRESH_MS gets its frame again; a frame not acknowledged within LGC.ACK_TIMEOUT_MS goes again, and after
LGC.ACK_RETRIES the station is LOST; a control-ack with the command number that waits ends the wait, and one with code 0 ends
RECOVERING too. -/
def Obligations.ScansAndStationsKeepTheirTimes : Prop :=
  ∀ (s a : State) (dt src : Nat), s.advance dt = a →
    let x := a.station src
    (a.lgcDue = true → ∃ u, exec (.lgcScan dt) s = .next u ∧ u.lgc.scanning = true ∧ u.lgc.snap = some a.now ∧
      u.lgc.n = a.lgc.n ∧ u.lands.almLgc = a.lands.almLgc) ∧
    (a.lgcDue = false → exec (.lgcScan dt) s = .next a) ∧
    (∀ im, a.lgc.image = some im → a.lgc.st = 2 → a.lgc.scanning = true → a.lgc.stopReq = none → a.lgc.suspend = false →
      ∃ u, exec (.lgcOutputWrite dt) s = .next u ∧ u.lgc.scanning = false ∧ u.lgc.lastW = some a.now ∧ u.lgc.st = 2 ∧
        u.lands.almLgc = a.lgcLands im ∧ u.lgc.written = (List.range im.vars.length).map (fun i => (i, a.leff i)) ∧
        a.lgc.n < u.lgc.n) ∧
    (∀ im cb g, a.lgc.image = some im → a.lgc.goose.get? cb = some g → a.lgc.st = 2 → g.on = true →
      ((a.par Par.LGC.GOOSE_CB cb).getD 0 0).getLsbD 31 = true →
      let ms := min (2 * g.nextMs) (wordBits (a.par Par.LGC.GOOSE_CB cb) 6 15 0)
      (g.nextAt ≤ a.now → exec (.gooseRepeat dt cb) s = .next (a.gooseSend im cb
        { g with sqNum := gooseNext g.sqNum, nextMs := ms, nextAt := a.now + 1000000 * ms } (a.par Par.LGC.GOOSE_CB cb))) ∧
      (a.now < g.nextAt → exec (.gooseRepeat dt cb) s = .next a)) ∧
    (a.lgc.st = 2 → a.lgc.lastW = some a.now → a.parN Par.LGC.STATION_REFRESH_MS 0 ≠ 0 → x.st ≠ 0 →
      let due := x.sentAt.all (fun t => decide (t + 1000000 * a.parN Par.LGC.STATION_REFRESH_MS 0 ≤ a.now))
      (due = true → x.st ≠ 2 → exec (.stationRefresh dt src) s = .next (a.sendControl src (x.sent.getD []))) ∧
      (due = true → x.st = 2 → exec (.stationRefresh dt src) s = .next (a.count2 0x0A08 (src + 1) 1)) ∧
      (due = false → exec (.stationRefresh dt src) s = .next a)) ∧
    (∀ t, a.lgc.st = 2 → x.waiting = true → x.st = 1 ∨ x.st = 3 → x.sentAt = some t →
      (a.now < t + 1000000 * a.parN Par.LGC.ACK_TIMEOUT_MS 0 → exec (.stationAckTimeout dt src) s = .next a) ∧
      (t + 1000000 * a.parN Par.LGC.ACK_TIMEOUT_MS 0 ≤ a.now →
        (x.unacked + 1 < a.parN Par.LGC.ACK_RETRIES 0 → exec (.stationAckTimeout dt src) s =
          .next (((a.setStation src { x with unacked := x.unacked + 1 }).sendControl src (x.sent.getD [])).count2
            0x0A06 (src + 1) 1)) ∧
        (a.parN Par.LGC.ACK_RETRIES 0 ≤ x.unacked + 1 → ∃ u, exec (.stationAckTimeout dt src) s = .next u ∧
          (u.station src).st = 2 ∧ u.alarmOn 0x0A 2 src = true))) ∧
    (∀ port l d, a.ingRuns = true → ocfParses l = true → fld l 1 1 = 2 →
      let b := (a.takeWords port).1
      let tagged := fld l 3 1 % 2 == 1
      let code := fld l 21 1
      b.identify 3 (beBytes 4 (fld l 8 4)) = some (src, d) →
      fld l 4 2 = l.length → l.length = 24 + 12 * fld l 6 2 + (if tagged then 16 else 0) →
      (b.ocfTag d l tagged = false → exec (.stationControlAck dt port l) s = .next (b.countSrc 0x0307 src 1)) ∧
      (b.ocfTag d l tagged = true → b.runs 0x0A = true → (b.station src).st ≠ 0 → fld l 22 2 = (b.station src).seq →
        (b.station src).waiting = true →
        ∃ u, exec (.stationControlAck dt port l) s = .next u ∧ (u.station src).waiting = false ∧
          (u.station src).acked = decide (code = 0) ∧ (u.station src).unacked = 0 ∧
          (u.station src).st = if code = 0 ∧ (b.station src).st = 3 then 1 else (b.station src).st))

/-- R328, R329, R342: LGC_LOAD keeps a next chunk and answers how much is held; the last one of an image that is not sound
answers LOGIC_REJECTED with its reason and leaves the engine as it was; a sound one replaces the image, clears every force, is
written to the slot not in force, and is answered then. LGC_START starts a checked image at the next S(n); LGC_STOP stops
after the running scan. R335 to R337, R342: LGC_FORCE and LGC_RELEASE take effect at the next snapshot; a force past 256
answers NO_RESOURCE and changes nothing; LGC_ONLINE_CHANGE keeps all of its items for the next snapshot, and lists those that
meet a force with FORCE_CONFLICT;
LGC_READ_VARS answers the values of the last write; a snapshot puts what waited into force. -/
def Obligations.LogicTakesItsCommands : Prop :=
  (∀ (s t : State) (dt : Nat) (q : Req) (role : Nat),
     (Admitted (s.advance dt) q 0x0500 0x0A 1 0 true t role →
       let n := (q.w 6).toNat
       let held := if (q.w 4).toNat = 0 then [] else (t.lgc.load.map Prod.snd).getD []
       let bytes := held ++ q.bytes 7 n
       (t.lgc.st = 2 → exec (.lgcLoad dt q) s = .next (turnedAway t q 0x0500 0x0A 0x010E 0)) ∧
       (t.lgc.st ≠ 2 → 4 ≤ n → n % 4 = 0 → n ≤ 65000 → n ≤ 4 * (q.payload.length - 3) → (q.w 4).toNat = held.length →
         ((q.w 4).toNat = 0 ∨ t.lgc.load.map Prod.fst = some (q.w 5).toNat) → (q.w 4).toNat + n ≤ (q.w 5).toNat →
         (q.w 5).toNat ≤ 917540 →
         (bytes.length < (q.w 5).toNat → exec (.lgcLoad dt q) s = .next (replied t { t with lgc := { t.lgc with
           load := some ((q.w 5).toNat, bytes) } } q 0x0500 0x0A [BitVec.ofNat 32 bytes.length, 0])) ∧
         (∀ r b i, (q.w 5).toNat ≤ bytes.length → t.lgc.writing = none → parseImage bytes = .error (r, b, i) →
           exec (.lgcLoad dt q) s = .next (({ t with lgc := { t.lgc with load := none, result := (r, i) } } : State).answer
             (t.sessionKey q) q 0x0500 0x0A (0x0121, [detail b 0]))) ∧
         (∀ im, t.up = true → (q.w 5).toNat ≤ bytes.length → t.lgc.writing = none → parseImage bytes = .ok im →
           let u := { t.lgcInstall im with lgc := { (t.lgcInstall im).lgc with writing := some q } }
           exec (.lgcLoad dt q) s = .next (u.owe q 0x0500 0x0A) ∧ u.lgc.image = some im ∧ u.lgc.forces = []))) ∧
     (∀ im, (s.advance dt).lgc.writing = some q → (s.advance dt).lgc.image = some im →
       ∃ u k no, exec (.lgcImageStored dt) s = .next u ∧ u.lgc.writing = none ∧ u.lgc.slots = [(k, no, im)] ∧
         ((s.advance dt).lgc.slots = [] → k = 0 ∧ no = 1)) ∧
     (Admitted (s.advance dt) q 0x0501 0x0A 1 0 true t role →
       (t.lgc.image = none ∨ t.lgc.st = 2 ∨ t.measuring = false →
         exec (.lgcStart dt q) s = .next (turnedAway t q 0x0501 0x0A 0x010E 0)) ∧
       (∀ im, t.lgc.image = some im → t.lgc.st ≠ 2 → t.measuring = true → t.conflictsOf t true true = [] →
         exec (.lgcStart dt q) s = .next (replied t (t.lgcStart im) q 0x0501 0x0A
           (gtfWords (im.startOf (t.now / (im.periodUs * 1000) + 1)))))) ∧
     (Admitted (s.advance dt) q 0x0502 0x0A 1 0 true t role →
       (t.up = true → t.lgc.st = 2 → t.lgc.scanning = true → t.lgc.stopReq = none →
         exec (.lgcStop dt q) s = .next ({ t with lgc := { t.lgc with stopReq := some q } }.owe q 0x0502 0x0A)) ∧
       (t.lgc.st = 2 → t.lgc.scanning = true → t.lgc.stopReq ≠ none →
         exec (.lgcStop dt q) s = .next (turnedAway t q 0x0502 0x0A 0x010B 0)) ∧
       (t.lgc.st = 2 ∧ t.lgc.scanning = false ∨ t.lgc.st = 3 →
         exec (.lgcStop dt q) s = .next (replied t (t.lgcHalt 1) q 0x0502 0x0A (words64 (gtfOpt t.lgc.lastW)))) ∧
       (t.lgc.st < 2 → exec (.lgcStop dt q) s = .next (turnedAway t q 0x0502 0x0A 0x010E 0)))) ∧
  (∀ (s t : State) (dt : Nat) (q : Req) (role : Nat) (im : Image), t.lgc.image = some im →
     let n := (q.w 4).toNat
     (Admitted (s.advance dt) q 0x0503 0x0A 1 0 true t role → 1 ≤ n → n ≤ 256 → 1 + 2 * n ≤ q.payload.length →
       let items := (itemsOf 2 n (q.rest 5)).map (fun l => (wordBits l 0 15 0, l.getD 1 0))
       let l := { t.lgc with
         forceNew := items.foldl (fun m x => m.set x.1 x.2) t.lgc.forceNew
         relNew := t.lgc.relNew.filter (fun v => !(items.map Prod.fst).contains v) }
       (∀ x ∈ items, ∃ v, im.vars[x.1]? = some v ∧ v.takes x.2 = true) →
       (l.requested.length ≤ 256 → exec (.lgcForce dt q) s = .next (replied t { t with lgc := l } q 0x0503 0x0A [])) ∧
       (256 < l.requested.length → exec (.lgcForce dt q) s = .next (turnedAway t q 0x0503 0x0A 0x0117 0))) ∧
     (Admitted (s.advance dt) q 0x0504 0x0A 1 0 true t role → q.payload ≠ [] →
       let named := ((q.rest 5).take (q.bits 4 15 0)).map (fun w => bitsOf w.toNat 15 0)
       (q.w 4).getLsbD 31 = true ∨ 1 + q.bits 4 15 0 ≤ q.payload.length →
       ∃ l, exec (.lgcRelease dt q) s = .next (replied t { t with lgc := l } q 0x0504 0x0A [BitVec.ofNat 32 l.requested.length]) ∧
         l.forces = t.lgc.forces ∧ ((q.w 4).getLsbD 31 = true → l.requested = []) ∧
         ((q.w 4).getLsbD 31 = false → ∀ v ∈ named, l.requested.get? v = none)) ∧
     (Admitted (s.advance dt) q 0x0505 0x0A 1 0 true t role → 1 ≤ n → n ≤ 1024 → 1 + 2 * n ≤ q.payload.length →
       let raw := itemsOf 2 n (q.rest 5)
       let items := raw.map (fun l => (wordBits l 0 31 30, wordBits l 0 15 0, l.getD 1 0))
       let meets := fun (x : Nat × Nat × Word) => if x.1 = 0 then (t.lgc.requested.get? x.2.1).isSome
         else im.blocks[x.2.1]?.any (fun b => b.op != 0 && (t.lgc.requested.get? b.out).isSome)
       let listed := ((items.zip raw).filter (fun p => meets p.1)).map (fun p => p.2.getD 0 0)
       let ws := BitVec.ofNat 32 ((if listed = [] then 0 else 0x0122) * 65536 + listed.length) :: listed
       (∀ x ∈ items, changeFault im x = none) → ReplyFits t q ws →
       exec (.lgcOnlineChange dt q) s = .next (replied t { t with lgc := items.foldl (fun (l : Lgc) x =>
         if x.1 = 0 then { l with chgVar := l.chgVar.set x.2.1 x.2.2 } else { l with chgPar := l.chgPar.set x.2.1 x.2.2 }) t.lgc }
         q 0x0505 0x0A ws)) ∧
     (Admitted (s.advance dt) q 0x0506 0x0A 1 0 true t role →
       let a := q.bits 4 15 0
       let m := (q.w 5).toNat
       let ws := [BitVec.ofNat 32 m] ++ words64 (gtfOpt t.lgc.lastW) ++ ((List.range m).flatMap (fun k =>
         [(t.lgc.written.getD (a + k) ⟨0, 1⟩).v, BitVec.ofNat 32 ((t.lgc.written.getD (a + k) ⟨0, 1⟩).q.toNat * 65536 +
           bitAt (t.lgc.forces.get? (a + k)).isSome 4 + bitAt (t.lgc.chgVar.get? (a + k)).isSome 5 +
           ((im.vars[a + k]?).map LVar.ty).getD 0)]))
       1 ≤ m → m ≤ 4096 → a + m ≤ im.vars.length → ReplyFits t q ws →
       exec (.lgcReadVars dt q) s = .next (replied t t q 0x0506 0x0A ws)) ∧
     t.lgcApply.lgc.forces = t.lgc.requested ∧ t.lgcApply.lgc.forceNew = [] ∧ t.lgcApply.lgc.relNew = [])

/-! ### Event logs (15) -/

/-- R375, R382: LOG_READ and MLOG_READ answer the records from a SEQUENCE on, at most 2,000, those in the buffer too;
LOG_FREEZE of a log that is not frozen freezes it under a FREEZE_ID and answers the held range, LOG_THAW with that ID ends the
freeze, LOG_CLEAR empties the general log alone and never the metrological one. -/
def Obligations.LogsAnswerTheirCommands : Prop :=
  ∀ (s t : State) (dt : Nat) (q : Req) (role : Nat) (m : Bool),
    let l := t.logOf m
    let all := l.mram ++ l.buf
    (∀ c op, (m = false ∧ c = Instr.logRead dt q ∧ op = 0x0700) ∨ (m = true ∧ c = .mlogRead dt q ∧ op = 0x0704) →
      Admitted (s.advance dt) q op 0x0E 0 2 true t role → 1 ≤ (q.w 5).toNat → (q.w 5).toNat ≤ 2000 →
      let recs := (all.filter (fun r => decide ((q.w 4).toNat ≤ r.seq))).take (q.w 5).toNat
      let ws := [BitVec.ofNat 32 recs.length, BitVec.ofNat 32 (firstSeq all), BitVec.ofNat 32 l.seq] ++ recs.flatMap EvRec.words
      ReplyFits t q ws →
      exec c s = .next (replied t (t.setLog m { l with readTo := max l.readTo (lastSeqOf recs) }) q op 0x0E ws)) ∧
    (Admitted (s.advance dt) q 0x0701 0x0E 0 1 true t role → (q.bits 4 0 0 = 1 ↔ m = true) →
      (l.freeze ≠ none → exec (.logFreeze dt q) s = .next (turnedAway t q 0x0701 0x0E 0x0126 0)) ∧
      (l.freeze = none →
        let id := (Config.freezeId t.evt.freezeId).toNat
        let b := { t with evt := { t.evt with freezeId := t.evt.freezeId + 1 } }
        exec (.logFreeze dt q) s = .next (replied t (b.setLog m { l with freeze := some { id := id, at_ := t.now, lost := 0 } })
          q 0x0701 0x0E [BitVec.ofNat 32 id, BitVec.ofNat 32 (firstSeq all), BitVec.ofNat 32 (lastSeqOf all)]))) ∧
    (Admitted (s.advance dt) q 0x0702 0x0E 0 1 true t role → (q.bits 4 0 0 = 1 ↔ m = true) → ∀ f, l.freeze = some f →
      (f.id = q.bits 4 31 16 → exec (.logThaw dt q) s = .next (replied t (t.endFreeze m 0) q 0x0702 0x0E [BitVec.ofNat 32 f.lost])) ∧
      (f.id ≠ q.bits 4 31 16 → exec (.logThaw dt q) s = .next (turnedAway t q 0x0702 0x0E 0x0106 0))) ∧
    (Admitted (s.advance dt) q 0x0703 0x0E 0 1 true t role →
      (q.bits 4 0 0 = 1 → exec (.logClear dt q) s = .next (turnedAway t q 0x0703 0x0E 0x0107 0)) ∧
      (q.bits 4 0 0 = 0 → m = false → l.freeze = none → exec (.logClear dt q) s = .next (replied t
        ((t.setLog false { l with mram := [], buf := [], near := false }).logEv 0x0002 0x0E t.now
          (evPar (lastSeqOf all) all.length)) q 0x0703 0x0E [BitVec.ofNat 32 all.length])))

/-- R376, R378, R379, R382: a record gets the next SEQUENCE of its log and waits in the buffer; a flush moves the buffer to
MRAM, in order, unless the log is frozen; a code of a limited class without a token is counted and not written; a freeze that
has lasted EVT.FREEZE_MAX_S ends; both logs are flushed 5 s after the last time; a bucket below 8 gains one token at each
whole refill time. -/
def Obligations.RecordsAreNumberedBufferedAndLimited : Prop :=
  ∀ (s a : State) (dt : Nat), s.advance dt = a →
    (∀ code u sev supp t par, (a.evt.gen.buf.length < 768 → sev < 3 →
      ∃ r, (a.admitGen code u sev supp t par).evt.gen.buf = a.evt.gen.buf ++ [r] ∧ r.seq = (a.evt.gen.seq + 1) % 2 ^ 32 ∧
        (a.admitGen code u sev supp t par).evt.gen.seq = r.seq ∧ r.code = code ∧ r.gtf = gtfOf t ∧
        (a.admitGen code u sev supp t par).evt.met = a.evt.met)) ∧
    (∀ m, (a.logOf m).freeze = none → (a.logOf m).mram.length + (a.logOf m).buf.length ≤ logSize m →
      ((a.flushLog m).logOf m).mram = (a.logOf m).mram ++ (a.logOf m).buf ∧ ((a.flushLog m).logOf m).buf = []) ∧
    (∀ m, (a.logOf m).freeze ≠ none → a.flushLog m = a) ∧
    (∀ code u t par, (evInfo code).2.1 ≠ 0 → (evInfo code).2.2.1 = true → (evInfo code).2.2.2 = false → (a.bucket code).tokens = 0 →
      (a.logEv code u t par).evt.gen = a.evt.gen ∧ ((a.logEv code u t par).bucket code).supp = (a.bucket code).supp + 1) ∧
    (a.up = true → a.evt.flushAt + 5 * sec ≤ a.now →
      exec (.logFlushTimer dt) s = .next ({ a with evt := { a.evt with flushAt := a.now } } : State).flushLogs) ∧
    (a.up = false ∨ a.now < a.evt.flushAt + 5 * sec → exec (.logFlushTimer dt) s = .next a) ∧
    (∀ m f, (a.logOf m).freeze = some f →
      (f.at_ + a.parN Par.EVT.FREEZE_MAX_S 0 * sec ≤ a.now → exec (.freezeMaxTimeout dt m) s = .next (a.endFreeze m 1)) ∧
      (a.now < f.at_ + a.parN Par.EVT.FREEZE_MAX_S 0 * sec → exec (.freezeMaxTimeout dt m) s = .next a)) ∧
    (∀ code, (a.bucket code).fellAt < a.now →
      (a.now - (a.bucket code).fellAt) % (a.parN Par.EVT.REFILL_MS (evInfo code).2.1 * 1000000) = 0 →
      ((a.bucket code).tokens < 8 → (a.bucket code).gainedAt < a.now → exec (.tokenRefill dt code) s =
        .next (a.setBucket code { a.bucket code with tokens := (a.bucket code).tokens + 1, gainedAt := a.now })) ∧
      (8 ≤ (a.bucket code).tokens ∨ a.now ≤ (a.bucket code).gainedAt → exec (.tokenRefill dt code) s = .next a))

/-! ### Control complex, units, firmware, spares (16, 18, 20) -/

/-- R385 to R387, R389, R393, R396: at a tick of 10 µs the tasks that are due leave the delay lists; an uncorrectable error
retires its core, and so do two failed self-tests in a row, each CTL.CORE_TEST_S after the last; words written to a FIFO stand
behind the words it holds, and one that fills above its level holds its port's host rings until words are read from it and it
is back; a self-test of a unit is answered once it is done. R390, R393: SCHED_STATS answers the window's statistics and with
CLEAR starts a new one; SELF_TEST of a unit that runs begins and owes its reply, a second one answers BUSY. -/
def Obligations.CoresTasksAndFifos : Prop :=
  (∀ (s a : State) (dt : Nat), s.advance dt = a → a.up = true →
     (a.now % 10000 = 0 → ∃ u, exec (.delayExpiry dt) s = .next u ∧
       u.ctl.delays = a.ctl.delays.filter (fun d => !decide (d.2.1 ≤ a.now))) ∧
     (a.now % 10000 ≠ 0 → exec (.delayExpiry dt) s = .next a) ∧
     (∀ core task, core < 18 →
       (a.core core = 0 → ∃ u, exec (.coreRetire dt core task) s = .next u ∧ u.core core = 2) ∧
       (a.core core ≠ 0 → exec (.coreRetire dt core task) s = .next a)) ∧
     (let period := a.parN Par.CTL.CORE_TEST_S 0 * sec
      (period = 0 ∨ a.now < a.ctl.coreTestAt + period → ∀ l, exec (.coreSelfTestTimer dt l) s = .next a) ∧
      (period ≠ 0 → a.ctl.coreTestAt + period ≤ a.now → ∀ core, a.coresOn = [core] →
        exec (.coreSelfTestTimer dt []) s = .next { a with
          ctl := { a.ctl with coreTestAt := a.now, coreFails := a.ctl.coreFails.erase core } } ∧
        (a.ctl.coreFails.getD core 0 = 1 → ∃ u, exec (.coreSelfTestTimer dt [core]) s = .next u ∧ u.core core = 2))) ∧
     (∀ f, f ≤ 73 →
       (∀ ws, a.fifoFill f ≤ a.parN Par.CTL.FIFO_LEVEL f → a.parN Par.CTL.FIFO_LEVEL f < a.fifoFill f + ws.length →
         a.fifoFill f + ws.length ≤ 16 →
         ∃ u, exec (.fifoLevelHit dt f ws) s = .next u ∧ u.ctl.fifo.getD f [] = a.ctl.fifo.getD f [] ++ ws ∧
           a.fifoFill f + ws.length ≤ u.ctl.fifoPeak.getD f 0 ∧ (32 ≤ f → f ≤ 63 → (u.port (f - 32)).held = true)) ∧
       (∀ ws, a.fifoFill f + ws.length ≤ a.parN Par.CTL.FIFO_LEVEL f → a.fifoFill f + ws.length ≤ 16 →
         exec (.fifoLevelHit dt f ws) s = .next (a.fifoWrite f ws)) ∧
       (∀ left, a.ctl.fifo.wf = true → left ≤ a.fifoFill f →
         let b := a.fifoRead f (a.fifoFill f - left)
         b.fifoFill f = left ∧ (a.parN Par.CTL.FIFO_LEVEL f < left → exec (.fifoLevelRelease dt f left) s = .next b) ∧
         (left ≤ a.parN Par.CTL.FIFO_LEVEL f → exec (.fifoLevelRelease dt f left) s = .next (
           if 32 ≤ f ∧ f ≤ 63 then (b.holdPort f false).startTx (f - 32)
           else if f = 64 then (List.range 64).foldl (fun (u : State) _ => u.fetchMore) b else b)))) ∧
     (∀ u q, a.ctl.selfTest = some (u, q) → u ≠ 0 → ∀ r, r.1 = u → u ∈ unitIds →
       exec (.selfTestDone dt [r] []) s = .next (({ a with ctl := { a.ctl with selfTest := none } } : State).answerLater q 0x0A06 u
         (0, 1 :: testWords r))) ∧
     (a.ctl.selfTest = none → ∀ l f, exec (.selfTestDone dt l f) s = .next a)) ∧
  (∀ (s t : State) (dt : Nat) (q : Req) (role : Nat),
     (Admitted (s.advance dt) q 0x0A05 0x0C 0 1 true t role → ReplyFits t q t.schedStats →
       ((q.w 4).getLsbD 0 = false → exec (.schedStats dt q) s = .next (replied t t q 0x0A05 0x0C t.schedStats)) ∧
       ((q.w 4).getLsbD 0 = true → exec (.schedStats dt q) s = .next (replied t { t with ctl := { t.ctl with
         statsStart := t.now, maxDepth := [] } } q 0x0A05 0x0C t.schedStats))) ∧
     (let n := q.bits 4 7 0
      let u := if 1 ≤ n ∧ n ≤ 15 then n else 0x0C
      Admitted (s.advance dt) q 0x0A06 u 1 1 false t role →
       (n ≤ 15 → n = 0 ∨ t.runs n = true →
         (t.up = true → t.ctl.selfTest = none →
           exec (.selfTest dt q) s = .next (({ t with ctl := { t.ctl with selfTest := some (n, q) } } : State).owe q 0x0A06 u)) ∧
         (t.ctl.selfTest ≠ none → exec (.selfTest dt q) s = .next (turnedAway t q 0x0A06 u 0x010B 0))) ∧
       (15 < n → exec (.selfTest dt q) s = .next (turnedAway t q 0x0A06 u 0x0106 0))))

/-- R424: UNIT_QUIESCE of a unit lets it drain, and it is quiesced and answered once it has, or answered TIMEOUT after
CTL.QUIESCE_MAX_MS; UNIT_RESET advances the unit's epoch and leaves it in reset, the last three running; UNIT_RESUME sets a
quiesced or reset unit running and answers WRONG_STATE to one that runs; unit 0x0C cannot be quiesced. -/
def Obligations.UnitsQuiesceResetAndResume : Prop :=
  ∀ (s t : State) (dt : Nat) (q : Req) (role : Nat),
    let n := q.bits 4 7 0
    let u := namedUnit (q.w 4)
    (Admitted (s.advance dt) q 0x0A00 u 1 1 (unitNamed n) t role → unitNamed n = true →
      (n = 0x0C → exec (.unitQuiesce dt q) s = .next (turnedAway t q 0x0A00 u 0x010E 0)) ∧
      (n ≠ 0x0C → (t.unit n).st = 1 → exec (.unitQuiesce dt q) s = .next (replied t t q 0x0A00 u [])) ∧
      (n ≠ 0x0C → n ≠ 4 → (t.unit n).st ≠ 1 → (∀ d ∈ t.ctl.drain, d.1 ≠ n) → t.up = true →
        exec (.unitQuiesce dt q) s =
          .next (({ t with ctl := { t.ctl with drain := t.ctl.drain ++ [(n, q, t.now)] } } : State).owe q 0x0A00 u))) ∧
    (Admitted (s.advance dt) q 0x0A01 u 1 1 false t role → unitNamed n = true → (t.unit n).st ≠ 3 →
      ∃ v, exec (.unitReset dt q) s = .next v ∧ (v.unit n).epoch = (t.unit n).epoch + 1 ∧
        (v.unit n).st = (if 0x0C ≤ n then 0 else 2)) ∧
    (Admitted (s.advance dt) q 0x0A02 u 1 1 false t role → unitNamed n = true →
      ((t.unit n).st = 1 ∨ (t.unit n).st = 2 → ∃ v, exec (.unitResume dt q) s = .next v ∧ (v.unit n).st = 0 ∧
        (v.unit n).epoch = (t.unit n).epoch) ∧
      ((t.unit n).st = 0 → exec (.unitResume dt q) s = .next (turnedAway t q 0x0A02 u 0x010E 0)) ∧
      ((t.unit n).st = 3 → exec (.unitResume dt q) s = .next (turnedAway t q 0x0A02 u 0x010B 0))) ∧
    (∀ (a : State) d, s.advance dt = a → a.up = true →
      (a.ctl.drain.find? (fun d => a.drained d.1 d.2.2 && !a.ofActivation d) = some d →
        ∃ v, exec (.unitQuiesceDrained dt) s = .next v ∧ (v.unit d.1).st = 1 ∧ ∀ e ∈ v.ctl.drain, e.1 ≠ d.1) ∧
      (a.ctl.drain.find? (fun d => decide (d.2.2 + 1000000 * a.parN Par.CTL.QUIESCE_MAX_MS 0 ≤ a.now) && !a.ofActivation d)
        = some d → exec (.unitQuiesceTimeout dt) s =
          .next (({ a with ctl := { a.ctl with drain := a.ctl.drain.filter (fun x => x.1 != d.1) } } : State).answerLater d.2.1
            0x0A00 d.1 (0x0119, [detail 0xFFFF 0]))) ∧
      (a.ctl.drain = [] → exec (.unitQuiesceDrained dt) s = .next a ∧ exec (.unitQuiesceTimeout dt) s = .next a))

/-- R421 to R423: FW_STAGE of a first chunk erases the idle bank and writes it, no longer verified; FW_VERIFY marks a bank
that is good, else answers the first fault; FW_ACTIVATE of a verified bank switches the active-bank record, and without NOW
nothing else, and with NOW it lets the units of its update drain; FW_INFO answers both banks; an activation that has drained
is over and its bank runs. -/
def Obligations.FirmwareIsStagedVerifiedActivated : Prop :=
  ∀ (s t : State) (dt : Nat) (q : Req) (role : Nat),
    let b := t.bankOf t.idleBank
    (Admitted (s.advance dt) q 0x0900 0x0C 1 3 true t role →
      let n := (q.w 6).toNat
      (t.pwr.activate ≠ none → exec (.fwStage dt q) s = .next (turnedAway t q 0x0900 0x0C 0x010B 0)) ∧
      (t.pwr.activate = none → (q.w 4).toNat = 0 → 256 ≤ (q.w 5).toNat → (q.w 5).toNat ≤ 28311552 → 4 ≤ n → n % 4 = 0 →
        n ≤ 65000 → n ≤ 4 * (q.payload.length - 3) → n < (q.w 5).toNat → (q.bytes 7 n).length = n →
        exec (.fwStage dt q) s = .next (replied t
          (let c := t.setBank t.idleBank { bytes := q.bytes 7 n, auth := false, verified := false }
           { c with pwr := { c.pwr with stage := some ((q.w 5).toNat, n) } }) q 0x0900 0x0C [BitVec.ofNat 32 n]))) ∧
    (Admitted (s.advance dt) q 0x0901 0x0C 1 0 true t role →
      (b.format = false → exec (.fwVerify dt q) s = .next (turnedAway t q 0x0901 0x0C 0x0106 0)) ∧
      (b.format = true → b.auth = false → exec (.fwVerify dt q) s = .next (turnedAway t q 0x0901 0x0C 0x0113 0)) ∧
      (b.format = true → b.auth = true → b.fits t.ident = false →
        exec (.fwVerify dt q) s = .next (turnedAway t q 0x0901 0x0C 0x0118 0)) ∧
      (let ws := [BitVec.ofNat 32 b.version, BitVec.ofNat 32 (b.word 16)] ++ q.carriage.pack b.legal
       b.format = true → b.auth = true → b.fits t.ident = true → ReplyFits t q ws →
        exec (.fwVerify dt q) s = .next (replied t (t.setBank t.idleBank { b with verified := true }) q 0x0901 0x0C ws))) ∧
    (Admitted (s.advance dt) q 0x0902 0x0C 2 1 true t role →
      (∀ f, t.activateFault = some f → exec (.fwActivate dt q) s = .next (turnedAway t q 0x0902 0x0C f 0)) ∧
      (b.verified = false → t.activateFault = some 0x010E) ∧
      (t.activateFault = none → (q.w 4).getLsbD 0 = false → exec (.fwActivate dt q) s = .next (replied t
        { t with pwr := { t.pwr with activeRec := t.idleBank, fwNew := true } } q 0x0902 0x0C [0])) ∧
      (t.activateFault = none → (q.w 4).getLsbD 0 = true → t.pwr.dev ≠ .boot →
        let units := bitsOf (b.word 16) 15 0
        let marked := unitIds.filter (fun u => units.testBit u && t.runs u && u != 0x0C && u != 0x0F)
        let d : State := { t with
          pwr := { t.pwr with activeRec := t.idleBank, fwNew := true, activate := some (q, units) }
          ctl := { t.ctl with drain := t.ctl.drain ++ marked.map (fun (u : Nat) => (u, q, t.now)) } }
        exec (.fwActivate dt q) s = .next (replied t (if marked.contains 4 then d.drainFinals else d) q 0x0902 0x0C
          [BitVec.ofNat 32 ((t.unit 0x0C).epoch + (if units.testBit 0x0C then 1 else 0)).toNat]))) ∧
    (Admitted (s.advance dt) q 0x0903 0x0C 0 0 true t role →
      ReplyFits t q (t.bankWords q.carriage 0 ++ t.bankWords q.carriage 1) →
      exec (.fwInfo dt q) s = .next (replied t t q 0x0903 0x0C (t.bankWords q.carriage 0 ++ t.bankWords q.carriage 1))) ∧
    (∀ (a : State) r units, s.advance dt = a → a.pwr.activate = some (r, units) → a.up = true →
      (∀ d ∈ a.ctl.drain, a.ofActivation d = true → a.drained d.1 d.2.2 = true) →
      ∃ u, exec (.fwActivationDrained dt) s = .next u ∧ u.pwr.activate = none ∧ u.pwr.bank = a.pwr.activeRec)

/-- R457 to R461, R463: a second corrected error at an address makes its SRAM row due and a scrub pass copies rows that are
due; a failing DRAM page is retired while the reserve holds, an MRAM block while spare blocks are left; a low margin raises
the fabric voltage by one step at a whole second; a use of the last spare of its kind sets DEGRADED; an operating second
advances OPSEC; a save keeps the patina counters; SPARE_STATUS and PATINA_READ answer them. -/
def Obligations.SparesWearAndPatina : Prop :=
  ∀ (s a : State) (dt : Nat), s.advance dt = a →
    (a.up = true →
      (∀ c, a.mem.sramDue = [] → a.mem.sramTable.contains c = false → a.mem.sramTable.length < 4096 →
        ∃ u, exec (.sramScrubPass dt [c] []) s = .next u ∧ u.mem.sramTable = a.mem.sramTable ++ [c] ∧ u.mem.sramDue = []) ∧
      (∀ row, a.mem.sramDue = [row] → ∃ u, exec (.sramScrubPass dt [] []) s = .next u ∧ u.mem.sramDue = [] ∧
        u.mem.sramUsed.getD (sramMacro row) 0 = a.mem.sramUsed.getD (sramMacro row) 0 + 1) ∧
      (∀ page b, (a.mem.dramPages.contains page = false → a.mem.dramUsed < 16384 → ∃ u, exec (.dramPageRetire dt page b) s = .next u ∧
          u.mem.dramPages = a.mem.dramPages ++ [page] ∧ u.mem.dramUsed = a.mem.dramUsed + 1) ∧
        (a.mem.dramPages.contains page = true → exec (.dramPageRetire dt page b) s =
          .next (a.wearAdd (if b = true then 3 else 2) 1))) ∧
      (∀ k, (a.mem.mramMap.length < 1024 → a.mem.mramMap.get? k = none → ∃ u, exec (.mramBlockRetire dt k) s = .next u ∧
          u.mem.mramMap.get? k = some (7168 + a.mem.mramMap.length)) ∧
        (a.mem.mramMap.get? k ≠ none → exec (.mramBlockRetire dt k) s = .next a)) ∧
      (a.mem.vstep < 8 → a.now % sec = 0 → ∃ u, exec (.marginMonitor dt true) s = .next u ∧ u.mem.vstep = a.mem.vstep + 1 ∧
        (a.mem.vstep = 7 → u.mem.degraded = true)) ∧
      exec (.marginMonitor dt false) s = .next a ∧
      exec (.patinaSave dt) s = .next { a with
        mem := { a.mem with saved := a.mem.patina }, evt := { a.evt with opsecSaved := a.evt.opsec } }) ∧
    (a.mainPowered = true → a.now % sec = 0 → ∀ tj, exec (.operatingSecond dt tj) s = .next { a with
      evt := { a.evt with opsec := a.evt.opsec + 1 }
      mem := { a.mem with patina := { a.mem.patina with
        bins := a.mem.patina.bins.modify (tempBin tj) 0 (· + 1), tjSum := a.mem.patina.tjSum + tj
        tjN := a.mem.patina.tjN + 1 } } }) ∧
    (∀ (t : State) (q : Req) (role : Nat), Admitted a q 0x0A03 0x0F 0 0 true t role →
      let ws := [1, 2, 3, 4, 5, 6, 7, 8].flatMap (fun k =>
        [BitVec.ofNat 32 (k * 2 ^ 24 + t.sparesLeft k), BitVec.ofNat 32 (t.sparesUsed k)])
      ReplyFits t q ws → exec (.spareStatus dt q) s = .next (replied t t q 0x0A03 0x0F ws)) ∧
    (∀ (t : State) (q : Req) (role : Nat), Admitted a q 0x0A04 0x0F 0 1 true t role → q.bits 4 3 0 ≤ 3 →
      (q.bits 4 3 0 = 2 → 2 ≤ q.payload.length ∧ q.bits 5 4 0 ≤ 26) →
      let ws := if (q.w 4).getLsbD 8 then t.baselineWords (q.bits 4 3 0) (q.bits 5 4 0)
        else t.patinaWords (q.bits 4 3 0) (q.bits 5 4 0)
      ReplyFits t q ws → exec (.patinaRead dt q) s = .next (replied t t q 0x0A04 0x0F ws))
end

