-- ==== Sys2Proof/Laws/AMap.lean ====
section
/-! SUPPORT. Association maps: reading after writing, and the operations that keep the keys rising. -/

namespace Sys2Proof

namespace AMap

variable {β : Type}

/-- A map whose keys are all above `lo` lists nothing at `lo` or below. -/
theorem get?_of_above {m : AMap β} : ∀ {lo key : Nat}, AMap.above lo m = true → key ≤ lo → m.get? key = none := by
  induction m with
  | nil => intros; rfl
  | cons p m ih =>
    intro lo key h hk
    obtain ⟨k, v⟩ := p
    simp only [above, Bool.and_eq_true, decide_eq_true_eq] at h
    have hne : k ≠ key := by omega
    simp only [AMap.get?, if_neg hne]
    exact ih h.2 (by omega)

/-- A bound on the keys may be lowered. -/
theorem above_mono {m : AMap β} {lo lo' : Nat} (h : AMap.above lo m = true) (hl : lo' ≤ lo) : AMap.above lo' m = true := by
  cases m with
  | nil => rfl
  | cons p m =>
    simp only [above, Bool.and_eq_true, decide_eq_true_eq] at h ⊢
    exact ⟨by omega, h.2⟩

/-- Writing then reading the same key. -/
@[simp] theorem get?_set_self (m : AMap β) (key : Nat) (x : β) : (m.set key x).get? key = some x := by
  induction m with
  | nil => simp [AMap.set, AMap.get?]
  | cons p m ih =>
    obtain ⟨k, v⟩ := p
    simp only [AMap.set]
    split
    · simp [AMap.get?]
    · split
      · simp [AMap.get?]
      · simp only [AMap.get?]
        rw [if_neg (by omega)]
        exact ih

/-- Writing a key leaves every other key. -/
theorem get?_set_ne (m : AMap β) {key other : Nat} (x : β) (h : other ≠ key) : (m.set key x).get? other = m.get? other := by
  induction m with
  | nil => simp [AMap.set, AMap.get?, Ne.symm h]
  | cons p m ih =>
    obtain ⟨k, v⟩ := p
    simp only [AMap.set]
    split
    · simp [AMap.get?, Ne.symm h]
    · split
      · next _ hk => subst hk; simp [AMap.get?, Ne.symm h]
      · simp only [AMap.get?, ih]

@[simp] theorem getD_set_self (m : AMap β) (key : Nat) (x d : β) : (m.set key x).getD key d = x := by
  simp [AMap.getD]

theorem getD_set_ne (m : AMap β) {key other : Nat} (x d : β) (h : other ≠ key) :
    (m.set key x).getD other d = m.getD other d := by
  simp [AMap.getD, get?_set_ne m x h]

/-- Erasing a key leaves every other key. -/
theorem get?_erase_ne (m : AMap β) {key other : Nat} (h : other ≠ key) : (m.erase key).get? other = m.get? other := by
  induction m with
  | nil => rfl
  | cons p m ih =>
    obtain ⟨k, v⟩ := p
    simp only [AMap.erase]
    split
    · next hk => subst hk; simp [AMap.get?, Ne.symm h]
    · simp only [AMap.get?, ih]

theorem above_set {m : AMap β} : ∀ {lo key : Nat} (x : β), AMap.above lo m = true → lo < key →
    AMap.above lo (m.set key x) = true := by
  induction m with
  | nil => intro lo key x _ h; simp [AMap.set, above, h]
  | cons p m ih =>
    intro lo key x h hk
    obtain ⟨k, v⟩ := p
    simp only [above, Bool.and_eq_true, decide_eq_true_eq] at h
    simp only [AMap.set]
    split
    · next hlt => simp only [above, Bool.and_eq_true, decide_eq_true_eq]; exact ⟨hk, hlt, h.2⟩
    · split
      · next _ he => subst he; simp only [above, Bool.and_eq_true, decide_eq_true_eq]; exact ⟨hk, h.2⟩
      · simp only [above, Bool.and_eq_true, decide_eq_true_eq]; exact ⟨h.1, ih x h.2 (by omega)⟩

theorem above_erase {m : AMap β} : ∀ {lo : Nat} (key : Nat), AMap.above lo m = true → AMap.above lo (m.erase key) = true := by
  induction m with
  | nil => intros; rfl
  | cons p m ih =>
    intro lo key h
    obtain ⟨k, v⟩ := p
    simp only [above, Bool.and_eq_true, decide_eq_true_eq] at h
    simp only [AMap.erase]
    split
    · exact above_mono h.2 (by omega)
    · simp only [above, Bool.and_eq_true, decide_eq_true_eq]; exact ⟨h.1, ih key h.2⟩

/-- Writing keeps the keys rising. -/
theorem wf_set {m : AMap β} (key : Nat) (x : β) (h : m.wf = true) : (m.set key x).wf = true := by
  cases m with
  | nil => rfl
  | cons p m =>
    obtain ⟨k, v⟩ := p
    simp only [AMap.set]
    split
    · next hlt => simp only [wf, above, Bool.and_eq_true, decide_eq_true_eq]; exact ⟨hlt, h⟩
    · split
      · next _ he => subst he; exact h
      · exact above_set x h (by omega)

/-- A map above a bound has rising keys. -/
theorem wf_of_above {m : AMap β} {lo : Nat} (h : AMap.above lo m = true) : m.wf = true := by
  cases m with
  | nil => rfl
  | cons p m => simp only [above, Bool.and_eq_true] at h; exact h.2

/-- Erasing keeps the keys rising. -/
theorem wf_erase {m : AMap β} (key : Nat) (h : m.wf = true) : (m.erase key).wf = true := by
  cases m with
  | nil => rfl
  | cons p m =>
    obtain ⟨k, v⟩ := p
    simp only [AMap.erase]
    split
    · exact wf_of_above h
    · exact above_erase key h

/-- An erased key of a map with rising keys is unlisted. -/
theorem get?_erase_self {m : AMap β} (key : Nat) (h : m.wf = true) : (m.erase key).get? key = none := by
  induction m with
  | nil => rfl
  | cons p m ih =>
    obtain ⟨k, v⟩ := p
    simp only [AMap.erase]
    split
    · next hk => subst hk; exact get?_of_above h (Nat.le_refl _)
    · next hk => simp only [AMap.get?, if_neg hk]; exact ih (wf_of_above h)

/-- Writing the default or another value then reading the same key. -/
theorem getD_put_self [DecidableEq β] {m : AMap β} (d : β) (key : Nat) (x : β) (h : m.wf = true) :
    (m.put d key x).getD key d = x := by
  unfold AMap.put
  split
  · next hx => simp [AMap.getD, get?_erase_self key h, hx]
  · simp

/-- A value that is not the default is read back from every map. -/
theorem getD_put_self_of_ne [DecidableEq β] {m : AMap β} (d : β) (key : Nat) {x : β} (h : x ≠ d) :
    (m.put d key x).getD key d = x := by
  simp [AMap.put, h]

theorem get?_put_ne [DecidableEq β] (m : AMap β) (d : β) {key other : Nat} (x : β) (h : other ≠ key) :
    (m.put d key x).get? other = m.get? other := by
  unfold AMap.put
  split
  · exact get?_erase_ne m h
  · exact get?_set_ne m x h

theorem getD_put_ne [DecidableEq β] (m : AMap β) (d e : β) {key other : Nat} (x : β) (h : other ≠ key) :
    (m.put d key x).getD other e = m.getD other e := by
  simp [AMap.getD, get?_put_ne m d x h]

theorem wf_put [DecidableEq β] {m : AMap β} (d : β) (key : Nat) (x : β) (h : m.wf = true) : (m.put d key x).wf = true := by
  unfold AMap.put
  split
  · exact wf_erase key h
  · exact wf_set key x h

theorem above_filter {m : AMap β} (p : Nat × β → Bool) : ∀ {lo : Nat}, AMap.above lo m = true →
    AMap.above lo (m.filter p) = true := by
  induction m with
  | nil => intros; rfl
  | cons q m ih =>
    intro lo h
    obtain ⟨k, v⟩ := q
    simp only [above, Bool.and_eq_true, decide_eq_true_eq] at h
    by_cases hp : p (k, v) = true
    · simp only [List.filter, hp, above, Bool.and_eq_true, decide_eq_true_eq]; exact ⟨h.1, ih h.2⟩
    · simp only [List.filter, hp]; exact ih (above_mono h.2 (by omega))

/-- Leaving entries out keeps the keys rising. -/
theorem wf_filter {m : AMap β} (p : Nat × β → Bool) (h : m.wf = true) : AMap.wf (m.filter p) = true := by
  cases m with
  | nil => rfl
  | cons q m =>
    obtain ⟨k, v⟩ := q
    by_cases hp : p (k, v) = true
    · simp only [List.filter, hp]; exact above_filter p h
    · simp only [List.filter, hp]; exact wf_of_above (above_filter p h)

/-- Writing lists at most one key more. -/
theorem length_set_le (m : AMap β) (key : Nat) (x : β) : (m.set key x).length ≤ m.length + 1 := by
  induction m with
  | nil => simp [AMap.set]
  | cons p m ih =>
    obtain ⟨k, v⟩ := p
    simp only [AMap.set]
    split
    · simp
    · split
      · simp
      · simpa using ih

/-- Writing a listed key of a map with rising keys lists no key more. -/
theorem length_set_of_listed {m : AMap β} {key : Nat} {y : β} (x : β) (h : m.wf = true) (hk : m.get? key = some y) :
    (m.set key x).length = m.length := by
  induction m with
  | nil => simp [AMap.get?] at hk
  | cons p m ih =>
    obtain ⟨k, v⟩ := p
    simp only [AMap.get?] at hk
    simp only [AMap.set]
    split
    · next hlt =>
      rw [if_neg (by omega), get?_of_above h (by omega)] at hk
      cases hk
    · split
      · simp
      · next _ hne =>
        rw [if_neg (by omega)] at hk
        simpa using ih (wf_of_above h) hk

theorem length_erase_le (m : AMap β) (key : Nat) : (m.erase key).length ≤ m.length := by
  induction m with
  | nil => simp [AMap.erase]
  | cons p m ih =>
    obtain ⟨k, v⟩ := p
    simp only [AMap.erase]
    split
    · simp
    · simpa using ih

/-- A listed key is an entry. -/
theorem mem_of_get? {m : AMap β} {key : Nat} {x : β} (h : m.get? key = some x) : (key, x) ∈ m := by
  induction m with
  | nil => cases h
  | cons p m ih =>
    obtain ⟨k, v⟩ := p
    simp only [AMap.get?] at h
    split at h
    · next hk => cases h; subst hk; exact List.mem_cons_self
    · exact List.mem_cons_of_mem _ (ih h)

end AMap

end Sys2Proof
end

