-- ==== Sys2Proof/Laws/State.lean ====
section
/-! SUPPORT. What the shared operations leave as it was, field by field. A frame is a conjunction of equations between fields,
and `simp` reads each of them as a rewrite rule, so that no later proof unfolds a record update. -/

namespace Sys2Proof

open Sys2Proof.Machine

namespace Laws

/-- The state without what a message changes: rings, interrupts, counters, notification sequences, the words of the FIFOs, the
bytes sent on connections, replies that wait for their turn, the ports' queues, the logs with their buckets, the patina
counters, and the outputs. -/
def settled (s : State) : State :=
  { s with
    prt := { s.prt with port := [] }
    ctl := { s.ctl with
      rings := [], irqLast := [], irqHeld := [], noticeSeq := [], counters := [], fifo := [], taken := [], tcp := [], owed := [] }
    evt := { s.evt with gen := Log.init, met := Log.init, bucket := [] }
    mem := { s.mem with patina := Patina.init }
    out := [] }

/-- `t` is `s` but for what a message changes, and what had left the module stays sent. -/
def Kept (s t : State) : Prop := settled t = settled s ∧ s.out <+: t.out

/-- As `Kept`, with the logs and the store of spares and patina untouched too. -/
def KeptLogs (s t : State) : Prop := Kept s t ∧ t.evt = s.evt ∧ t.mem = s.mem

/-- Every field that `Kept` keeps. -/
abbrev Fields (s t : State) : Prop :=
  t.pending = s.pending ∧ t.ident = s.ident ∧ t.pwr = s.pwr ∧ t.units = s.units ∧ t.lands = s.lands ∧
  t.alarms = s.alarms ∧ t.tim = s.tim ∧ t.ing = s.ing ∧ t.aln = s.aln ∧ t.osc = s.osc ∧ t.arm = s.arm ∧
  t.cus = s.cus ∧ t.cnv = s.cnv ∧ t.flt = s.flt ∧ t.cap = s.cap ∧ t.lgc = s.lgc ∧ t.vlt = s.vlt ∧
  t.prt.wakeCause = s.prt.wakeCause ∧ t.ctl.cfg = s.ctl.cfg ∧ t.ctl.flash = s.ctl.flash ∧
  t.ctl.journal = s.ctl.journal ∧ t.ctl.image = s.ctl.image ∧ t.ctl.included = s.ctl.included ∧
  t.ctl.maquette = s.ctl.maquette ∧ t.ctl.commit = s.ctl.commit ∧ t.ctl.commitNo = s.ctl.commitNo ∧
  t.ctl.conflicts = s.ctl.conflicts ∧ t.ctl.cfgSlot = s.ctl.cfgSlot ∧ t.ctl.consolidations = s.ctl.consolidations ∧
  t.ctl.consolidating = s.ctl.consolidating ∧ t.ctl.sessions = s.ctl.sessions ∧ t.ctl.buffers = s.ctl.buffers ∧
  t.ctl.unfetched = s.ctl.unfetched ∧ t.ctl.lastCmdRing = s.ctl.lastCmdRing ∧ t.ctl.hostCtl = s.ctl.hostCtl ∧
  t.ctl.irqHoldoff = s.ctl.irqHoldoff ∧ t.ctl.msix = s.ctl.msix ∧ t.ctl.latches = s.ctl.latches ∧
  t.ctl.subs = s.ctl.subs ∧ t.ctl.reasm = s.ctl.reasm ∧ t.ctl.linkUp = s.ctl.linkUp ∧ t.ctl.drain = s.ctl.drain ∧
  t.ctl.selfTest = s.ctl.selfTest ∧ t.ctl.statsStart = s.ctl.statsStart ∧ t.ctl.delays = s.ctl.delays ∧
  t.ctl.ready = s.ctl.ready ∧ t.ctl.waits = s.ctl.waits ∧ t.ctl.maxDepth = s.ctl.maxDepth ∧
  t.ctl.cores = s.ctl.cores ∧ t.ctl.coreFails = s.ctl.coreFails ∧ t.ctl.coreTestAt = s.ctl.coreTestAt ∧
  t.ctl.fifoPeak = s.ctl.fifoPeak ∧ t.evt.freezeId = s.evt.freezeId ∧ t.evt.flushAt = s.evt.flushAt ∧
  t.evt.opsec = s.evt.opsec ∧ t.evt.opsecSaved = s.evt.opsecSaved ∧ t.evt.cycles = s.evt.cycles ∧
  t.evt.legal = s.evt.legal ∧ t.mem.sramUsed = s.mem.sramUsed ∧ t.mem.sramTable = s.mem.sramTable ∧
  t.mem.sramDue = s.mem.sramDue ∧ t.mem.sramStuck = s.mem.sramStuck ∧ t.mem.dramUsed = s.mem.dramUsed ∧
  t.mem.dramPages = s.mem.dramPages ∧ t.mem.dramPpr = s.mem.dramPpr ∧ t.mem.mramMap = s.mem.mramMap ∧
  t.mem.vstep = s.mem.vstep ∧ t.mem.used = s.mem.used ∧ t.mem.degraded = s.mem.degraded ∧ t.mem.saved = s.mem.saved ∧
  s.out <+: t.out

theorem Kept.refl (s : State) : Kept s s := ⟨rfl, List.prefix_rfl⟩

theorem Kept.trans {s t u : State} (h : Kept s t) (g : Kept t u) : Kept s u := ⟨g.1.trans h.1, h.2.trans g.2⟩

theorem KeptLogs.refl (s : State) : KeptLogs s s := ⟨Kept.refl s, rfl, rfl⟩

theorem KeptLogs.trans {s t u : State} (h : KeptLogs s t) (g : KeptLogs t u) : KeptLogs s u :=
  ⟨h.1.trans g.1, g.2.1.trans h.2.1, g.2.2.trans h.2.2⟩

/-- A fold of operations that each keep the rest keeps the rest. -/
theorem Kept.fold {α : Type} {f : State → α → State} (h : ∀ s a, Kept s (f s a)) (l : List α) (s : State) : Kept s (l.foldl f s) := by
  induction l generalizing s with
  | nil => exact Kept.refl s
  | cons a l ih => exact (h s a).trans (ih (f s a))

theorem KeptLogs.fold {α : Type} {f : State → α → State} (h : ∀ s a, KeptLogs s (f s a)) (l : List α) (s : State) :
    KeptLogs s (l.foldl f s) := by
  induction l generalizing s with
  | nil => exact KeptLogs.refl s
  | cons a l ih => exact (h s a).trans (ih (f s a))

/-- Each field of a kept state. -/
theorem Kept.fields {s t : State} (h : Kept s t) : Fields s t := by
  obtain ⟨h, ho⟩ := h
  simp only [settled, State.mk.injEq, Ctl.mk.injEq, Evt.mk.injEq, Mem.mk.injEq, Ports.mk.injEq] at h
  simp only [Fields, h, ho, and_self]

/-- A kept state is the state before with another control complex, other port queues, logs, spares and patina, and outputs. -/
theorem Kept.eq {s t : State} (h : Kept s t) : t = { s with
    ctl := t.ctl, out := t.out, prt := { s.prt with port := t.prt.port }, evt := t.evt, mem := t.mem } :=
  congrArg (fun u : State => { u with
    ctl := t.ctl, out := t.out, prt := { u.prt with port := t.prt.port }, evt := t.evt, mem := t.mem }) h.1

/-- With the logs and the store untouched too. -/
theorem KeptLogs.eq {s t : State} (h : KeptLogs s t) : t = { s with
    ctl := t.ctl, out := t.out, prt := { s.prt with port := t.prt.port } } := by
  have e := h.1.eq
  rw [h.2.1, h.2.2] at e
  exact e

/-! ### The operations of a message -/

theorem setCtr_keptLogs (s : State) (id inst v : Nat) : KeptLogs s (s.setCtr id inst v) := ⟨⟨rfl, List.prefix_rfl⟩, rfl, rfl⟩

theorem count_keptLogs (s : State) (id inst n : Nat) : KeptLogs s (s.count id inst n) := setCtr_keptLogs s id inst _

theorem count2_keptLogs (s : State) (id inst n : Nat) : KeptLogs s (s.count2 id inst n) :=
  (count_keptLogs s id 0 n).trans (count_keptLogs _ id inst n)

theorem emit_keptLogs (s : State) (o : Output) : KeptLogs s (s.emit o) := ⟨⟨rfl, List.prefix_append _ _⟩, rfl, rfl⟩

theorem setRing_keptLogs (s : State) (n : Nat) (r : Ring) : KeptLogs s (s.setRing n r) := ⟨⟨rfl, List.prefix_rfl⟩, rfl, rfl⟩

theorem raiseIrq_keptLogs (s : State) (v : Nat) : KeptLogs s (s.raiseIrq v) := by
  have sent : ∀ m : AMap Nat, KeptLogs s ({ s with ctl := { s.ctl with irqLast := m } }.emit (.irq v)) :=
    fun m => ⟨⟨rfl, List.prefix_append _ _⟩, rfl, rfl⟩
  unfold State.raiseIrq
  simp only
  split
  · split
    · exact KeptLogs.refl s
    · exact ⟨⟨rfl, List.prefix_rfl⟩, rfl, rfl⟩
  · exact sent _

theorem fillBuf_keptLogs (s : State) (n : Nat) : KeptLogs s (s.fillBuf n) :=
  (setRing_keptLogs s n _).trans (raiseIrq_keptLogs _ n)

theorem fifoRead_keptLogs (s : State) (f n : Nat) : KeptLogs s (s.fifoRead f n) :=
  KeptLogs.trans ⟨⟨rfl, List.prefix_rfl⟩, rfl, rfl⟩ (count2_keptLogs _ _ _ _)

theorem takeWords_keptLogs (s : State) (f : Nat) : KeptLogs s (s.takeWords f).1 := by
  unfold State.takeWords
  split
  · exact KeptLogs.refl s
  · exact (fifoRead_keptLogs s f 16).trans ⟨⟨rfl, List.prefix_rfl⟩, rfl, rfl⟩

/-- A FIFO's reader changes the FIFO's words and the counter of failed parity (R394, R399). -/
theorem takeItem_keptLogs (s : State) (f : Nat) : KeptLogs s (s.takeItem f).1 := takeWords_keptLogs s f

/-- What has been taken off a FIFO leaves the rest. -/
theorem KeptLogs.of_take {s t : State} {f : Nat} {b : Bool} (e : s.takeItem f = (t, b)) : KeptLogs s t := by
  have h := takeItem_keptLogs s f
  rw [e] at h
  exact h

theorem setPort_keptLogs (s : State) (n : Nat) (p : Port) : KeptLogs s (s.setPort n p) := ⟨⟨rfl, List.prefix_rfl⟩, rfl, rfl⟩

theorem startTx_keptLogs (s : State) (n : Nat) : KeptLogs s (s.startTx n) := by
  unfold State.startTx
  simp only
  split
  · exact KeptLogs.refl s
  · split
    · exact KeptLogs.refl s
    · split
      · split
        · exact (setPort_keptLogs s n _).trans (setRing_keptLogs _ _ _)
        · exact setPort_keptLogs s n _
      · exact setPort_keptLogs s n _

/-- A frame given to a port changes its queue, or the count of frames dropped; a host send's ring takes the stamp (R116). -/
theorem queueTx_keptLogs (s : State) (n : Nat) (x : TxItem) : KeptLogs s (s.queueTx n x) := by
  unfold State.queueTx
  split
  · exact (setPort_keptLogs s n _).trans (startTx_keptLogs _ n)
  · exact count_keptLogs s _ _ _

theorem sendFrames'_keptLogs (n rank : Nat) (tso : Bool) (msg : Option Output) (l : List (List Byte)) (s : State) :
    KeptLogs s (s.sendFrames' n rank tso msg l) := by
  induction l generalizing s with
  | nil => exact KeptLogs.refl s
  | cons f l ih => exact (queueTx_keptLogs s n _).trans (ih _)

theorem sendUdp_keptLogs (s : State) (n rank src : Nat) (p : Peer) (l : List Byte) (msg : Option Output) :
    KeptLogs s (s.sendUdp n rank src p l msg) := sendFrames'_keptLogs _ _ _ _ _ s

theorem sendTcp_keptLogs (s : State) (k rank : Nat) (l : List Byte) (msg : Option Output) :
    KeptLogs s (s.sendTcp k rank l msg) := by
  unfold State.sendTcp
  split
  · exact KeptLogs.trans ⟨⟨rfl, List.prefix_rfl⟩, rfl, rfl⟩ (sendFrames'_keptLogs _ _ _ _ _ _)
  · exact KeptLogs.refl s

theorem noticeUdp_keptLogs (s : State) (port : Option Nat) (p : Peer) (d : NoticeDest) (w : Word) (n : Notice) :
    KeptLogs s (s.noticeUdp port p d w n) := by
  unfold State.noticeUdp
  split
  · exact sendUdp_keptLogs s _ _ _ _ _ _
  · exact count_keptLogs s _ _ _

theorem noticeTo_keptLogs (s : State) (d : NoticeDest) (n : Notice) : KeptLogs s (s.noticeTo d n) := by
  unfold State.noticeTo
  have h : ∀ l, KeptLogs s { s with ctl := { s.ctl with noticeSeq := l } } := fun _ => ⟨⟨rfl, List.prefix_rfl⟩, rfl, rfl⟩
  dsimp only
  split
  · next s' e => exact ((h _).trans (KeptLogs.of_take e)).trans (count_keptLogs _ _ _ _)
  · next s' e =>
    have g : KeptLogs s s' := (h _).trans (KeptLogs.of_take e)
    split
    · split
      · exact g.trans ((emit_keptLogs _ _).trans (fillBuf_keptLogs _ _))
      · exact g.trans (count_keptLogs _ _ _ _)
    · exact g.trans (emit_keptLogs _ _)
    · exact g.trans (noticeUdp_keptLogs _ _ _ _ _ _)
    · exact g.trans (noticeUdp_keptLogs _ _ _ _ _ _)
    · exact g.trans (noticeUdp_keptLogs _ _ _ _ _ _)
    · exact g

theorem noticeAll_keptLogs (s : State) (n : Notice) : KeptLogs s (s.noticeAll n) := by
  have one : ∀ (b : Bool) (s : State) (d : NoticeDest), KeptLogs s (if b then s.noticeTo d n else s) := by
    intro b s d
    split
    · exact noticeTo_keptLogs s d n
    · exact KeptLogs.refl s
  exact ((one _ s _).trans (one _ _ _)).trans (KeptLogs.fold (fun s k => one _ s _) _ _)

/-- A notification changes rings, interrupts, counters, notification sequences and the outputs, and nothing else (R68). -/
theorem notify_keptLogs (s : State) (op st u : Nat) (ws : List Word) : KeptLogs s (s.notify op st u ws) := by
  unfold State.notify
  split
  · exact noticeAll_keptLogs s _
  · exact KeptLogs.refl s

/-- Nothing is notified outside SAFE, CONFIG and RUN (R466). -/
theorem notify_of_down {s : State} (h : s.up = false) (op st u : Nat) (ws : List Word) : s.notify op st u ws = s := by
  simp [State.notify, h]

theorem placeReply_keptLogs (s : State) (ring len : Nat) (r : Reply) : KeptLogs s (s.placeReply ring len r) :=
  (emit_keptLogs s _).trans (fillBuf_keptLogs _ _)

theorem sendReply_keptLogs (s : State) (r : Reply) : KeptLogs s (s.sendReply r) := by
  unfold State.sendReply
  split
  · next s' e => exact (KeptLogs.of_take e).trans (count_keptLogs _ _ _ _)
  · next s' e =>
    refine (KeptLogs.of_take e).trans ?_
    split
    · dsimp only
      split
      · split
        · exact placeReply_keptLogs s' _ _ _
        · exact setRing_keptLogs s' _ _
      · exact count_keptLogs s' _ _ _
    · exact emit_keptLogs s' _
    · exact sendUdp_keptLogs s' _ _ _ _ _ _
    · exact sendUdp_keptLogs s' _ _ _ _ _ _
    · exact sendTcp_keptLogs s' _ _ _ _

/-- Replies whose turn has come leave; the rest wait (R42). -/
theorem sendOwed_keptLogs (s : State) : KeptLogs s s.sendOwed :=
  KeptLogs.trans ⟨⟨rfl, List.prefix_rfl⟩, rfl, rfl⟩ (KeptLogs.fold sendReply_keptLogs _ _)

theorem sendInOrder_keptLogs (s : State) (u : Nat) (r : Reply) : KeptLogs s (s.sendInOrder u r) := by
  unfold State.sendInOrder
  split
  · split
    · exact ⟨⟨rfl, List.prefix_rfl⟩, rfl, rfl⟩
    · exact sendReply_keptLogs s r
  · exact sendReply_keptLogs s r

theorem owe_keptLogs (s : State) (q : Req) (op u : Nat) : KeptLogs s (s.owe q op u) := by
  unfold State.owe
  split
  · split
    · exact KeptLogs.refl s
    · exact ⟨⟨rfl, List.prefix_rfl⟩, rfl, rfl⟩
  · exact KeptLogs.refl s

/-- Answering a request changes rings, interrupts, counters, FIFO words, the ports' queues, connections, the replies that wait
and the outputs, and nothing else (R34, R42, R70, R116). -/
theorem answer_keptLogs (s : State) (key : Option (List Byte)) (q : Req) (op u : Nat) (a : Ans) :
    KeptLogs s (s.answer key q op u a) := by
  unfold State.answer
  split
  · exact KeptLogs.refl s
  · exact sendInOrder_keptLogs s _ _

theorem answerLater_keptLogs (s : State) (q : Req) (op u : Nat) (a : Ans) : KeptLogs s (s.answerLater q op u a) := by
  unfold State.answerLater
  extract_lets gone r s1
  have h : KeptLogs s s1 := by
    dsimp only [s1]
    split
    · exact count_keptLogs s _ _ _
    · exact KeptLogs.refl s
  clear_value s1 r
  refine h.trans ?_
  split
  · exact KeptLogs.trans ⟨⟨rfl, List.prefix_rfl⟩, rfl, rfl⟩ (sendOwed_keptLogs _)
  · split
    · exact sendReply_keptLogs s1 _
    · exact KeptLogs.refl s1

/-! ### The logs -/

theorem setLog_kept (s : State) (m : Bool) (l : Log) : Kept s (s.setLog m l) := by
  cases m <;> exact ⟨rfl, List.prefix_rfl⟩

theorem setBucket_kept (s : State) (code : Nat) (b : Bucket) : Kept s (s.setBucket code b) := ⟨rfl, List.prefix_rfl⟩

theorem wearAdd_kept (s : State) (word n : Nat) : Kept s (s.wearAdd word n) := ⟨rfl, List.prefix_rfl⟩

theorem flushLog_kept (s : State) (m : Bool) : Kept s (s.flushLog m) := by
  have cnt : ∀ (s : State) (a b c : Nat), Kept s (s.count a b c) := fun s a b c => (count_keptLogs s a b c).1
  unfold State.flushLog
  simp only
  split
  · exact Kept.refl s
  · have h : ∀ (l : Log) (lost : Nat), Kept s (if lost = 0 then ((s.setLog m l).count 0x0E05 (logInst m) 1).wearAdd (6 + logInst m) 1
        else (((s.setLog m l).count 0x0E05 (logInst m) 1).wearAdd (6 + logInst m) 1).count 0x0E04 (logInst m) lost) := by
      intro l lost
      have b := ((setLog_kept s m l).trans (cnt _ 0x0E05 (logInst m) 1)).trans (wearAdd_kept _ (6 + logInst m) 1)
      split
      · exact b
      · exact b.trans (cnt _ _ _ _)
    split
    · exact (h _ _).trans (notify_keptLogs _ _ _ _ _).1
    · exact h _ _

theorem flushLogs_kept (s : State) : Kept s s.flushLogs := (flushLog_kept s false).trans (flushLog_kept _ true)

theorem pushRecord_kept (s : State) (m : Bool) (r : EvRec) : Kept s (s.pushRecord m r) := by
  have c : Kept s (s.count 0x0E01 (logInst m) 1) := (count_keptLogs s _ _ _).1
  unfold State.pushRecord
  simp only
  split
  · exact (c.trans (setLog_kept _ _ _)).trans (count_keptLogs _ _ _ _).1
  · exact c.trans (setLog_kept _ _ _)

theorem admitGen_kept (s : State) (code u sev supp t : Nat) (par : DWord) : Kept s (s.admitGen code u sev supp t par) := by
  have h : Kept s (if logPart false ≤ s.evt.gen.buf.length then s.flushLog false else s) := by
    split
    · exact flushLog_kept s false
    · exact Kept.refl s
  unfold State.admitGen
  simp only
  split
  · exact (h.trans (pushRecord_kept _ _ _)).trans (flushLogs_kept _)
  · exact h.trans (pushRecord_kept _ _ _)

theorem endFreeze_kept (s : State) (m : Bool) (cause : Nat) : Kept s (s.endFreeze m cause) := by
  unfold State.endFreeze
  split
  · exact Kept.refl s
  · exact ((setLog_kept s m _).trans (flushLog_kept _ m)).trans (admitGen_kept _ _ _ _ _ _ _)

theorem admitMet_kept (s : State) (code u sev : Nat) (plinth : Bool) (t : Nat) (par : DWord) :
    Kept s (s.admitMet code u sev plinth t par).1 := by
  unfold State.admitMet
  extract_lets s1
  have h : Kept s s1 := by
    dsimp only [s1]
    split
    · split
      · exact endFreeze_kept s true 2
      · exact flushLog_kept s true
    · exact Kept.refl s
  clear_value s1
  split
  · exact (h.trans (setLog_kept _ _ _)).trans (count_keptLogs _ _ _ _).1
  · dsimp only
    split
    · exact (h.trans (pushRecord_kept _ _ _)).trans (flushLogs_kept _)
    · exact h.trans (pushRecord_kept _ _ _)

theorem logEvB_kept (s : State) (code u t : Nat) (par : DWord) (plinth : Bool) : Kept s (s.logEvB code u t par plinth).1 := by
  unfold State.logEvB
  obtain ⟨sev, cls, g, m⟩ := evInfo code
  have met : ∀ s1, Kept s s1 → Kept s (if m then s1.admitMet code u sev plinth t par else (s1, true)).1 := by
    intro s1 h
    split
    · exact h.trans (admitMet_kept _ _ _ _ _ _ _)
    · exact h
  refine met _ ?_
  split
  · split
    · exact admitGen_kept s _ _ _ _ _ _
    · dsimp only
      split
      · exact (setBucket_kept s _ _).trans (count_keptLogs _ _ _ _).1
      · exact (setBucket_kept s _ _).trans (admitGen_kept _ _ _ _ _ _ _)
  · exact Kept.refl s

/-- A record changes the logs, their buckets, counters and wear, and what its notification changes; nothing else (R376). -/
theorem logEv_kept (s : State) (code u t : Nat) (par : DWord) : Kept s (s.logEv code u t par) := by
  unfold State.logEv
  exact logEvB_kept s code u t par false

theorem logCus_kept (s : State) (code t : Nat) (par : DWord) : Kept s (s.logCus code t par) := by
  unfold State.logCus
  simp only
  split
  · exact logEvB_kept s _ _ _ _ _
  · exact (logEvB_kept s _ _ _ _ _).trans (count_keptLogs _ _ _ _).1

/-! ### The frames field by field -/

@[simp] theorem setCtr_fields (s : State) (id inst v : Nat) :
    Fields s (s.setCtr id inst v) ∧ (s.setCtr id inst v).evt = s.evt ∧ (s.setCtr id inst v).mem = s.mem :=
  ⟨(setCtr_keptLogs s id inst v).1.fields, rfl, rfl⟩

@[simp] theorem count_fields (s : State) (id inst n : Nat) :
    Fields s (s.count id inst n) ∧ (s.count id inst n).evt = s.evt ∧ (s.count id inst n).mem = s.mem :=
  ⟨(count_keptLogs s id inst n).1.fields, rfl, rfl⟩

@[simp] theorem count2_fields (s : State) (id inst n : Nat) :
    Fields s (s.count2 id inst n) ∧ (s.count2 id inst n).evt = s.evt ∧ (s.count2 id inst n).mem = s.mem :=
  ⟨(count2_keptLogs s id inst n).1.fields, rfl, rfl⟩

@[simp] theorem emit_fields (s : State) (o : Output) :
    Fields s (s.emit o) ∧ (s.emit o).ctl = s.ctl ∧ (s.emit o).evt = s.evt ∧ (s.emit o).mem = s.mem :=
  ⟨(emit_keptLogs s o).1.fields, rfl, rfl, rfl⟩

@[simp] theorem emit_out (s : State) (o : Output) : (s.emit o).out = s.out ++ [o] := rfl

@[simp] theorem setRing_fields (s : State) (n : Nat) (r : Ring) :
    Fields s (s.setRing n r) ∧ (s.setRing n r).evt = s.evt ∧ (s.setRing n r).mem = s.mem ∧ (s.setRing n r).out = s.out :=
  ⟨(setRing_keptLogs s n r).1.fields, rfl, rfl, rfl⟩

@[simp] theorem raiseIrq_fields (s : State) (v : Nat) :
    Fields s (s.raiseIrq v) ∧ (s.raiseIrq v).evt = s.evt ∧ (s.raiseIrq v).mem = s.mem :=
  ⟨(raiseIrq_keptLogs s v).1.fields, (raiseIrq_keptLogs s v).2⟩

@[simp] theorem takeItem_fields (s : State) (f : Nat) :
    Fields s (s.takeItem f).1 ∧ (s.takeItem f).1.evt = s.evt ∧ (s.takeItem f).1.mem = s.mem :=
  ⟨(takeItem_keptLogs s f).1.fields, (takeItem_keptLogs s f).2⟩

/-- A FIFO that lists no word delivers an item whole and changes nothing (R394). -/
theorem takeItem_empty {s : State} {f : Nat} (h : (s.ctl.fifo.get? f).isNone && (s.ctl.taken.get? f).isNone) :
    s.takeItem f = (s, false) := by
  unfold State.takeItem State.takeWords
  rw [if_pos h]
  rfl

@[simp] theorem setPort_fields (s : State) (n : Nat) (p : Port) :
    Fields s (s.setPort n p) ∧ (s.setPort n p).ctl = s.ctl ∧ (s.setPort n p).evt = s.evt ∧ (s.setPort n p).mem = s.mem ∧
      (s.setPort n p).out = s.out :=
  ⟨(setPort_keptLogs s n p).1.fields, rfl, rfl, rfl, rfl⟩

@[simp] theorem queueTx_fields (s : State) (n : Nat) (x : TxItem) :
    Fields s (s.queueTx n x) ∧ (s.queueTx n x).evt = s.evt ∧ (s.queueTx n x).mem = s.mem :=
  ⟨(queueTx_keptLogs s n x).1.fields, (queueTx_keptLogs s n x).2⟩

@[simp] theorem sendUdp_fields (s : State) (n rank src : Nat) (p : Peer) (l : List Byte) (msg : Option Output) :
    Fields s (s.sendUdp n rank src p l msg) ∧ (s.sendUdp n rank src p l msg).evt = s.evt ∧
      (s.sendUdp n rank src p l msg).mem = s.mem :=
  ⟨(sendUdp_keptLogs s n rank src p l msg).1.fields, (sendUdp_keptLogs s n rank src p l msg).2⟩

@[simp] theorem sendTcp_fields (s : State) (k rank : Nat) (l : List Byte) (msg : Option Output) :
    Fields s (s.sendTcp k rank l msg) ∧ (s.sendTcp k rank l msg).evt = s.evt ∧ (s.sendTcp k rank l msg).mem = s.mem :=
  ⟨(sendTcp_keptLogs s k rank l msg).1.fields, (sendTcp_keptLogs s k rank l msg).2⟩

@[simp] theorem owe_fields (s : State) (q : Req) (op u : Nat) :
    Fields s (s.owe q op u) ∧ (s.owe q op u).evt = s.evt ∧ (s.owe q op u).mem = s.mem :=
  ⟨(owe_keptLogs s q op u).1.fields, (owe_keptLogs s q op u).2⟩

@[simp] theorem fillBuf_fields (s : State) (n : Nat) :
    Fields s (s.fillBuf n) ∧ (s.fillBuf n).evt = s.evt ∧ (s.fillBuf n).mem = s.mem :=
  ⟨(fillBuf_keptLogs s n).1.fields, (fillBuf_keptLogs s n).2⟩

@[simp] theorem notify_fields (s : State) (op st u : Nat) (ws : List Word) :
    Fields s (s.notify op st u ws) ∧ (s.notify op st u ws).evt = s.evt ∧ (s.notify op st u ws).mem = s.mem :=
  ⟨(notify_keptLogs s op st u ws).1.fields, (notify_keptLogs s op st u ws).2⟩

@[simp] theorem sendReply_fields (s : State) (r : Reply) :
    Fields s (s.sendReply r) ∧ (s.sendReply r).evt = s.evt ∧ (s.sendReply r).mem = s.mem :=
  ⟨(sendReply_keptLogs s r).1.fields, (sendReply_keptLogs s r).2⟩

@[simp] theorem answer_fields (s : State) (key : Option (List Byte)) (q : Req) (op u : Nat) (a : Ans) :
    Fields s (s.answer key q op u a) ∧ (s.answer key q op u a).evt = s.evt ∧ (s.answer key q op u a).mem = s.mem :=
  ⟨(answer_keptLogs s key q op u a).1.fields, (answer_keptLogs s key q op u a).2⟩

@[simp] theorem answerLater_fields (s : State) (q : Req) (op u : Nat) (a : Ans) :
    Fields s (s.answerLater q op u a) ∧ (s.answerLater q op u a).evt = s.evt ∧ (s.answerLater q op u a).mem = s.mem :=
  ⟨(answerLater_keptLogs s q op u a).1.fields, (answerLater_keptLogs s q op u a).2⟩

@[simp] theorem setLog_fields (s : State) (m : Bool) (l : Log) :
    Fields s (s.setLog m l) ∧ (s.setLog m l).ctl = s.ctl ∧ (s.setLog m l).mem = s.mem ∧ (s.setLog m l).out = s.out :=
  ⟨(setLog_kept s m l).fields, by cases m <;> exact ⟨rfl, rfl, rfl⟩⟩

@[simp] theorem setBucket_fields (s : State) (code : Nat) (b : Bucket) :
    Fields s (s.setBucket code b) ∧ (s.setBucket code b).ctl = s.ctl ∧ (s.setBucket code b).mem = s.mem ∧
      (s.setBucket code b).out = s.out :=
  ⟨(setBucket_kept s code b).fields, rfl, rfl, rfl⟩

@[simp] theorem wearAdd_fields (s : State) (word n : Nat) :
    Fields s (s.wearAdd word n) ∧ (s.wearAdd word n).ctl = s.ctl ∧ (s.wearAdd word n).evt = s.evt ∧ (s.wearAdd word n).out = s.out :=
  ⟨(wearAdd_kept s word n).fields, rfl, rfl, rfl⟩

@[simp] theorem flushLogs_fields (s : State) : Fields s s.flushLogs := (flushLogs_kept s).fields

@[simp] theorem admitGen_fields (s : State) (code u sev supp t : Nat) (par : DWord) :
    Fields s (s.admitGen code u sev supp t par) := (admitGen_kept s code u sev supp t par).fields

@[simp] theorem endFreeze_fields (s : State) (m : Bool) (cause : Nat) : Fields s (s.endFreeze m cause) :=
  (endFreeze_kept s m cause).fields

@[simp] theorem logEv_fields (s : State) (code u t : Nat) (par : DWord) : Fields s (s.logEv code u t par) :=
  (logEv_kept s code u t par).fields

@[simp] theorem logCus_fields (s : State) (code t : Nat) (par : DWord) : Fields s (s.logCus code t par) :=
  (logCus_kept s code t par).fields

/-! ### What the fields decide -/

/-- Parameters in force, run states and time are read alike before and after a message. -/
theorem Kept.reads {s t : State} (h : Kept s t) :
    (∀ id inst, t.par id inst = s.par id inst) ∧ (∀ id inst, t.parN id inst = s.parN id inst) ∧ t.now = s.now ∧
    (∀ u, t.unit u = s.unit u) ∧ (∀ u, t.runs u = s.runs u) ∧ t.up = s.up ∧ t.measuring = s.measuring ∧
    (∀ q, t.sessionKey q = s.sessionKey q) := by
  have f := h.fields
  simp only [State.par, State.parN, State.now, State.unit, State.runs, State.up, State.measuring, State.sessionKey, f, implies_true,
    and_self]

/-! ### Plain updates of one group -/

@[simp] theorem advance_now (s : State) (dt : Nat) : (s.advance dt).now = s.now + dt := rfl

@[simp] theorem advance_fields (s : State) (dt : Nat) :
    (s.advance dt).pending = s.pending ∧ (s.advance dt).ident = s.ident ∧ (s.advance dt).pwr = s.pwr ∧
    (s.advance dt).units = s.units ∧ (s.advance dt).lands = s.lands ∧ (s.advance dt).alarms = s.alarms ∧
    (s.advance dt).ctl = s.ctl ∧ (s.advance dt).prt = s.prt ∧ (s.advance dt).ing = s.ing ∧ (s.advance dt).aln = s.aln ∧
    (s.advance dt).osc = s.osc ∧ (s.advance dt).arm = s.arm ∧ (s.advance dt).cus = s.cus ∧ (s.advance dt).cnv = s.cnv ∧
    (s.advance dt).flt = s.flt ∧ (s.advance dt).cap = s.cap ∧ (s.advance dt).lgc = s.lgc ∧ (s.advance dt).vlt = s.vlt ∧
    (s.advance dt).evt = s.evt ∧ (s.advance dt).mem = s.mem ∧ (s.advance dt).out = s.out := by
  simp [State.advance]

@[simp] theorem setPar_fields (s : State) (id inst : Nat) (v : List Word) :
    (s.setPar id inst v).pending = s.pending ∧ (s.setPar id inst v).ident = s.ident ∧ (s.setPar id inst v).pwr = s.pwr ∧
    (s.setPar id inst v).units = s.units ∧ (s.setPar id inst v).lands = s.lands ∧ (s.setPar id inst v).alarms = s.alarms ∧
    (s.setPar id inst v).prt = s.prt ∧ (s.setPar id inst v).tim = s.tim ∧ (s.setPar id inst v).ing = s.ing ∧
    (s.setPar id inst v).aln = s.aln ∧ (s.setPar id inst v).osc = s.osc ∧ (s.setPar id inst v).arm = s.arm ∧
    (s.setPar id inst v).cus = s.cus ∧ (s.setPar id inst v).cnv = s.cnv ∧ (s.setPar id inst v).flt = s.flt ∧
    (s.setPar id inst v).cap = s.cap ∧ (s.setPar id inst v).lgc = s.lgc ∧ (s.setPar id inst v).vlt = s.vlt ∧
    (s.setPar id inst v).evt = s.evt ∧ (s.setPar id inst v).mem = s.mem ∧ (s.setPar id inst v).out = s.out ∧
    (s.setPar id inst v).ctl.sessions = s.ctl.sessions ∧ (s.setPar id inst v).ctl.maquette = s.ctl.maquette ∧
    (s.setPar id inst v).ctl.commit = s.ctl.commit ∧ (s.setPar id inst v).ctl.counters = s.ctl.counters ∧
    (s.setPar id inst v).ctl.rings = s.ctl.rings := by
  simp [State.setPar]

@[simp] theorem setDev_fields (s : State) (d : DevState) :
    (s.setDev d).pwr.dev = d ∧ (s.setDev d).pwr.pfw = s.pwr.pfw ∧ (s.setDev d).ctl = s.ctl ∧ (s.setDev d).units = s.units ∧
    (s.setDev d).tim = s.tim ∧ (s.setDev d).vlt = s.vlt ∧ (s.setDev d).cus = s.cus ∧ (s.setDev d).evt = s.evt ∧
    (s.setDev d).mem = s.mem ∧ (s.setDev d).out = s.out ∧ (s.setDev d).ident = s.ident ∧ (s.setDev d).pending = s.pending ∧
    (s.setDev d).alarms = s.alarms := by
  simp [State.setDev]

@[simp] theorem endSessions_fields (s : State) :
    s.endSessions.ctl.sessions = [] ∧ s.endSessions.pwr = s.pwr ∧ s.endSessions.units = s.units ∧ s.endSessions.tim = s.tim ∧
    s.endSessions.vlt = s.vlt ∧ s.endSessions.cus = s.cus ∧ s.endSessions.evt = s.evt ∧ s.endSessions.mem = s.mem ∧
    s.endSessions.out = s.out ∧ s.endSessions.ident = s.ident ∧ s.endSessions.pending = s.pending ∧
    s.endSessions.alarms = s.alarms ∧ s.endSessions.ctl.cfg = s.ctl.cfg := by
  simp [State.endSessions]

@[simp] theorem setUnitQuiet_fields (s : State) (u st : Nat) :
    (s.setUnitQuiet u st).pwr = s.pwr ∧ (s.setUnitQuiet u st).ctl = s.ctl ∧ (s.setUnitQuiet u st).tim = s.tim ∧
    (s.setUnitQuiet u st).vlt = s.vlt ∧ (s.setUnitQuiet u st).cus = s.cus ∧ (s.setUnitQuiet u st).evt = s.evt ∧
    (s.setUnitQuiet u st).mem = s.mem ∧ (s.setUnitQuiet u st).out = s.out ∧ (s.setUnitQuiet u st).ident = s.ident ∧
    (s.setUnitQuiet u st).pending = s.pending ∧ (s.setUnitQuiet u st).alarms = s.alarms := by
  simp [State.setUnitQuiet]

/-- A unit's run state after it is set. -/
@[simp] theorem setUnitQuiet_unit (s : State) (u st : Nat) : (s.setUnitQuiet u st).unit u = { s.unit u with st := st } := by
  simp [State.setUnitQuiet, State.unit]

end Laws

end Sys2Proof
end

