-- ==== Sys2Proof/Laws/Serve.lean ====
section
/-! SUPPORT. Serving a request (R38, R39): what `State.serve` answers once a request is admitted. -/

namespace Sys2Proof

open Sys2Proof.Machine

/-- Every carriage takes a reply of 10 payload words, tagged or not. -/
theorem fits_of_short {c : Carriage} {tagged : Bool} {a : Ans} (h : a.2.length ≤ 10) : fits c tagged a = true := by
  unfold fits
  cases tagged <;> cases c <;> simp [Carriage.maxLength] <;> omega

/-- An admitted request runs its body in the state that admitted it, and is answered or owes its reply. -/
theorem serve_runs {s t : State} {q : Req} {op u least need role : Nat} {uc : Bool} {body : Nat → State → State × Option Ans}
    (h : Admitted s q op u least need uc t role) :
    s.serve q op u least need uc body =
      match body role t with
      | (t', none) =>
        if ((t.sessionKey q).isSome && (t'.sessionKey q).isNone) || t'.pwr.dev == .sleep || t'.pwr.dev == .halt then t'
        else t'.owe q op u
      | (t', some a) =>
        if fits q.carriage (t.sessionKey q).isSome a then t'.answer (t.sessionKey q) q op u a
        else t.answer (t.sessionKey q) q op u (0x0116, [detail 0xFFFF 0]) := by
  obtain ⟨h1, h2, h3, h4⟩ := h
  unfold State.serve
  rw [if_pos h1]
  generalize (s.release q.carriage).arrive q.carriage op = x at h2 h3
  obtain ⟨x, y, z⟩ := x
  simp only [Prod.mk.injEq] at h2
  obtain ⟨rfl, rfl⟩ := h2
  simp only [h3, Bool.false_eq_true, if_false, Nat.not_lt.mpr h4]
  all_goals rfl

/-- An admitted request whose body answers `a`, which fits, is answered with it. -/
theorem serve_answers {s t t' : State} {q : Req} {op u least need role : Nat} {uc : Bool} {a : Ans}
    {body : Nat → State → State × Option Ans}
    (h : Admitted s q op u least need uc t role) (hb : body role t = (t', some a))
    (hf : fits q.carriage (t.sessionKey q).isSome a = true) :
    s.serve q op u least need uc body = t'.answer (t.sessionKey q) q op u a := by
  simp [serve_runs h, hb, hf]

/-- An admitted request whose body answers OK with a payload that fits. -/
theorem serve_ok {s t t' : State} {q : Req} {op u least need role : Nat} {uc : Bool} {ws : List Word}
    {body : Nat → State → State × Option Ans}
    (h : Admitted s q op u least need uc t role) (hb : body role t = (t', ok ws)) (hf : ReplyFits t q ws) :
    s.serve q op u least need uc body = replied t t' q op u ws :=
  serve_answers h hb hf

/-- The same for a payload of at most 10 words, which always fits. -/
theorem serve_ok_short {s t t' : State} {q : Req} {op u least need role : Nat} {uc : Bool} {ws : List Word}
    {body : Nat → State → State × Option Ans}
    (h : Admitted s q op u least need uc t role) (hb : body role t = (t', ok ws)) (hf : ws.length ≤ 10) :
    s.serve q op u least need uc body = replied t t' q op u ws :=
  serve_ok h hb (fits_of_short hf)

/-- An admitted request whose reply is deferred: the reply is owed, unless the request's session has ended or the module went
to SLEEP or HALT (R42). -/
theorem serve_later {s t t' : State} {q : Req} {op u least need role : Nat} {uc : Bool}
    {body : Nat → State → State × Option Ans}
    (h : Admitted s q op u least need uc t role) (hb : body role t = (t', none)) :
    s.serve q op u least need uc body =
      if ((t.sessionKey q).isSome && (t'.sessionKey q).isNone) || t'.pwr.dev == .sleep || t'.pwr.dev == .halt then t'
      else t'.owe q op u := by
  simp [serve_runs h, hb]

/-- A deferred reply is owed, where the sessions stay and the module stays in SAFE, CONFIG or RUN (R42). -/
theorem serve_owed {s t t' : State} {q : Req} {op u least need role : Nat} {uc : Bool}
    {body : Nat → State → State × Option Ans}
    (h : Admitted s q op u least need uc t role) (hb : body role t = (t', none)) (hs : t'.ctl.sessions = t.ctl.sessions)
    (hu : t'.up = true) : s.serve q op u least need uc body = t'.owe q op u := by
  have hk : t'.sessionKey q = t.sessionKey q := by simp [State.sessionKey, hs]
  have hd : t'.pwr.dev ≠ .sleep ∧ t'.pwr.dev ≠ .halt := by
    revert hu
    unfold State.up
    cases t'.pwr.dev <;> simp
  rw [serve_later h hb, hk, if_neg]
  cases h : t.sessionKey q <;> simp [hd]

/-- A request nobody hears does nothing. -/
theorem serve_unheard {s : State} {q : Req} {op u least need : Nat} {uc : Bool} {body : Nat → State → State × Option Ans}
    (h : s.hears q.carriage = false) : s.serve q op u least need uc body = s := by
  simp [State.serve, h]

/-- What a request's prelude, its body and its answer each keep, serving the request keeps: for a relation between states
that is transitive and that taking a request off its carriage, reading its words, admitting it and answering it respect. -/
theorem serve_rel {R : State → State → Prop} (trans : ∀ {a b c}, R a b → R b c → R a c) (refl : ∀ a, R a a)
    (hr : ∀ (s : State) c, R s (s.release c))
    (hw : ∀ (s : State) c op, R s (s.arrive c op).1)
    (hp : ∀ (s : State) q op, R s (s.poisonedRequest q op))
    (ha : ∀ (s : State) q op u least uc, R s (s.admission q op u least uc).1)
    (hn : ∀ (s : State) key q op u a, R s (s.answer key q op u a))
    (ho : ∀ (s : State) q op u, R s (s.owe q op u))
    {s : State} {q : Req} {op u least need : Nat} {uc : Bool} {body : Nat → State → State × Option Ans}
    (hb : ∀ role t, R t (body role t).1) : R s (s.serve q op u least need uc body) := by
  have h := trans (hr s q.carriage) (hw (s.release q.carriage) q.carriage op)
  unfold State.serve
  split
  · split
    · next x _ e => rw [e] at h; exact trans h (hp _ _ _)
    · next x lost e =>
      rw [e] at h
      replace h := trans h (ha x q op u least uc)
      split
      · next s' _ st e => rw [e] at h; exact trans h (hn _ _ _ _ _ _)
      · next s' role e =>
        rw [e] at h
        dsimp only
        split
        · exact trans h (hn _ _ _ _ _ _)
        · split
          · exact trans h (hn _ _ _ _ _ _)
          · have b := hb role s'
            split
            · next s'' e' =>
              rw [e'] at b
              split
              · exact trans h b
              · exact trans (trans h b) (ho _ _ _ _)
            · next s'' a e' =>
              rw [e'] at b
              split
              · exact trans (trans h b) (hn _ _ _ _ _ _)
              · exact trans h (hn _ _ _ _ _ _)
  · exact refl s

/-- The state without what taking a request off its carriage changes: command buffers, rings, the largest depths, connections,
the words of the FIFOs and the counters. -/
def untaken (s : State) : State :=
  { s with ctl := { s.ctl with
      buffers := [], unfetched := [], lastCmdRing := 0, rings := [], maxDepth := [], tcp := [], fifo := [], taken := [], counters := [] } }

/-- `t` is `s` but for what taking a request off its carriage changes (R37, R70, R390, R391, R394). -/
def Taken (s t : State) : Prop := untaken t = untaken s

theorem Taken.refl (s : State) : Taken s s := rfl

theorem Taken.trans {s t u : State} (h : Taken s t) (g : Taken t u) : Taken s u := Eq.trans g h

theorem Taken.fold {α : Type} {f : State → α → State} (h : ∀ s a, Taken s (f s a)) (l : List α) (s : State) :
    Taken s (l.foldl f s) := by
  induction l generalizing s with
  | nil => exact Taken.refl s
  | cons a l ih => exact (h s a).trans (ih (f s a))

/-- A state with a request taken is the state before with the parts of the control complex that this changes. -/
theorem Taken.eq {s t : State} (h : Taken s t) : t = { s with ctl := { s.ctl with
    buffers := t.ctl.buffers, unfetched := t.ctl.unfetched, lastCmdRing := t.ctl.lastCmdRing, rings := t.ctl.rings
    maxDepth := t.ctl.maxDepth, tcp := t.ctl.tcp, fifo := t.ctl.fifo, taken := t.ctl.taken, counters := t.ctl.counters } } :=
  congrArg (fun u : State => { u with ctl := { u.ctl with
    buffers := t.ctl.buffers, unfetched := t.ctl.unfetched, lastCmdRing := t.ctl.lastCmdRing, rings := t.ctl.rings
    maxDepth := t.ctl.maxDepth, tcp := t.ctl.tcp, fifo := t.ctl.fifo, taken := t.ctl.taken, counters := t.ctl.counters } }) h

theorem noteDepth_taken (s : State) (l : List Nat) : Taken s (s.noteDepth l) := by
  refine Taken.fold (fun s k => ?_) l s
  dsimp only
  split
  · rfl
  · rfl

theorem fetchMore_taken (s : State) : Taken s s.fetchMore := by
  unfold State.fetchMore
  split
  · rfl
  · split
    · split
      · exact Taken.trans (t := { s with ctl := { s.ctl with buffers := _, unfetched := _, lastCmdRing := _, rings := _ } }) rfl
          (noteDepth_taken _ _)
      · exact Taken.trans (t := { s with ctl := { s.ctl with buffers := _, unfetched := _ } }) rfl (noteDepth_taken _ _)
    · rfl

/-- Taking a request off its carriage (R37, R70). -/
theorem release_taken (s : State) (c : Carriage) : Taken s (s.release c) := by
  have h : Taken s (if s.ctl.buffers.any (fun b => b.1 == c) then
      State.fetchMore { s with ctl := { s.ctl with buffers := s.ctl.buffers.eraseP (fun b => b.1 == c) } } else s) := by
    split
    · exact Taken.trans (t := { s with ctl := { s.ctl with buffers := _ } }) rfl (fetchMore_taken _)
    · rfl
  unfold State.release
  dsimp only
  generalize (if s.ctl.buffers.any (fun b => b.1 == c) then
    State.fetchMore { s with ctl := { s.ctl with buffers := s.ctl.buffers.eraseP (fun b => b.1 == c) } } else s) = s1 at h ⊢
  refine h.trans ?_
  split
  · split <;> rfl
  · rfl

theorem takeItem_taken (s : State) (f : Nat) : Taken s (s.takeItem f).1 := by
  have count : ∀ (s : State) id inst n, Taken s (s.count id inst n) := fun _ _ _ _ => rfl
  unfold State.takeItem State.takeWords
  split
  · rfl
  · have h : Taken s (s.fifoRead f 16) := by
      unfold State.fifoRead State.count2
      extract_lets l out c s1
      exact (show Taken s s1 from rfl).trans ((count s1 _ _ _).trans (count _ _ _ _))
    exact h.trans rfl

/-- Reading the words of a request (R394 to R396). -/
theorem arrive_taken (s : State) (c : Carriage) (op : Nat) : Taken s (s.arrive c op).1 := by
  have h : ∀ f, Taken s (if s.fifoFill 64 = 0 then (s.takeItem f).1 else (s.takeItem f).1.fetchMore) := by
    intro f
    split
    · exact takeItem_taken s f
    · exact (takeItem_taken s f).trans (fetchMore_taken _)
  unfold State.arrive
  dsimp only
  split
  · exact ((h _).trans (takeItem_taken _ 73)).trans (takeItem_taken _ 72)
  · exact h _

/-! ### Nothing in a FIFO or a command buffer -/

theorem takeItem_quiet {s : State} (h : Quiet s) (f : Nat) : s.takeItem f = (s, false) :=
  Laws.takeItem_empty (by simp [h.1, h.2.1, AMap.get?])

theorem arrive_quiet {s : State} (h : Quiet s) (c : Carriage) (op : Nat) : s.arrive c op = (s, false, false) := by
  simp [State.arrive, takeItem_quiet h, State.fifoFill, h.1, AMap.getD, AMap.get?]

/-- A request that lies in no buffer leaves a carriage that is no TCP connection as it was. -/
theorem release_quiet {s : State} (h : Quiet s) {c : Carriage} (hc : ∀ k, c ≠ .tcp k) : s.release c = s := by
  obtain ⟨_, _, hb⟩ := h
  unfold State.release
  cases c <;> simp_all

/-- On a TCP connection the instant of its last packet follows (R37). -/
theorem release_quiet_tcp {s : State} (h : Quiet s) (c : Carriage) :
    ∃ m, s.release c = { s with ctl := { s.ctl with tcp := m } } := by
  cases c with
  | tcp k =>
    unfold State.release
    rw [if_neg (by simp [h.2.2])]
    dsimp only
    split
    · exact ⟨_, rfl⟩
    · exact ⟨s.ctl.tcp, rfl⟩
  | _ => exact ⟨s.ctl.tcp, release_quiet h (by simp)⟩

/-- Admitting a request changes only the counters and its session's SEQUENCE and last instant, and opens and ends no session
(R39, R43). -/
theorem admission_frame (s : State) (q : Req) (op u least : Nat) (uc : Bool) :
    ∃ n m, (s.admission q op u least uc).1 = { s with ctl := { s.ctl with counters := n, sessions := m } } ∧
      (s.ctl.sessions.wf = true → m.wf = true ∧ m.length = s.ctl.sessions.length) := by
  have check : ∃ n m, (s.checkSession q op).1 = { s with ctl := { s.ctl with counters := n, sessions := m } } ∧
      (s.ctl.sessions.wf = true → m.wf = true ∧ m.length = s.ctl.sessions.length) := by
    unfold State.checkSession
    split
    · split
      · exact ⟨_, _, rfl, fun h => ⟨h, rfl⟩⟩
      · exact ⟨_, _, rfl, fun h => ⟨h, rfl⟩⟩
    · split
      · exact ⟨_, _, rfl, fun h => ⟨h, rfl⟩⟩
      · next x hx =>
        split
        · exact ⟨_, _, rfl, fun h => ⟨h, rfl⟩⟩
        · have pass : ∀ y : Session, (s.ctl.sessions.wf = true →
              (s.ctl.sessions.set q.session y).wf = true ∧ (s.ctl.sessions.set q.session y).length = s.ctl.sessions.length) :=
            fun y h => ⟨AMap.wf_set _ _ h, AMap.length_set_of_listed y h hx⟩
          split <;> split <;> first
            | exact ⟨_, _, rfl, fun h => ⟨h, rfl⟩⟩
            | exact ⟨_, _, rfl, pass _⟩
  obtain ⟨n, m, e, hm⟩ := check
  unfold State.admission
  split
  · exact ⟨_, _, rfl, fun h => ⟨h, rfl⟩⟩
  · split
    · next s' role e' => rw [e'] at e; exact ⟨n, m, e, hm⟩
    · next s' role e' =>
      rw [e'] at e
      dsimp only at e
      subst e
      split
      · exact ⟨_, m, rfl, hm⟩
      · split
        · exact ⟨n, m, rfl, hm⟩
        · split
          · exact ⟨n, m, rfl, hm⟩
          · split
            · split <;> exact ⟨n, m, rfl, hm⟩
            · exact ⟨n, m, rfl, hm⟩

end Sys2Proof
end

