-- ==== Sys2Proof/Tests/Slice0.lean ====
section
/-! SUPPORT. Tests: each check of well-formedness refuses an ill-formed command; the hypotheses of the statements are met; the
checksums and the digest give the values their standards publish. -/

namespace Sys2Proof.Tests

open Sys2Proof Sys2Proof.Machine

set_option Elab.async false

/-! ### Helper states and requests -/

/-- The block with boot behind it, in the device state `d`, every unit running and nothing configured. -/
def inState (d : DevState) : State :=
  { State.reset with
    pwr := { State.reset.pwr with dev := d }
    units := unitIds.map (fun u => (u, { epoch := 0, st := 0 })) }

/-- In CONFIG. -/
def cfg : State := inState .config

/-- In RUN. -/
def run : State := inState .run

/-- The state with a parameter of one word in force. -/
def withPar (s : State) (id inst v : Nat) : State := s.setPar id inst [BitVec.ofNat 32 v]

/-- A request on the UART without a session: role PUBLIC. -/
def pub (ws : List Nat) : Req :=
  { carriage := .uart, tag := 7, auth := false, noreply := false, urgent := false, session := 0, seq := 1, epoch := 0
    authTag := [], payload := ws.map (BitVec.ofNat 32) }

/-- A request on the host link: role OPERATOR. -/
def opr (ws : List Nat) : Req := { pub ws with carriage := .host 48 }

/-- An OWNER session. -/
def owner : Session :=
  { slot := 3, role := 2, key := [1, 2, 3, 4], active := true, hostNonce := [], modNonce := [], lastSeq := some 0, lastAt := 0
    conn := none }

/-- The state with the OWNER session 1 open. -/
def withOwner (s : State) : State := { s with ctl := { s.ctl with sessions := [(1, owner)] } }

/-- A request of the OWNER session 1, with its tag. -/
def own (op : Nat) (ws : List Nat) : Req :=
  let q := { pub ws with auth := true, session := 1 }
  { q with authTag := authTagOf owner.key (tagWords q op) }

/-- The state in which an admitted request runs. -/
def ran (s : State) (q : Req) (op u least : Nat) : State := ((s.release q.carriage).admission q op u least true).1

/-- The outcome is a next state of which `p` holds. -/
def goes (o : Out) (p : State → Bool) : Bool :=
  match o with
  | .next s => p s
  | .fault _ => false
  | .refused _ => false

/-! ### Well-formedness: each check refuses an ill-formed command -/

/-- A host-link ring that is no command ring, a port above 31, a connection above 63, a session above 255, a reserved flag above
five bits, a tag without AUTH, AUTH without its tag. -/
theorem test_wf_requests : [Instr.nop 0 { pub [] with carriage := .host 47 }, .nop 0 { pub [] with carriage := .host 56 },
    .nop 0 { pub [] with carriage := .udp4 32 ⟨0, 0⟩ }, .nop 0 { pub [] with carriage := .udp6 32 ⟨0, 0⟩ },
    .nop 0 { pub [] with carriage := .tcp 64 }, .nop 0 { pub [] with session := 256 }, .nop 0 { pub [] with rsv := 32 },
    .nop 0 { pub [] with authTag := [1] }, .nop 0 { pub [] with auth := true }].all (fun c => !c.wf) = true := by decide

theorem test_wf_length : (Instr.nop 0 { pub [] with payload := List.replicate 16380 0 }).wf = false := by decide +kernel

/-- A frame of IRIG-B with an element too few; a format above 7. -/
theorem test_wf_irig : [Instr.irigFrameReceived 0 { format := 8, edge := 0, bits := List.replicate 100 false },
    .irigFrameReceived 0 { format := 7, edge := 0, bits := List.replicate 99 false }].all (fun c => !c.wf) = true := by
  decide +kernel

theorem test_wf_carriages : [Instr.sessionPhase2Timeout 0 0, .sessionIdleTimeout 0 256, .packetBadFraming 0 .uart 0 [1],
    .packetBadFraming 0 (.tcp 64) 1 [1], .tcpConnectionRequest 0 32 0 ⟨0, 0⟩, .tcpConnectionRequest 0 0 65536 ⟨0, 0⟩,
    .tcpConnectionIdleClose 0 64, .replyWaitTimeout 0 55, .replyWaitTimeout 0 64, .doorbellWrite 0 64 0 (.buffers []),
        .doorbellWrite 0 0 65536 (.buffers []),
    .ringCtlWrite 0 64 0, .bar0RegisterWrite 0 65536 0, .bar0RegisterWrite 0 2 0, .liveWindowLowRead 0 65536 (.low 0),
    .liveWindowLowRead 0 0 (.low 4096), .liveWindowLowRead 0 0 (.whole 4), .liveWindowLowRead 0 0 (.bar0 65536),
        .liveWindowLowRead 0 0 (.bar0 2),
    .liveWindowHighRead 0 65536 0, .liveWindowHighRead 0 0 4096, .liveWindowHighRead 0 0 4, .liveWindowWrite 0 4096 0,
    .irqHoldoffExpiry 0 64].all (fun c => !c.wf) = true := by decide

theorem test_wf_ports : [Instr.linkDown 0 32, .txFrame 0 32, .txSend 0 31, .txSend 0 48, .ptpAnnounceReceived 0 32 [],
    .ptpAnnounceTimeout 0 32 true, .ingressFrame 0 32 0 (.ocf []), .c37CfgReceived 0 ⟨32, 0, 0, []⟩, .stationControlAck 0 32 [],
    .fragmentReceived 0 { port := 32, v6 := false, src := 0, dst := 0, ident := 0, proto := 0, offset := 0, more := false, head := []
                          data := [] }].all (fun c => !c.wf) = true := by decide

theorem test_wf_units : [Instr.referenceQualified 0 0, .referenceDisqualified 0 4, .cfgRetryTimer 0 8192, .sourceDead 0 8192,
    .slotOpen 0 64 0, .oafLayoutRepeat 0 64, .c37OutputCommand 0 256 ⟨0, 0⟩ 1, .c37OutputCommand 0 0 ⟨0, 0⟩ 65536,
        .fdEvaluate 0 256 0,
    .mtSlotRead 0 4, .mtSignalRejoin 0 4 0, .mtSignalRejoin 0 0 64, .armStatusChange 0 8192 true 0, .travelTimeout 0 8192,
    .dinStatusDebounced 0 8 true 0, .dinTriggerEdge 0 8 true 0, .dinPulseEdge 0 8 true, .armMeasEvaluate 0 16 0,
        .balEvaluate 0 64 0,
    .directionDebounce 0 512, .owChop 0 40 0 0 0, .calCycleStart 0 24, .calComparisonDone 0 27 0 0 0, .calCalibrationDone 0 27 0 0,
    .fltBankSwap 0 25, .capAutoTimeout 0 8, .gooseRepeat 0 32, .tamperDetected 0 256, .tokenRefill 0 65536, .coreRetire 0 18 none,
    .fifoLevelHit 0 74 [], .fifoLevelHit 0 0 (List.replicate 17 ⟨0, 0, false, false⟩), .fifoLevelRelease 0 74 0,
        .fifoLevelRelease 0 0 17,
    .resetNRelease 0 4, .samplingInstant 0 (List.replicate 26 0)].all (fun c => !c.wf) = true := by decide

/-- A command in range is well-formed. -/
theorem test_wf_good : [Instr.nop 0 (pub []), .getState 0 (opr []), .tokenRefill 0 65535, .linkDown 0 31, .slotOpen 0 63 0,
    .calCycleStart 0 25, .resetNRelease 0 3, .liveWindowLowRead 0 0 (.bar0 65532),
        .fifoLevelHit 0 73 []].all Instr.wf = true := by decide

/-! ### States in which the statements' hypotheses are met -/

/-- The next state of an outcome. -/
def after (o : Out) : State :=
  match o with
  | .next s => s
  | .fault _ => State.reset
  | .refused _ => State.reset

def sDegraded : State := { run with mem := { run.mem with degraded := true } }
def sSessions : State := { run with ctl := { run.ctl with sessions := (List.range 32).map (fun k => (k + 1, owner)) } }
def sUnit (st : Nat) : State := cfg.setUnitQuiet 12 st
def sReply (posted : List Nat) (waiting : List (Nat × Reply)) : State :=
  withPar (cfg.setRing 56 { Ring.init with enable := true, size := 16, posted := posted, waiting := waiting }) Par.CTL.REPLY_RING 0 56
def rHost : Reply := cfg.replyOf none (opr []) 0 12 (0, [1, 2])
/-- The working key 5 carries COMMS. -/
def sKey : State :=
  { cfg with vlt := { cfg.vlt with slot := [(5, { KeySlot.init with attr := 0x1440, ty := 4, secret := List.replicate 32 7 })] } }
/-- Session 1 awaits its second phase. -/
def sPhase (now : Nat) : State :=
  { sKey.advance now with ctl := { sKey.ctl with sessions := [(1, { owner with role := 1, active := false, lastSeq := none })] } }
def qPhase2 : Req := own 4 [0x00030102]
def sIdle (active : Bool) (now : Nat) : State :=
  { cfg.advance now with ctl := { cfg.ctl with sessions := [(255, { owner with active := active })] } }
def qLive (v : Nat) : Req := own 0x0102 [0x0C05, 1, v]
def desc (id : Nat) : PDesc := (parDesc id).getD (pU 0 .L 0 0 .any 0)
def item (id v : Nat) : WItem := { id := id, inst := 0, value := [BitVec.ofNat 32 v] }
def qCommit : Req := opr [0, 0, 0]
/-- A maquette that sets CTL.SESSION_IDLE_S to 60. -/
def maq : AMap MaqEntry := [(0x0C05 * 65536, { session := 0, val := .value [60] })]
def sMaq : State := { cfg with ctl := { cfg.ctl with maquette := maq } }
def cmt (st : CommitStage) : Commit :=
  { req := qCommit, kind := 0, pod := 0, at_ := 0, stage := st, number := 1, boundary := sec, toFlash := false }
def sCommit (st : CommitStage) : State := { sMaq with ctl := { sMaq.ctl with commit := some (cmt st) } }
/-- A maquette whose two ports on one MDIO pair have one PHY address. -/
def sClash : State := { cfg with ctl := { cfg.ctl with
  maquette := [(Par.TIM.PTP_RX_PORTS * 65536, { session := 0, val := .value [31] })], commit := some (cmt .checking) } }
def sCons (n : Nat) (c : Option Commit) : State :=
  { cfg with ctl := { cfg.ctl with consolidating := n, image := some Config.init, commit := c, journal := [journalRec 1 0 []] } }
def sRing (n : Nat) (r : Ring) : State := cfg.setRing n r
def ringOn : Ring := { Ring.init with enable := true, size := 16 }
def sWait : State := { cfg.setRing 56 { ringOn with waiting := [(0, rHost)] } with tim := { cfg.tim with now := 0 } }
def sHeld : State := { cfg with ctl := { cfg.ctl with irqHeld := [63], irqLast := [(63, 0)], irqHoldoff := 0xFFFF } }
def sLatch : State := { cfg with ctl := { cfg.ctl with latches := [{ requester := 5, offset := 8, high := 3 }] } }
/-- A broadcast frame of EtherType `e` whose FCS is right. -/
def eth (e : Nat) (data : List Byte) : List Byte :=
  let l := List.replicate 12 0xFF ++ [BitVec.ofNat 8 (e / 256), BitVec.ofNat 8 e] ++ data ++ List.replicate (46 - data.length) 0
  l ++ leBytes 4 (crc32 l).toNat
def rx (l : List Byte) : RxFrame := { bytes := l, symbolErr := false, oddBits := false }
/-- Port `n` has mode 1 and its link is up. -/
def sLink (n : Nat) : State := (withPar cfg Par.PRT.MODE n 1).setPort n { Port.init with up := true, speed := 3 }
def sFifo (l : List Byte) : State := (sLink 31).setPort 31 { Port.init with up := true, fifo := [(0, l)] }
def frag (m : Bool) : Fragment :=
  { port := 31, v6 := false, src := 1, dst := 2, ident := 3, proto := 17, offset := 0, more := m, head := [9], data := [1] }
def reass (k : Nat) : Reassembly :=
  { port := 31, v6 := false, src := 9, dst := 2, ident := k, proto := 17, firstAt := 0, parts := [], head := [], poison := false }
def sReass (n : Nat) : State := { cfg with ctl := { cfg.ctl with reasm := (List.range n).map reass } }
def txi (r : Option Nat) : TxItem := { rank := 5, ring := r, bytes := List.replicate 60 1, tsReq := false, tso := false, first := true, last := true }
def sSending (r : Option Nat) : State := (sLink 31).setPort 31 { Port.init with up := true, sending := some (txi r) }
def txd (n : Nat) : TxDesc := { data := List.replicate n 1, bufLen := n, port := 31, tsReq := false, tso := false, eop := true, mss := 0, hdrLen := 0 }
def sSend (s : State) (n : Nat) : State := s.setRing 47 { ringOn with sends := [txd n] }
def sShift (up : Bool) : State :=
  (withPar (withPar { run with pwr := run.pwr } Par.PRT.MODE 27 1) Par.PRT.DOWNSHIFT_PCT 27 5).setPort 27
    { Port.init with up := up, shifted := true }
def phy (up half : Bool) : PhyStatus := { up := up, speed := 3, anDone := true, halfOnly := half }
def peer : Peer := { addr := 1, port := 2 }
def sTcp : State := withPar (sLink 31) Par.CTL.TCP_ENABLE 31 1
def conn : TcpConn := { peer := peer, port := 31, use := 0, owner := 0, lastAt := 0, lport := 4640, sent := 0 }
def sFull : State := { sTcp with ctl := { sTcp.ctl with tcp := (List.range 64).map (fun k => (k, conn)) } }
def badCrc : List Byte := wordsLe (packetWords 0x0100 7 0 0 1 0 0 [] 0) ++ [0, 0, 0, 0]
def noOp : List Byte := encodePacket 0x7FFF (pub [])
def pwrOf (s : State) (f : Pwr → Pwr) : State := { s with pwr := f s.pwr }
def timOf (s : State) (f : Tim → Tim) : State := { s with tim := f s.tim }
def sDown : State := pwrOf State.reset (fun p => { p with supplies := false })
def sLow (bank0 bank1 : Bank) : State := pwrOf State.reset (fun p => { p with resetLow := true, bank0 := bank0, bank1 := bank1 })
def goodBank : Bank := State.reset.pwr.bank0
def noBank : Bank := State.reset.pwr.bank1
def sPfw : State := pwrOf run (fun p => { p with pfw := true })
/-- Port 31 wakes on its pattern 0, which masks every byte. -/
def sSleep : State := (withPar (withPar (inState .sleep) Par.PRT.MODE 31 1) Par.PRT.WAKE_EN 31 1).setPort 31 { Port.init with up := true }
def magicFrame : List Byte := eth 0x0842 []
def sTamper : State := { State.reset with vlt := { State.reset.vlt with latch := true } }
/-- Slots 1 and 2 are VALID. -/
def keyed (s : State) : State := { s with vlt := { s.vlt with slot := [(1, { KeySlot.init with attr := 0x1410, ty := 5, secret := List.replicate 32 1 }), (2, { KeySlot.init with attr := 0x1502, ty := 2, pub := List.replicate 64 1 })] } }
def sRule : State := withPar cfg Par.CTL.BOOT_TARGET 0 1
def sPtp : State := withPar (sLink 28) Par.TIM.PTP_RX_PORTS 0 0x10000000
def ann : Announce :=
  { clockIdentity := 1, portIdentity := 65537, gmIdentity := 1, priority1 := 128, clockClass := 6, clockAccuracy := 0x21
    variance := 0, priority2 := 128, stepsRemoved := 0, timeSource := 0x20, inaccuracy := none, shortId := 0, utcOffset := 37
    utcOffsetValid := false, leap59 := false, leap61 := false }
/-- A PTP message of type `ty` of the domain `d` from clock 1, port 1, with the body `body`. -/
def ptpMsg (ty d interval flags : Nat) (body : List Byte) : List Byte :=
  [BitVec.ofNat 8 ty, 2] ++ beBytes 2 (34 + body.length) ++ [BitVec.ofNat 8 d, 0, BitVec.ofNat 8 flags, 0] ++ List.replicate 12 0 ++
    beBytes 10 65537 ++ [0, 5, 0, BitVec.ofNat 8 interval] ++ body
def annMsg (d : Nat) : List Byte :=
  ptpMsg 11 d 0 0 (List.replicate 10 0 ++ [0, 37, 0, 128, 6, 0x21, 0, 0, 128] ++ beBytes 8 1 ++ [0, 0, 0x20])
/-- A Sync or Follow_Up that names one second of 2000. -/
def syncMsg (ty d flags : Nat) : List Byte := ptpMsg ty d 0 flags (beBytes 6 946684801 ++ beBytes 4 0)
def domainOf : Nat := sPtp.ptpDomain
def watched : Ref := { Ref.init with watched := true, good := 2 }
def sParent (st : Nat) : State := timOf sPtp (fun t =>
  { t with st := st, ref := if st = 2 then 1 else 0, parent := some ann, refPort := 28, ptp := watched })
def sIrig (bad : Nat) : State := timOf (withPar cfg Par.TIM.IRIG_ENABLE 0 1) (fun t => { t with irig := { watched with bad := bad } })
/-- A frame of format B00c for the first second of day 1 of 2000 whose on-time edge came at 5 s; `l` are its elements that are 1. -/
def irig (c : Nat) (l : List Nat) : IrigFrame := { format := c, edge := 5 * sec, bits := (List.range 100).map l.contains }
def sPps (bad : Nat) : State := timOf (withPar cfg Par.TIM.PPS_IN_MODE 0 1) (fun t => { t with pps := { watched with bad := bad }, ppsLast := some sec })
def sAcq (s : State) : State := timOf s (fun t => { t with st := 1, irigTod := some (sec, 7 * sec) })
/-- A reference watched long enough to qualify. -/
def qualRef : Ref := { watched with qualified := true }
/-- IRIG-B in use; TIM.STATE `st`. -/
def sRef (st k : Nat) (irigQ ppsQ : Bool) : State :=
  timOf (withPar (withPar run Par.TIM.IRIG_ENABLE 0 1) Par.TIM.PPS_IN_MODE 0 1) (fun t => { t with
    st := st, ref := k, irig := { watched with good := 600, qualified := irigQ },
        pps := { watched with good := 600, qualified := ppsQ } })
def sRevert : State := withPar (sRef 2 3 true true) Par.TIM.REVERT_S 0 1
/-- PPS_OUT is in use. -/
def sPpsOut (f : Tim → Tim) : State := timOf (withPar run Par.TIM.PPS_OUT_MODE 0 1) f
/-- The clock has just entered HOLDOVER with an error estimate of 0, so TQ is good. -/
def sLocked : State := timOf run (fun t => { t with st := 3 })
/-- Source 5: kind `kind`, one F32 quantity, 50 frames in each second, identity words `i`. -/
def srcWords (kind flags n : Nat) (i : List Nat) : List Word :=
  ([5 * 65536 + kind * 256 + n, 50 * 65536 + flags, 0, i.length] ++ i).map (BitVec.ofNat 32) ++
    (List.replicate n [0, 0x3F800000, 0]).flatten
def stationId (k : Nat) : List Nat := [k, 0, 0, 0, 1, 4712 * 65536]
/-- A state in which sources 5 has a definition. -/
def sSrc (st : State) (kind flags n : Nat) (i : List Nat) (x : Src) : State :=
  { st with ctl := { st.ctl with cfg := { st.ctl.cfg with sources := [(5, srcWords kind flags n i)] } }, ing := { st.ing with src := [(5, x)] } }
def srcLive : Src := { Src.init with st := 2 }
def sOcf (x : Src) : State := sSrc run 3 0 1 (stationId 9) x
/-- An OCF data datagram with one entry: KIND 0, the value 1.0. -/
def ocf (len version : Nat) (gtf : List Byte) : List Byte :=
  [BitVec.ofNat 8 version, 0, 0, 0, 0, BitVec.ofNat 8 len, 0, 1, 0, 0, 0, 9] ++ gtf ++ [0, 0, 0, 0] ++ [0, 0, 0, 0, 0, 0, 0, 0,
      0x3F, 0x80, 0, 0]
def gtf1 : List Byte := [0, 0, 0, 1, 0, 0, 0, 0]
def gtfBad : List Byte := [0, 0, 0, 1, 0xFF, 0xFF, 0xFF, 0xFF]
def sC37 (flags : Nat) (x : Src) : State := sSrc run 1 flags 4 (stationId 0x10000) x
def srcStamped : Src := { srcLive with lastStamp := some (4 * sec) }
def srcFull : Src := { srcLive with winCount := 1000 }
def srcTried (st : Nat) : Src := { Src.init with st := st }
def c37cfg : C37Cfg :=
  { timeBase := 1000000, dataRate := 50, blocks := [] }
def d37 (flags : Nat) : SrcDef := srcDefOf (srcWords 1 flags 4 (stationId 0x10000))
def dOcf (flags : Nat) : SrcDef := srcDefOf (srcWords 3 flags 1 (stationId 9))
def learn1 : Learn := { kind := 3, port := 31, key := [0, 0, 0, 9], seen := 1, first := 0, last := 0 }
def sLearn : State := { cfg with ing := { cfg.ing with learn := [learn1] } }
def maqSrc (v : MaqVal) : State := { (sOcf srcLive) with ctl := { (sOcf srcLive).ctl with maquette := [(sourceKey 5, { session := 0, val := v })] } }
def sTq (last sent : Nat) (h : Option Nat) : State := timOf run (fun t => { t with lastTq := last, sentTq := sent, holdEnd := h })
def sOut : State := sPpsOut (fun t => { t with ppsOut := true })
def sTen : State := timOf run (fun t => { t with ref10m := true })
def sLeap : State := timOf run (fun t => { t with leapDue := true, leapKind := 1, leapAt := sec })
def sTenOn : State := withPar run Par.TIM.REF10M_ENABLE 0 1
def lockedOut : State := withPar sLocked Par.TIM.PPS_OUT_MODE 0 1
def withPars (s : State) (id inst : Nat) (ws : List Nat) : State := s.setPar id inst (ws.map (BitVec.ofNat 32))
/-- Pod 0 runs at 50 slots in each second with source 5 as its member. -/
def sPod : State :=
  withPar (withPar (withPar (sOcf srcLive) Par.ALN.POD_ENABLE 0 1) Par.ALN.SLOT_RATE 0 50) Par.ALN.WAIT_NS 0 1000000
def sPod5 : State := withPars sPod Par.ALN.MEMBERS 0 (32 :: List.replicate 255 0)
def slot0 : Slot := Slot.fresh (sPod5.podDef 0) [5]
/-- A state whose pod 0 holds a slot at time 0. -/
def withSlot (s : State) (x : Slot) : State := s.setPod 0 { s.podSt 0 with slots := [(0, x)] }
def sOpen (policy : Nat) (arrived : List Nat) : State :=
  withSlot sPod5 { slot0 with arrived := arrived, defn := { slot0.defn with policy := policy } }
def entry1 : Entry := { v := 0x3F800000, q := 0x00010000 }
def slotShut (final ready : Bool) : Slot := { slot0 with
  closed := true, entries := [(0, entry1)], causes := [0], horizonAt := sec, final := final, ready := ready }
def slotBatch : Slot := { slotShut false true with batchAt := some 1000 }
def revised : Slot := { slotShut false true with defn := { slot0.defn with revisions := true }, entries := [(0, { entry1 with q := 0x0001FFFF })] }
def slotHeld : Slot := { slot0 with entries := [(0, { entry1 with q := 0x00010000 })] }
def sLayout (n : Nat) : State := withPar (sPod5.setPod 0 (sPod5.podSt 0)) Par.ALN.OAF_LAYOUT_S 0 n
def sSubs (dest : List Nat) : State := withPars (withPar sPod5 Par.ALN.FORMAT 0 1) Par.ALN.DEST 0 dest
def sDest : State := sSubs [0x01000007, 1, 2, 3, 4]
def peerD : Peer := { addr := (destPeer [7, 1, 2, 3, 4]).addr, port := 9 }
def slotIn : Slot := { slot0 with arrived := [5], defn := { slot0.defn with policy := 1 } }
def sPodLater : State := sPod5.setSlot 0 sec slot0
-- oscillation
def sFd (x : Slot) (f : Fd) : State :=
  (withPar (withSlot sPod5 x) Par.MOD.FD_ENABLE 0 1).setFd 0 f
def fdIn (l : Option Nat) (g : Nat) : Fd := { Fd.init with lastGtf := l, fromGtf := g }
def slotBad : Slot := { slotShut false true with entries := [(0, { entry1 with q := 0x0005FFFF })] }
def fdCount (n above : Nat) : Fd := { Fd.init with badRun := n, above := above }
def sMt (m : Mt) : State := (withPar run Par.ALN.SLOT_RATE 0 50).setMt 0 m
def mtOf (st count : Nat) (running : Bool) : Mt := { Mt.init with st := st, count := count, running := running }
def mtBuf : Mt := { Mt.init with st := 2, buf := [(gridAt 50 (gridIndex 50 0 + 10), [])] }
def mtDrop : Mt := { Mt.init with st := 1, dropped := [3], valid := [(3, 500)] }
-- armature
def sBr (st : State) (b : Branch) : State := (withPars st Par.ARM.BRANCH 3 [0x90000001, 0]).setBranch 3 b
def brDef : BranchDef := branchDefOf ([0x90000001, 0].map (BitVec.ofNat 32))
def brInter : Branch := { Branch.init with interAt := some 0 }
def recomp (s : State) : State := { s with arm := { s.arm with running := true, stamp := some (0, false) } }
def sNet (l : Option Nat) : State := (withPar (withSlot sPod5 (slotShut false true)) Par.ARM.NET_TYPE 2 1).setNet 2 { Net.init with lastGtf := l }
def sBal (x : Slot) (terms : List Nat) (b : Bal) : State :=
  (withPars (withPar (withSlot sPod5 x) Par.ARM.BAL_ENABLE 1 1) Par.ARM.BAL_TERMS 1 (terms ++
      List.replicate (512 - terms.length) 0)).setBal 1 b
def balFrom (g : Nat) : Bal := { Bal.init with fromGtf := g }
def recInt (stop : Nat) : RecInt :=
  { start := 0, stop := stop, terms := [], useSubst := false, rate := 50, expected := 0, evaluated := 0, subst := 0, revised := 0
    inSum := 0, outSum := 0, pod := 0, finalNs := 0, seen := 0 }
def balRuns : Bal := { Bal.init with runs := [recInt sec] }
-- custody
def reg9 : Reg := { value := 999999999999, roll := 65535, fine := 999999999 }
def pointOf (word : Nat) : Point := { Point.init with word := word }
def sPoint (st : State) (x : Point) : State := st.setPoint 4 x
/-- Point 4 is of kind aligned, of kind local, of kind pulse. -/
def ptAligned : Point := pointOf 0x98000000
def ptLocal : Point := pointOf 0x90000000
def ptPulse : Point := pointOf 0xCC000000
def ptSign (t : Nat) : Point := { pointOf 0x98000000 with sign := -1, signSince := some 0, tail := t }
def ptTail (t : Nat) : Point := { pointOf 0x98000000 with tail := t }
def rec1 : Profile := { point := 4, seq := 3, words := [], sig := [], slot := 0, gen := 0 }
def sRec (st : State) : State := { st with cus := { st.cus with records := [rec1] } }
def signKeyed (st : State) : State :=
  withPar { st with vlt := { st.vlt with slot := [(6, { KeySlot.init with attr := 0x1081, ty := 1, secret := List.replicate 32 1 })] } } Par.CUS.SIGN_SLOT 0 6
def sSeq (n : Nat) : State := (sRec cfg).setPoint 4 { Point.init with seq := n }
def sPlain : State := { cfg with ident := { cfg.ident with variantM := false } }
def sPulse : State := withPars (sPoint run ptPulse) Par.CUS.INPUTS 4 [7]
-- the vault: slot 2 and slot 7 hold the private scalar 1, whose public key is the base point
def pubOne : List Byte := beBytes 32 p256G.1 ++ beBytes 32 p256G.2
/-- The signature with the scalar 1 and the nonce 1. -/
def sigOne (digest : List Byte) : List Byte := beBytes 32 p256G.1 ++ beBytes 32 ((ofBe digest + p256G.1) % p256N)
/-- A message of the words `ws`, signed. -/
def signed (ws : List Nat) : Req :=
  let l := ws.map (BitVec.ofNat 32)
  { pub [] with payload := l ++ leWords 16 (sigOne (sha256 (wordsLe l))) }
def anchor : KeySlot := { KeySlot.init with attr := 0x1502, ty := 2, pub := pubOne }
def sVault : State := { cfg with vlt := { cfg.vlt with slot := [(2, anchor)] } }
def vaultOf (f : Vlt → Vlt) : State := { sVault with vlt := f sVault.vlt }
/-- KEY_UPDATE with counter `c` and operation word `w8`: no MATERIAL. -/
def keyWords0 (c w8 : Nat) : List Nat := [0, 0, c, 0, w8, 2, 0x02, 0]
/-- LOAD_PUBLIC into slot 7. -/
def loadPublic : Req := signed ([0, 0, 1, 0, 0x0607FF20, 2, 0x02, 16] ++ (leWords 16 pubOne).map BitVec.toNat)
def invalidate7 : Req := signed [0, 0, 1, 0, 0x0007FF00, 2, 0, 0]
def badSig : Req := { invalidate7 with payload := List.replicate 2 0 ++ [1, 0, 0x0007FF00, 2] ++ List.replicate 18 0 }
def low : Req := { invalidate7 with payload := List.replicate 24 0 }
def noSigner : Req := { invalidate7 with payload := [0, 0, 1, 0, 0x0007FF00, 9] ++ List.replicate 18 0 }
def other : Req := { invalidate7 with payload := List.replicate 24 1 }
def slot2x : Req := signed [0, 0, 1, 0, 0x0502FF00, 2, 0, 0]
def jr (op : VaultOp) : Journal := { req := low, op := op, code := 0, slot := 0, counter := 1, metro := false }
def sJournal (op : VaultOp) : State := vaultOf (fun v => { v with journal := some (jr op) })
def vLatch : State := vaultOf (fun v => { v with latch := true })
def vFroze : State := { sVault with evt := { sVault.evt with met := { sVault.evt.met with freeze := some { id := 1, at_ := 0, lost := 0 } } } }
/-- A seal message: no BODY. -/
def sealMsg (op : Nat) : Req := signed [0, 0, 1, 0, op * 2 ^ 24, 2]
def sSeal : State := withPar { sVault with vlt := { sVault.vlt with slot := [(2, anchor), (6, { KeySlot.init with attr := 0x1081, ty := 1, secret := List.replicate 32 1 })] } } Par.CUS.SIGN_SLOT 0 6
def sSealJ : State := { sSeal with vlt := { sSeal.vlt with journal := some (jr .seal) } }
def sPlainV : State := { sVault with ident := { sVault.ident with variantM := false } }
def sealUpd : Req := signed [0, 0, 1, 0, 1, 2, 0x00000C05, 1, 60]
def signer6 : KeySlot := { KeySlot.init with attr := 0x1001, ty := 1, secret := beBytes 32 1, pub := pubOne }
def sSign : State := vaultOf (fun v => { v with slot := [(0, { KeySlot.init with attr := 0x1001, ty := 1, secret := beBytes 32 1 }), (6, signer6)] })
def qSign (k : Nat) : Req := opr (k :: List.replicate 8 0)
def qVerify (k : Nat) : Req := { pub [] with payload := (k :: List.replicate 8 0).map (BitVec.ofNat 32) ++ leWords 16 pubOne ++ leWords 16 (sigOne (List.replicate 32 0)) }
def inSafe (s : State) : State := { s with pwr := { s.pwr with dev := .safe } }
/-- Slot 7 may leave wrapped under slot 8. -/
def sWrap : State := vaultOf (fun v => { v with slot := [(7, { KeySlot.init with attr := 0x1200, ty := 3, secret := List.replicate 32 7 }), (8, { KeySlot.init with attr := 0x1024, ty := 4, secret := List.replicate 32 8 })] })
def qExport : Req := opr [0x00080107, 9, 1, 0]
def sealUpdS : Req := signed [0, 0, 1, 0, 1, 2, 0x0912, 1, 6]
def qVerifyBad : Req := { pub [] with payload := 0xFF :: List.replicate 40 0 }
def ownExport : Req := own 0x0602 [0x00080107, 9, 1, 0]
def tWrap : State := ran (withOwner sWrap) ownExport 0x0602 0x0D 0
def updItem : Nat × Nat × List Word := (0x0912, 0, [6])
def noKeys : State := { run with vlt := { run.vlt with slot := [] } }
def genKey : KeySlot := (keyMsgOf loadPublic false).load [] pubOne 0xFF
-- converters and filters
def sChop (last : Option Nat) : State :=
  let s := withPar (withPar run Par.CNV.OW_CFG 0 1) Par.CNV.OW_PERIOD_MS 0 1000
  { s with tim := { s.tim with now := 1000 }, cnv := { s.cnv with ow := [(0, { open_ := false, fails := 0, passes := 0, last := last })] } }
def calOf (step slice : Nat) (self : Bool) : Cal :=
  { channel := 3, slice := slice, step := step, at_ := 0, windows := 0, failed := false, selfCal := self }
def sCal (step slice : Nat) (self : Bool) : State :=
  let s := withPar run Par.CNV.CAL_ENABLE 0 1
  { s with cnv := { s.cnv with cycle := [(25, calOf step slice self)] } }
def sCalOn : State := withPar run Par.CNV.CAL_ENABLE 0 1
def sBankB : State := withPars (withPar run Par.FLT.BANK 3 1) Par.FLT.CUSTOM_CFG 3 [0x00010001]
/-- Source 5 is local: kind 5. -/
def sLocal (x : Src) : State := sSrc run 5 0 1 [0x10000000, 0] x
def dLocal : SrcDef := srcDefOf (srcWords 5 0 1 [0x10000000, 0])
def srcSent : Src := { srcLive with reported := some 20000000 }
def srcNew : Src := srcLive
-- recorders
def rec0 (st : Nat) (live : List CapRow) : Rec := { Rec.init with st := st, rows := live }
def row (t : Nat) : CapRow := { t := t, e := [] }
def sCap (r : Rec) : State := (withPar run Par.CAP.SOURCE 0 0x40000000).setRec 0 r
def capRec (id : Nat) : CapRec :=
  { id := id, flags := 0, trig := 0, pre := 0, post := 0, cause := 0, marks := [], nMarks := 0, commit := 0, rows := [row 7] }
def recHeld (st : Nat) : Rec := { Rec.init with st := st, recs := [capRec 1, capRec 2] }
def sRaw : State := withPar (sCap (recHeld 3)) Par.CAP.REDUCE 0 1
def sRoom (st : Nat) : State := withPar (withPar (sCap (rec0 st [])) Par.CAP.REDUCE 0 1) Par.CAP.REGION_MIB 0 1
def sAuto (at_ : Nat) : State := withPar (sCap { rec0 3 [] with autoAt := at_ }) Par.CAP.AUTO_TIMEOUT_MS 0 1
def sRoll : State := withPar (sCap (rec0 3 [])) Par.CAP.MODE 0 2
-- logic
def imageWords : List Word := ([0x474C4331, 0x00010000, 1, 1, 500, 9, 64, 0, 0x10000000, 0, 0, 0, 0, 0, 0].map (BitVec.ofNat 32))
def imageBytes : List Byte := wordsLe (imageWords ++ [crc32c (wordsLe imageWords)])
def im1 : Image := { periodUs := 500, id := 9, vars := [lvarOf 0x10000000 0 0], blocks := [lblockOf 0 0 0 0] }
def lgcOf (s : State) (f : Lgc → Lgc) : State := { s with lgc := f s.lgc }
def sLgc (st n : Nat) (scanning : Bool) : State := lgcOf run (fun l => { l with st := st, image := some im1, n := n, scanning := scanning })
def gooseOf (at_ : Nat) : GoosePub := { stNum := 1, sqNum := 1, t := 0, clock := 0x20, nextMs := 2, nextAt := at_, sent := [], on := true }
def sGoose (at_ : Nat) : State :=
  withPars (lgcOf (sLgc 2 0 false) (fun l => { l with goose := [(1, gooseOf at_)] })) Par.LGC.GOOSE_CB 1 ([0x80000000, 0, 0, 0,
      0, 0, 1000] ++ List.replicate 39 0)
def station (st unacked : Nat) (waiting : Bool) (t : Nat) : Station :=
  { st := st, seq := 7, sentAt := some t, waiting := waiting, unacked := unacked, points := [], sent := some [], acked := false }
def sStation (x : Station) : State :=
  lgcOf (sOcf srcLive) (fun l => { l with st := 2, image := some im1, station := [(5, x)], lastW := some 0 })
def sStationAt (x : Station) (now : Nat) : State := lgcOf (timOf (sStation x) (fun t => { t with now := now })) (fun l => { l with lastW := some now })
/-- A control-ack of command number 7. -/
def ackOf (tag : Nat) : List Byte := [1, 2, 0, BitVec.ofNat 8 tag, 0, BitVec.ofNat 8 (24 + 16 * tag), 0, 0, 0, 0, 0, 9] ++
    List.replicate 8 0 ++ [0, 0, 0, 7] ++ List.replicate (16 * tag) 0
def loadReq (off total : Nat) (l : List Word) : Req := { opr [] with payload := ([off, total, 4 * l.length].map (BitVec.ofNat 32)) ++ l }
def qLoad : Req := loadReq 0 64 (imageWords ++ [crc32c (wordsLe imageWords)])
def qLoadBad : Req := loadReq 0 64 (imageWords ++ [0])
def qLoadPart : Req := loadReq 0 64 (imageWords.take 1)
def sWriting : State := lgcOf cfg (fun l => { l with image := some im1, writing := some qLoad })
def sStop (st : Nat) (scanning : Bool) : State := sLgc st 0 scanning
def sForced (n : Nat) : State := lgcOf (sLgc 2 0 false) (fun l => { l with forces := (List.range n).map (fun k => (k + 1, 0)) })
def sStationTag : State :=
  lgcOf (sSrc run 3 1 1 (stationId 9) srcLive) (fun l => { l with st := 2, image := some im1, station := [(5, station 1 0 true 0)] })
-- logs, control complex, units, firmware, spares
def evtOf (s : State) (f : Evt → Evt) : State := { s with evt := f s.evt }
def frz (id : Nat) : Freeze := { id := id, at_ := 0, lost := 3 }
def sFrozen (id : Nat) : State := evtOf cfg (fun e => { e with gen := { e.gen with freeze := some (frz id) }, met := { e.met with freeze := some (frz id) } })
def sBucket (n : Nat) : State := evtOf cfg (fun e => { e with bucket := [(0x0301, { tokens := n, fellAt := 0, supp := 0 })] })
def ctlOf (s : State) (f : Ctl → Ctl) : State := { s with ctl := f s.ctl }
def sCores : State := withPar (ctlOf cfg (fun c => { c with cores := (List.range 17).map (fun k => (k + 1, 2)), coreFails := [(0, 1)] })) Par.CTL.CORE_TEST_S 0 1
def sTestOff : State := withPar cfg Par.CTL.CORE_TEST_S 0 0
def sCoreOut : State := ctlOf cfg (fun c => { c with cores := [(17, 2)] })
def sSelf : State := ctlOf cfg (fun c => { c with selfTest := some (4, opr [4]) })
def sDrain (u : Nat) : State := ctlOf cfg (fun c => { c with drain := [(u, opr [u], 0)] })
def sUnitIn (u st : Nat) : State := cfg.setUnitQuiet u st
def sStaged (b : Bank) : State := pwrOf cfg (fun p => { p with bank1 := b })
def goodV : Bank := { goodBank with auth := true, verified := true }
def goodA : Bank := { goodBank with auth := true, verified := false }
def goodU : Bank := { goodBank with auth := false, verified := false }
def sBusyFw : State := pwrOf cfg (fun p => { p with activate := some (opr [1], 0) })
/-- The variant bits of the image allow GLS-4640-M alone. -/
def sOtherVariant : State := { sStaged { goodA with bytes := (goodA.bytes.take 20) ++ [0, 0, 0, 0] ++ goodA.bytes.drop 24 } with pending := [] }
def actNow : Req := own 0x0902 [0]
def tAct (b : Bank) : State := ran (withOwner (sStaged b)) actNow 0x0902 0x0C 2
def memOf (s : State) (f : Mem → Mem) : State := { s with mem := f s.mem }
def sDue : State := memOf run (fun m => { m with sramDue := [9] })
def sPage : State := memOf run (fun m => { m with dramPages := [9] })
def sBlock : State := memOf run (fun m => { m with mramMap := [(9, 7168)] })
def fwChunk : Req := { opr [] with payload := [0, 256, 4, 0xAABBCCDD] }
def sVolt : State := memOf run (fun m => { m with vstep := 7 })
/-- An ARP request for the address of port 31. -/
def arp : List Byte := eth 0x0806 (List.replicate 24 0 ++ [10, 0, 0, 1])
def sArp : State := withPar (sFifo arp) Par.PRT.IP4_ADDR 31 0x0A000001
theorem leWords_length (n : Nat) (l : List Byte) : (leWords n l).length = n := by
  induction n generalizing l with
  | zero => rfl
  | succ n ih => simp [leWords, ih]

theorem fits_short (a b : Word) (f : Nat → Byte) (n : Nat) (h : n ≤ 4) :
    fits .uart false (0, [a, b] ++ Carriage.uart.pack (List.map f (List.range n))) = true := by
  have e : (Carriage.uart.pack (List.map f (List.range n))).length = (n + 3) / 4 := by
    simp [Carriage.pack, Carriage.big, leWords_length]
  simp only [fits, List.length_append, e]
  exact decide_eq_true (by simp only [List.length_cons, List.length_nil, Carriage.maxLength, Bool.false_eq_true, if_false]; omega)
def evRec0 : EvRec :=
  { code := 1, unit := 1, sev := 1, supp := 0, plinth := false, lost := false, free := false, seq := 1, opsec := 0, cycles := 0
    gtf := 0, par := 0 }
/-- The metrological log is full. -/
def vFull : State := { sVault with evt := { sVault.evt with met := { sVault.evt.met with mram := List.replicate 32768 evRec0 } } }
/-- The profile store is full. -/
def sFullStore : State := { cfg with cus := { cfg.cus with records := List.replicate 285975 rec1 } }
theorem vFull_mram : vFull.evt.met.mram = List.replicate 32768 evRec0 := rfl
def rUart : Reply := cfg.replyOf none (pub []) 0 12 (0, [1, 2])
def rUdp (v6 : Bool) : Reply := cfg.replyOf none { pub [] with carriage := if v6 then .udp6 31 peer else .udp4 31 peer } 0 12 (0, [1, 2])
def rTcp : Reply := cfg.replyOf none { pub [] with carriage := .tcp 63 } 0 12 (0, [1, 2])
/-- An earlier request of the UART waits for its reply at unit 0x0C. -/
def sOwed : State := { cfg with ctl := { cfg.ctl with owed := [{ unit := 12, source := .uart, op := 0, tag := 1, seq := 1, reply := none }] } }
/-- Poisoned words of a request lie in the FIFO of the UART. -/
def badWord : FifoWord := { data := 1, tag := 0, poison := true, parity := true }
def sPoisoned : State := { cfg with ctl := { cfg.ctl with fifo := [(66, [badWord])] } }
/-- At 00:00 UTC, with an applied record in the journal. -/
def sMidnight : State := { timOf cfg (fun t => { t with now := 0, utcOffset := 0 }) with ctl := { cfg.ctl with journal := [{ journalRec 1 0 [] with applied := true }] } }
def sFlash : State := { sCommit .flash with ctl := { (sCommit .flash).ctl with image := some Config.init } }
/-- An IPv4 datagram in a broadcast frame: protocol, fragment word, destination port. -/
def ip4 (proto frag dport : Nat) : List Byte :=
  eth 0x0800 ([0x45, 0, 0, 36, 0, 7] ++ beBytes 2 frag ++ [64, BitVec.ofNat 8 proto, 0, 0, 10, 0, 0, 2, 10, 0, 0, 1, 0, 9] ++
      beBytes 2 dport ++
    [0, 16, 0, 0, 1, 2, 3, 4, 5, 6, 7, 8])
def sUdp : State := withPar (sFifo (ip4 17 0 4640)) Par.CTL.UDP_ENABLE 31 1
def udpView : IpView := (ipView (ip4 17 0 4640)).getD { v6 := false, src := 0, dst := 0, proto := 0, frag := false, sport := 0, dport := 0, flags := 0 }
/-- A connection of TYPE 2 destination 1 is open on port 31. -/
def listenConn : TcpConn := { conn with use := 2, owner := 1 }
def sListen (full : Bool) : State :=
  let s := withPars (withPar (sLink 31) Par.ALN.POD_ENABLE 0 1) Par.ALN.DEST 1 [0x021F0009, 0, 0, 0, 0]
  if full then { s with ctl := { s.ctl with tcp := [(0, listenConn)] } } else s
def sPoll : State := withPar cfg Par.PRT.MODE 27 1
def sWindow (low : Nat) : State :=
  (withPar (withPar run Par.PRT.MODE 27 1) Par.PRT.DOWNSHIFT_PCT 27 5).setPort 27 { Port.init with up := true, speed := 3, lowSeconds := low }
def sSaving : State := { sPfw with cus := { sPfw.cus with pfwStamp := some 0 } }
def sAnnounced : State := timOf (sParent 2) (fun t => { t with announces := [(28 * 2 ^ 80 + 65537, (ann, 0))] })
def sSynced : State := timOf (sParent 2) (fun t => { t with syncEvery := sec })
def sFollow (st : Nat) : State := timOf (sParent st) (fun t => { t with sync := some (5, sec, 0) })
def sPtpAt : State := timOf sPtp (fun t => { t with ptpAt := some 0 })
def pdelayMsg : List Byte := ptpMsg 2 domainOf 0 0 (List.replicate 20 0)
def sIrigLast (bad : Nat) : State := timOf (sIrig bad) (fun t => { t with irigLast := some 0 })
/-- A frame of format B005 whose time quality is 0xF, with its parity right. -/
def irigF : IrigFrame := if Config.irigParity then irig 5 [30, 71, 72, 73, 74] else irig 5 [30, 71, 72, 73, 74, 75]
def goodFrame : IrigFrame := irig 6 [30]
def badFrame : IrigFrame := irig 8 []
def sConn : State := { cfg with ctl := { cfg.ctl with tcp := [(63, conn)] } }
def sShiftWait : State := (sShift false).setPort 27 { (sShift false).port 27 with awaitUp := true }
/-- A NOP whose CRC is wrong. -/
def badOf (c : Carriage) : List Byte :=
  let l := encodePacket 0 { pub [] with carriage := c }
  l.dropLast ++ [l.getLastD 0 + 1]
/-- A C37.118.2 frame of type `ty` of the stream with IDCODE 1. -/
def c37Of (ty : Nat) (body : List Byte) : List Byte :=
  let l := [0xAA, BitVec.ofNat 8 (16 * ty + 1)] ++ beBytes 2 (16 + body.length) ++ [0, 1] ++ List.replicate 8 0 ++ body
  l ++ beBytes 2 (crcCcitt l)
/-- A CFG-2 frame with no block. -/
def cfgFrame : List Byte := c37Of 3 [0, 0x0F, 0x42, 0x40, 0, 0, 0, 50]
def gooseMsg (nds : Byte) : List Byte :=
  List.replicate 8 0 ++ ber 0x61 (ber 0x80 [0x41] ++ ber 0x81 [4] ++ ber 0x84 (List.replicate 8 0) ++ ber 0x85 [3] ++
      ber 0x88 [7] ++
    ber 0x89 [nds] ++ ber 0x8A [1] ++ ber 0xAB (ber 0x83 [1]))
def gooseIs (nds : Byte) : GooseFrame := (gooseFrameOf (gooseMsg nds)).getD
  { ref := [], ttlMs := 0, tSec := 0, tFrac := 0, tQual := 0, stNum := 0, sim := false, confRev := 0, ndsCom := false, fits := false
    dataAt := 0, members := [] }
def gooseId : List Nat := [0x100, 7, 0x41000000]
def sGooseSrc : State := sSrc run 4 0 1 gooseId { srcLive with stNum := some 3 }
def dGoose : SrcDef := srcDefOf (srcWords 4 0 1 gooseId)
def sTcpSrc : State :=
  (withPars (withPar (sC37 2 srcLive) Par.PRT.MODE 31 1) Par.PRT.IP6_ADDR 31 [0, 0, 0, 2,
      64]).setPort 31 { Port.init with up := true }
/-- The record of group 1 has taken this final slot. -/
def slotTook : Slot := { slotShut true true with took := [(1, 1)] }
/-- LOAD_WRAPPED into slot 7 from its parent 8, whose GCM tag is wrong. -/
def loadBad : Req := signed ([0, 0, 1, 0, 0x05070830, 2, 0, 15] ++ List.replicate 15 0)
def sParentKey : State := vaultOf (fun v => { v with slot := [(2, anchor), (8, { KeySlot.init with attr := 0x1028, ty := 4, secret := List.replicate 32 8 })] })
def sealUpd0 : Req := signed [0, 0, 1, 0, 0, 2]
/-- Recorder 0 takes the slots of pod 0; the newest row it has taken is that of time 0. -/
def sCapPod (last : Option Nat) : State :=
  (withPar (withSlot sPod5 (slotShut false true)) Par.CAP.SOURCE 0 0x20000000).setRec 0 { rec0 3 [] with lastRow := last }
/-- A full recorder that has room once its record 1 is released. -/
def sRecFull : State := withPar (sCap { recHeld 6 with recs := [capRec 1] }) Par.CAP.REGION_MIB 0 1
def sRollRow : State := withPar (sCap (rec0 3 [row 7])) Par.CAP.MODE 0 2
def sDue1 (step slice : Nat) : State := (sCal step slice false).advance (60 * sec)
def sStopping : State := lgcOf (sStop 2 true) (fun l => { l with stopReq := some (opr []) })
def fw (k : Nat) : FifoWord := { data := BitVec.ofNat 64 k, tag := 0, poison := false, parity := true }
def sFifoIn (f n : Nat) : State := ctlOf cfg (fun c => { c with fifo := [(f, List.replicate n (fw 1))] })
def actGo : Req := own 0x0902 [1]
def tGo : State := ran (withOwner (sStaged goodV)) actGo 0x0902 0x0C 2

/-! ### The hypotheses of the statements are met -/

/-- The hypotheses of `EveryStepGoesOn` are met. -/
theorem witness_EveryStepGoesOn : ∃ (s : State),
      s.pending = [] :=
  ⟨run,
       by decide +kernel⟩

/-- The hypotheses of each clause of `HealthyConductsOnlyInRunWithEveryUnit` are met. -/
theorem witness_HealthyConductsOnlyInRunWithEveryUnit :
    (∃ (s : State),
      s.healthy = true) ∧
    (∃ (s : State),
      s.pwr.dev = DevState.run ∧ s.pwr.pfw = false ∧ (∀ (u : Nat), 1 ≤ u → u ≤ 15 → s.runs u = true)) ∧
    (∃ (s : State) (u : Nat),
      1 ≤ u ∧ u ≤ 15 ∧ s.healthy = true) ∧
    (∃ (s : State) (u st : Nat),
      1 ≤ u ∧ u ≤ 15 ∧ s.healthy = true ∧ st ≠ 0) :=
  ⟨
     ⟨run,
       by decide +kernel⟩,
     ⟨run,
       by decide +kernel,
       by decide +kernel,
       by decide +kernel⟩,
     ⟨run, 15,
       by decide +kernel,
       by decide +kernel,
       by decide +kernel⟩,
     ⟨run, 15, 1,
       by decide +kernel,
       by decide +kernel,
       by decide +kernel,
       by decide +kernel⟩⟩

/-- The hypotheses of `DegradedNeverClears` are met. -/
theorem witness_DegradedNeverClears : ∃ (s t : State),
      s.mem.degraded = true ∧ step s = .next t :=
  ⟨sDegraded, sDegraded,
       by decide +kernel,
       rfl⟩

/-- The hypotheses of `IdentityIsFixedAndOutputsStand` are met. -/
theorem witness_IdentityIsFixedAndOutputsStand : ∃ (c : Instr) (s t : State),
      exec c s = .next t :=
  ⟨.nop 1 (pub []), run, after (exec (.nop 1 (pub [])) run),
       rfl⟩

/-- The hypotheses of `AtMost32SessionsAreOpen` are met. -/
theorem witness_AtMost32SessionsAreOpen : ∃ (s t : State),
      s.ctl.sessions.wf = true ∧ List.length s.ctl.sessions ≤ 32 ∧ step s = .next t :=
  ⟨sSessions, sSessions,
       by decide +kernel,
       by decide +kernel,
       rfl⟩

/-- The hypotheses of each clause of `PacketReadsBackAsWritten` are met. -/
theorem witness_PacketReadsBackAsWritten :
    (∃ (op : Nat) (q : Req),
      op < 65536 ∧ q.session < 256 ∧ q.rsv < 32 ∧ ((q.payload.length + 5 + if q.auth = true then 4 else 0) ≤ 16384) ∧
      (if q.auth = true then q.authTag.length = 16 else q.authTag = [])) ∧
    (∃ (op : Nat) (q : Req),
      op < 65536 ∧ q.session < 256 ∧ q.rsv < 32 ∧ ((q.payload.length + 5 + if q.auth = true then 4 else 0) ≤ 16384) ∧
      (if q.auth = true then q.authTag.length = 16 else q.authTag = [])) :=
  ⟨
     ⟨65535, {pub [1] with session := 255, auth := true, authTag := List.replicate 16 9},
       by decide +kernel,
       by decide +kernel,
       by decide +kernel,
       by decide +kernel,
       by decide +kernel⟩,
     ⟨1, {opr [] with rsv := 31},
       by decide +kernel,
       by decide +kernel,
       by decide +kernel,
       by decide +kernel,
       by decide +kernel⟩⟩

/-- The hypotheses of each clause of `RequestsAreAdmitted` are met. -/
theorem witness_RequestsAreAdmitted :
    (∃ (s : State) (q : Req) (u least need : Nat),
      Quiet s ∧ s.hears q.carriage = true ∧ s.up = true ∧ q.session = 0 ∧ q.auth = false ∧
      (q.epoch = 0 ∨ q.epoch = s.epochOf u) ∧ s.runs u = true ∧ least ≤ s.openRole q.carriage ∧ need ≤ q.payload.length) ∧
    (∃ (s : State) (q : Req) (op u least need : Nat) (x : Session),
      Quiet s ∧ s.hears q.carriage = true ∧ s.up = true ∧ q.session ≠ 0 ∧ (q.epoch = 0 ∨ q.epoch = s.epochOf u) ∧
      s.runs u = true ∧ need ≤ q.payload.length ∧ s.ctl.sessions.get? q.session = some x ∧ x.active = true ∧ least ≤ x.role ∧
      q.auth = true ∧ q.authTag = authTagOf x.key (tagWords q op) ∧
      (∀ (l : Word), x.lastSeq = some l → BitVec.toNat l < BitVec.toNat q.seq)) ∧
    (∃ (s : State) (c : Carriage),
      Quiet s ∧ (∀ (k : Nat), c ≠ Carriage.tcp k)) :=
  ⟨
     ⟨cfg, pub [], 15, 0, 0,
       by decide +kernel,
       by decide +kernel,
       by decide +kernel,
       by decide +kernel,
       by decide +kernel,
       by decide +kernel,
       by decide +kernel,
       by decide +kernel,
       by decide +kernel⟩,
     ⟨withOwner cfg, own 2305 [1], 2305, 12, 2, 1, owner,
       by decide +kernel,
       by decide +kernel,
       by decide +kernel,
       by decide +kernel,
       by decide +kernel,
       by decide +kernel,
       by decide +kernel,
       by decide +kernel,
       by decide +kernel,
       by decide +kernel,
       by decide +kernel,
       rfl,
       fun l h => by cases h; decide +kernel⟩,
     ⟨cfg, .udp6 31 peer,
       by decide +kernel,
       fun k h => by cases h⟩⟩

/-- The hypotheses of each clause of `AdmissionRefusesByStep` are met. -/
theorem witness_AdmissionRefusesByStep :
    (∃ (a : State) (q : Req) (u : Nat),
      Quiet a ∧ a.hears q.carriage = true ∧ a.up = true ∧ q.epoch ≠ 0 ∧ q.epoch ≠ a.epochOf u) ∧
    (∃ (a : State) (q : Req) (u : Nat),
      Quiet a ∧ a.hears q.carriage = true ∧ a.up = true ∧ (q.epoch = 0 ∨ q.epoch = a.epochOf u) ∧ q.session = 0 ∧
      q.auth = true) ∧
    (∃ (a : State) (q : Req) (u least : Nat),
      Quiet a ∧ a.hears q.carriage = true ∧ a.up = true ∧ (q.epoch = 0 ∨ q.epoch = a.epochOf u) ∧ q.session = 0 ∧
      q.auth = false ∧ a.openRole q.carriage < least) ∧
    (∃ (a : State) (q : Req) (u : Nat),
      Quiet a ∧ a.hears q.carriage = true ∧ a.up = true ∧ (q.epoch = 0 ∨ q.epoch = a.epochOf u) ∧ q.session ≠ 0 ∧
      a.ctl.sessions.get? q.session = none) ∧
    (∃ (a : State) (q : Req) (op u : Nat) (x : Session),
      Quiet a ∧ a.hears q.carriage = true ∧ a.up = true ∧ (q.epoch = 0 ∨ q.epoch = a.epochOf u) ∧ q.session ≠ 0 ∧
      a.ctl.sessions.get? q.session = some x ∧ (q.auth = false ∨ q.authTag ≠ authTagOf x.key (tagWords q op))) ∧
    (∃ (a : State) (q : Req) (op u : Nat) (x : Session) (l : Word),
      Quiet a ∧ a.hears q.carriage = true ∧ a.up = true ∧ (q.epoch = 0 ∨ q.epoch = a.epochOf u) ∧ q.session ≠ 0 ∧
      a.ctl.sessions.get? q.session = some x ∧ x.active = true ∧ q.auth = true ∧ q.authTag = authTagOf x.key (tagWords q op) ∧
      x.lastSeq = some l ∧ BitVec.toNat q.seq ≤ BitVec.toNat l) ∧
    (∃ (a : State) (q : Req) (u least : Nat) (uc : Bool),
      Quiet a ∧ a.hears q.carriage = true ∧ a.up = true ∧ (q.epoch = 0 ∨ q.epoch = a.epochOf u) ∧ q.session = 0 ∧
      q.auth = false ∧ least ≤ a.openRole q.carriage ∧ uc = true ∧ (a.unit u).st = 2) ∧
    (∃ (a : State) (q : Req) (u least : Nat) (uc : Bool),
      Quiet a ∧ a.hears q.carriage = true ∧ a.up = true ∧ (q.epoch = 0 ∨ q.epoch = a.epochOf u) ∧ q.session = 0 ∧
      q.auth = false ∧ least ≤ a.openRole q.carriage ∧ uc = true ∧ (a.unit u).st = 3) ∧
    (∃ (a : State) (q : Req) (u least : Nat) (uc : Bool),
      Quiet a ∧ a.hears q.carriage = true ∧ a.up = true ∧ (q.epoch = 0 ∨ q.epoch = a.epochOf u) ∧ q.session = 0 ∧
      q.auth = false ∧ least ≤ a.openRole q.carriage ∧ uc = true ∧ (a.unit u).st = 4) ∧
    (∃ (a t : State) (q : Req) (op : Nat) (lost : Bool),
      a.hears q.carriage = true ∧ (a.release q.carriage).arrive q.carriage op = (t, true, lost)) ∧
    (∃ (a t : State) (q : Req) (op u least need role : Nat) (uc : Bool),
      Admitted a q op u least 0 uc t role ∧ q.payload.length < need) :=
  ⟨
     ⟨cfg, {pub [] with epoch := 1}, 12,
       by decide +kernel,
       by decide +kernel,
       by decide +kernel,
       by decide +kernel,
       by decide +kernel⟩,
     ⟨cfg, {pub [] with auth := true}, 12,
       by decide +kernel,
       by decide +kernel,
       by decide +kernel,
       by decide +kernel,
       by decide +kernel,
       by decide +kernel⟩,
     ⟨cfg, pub [], 12, 1,
       by decide +kernel,
       by decide +kernel,
       by decide +kernel,
       by decide +kernel,
       by decide +kernel,
       by decide +kernel,
       by decide +kernel⟩,
     ⟨cfg, {pub [] with session := 255}, 12,
       by decide +kernel,
       by decide +kernel,
       by decide +kernel,
       by decide +kernel,
       by decide +kernel,
       by decide +kernel⟩,
     ⟨withOwner cfg, {pub [] with session := 1, auth := true}, 0, 12, owner,
       by decide +kernel,
       by decide +kernel,
       by decide +kernel,
       by decide +kernel,
       by decide +kernel,
       by decide +kernel,
       by decide +kernel⟩,
     ⟨withOwner cfg, {own 0 [] with seq := 0, authTag := authTagOf owner.key (tagWords {own 0 [] with seq := 0} 0)}, 0, 12,
         owner, 0,
       by decide +kernel,
       by decide +kernel,
       by decide +kernel,
       by decide +kernel,
       by decide +kernel,
       by decide +kernel,
       by decide +kernel,
       by decide +kernel,
       rfl,
       by decide +kernel,
       by decide +kernel⟩,
     ⟨sUnit 2, pub [], 12, 0, true,
       by decide +kernel,
       by decide +kernel,
       by decide +kernel,
       by decide +kernel,
       by decide +kernel,
       by decide +kernel,
       by decide +kernel,
       by decide +kernel,
       by decide +kernel⟩,
     ⟨sUnit 3, pub [], 12, 0, true,
       by decide +kernel,
       by decide +kernel,
       by decide +kernel,
       by decide +kernel,
       by decide +kernel,
       by decide +kernel,
       by decide +kernel,
       by decide +kernel,
       by decide +kernel⟩,
     ⟨sUnit 4, pub [], 12, 0, true,
       by decide +kernel,
       by decide +kernel,
       by decide +kernel,
       by decide +kernel,
       by decide +kernel,
       by decide +kernel,
       by decide +kernel,
       by decide +kernel,
       by decide +kernel⟩,
     ⟨sPoisoned, ((sPoisoned.release .uart).arrive .uart 0).1, pub [], 0, false,
       by decide +kernel,
       Prod.ext rfl (by decide +kernel)⟩,
     ⟨cfg, cfg, pub [0x0C010001], 0x0100, 12, 0, 2, 0, true,
       ⟨by decide +kernel, by decide +kernel, rfl, by decide +kernel⟩,
       by decide +kernel⟩⟩

/-- The hypotheses of each clause of `RepliesGoOutOnce` are met. -/
theorem witness_RepliesGoOutOnce :
    (∃ (q : Req),
      q.noreply = true) ∧
    (∃ (q : Req),
      q.noreply = false) ∧
    (∃ (q : Req),
      q.noreply = false) ∧
    (∃ (t : State) (r : Reply),
      Quiet t ∧ r.carriage = Carriage.uart) ∧
    (∃ (t : State) (r : Reply) (p : Nat) (peer : Peer),
      Quiet t ∧ (r.carriage = Carriage.udp4 p peer ∨ r.carriage = Carriage.udp6 p peer)) ∧
    (∃ (t : State) (r : Reply) (p : Nat) (peer : Peer),
      Quiet t ∧ (r.carriage = Carriage.udp4 p peer ∨ r.carriage = Carriage.udp6 p peer)) ∧
    (∃ (t : State) (r : Reply) (k : Nat),
      Quiet t ∧ r.carriage = Carriage.tcp k) ∧
    (∃ (t : State) (r : Reply) (ring : Nat),
      Quiet t ∧ r.carriage = Carriage.host ring ∧ t.ctl.linkUp = true ∧
      t.freeBuf (t.parN Par.CTL.REPLY_RING (ring - 48)) = none) ∧
    (∃ (t : State) (r : Reply) (ring len : Nat),
      Quiet t ∧ r.carriage = Carriage.host ring ∧ t.ctl.linkUp = true ∧
      (t.ring (t.parN Par.CTL.REPLY_RING (ring - 48))).waiting = [] ∧
      t.freeBuf (t.parN Par.CTL.REPLY_RING (ring - 48)) = some len) ∧
    (∃ (t : State) (r : Reply) (ring len : Nat),
      Quiet t ∧ r.carriage = Carriage.host ring ∧ t.ctl.linkUp = true ∧
      (t.ring (t.parN Par.CTL.REPLY_RING (ring - 48))).waiting = [] ∧
      t.freeBuf (t.parN Par.CTL.REPLY_RING (ring - 48)) = some len) :=
  ⟨
     ⟨{pub [] with noreply := true},
       by decide +kernel⟩,
     ⟨pub [],
       by decide +kernel⟩,
     ⟨pub [],
       by decide +kernel⟩,
     ⟨cfg, rUart,
       by decide +kernel,
       by decide +kernel⟩,
     ⟨cfg, rUdp false, 31, peer,
       by decide +kernel,
       by decide +kernel⟩,
     ⟨cfg, rUdp true, 31, peer,
       by decide +kernel,
       by decide +kernel⟩,
     ⟨cfg, rTcp, 63,
       by decide +kernel,
       by decide +kernel⟩,
     ⟨sReply [] [], rHost, 48,
       by decide +kernel,
       by decide +kernel,
       by decide +kernel,
       by decide +kernel⟩,
     ⟨sReply [64] [], rHost, 48, 64,
       by decide +kernel,
       by decide +kernel,
       by decide +kernel,
       by decide +kernel,
       by decide +kernel⟩,
     ⟨sReply [27] [], rHost, 48, 27,
       by decide +kernel,
       by decide +kernel,
       by decide +kernel,
       by decide +kernel,
       by decide +kernel⟩⟩

/-- The hypotheses of each clause of `GenericReadsAnswer` are met. -/
theorem witness_GenericReadsAnswer :
    (∃ (s t : State) (dt : Nat) (q : Req) (role : Nat),
      Admitted (s.advance dt) q 0 12 0 0 true t role) ∧
    (∃ (s t : State) (dt : Nat) (q : Req) (role : Nat),
      Admitted (s.advance dt) q 1 12 0 0 true t role) ∧
    (∃ (s t : State) (dt : Nat) (q : Req) (role : Nat),
      Admitted (s.advance dt) q 2 12 0 0 true t role) ∧
    (∃ (s t : State) (dt : Nat) (q : Req) (role : Nat),
      Admitted (s.advance dt) q 6 12 0 2 true t role ∧ (gtfValid (q.dw 4) = true ∨ q.dw 4 = gtfNone)) ∧
    (∃ (s t : State) (dt : Nat) (q : Req) (role : Nat),
      Admitted (s.advance dt) q 514 12 0 0 true t role) :=
  ⟨
     ⟨cfg, cfg, 0, pub [], 0,
       ⟨by decide +kernel, by decide +kernel, rfl, by decide +kernel⟩⟩,
     ⟨cfg, cfg, 0, pub [], 0,
       ⟨by decide +kernel, by decide +kernel, rfl, by decide +kernel⟩⟩,
     ⟨cfg, cfg, 0, pub [], 0,
       ⟨by decide +kernel, by decide +kernel, rfl, by decide +kernel⟩⟩,
     ⟨cfg, cfg, 0, pub [1, 2], 0,
       ⟨by decide +kernel, by decide +kernel, rfl, by decide +kernel⟩,
       by decide +kernel⟩,
     ⟨cfg, cfg, 0, pub [], 0,
       ⟨by decide +kernel, by decide +kernel, rfl, by decide +kernel⟩⟩⟩

/-- The hypotheses of each clause of `SessionsOpenCloseAndTimeOut` are met. -/
theorem witness_SessionsOpenCloseAndTimeOut :
    (∃ (s t : State) (dt : Nat) (q : Req) (role : Nat) (ikm : List Byte),
      Admitted (s.advance dt) q 4 12 0 1 true t role ∧ q.bits 4 7 0 = 1 ∧ q.session = 0 ∧ 5 ≤ q.payload.length ∧
      3 ≤ q.bits 4 31 16 ∧ q.bits 4 31 16 ≤ 127 ∧ 1 ≤ q.bits 4 15 8 ∧ q.bits 4 15 8 ≤ 2 ∧
      t.commsKey (q.bits 4 31 16) = some ikm ∧ List.length t.ctl.sessions < 32 ∧
      ReplyFits t q (BitVec.ofNat 32 t.freeSession :: q.carriage.pack (List.take 16 t.draw.2) ++
          words64 (BitVec.toNat t.ident.deviceId))) ∧
    (∃ (s t : State) (dt : Nat) (q : Req) (role : Nat) (x : Session),
      Admitted (s.advance dt) q 4 12 0 1 true t role ∧ q.bits 4 7 0 = 2 ∧ t.ctl.sessions.get? q.session = some x ∧
      x.active = false ∧ t.now ≤ x.lastAt + 10 * sec ∧ q.bits 4 31 16 = x.slot ∧ q.bits 4 15 8 = x.role ∧
      (x.role = 2 → 17 ≤ q.payload.length ∧ (t.keySlot 2).usable = true ∧
          p256Verify (t.keySlot 2).pub (sha256 (t.ownerProof x)) (q.bytes 5 64) = true)) ∧
    (∃ (s t : State) (dt : Nat) (q : Req) (role : Nat),
      Admitted (s.advance dt) q 5 12 1 0 true t role) ∧
    (∃ (s a : State) (dt n : Nat) (x : Session),
      s.advance dt = a ∧ a.up = true ∧ a.ctl.sessions.get? n = some x ∧ x.active = false ∧ x.lastAt + 10 * sec ≤ a.now) ∧
    (∃ (s a : State) (dt n : Nat) (x : Session),
      s.advance dt = a ∧ a.up = true ∧ a.ctl.sessions.get? n = some x ∧ x.active = false ∧ a.now < x.lastAt + 10 * sec) ∧
    (∃ (s a : State) (dt n : Nat) (x : Session),
      s.advance dt = a ∧ a.up = true ∧ a.ctl.sessions.get? n = some x ∧ x.active = true ∧
      x.lastAt + sec * a.parN Par.CTL.SESSION_IDLE_S 0 ≤ a.now) ∧
    (∃ (s a : State) (dt n : Nat) (x : Session),
      s.advance dt = a ∧ a.up = true ∧ a.ctl.sessions.get? n = some x ∧ x.active = true ∧
      a.now < x.lastAt + sec * a.parN Par.CTL.SESSION_IDLE_S 0) :=
  ⟨
     ⟨sKey, sKey, 0, pub [0x00050101, 1, 2, 3, 4], 0, List.replicate 32 7,
       ⟨by decide +kernel, by decide +kernel, rfl, by decide +kernel⟩,
       by decide +kernel,
       by decide +kernel,
       by decide +kernel,
       by decide +kernel,
       by decide +kernel,
       by decide +kernel,
       by decide +kernel,
       by decide +kernel,
       by decide +kernel,
       by decide +kernel⟩,
     ⟨sPhase (10 * sec), ran (sPhase (10 * sec)) qPhase2 4 12 0, 0, qPhase2, 0,
         {owner with role := 1, active := false, lastSeq := some 1},
       ⟨by decide +kernel, by decide +kernel, Prod.ext rfl (by decide +kernel), by decide +kernel⟩,
       by decide +kernel,
       by decide +kernel,
       by decide +kernel,
       by decide +kernel,
       by decide +kernel,
       by decide +kernel,
       by decide +kernel⟩,
     ⟨withOwner cfg, ran (withOwner cfg) (own 5 []) 5 12 1, 0, own 5 [], 2,
       ⟨by decide +kernel, by decide +kernel, Prod.ext rfl (by decide +kernel), by decide +kernel⟩⟩,
     ⟨sIdle false 0, sIdle false (10 * sec), 10 * sec, 255, {owner with active := false},
       rfl,
       by decide +kernel,
       by decide +kernel,
       by decide +kernel,
       by decide +kernel⟩,
     ⟨sIdle false 0, sIdle false (10 * sec - 1), 10 * sec - 1, 255, {owner with active := false},
       rfl,
       by decide +kernel,
       by decide +kernel,
       by decide +kernel,
       by decide +kernel⟩,
     ⟨sIdle true 0, sIdle true (600 * sec), 600 * sec, 255, owner,
       rfl,
       by decide +kernel,
       by decide +kernel,
       by decide +kernel,
       by decide +kernel⟩,
     ⟨sIdle true 0, sIdle true (600 * sec - 1), 600 * sec - 1, 255, owner,
       rfl,
       by decide +kernel,
       by decide +kernel,
       by decide +kernel,
       by decide +kernel⟩⟩

/-- The hypotheses of each clause of `SetStateMakesTheTransitionsOfR414` are met. -/
theorem witness_SetStateMakesTheTransitionsOfR414 :
    (∃ (s t : State) (dt : Nat) (q : Req) (role : Nat),
      Admitted (s.advance dt) q 3 12 1 1 true t role ∧ t.pwr.dev = DevState.config ∧ q.bits 4 3 0 = 4) ∧
    (∃ (s t : State) (dt : Nat) (q : Req) (role : Nat),
      Admitted (s.advance dt) q 3 12 1 1 true t role ∧ t.pwr.dev = DevState.run ∧ q.bits 4 3 0 = 3) ∧
    (∃ (s t : State) (dt : Nat) (q : Req) (role : Nat),
      Admitted (s.advance dt) q 3 12 1 1 true t role ∧ t.up = true ∧ q.bits 4 3 0 = 5) ∧
    (∃ (s t : State) (dt : Nat) (q : Req) (role : Nat),
      Admitted (s.advance dt) q 3 12 1 1 true t role ∧ t.up = true ∧ q.bits 4 3 0 = 6) ∧
    (∃ (s t : State) (dt : Nat) (q : Req) (role : Nat),
      Admitted (s.advance dt) q 3 12 1 1 true t role ∧ t.up = true ∧
      (t.pwr.dev = DevState.config ∧ q.bits 4 3 0 ≠ 4 ∨ t.pwr.dev = DevState.run ∧ q.bits 4 3 0 ≠ 3 ∨ t.pwr.dev = DevState.safe) ∧
      q.bits 4 3 0 ≠ 5 ∧ q.bits 4 3 0 ≠ 6) ∧
    (∃ (s t : State) (dt : Nat) (q : Req) (role : Nat),
      Admitted (s.advance dt) q 3 12 1 1 true t role ∧ t.up = true ∧
      (t.pwr.dev = DevState.config ∧ q.bits 4 3 0 ≠ 4 ∨ t.pwr.dev = DevState.run ∧ q.bits 4 3 0 ≠ 3 ∨ t.pwr.dev = DevState.safe) ∧
      q.bits 4 3 0 ≠ 5 ∧ q.bits 4 3 0 ≠ 6) ∧
    (∃ (s t : State) (dt : Nat) (q : Req) (role : Nat),
      Admitted (s.advance dt) q 3 12 1 1 true t role ∧ t.up = true ∧
      (t.pwr.dev = DevState.config ∧ q.bits 4 3 0 ≠ 4 ∨ t.pwr.dev = DevState.run ∧ q.bits 4 3 0 ≠ 3 ∨ t.pwr.dev = DevState.safe) ∧
      q.bits 4 3 0 ≠ 5 ∧ q.bits 4 3 0 ≠ 6) :=
  ⟨
     ⟨cfg, cfg, 0, opr [4], 1,
       ⟨by decide +kernel, by decide +kernel, rfl, by decide +kernel⟩,
       by decide +kernel,
       by decide +kernel⟩,
     ⟨run, run, 0, opr [3], 1,
       ⟨by decide +kernel, by decide +kernel, rfl, by decide +kernel⟩,
       by decide +kernel,
       by decide +kernel⟩,
     ⟨run, run, 0, opr [5], 1,
       ⟨by decide +kernel, by decide +kernel, rfl, by decide +kernel⟩,
       by decide +kernel,
       by decide +kernel⟩,
     ⟨inState .safe, inState .safe, 0, opr [6], 1,
       ⟨by decide +kernel, by decide +kernel, rfl, by decide +kernel⟩,
       by decide +kernel,
       by decide +kernel⟩,
     ⟨cfg, cfg, 0, opr [3], 1,
       ⟨by decide +kernel, by decide +kernel, rfl, by decide +kernel⟩,
       by decide +kernel,
       by decide +kernel,
       by decide +kernel,
       by decide +kernel⟩,
     ⟨cfg, cfg, 0, opr [7], 1,
       ⟨by decide +kernel, by decide +kernel, rfl, by decide +kernel⟩,
       by decide +kernel,
       by decide +kernel,
       by decide +kernel,
       by decide +kernel⟩,
     ⟨inState .safe, inState .safe, 0, opr [4], 1,
       ⟨by decide +kernel, by decide +kernel, rfl, by decide +kernel⟩,
       by decide +kernel,
       by decide +kernel,
       by decide +kernel,
       by decide +kernel⟩⟩

/-- The hypotheses of each clause of `ParametersAreRead` are met. -/
theorem witness_ParametersAreRead :
    (∃ (s t : State) (dt : Nat) (q : Req) (role : Nat) (d : PDesc),
      Admitted (s.advance dt) q 256 (idUnit (q.bits 4 15 0)) 0 2 true t role ∧ parDesc (q.bits 4 15 0) = some d ∧
      t.readFault role (q.bits 4 15 0) (q.bits 4 31 16) = none ∧
      ReplyFits t q ([q.w 4, BitVec.ofNat 32 (t.selectValue d (q.bits 4 31 16) (BitVec.getLsbD (q.w 5) 0)).length,
          t.typeWord (q.bits 4 15 0)] ++ t.selectValue d (q.bits 4 31 16) (BitVec.getLsbD (q.w 5) 0))) ∧
    (∃ (s t : State) (dt : Nat) (q : Req) (role : Nat) (d : PDesc),
      Admitted (s.advance dt) q 256 (idUnit (q.bits 4 15 0)) 0 2 true t role ∧ parDesc (q.bits 4 15 0) = some d ∧
      t.readFault role (q.bits 4 15 0) (q.bits 4 31 16) = none ∧
      ReplyFits t q ([q.w 4, BitVec.ofNat 32 (t.selectValue d (q.bits 4 31 16) (BitVec.getLsbD (q.w 5) 0)).length,
          t.typeWord (q.bits 4 15 0)] ++ t.selectValue d (q.bits 4 31 16) (BitVec.getLsbD (q.w 5) 0))) ∧
    (∃ (s t : State) (dt : Nat) (q : Req) (role : Nat),
      Admitted (s.advance dt) q 256 (idUnit (q.bits 4 15 0)) 0 2 true t role ∧ parDesc (q.bits 4 15 0) = none) ∧
    (∃ (s t : State) (dt : Nat) (q : Req) (role : Nat) (d : PDesc),
      Admitted (s.advance dt) q 256 (idUnit (q.bits 4 15 0)) 0 2 true t role ∧ parDesc (q.bits 4 15 0) = some d ∧ 1 ≤ role ∧
      d.hasInst (q.bits 4 31 16) = false) ∧
    (∃ (s t : State) (dt : Nat) (q : Req) (role : Nat),
      Admitted (s.advance dt) q 259 12 0 1 true t role ∧ 1 ≤ q.bits 4 15 0 ∧ q.bits 4 15 0 ≤ 4096 ∧
      q.bits 4 15 0 ≤ (q.rest 5).length ∧
      (ReplyFits t q (BitVec.ofNat 32 (q.bits 4 15 0) :: List.flatMap (fun w => t.readItem role w (BitVec.getLsbD (q.w 4) 16)) (List.take (q.bits 4 15 0) (q.rest 5))))) :=
  ⟨
     ⟨cfg, cfg, 0, pub [0x0C00, 0], 0, desc 0x0C00,
       ⟨by decide +kernel, by decide +kernel, rfl, by decide +kernel⟩,
       by decide +kernel,
       by decide +kernel,
       by decide +kernel⟩,
     ⟨sMaq, sMaq, 0, opr [0x0C05, 1], 1, desc 0x0C05,
       ⟨by decide +kernel, by decide +kernel, rfl, by decide +kernel⟩,
       by decide +kernel,
       by decide +kernel,
       by decide +kernel⟩,
     ⟨cfg, cfg, 0, pub [0x0CFE, 0], 0,
       ⟨by decide +kernel, by decide +kernel, rfl, by decide +kernel⟩,
       by decide +kernel⟩,
     ⟨cfg, cfg, 0, opr [0x00010C04, 0], 1, desc 0x0C04,
       ⟨by decide +kernel, by decide +kernel, rfl, by decide +kernel⟩,
       by decide +kernel,
       by decide +kernel,
       by decide +kernel⟩,
     ⟨cfg, cfg, 0, pub [2, 0x0C00, 0x0C04], 0,
       ⟨by decide +kernel, by decide +kernel, rfl, by decide +kernel⟩,
       by decide +kernel,
       by decide +kernel,
       by decide +kernel,
       by decide +kernel⟩⟩

/-- The hypotheses of each clause of `ParametersAreWritten` are met. -/
theorem witness_ParametersAreWritten :
    (∃ (s t : State) (dt : Nat) (q : Req) (role : Nat) (x : WItem),
      Admitted (s.advance dt) q 257 (idUnit (q.bits 4 15 0)) 1 2 true t role ∧ Req.item q = some x ∧ t.ctl.commit = none ∧
      t.writeFault false x.kept = none ∧
      List.length (t.ctl.maquette.set x.key { session := q.session, val := MaqVal.value x.kept.value }) ≤ 524288) ∧
    (∃ (s t : State) (dt : Nat) (q : Req) (role : Nat),
      Admitted (s.advance dt) q 257 (idUnit (q.bits 4 15 0)) 1 0 true t role ∧ t.ctl.commit ≠ none) ∧
    (∃ (s t : State) (dt : Nat) (q : Req) (role : Nat) (x : WItem) (d : PDesc),
      Admitted (s.advance dt) q 258 (idUnit (q.bits 4 15 0)) 1 2 true t role ∧ Req.item q = some x ∧ parDesc x.id = some d ∧
      d.hasInst x.inst = true ∧ d.clsOn t.ident.variantM = PClass.L ∧ x.kept.value.length = d.words ∧
      PRange.ok x.id x.kept.value d.range = true ∧ x.id ≠ Par.TIM.UTC_OFFSET ∧ x.id / 256 ≠ 6) ∧
    (∃ (s t : State) (dt : Nat) (q : Req) (role : Nat) (x : WItem) (d : PDesc),
      Admitted (s.advance dt) q 258 (idUnit (q.bits 4 15 0)) 1 2 true t role ∧ Req.item q = some x ∧ parDesc x.id = some d ∧
      d.hasInst x.inst = true ∧ d.clsOn t.ident.variantM = PClass.M ∧ x.kept.value.length = d.words ∧
      PRange.ok x.id x.kept.value d.range = true) ∧
    (∃ (s t : State) (dt : Nat) (q : Req) (role : Nat) (x : WItem) (d : PDesc),
      Admitted (s.advance dt) q 258 (idUnit (q.bits 4 15 0)) 1 2 true t role ∧ Req.item q = some x ∧ parDesc x.id = some d ∧
      d.hasInst x.inst = true ∧ (x.kept.value.length ≠ d.words ∨ PRange.ok x.id x.kept.value d.range = false)) ∧
    (∃ (s t : State) (dt : Nat) (q : Req) (role : Nat) (l : List WItem),
      Admitted (s.advance dt) q 260 12 1 1 true t role ∧ t.ctl.commit = none ∧ BitVec.getLsbD (q.w 4) 16 = false ∧
      1 ≤ q.bits 4 15 0 ∧ q.bits 4 15 0 ≤ 4096 ∧ itemsOf' (q.bits 4 15 0) (q.rest 5) = some l ∧
      (∀ x ∈ l, t.writeFault false x.kept = none) ∧
      (List.length (List.foldl (fun (m : AMap MaqEntry) x => m.set x.key { session := q.session, val := MaqVal.value x.kept.value }) t.ctl.maquette l) ≤ 524288)) ∧
    (∃ (s t : State) (dt : Nat) (q : Req) (role : Nat) (l pre : List WItem) (x : WItem) (post : List WItem) (f : Nat),
      Admitted (s.advance dt) q 260 12 1 1 true t role ∧ t.ctl.commit = none ∧ BitVec.getLsbD (q.w 4) 16 = false ∧
      1 ≤ q.bits 4 15 0 ∧ q.bits 4 15 0 ≤ 4096 ∧ itemsOf' (q.bits 4 15 0) (q.rest 5) = some l ∧ l = pre ++ x :: post ∧
      (∀ y ∈ pre, t.writeFault false y.kept = none) ∧ t.writeFault false x.kept = some f) :=
  ⟨
     ⟨cfg, cfg, 0, opr [0x0405, 1, 5000000], 1, item 0x0405 5000000,
       ⟨by decide +kernel, by decide +kernel, rfl, by decide +kernel⟩,
       by decide +kernel,
       by decide +kernel,
       by decide +kernel,
       by decide +kernel⟩,
     ⟨sCommit .stored, sCommit .stored, 0, opr [0x0405, 1, 5000000], 1,
       ⟨by decide +kernel, by decide +kernel, rfl, by decide +kernel⟩,
       by decide +kernel⟩,
     ⟨cfg, cfg, 0, opr [0x0C05, 1, 60], 1, item 0x0C05 60, desc 0x0C05,
       ⟨by decide +kernel, by decide +kernel, rfl, by decide +kernel⟩,
       by decide +kernel,
       by decide +kernel,
       by decide +kernel,
       by decide +kernel,
       by decide +kernel,
       by decide +kernel,
       by decide +kernel,
       by decide +kernel⟩,
     ⟨cfg, cfg, 0, opr [0x0405, 1, 5000000], 1, item 0x0405 5000000, desc 0x0405,
       ⟨by decide +kernel, by decide +kernel, rfl, by decide +kernel⟩,
       by decide +kernel,
       by decide +kernel,
       by decide +kernel,
       by decide +kernel,
       by decide +kernel,
       by decide +kernel⟩,
     ⟨cfg, cfg, 0, opr [0x0C05, 1, 0], 1, item 0x0C05 0, desc 0x0C05,
       ⟨by decide +kernel, by decide +kernel, rfl, by decide +kernel⟩,
       by decide +kernel,
       by decide +kernel,
       by decide +kernel,
       by decide +kernel⟩,
     ⟨cfg, cfg, 0, opr [2, 0x0405, 1, 5000000, 0x0C05, 1, 60], 1, [item 0x0405 5000000, item 0x0C05 60],
       ⟨by decide +kernel, by decide +kernel, rfl, by decide +kernel⟩,
       by decide +kernel,
       by decide +kernel,
       by decide +kernel,
       by decide +kernel,
       by decide +kernel,
       by decide +kernel,
       by decide +kernel⟩,
     ⟨cfg, cfg, 0, opr [2, 0x0405, 1, 5000000, 0x0C05, 1, 0], 1, [item 0x0405 5000000, item 0x0C05 0], [item 0x0405 5000000],
         item 0x0C05 0, [], 0x0106,
       ⟨by decide +kernel, by decide +kernel, rfl, by decide +kernel⟩,
       by decide +kernel,
       by decide +kernel,
       by decide +kernel,
       by decide +kernel,
       by decide +kernel,
       by decide +kernel,
       by decide +kernel,
       by decide +kernel⟩⟩

/-- The hypotheses of each clause of `CountersSaturateAreReadAndCleared` are met. -/
theorem witness_CountersSaturateAreReadAndCleared :
    (∃ (s : State) (inst j : Nat),
      inst < 65536 ∧ j < 65536 ∧ s.ctl.counters.wf = true) ∧
    (∃ (s : State) (id inst k j : Nat),
      inst < 65536 ∧ j < 65536 ∧ s.ctl.counters.wf = true ∧ (k, j) ≠ (id, inst)) ∧
    (∃ (s t : State) (dt : Nat) (q : Req) (role : Nat),
      1 ≤ q.bits 5 15 0 ∧ 1 ≤ q.bits 5 31 16 ∧
      (∀ k ∈ List.flatMap (fun i => List.map (fun k => (k,
          i)) (List.map (fun x => q.bits 4 15 0 + x) (List.range (q.bits 5 15 0)))) (List.map (fun x => q.bits 4 31 16 + x) (List.range (q.bits 5 31 16))), ∃ top, counterTop k.1 = some top ∧ k.2 ≤ top) ∧
      2 * (q.bits 5 15 0 * q.bits 5 31 16) + 6 ≤ q.carriage.maxLength ∧
      (ReplyFits t q (BitVec.ofNat 32 (q.bits 5 15 0 * q.bits 5 31 16) :: List.flatMap (fun k => words64 (t.ctr k.1 k.2)) (List.flatMap (fun i => List.map (fun k => (k, i)) (List.map (fun x => q.bits 4 15 0 + x) (List.range (q.bits 5 15 0)))) (List.map (fun x => q.bits 4 31 16 + x) (List.range (q.bits 5 31 16)))))) ∧
      Admitted (s.advance dt) q 513 (idUnit (q.bits 4 15 0)) 0 2 true t role) ∧
    (∃ (s t : State) (dt : Nat) (q : Req) (role : Nat),
      1 ≤ q.bits 5 15 0 ∧ 1 ≤ q.bits 5 31 16 ∧
      (∀ k ∈ List.flatMap (fun i => List.map (fun k => (k,
          i)) (List.map (fun x => q.bits 4 15 0 + x) (List.range (q.bits 5 15 0)))) (List.map (fun x => q.bits 4 31 16 + x) (List.range (q.bits 5 31 16))), ∃ top, counterTop k.1 = some top ∧ k.2 ≤ top) ∧
      2 * (q.bits 5 15 0 * q.bits 5 31 16) + 6 ≤ q.carriage.maxLength ∧
      (ReplyFits t q (BitVec.ofNat 32 (q.bits 5 15 0 * q.bits 5 31 16) :: List.flatMap (fun k => words64 (t.ctr k.1 k.2)) (List.flatMap (fun i => List.map (fun k => (k, i)) (List.map (fun x => q.bits 4 15 0 + x) (List.range (q.bits 5 15 0)))) (List.map (fun x => q.bits 4 31 16 + x) (List.range (q.bits 5 31 16)))))) ∧
      Admitted (s.advance dt) q 512 (idUnit (q.bits 4 15 0)) 0 2 true t role) ∧
    (∃ (s t : State) (dt : Nat) (q : Req) (role k f : Nat),
      1 ≤ q.bits 5 15 0 ∧ 1 ≤ q.bits 5 31 16 ∧ k < q.bits 5 15 0 ∧
      ((f = 260 ∧ counterTop (q.bits 4 15 0 + k) = none ∧ ∀ j < k, counterTop (q.bits 4 15 0 + j) ≠ none) ∨ f = 261 ∧
          (∀ j < q.bits 5 15 0, counterTop (q.bits 4 15 0 + j) ≠ none) ∧ (∃ top, counterTop (q.bits 4 15 0 + k) = some top ∧
          top < q.bits 4 31 16 + q.bits 5 31 16 - 1) ∧ ∀ (j top : Nat), j < k → counterTop (q.bits 4 15 0 + j) = some top →
          q.bits 4 31 16 + q.bits 5 31 16 - 1 ≤ top) ∧
      Admitted (s.advance dt) q 513 (idUnit (q.bits 4 15 0)) 0 2 true t role) ∧
    (∃ (s t : State) (dt : Nat) (q : Req) (role k f : Nat),
      1 ≤ q.bits 5 15 0 ∧ 1 ≤ q.bits 5 31 16 ∧ k < q.bits 5 15 0 ∧
      ((f = 260 ∧ counterTop (q.bits 4 15 0 + k) = none ∧ ∀ j < k, counterTop (q.bits 4 15 0 + j) ≠ none) ∨ f = 261 ∧
          (∀ j < q.bits 5 15 0, counterTop (q.bits 4 15 0 + j) ≠ none) ∧ (∃ top, counterTop (q.bits 4 15 0 + k) = some top ∧
          top < q.bits 4 31 16 + q.bits 5 31 16 - 1) ∧ ∀ (j top : Nat), j < k → counterTop (q.bits 4 15 0 + j) = some top →
          q.bits 4 31 16 + q.bits 5 31 16 - 1 ≤ top) ∧
      Admitted (s.advance dt) q 513 (idUnit (q.bits 4 15 0)) 0 2 true t role) ∧
    (∃ (s t : State) (dt : Nat) (q : Req) (role k f : Nat),
      1 ≤ q.bits 5 15 0 ∧ 1 ≤ q.bits 5 31 16 ∧ k < q.bits 5 15 0 ∧
      ((f = 260 ∧ counterTop (q.bits 4 15 0 + k) = none ∧ ∀ j < k, counterTop (q.bits 4 15 0 + j) ≠ none) ∨ f = 261 ∧
          (∀ j < q.bits 5 15 0, counterTop (q.bits 4 15 0 + j) ≠ none) ∧ (∃ top, counterTop (q.bits 4 15 0 + k) = some top ∧
          top < q.bits 4 31 16 + q.bits 5 31 16 - 1) ∧ ∀ (j top : Nat), j < k → counterTop (q.bits 4 15 0 + j) = some top →
          q.bits 4 31 16 + q.bits 5 31 16 - 1 ≤ top) ∧
      Admitted (s.advance dt) q 512 (idUnit (q.bits 4 15 0)) 0 2 true t role) :=
  ⟨
     ⟨cfg, 0, 1,
       by decide +kernel,
       by decide +kernel,
       by decide +kernel⟩,
     ⟨cfg.count 0x0C04 0 5, 0x0C03, 65535, 0x0C04, 0,
       by decide +kernel,
       by decide +kernel,
       by decide +kernel,
       by decide +kernel⟩,
     ⟨cfg, cfg, 0, pub [0x0C03, 0x00010002], 0,
       by decide +kernel,
       by decide +kernel,
       by decide +kernel,
       by decide +kernel,
       by decide +kernel,
       ⟨by decide +kernel, by decide +kernel, rfl, by decide +kernel⟩⟩,
     ⟨cfg.count 0x0C04 0 5, cfg.count 0x0C04 0 5, 0, pub [0x0C03, 0x00010002], 0,
       by decide +kernel,
       by decide +kernel,
       by decide +kernel,
       by decide +kernel,
       by decide +kernel,
       ⟨by decide +kernel, by decide +kernel, rfl, by decide +kernel⟩⟩,
     ⟨cfg, cfg, 0, pub [0x0C0F, 0x00010002], 0, 1, 0x0104,
       by decide +kernel,
       by decide +kernel,
       by decide +kernel,
       Or.inl ⟨rfl, by decide +kernel, by decide +kernel⟩,
       ⟨by decide +kernel, by decide +kernel, rfl, by decide +kernel⟩⟩,
     ⟨cfg, cfg, 0, pub [0x00010C03, 0x00010002], 0, 0, 0x0105,
       by decide +kernel,
       by decide +kernel,
       by decide +kernel,
       Or.inr ⟨rfl, by decide +kernel, ⟨0, by decide +kernel, by decide +kernel⟩, fun j _ h => absurd h (Nat.not_lt_zero j)⟩,
       ⟨by decide +kernel, by decide +kernel, rfl, by decide +kernel⟩⟩,
     ⟨cfg, cfg, 0, pub [0x0C0F, 0x00010002], 0, 1, 0x0104,
       by decide +kernel,
       by decide +kernel,
       by decide +kernel,
       Or.inl ⟨rfl, by decide +kernel, by decide +kernel⟩,
       ⟨by decide +kernel, by decide +kernel, rfl, by decide +kernel⟩⟩⟩

/-- The hypotheses of each clause of `CommitsAreCheckedStoredAndApplied` are met. -/
theorem witness_CommitsAreCheckedStoredAndApplied :
    (∃ (s t : State) (dt : Nat) (q : Req) (role : Nat),
      Admitted (s.advance dt) q 261 12 1 3 true t role ∧ t.up = true ∧ t.ctl.commit = none ∧
      (q.bits 4 1 0 = 0 ∨ q.bits 4 1 0 = 1 ∧ q.bits 4 15 8 ≤ 63 ∧ t.podOn (q.bits 4 15 8) = true ∨ q.bits 4 1 0 = 2 ∧
          gtfValid (q.dw 5) = true) ∧
      t.ctl.maquette ≠ []) ∧
    (∃ (s t : State) (dt : Nat) (q : Req) (role : Nat),
      Admitted (s.advance dt) q 261 12 1 3 true t role ∧ t.ctl.commit ≠ none) ∧
    (∃ (s t : State) (dt : Nat) (q : Req) (role : Nat),
      Admitted (s.advance dt) q 261 12 1 3 true t role ∧ t.ctl.commit = none ∧ q.bits 4 1 0 = 0 ∧ t.ctl.maquette = []) ∧
    (∃ (s a : State) (dt : Nat) (c : Commit) (b : Nat),
      s.advance dt = a ∧ a.up = true ∧ a.ctl.commit = some c ∧ c.stage = CommitStage.checking ∧
      a.conflictsOf (a.withCfg (a.ctl.cfg.takeAll a.ident a.ctl.maquette)) false false = [] ∧ a.boundaryOf c = some b ∧
      (journalBytes a.ctl.maquette + (List.map (fun r => journalBytes r.entries) a.ctl.journal).sum ≤ 589824)) ∧
    (∃ (s a : State) (dt : Nat) (c : Commit),
      s.advance dt = a ∧ a.up = true ∧ a.ctl.commit = some c ∧ c.stage = CommitStage.checking ∧ c.kind = 0 ∧
      (journalBytes a.ctl.maquette + (List.map (fun r => journalBytes r.entries) a.ctl.journal).sum ≤ 589824)) ∧
    (∃ (s a : State) (dt : Nat) (c : Commit),
      s.advance dt = a ∧ a.up = true ∧ a.ctl.commit = some c ∧ c.stage = CommitStage.checking ∧
      a.conflictsOf (a.withCfg (a.ctl.cfg.takeAll a.ident a.ctl.maquette)) false false ≠ []) ∧
    (∃ (s a : State) (dt : Nat) (c : Commit),
      s.advance dt = a ∧ a.up = true ∧ a.ctl.commit = some c ∧ c.stage = CommitStage.stored ∧ c.boundary ≤ a.now ∧
      a.blockingUnit = none) ∧
    (∃ (s a : State) (dt : Nat) (c : Commit) (n : Nat),
      s.advance dt = a ∧ a.up = true ∧ a.ctl.commit = some c ∧ c.stage = CommitStage.stored ∧ c.boundary ≤ a.now ∧
      a.blockingUnit = some n) ∧
    (∃ (s a : State) (dt : Nat) (c : Commit),
      s.advance dt = a ∧ a.ctl.commit = some c ∧ (a.now < c.boundary ∨ c.stage ≠ CommitStage.stored)) ∧
    (∃ (s a : State) (dt : Nat) (c : Commit),
      s.advance dt = a ∧ a.ctl.commit = some c ∧ c.stage ≠ CommitStage.checking) :=
  ⟨
     ⟨sMaq, sMaq, 0, qCommit, 1,
       ⟨by decide +kernel, by decide +kernel, rfl, by decide +kernel⟩,
       by decide +kernel,
       by decide +kernel,
       by decide +kernel,
       by decide +kernel⟩,
     ⟨sCommit .stored, sCommit .stored, 0, qCommit, 1,
       ⟨by decide +kernel, by decide +kernel, rfl, by decide +kernel⟩,
       by decide +kernel⟩,
     ⟨cfg, cfg, 0, qCommit, 1,
       ⟨by decide +kernel, by decide +kernel, rfl, by decide +kernel⟩,
       by decide +kernel,
       by decide +kernel,
       by decide +kernel⟩,
     ⟨sCommit .checking, sCommit .checking, 0, cmt .checking, sec,
       rfl,
       by decide +kernel,
       by decide +kernel,
       by decide +kernel,
       by decide +kernel,
       by decide +kernel,
       by decide +kernel⟩,
     ⟨sCommit .checking, sCommit .checking, 0, cmt .checking,
       rfl,
       by decide +kernel,
       by decide +kernel,
       by decide +kernel,
       by decide +kernel,
       by decide +kernel⟩,
     ⟨sClash, sClash, 0, cmt .checking,
       rfl,
       by decide +kernel,
       by decide +kernel,
       by decide +kernel,
       by decide +kernel⟩,
     ⟨sCommit .stored, (sCommit .stored).advance sec, sec, cmt .stored,
       rfl,
       by decide +kernel,
       by decide +kernel,
       by decide +kernel,
       by decide +kernel,
       by decide +kernel⟩,
     ⟨(sCommit .stored).setUnitQuiet 12 1, ((sCommit .stored).setUnitQuiet 12 1).advance sec, sec, cmt .stored, 12,
       rfl,
       by decide +kernel,
       by decide +kernel,
       by decide +kernel,
       by decide +kernel,
       by decide +kernel⟩,
     ⟨sCommit .stored, (sCommit .stored).advance (sec - 1), sec - 1, cmt .stored,
       rfl,
       by decide +kernel,
       by decide +kernel⟩,
     ⟨sCommit .stored, sCommit .stored, 0, cmt .stored,
       rfl,
       by decide +kernel,
       by decide +kernel⟩⟩

/-- The hypotheses of each clause of `MaquetteAndStore` are met. -/
theorem witness_MaquetteAndStore :
    (∃ (s t : State) (dt : Nat) (q : Req) (role : Nat),
      Admitted (s.advance dt) q 262 12 1 0 true t role ∧ t.ctl.commit = none) ∧
    (∃ (s t : State) (dt : Nat) (q : Req) (role : Nat) (c : Commit),
      Admitted (s.advance dt) q 262 12 1 0 true t role ∧ t.ctl.commit = some c ∧ c.stage = CommitStage.stored ∧
      c.toFlash = false ∧ t.now + 1000000 * t.parN Par.CTL.COMMIT_LEAD_MS 0 ≤ c.boundary) ∧
    (∃ (s t : State) (dt : Nat) (q : Req) (role : Nat) (c : Commit),
      Admitted (s.advance dt) q 262 12 1 0 true t role ∧ t.ctl.commit = some c ∧ c.stage = CommitStage.checking) ∧
    (∃ (s t : State) (dt : Nat) (q : Req) (role : Nat),
      Admitted (s.advance dt) q 263 12 1 2 true t role ∧ 1 ≤ q.bits 5 15 0 ∧ q.bits 5 15 0 ≤ 4096 ∧
      ReplyFits t q (BitVec.ofNat 32 (List.length t.ctl.maquette) :: List.flatMap diffWords (List.take (q.bits 5 15 0) (List.drop ((q.w 4).toNat) t.ctl.maquette)))) ∧
    (∃ (s t : State) (dt : Nat) (q : Req) (role : Nat),
      Admitted (s.advance dt) q 264 12 1 2 true t role ∧ 1 ≤ q.bits 5 15 0 ∧ q.bits 5 15 0 ≤ 4092 ∧
      ReplyFits t q (BitVec.ofNat 32 t.ctl.conflicts.length :: List.flatMap Conflict.words (List.take (q.bits 5 15 0) (List.drop ((q.w 4).toNat) t.ctl.conflicts)))) ∧
    (∃ (s a : State) (dt : Nat) (c : Commit) (x : Config),
      s.advance dt = a ∧ a.up = true ∧ a.ctl.commit = some c ∧ c.stage = CommitStage.flash ∧ a.ctl.image = some x) ∧
    (∃ (s a : State) (dt : Nat),
      s.advance dt = a ∧ a.up = true ∧ a.ctl.consolidating = 0 ∧ (∀ (c : Commit), a.ctl.commit = some c → c.toFlash = false) ∧
      (589824 < 2 * (List.map (fun r => journalBytes r.entries) a.ctl.journal).sum ∨ a.ctl.journal ≠ [] ∧ a.utcMidnight = true)) ∧
    (∃ (s a : State) (dt : Nat) (x : Config),
      s.advance dt = a ∧ a.up = true ∧ a.ctl.consolidating = 1 ∧ a.ctl.image = some x) ∧
    (∃ (s a : State) (dt : Nat),
      s.advance dt = a ∧ a.up = true ∧ 2 ≤ a.ctl.consolidating ∧
      (∀ (c : Commit), a.ctl.commit = some c → c.stage ≠ CommitStage.waitConsolidation)) ∧
    (∃ (s a : State) (dt : Nat) (c : Commit),
      s.advance dt = a ∧ a.up = true ∧ 2 ≤ a.ctl.consolidating ∧ a.ctl.commit = some c ∧
      c.stage = CommitStage.waitConsolidation) :=
  ⟨
     ⟨sMaq, sMaq, 0, opr [], 1,
       ⟨by decide +kernel, by decide +kernel, rfl, by decide +kernel⟩,
       by decide +kernel⟩,
     ⟨sCommit .stored, sCommit .stored, 0, opr [], 1, cmt .stored,
       ⟨by decide +kernel, by decide +kernel, rfl, by decide +kernel⟩,
       by decide +kernel,
       by decide +kernel,
       by decide +kernel,
       by decide +kernel⟩,
     ⟨sCommit .checking, sCommit .checking, 0, opr [], 1, cmt .checking,
       ⟨by decide +kernel, by decide +kernel, rfl, by decide +kernel⟩,
       by decide +kernel,
       by decide +kernel⟩,
     ⟨sMaq, sMaq, 0, opr [0, 1], 1,
       ⟨by decide +kernel, by decide +kernel, rfl, by decide +kernel⟩,
       by decide +kernel,
       by decide +kernel,
       by decide +kernel⟩,
     ⟨sMaq, sMaq, 0, opr [0, 4092], 1,
       ⟨by decide +kernel, by decide +kernel, rfl, by decide +kernel⟩,
       by decide +kernel,
       by decide +kernel,
       by decide +kernel⟩,
     ⟨sFlash, sFlash, 0, cmt .flash, Config.init,
       rfl,
       by decide +kernel,
       by decide +kernel,
       by decide +kernel,
       by decide +kernel⟩,
     ⟨sMidnight, sMidnight, 0,
       rfl,
       by decide +kernel,
       by decide +kernel,
       by decide +kernel,
       by decide +kernel⟩,
     ⟨sCons 1 none, sCons 1 none, 0, Config.init,
       rfl,
       by decide +kernel,
       by decide +kernel,
       by decide +kernel⟩,
     ⟨sCons 2 none, sCons 2 none, 0,
       rfl,
       by decide +kernel,
       by decide +kernel,
       by decide +kernel⟩,
     ⟨sCons 2 (some (cmt .waitConsolidation)), sCons 2 (some (cmt .waitConsolidation)), 0, cmt .waitConsolidation,
       rfl,
       by decide +kernel,
       by decide +kernel,
       by decide +kernel,
       by decide +kernel⟩⟩

/-- The hypotheses of each clause of `HostRingsServe` are met. -/
theorem witness_HostRingsServe :
    (∃ (s a : State) (dt n : Nat),
      s.advance dt = a ∧ a.endpointUp = true ∧ n < 64) ∧
    (∃ (s a : State) (dt n : Nat),
      s.advance dt = a ∧ a.endpointUp = true ∧ n < 64 ∧ (a.ring n).enable = false) ∧
    (∃ (s a : State) (dt n : Nat),
      s.advance dt = a ∧ a.endpointUp = true ∧ n < 64 ∧ (a.ring n).enable = true) ∧
    (∃ (s a : State) (dt n k : Nat),
      s.advance dt = a ∧ a.endpointUp = true ∧ n < 64 ∧ k < 1024 ∧ k / 16 ∉ a.ctl.irqHeld) ∧
    (∃ (s a : State) (dt n : Nat) (v : Word) (k : Nat),
      s.advance dt = a ∧ a.endpointUp = true ∧ n < 64 ∧ 4 ≤ k ∧ k ≤ 16 ∧ BitVec.toNat (a.ring n).size = 2 ^ k ∧
      BitVec.getLsbD v 0 = true) ∧
    (∃ (s a : State) (dt n : Nat) (v : Word) (k : Nat),
      s.advance dt = a ∧ a.endpointUp = true ∧ n < 64 ∧ 4 ≤ k ∧ k ≤ 16 ∧ BitVec.toNat (a.ring n).size = 2 ^ k ∧
      BitVec.getLsbD v 0 = true) ∧
    (∃ (s a : State) (dt n : Nat) (v : Word),
      s.advance dt = a ∧ a.endpointUp = true ∧ n < 64 ∧ (∀ (k : Nat), 4 ≤ k → k ≤ 16 → BitVec.toNat (a.ring n).size ≠ 2 ^ k) ∧
      (a.ring n).enable = false ∧ BitVec.getLsbD v 0 = true) ∧
    (∃ (s a : State) (dt n : Nat) (v : Word),
      s.advance dt = a ∧ a.endpointUp = true ∧ n < 64 ∧ BitVec.getLsbD v 0 = false ∧ a.ctl.rings.wf = true) ∧
    (∃ (s a : State) (dt n : Nat),
      s.advance dt = a ∧ a.endpointUp = true ∧ (a.ring n).enable = true ∧ a.ctl.rings.wf = true ∧ (n < 32 ∨ 56 ≤ n) ∧
      (a.ring n).waiting = []) ∧
    (∃ (s a : State) (dt n : Nat),
      s.advance dt = a ∧ a.endpointUp = true ∧ (a.ring n).enable = true ∧ a.ctl.rings.wf = true ∧ 32 ≤ n ∧ n ≤ 47) ∧
    (∃ (s a : State) (dt n index : Nat),
      s.advance dt = a ∧ a.endpointUp = true ∧ 48 ≤ n ∧ n ≤ 55 ∧ (a.ring n).enable = true ∧ a.ctl.rings.wf = true ∧
      a.ctl.unfetched = [] ∧ a.ctl.buffers.length < 64 ∧ (a.ctl.fifo.getD 64 []).length ≤ a.parN Par.CTL.FIFO_LEVEL 64 ∧
      (index % max (BitVec.toNat (a.ring n).size) 1 + max (BitVec.toNat (a.ring n).size) 1 - (a.ring n).producer) % max (BitVec.toNat (a.ring n).size) 1 = 1) :=
  ⟨
     ⟨cfg, cfg, 0, 63,
       rfl,
       by decide +kernel,
       by decide +kernel⟩,
     ⟨cfg, cfg, 0, 63,
       rfl,
       by decide +kernel,
       by decide +kernel,
       by decide +kernel⟩,
     ⟨sRing 63 ringOn, sRing 63 ringOn, 0, 63,
       rfl,
       by decide +kernel,
       by decide +kernel,
       by decide +kernel⟩,
     ⟨cfg, cfg, 0, 63, 0x3FF,
       rfl,
       by decide +kernel,
       by decide +kernel,
       by decide +kernel,
       by decide +kernel⟩,
     ⟨sRing 0 {ringOn with enable := false}, sRing 0 {ringOn with enable := false}, 0, 0, 1, 4,
       rfl,
       by decide +kernel,
       by decide +kernel,
       by decide +kernel,
       by decide +kernel,
       by decide +kernel,
       by decide +kernel⟩,
     ⟨sRing 0 {ringOn with enable := false, size := 65536}, sRing 0 {ringOn with enable := false, size := 65536}, 0, 0, 1, 16,
       rfl,
       by decide +kernel,
       by decide +kernel,
       by decide +kernel,
       by decide +kernel,
       by decide +kernel,
       by decide +kernel⟩,
     ⟨cfg, cfg, 0, 0, 1,
       rfl,
       by decide +kernel,
       by decide +kernel,
       by decide +kernel,
       by decide +kernel,
       by decide +kernel⟩,
     ⟨sRing 48 ringOn, sRing 48 ringOn, 0, 48, 0,
       rfl,
       by decide +kernel,
       by decide +kernel,
       by decide +kernel,
       by decide +kernel⟩,
     ⟨sRing 56 ringOn, sRing 56 ringOn, 0, 56,
       rfl,
       by decide +kernel,
       by decide +kernel,
       by decide +kernel,
       by decide +kernel,
       by decide +kernel⟩,
     ⟨sRing 47 ringOn, sRing 47 ringOn, 0, 47,
       rfl,
       by decide +kernel,
       by decide +kernel,
       by decide +kernel,
       by decide +kernel,
       by decide +kernel⟩,
     ⟨sRing 55 ringOn, sRing 55 ringOn, 0, 55, 1,
       rfl,
       by decide +kernel,
       by decide +kernel,
       by decide +kernel,
       by decide +kernel,
       by decide +kernel,
       by decide +kernel,
       by decide +kernel,
       by decide +kernel,
       by decide +kernel⟩⟩

/-- The hypotheses of each clause of `HostTimersAndLiveWindow` are met. -/
theorem witness_HostTimersAndLiveWindow :
    (∃ (s a : State) (dt n t : Nat) (r : Reply) (rest : List (Nat × Reply)),
      s.advance dt = a ∧ (a.ring n).waiting = (t, r) :: rest ∧ t + 1000000 * a.parN Par.CTL.REPLY_WAIT_MS 0 ≤ a.now) ∧
    (∃ (s a : State) (dt n t : Nat) (r : Reply) (rest : List (Nat × Reply)),
      s.advance dt = a ∧ (a.ring n).waiting = (t, r) :: rest ∧ a.now < t + 1000000 * a.parN Par.CTL.REPLY_WAIT_MS 0) ∧
    (∃ (s a : State) (dt n : Nat),
      s.advance dt = a ∧ n ∈ a.ctl.irqHeld ∧ a.irqMasked n = false ∧
      (∀ (t : Nat), a.ctl.irqLast.get? n = some t → t + 1000 * (BitVec.toNat a.ctl.irqHoldoff % 65536) ≤ a.now)) ∧
    (∃ (s a : State) (dt n t : Nat),
      s.advance dt = a ∧ a.ctl.irqLast.get? n = some t ∧ a.now < t + 1000 * (BitVec.toNat a.ctl.irqHoldoff % 65536)) ∧
    (∃ (s a : State) (dt : Nat),
      s.advance dt = a ∧ a.endpointUp = true) ∧
    (∃ (s a : State) (dt : Nat),
      s.advance dt = a ∧ a.endpointUp = true ∧ a.bar0Up = true) ∧
    (∃ (s a : State) (dt requester offset : Nat) (l : Latch),
      s.advance dt = a ∧ a.endpointUp = true ∧
      (List.find? (fun x => x.requester == requester && x.offset == offset) a.ctl.latches = some l)) ∧
    (∃ (s a : State) (dt requester offset : Nat),
      s.advance dt = a ∧ a.endpointUp = true ∧ (∀ x ∈ a.ctl.latches, x.requester = requester → x.offset ≠ offset)) ∧
    (∃ (s a : State) (dt : Nat),
      s.advance dt = a ∧ a.endpointUp = true) :=
  ⟨
     ⟨sWait, sWait.advance (60000 * 1000000), 60000 * 1000000, 56, 0, rHost, [],
       rfl,
       by decide +kernel,
       by decide +kernel⟩,
     ⟨sWait, sWait, 0, 56, 0, rHost, [],
       rfl,
       by decide +kernel,
       by decide +kernel⟩,
     ⟨sHeld, sHeld.advance 65535000, 65535000, 63,
       rfl,
       by decide +kernel,
       by decide +kernel,
       by decide +kernel⟩,
     ⟨sHeld, sHeld, 0, 63, 0,
       rfl,
       by decide +kernel,
       by decide +kernel⟩,
     ⟨cfg, cfg, 0,
       rfl,
       by decide +kernel⟩,
     ⟨cfg, cfg, 0,
       rfl,
       by decide +kernel,
       by decide +kernel⟩,
     ⟨sLatch, sLatch, 0, 5, 8, {requester := 5, offset := 8, high := 3},
       rfl,
       by decide +kernel,
       by decide +kernel⟩,
     ⟨sLatch, sLatch, 0, 6, 0,
       rfl,
       by decide +kernel,
       by decide +kernel⟩,
     ⟨cfg, cfg, 0,
       rfl,
       by decide +kernel⟩⟩

/-- The hypotheses of each clause of `CarriagesFailAndReset` are met. -/
theorem witness_CarriagesFailAndReset :
    (∃ (s a : State) (dt : Nat),
      s.advance dt = a ∧ a.ctl.rings.wf = true ∧ (∀ k ∈ a.ctl.rings, k.1 < 64) ∧ a.ctl.counters.wf = true) ∧
    (∃ (s a : State) (dt : Nat) (c : Carriage) (bytes : List Byte) (n st : Nat),
      s.advance dt = a ∧ a.hears c = true ∧ Quiet a ∧
      packetFault c (match c with | .host _ => n | _ => bytes.length) bytes = some st) ∧
    (∃ (s a : State) (dt : Nat) (c : Carriage) (bytes : List Byte) (n st : Nat),
      s.advance dt = a ∧ a.hears c = true ∧ Quiet a ∧
      packetFault c (match c with | .host _ => n | _ => bytes.length) bytes = some st) ∧
    (∃ (s a : State) (dt : Nat) (c : Carriage) (bytes : List Byte) (n st : Nat),
      s.advance dt = a ∧ a.hears c = true ∧ Quiet a ∧
      packetFault c (match c with | .host _ => n | _ => bytes.length) bytes = some st) ∧
    (∃ (s a : State) (dt : Nat) (c : Carriage) (bytes : List Byte) (n st : Nat),
      s.advance dt = a ∧ a.hears c = true ∧ Quiet a ∧
      packetFault c (match c with | .host _ => n | _ => bytes.length) bytes = some st) ∧
    (∃ (s a : State) (dt : Nat) (c : Carriage) (bytes : List Byte) (n : Nat),
      s.advance dt = a ∧ a.hears c = true ∧ Quiet a ∧
      packetFault c (match c with | .host _ => n | _ => bytes.length) bytes = none ∧ (requestOf c bytes).1 ∉ requestOps) ∧
    (∃ (s a : State) (dt : Nat) (bytes : List Byte),
      s.advance dt = a ∧ a.hears Carriage.uart = true ∧ (cobsOk (bytes.length + 1) bytes = false ∨ 65795 < bytes.length)) ∧
    (∃ (s a : State) (dt : Nat) (bytes : List Byte),
      s.advance dt = a ∧ a.hears Carriage.uart = true ∧ cobsOk (bytes.length + 1) bytes = true ∧ bytes.length ≤ 65795) ∧
    (∃ (s a : State) (dt port tcpPort k i : Nat),
      s.advance dt = a ∧ a.up = true ∧ a.linkIsUp port = true ∧ a.listener port tcpPort = some i ∧
      (∀ c ∈ a.ctl.tcp, c.2.use = 2 → c.2.owner ≠ i) ∧ a.freeConn = some k) ∧
    (∃ (s a : State) (dt port tcpPort i : Nat),
      s.advance dt = a ∧ a.up = true ∧ a.linkIsUp port = true ∧ a.listener port tcpPort = some i ∧
      (∃ c ∈ a.ctl.tcp, c.2.use = 2 ∧ c.2.owner = i)) ∧
    (∃ (s a : State) (dt port tcpPort k : Nat),
      s.advance dt = a ∧ a.up = true ∧ a.linkIsUp port = true ∧ a.listener port tcpPort = none ∧
      a.parB Par.CTL.TCP_ENABLE port = true ∧ tcpPort = a.parN Par.CTL.UDP_PORT 0 ∧ a.tcpSpare = true ∧ a.freeConn = some k) ∧
    (∃ (s a : State) (dt port tcpPort : Nat),
      s.advance dt = a ∧ a.up = true ∧ a.linkIsUp port = true ∧ a.listener port tcpPort = none ∧
      a.parB Par.CTL.TCP_ENABLE port = true ∧ tcpPort = a.parN Par.CTL.UDP_PORT 0 ∧ a.tcpSpare = false) ∧
    (∃ (s a : State) (dt k : Nat) (t : TcpConn),
      s.advance dt = a ∧ a.up = true ∧ a.ctl.tcp.get? k = some t ∧ t.use = 0 ∧
      t.lastAt + sec * a.parN Par.CTL.SESSION_IDLE_S 0 ≤ a.now) :=
  ⟨
     ⟨sLatch, sLatch, 0,
       rfl,
       by decide +kernel,
       by decide +kernel,
       by decide +kernel⟩,
     ⟨cfg, cfg, 0, .uart, badCrc, 24, 0x0103,
       rfl,
       by decide +kernel,
       by decide +kernel,
       by decide +kernel⟩,
     ⟨cfg, cfg, 0, .host 48, badOf (.host 48), 20, 0x0103,
       rfl,
       by decide +kernel,
       by decide +kernel,
       by decide +kernel⟩,
     ⟨sConn, sConn, 0, .tcp 63, badOf (.tcp 63), 24, 0x0103,
       rfl,
       by decide +kernel,
       by decide +kernel,
       by decide +kernel⟩,
     ⟨cfg, cfg, 0, .uart, [1, 2], 24, 0x0101,
       rfl,
       by decide +kernel,
       by decide +kernel,
       by decide +kernel⟩,
     ⟨cfg, cfg, 0, .uart, noOp, 24,
       rfl,
       by decide +kernel,
       by decide +kernel,
       by decide +kernel,
       by decide +kernel⟩,
     ⟨cfg, cfg, 0, [5, 1],
       rfl,
       by decide +kernel,
       by decide +kernel⟩,
     ⟨cfg, cfg, 0, [2, 1],
       rfl,
       by decide +kernel,
       by decide +kernel,
       by decide +kernel⟩,
     ⟨sListen false, sListen false, 0, 31, 9, 0, 1,
       rfl,
       by decide +kernel,
       by decide +kernel,
       by decide +kernel,
       by decide +kernel,
       by decide +kernel⟩,
     ⟨sListen true, sListen true, 0, 31, 9, 1,
       rfl,
       by decide +kernel,
       by decide +kernel,
       by decide +kernel,
       by decide +kernel⟩,
     ⟨sTcp, sTcp, 0, 31, sTcp.parN Par.CTL.UDP_PORT 0, 0,
       rfl,
       by decide +kernel,
       by decide +kernel,
       by decide +kernel,
       by decide +kernel,
       by decide +kernel,
       by decide +kernel,
       by decide +kernel⟩,
     ⟨sFull, sFull, 0, 31, sTcp.parN Par.CTL.UDP_PORT 0,
       rfl,
       by decide +kernel,
       by decide +kernel,
       by decide +kernel,
       by decide +kernel,
       by decide +kernel,
       by decide +kernel⟩,
     ⟨sFull, sFull.advance (600 * sec), 600 * sec, 63, conn,
       rfl,
       by decide +kernel,
       by decide +kernel,
       by decide +kernel,
       by decide +kernel⟩⟩

/-- The hypotheses of each clause of `FramesAreReceivedAndSteered` are met. -/
theorem witness_FramesAreReceivedAndSteered :
    (∃ (s a : State) (dt n : Nat) (f : RxFrame),
      s.advance dt = a ∧ a.up = true ∧ a.runs 1 = true ∧ a.linkIsUp n = true ∧ a.rxVerdict n f = none) ∧
    (∃ (s a : State) (dt n : Nat) (f : RxFrame) (c : Nat),
      s.advance dt = a ∧ a.up = true ∧ a.runs 1 = true ∧ a.linkIsUp n = true ∧ a.rxVerdict n f = some c) ∧
    (∃ (s a : State) (dt n : Nat) (f : RxFrame),
      s.advance dt = a ∧ a.up = true ∧ a.runs 1 = true ∧ a.linkIsUp n = true ∧ f.symbolErr = true) ∧
    (∃ (s a : State) (dt n : Nat) (f : RxFrame),
      s.advance dt = a ∧ a.up = true ∧ a.runs 1 = true ∧ a.linkIsUp n = true ∧ f.symbolErr = false ∧ f.bytes.length < 64) ∧
    (∃ (s a : State) (dt n : Nat) (f : RxFrame),
      s.advance dt = a ∧ a.up = true ∧ a.runs 1 = true ∧ a.linkIsUp n = true ∧ f.symbolErr = false ∧ 64 ≤ f.bytes.length ∧
      a.parN Par.PRT.MAX_FRAME n < f.bytes.length) ∧
    (∃ (s a : State) (dt n : Nat) (f : RxFrame),
      s.advance dt = a ∧ a.up = true ∧ a.runs 1 = true ∧ a.linkIsUp n = true ∧ f.symbolErr = false ∧ f.oddBits = false ∧
      64 ≤ f.bytes.length ∧ f.bytes.length ≤ a.parN Par.PRT.MAX_FRAME n ∧ fcsGood f.bytes = false) ∧
    (∃ (s a : State) (dt n t : Nat) (l : List Byte) (rest : List (Nat × List Byte)),
      s.advance dt = a ∧ a.up = true ∧ a.runs 1 = true ∧ Quiet a ∧ (a.port n).fifo = (t, l) :: rest ∧
      (((a.setPort n { a.port n with fifo := rest, liveFrames := ((a.port n).liveFrames + 1) % 2 ^ 64 }).count 257 n 1).count 258 n l.length).steer n l = 0) ∧
    (∃ (s a : State) (dt n t : Nat) (l : List Byte) (rest : List (Nat × List Byte)),
      s.advance dt = a ∧ a.up = true ∧ a.runs 1 = true ∧ Quiet a ∧ (a.port n).fifo = (t, l) :: rest ∧
      (((a.setPort n { a.port n with fifo := rest, liveFrames := ((a.port n).liveFrames + 1) % 2 ^ 64 }).count 257 n 1).count 258 n l.length).steer n l = 1) ∧
    (∃ (s a : State) (dt n t : Nat) (l : List Byte) (rest : List (Nat × List Byte)),
      s.advance dt = a ∧ a.up = true ∧ a.runs 1 = true ∧ Quiet a ∧ (a.port n).fifo = (t, l) :: rest ∧
      (((a.setPort n { a.port n with fifo := rest, liveFrames := ((a.port n).liveFrames + 1) % 2 ^ 64 }).count 257 n 1).count 258 n l.length).steer n l = 2) ∧
    (∃ (s a : State) (dt n t : Nat) (l : List Byte) (rest : List (Nat × List Byte)) (v : IpView),
      s.advance dt = a ∧ a.up = true ∧ a.runs 1 = true ∧ Quiet a ∧ (a.port n).fifo = (t, l) :: rest ∧
      (((a.setPort n { a.port n with fifo := rest, liveFrames := ((a.port n).liveFrames + 1) % 2 ^ 64 }).count 257 n 1).count 258 n l.length).steer n l = 3 ∧
      ipView l = some v) ∧
    (∃ (s a : State) (dt n t : Nat) (l : List Byte) (rest : List (Nat × List Byte)),
      s.advance dt = a ∧ a.up = true ∧ a.runs 1 = true ∧ Quiet a ∧ (a.port n).fifo = (t, l) :: rest ∧
      ((((a.setPort n { a.port n with fifo := rest, liveFrames := ((a.port n).liveFrames + 1) % 2 ^ 64 }).count 257 n 1).count 258 n l.length).steer n l = 4 ∨ (((a.setPort n { a.port n with fifo := rest, liveFrames := ((a.port n).liveFrames + 1) % 2 ^ 64 }).count 257 n 1).count 258 n l.length).steer n l = 5)) ∧
    (∃ (s a : State) (dt n t : Nat) (l : List Byte) (rest : List (Nat × List Byte)),
      s.advance dt = a ∧ a.up = true ∧ a.runs 1 = true ∧ Quiet a ∧ (a.port n).fifo = (t, l) :: rest ∧
      (((a.setPort n { a.port n with fifo := rest, liveFrames := ((a.port n).liveFrames + 1) % 2 ^ 64 }).count 257 n 1).count 258 n l.length).steer n l = 6) ∧
    (∃ (s a : State) (dt : Nat) (f : Fragment),
      s.advance dt = a ∧ a.up = true ∧ a.runs 12 = true ∧ Quiet a ∧ (∀ x ∈ a.ctl.reasm, x.same f = false) ∧
      a.ctl.reasm.length < 16 ∧ f.more = true ∧ f.offset + f.data.length ≤ reasmMost f.v6) ∧
    (∃ (s a : State) (dt : Nat) (f : Fragment),
      s.advance dt = a ∧ a.up = true ∧ a.runs 12 = true ∧ Quiet a ∧ (∀ x ∈ a.ctl.reasm, x.same f = false) ∧
      a.ctl.reasm.length = 16) ∧
    (∃ (s a : State) (dt : Nat) (x : Reassembly),
      s.advance dt = a ∧ a.ctl.reasm = [x] ∧ x.firstAt + sec ≤ a.now) ∧
    (∃ (s a : State) (dt : Nat),
      s.advance dt = a ∧ (∀ x ∈ a.ctl.reasm, a.now < x.firstAt + sec)) :=
  ⟨
     ⟨sLink 31, sLink 31, 0, 31, rx (eth 0x88BA []),
       rfl,
       by decide +kernel,
       by decide +kernel,
       by decide +kernel,
       by decide +kernel⟩,
     ⟨sLink 31, sLink 31, 0, 31, {rx (eth 0x88BA []) with oddBits := true}, 0x010A,
       rfl,
       by decide +kernel,
       by decide +kernel,
       by decide +kernel,
       by decide +kernel⟩,
     ⟨sLink 31, sLink 31, 0, 31, {rx (eth 0x88BA []) with symbolErr := true},
       rfl,
       by decide +kernel,
       by decide +kernel,
       by decide +kernel,
       by decide +kernel⟩,
     ⟨sLink 31, sLink 31, 0, 31, rx ((eth 0x88BA []).drop 1),
       rfl,
       by decide +kernel,
       by decide +kernel,
       by decide +kernel,
       by decide +kernel,
       by decide +kernel⟩,
     ⟨sLink 31, sLink 31, 0, 31, rx (List.replicate 1523 0),
       rfl,
       by decide +kernel,
       by decide +kernel,
       by decide +kernel,
       by decide +kernel,
       by decide +kernel,
       by decide +kernel⟩,
     ⟨sLink 31, sLink 31, 0, 31, rx (List.replicate 64 1),
       rfl,
       by decide +kernel,
       by decide +kernel,
       by decide +kernel,
       by decide +kernel,
       by decide +kernel,
       by decide +kernel,
       by decide +kernel,
       by decide +kernel⟩,
     ⟨sFifo (eth 0x1234 []), sFifo (eth 0x1234 []), 0, 31, 0, eth 0x1234 [], [],
       rfl,
       by decide +kernel,
       by decide +kernel,
       by decide +kernel,
       by decide +kernel,
       by decide +kernel⟩,
     ⟨withPar (sFifo (eth 0x88F7 [])) Par.TIM.PTP_RX_PORTS 0 0x80000000,
         withPar (sFifo (eth 0x88F7 [])) Par.TIM.PTP_RX_PORTS 0 0x80000000, 0, 31, 0, eth 0x88F7 [], [],
       rfl,
       by decide +kernel,
       by decide +kernel,
       by decide +kernel,
       by decide +kernel,
       by decide +kernel⟩,
     ⟨sFifo (eth 0x88BA []), sFifo (eth 0x88BA []), 0, 31, 0, eth 0x88BA [], [],
       rfl,
       by decide +kernel,
       by decide +kernel,
       by decide +kernel,
       by decide +kernel,
       by decide +kernel⟩,
     ⟨sUdp, sUdp, 0, 31, 0, ip4 17 0 4640, [], udpView,
       rfl,
       by decide +kernel,
       by decide +kernel,
       by decide +kernel,
       by decide +kernel,
       by decide +kernel,
       by decide +kernel⟩,
     ⟨sFifo (ip4 17 0x2000 9), sFifo (ip4 17 0x2000 9), 0, 31, 0, ip4 17 0x2000 9, [],
       rfl,
       by decide +kernel,
       by decide +kernel,
       by decide +kernel,
       by decide +kernel,
       by decide +kernel⟩,
     ⟨sArp, sArp, 0, 31, 0, arp, [],
       rfl,
       by decide +kernel,
       by decide +kernel,
       by decide +kernel,
       by decide +kernel,
       by decide +kernel⟩,
     ⟨sReass 15, sReass 15, 0, frag true,
       rfl,
       by decide +kernel,
       by decide +kernel,
       by decide +kernel,
       by decide +kernel,
       by decide +kernel,
       by decide +kernel,
       by decide +kernel⟩,
     ⟨sReass 16, sReass 16, 0, frag true,
       rfl,
       by decide +kernel,
       by decide +kernel,
       by decide +kernel,
       by decide +kernel,
       by decide +kernel⟩,
     ⟨sReass 1, (sReass 1).advance sec, sec, reass 0,
       rfl,
       by decide +kernel,
       by decide +kernel⟩,
     ⟨sReass 1, (sReass 1).advance (sec - 1), sec - 1,
       rfl,
       by decide +kernel⟩⟩

/-- The hypotheses of each clause of `LinksAndSends` are met. -/
theorem witness_LinksAndSends :
    (∃ (s a : State) (dt n : Nat),
      s.advance dt = a ∧ a.up = true ∧ (a.port n).up = true) ∧
    (∃ (s a : State) (dt n : Nat),
      s.advance dt = a ∧ a.up = true ∧ (a.port n).up = false) ∧
    (∃ (s a : State) (dt n : Nat) (st : PhyStatus),
      s.advance dt = a ∧ a.up = true ∧ a.runs 1 = true ∧ st.up = true ∧ a.parN Par.PRT.MODE n ≠ 0 ∧
      (st.halfOnly = false ∨ a.negotiates n = false) ∧ a.linkReady n st = true) ∧
    (∃ (s a : State) (dt n : Nat) (st : PhyStatus),
      s.advance dt = a ∧ a.up = true ∧ a.runs 1 = true ∧ st.up = true ∧ a.parN Par.PRT.MODE n ≠ 0 ∧
      (st.halfOnly = false ∨ a.negotiates n = false) ∧ a.phyManaged n = true ∧ a.pollDue n = true ∧
      (a.setPort n { a.port n with polledAt := some a.now }).linkReady n st = true) ∧
    (∃ (s a : State) (dt n : Nat) (st : PhyStatus),
      s.advance dt = a ∧ a.up = true ∧ a.runs 1 = true ∧ st.up = true ∧ a.parN Par.PRT.MODE n ≠ 0 ∧ st.halfOnly = true ∧
      a.negotiates n = true ∧ (a.port n).up = false ∧ (a.port n).hdRefused = false) ∧
    (∃ (s a : State) (dt n : Nat) (st : PhyStatus),
      s.advance dt = a ∧ a.up = true ∧ a.runs 1 = true ∧ a.phyManaged n = true ∧ a.pollDue n = true ∧ st.up = false ∧
      (a.port n).up = false ∧ a.prt.port.wf = true) ∧
    (∃ (s a : State) (dt n : Nat) (x : TxItem),
      s.advance dt = a ∧ Quiet a ∧ a.linkIsUp n = true ∧ (a.port n).sending = some x ∧ (x.ring = none ∨ x.last = false)) ∧
    (∃ (s a : State) (dt n : Nat) (x : TxItem) (r : Nat),
      s.advance dt = a ∧ Quiet a ∧ a.linkIsUp n = true ∧ (a.port n).sending = some x ∧ x.ring = some r ∧ x.last = true) ∧
    (∃ (s a : State) (dt n : Nat) (ds : List TxDesc) (e : TxDesc),
      s.advance dt = a ∧ a.up = true ∧ a.runs 1 = true ∧ (a.ring n).enable = true ∧ (a.ring n).inFlight = 0 ∧
      takeSend (a.ring n).sends = some ds ∧ ds.getLast? = some e ∧
      (a.setRing n { a.ring n with sends := List.drop ds.length (a.ring n).sends, inFlight := ds.length }).sendFrames ds = none) ∧
    (∃ (s a : State) (dt n : Nat) (ds : List TxDesc) (e : TxDesc) (fs : List (List Byte)),
      s.advance dt = a ∧ a.up = true ∧ a.runs 1 = true ∧ (a.ring n).enable = true ∧ (a.ring n).inFlight = 0 ∧
      takeSend (a.ring n).sends = some ds ∧ ds.getLast? = some e ∧
      (a.setRing n { a.ring n with sends := List.drop ds.length (a.ring n).sends, inFlight := ds.length }).sendFrames ds = some fs ∧
      (a.setRing n { a.ring n with sends := List.drop ds.length (a.ring n).sends, inFlight := ds.length }).linkIsUp e.port = false) ∧
    (∃ (s a : State) (dt n : Nat) (ds : List TxDesc) (e : TxDesc) (fs : List (List Byte)),
      s.advance dt = a ∧ a.up = true ∧ a.runs 1 = true ∧ (a.ring n).enable = true ∧ (a.ring n).inFlight = 0 ∧
      takeSend (a.ring n).sends = some ds ∧ ds.getLast? = some e ∧
      (a.setRing n { a.ring n with sends := List.drop ds.length (a.ring n).sends, inFlight := ds.length }).sendFrames ds = some fs ∧
      (a.setRing n { a.ring n with sends := List.drop ds.length (a.ring n).sends, inFlight := ds.length }).linkIsUp e.port = true) ∧
    (∃ (s a : State) (dt n rx tx : Nat),
      s.advance dt = a ∧ a.pwr.dev = DevState.run ∧ a.runs 1 = true ∧ a.parN Par.PRT.MODE n = 1 ∧
      a.parN Par.PRT.DOWNSHIFT_PCT n ≠ 0 ∧ (a.port n).up = true ∧ (a.port n).windowAt + sec ≤ a.now ∧
      ((a.setPort n { a.port n with windowAt := a.now }).port n).shifted = true ∧ 80000000 < max rx tx) ∧
    (∃ (s a : State) (dt n rx tx : Nat),
      s.advance dt = a ∧ a.pwr.dev = DevState.run ∧ a.runs 1 = true ∧ a.parN Par.PRT.MODE n = 1 ∧
      a.parN Par.PRT.DOWNSHIFT_PCT n ≠ 0 ∧ (a.port n).up = true ∧ (a.port n).windowAt + sec ≤ a.now ∧
      ((a.setPort n { a.port n with windowAt := a.now }).port n).shifted = true ∧ max rx tx ≤ 80000000) ∧
    (∃ (s a : State) (dt n rx tx : Nat),
      s.advance dt = a ∧ a.pwr.dev = DevState.run ∧ a.runs 1 = true ∧ a.parN Par.PRT.MODE n = 1 ∧
      a.parN Par.PRT.DOWNSHIFT_PCT n ≠ 0 ∧ (a.port n).up = true ∧ (a.port n).windowAt + sec ≤ a.now ∧
      ((a.setPort n { a.port n with windowAt := a.now }).port n).shifted = false ∧
      max rx tx * 100 < (a.setPort n { a.port n with windowAt := a.now }).parN Par.PRT.DOWNSHIFT_PCT n * 1000000000 ∧
      (a.setPort n { a.port n with windowAt := a.now }).parN Par.PRT.DOWNSHIFT_S n ≤ ((a.setPort n { a.port n with windowAt := a.now }).port n).lowSeconds + 1 ∧ ((a.setPort n { a.port n with windowAt := a.now }).port n).noShift = false ∧ ((a.setPort n { a.port n with windowAt := a.now }).port n).speed = 3) ∧
    (∃ (s a : State) (dt n rx tx : Nat),
      s.advance dt = a ∧ a.pwr.dev = DevState.run ∧ a.runs 1 = true ∧ a.parN Par.PRT.MODE n = 1 ∧
      a.parN Par.PRT.DOWNSHIFT_PCT n ≠ 0 ∧ (a.port n).up = true ∧ (a.port n).windowAt + sec ≤ a.now ∧
      ((a.setPort n { a.port n with windowAt := a.now }).port n).shifted = false ∧
      max rx tx * 100 < (a.setPort n { a.port n with windowAt := a.now }).parN Par.PRT.DOWNSHIFT_PCT n * 1000000000 ∧
      ¬((a.setPort n { a.port n with windowAt := a.now }).parN Par.PRT.DOWNSHIFT_S n ≤ ((a.setPort n { a.port n with windowAt := a.now }).port n).lowSeconds + 1 ∧ ((a.setPort n { a.port n with windowAt := a.now }).port n).noShift = false ∧ ((a.setPort n { a.port n with windowAt := a.now }).port n).speed = 3)) ∧
    (∃ (s a : State) (dt n rx tx : Nat),
      s.advance dt = a ∧ a.pwr.dev = DevState.run ∧ a.runs 1 = true ∧ a.parN Par.PRT.MODE n = 1 ∧
      a.parN Par.PRT.DOWNSHIFT_PCT n ≠ 0 ∧ (a.port n).up = true ∧ (a.port n).windowAt + sec ≤ a.now ∧
      ((a.setPort n { a.port n with windowAt := a.now }).port n).shifted = false ∧
      ¬max rx tx * 100 < (a.setPort n { a.port n with windowAt := a.now }).parN Par.PRT.DOWNSHIFT_PCT n * 1000000000) ∧
    (∃ (s a : State) (dt n : Nat),
      s.advance dt = a ∧ (a.port n).shifted = true ∧ (a.port n).awaitUp = true ∧ (a.port n).shiftAt + 10 * sec ≤ a.now) :=
  ⟨
     ⟨sLink 31, sLink 31, 0, 31,
       rfl,
       by decide +kernel,
       by decide +kernel⟩,
     ⟨cfg, cfg, 0, 31,
       rfl,
       by decide +kernel,
       by decide +kernel⟩,
     ⟨sPoll, sPoll, 0, 27, phy true false,
       rfl,
       by decide +kernel,
       by decide +kernel,
       by decide +kernel,
       by decide +kernel,
       by decide +kernel,
       by decide +kernel⟩,
     ⟨sPoll, sPoll, 0, 27, phy true false,
       rfl,
       by decide +kernel,
       by decide +kernel,
       by decide +kernel,
       by decide +kernel,
       by decide +kernel,
       by decide +kernel,
       by decide +kernel,
       by decide +kernel⟩,
     ⟨sPoll, sPoll, 0, 27, phy true true,
       rfl,
       by decide +kernel,
       by decide +kernel,
       by decide +kernel,
       by decide +kernel,
       by decide +kernel,
       by decide +kernel,
       by decide +kernel,
       by decide +kernel⟩,
     ⟨sPoll, sPoll, 0, 27, phy false false,
       rfl,
       by decide +kernel,
       by decide +kernel,
       by decide +kernel,
       by decide +kernel,
       by decide +kernel,
       by decide +kernel,
       by decide +kernel⟩,
     ⟨sSending none, sSending none, 0, 31, txi none,
       rfl,
       by decide +kernel,
       by decide +kernel,
       by decide +kernel,
       by decide +kernel⟩,
     ⟨sSending (some 47), sSending (some 47), 0, 31, txi (some 47), 47,
       rfl,
       by decide +kernel,
       by decide +kernel,
       by decide +kernel,
       by decide +kernel,
       by decide +kernel⟩,
     ⟨sSend cfg 1519, sSend cfg 1519, 0, 47, [txd 1519], txd 1519,
       rfl,
       by decide +kernel,
       by decide +kernel,
       by decide +kernel,
       by decide +kernel,
       by decide +kernel,
       by decide +kernel,
       by decide +kernel⟩,
     ⟨sSend cfg 60, sSend cfg 60, 0, 47, [txd 60], txd 60, [List.replicate 60 1],
       rfl,
       by decide +kernel,
       by decide +kernel,
       by decide +kernel,
       by decide +kernel,
       by decide +kernel,
       by decide +kernel,
       by decide +kernel,
       by decide +kernel⟩,
     ⟨sSend (sLink 31) 1518, sSend (sLink 31) 1518, 0, 47, [txd 1518], txd 1518, [List.replicate 1518 1],
       rfl,
       by decide +kernel,
       by decide +kernel,
       by decide +kernel,
       by decide +kernel,
       by decide +kernel,
       by decide +kernel,
       by decide +kernel,
       by decide +kernel⟩,
     ⟨sShift true, (sShift true).advance sec, sec, 27, 80000001, 0,
       rfl,
       by decide +kernel,
       by decide +kernel,
       by decide +kernel,
       by decide +kernel,
       by decide +kernel,
       by decide +kernel,
       by decide +kernel,
       by decide +kernel⟩,
     ⟨sShift true, (sShift true).advance sec, sec, 27, 80000000, 0,
       rfl,
       by decide +kernel,
       by decide +kernel,
       by decide +kernel,
       by decide +kernel,
       by decide +kernel,
       by decide +kernel,
       by decide +kernel,
       by decide +kernel⟩,
     ⟨sWindow 599, (sWindow 599).advance sec, sec, 27, 49999999, 0,
       rfl,
       by decide +kernel,
       by decide +kernel,
       by decide +kernel,
       by decide +kernel,
       by decide +kernel,
       by decide +kernel,
       by decide +kernel,
       by decide +kernel,
       by decide +kernel⟩,
     ⟨sWindow 0, (sWindow 0).advance sec, sec, 27, 49999999, 0,
       rfl,
       by decide +kernel,
       by decide +kernel,
       by decide +kernel,
       by decide +kernel,
       by decide +kernel,
       by decide +kernel,
       by decide +kernel,
       by decide +kernel,
       by decide +kernel⟩,
     ⟨sWindow 0, (sWindow 0).advance sec, sec, 27, 50000000, 0,
       rfl,
       by decide +kernel,
       by decide +kernel,
       by decide +kernel,
       by decide +kernel,
       by decide +kernel,
       by decide +kernel,
       by decide +kernel,
       by decide +kernel⟩,
     ⟨sShiftWait, (sShiftWait).advance (10 * sec), 10 * sec, 27,
       rfl,
       by decide +kernel,
       by decide +kernel,
       by decide +kernel⟩⟩

/-- The hypotheses of each clause of `ResetPowerFailAndSleep` are met. -/
theorem witness_ResetPowerFailAndSleep :
    (∃ (s a : State) (dt : Nat),
      s.advance dt = a ∧ a.pwr.supplies = false) ∧
    (∃ (s a : State) (dt : Nat),
      s.advance dt = a ∧ a.pwr.supplies = true) ∧
    (∃ (s a : State) (dt straps : Nat),
      s.advance dt = a ∧ a.pwr.resetLow = true ∧ a.pwr.activeRec ≤ 1 ∧ straps % 4 = 0 ∧
      (a.bankOf a.pwr.activeRec).good a.ident = true) ∧
    (∃ (s a : State) (dt straps : Nat),
      s.advance dt = a ∧ a.pwr.resetLow = true ∧ a.pwr.activeRec ≤ 1 ∧ straps % 4 = 0 ∧
      (a.bankOf a.pwr.activeRec).good a.ident = false ∧ (a.bankOf (1 - a.pwr.activeRec)).good a.ident = true) ∧
    (∃ (s a : State) (dt straps : Nat),
      s.advance dt = a ∧ a.pwr.resetLow = true ∧ a.pwr.activeRec ≤ 1 ∧ straps % 4 = 0 ∧ (a.bankOf 0).good a.ident = false ∧
      (a.bankOf 1).good a.ident = false) ∧
    (∃ (s a : State) (dt : Nat),
      s.advance dt = a ∧ a.up = true) ∧
    (∃ (s a : State) (dt t : Nat),
      s.advance dt = a ∧ a.saving = true ∧ a.cus.pfwStamp = some t) ∧
    (∃ (s a : State) (dt : Nat),
      s.advance dt = a ∧ a.pwr.dev = DevState.boot ∧ a.pwr.loaded = false ∧ a.pwr.supplies = true ∧ a.pwr.resetLow = false) ∧
    (∃ (s a : State) (dt : Nat),
      s.advance dt = a ∧ (a.pwr.dev = DevState.sleep ∨ a.pwr.dev = DevState.halt)) ∧
    (∃ (s a : State) (dt : Nat),
      s.advance dt = a ∧ a.pwr.pfw = true ∧ a.pwr.supplies = true ∧ a.pwr.resetLow = false) ∧
    (∃ (s a : State) (dt : Nat),
      s.advance dt = a ∧ a.pwr.dev = DevState.sleep ∧ a.ctl.linkUp = true) ∧
    (∃ (s a : State) (dt port : Nat) (bytes : List Byte),
      s.advance dt = a ∧ a.pwr.dev = DevState.sleep ∧ a.linkIsUp port = true ∧ fcsGood bytes = true ∧
      a.wakeBits port bytes ≠ 0) ∧
    (∃ (s a : State) (dt port : Nat) (bytes : List Byte),
      s.advance dt = a ∧ a.pwr.dev = DevState.sleep ∧ (fcsGood bytes = false ∨ a.wakeBits port bytes = 0)) :=
  ⟨
     ⟨sDown, sDown, 0,
       rfl,
       by decide +kernel⟩,
     ⟨keyed (sCons 2 none), keyed (sCons 2 none), 0,
       rfl,
       by decide +kernel⟩,
     ⟨sLow goodBank noBank, sLow goodBank noBank, 0, 0,
       rfl,
       by decide +kernel,
       by decide +kernel,
       by decide +kernel,
       by decide +kernel⟩,
     ⟨sLow noBank goodBank, sLow noBank goodBank, 0, 0,
       rfl,
       by decide +kernel,
       by decide +kernel,
       by decide +kernel,
       by decide +kernel,
       by decide +kernel⟩,
     ⟨sLow noBank noBank, sLow noBank noBank, 0, 4,
       rfl,
       by decide +kernel,
       by decide +kernel,
       by decide +kernel,
       by decide +kernel,
       by decide +kernel⟩,
     ⟨run, run, 0,
       rfl,
       by decide +kernel⟩,
     ⟨sSaving, sSaving, 0, 0,
       rfl,
       by decide +kernel,
       by decide +kernel⟩,
     ⟨State.reset, State.reset, 0,
       rfl,
       by decide +kernel,
       by decide +kernel,
       by decide +kernel,
       by decide +kernel⟩,
     ⟨inState .halt, inState .halt, 0,
       rfl,
       by decide +kernel⟩,
     ⟨sPfw, sPfw, 0,
       rfl,
       by decide +kernel,
       by decide +kernel,
       by decide +kernel⟩,
     ⟨sSleep, sSleep, 0,
       rfl,
       by decide +kernel,
       by decide +kernel⟩,
     ⟨sSleep, sSleep, 0, 31, magicFrame,
       rfl,
       by decide +kernel,
       by decide +kernel,
       by decide +kernel,
       by decide +kernel⟩,
     ⟨sSleep, sSleep, 0, 30, magicFrame,
       rfl,
       by decide +kernel,
       by decide +kernel⟩⟩

/-- The hypotheses of each clause of `BootCompletesIntoItsState` are met. -/
theorem witness_BootCompletesIntoItsState :
    (∃ (s a : State) (dt : Nat),
      s.advance dt = a ∧ a.pwr.dev = DevState.boot ∧ a.pwr.recovery = false ∧ a.pwr.resetLow = false ∧ a.pwr.supplies = true ∧
      a.pwr.pfw = false) ∧
    (∃ (s a : State) (dt : Nat),
      s.advance dt = a ∧ a.pwr.dev = DevState.boot ∧ a.pwr.recovery = false ∧ a.pwr.resetLow = false ∧ a.pwr.supplies = true ∧
      a.pwr.pfw = false) ∧
    (∃ (s a : State) (dt : Nat),
      s.advance dt = a ∧ a.pwr.dev = DevState.boot ∧ a.pwr.recovery = false ∧ a.pwr.resetLow = false ∧ a.pwr.supplies = true ∧
      a.pwr.pfw = false) ∧
    (∃ (s a : State) (dt : Nat),
      s.advance dt = a ∧ a.up = true ∧ a.pwr.dev = DevState.config ∧ a.pwr.ruleDue = true ∧ a.parN Par.CTL.BOOT_TARGET 0 = 1 ∧
      a.pwr.configAt + a.parN Par.CTL.LOCK_WAIT_S 0 * sec ≤ a.now) ∧
    (∃ (s a : State) (dt : Nat),
      s.advance dt = a ∧ a.up = true ∧ a.pwr.dev = DevState.config ∧ a.pwr.ruleDue = true ∧ a.parN Par.CTL.BOOT_TARGET 0 = 1 ∧
      a.now < a.pwr.configAt + a.parN Par.CTL.LOCK_WAIT_S 0 * sec) :=
  ⟨
     ⟨State.reset, State.reset, 0,
       rfl,
       by decide +kernel,
       by decide +kernel,
       by decide +kernel,
       by decide +kernel,
       by decide +kernel⟩,
     ⟨keyed State.reset, keyed State.reset, 0,
       rfl,
       by decide +kernel,
       by decide +kernel,
       by decide +kernel,
       by decide +kernel,
       by decide +kernel⟩,
     ⟨sTamper, sTamper, 0,
       rfl,
       by decide +kernel,
       by decide +kernel,
       by decide +kernel,
       by decide +kernel,
       by decide +kernel⟩,
     ⟨sRule, sRule.advance (3600 * sec), 3600 * sec,
       rfl,
       by decide +kernel,
       by decide +kernel,
       by decide +kernel,
       by decide +kernel,
       by decide +kernel⟩,
     ⟨sRule, sRule, 0,
       rfl,
       by decide +kernel,
       by decide +kernel,
       by decide +kernel,
       by decide +kernel,
       by decide +kernel⟩⟩

/-- The hypotheses of `GtfAndTimeQualityCodes` are met. -/
theorem witness_GtfAndTimeQualityCodes : ∃ (s : State),
      s.tim.st = 0 :=
  ⟨run,
       by decide +kernel⟩

/-- The hypotheses of each clause of `PtpIsFollowed` are met. -/
theorem witness_PtpIsFollowed :
    (∃ (s a : State) (dt port : Nat) (msg : List Byte) (x : Announce),
      s.advance dt = a ∧ a.timeRuns = true ∧ a.ptpOn port = true ∧ (a.parN Par.TIM.PTP_RX_PORTS 0).testBit port = true ∧
      a.announceOf msg = some x ∧ x.leap59 = false ∧ x.leap61 = false ∧
      Option.map Announce.portIdentity a.tim.parent = some x.portIdentity ∧ a.tim.refPort = port) ∧
    (∃ (s a : State) (dt port : Nat) (msg : List Byte) (x : Announce),
      s.advance dt = a ∧ a.timeRuns = true ∧ a.ptpOn port = true ∧ (a.parN Par.TIM.PTP_RX_PORTS 0).testBit port = true ∧
      a.announceOf msg = some x ∧ x.leap59 = false ∧ x.leap61 = false ∧ a.tim.ptp.watched = false ∧
      (Option.map Announce.portIdentity a.tim.parent ≠ some x.portIdentity ∨ a.tim.refPort ≠ port)) ∧
    (∃ (s a : State) (dt port : Nat) (msg : List Byte),
      s.advance dt = a ∧ a.timeRuns = true ∧ a.ptpOn port = true ∧ (a.parN Par.TIM.PTP_RX_PORTS 0).testBit port = true ∧
      a.announceOf msg = none) ∧
    (∃ (s a : State) (dt port : Nat) (msg : List Byte) (p : Announce) (seq : Nat) (corr origin : Int) (every : Nat),
      s.advance dt = a ∧ a.timeRuns = true ∧ a.ptpOn port = true ∧ (a.parN Par.TIM.PTP_RX_PORTS 0).testBit port = true ∧
      a.tim.ptp.watched = true ∧ a.tim.refPort = port ∧ a.tim.parent = some p ∧ a.tim.ptp.good = 2 ∧
      a.syncOf 0 msg = some (p.portIdentity, seq, every, false, corr, origin) ∧ (a.tim.st ≠ 2 ∨ a.tim.ref ≠ 1)) ∧
    (∃ (s a : State) (dt port : Nat) (msg : List Byte) (p : Announce) (seq : Nat) (corr origin : Int) (stamp : Nat) (delay : Int) (every : Nat),
      s.advance dt = a ∧ a.timeRuns = true ∧ a.ptpOn port = true ∧ (a.parN Par.TIM.PTP_RX_PORTS 0).testBit port = true ∧
      a.tim.ptp.watched = true ∧ a.tim.refPort = port ∧ a.tim.parent = some p ∧ a.tim.ptp.good = 2 ∧
      a.syncOf 0 msg = some (p.portIdentity, seq, every, false, corr, origin) ∧ a.tim.st = 2 ∧ a.tim.ref = 1 ∧
      (↑(stamp - a.parN Par.TIM.PORT_RX_DELAY_NS port) - origin - (2 * corr + 65536) / 131072 - delay - BitVec.toInt (a.parW Par.TIM.PORT_ASYM_NS port)).natAbs ≤ a.parN Par.TIM.STEP_LIMIT_NS 0) ∧
    (∃ (s a : State) (dt port : Nat) (msg : List Byte) (p : Announce) (seq : Nat) (corr origin : Int) (every : Nat),
      s.advance dt = a ∧ a.timeRuns = true ∧ a.ptpOn port = true ∧ (a.parN Par.TIM.PTP_RX_PORTS 0).testBit port = true ∧
      a.tim.ptp.watched = true ∧ a.tim.refPort = port ∧ a.tim.parent = some p ∧ a.tim.ptp.good = 2 ∧
      a.syncOf 0 msg = some (p.portIdentity, seq, every, true, corr, origin)) ∧
    (∃ (s a : State) (dt port : Nat) (msg : List Byte) (p : Announce) (seq : Nat) (corr origin : Int) (every : Nat) (two : Bool) (came : Nat) (first : Int),
      s.advance dt = a ∧ a.timeRuns = true ∧ a.ptpOn port = true ∧ (a.parN Par.TIM.PTP_RX_PORTS 0).testBit port = true ∧
      a.tim.ptp.watched = true ∧ a.tim.refPort = port ∧ a.tim.parent = some p ∧ a.tim.ptp.good = 2 ∧ a.syncOf 0 msg = none ∧
      a.syncOf 8 msg = some (p.portIdentity, seq, every, two, corr, origin) ∧ a.tim.sync = some (seq, came, first) ∧
      (a.tim.st ≠ 2 ∨ a.tim.ref ≠ 1)) ∧
    (∃ (s a : State) (dt port : Nat) (msg : List Byte) (p : Announce) (seq : Nat) (corr origin delay : Int) (every : Nat) (two : Bool) (came : Nat) (first : Int),
      s.advance dt = a ∧ a.timeRuns = true ∧ a.ptpOn port = true ∧ (a.parN Par.TIM.PTP_RX_PORTS 0).testBit port = true ∧
      a.tim.ptp.watched = true ∧ a.tim.refPort = port ∧ a.tim.parent = some p ∧ a.tim.ptp.good = 2 ∧ a.syncOf 0 msg = none ∧
      a.syncOf 8 msg = some (p.portIdentity, seq, every, two, corr, origin) ∧ a.tim.sync = some (seq, came, first) ∧
      a.tim.st = 2 ∧ a.tim.ref = 1 ∧
      (↑came - origin - (2 * (first + corr) + 65536) / 131072 - delay - BitVec.toInt (a.parW Par.TIM.PORT_ASYM_NS port)).natAbs ≤ a.parN Par.TIM.STEP_LIMIT_NS 0) ∧
    (∃ (s a : State) (dt port : Nat) (msg : List Byte),
      s.advance dt = a ∧ a.timeRuns = true ∧ a.ptpOn port = true ∧ (a.parN Par.TIM.PTP_RX_PORTS 0).testBit port = true ∧
      a.ptpReads 2 msg = true) ∧
    (∃ (s a : State) (dt : Nat),
      s.advance dt = a ∧ a.timeRuns = true ∧ (∀ (t : Nat), a.tim.ptpAt = some t → t + sec ≤ a.now)) ∧
    (∃ (s a : State) (dt : Nat),
      s.advance dt = a ∧ a.timeRuns = true ∧ (∀ (t : Nat), a.tim.ptpAt = some t → t + sec ≤ a.now)) ∧
    (∃ (s a : State) (dt t : Nat),
      s.advance dt = a ∧ a.timeRuns = true ∧ a.tim.ptpAt = some t ∧ a.now < t + sec) ∧
    (∃ (s a : State) (dt port : Nat),
      s.advance dt = a ∧ a.timeRuns = true ∧ (a.parN Par.TIM.PTP_RX_PORTS 0).testBit port = true ∧ a.tim.refPort = port ∧
      a.tim.ptp.watched = true ∧ a.tim.syncAt + 3 * a.tim.syncEvery ≤ a.now) ∧
    (∃ (s a : State) (dt port : Nat),
      s.advance dt = a ∧ a.timeRuns = true ∧ (a.parN Par.TIM.PTP_RX_PORTS 0).testBit port = true ∧ a.tim.refPort = port ∧
      a.tim.ptp.watched = true ∧ a.now < a.tim.syncAt + 3 * a.tim.syncEvery) ∧
    (∃ (s a : State) (dt port : Nat) (p x : Announce) (t : Nat),
      s.advance dt = a ∧ a.timeRuns = true ∧ (a.parN Par.TIM.PTP_RX_PORTS 0).testBit port = true ∧ a.tim.refPort = port ∧
      a.tim.ptp.watched = true ∧ a.tim.parent = some p ∧ a.tim.announces.get? (port * 2 ^ 80 + p.portIdentity) = some (x, t) ∧
      t + 3 * sec ≤ a.now) ∧
    (∃ (s a : State) (dt port : Nat) (p x : Announce) (t : Nat),
      s.advance dt = a ∧ a.timeRuns = true ∧ (a.parN Par.TIM.PTP_RX_PORTS 0).testBit port = true ∧ a.tim.refPort = port ∧
      a.tim.ptp.watched = true ∧ a.tim.parent = some p ∧ a.tim.announces.get? (port * 2 ^ 80 + p.portIdentity) = some (x, t) ∧
      (∀ y ∈ a.tim.announces, a.now < y.2.2 + 3 * sec)) :=
  ⟨
     ⟨sParent 1, sParent 1, 0, 28, annMsg domainOf, ann,
       rfl,
       by decide +kernel,
       by decide +kernel,
       by decide +kernel,
       by decide +kernel,
       by decide +kernel,
       by decide +kernel,
       by decide +kernel,
       by decide +kernel⟩,
     ⟨sPtp, sPtp, 0, 28, annMsg domainOf, ann,
       rfl,
       by decide +kernel,
       by decide +kernel,
       by decide +kernel,
       by decide +kernel,
       by decide +kernel,
       by decide +kernel,
       by decide +kernel,
       by decide +kernel⟩,
     ⟨sPtp, sPtp, 0, 28, annMsg (domainOf + 1),
       rfl,
       by decide +kernel,
       by decide +kernel,
       by decide +kernel,
       by decide +kernel⟩,
     ⟨sParent 1, sParent 1, 0, 28, syncMsg 0 domainOf 0, ann, 5, 0, sec, sec,
       rfl,
       by decide +kernel,
       by decide +kernel,
       by decide +kernel,
       by decide +kernel,
       by decide +kernel,
       by decide +kernel,
       by decide +kernel,
       by decide +kernel,
       by decide +kernel⟩,
     ⟨sParent 2, sParent 2, 0, 28, syncMsg 0 domainOf 0, ann, 5, 0, sec, sec, 0, sec,
       rfl,
       by decide +kernel,
       by decide +kernel,
       by decide +kernel,
       by decide +kernel,
       by decide +kernel,
       by decide +kernel,
       by decide +kernel,
       by decide +kernel,
       by decide +kernel,
       by decide +kernel,
       by decide +kernel⟩,
     ⟨sParent 2, sParent 2, 0, 28, syncMsg 0 domainOf 2, ann, 5, 0, sec, sec,
       rfl,
       by decide +kernel,
       by decide +kernel,
       by decide +kernel,
       by decide +kernel,
       by decide +kernel,
       by decide +kernel,
       by decide +kernel,
       by decide +kernel⟩,
     ⟨sFollow 1, sFollow 1, 0, 28, syncMsg 8 domainOf 0, ann, 5, 0, sec, sec, false, sec, 0,
       rfl,
       by decide +kernel,
       by decide +kernel,
       by decide +kernel,
       by decide +kernel,
       by decide +kernel,
       by decide +kernel,
       by decide +kernel,
       by decide +kernel,
       by decide +kernel,
       by decide +kernel,
       by decide +kernel⟩,
     ⟨sFollow 2, sFollow 2, 0, 28, syncMsg 8 domainOf 0, ann, 5, 0, sec, 0, sec, false, sec, 0,
       rfl,
       by decide +kernel,
       by decide +kernel,
       by decide +kernel,
       by decide +kernel,
       by decide +kernel,
       by decide +kernel,
       by decide +kernel,
       by decide +kernel,
       by decide +kernel,
       by decide +kernel,
       by decide +kernel,
       by decide +kernel,
       by decide +kernel⟩,
     ⟨sPtp, sPtp, 0, 28, pdelayMsg,
       rfl,
       by decide +kernel,
       by decide +kernel,
       by decide +kernel,
       by decide +kernel⟩,
     ⟨sPtp, sPtp, 0,
       rfl,
       by decide +kernel,
       by decide +kernel⟩,
     ⟨sPtpAt, sPtpAt.advance sec, sec,
       rfl,
       by decide +kernel,
       by decide +kernel⟩,
     ⟨sPtpAt, sPtpAt.advance (sec - 1), sec - 1, 0,
       rfl,
       by decide +kernel,
       by decide +kernel,
       by decide +kernel⟩,
     ⟨sSynced, sSynced.advance (3 * sec), 3 * sec, 28,
       rfl,
       by decide +kernel,
       by decide +kernel,
       by decide +kernel,
       by decide +kernel,
       by decide +kernel⟩,
     ⟨sSynced, sSynced.advance (3 * sec - 1), 3 * sec - 1, 28,
       rfl,
       by decide +kernel,
       by decide +kernel,
       by decide +kernel,
       by decide +kernel,
       by decide +kernel⟩,
     ⟨sAnnounced, sAnnounced.advance (3 * sec), 3 * sec, 28, ann, ann, 0,
       rfl,
       by decide +kernel,
       by decide +kernel,
       by decide +kernel,
       by decide +kernel,
       by decide +kernel,
       by decide +kernel,
       by decide +kernel⟩,
     ⟨sAnnounced, sAnnounced.advance (3 * sec - 1), 3 * sec - 1, 28, ann, ann, 0,
       rfl,
       by decide +kernel,
       by decide +kernel,
       by decide +kernel,
       by decide +kernel,
       by decide +kernel,
       by decide +kernel,
       by decide +kernel⟩⟩

/-- The hypotheses of each clause of `ReferenceItemsAreWatched` are met. -/
theorem witness_ReferenceItemsAreWatched :
    (∃ (s a : State) (dt : Nat) (f : IrigFrame),
      s.advance dt = a ∧ a.timeRuns = true ∧ a.parB Par.TIM.IRIG_ENABLE 0 = true ∧ a.tim.irig.watched = true ∧
      f.valid = false ∧ 1 ≤ a.tim.irig.bad) ∧
    (∃ (s a : State) (dt : Nat) (f : IrigFrame),
      s.advance dt = a ∧ a.timeRuns = true ∧ a.parB Par.TIM.IRIG_ENABLE 0 = true ∧ a.tim.irig.watched = true ∧
      f.valid = false ∧ a.tim.irig.bad = 0) ∧
    (∃ (s a : State) (dt : Nat) (f : IrigFrame),
      s.advance dt = a ∧ a.timeRuns = true ∧ a.parB Par.TIM.IRIG_ENABLE 0 = true ∧ a.tim.irig.watched = true ∧
      f.valid = true ∧ f.ext 71 4 = 15) ∧
    (∃ (s a : State) (dt t : Nat),
      s.advance dt = a ∧ a.timeRuns = true ∧ a.parB Par.TIM.IRIG_ENABLE 0 = true ∧ a.tim.irig.watched = true ∧
      a.tim.irigLast = some t ∧ t + 2 * sec ≤ a.now ∧ 1 ≤ a.tim.irig.bad) ∧
    (∃ (s a : State) (dt t : Nat),
      s.advance dt = a ∧ a.timeRuns = true ∧ a.parB Par.TIM.IRIG_ENABLE 0 = true ∧ a.tim.irig.watched = true ∧
      a.tim.irigLast = some t ∧ t + 2 * sec ≤ a.now ∧ a.tim.irig.bad = 0) ∧
    (∃ (s a : State) (dt t : Nat),
      s.advance dt = a ∧ a.timeRuns = true ∧ a.parB Par.TIM.IRIG_ENABLE 0 = true ∧ a.tim.irig.watched = true ∧
      a.tim.irigLast = some t ∧ a.now < t + 2 * sec) ∧
    (∃ (s a : State) (dt t : Nat),
      s.advance dt = a ∧ a.timeRuns = true ∧ a.parN Par.TIM.PPS_IN_MODE 0 ≠ 0 ∧ a.tim.pps.watched = true ∧
      a.tim.ppsLast = some t ∧ t + a.parN Par.TIM.PPS_IN_DELAY_NS 0 + sec + 1000 ≤ a.now ∧ 1 ≤ a.tim.pps.bad) ∧
    (∃ (s a : State) (dt t : Nat),
      s.advance dt = a ∧ a.timeRuns = true ∧ a.parN Par.TIM.PPS_IN_MODE 0 ≠ 0 ∧ a.tim.pps.watched = true ∧
      a.tim.ppsLast = some t ∧ t + a.parN Par.TIM.PPS_IN_DELAY_NS 0 + sec + 1000 ≤ a.now ∧ a.tim.pps.bad = 0) ∧
    (∃ (s a : State) (dt : Nat) (f : IrigFrame),
      s.advance dt = a ∧ a.timeRuns = true ∧ a.parB Par.TIM.IRIG_ENABLE 0 = true ∧ a.refNamed 2 = true ∧ f.valid = true ∧
      f.ext 71 4 ≠ 15 ∧ f.ext 60 1 ≠ 1 ∧ a.tim.st = 1) ∧
    (∃ (s a : State) (dt stamp x n : Nat),
      s.advance dt = a ∧ a.timeRuns = true ∧ a.parN Par.TIM.PPS_IN_MODE 0 = 1 ∧ a.refNamed 3 = true ∧ a.tim.st = 1 ∧
      a.tim.ppsLast = some x ∧ a.ppsSecond (stamp - a.parN Par.TIM.PPS_IN_DELAY_NS 0) = some n ∧
      x + sec ≤ stamp - a.parN Par.TIM.PPS_IN_DELAY_NS 0 + 1000 ∧ stamp - a.parN Par.TIM.PPS_IN_DELAY_NS 0 ≤ x + sec + 1000) ∧
    (∃ (s a : State) (dt stamp x : Nat),
      s.advance dt = a ∧ a.timeRuns = true ∧ a.parN Par.TIM.PPS_IN_MODE 0 = 1 ∧ a.tim.pps.watched = true ∧
      a.tim.ppsLast = some x ∧
      (stamp - a.parN Par.TIM.PPS_IN_DELAY_NS 0 + 1000 < x + sec ∨ x + sec + 1000 < stamp - a.parN Par.TIM.PPS_IN_DELAY_NS 0)) ∧
    (∃ (s a : State) (dt stamp x : Nat),
      s.advance dt = a ∧ a.timeRuns = true ∧ a.parN Par.TIM.PPS_IN_MODE 0 = 1 ∧ a.tim.pps.watched = true ∧
      a.tim.ppsLast = some x ∧
      (stamp - a.parN Par.TIM.PPS_IN_DELAY_NS 0 + 1000 < x + sec ∨ x + sec + 1000 < stamp - a.parN Par.TIM.PPS_IN_DELAY_NS 0)) :=
  ⟨
     ⟨sIrig 1, sIrig 1, 0, badFrame,
       rfl,
       by decide +kernel,
       by decide +kernel,
       by decide +kernel,
       by decide +kernel,
       by decide +kernel⟩,
     ⟨sIrig 0, sIrig 0, 0, badFrame,
       rfl,
       by decide +kernel,
       by decide +kernel,
       by decide +kernel,
       by decide +kernel,
       by decide +kernel⟩,
     ⟨sIrig 0, sIrig 0, 0, irigF,
       rfl,
       by decide +kernel,
       by decide +kernel,
       by decide +kernel,
       by cases h : Config.irigParity <;> simp only [irigF, IrigFrame.valid, IrigFrame.parityOk, h] <;> decide +kernel,
       by cases h : Config.irigParity <;> simp only [irigF, h] <;> decide +kernel⟩,
     ⟨sIrigLast 1, (sIrigLast 1).advance (2 * sec), 2 * sec, 0,
       rfl,
       by decide +kernel,
       by decide +kernel,
       by decide +kernel,
       by decide +kernel,
       by decide +kernel,
       by decide +kernel⟩,
     ⟨sIrigLast 0, (sIrigLast 0).advance (2 * sec), 2 * sec, 0,
       rfl,
       by decide +kernel,
       by decide +kernel,
       by decide +kernel,
       by decide +kernel,
       by decide +kernel,
       by decide +kernel⟩,
     ⟨sIrigLast 0, (sIrigLast 0).advance (2 * sec - 1), 2 * sec - 1, 0,
       rfl,
       by decide +kernel,
       by decide +kernel,
       by decide +kernel,
       by decide +kernel,
       by decide +kernel⟩,
     ⟨sPps 1, (sPps 1).advance (2 * sec + 1000), 2 * sec + 1000, sec,
       rfl,
       by decide +kernel,
       by decide +kernel,
       by decide +kernel,
       by decide +kernel,
       by decide +kernel,
       by decide +kernel⟩,
     ⟨sPps 0, (sPps 0).advance (2 * sec + 1000), 2 * sec + 1000, sec,
       rfl,
       by decide +kernel,
       by decide +kernel,
       by decide +kernel,
       by decide +kernel,
       by decide +kernel,
       by decide +kernel⟩,
     ⟨sAcq (sIrig 0), sAcq (sIrig 0), 0, goodFrame,
       rfl,
       by decide +kernel,
       by decide +kernel,
       by decide +kernel,
       by decide +kernel,
       by decide +kernel,
       by decide +kernel,
       by decide +kernel⟩,
     ⟨sAcq (sPps 0), sAcq (sPps 0), 0, 2 * sec + 1000, sec, 8 * sec,
       rfl,
       by decide +kernel,
       by decide +kernel,
       by decide +kernel,
       by decide +kernel,
       by decide +kernel,
       by decide +kernel,
       by decide +kernel,
       by decide +kernel⟩,
     ⟨sPps 0, sPps 0, 0, 2 * sec + 1001, sec,
       rfl,
       by decide +kernel,
       by decide +kernel,
       by decide +kernel,
       by decide +kernel,
       by decide +kernel⟩,
     ⟨sPps 0, sPps 0, 0, 2 * sec - 1001, sec,
       rfl,
       by decide +kernel,
       by decide +kernel,
       by decide +kernel,
       by decide +kernel,
       by decide +kernel⟩⟩

/-- The hypotheses of each clause of `ReferencesAreSelectedAndFollowed` are met. -/
theorem witness_ReferencesAreSelectedAndFollowed :
    (∃ (s a : State) (dt k : Nat),
      s.advance dt = a ∧ a.timeRuns = true ∧ a.qualifies k = true ∧ a.tim.st = 2) ∧
    (∃ (s a : State) (dt k j : Nat) (l : List Nat),
      s.advance dt = a ∧ a.timeRuns = true ∧ a.qualifies k = true ∧ a.tim.st ≠ 2 ∧
      (a.setRef k { a.tim.refOf k with qualified := true, since := a.now }).refsReady = j :: l) ∧
    (∃ (s a : State) (dt k : Nat),
      s.advance dt = a ∧ a.timeRuns = true ∧ a.tim.st = 2 ∧ a.tim.ref = k ∧ (a.tim.refOf k).qualified = false ∧
      a.refsReady = []) ∧
    (∃ (s a : State) (dt k : Nat) (l : List Nat),
      s.advance dt = a ∧ a.timeRuns = true ∧ a.revertTo = k :: l) ∧
    (∃ (a : State) (o : Int),
      a.parN Par.TIM.STEP_LIMIT_NS 0 < o.natAbs ∧ o ≤ ↑a.now) ∧
    (∃ (a : State) (o : Int),
      o.natAbs ≤ a.parN Par.TIM.STEP_LIMIT_NS 0) :=
  ⟨
     ⟨sRef 2 3 false true, sRef 2 3 false true, 0, 2,
       rfl,
       by decide +kernel,
       by decide +kernel,
       by decide +kernel⟩,
     ⟨sRef 0 0 false false, sRef 0 0 false false, 0, 2, 2, [],
       rfl,
       by decide +kernel,
       by decide +kernel,
       by decide +kernel,
       by decide +kernel⟩,
     ⟨sRef 2 2 false false, sRef 2 2 false false, 0, 2,
       rfl,
       by decide +kernel,
       by decide +kernel,
       by decide +kernel,
       by decide +kernel,
       by decide +kernel⟩,
     ⟨sRevert, sRevert.advance sec, sec, 2, [],
       rfl,
       by decide +kernel,
       by decide +kernel⟩,
     ⟨run.advance sec, 20000000,
       by decide +kernel,
       by decide +kernel⟩,
     ⟨run, 0,
       by decide +kernel⟩⟩

/-- The hypotheses of each clause of `TimeQualityPpsAndClockEvents` are met. -/
theorem witness_TimeQualityPpsAndClockEvents :
    (∃ (s a : State) (dt : Nat),
      s.advance dt = a ∧ a.up = true ∧ a.timeLocked = a.tim.lastLocked ∧ a.tq ≠ a.tim.lastTq ∧ a.tim.holdEnd = none) ∧
    (∃ (s a : State) (dt t : Nat),
      s.advance dt = a ∧ a.up = true ∧ a.timeLocked = a.tim.lastLocked ∧ a.tim.holdEnd = some t ∧ a.now < t) ∧
    (∃ (s a : State) (dt t : Nat),
      s.advance dt = a ∧ a.up = true ∧ a.timeLocked = a.tim.lastLocked ∧ a.tim.holdEnd = some t ∧ t ≤ a.now ∧
      a.tq = a.tim.lastTq ∧ a.tq ≠ a.tim.sentTq) ∧
    (∃ (s a : State) (dt : Nat),
      s.advance dt = a ∧ a.up = true ∧ a.parN Par.TIM.PPS_OUT_MODE 0 = 1 ∧ a.now % sec = 0 ∧
      a.tq ≤ a.parN Par.TIM.PPS_OUT_MIN_TQ 0 ∧ a.tim.ppsHeld = false) ∧
    (∃ (s a : State) (dt : Nat),
      s.advance dt = a ∧ a.up = true ∧ a.parN Par.TIM.PPS_OUT_MODE 0 = 1 ∧ a.now % sec = 0 ∧
      a.parN Par.TIM.PPS_OUT_MIN_TQ 0 < a.tq ∧ a.tim.ppsHeld = false) ∧
    (∃ (s a : State) (dt : Nat),
      s.advance dt = a ∧ a.tim.ppsOut = true ∧ a.tim.ppsAt + 1000 * a.parN Par.TIM.PPS_OUT_WIDTH_US 0 ≤ a.now) ∧
    (∃ (s a : State) (dt : Nat),
      s.advance dt = a ∧ a.tim.ppsOut = true ∧ a.now < a.tim.ppsAt + 1000 * a.parN Par.TIM.PPS_OUT_WIDTH_US 0) ∧
    (∃ (s a : State) (dt : Nat),
      s.advance dt = a ∧ a.up = true ∧ a.tim.ref10m = true) ∧
    (∃ (s a : State) (dt : Nat),
      s.advance dt = a ∧ a.up = true ∧ a.tim.ref10m = false ∧ a.parB Par.TIM.REF10M_ENABLE 0 = true ∧
      a.tim.ref10mLost + 10 * sec ≤ a.now) ∧
    (∃ (s a : State) (dt : Nat),
      s.advance dt = a ∧ a.up = true ∧ a.now < a.tim.ref10mLost + 10 * sec) ∧
    (∃ (s a : State) (dt : Nat),
      s.advance dt = a ∧ a.up = true ∧ a.tim.leapDue = true ∧ a.tim.leapAt ≤ a.now) ∧
    (∃ (s a : State) (dt : Nat),
      s.advance dt = a ∧ a.up = true ∧ a.tim.leapDue = true ∧ a.now < a.tim.leapAt) ∧
    (∃ (s a : State) (dt : Nat),
      s.advance dt = a ∧ a.up = true ∧ a.timeLocked = true ∧ a.now % sec = 0) :=
  ⟨
     ⟨sTq 3 15 none, sTq 3 15 none, 0,
       rfl,
       by decide +kernel,
       by decide +kernel,
       by decide +kernel,
       by decide +kernel⟩,
     ⟨sTq 15 15 (some sec), (sTq 15 15 (some sec)).advance (sec-1), sec-1, sec,
       rfl,
       by decide +kernel,
       by decide +kernel,
       by decide +kernel,
       by decide +kernel⟩,
     ⟨sTq 15 3 (some sec), (sTq 15 3 (some sec)).advance sec, sec, sec,
       rfl,
       by decide +kernel,
       by decide +kernel,
       by decide +kernel,
       by decide +kernel,
       by decide +kernel,
       by decide +kernel⟩,
     ⟨lockedOut, lockedOut, 0,
       rfl,
       by decide +kernel,
       by decide +kernel,
       by decide +kernel,
       by decide +kernel,
       by decide +kernel⟩,
     ⟨sPpsOut id, sPpsOut id, 0,
       rfl,
       by decide +kernel,
       by decide +kernel,
       by decide +kernel,
       by decide +kernel,
       by decide +kernel⟩,
     ⟨sOut, (sOut).advance (500000*1000), 500000*1000,
       rfl,
       by decide +kernel,
       by decide +kernel⟩,
     ⟨sOut, sOut, 0,
       rfl,
       by decide +kernel,
       by decide +kernel⟩,
     ⟨sTen, sTen, 0,
       rfl,
       by decide +kernel,
       by decide +kernel⟩,
     ⟨sTenOn, sTenOn.advance (10 * sec), 10 * sec,
       rfl,
       by decide +kernel,
       by decide +kernel,
       by decide +kernel,
       by decide +kernel⟩,
     ⟨sTenOn, sTenOn.advance (10 * sec - 1), 10 * sec - 1,
       rfl,
       by decide +kernel,
       by decide +kernel⟩,
     ⟨sLeap, (sLeap).advance sec, sec,
       rfl,
       by decide +kernel,
       by decide +kernel,
       by decide +kernel⟩,
     ⟨sLeap, sLeap, 0,
       rfl,
       by decide +kernel,
       by decide +kernel,
       by decide +kernel⟩,
     ⟨sLocked, sLocked, 0,
       rfl,
       by decide +kernel,
       by decide +kernel,
       by decide +kernel⟩⟩

/-- The hypotheses of each clause of `OcfDatagramsPassTheStepsOfR127` are met. -/
theorem witness_OcfDatagramsPassTheStepsOfR127 :
    (∃ (s a : State) (dt : Nat) (l : List Byte),
      s.advance dt = a ∧ a.ingRuns = true ∧ Quiet a ∧ ocfParses l = false) ∧
    (∃ (s a : State) (dt : Nat) (l : List Byte),
      s.advance dt = a ∧ a.ingRuns = true ∧ Quiet a ∧ c37Parses l = false) ∧
    (∃ (s a : State) (dt : Nat) (l : List Byte),
      s.advance dt = a ∧ a.ingRuns = true ∧ Quiet a ∧ c37Parses l = true ∧ chkGood l = false) ∧
    (∃ (s a : State) (dt : Nat) (l : List Byte),
      s.advance dt = a ∧ a.ingRuns = true ∧ Quiet a ∧ c37Parses l = true ∧ chkGood l = true ∧ c37Type l ≠ 0 ∧ c37Type l ≠ 3 ∧
      c37Type l ≠ 4 ∧ c37Type l ≠ 5) ∧
    (∃ (s a : State) (dt : Nat) (l : List Byte),
      s.advance dt = a ∧ a.ingRuns = true ∧ Quiet a ∧ svFrameOf l = none) ∧
    (∃ (s a : State) (dt : Nat) (l : List Byte),
      s.advance dt = a ∧ a.ingRuns = true ∧ Quiet a ∧ gooseFrameOf l = none) ∧
    (∃ (s a : State) (dt : Nat) (l : List Byte) (f : GooseFrame),
      s.advance dt = a ∧ a.ingRuns = true ∧ Quiet a ∧ gooseFrameOf l = some f ∧ a.identify 4 f.ref = none) ∧
    (∃ (s a : State) (dt : Nat) (l : List Byte) (f : GooseFrame) (src : Nat) (d : SrcDef),
      s.advance dt = a ∧ a.ingRuns = true ∧ Quiet a ∧ gooseFrameOf l = some f ∧ a.identify 4 f.ref = some (src, d) ∧
      f.ndsCom = true) ∧
    (∃ (s a : State) (dt : Nat) (l : List Byte) (f : GooseFrame) (src : Nat) (d : SrcDef),
      s.advance dt = a ∧ a.ingRuns = true ∧ Quiet a ∧ gooseFrameOf l = some f ∧ a.identify 4 f.ref = some (src, d) ∧
      f.ndsCom = false ∧ f.fits = true ∧ f.members.length ≤ d.n ∧ d.tagRequired = false ∧ f.confRev = d.ident.getD 1 0 ∧
      (a.src src).stNum = some f.stNum) ∧
    (∃ (s a : State) (dt : Nat) (l : List Byte),
      s.advance dt = a ∧ a.ingRuns = true ∧ Quiet a ∧ ocfParses l = true ∧ fld l 1 1 ≠ 1 ∧ fld l 1 1 ≠ 2 ∧
      a.identify 3 (beBytes 4 (fld l 8 4)) = none) ∧
    (∃ (s a : State) (dt : Nat) (l : List Byte) (src : Nat) (d : SrcDef),
      s.advance dt = a ∧ a.ingRuns = true ∧ Quiet a ∧ ocfParses l = true ∧ fld l 1 1 ≠ 1 ∧ fld l 1 1 ≠ 2 ∧
      a.identify 3 (beBytes 4 (fld l 8 4)) = some (src, d) ∧ fld l 4 2 ≠ l.length) ∧
    (∃ (s a : State) (dt : Nat) (l : List Byte) (src : Nat) (d : SrcDef),
      s.advance dt = a ∧ a.ingRuns = true ∧ Quiet a ∧ ocfParses l = true ∧ fld l 1 1 ≠ 1 ∧ fld l 1 1 ≠ 2 ∧
      a.identify 3 (beBytes 4 (fld l 8 4)) = some (src, d) ∧ fld l 4 2 = l.length ∧
      (l.length = 24 + 12 * fld l 6 2 + if (fld l 3 1 % 2 == 1) = true then 16 else 0) ∧ fld l 6 2 ≤ d.n ∧ fld l 6 2 ≤ 128 ∧
      a.ocfTag d l (fld l 3 1 % 2 == 1) = false) ∧
    (∃ (s a : State) (dt : Nat) (l : List Byte) (src : Nat) (d : SrcDef),
      s.advance dt = a ∧ a.ingRuns = true ∧ Quiet a ∧ ocfParses l = true ∧ fld l 1 1 ≠ 1 ∧ fld l 1 1 ≠ 2 ∧
      a.identify 3 (beBytes 4 (fld l 8 4)) = some (src, d) ∧ fld l 4 2 = l.length ∧
      (l.length = 24 + 12 * fld l 6 2 + if (fld l 3 1 % 2 == 1) = true then 16 else 0) ∧ fld l 6 2 ≤ d.n ∧ fld l 6 2 ≤ 128 ∧
      a.ocfTag d l (fld l 3 1 % 2 == 1) = true ∧ gtfValid (fld l 12 8) = false) ∧
    (∃ (s a : State) (dt : Nat) (l : List Byte) (src : Nat) (d : SrcDef),
      s.advance dt = a ∧ a.ingRuns = true ∧ Quiet a ∧ ocfParses l = true ∧ fld l 1 1 ≠ 1 ∧ fld l 1 1 ≠ 2 ∧
      a.identify 3 (beBytes 4 (fld l 8 4)) = some (src, d) ∧ fld l 4 2 = l.length ∧
      (l.length = 24 + 12 * fld l 6 2 + if (fld l 3 1 % 2 == 1) = true then 16 else 0) ∧ fld l 6 2 ≤ d.n ∧ fld l 6 2 ≤ 128 ∧
      a.ocfTag d l (fld l 3 1 % 2 == 1) = true ∧ gtfValid (fld l 12 8) = true ∧
      (a.src src).lastStamp = some (nsOf (fld l 12 8))) ∧
    (∃ (s a : State) (dt arr : Nat) (l : List Byte) (src : Nat) (d : SrcDef),
      s.advance dt = a ∧ a.ingRuns = true ∧ Quiet a ∧ ocfParses l = true ∧ fld l 1 1 ≠ 1 ∧ fld l 1 1 ≠ 2 ∧
      a.identify 3 (beBytes 4 (fld l 8 4)) = some (src, d) ∧ fld l 4 2 = l.length ∧
      (l.length = 24 + 12 * fld l 6 2 + if (fld l 3 1 % 2 == 1) = true then 16 else 0) ∧ fld l 6 2 ≤ d.n ∧ fld l 6 2 ≤ 128 ∧
      a.ocfTag d l (fld l 3 1 % 2 == 1) = true ∧ gtfValid (fld l 12 8) = true ∧
      (a.src src).lastStamp ≠ some (nsOf (fld l 12 8)) ∧ (a.rateTake src d.rate arr 1).2 = false) ∧
    (∃ (s a : State) (dt arr : Nat) (l : List Byte) (src : Nat) (d : SrcDef),
      s.advance dt = a ∧ a.ingRuns = true ∧ Quiet a ∧ ocfParses l = true ∧ fld l 1 1 ≠ 1 ∧ fld l 1 1 ≠ 2 ∧
      a.identify 3 (beBytes 4 (fld l 8 4)) = some (src, d) ∧ fld l 4 2 = l.length ∧
      (l.length = 24 + 12 * fld l 6 2 + if (fld l 3 1 % 2 == 1) = true then 16 else 0) ∧ fld l 6 2 ≤ d.n ∧ fld l 6 2 ≤ 128 ∧
      a.ocfTag d l (fld l 3 1 % 2 == 1) = true ∧ gtfValid (fld l 12 8) = true ∧
      (a.src src).lastStamp ≠ some (nsOf (fld l 12 8)) ∧ (a.rateTake src d.rate arr 1).2 = true) :=
  ⟨
     ⟨run, run, 0, [],
       rfl,
       by decide +kernel,
       by decide +kernel,
       by decide +kernel⟩,
     ⟨run, run, 0, [],
       rfl,
       by decide +kernel,
       by decide +kernel,
       by decide +kernel⟩,
     ⟨run, run, 0, (c37Of 0 []).dropLast ++ [1],
       rfl,
       by decide +kernel,
       by decide +kernel,
       by decide +kernel,
       by decide +kernel⟩,
     ⟨run, run, 0, c37Of 2 [],
       rfl,
       by decide +kernel,
       by decide +kernel,
       by decide +kernel,
       by decide +kernel,
       by decide +kernel,
       by decide +kernel,
       by decide +kernel,
       by decide +kernel⟩,
     ⟨run, run, 0, [],
       rfl,
       by decide +kernel,
       by decide +kernel,
       by decide +kernel⟩,
     ⟨run, run, 0, [],
       rfl,
       by decide +kernel,
       by decide +kernel,
       by decide +kernel⟩,
     ⟨run, run, 0, gooseMsg 0, gooseIs 0,
       rfl,
       by decide +kernel,
       by decide +kernel,
       by decide +kernel,
       by decide +kernel⟩,
     ⟨sGooseSrc, sGooseSrc, 0, gooseMsg 1, gooseIs 1, 5, dGoose,
       rfl,
       by decide +kernel,
       by decide +kernel,
       by decide +kernel,
       by decide +kernel,
       by decide +kernel⟩,
     ⟨sGooseSrc, sGooseSrc, 0, gooseMsg 0, gooseIs 0, 5, dGoose,
       rfl,
       by decide +kernel,
       by decide +kernel,
       by decide +kernel,
       by decide +kernel,
       by decide +kernel,
       by decide +kernel,
       by decide +kernel,
       by decide +kernel,
       by decide +kernel,
       by decide +kernel⟩,
     ⟨run, run, 0, ocf 36 1 gtf1,
       rfl,
       by decide +kernel,
       by decide +kernel,
       by decide +kernel,
       by decide +kernel,
       by decide +kernel,
       by decide +kernel⟩,
     ⟨sOcf srcLive, sOcf srcLive, 0, ocf 35 1 gtf1, 5, dOcf 0,
       rfl,
       by decide +kernel,
       by decide +kernel,
       by decide +kernel,
       by decide +kernel,
       by decide +kernel,
       by decide +kernel,
       by decide +kernel⟩,
     ⟨sSrc run 3 1 1 (stationId 9) srcLive, sSrc run 3 1 1 (stationId 9) srcLive, 0, ocf 36 1 gtf1, 5, dOcf 1,
       rfl,
       by decide +kernel,
       by decide +kernel,
       by decide +kernel,
       by decide +kernel,
       by decide +kernel,
       by decide +kernel,
       by decide +kernel,
       by decide +kernel,
       by decide +kernel,
       by decide +kernel,
       by decide +kernel⟩,
     ⟨sOcf srcLive, sOcf srcLive, 0, ocf 36 1 gtfBad, 5, dOcf 0,
       rfl,
       by decide +kernel,
       by decide +kernel,
       by decide +kernel,
       by decide +kernel,
       by decide +kernel,
       by decide +kernel,
       by decide +kernel,
       by decide +kernel,
       by decide +kernel,
       by decide +kernel,
       by decide +kernel,
       by decide +kernel⟩,
     ⟨sOcf srcStamped, sOcf srcStamped, 0, ocf 36 1 gtf1, 5, dOcf 0,
       rfl,
       by decide +kernel,
       by decide +kernel,
       by decide +kernel,
       by decide +kernel,
       by decide +kernel,
       by decide +kernel,
       by decide +kernel,
       by decide +kernel,
       by decide +kernel,
       by decide +kernel,
       by decide +kernel,
       by decide +kernel,
       by decide +kernel⟩,
     ⟨sOcf srcFull, sOcf srcFull, 0, 0, ocf 36 1 gtf1, 5, dOcf 0,
       rfl,
       by decide +kernel,
       by decide +kernel,
       by decide +kernel,
       by decide +kernel,
       by decide +kernel,
       by decide +kernel,
       by decide +kernel,
       by decide +kernel,
       by decide +kernel,
       by decide +kernel,
       by decide +kernel,
       by decide +kernel,
       by decide +kernel,
       by decide +kernel⟩,
     ⟨sOcf srcLive, sOcf srcLive, 0, 0, ocf 36 1 gtf1, 5, dOcf 0,
       rfl,
       by decide +kernel,
       by decide +kernel,
       by decide +kernel,
       by decide +kernel,
       by decide +kernel,
       by decide +kernel,
       by decide +kernel,
       by decide +kernel,
       by decide +kernel,
       by decide +kernel,
       by decide +kernel,
       by decide +kernel,
       by decide +kernel,
       by decide +kernel⟩⟩

/-- The hypotheses of each clause of `SourcesAskAndDie` are met. -/
theorem witness_SourcesAskAndDie :
    (∃ (s a : State) (dt src : Nat) (d : SrcDef) (station : Nat) (l : List Byte) (c : C37Cfg),
      s.advance dt = a ∧ a.ingRuns = true ∧ a.srcDef src = some d ∧ d.kind = 1 ∧ Quiet a ∧ c37Parses l = true ∧
      chkGood l = true ∧ c37Type l = 3 ∧ a.streamOf (fld l 4 2) station = [(src, d)] ∧ fld l 2 2 = l.length ∧
      d.tagRequired = false ∧ cfgOf false (List.take (l.length - 16) (List.drop 14 l)) = some c) ∧
    (∃ (s a : State) (dt src : Nat) (d : SrcDef),
      s.advance dt = a ∧ a.ingRuns = true ∧ a.srcDef src = some d ∧ d.kind = 1 ∧ (a.src src).cfg = none ∧
      (a.src src).cfgAskedAt + sec * a.parN Par.ING.CFG_RETRY_S 0 ≤ a.now) ∧
    (∃ (s a : State) (dt src : Nat) (d : SrcDef),
      s.advance dt = a ∧ a.ingRuns = true ∧ a.srcDef src = some d ∧ d.kind = 1 ∧ (a.src src).cfg = none ∧
      a.now < (a.src src).cfgAskedAt + sec * a.parN Par.ING.CFG_RETRY_S 0) ∧
    (∃ (s a : State) (dt src : Nat) (d : SrcDef) (k n : Nat),
      s.advance dt = a ∧ a.ingRuns = true ∧ a.srcDef src = some d ∧ d.kind = 1 ∧ d.c37Tcp = true ∧
      (∀ c ∈ a.ctl.tcp, c.2.use = 1 → c.2.owner ≠ src) ∧
      (a.src src).tcpTriedAt + sec * a.parN Par.ING.C37_RECONNECT_S 0 ≤ a.now ∧
      (a.setSrc src { a.src src with tcpTriedAt := a.now }).freeConn = some k ∧
      (a.setSrc src { a.src src with tcpTriedAt := a.now }).routePort d.station = some n) ∧
    (∃ (s a : State) (dt src : Nat) (d : SrcDef),
      s.advance dt = a ∧ a.ingRuns = true ∧ a.srcDef src = some d ∧ (a.src src).st ≠ 3 ∧
      (a.src src).aliveAt + a.liveNs src d ≤ a.now) ∧
    (∃ (s a : State) (dt src : Nat) (d : SrcDef),
      s.advance dt = a ∧ a.ingRuns = true ∧ a.srcDef src = some d ∧
      ((a.src src).st = 3 ∨ a.now < (a.src src).aliveAt + a.liveNs src d)) ∧
    (∃ (s a : State) (dt src : Nat) (d : SrcDef),
      s.advance dt = a ∧ a.ingRuns = true ∧ a.srcDef src = some d ∧
      ((a.src src).st = 3 ∨ a.now < (a.src src).aliveAt + a.liveNs src d)) :=
  ⟨
     ⟨sC37 0 srcLive, sC37 0 srcLive, 0, 5, d37 0, 1, cfgFrame, c37cfg,
       rfl,
       by decide +kernel,
       by decide +kernel,
       by decide +kernel,
       by decide +kernel,
       by decide +kernel,
       by decide +kernel,
       by decide +kernel,
       by decide +kernel,
       by decide +kernel,
       by decide +kernel,
       by decide +kernel⟩,
     ⟨sC37 0 srcLive, (sC37 0 srcLive).advance (60 * sec), 60 * sec, 5, d37 0,
       rfl,
       by decide +kernel,
       by decide +kernel,
       by decide +kernel,
       by decide +kernel,
       by decide +kernel⟩,
     ⟨sC37 0 srcLive, sC37 0 srcLive, 0, 5, d37 0,
       rfl,
       by decide +kernel,
       by decide +kernel,
       by decide +kernel,
       by decide +kernel,
       by decide +kernel⟩,
     ⟨sTcpSrc, sTcpSrc.advance (60 * sec), 60 * sec, 5, d37 2, 0, 31,
       rfl,
       by decide +kernel,
       by decide +kernel,
       by decide +kernel,
       by decide +kernel,
       by decide +kernel,
       by decide +kernel,
       by decide +kernel,
       by decide +kernel⟩,
     ⟨sOcf srcLive, (sOcf srcLive).advance (60 * sec), 60 * sec, 5, dOcf 0,
       rfl,
       by decide +kernel,
       by decide +kernel,
       by decide +kernel,
       by decide +kernel⟩,
     ⟨sOcf srcLive, sOcf srcLive, 0, 5, dOcf 0,
       rfl,
       by decide +kernel,
       by decide +kernel,
       by decide +kernel⟩,
     ⟨sOcf (srcTried 3), (sOcf (srcTried 3)).advance sec, sec, 5, dOcf 0,
       rfl,
       by decide +kernel,
       by decide +kernel,
       by decide +kernel⟩⟩

/-- The hypotheses of each clause of `SourceCommandsAnswer` are met. -/
theorem witness_SourceCommandsAnswer :
    (∃ (s t : State) (dt : Nat) (q : Req) (role : Nat),
      Admitted (s.advance dt) q 768 3 1 0 true t role ∧ 4 ≤ q.payload.length ∧ t.ctl.commit = none ∧
      t.defineStatus (definitionKept q.payload) = 0 ∧ List.length t.ctl.maquette < 524288) ∧
    (∃ (s t : State) (dt : Nat) (q : Req) (role : Nat),
      Admitted (s.advance dt) q 768 3 1 0 true t role ∧ t.ctl.commit ≠ none) ∧
    (∃ (s t : State) (dt : Nat) (q : Req) (role : Nat),
      Admitted (s.advance dt) q 769 3 1 0 true t role ∧ 1 ≤ q.payload.length ∧ t.ctl.commit = none ∧ q.bits 4 31 16 ≤ 8191 ∧
      List.length t.ctl.maquette < 524288) ∧
    (∃ (s t : State) (dt : Nat) (q : Req) (role : Nat),
      Admitted (s.advance dt) q 769 3 1 0 true t role ∧ t.ctl.commit ≠ none) ∧
    (∃ (s t : State) (dt : Nat) (q : Req) (role : Nat) (ws : List Word),
      Admitted (s.advance dt) q 770 3 0 1 true t role ∧ q.bits 4 31 16 ≤ 8191 ∧
      ((q.bits 4 0 0 = 0 ∨ Option.map MaqEntry.val (t.ctl.maquette.get? (sourceKey (q.bits 4 31 16))) = none) ∧
          ws = t.sourceWords (q.bits 4 31 16) ((t.ctl.cfg.sources.get? (q.bits 4 31 16)).getD []) (if ((t.ctl.cfg.sources.get? (q.bits 4 31 16)).getD []).isEmpty = true then 0 else (t.src (q.bits 4 31 16)).st) ∨ q.bits 4 0 0 = 1 ∧ Option.map MaqEntry.val (t.ctl.maquette.get? (sourceKey (q.bits 4 31 16))) = some MaqVal.remove ∧ ws = t.sourceWords (q.bits 4 31 16) [] 0 ∨ q.bits 4 0 0 = 1 ∧ ∃ defn, Option.map MaqEntry.val (t.ctl.maquette.get? (sourceKey (q.bits 4 31 16))) = some (MaqVal.define defn) ∧ ws = t.sourceWords (q.bits 4 31 16) defn (if ((t.ctl.cfg.sources.get? (q.bits 4 31 16)).getD []).isEmpty = true then 0 else (t.src (q.bits 4 31 16)).st)) ∧
      ReplyFits t q (q.w 4 :: ws)) ∧
    (∃ (s t : State) (dt : Nat) (q : Req) (role : Nat) (ws : List Word),
      Admitted (s.advance dt) q 770 3 0 1 true t role ∧ q.bits 4 31 16 ≤ 8191 ∧
      ((q.bits 4 0 0 = 0 ∨ Option.map MaqEntry.val (t.ctl.maquette.get? (sourceKey (q.bits 4 31 16))) = none) ∧
          ws = t.sourceWords (q.bits 4 31 16) ((t.ctl.cfg.sources.get? (q.bits 4 31 16)).getD []) (if ((t.ctl.cfg.sources.get? (q.bits 4 31 16)).getD []).isEmpty = true then 0 else (t.src (q.bits 4 31 16)).st) ∨ q.bits 4 0 0 = 1 ∧ Option.map MaqEntry.val (t.ctl.maquette.get? (sourceKey (q.bits 4 31 16))) = some MaqVal.remove ∧ ws = t.sourceWords (q.bits 4 31 16) [] 0 ∨ q.bits 4 0 0 = 1 ∧ ∃ defn, Option.map MaqEntry.val (t.ctl.maquette.get? (sourceKey (q.bits 4 31 16))) = some (MaqVal.define defn) ∧ ws = t.sourceWords (q.bits 4 31 16) defn (if ((t.ctl.cfg.sources.get? (q.bits 4 31 16)).getD []).isEmpty = true then 0 else (t.src (q.bits 4 31 16)).st)) ∧
      ReplyFits t q (q.w 4 :: ws)) ∧
    (∃ (s t : State) (dt : Nat) (q : Req) (role : Nat) (ws : List Word),
      Admitted (s.advance dt) q 770 3 0 1 true t role ∧ q.bits 4 31 16 ≤ 8191 ∧
      ((q.bits 4 0 0 = 0 ∨ Option.map MaqEntry.val (t.ctl.maquette.get? (sourceKey (q.bits 4 31 16))) = none) ∧
          ws = t.sourceWords (q.bits 4 31 16) ((t.ctl.cfg.sources.get? (q.bits 4 31 16)).getD []) (if ((t.ctl.cfg.sources.get? (q.bits 4 31 16)).getD []).isEmpty = true then 0 else (t.src (q.bits 4 31 16)).st) ∨ q.bits 4 0 0 = 1 ∧ Option.map MaqEntry.val (t.ctl.maquette.get? (sourceKey (q.bits 4 31 16))) = some MaqVal.remove ∧ ws = t.sourceWords (q.bits 4 31 16) [] 0 ∨ q.bits 4 0 0 = 1 ∧ ∃ defn, Option.map MaqEntry.val (t.ctl.maquette.get? (sourceKey (q.bits 4 31 16))) = some (MaqVal.define defn) ∧ ws = t.sourceWords (q.bits 4 31 16) defn (if ((t.ctl.cfg.sources.get? (q.bits 4 31 16)).getD []).isEmpty = true then 0 else (t.src (q.bits 4 31 16)).st)) ∧
      ReplyFits t q (q.w 4 :: ws)) ∧
    (∃ (s t : State) (dt : Nat) (q : Req) (role : Nat),
      Admitted (s.advance dt) q 770 3 0 1 true t role ∧ q.bits 4 31 16 = 65535 ∧ 3 ≤ q.payload.length ∧ 1 ≤ (q.w 6).toNat ∧
      (q.w 6).toNat ≤ 256 ∧
      ReplyFits t q (BitVec.ofNat 32 t.ing.learn.length :: List.flatMap (learnWords q.carriage) (List.take ((q.w 6).toNat) (List.drop ((q.w 5).toNat) t.ing.learn)))) ∧
    (∃ (s t : State) (dt : Nat) (q : Req) (role : Nat),
      Admitted (s.advance dt) q 771 3 0 2 true t role ∧ 1 ≤ q.bits 5 15 0 ∧ q.bits 5 15 0 ≤ 4096 ∧
      q.bits 4 17 0 + q.bits 5 15 0 ≤ 262144 ∧
      (ReplyFits t q (BitVec.ofNat 32 (q.bits 5 15 0) :: List.map (fun k => catalogueWord (catalogueOf t.ctl.cfg.sources) (q.bits 4 17 0 + k)) (List.range (q.bits 5 15 0))))) :=
  ⟨
     ⟨cfg, cfg, 0, { opr [] with payload := srcWords 3 0 1 (stationId 9) }, 1,
       ⟨by decide +kernel, by decide +kernel, rfl, by decide +kernel⟩,
       by decide +kernel,
       by decide +kernel,
       by decide +kernel,
       by decide +kernel⟩,
     ⟨sCommit .stored, sCommit .stored, 0, { opr [] with payload := srcWords 3 0 1 (stationId 9) }, 1,
       ⟨by decide +kernel, by decide +kernel, rfl, by decide +kernel⟩,
       by decide +kernel⟩,
     ⟨cfg, cfg, 0, opr [8191 * 65536], 1,
       ⟨by decide +kernel, by decide +kernel, rfl, by decide +kernel⟩,
       by decide +kernel,
       by decide +kernel,
       by decide +kernel,
       by decide +kernel⟩,
     ⟨sCommit .stored, sCommit .stored, 0, opr [8191 * 65536], 1,
       ⟨by decide +kernel, by decide +kernel, rfl, by decide +kernel⟩,
       by decide +kernel⟩,
     ⟨sOcf srcLive, sOcf srcLive, 0, pub [5 * 65536], 0, (sOcf srcLive).sourceWords 5 (srcWords 3 0 1 (stationId 9)) 2,
       ⟨by decide +kernel, by decide +kernel, rfl, by decide +kernel⟩,
       by decide +kernel,
       Or.inl ⟨by decide +kernel, by decide +kernel⟩,
       by decide +kernel⟩,
     ⟨maqSrc .remove, maqSrc .remove, 0, pub [5 * 65536 + 1], 0, (maqSrc .remove).sourceWords 5 [] 0,
       ⟨by decide +kernel, by decide +kernel, rfl, by decide +kernel⟩,
       by decide +kernel,
       Or.inr (Or.inl ⟨by decide +kernel, by decide +kernel, by decide +kernel⟩),
       by decide +kernel⟩,
     ⟨maqSrc (.define (srcWords 3 0 1 (stationId 8))), maqSrc (.define (srcWords 3 0 1 (stationId 8))), 0, pub [5 * 65536 + 1],
         0, (maqSrc (.define (srcWords 3 0 1 (stationId 8)))).sourceWords 5 (srcWords 3 0 1 (stationId 8)) 2,
       ⟨by decide +kernel, by decide +kernel, rfl, by decide +kernel⟩,
       by decide +kernel,
       Or.inr (Or.inr ⟨by decide +kernel, srcWords 3 0 1 (stationId 8), by decide +kernel, by decide +kernel⟩),
       by decide +kernel⟩,
     ⟨sLearn, sLearn, 0, pub [0xFFFF0000, 0, 256], 0,
       ⟨by decide +kernel, by decide +kernel, rfl, by decide +kernel⟩,
       by decide +kernel,
       by decide +kernel,
       by decide +kernel,
       by decide +kernel,
       by decide +kernel⟩,
     ⟨sOcf srcLive, sOcf srcLive, 0, pub [0, 16], 0,
       ⟨by decide +kernel, by decide +kernel, rfl, by decide +kernel⟩,
       by decide +kernel,
       by decide +kernel,
       by decide +kernel,
       by decide +kernel⟩⟩

/-- The hypotheses of each clause of `SlotsOpenCloseAndRelease` are met. -/
theorem witness_SlotsOpenCloseAndRelease :
    (∃ (s a : State) (dt pod slot : Nat),
      s.advance dt = a ∧ slot ≤ a.now ∧ a.mayOpen pod slot = true) ∧
    (∃ (s a : State) (dt pod slot : Nat),
      s.advance dt = a ∧ (a.now < slot ∨ a.mayOpen pod slot = false)) ∧
    (∃ (s a : State) (dt pod slot : Nat) (x : Slot),
      s.advance dt = a ∧ a.slot? pod slot = some x ∧ x.closed = false ∧ x.defn.policy ≠ 0 ∧ x.allArrived = true ∧
      ceilTo 1000 slot ≤ a.now) ∧
    (∃ (s a : State) (dt pod slot : Nat) (x : Slot),
      s.advance dt = a ∧ a.slot? pod slot = some x ∧ x.closed = false ∧ a.now < ceilTo 1000 slot) ∧
    (∃ (s a : State) (dt pod slot : Nat) (x : Slot),
      s.advance dt = a ∧ a.slot? pod slot = some x ∧ x.closed = false ∧ (x.defn.policy = 0 ∨ x.allArrived = false) ∧
      ceilTo 1000 (slot + x.defn.waitNs) ≤ a.now) ∧
    (∃ (s a : State) (dt pod slot : Nat) (x : Slot),
      s.advance dt = a ∧ a.slot? pod slot = some x ∧ x.closed = false ∧ a.now < ceilTo 1000 (slot + x.defn.waitNs)) ∧
    (∃ (s a : State) (dt pod slot : Nat) (x : Slot) (t : Nat),
      s.advance dt = a ∧ a.slot? pod slot = some x ∧ x.batchAt = some t ∧ t ≤ a.now) ∧
    (∃ (s a : State) (dt pod slot : Nat) (x : Slot) (t : Nat),
      s.advance dt = a ∧ a.slot? pod slot = some x ∧ x.batchAt = some t ∧ a.now < t) ∧
    (∃ (s a : State) (dt pod slot : Nat) (x : Slot),
      s.advance dt = a ∧ a.slot? pod slot = some x ∧ x.closed = true ∧ x.horizonAt ≤ a.now) ∧
    (∃ (s a : State) (dt pod slot : Nat) (x : Slot),
      s.advance dt = a ∧ a.slot? pod slot = some x ∧ x.closed = true ∧ a.now < x.horizonAt) ∧
    (∃ (s a : State) (dt pod slot : Nat) (x : Slot),
      s.advance dt = a ∧ a.slot? pod slot = some x ∧ x.closed = true ∧ x.final = true ∧ x.horizonAt + x.defn.holdNs ≤ a.now ∧
      slot ≤ a.now) ∧
    (∃ (s a : State) (dt pod slot : Nat) (x : Slot),
      s.advance dt = a ∧ a.slot? pod slot = some x ∧ x.closed = true ∧ a.now < x.horizonAt + x.defn.holdNs) ∧
    (∃ (s a : State) (dt pod slot : Nat) (x : Slot),
      s.advance dt = a ∧ a.slot? pod slot = some x ∧ x.closed = true ∧ x.ready = true) ∧
    (∃ (s a : State) (dt pod slot : Nat) (x : Slot),
      s.advance dt = a ∧ a.slot? pod slot = some x ∧ x.closed = true ∧ x.ready = false) ∧
    (∃ (s a : State) (dt pod : Nat),
      s.advance dt = a ∧ a.podOn pod = true ∧ a.parN Par.ALN.OAF_LAYOUT_S pod ≠ 0 ∧
      a.now / sec % a.parN Par.ALN.OAF_LAYOUT_S pod = 0) ∧
    (∃ (s a : State) (dt pod : Nat),
      s.advance dt = a ∧ a.podOn pod = true ∧ a.parN Par.ALN.OAF_LAYOUT_S pod ≠ 0 ∧
      a.now / sec % a.parN Par.ALN.OAF_LAYOUT_S pod ≠ 0) :=
  ⟨
     ⟨sPod5, sPod5, 0, 0, 0,
       rfl,
       by decide +kernel,
       by decide +kernel⟩,
     ⟨sPod5, sPod5, 0, 0, 1,
       rfl,
       by decide +kernel⟩,
     ⟨sOpen 1 [5], sOpen 1 [5], 0, 0, 0, slotIn,
       rfl,
       by decide +kernel,
       by decide +kernel,
       by decide +kernel,
       by decide +kernel,
       by decide +kernel⟩,
     ⟨sPodLater, (sPodLater), 0, 0, sec, slot0,
       rfl,
       by decide +kernel,
       by decide +kernel,
       by decide +kernel⟩,
     ⟨withSlot sPod5 slot0, (withSlot sPod5 slot0).advance 1000000, 1000000, 0, 0, slot0,
       rfl,
       by decide +kernel,
       by decide +kernel,
       by decide +kernel,
       by decide +kernel⟩,
     ⟨withSlot sPod5 slot0, withSlot sPod5 slot0, 0, 0, 0, slot0,
       rfl,
       by decide +kernel,
       by decide +kernel,
       by decide +kernel⟩,
     ⟨withSlot sPod5 slotBatch, (withSlot sPod5 slotBatch).advance 1000, 1000, 0, 0, slotBatch, 1000,
       rfl,
       by decide +kernel,
       by decide +kernel,
       by decide +kernel⟩,
     ⟨withSlot sPod5 slotBatch, (withSlot sPod5 slotBatch).advance 999, 999, 0, 0, slotBatch, 1000,
       rfl,
       by decide +kernel,
       by decide +kernel,
       by decide +kernel⟩,
     ⟨withSlot sPod5 (slotShut false true), (withSlot sPod5 (slotShut false true)).advance sec, sec, 0, 0, slotShut false true,
       rfl,
       by decide +kernel,
       by decide +kernel,
       by decide +kernel⟩,
     ⟨withSlot sPod5 (slotShut false true), withSlot sPod5 (slotShut false true), 0, 0, 0, slotShut false true,
       rfl,
       by decide +kernel,
       by decide +kernel,
       by decide +kernel⟩,
     ⟨withSlot sPod5 (slotShut true true), (withSlot sPod5 (slotShut true true)).advance (20*sec), 20*sec, 0, 0, slotShut true true,
       rfl,
       by decide +kernel,
       by decide +kernel,
       by decide +kernel,
       by decide +kernel,
       by decide +kernel⟩,
     ⟨withSlot sPod5 (slotShut true true), withSlot sPod5 (slotShut true true), 0, 0, 0, slotShut true true,
       rfl,
       by decide +kernel,
       by decide +kernel,
       by decide +kernel⟩,
     ⟨withSlot sPod5 (slotShut false true), withSlot sPod5 (slotShut false true), 0, 0, 0, slotShut false true,
       rfl,
       by decide +kernel,
       by decide +kernel,
       by decide +kernel⟩,
     ⟨withSlot sPod5 (slotShut false false), withSlot sPod5 (slotShut false false), 0, 0, 0, slotShut false false,
       rfl,
       by decide +kernel,
       by decide +kernel,
       by decide +kernel⟩,
     ⟨sLayout 60, sLayout 60, 0, 0,
       rfl,
       by decide +kernel,
       by decide +kernel,
       by decide +kernel⟩,
     ⟨sLayout 60, (sLayout 60).advance sec, sec, 0,
       rfl,
       by decide +kernel,
       by decide +kernel,
       by decide +kernel⟩⟩

/-- The hypotheses of `ClosingFillsTheSlot` are met. -/
theorem witness_ClosingFillsTheSlot : ∃ (a : State) (pod slot : Nat) (x : Slot),
      a.slot? pod slot = some x ∧ x.closed = false :=
  ⟨withSlot sPod5 slot0, 0, 0, slot0,
       by decide +kernel,
       by decide +kernel⟩

/-- The hypotheses of each clause of `RepeatedEntriesAreDiscarded` are met. -/
theorem witness_RepeatedEntriesAreDiscarded :
    (∃ (a : State) (pod slot pos : Nat) (x : Slot),
      a.slot? pod slot = some x ∧ x.present pos = true ∧ x.closed = false) ∧
    (∃ (a : State) (pod slot pos : Nat) (x : Slot),
      a.slot? pod slot = some x ∧ x.present pos = true ∧ x.closed = true ∧ x.final = false ∧ a.now < x.horizonAt ∧
      a.alnDraining = false ∧ x.defn.revisions = true) ∧
    (∃ (a : State) (pod slot pos : Nat) (x : Slot),
      a.slot? pod slot = some x ∧ x.present pos = true) :=
  ⟨
     ⟨withSlot sPod5 slotHeld, 0, 0, 0, slotHeld,
       by decide +kernel,
       by decide +kernel,
       by decide +kernel⟩,
     ⟨withSlot sPod5 revised, 0, 0, 0, revised,
       by decide +kernel,
       by decide +kernel,
       by decide +kernel,
       by decide +kernel,
       by decide +kernel,
       by decide +kernel,
       by decide +kernel⟩,
     ⟨withSlot sPod5 slotHeld, 0, 0, 0, slotHeld,
       by decide +kernel,
       by decide +kernel⟩⟩

/-- The hypotheses of each clause of `PodsAreReadAndSubscribed` are met. -/
theorem witness_PodsAreReadAndSubscribed :
    (∃ (s t : State) (dt : Nat) (q : Req) (role : Nat) (x : Slot),
      Admitted (s.advance dt) q 784 4 1 5 true t role ∧ q.bits 4 31 24 ≤ 63 ∧ 1 ≤ q.bits 8 15 0 ∧ q.bits 8 15 0 ≤ 8000 ∧
      t.podOn (q.bits 4 31 24) = true ∧ gtfValid (q.dw 5) = true ∧ t.slot? (q.bits 4 31 24) (nsOf (q.dw 5)) = some x ∧
      x.closed = true ∧ ((if q.bits 4 8 8 = 1 then x.edition else q.bits 4 3 0) ≤ x.edition) ∧
      q.bits 7 17 0 + q.bits 8 15 0 ≤ x.defn.positions.length ∧
      (ReplyFits t q ([BitVec.ofNat 32 (q.bits 4 31 24 * 2 ^ 24 + (if q.bits 4 8 8 = 1 then x.edition else q.bits 4 3 0) * 2 ^ 20 + x.causes.getD (if q.bits 4 8 8 = 1 then x.edition else q.bits 4 3 0) 0 * 2 ^ 16 + bitAt x.final 1 + 1), BitVec.ofNat 32 x.defn.positions.length, BitVec.ofNat 32 (q.bits 8 15 0)] ++ List.flatMap (fun y => [y.v, y.q]) (List.take (q.bits 8 15 0) (List.drop (q.bits 7 17 0) (x.view (if q.bits 4 8 8 = 1 then x.edition else q.bits 4 3 0))))))) ∧
    (∃ (s t : State) (dt : Nat) (q : Req) (role : Nat),
      Admitted (s.advance dt) q 784 4 1 5 true t role ∧ q.bits 4 31 24 ≤ 63 ∧ 1 ≤ q.bits 8 15 0 ∧ q.bits 8 15 0 ≤ 8000 ∧
      t.podOn (q.bits 4 31 24) = true ∧ gtfValid (q.dw 5) = true ∧ t.slot? (q.bits 4 31 24) (nsOf (q.dw 5)) = none ∧
      isGrid (t.parN Par.ALN.SLOT_RATE (q.bits 4 31 24)) (nsOf (q.dw 5)) = true) ∧
    (∃ (s t : State) (dt : Nat) (q : Req) (role : Nat) (d : NoticeDest),
      Admitted (s.advance dt) q 785 4 1 1 true t role ∧ subscriber q = some d ∧ q.bits 4 31 24 ≤ 63 ∧ q.bits 4 0 0 = 0) ∧
    (∃ (s t : State) (dt : Nat) (q : Req) (role : Nat) (d : NoticeDest),
      Admitted (s.advance dt) q 785 4 1 1 true t role ∧ subscriber q = some d ∧ q.bits 4 31 24 ≤ 63 ∧ q.bits 4 0 0 = 1 ∧
      q.bits 4 1 1 = 0 ∧ t.podOn (q.bits 4 31 24) = true ∧
      ((List.filter (fun x => !(x.pod == q.bits 4 31 24 && x.dest == d)) t.ctl.subs).length < 16)) ∧
    (∃ (s t : State) (dt : Nat) (q : Req) (role : Nat) (d : NoticeDest),
      Admitted (s.advance dt) q 785 4 1 1 true t role ∧ subscriber q = some d ∧ q.bits 4 31 24 ≤ 63 ∧ q.bits 4 0 0 = 1 ∧
      q.bits 4 1 1 = 1 ∧ t.podOn (q.bits 4 31 24) = true ∧
      ((List.filter (fun x => !(x.pod == q.bits 4 31 24 && x.dest == d)) t.ctl.subs).length < 16)) ∧
    (∃ (s t : State) (dt : Nat) (q : Req) (role : Nat) (d : NoticeDest),
      Admitted (s.advance dt) q 785 4 1 1 true t role ∧ subscriber q = some d ∧ q.bits 4 31 24 ≤ 63 ∧ q.bits 4 0 0 = 1 ∧
      t.podOn (q.bits 4 31 24) = false) ∧
    (∃ (s : State) (dt : Nat) (a : State) (dest : Nat) (peer : Peer) (d : PodDef),
      s.advance dt = a ∧ a.measuring = true ∧ a.runs 4 = true ∧ a.c37Peer (dest / 4) (dest % 4) peer = some d) ∧
    (∃ (s : State) (dt : Nat) (a : State) (dest : Nat) (peer : Peer) (d : PodDef) (n : Nat),
      s.advance dt = a ∧ a.measuring = true ∧ a.runs 4 = true ∧ a.c37Peer (dest / 4) (dest % 4) peer = some d ∧ n ≠ 1 ∧
      n ≠ 2 ∧ n ≠ 5 ∧ n ≠ 6) :=
  ⟨
     ⟨withSlot sPod5 (slotShut false true), withSlot sPod5 (slotShut false true), 0, opr [0x100, 0, 0, 0, 1], 1,
         slotShut false true,
       ⟨by decide +kernel, by decide +kernel, rfl, by decide +kernel⟩,
       by decide +kernel,
       by decide +kernel,
       by decide +kernel,
       by decide +kernel,
       by decide +kernel,
       by decide +kernel,
       by decide +kernel,
       by decide +kernel,
       by decide +kernel,
       by decide +kernel⟩,
     ⟨sPod5, sPod5, 0, opr [0x100, 0, 0, 0, 1], 1,
       ⟨by decide +kernel, by decide +kernel, rfl, by decide +kernel⟩,
       by decide +kernel,
       by decide +kernel,
       by decide +kernel,
       by decide +kernel,
       by decide +kernel,
       by decide +kernel,
       by decide +kernel⟩,
     ⟨sPod5, sPod5, 0, opr [0x3800], 1, .ring 56,
       ⟨by decide +kernel, by decide +kernel, rfl, by decide +kernel⟩,
       by decide +kernel,
       by decide +kernel,
       by decide +kernel⟩,
     ⟨sPod5, sPod5, 0, opr [0x3801], 1, .ring 56,
       ⟨by decide +kernel, by decide +kernel, rfl, by decide +kernel⟩,
       by decide +kernel,
       by decide +kernel,
       by decide +kernel,
       by decide +kernel,
       by decide +kernel,
       by decide +kernel⟩,
     ⟨sPod5, sPod5, 0, opr [0x3803], 1, .ring 56,
       ⟨by decide +kernel, by decide +kernel, rfl, by decide +kernel⟩,
       by decide +kernel,
       by decide +kernel,
       by decide +kernel,
       by decide +kernel,
       by decide +kernel,
       by decide +kernel⟩,
     ⟨cfg, cfg, 0, opr [0x3F003801], 1, .ring 56,
       ⟨by decide +kernel, by decide +kernel, rfl, by decide +kernel⟩,
       by decide +kernel,
       by decide +kernel,
       by decide +kernel,
       by decide +kernel⟩,
     ⟨sDest, 0, sDest, 0, peerD, sDest.podDef 0,
       rfl,
       by decide +kernel,
       by decide +kernel,
       by decide +kernel⟩,
     ⟨sDest, 0, sDest, 0, peerD, sDest.podDef 0, 7,
       rfl,
       by decide +kernel,
       by decide +kernel,
       by decide +kernel,
       by decide +kernel,
       by decide +kernel,
       by decide +kernel,
       by decide +kernel⟩⟩

/-- The hypotheses of each clause of `DetectorsAndTrackersFollowTheirSlots` are met. -/
theorem witness_DetectorsAndTrackersFollowTheirSlots :
    (∃ (s a : State) (dt d slot : Nat) (x : Slot),
      s.advance dt = a ∧ a.measuring = true ∧ a.runs 7 = true ∧ a.parB Par.MOD.FD_ENABLE d = true ∧
      a.slot? (a.fdPod d) slot = some x ∧ x.closed = true ∧ x.ready = true ∧ slot < (a.fd d).fromGtf) ∧
    (∃ (s a : State) (dt d slot : Nat) (x : Slot) (l : Nat),
      s.advance dt = a ∧ a.measuring = true ∧ a.runs 7 = true ∧ a.parB Par.MOD.FD_ENABLE d = true ∧
      a.slot? (a.fdPod d) slot = some x ∧ x.closed = true ∧ x.ready = true ∧ (a.fd d).fromGtf ≤ slot ∧
      (a.fd d).lastGtf = some l ∧ slot ≤ l) ∧
    (∃ (s a : State) (dt d slot : Nat) (x : Slot),
      s.advance dt = a ∧ a.measuring = true ∧ a.runs 7 = true ∧ a.parB Par.MOD.FD_ENABLE d = true ∧
      a.slot? (a.fdPod d) slot = some x ∧ x.closed = true ∧ x.ready = true ∧ (a.fd d).fromGtf ≤ slot ∧
      (Option.all (fun l => decide (l < slot)) (a.fd d).lastGtf = true) ∧
      entryBad (a.parB Par.MOD.FD_USE_SUBST d) (x.entryAt 0 (a.fdPos d)) = true) ∧
    (∃ (s a : State) (dt d slot : Nat) (x : Slot),
      s.advance dt = a ∧ a.measuring = true ∧ a.runs 7 = true ∧ a.parB Par.MOD.FD_ENABLE d = true ∧
      a.slot? (a.fdPod d) slot = some x ∧ x.closed = true ∧ x.ready = true ∧ (a.fd d).fromGtf ≤ slot ∧
      (Option.all (fun l => decide (l < slot)) (a.fd d).lastGtf = true) ∧
      entryBad (a.parB Par.MOD.FD_USE_SUBST d) (x.entryAt 0 (a.fdPos d)) = false) ∧
    (∃ (s a : State) (dt d slot : Nat) (x : Slot) (n : Nat),
      s.advance dt = a ∧ a.measuring = true ∧ a.runs 7 = true ∧ a.parB Par.MOD.FD_ENABLE d = true ∧
      a.slot? (a.fdPod d) slot = some x ∧ x.closed = true ∧ x.ready = true ∧
      a.parN Par.MOD.FD_BAD_LIMIT d ≤ (a.fd d).badRun + n ∧ (a.fd d).lost = false) ∧
    (∃ (s a : State) (dt d slot : Nat) (x : Slot),
      s.advance dt = a ∧ a.measuring = true ∧ a.runs 7 = true ∧ a.parB Par.MOD.FD_ENABLE d = true ∧
      a.slot? (a.fdPod d) slot = some x ∧ x.closed = true ∧ x.ready = true ∧ (a.fd d).picked = false ∧
      a.parN Par.MOD.FD_PICKUP_SLOTS d ≤ (a.fd d).above ∧ (a.fd d).below < a.parN Par.MOD.FD_DROP_SLOTS d) ∧
    (∃ (s a : State) (dt t : Nat),
      s.advance dt = a ∧ a.measuring = true ∧ a.runs 7 = true ∧ (a.mt t).st ≠ 0 ∧ a.mtDue t = true) ∧
    (∃ (s a : State) (dt t : Nat),
      s.advance dt = a ∧ a.measuring = true ∧ a.runs 7 = true ∧ a.mtDue t = false) ∧
    (∃ (s a : State) (dt t : Nat),
      s.advance dt = a ∧ a.measuring = true ∧ a.runs 7 = true ∧ ((a.mt t).st = 1 ∨ (a.mt t).st = 2) ∧
      a.parN Par.MOD.MT_UPDATE_SLOTS t ≤ (a.mt t).count ∧ (a.mt t).running = true) ∧
    (∃ (s a : State) (dt t : Nat),
      s.advance dt = a ∧ a.measuring = true ∧ a.runs 7 = true ∧ ((a.mt t).st = 1 ∨ (a.mt t).st = 2) ∧
      a.parN Par.MOD.MT_UPDATE_SLOTS t ≤ (a.mt t).count ∧ (a.mt t).running = false) ∧
    (∃ (s a : State) (dt t : Nat),
      s.advance dt = a ∧ a.measuring = true ∧ a.runs 7 = true ∧ (a.mt t).count < a.parN Par.MOD.MT_UPDATE_SLOTS t) ∧
    (∃ (s a : State) (dt t : Nat),
      s.advance dt = a ∧ a.measuring = true ∧ a.runs 7 = true ∧ (a.mt t).running = true ∧ (a.mt t).st = 2) ∧
    (∃ (s a : State) (dt t : Nat),
      s.advance dt = a ∧ a.measuring = true ∧ a.runs 7 = true ∧ (a.mt t).running = true ∧ (a.mt t).st ≠ 2 ∧
      1 ≤ a.parN Par.MOD.MT_REPORT_EVERY t) ∧
    (∃ (s a : State) (dt t : Nat),
      s.advance dt = a ∧ a.measuring = true ∧ a.runs 7 = true ∧ (a.mt t).running = false) ∧
    (∃ (s a : State) (dt t k : Nat),
      s.advance dt = a ∧ a.measuring = true ∧ a.runs 7 = true ∧ (a.mt t).dropped.contains k = true ∧ (a.mt t).st ≠ 3 ∧
      10 * a.mtSlotRate t ≤ (a.mt t).valid.getD k 0) ∧
    (∃ (s a : State) (dt t k : Nat),
      s.advance dt = a ∧ a.measuring = true ∧ a.runs 7 = true ∧ (a.mt t).dropped.contains k = true ∧ (a.mt t).st = 3 ∧
      10 * a.mtSlotRate t ≤ (a.mt t).valid.getD k 0) ∧
    (∃ (s a : State) (dt t k : Nat),
      s.advance dt = a ∧ a.measuring = true ∧ a.runs 7 = true ∧
      ((a.mt t).dropped.contains k = false ∨ (a.mt t).valid.getD k 0 < 10 * a.mtSlotRate t)) :=
  ⟨
     ⟨sFd (slotShut false true) (fdIn none 1), sFd (slotShut false true) (fdIn none 1), 0, 0, 0, slotShut false true,
       rfl,
       by decide +kernel,
       by decide +kernel,
       by decide +kernel,
       by decide +kernel,
       by decide +kernel,
       by decide +kernel,
       by decide +kernel⟩,
     ⟨sFd (slotShut false true) (fdIn (some 0) 0), sFd (slotShut false true) (fdIn (some 0) 0), 0, 0, 0, slotShut false true, 0,
       rfl,
       by decide +kernel,
       by decide +kernel,
       by decide +kernel,
       by decide +kernel,
       by decide +kernel,
       by decide +kernel,
       by decide +kernel,
       by decide +kernel,
       by decide +kernel⟩,
     ⟨sFd slotBad (fdIn none 0), sFd slotBad (fdIn none 0), 0, 0, 0, slotBad,
       rfl,
       by decide +kernel,
       by decide +kernel,
       by decide +kernel,
       by decide +kernel,
       by decide +kernel,
       by decide +kernel,
       by decide +kernel,
       by decide +kernel,
       by decide +kernel⟩,
     ⟨sFd (slotShut false true) (fdIn none 0), sFd (slotShut false true) (fdIn none 0), 0, 0, 0, slotShut false true,
       rfl,
       by decide +kernel,
       by decide +kernel,
       by decide +kernel,
       by decide +kernel,
       by decide +kernel,
       by decide +kernel,
       by decide +kernel,
       by decide +kernel,
       by decide +kernel⟩,
     ⟨sFd slotBad (fdCount 60000 0), sFd slotBad (fdCount 60000 0), 0, 0, 0, slotBad, 1,
       rfl,
       by decide +kernel,
       by decide +kernel,
       by decide +kernel,
       by decide +kernel,
       by decide +kernel,
       by decide +kernel,
       by decide +kernel,
       by decide +kernel⟩,
     ⟨sFd slotBad (fdCount 0 60000), sFd slotBad (fdCount 0 60000), 0, 0, 0, slotBad,
       rfl,
       by decide +kernel,
       by decide +kernel,
       by decide +kernel,
       by decide +kernel,
       by decide +kernel,
       by decide +kernel,
       by decide +kernel,
       by decide +kernel,
       by decide +kernel⟩,
     ⟨sMt mtBuf, sMt mtBuf, 0, 0,
       rfl,
       by decide +kernel,
       by decide +kernel,
       by decide +kernel,
       by decide +kernel⟩,
     ⟨sMt Mt.init, sMt Mt.init, 0, 0,
       rfl,
       by decide +kernel,
       by decide +kernel,
       by decide +kernel⟩,
     ⟨sMt (mtOf 1 60000 true), sMt (mtOf 1 60000 true), 0, 0,
       rfl,
       by decide +kernel,
       by decide +kernel,
       by decide +kernel,
       by decide +kernel,
       by decide +kernel⟩,
     ⟨sMt (mtOf 2 60000 false), sMt (mtOf 2 60000 false), 0, 0,
       rfl,
       by decide +kernel,
       by decide +kernel,
       by decide +kernel,
       by decide +kernel,
       by decide +kernel⟩,
     ⟨sMt Mt.init, sMt Mt.init, 0, 0,
       rfl,
       by decide +kernel,
       by decide +kernel,
       by decide +kernel⟩,
     ⟨sMt (mtOf 2 0 true), sMt (mtOf 2 0 true), 0, 0,
       rfl,
       by decide +kernel,
       by decide +kernel,
       by decide +kernel,
       by decide +kernel⟩,
     ⟨withPar (sMt (mtOf 1 0 true)) Par.MOD.MT_REPORT_EVERY 0 2, withPar (sMt (mtOf 1 0 true)) Par.MOD.MT_REPORT_EVERY 0 2, 0, 0,
       rfl,
       by decide +kernel,
       by decide +kernel,
       by decide +kernel,
       by decide +kernel,
       by decide +kernel⟩,
     ⟨sMt Mt.init, sMt Mt.init, 0, 0,
       rfl,
       by decide +kernel,
       by decide +kernel,
       by decide +kernel⟩,
     ⟨sMt mtDrop, sMt mtDrop, 0, 0, 3,
       rfl,
       by decide +kernel,
       by decide +kernel,
       by decide +kernel,
       by decide +kernel,
       by decide +kernel⟩,
     ⟨sMt { mtDrop with st := 3 }, sMt { mtDrop with st := 3 }, 0, 0, 3,
       rfl,
       by decide +kernel,
       by decide +kernel,
       by decide +kernel,
       by decide +kernel,
       by decide +kernel⟩,
     ⟨sMt Mt.init, sMt Mt.init, 0, 0, 3,
       rfl,
       by decide +kernel,
       by decide +kernel,
       by decide +kernel⟩⟩

/-- The hypotheses of each clause of `BranchesNetworksAndBalances` are met. -/
theorem witness_BranchesNetworksAndBalances :
    (∃ (s a : State) (dt br : Nat) (d : BranchDef) (c : Bool),
      s.advance dt = a ∧ a.measuring = true ∧ a.runs 8 = true ∧ (List.find? (fun b => b.1 == br) a.branches = some (br, d)) ∧
      (a.branch br).closed = c) ∧
    (∃ (s a : State) (dt br : Nat) (d : BranchDef) (c : Bool),
      s.advance dt = a ∧ a.measuring = true ∧ a.runs 8 = true ∧ (List.find? (fun b => b.1 == br) a.branches = some (br, d)) ∧
      (a.branch br).closed ≠ c ∧ a.arm.running = false) ∧
    (∃ (s a : State) (dt br : Nat) (d : BranchDef) (c : Bool),
      s.advance dt = a ∧ a.measuring = true ∧ a.runs 8 = true ∧ (List.find? (fun b => b.1 == br) a.branches = some (br, d)) ∧
      (a.branch br).closed ≠ c ∧ a.arm.running = true ∧ a.arm.nextStamp = none) ∧
    (∃ (s a : State) (dt br : Nat) (d : BranchDef) (t : Nat),
      s.advance dt = a ∧ a.measuring = true ∧ a.runs 8 = true ∧ (List.find? (fun b => b.1 == br) a.branches = some (br, d)) ∧
      (a.branch br).interAt = some t ∧ t + 1000000 * a.parN Par.ARM.TRAVEL_MS 0 ≤ a.now) ∧
    (∃ (s a : State) (dt br : Nat) (d : BranchDef) (t : Nat),
      s.advance dt = a ∧ a.measuring = true ∧ a.runs 8 = true ∧ (List.find? (fun b => b.1 == br) a.branches = some (br, d)) ∧
      (a.branch br).interAt = some t ∧ a.now < t + 1000000 * a.parN Par.ARM.TRAVEL_MS 0) ∧
    (∃ (s a : State) (dt br : Nat) (d : BranchDef) (land stamp : Nat),
      s.advance dt = a ∧ a.measuring = true ∧ a.runs 8 = true ∧ (List.find? (fun b => b.1 == br) a.branches = some (br, d)) ∧
      land < 8 ∧ stamp + 1000 * a.parN Par.ARM.DIN_DEBOUNCE_US land ≤ a.now) ∧
    (∃ (s a : State) (dt br : Nat) (d : BranchDef) (land stamp : Nat),
      s.advance dt = a ∧ a.measuring = true ∧ a.runs 8 = true ∧ (List.find? (fun b => b.1 == br) a.branches = some (br, d)) ∧
      land < 8 ∧ stamp + 1000 * a.parN Par.ARM.DIN_DEBOUNCE_US land ≤ a.now ∧ (∀ b ∈ a.branches, b.2.kind ≠ 3)) ∧
    (∃ (s a : State) (dt br : Nat) (d : BranchDef) (land stamp : Nat),
      s.advance dt = a ∧ a.measuring = true ∧ a.runs 8 = true ∧ (List.find? (fun b => b.1 == br) a.branches = some (br, d)) ∧
      land < 8 ∧ a.now < stamp + 1000 * a.parN Par.ARM.DIN_DEBOUNCE_US land) ∧
    (∃ (s a : State) (dt br : Nat) (d : BranchDef),
      s.advance dt = a ∧ a.measuring = true ∧ a.runs 8 = true ∧ (List.find? (fun b => b.1 == br) a.branches = some (br, d)) ∧
      (a.branch br).bad = false) ∧
    (∃ (s a : State) (dt br : Nat) (d : BranchDef),
      s.advance dt = a ∧ a.measuring = true ∧ a.runs 8 = true ∧ (List.find? (fun b => b.1 == br) a.branches = some (br, d)) ∧
      a.arm.running = true) ∧
    (∃ (s a : State) (dt br : Nat) (d : BranchDef),
      s.advance dt = a ∧ a.measuring = true ∧ a.runs 8 = true ∧ (List.find? (fun b => b.1 == br) a.branches = some (br, d)) ∧
      a.arm.running = false) ∧
    (∃ (s a : State) (dt g slot : Nat) (x : Slot) (l : Nat),
      s.advance dt = a ∧ a.measuring = true ∧ a.runs 8 = true ∧ x.closed = true ∧
      a.slot? (a.parN Par.ARM.NET_POD g) slot = some x ∧ x.ready = true ∧ a.parN Par.ARM.NET_TYPE g ≠ 0 ∧
      (a.net g).lastGtf = some l ∧ slot ≤ l) ∧
    (∃ (s a : State) (dt g slot : Nat) (x : Slot),
      s.advance dt = a ∧ a.measuring = true ∧ a.runs 8 = true ∧ x.closed = true ∧
      a.slot? (a.parN Par.ARM.NET_POD g) slot = some x ∧ x.ready = true ∧ a.parN Par.ARM.NET_TYPE g ≠ 0 ∧
      (Option.all (fun l => decide (l < slot)) (a.net g).lastGtf = true)) ∧
    (∃ (s a : State) (dt g slot : Nat) (x : Slot),
      s.advance dt = a ∧ a.measuring = true ∧ a.runs 8 = true ∧ x.closed = true ∧
      a.slot? (a.parN Par.ARM.BAL_POD g) slot = some x ∧ x.ready = true ∧ a.parB Par.ARM.BAL_ENABLE g = true ∧
      (slot < (a.bal g).fromGtf ∨ x.took.contains (0, g) = true)) ∧
    (∃ (s a : State) (dt g slot : Nat) (x : Slot),
      s.advance dt = a ∧ a.measuring = true ∧ a.runs 8 = true ∧ x.closed = true ∧
      a.slot? (a.parN Par.ARM.BAL_POD g) slot = some x ∧ x.ready = true ∧ a.parB Par.ARM.BAL_ENABLE g = true ∧
      (a.bal g).fromGtf ≤ slot ∧ x.took.contains (0, g) = false ∧
      products (a.balTerms g) (a.parB Par.ARM.BAL_USE_SUBST g) x 0 = none) ∧
    (∃ (s a : State) (dt g slot : Nat) (x : Slot) (p : List DWord),
      s.advance dt = a ∧ a.measuring = true ∧ a.runs 8 = true ∧ x.closed = true ∧
      a.slot? (a.parN Par.ARM.BAL_POD g) slot = some x ∧ x.ready = true ∧ a.parB Par.ARM.BAL_ENABLE g = true ∧
      (a.bal g).fromGtf ≤ slot ∧ x.took.contains (0, g) = false ∧
      products (a.balTerms g) (a.parB Par.ARM.BAL_USE_SUBST g) x 0 = some p) ∧
    (∃ (s a : State) (dt g slot : Nat) (x : Slot) (p : Nat) (i : RecInt),
      s.advance dt = a ∧ a.measuring = true ∧ a.runs 8 = true ∧ x.closed = true ∧ a.slot? p slot = some x ∧ x.final = true ∧
      p = a.parN Par.ARM.BAL_POD g ∧ (a.bal g).runs = [i] ∧ i.holds p slot = true ∧ x.took.contains (1, g) = true) ∧
    (∃ (s a : State) (dt g slot : Nat) (x : Slot) (p : Nat) (i : RecInt),
      s.advance dt = a ∧ a.measuring = true ∧ a.runs 8 = true ∧ x.closed = true ∧ a.slot? p slot = some x ∧ x.final = true ∧
      p = a.parN Par.ARM.BAL_POD g ∧ (a.bal g).runs = [i] ∧ i.holds p slot = true ∧ x.took.contains (1, g) = false) ∧
    (∃ (s a : State) (dt g : Nat) (x : Slot) (i : RecInt) (rest : List RecInt),
      s.advance dt = a ∧ a.measuring = true ∧ a.runs 8 = true ∧ x.closed = true ∧ (a.bal g).runs = i :: rest ∧
      a.recOver g i = false) ∧
    (∃ (s a : State) (dt g : Nat) (x : Slot) (i : RecInt) (rest : List RecInt),
      s.advance dt = a ∧ a.measuring = true ∧ a.runs 8 = true ∧ x.closed = true ∧ (a.bal g).runs = i :: rest ∧
      a.recOver g i = true) :=
  ⟨
     ⟨sBr run Branch.init, sBr run Branch.init, 0, 3, brDef, true,
       rfl,
       by decide +kernel,
       by decide +kernel,
       by decide +kernel,
       by decide +kernel⟩,
     ⟨sBr run Branch.init, sBr run Branch.init, 0, 3, brDef, false,
       rfl,
       by decide +kernel,
       by decide +kernel,
       by decide +kernel,
       by decide +kernel,
       by decide +kernel⟩,
     ⟨recomp (sBr run Branch.init), recomp (sBr run Branch.init), 0, 3, brDef, false,
       rfl,
       by decide +kernel,
       by decide +kernel,
       by decide +kernel,
       by decide +kernel,
       by decide +kernel,
       by decide +kernel⟩,
     ⟨sBr run brInter, (sBr run brInter).advance (60*sec), 60 * sec, 3, brDef, 0,
       rfl,
       by decide +kernel,
       by decide +kernel,
       by decide +kernel,
       by decide +kernel,
       by decide +kernel⟩,
     ⟨sBr run brInter, sBr run brInter, 0, 3, brDef, 0,
       rfl,
       by decide +kernel,
       by decide +kernel,
       by decide +kernel,
       by decide +kernel,
       by decide +kernel⟩,
     ⟨sBr run Branch.init, (sBr run Branch.init).advance sec, sec, 3, brDef, 7, 5,
       rfl,
       by decide +kernel,
       by decide +kernel,
       by decide +kernel,
       by decide +kernel,
       by decide +kernel⟩,
     ⟨sBr run Branch.init, (sBr run Branch.init).advance sec, sec, 3, brDef, 7, 5,
       rfl,
       by decide +kernel,
       by decide +kernel,
       by decide +kernel,
       by decide +kernel,
       by decide +kernel,
       by decide +kernel⟩,
     ⟨sBr run Branch.init, sBr run Branch.init, 0, 3, brDef, 7, 5,
       rfl,
       by decide +kernel,
       by decide +kernel,
       by decide +kernel,
       by decide +kernel,
       by decide +kernel⟩,
     ⟨sBr run Branch.init, sBr run Branch.init, 0, 3, brDef,
       rfl,
       by decide +kernel,
       by decide +kernel,
       by decide +kernel,
       by decide +kernel⟩,
     ⟨recomp (sBr run Branch.init), recomp (sBr run Branch.init), 0, 3, brDef,
       rfl,
       by decide +kernel,
       by decide +kernel,
       by decide +kernel,
       by decide +kernel⟩,
     ⟨sBr run Branch.init, sBr run Branch.init, 0, 3, brDef,
       rfl,
       by decide +kernel,
       by decide +kernel,
       by decide +kernel,
       by decide +kernel⟩,
     ⟨sNet (some 0), sNet (some 0), 0, 2, 0, slotShut false true, 0,
       rfl,
       by decide +kernel,
       by decide +kernel,
       by decide +kernel,
       by decide +kernel,
       by decide +kernel,
       by decide +kernel,
       by decide +kernel,
       by decide +kernel⟩,
     ⟨sNet none, sNet none, 0, 2, 0, slotShut false true,
       rfl,
       by decide +kernel,
       by decide +kernel,
       by decide +kernel,
       by decide +kernel,
       by decide +kernel,
       by decide +kernel,
       by decide +kernel⟩,
     ⟨sBal (slotShut false true) [] (balFrom 1), sBal (slotShut false true) [] (balFrom 1), 0, 1, 0, slotShut false true,
       rfl,
       by decide +kernel,
       by decide +kernel,
       by decide +kernel,
       by decide +kernel,
       by decide +kernel,
       by decide +kernel,
       by decide +kernel⟩,
     ⟨sBal slotBad [0x80000000, 0] (balFrom 0), sBal slotBad [0x80000000, 0] (balFrom 0), 0, 1, 0, slotBad,
       rfl,
       by decide +kernel,
       by decide +kernel,
       by decide +kernel,
       by decide +kernel,
       by decide +kernel,
       by decide +kernel,
       by decide +kernel,
       by decide +kernel,
       by decide +kernel⟩,
     ⟨sBal (slotShut false true) [] (balFrom 0), sBal (slotShut false true) [] (balFrom 0), 0, 1, 0, slotShut false true, [],
       rfl,
       by decide +kernel,
       by decide +kernel,
       by decide +kernel,
       by decide +kernel,
       by decide +kernel,
       by decide +kernel,
       by decide +kernel,
       by decide +kernel,
       by decide +kernel⟩,
     ⟨sBal slotTook [] balRuns, sBal slotTook [] balRuns, 0, 1, 0, slotTook, 0, recInt sec,
       rfl,
       by decide +kernel,
       by decide +kernel,
       by decide +kernel,
       by decide +kernel,
       by decide +kernel,
       by decide +kernel,
       by decide +kernel,
       by decide +kernel,
       by decide +kernel⟩,
     ⟨sBal (slotShut true true) [] balRuns, sBal (slotShut true true) [] balRuns, 0, 1, 0, slotShut true true, 0, recInt sec,
       rfl,
       by decide +kernel,
       by decide +kernel,
       by decide +kernel,
       by decide +kernel,
       by decide +kernel,
       by decide +kernel,
       by decide +kernel,
       by decide +kernel,
       by decide +kernel⟩,
     ⟨sBal (slotShut true true) [] balRuns, sBal (slotShut true true) [] balRuns, 0, 1, slotShut true true, recInt sec, [],
       rfl,
       by decide +kernel,
       by decide +kernel,
       by decide +kernel,
       by decide +kernel,
       by decide +kernel⟩,
     ⟨sBal slotTook [] balRuns, (sBal slotTook [] balRuns).advance sec, sec, 1, slotTook, recInt sec, [],
       rfl,
       by decide +kernel,
       by decide +kernel,
       by decide +kernel,
       by decide +kernel,
       by decide +kernel⟩⟩

/-- The hypotheses of each clause of `RegistersAndProfilesAreKept` are met. -/
theorem witness_RegistersAndProfilesAreKept :
    (∃ (r : Reg),
      r.value < 1000000000000 ∧ r.fine < 1000000000 ∧ r.roll < 65536) ∧
    (∃ (a : State),
      a.cus.records.length < 285975) ∧
    (∃ (a : State),
      285975 ≤ a.cus.records.length) :=
  ⟨
     ⟨reg9,
       by decide +kernel,
       by decide +kernel,
       by decide +kernel⟩,
     ⟨sPoint run ptAligned,
       by decide +kernel⟩,
     ⟨sFullStore,
       by
      show 285975 ≤ (List.replicate 285975 rec1).length
      rw [List.length_replicate]⟩⟩

/-- The hypotheses of each clause of `CustodyRunsInItsRhythm` are met. -/
theorem witness_CustodyRunsInItsRhythm :
    (∃ (s a : State) (dt p g : Nat) (x : Slot),
      s.advance dt = a ∧ a.measuring = true ∧ a.pwr.pfw = false ∧ a.runs 9 = true ∧ (a.point p).running = true ∧
      (a.point p).defn.kind = 2 ∧ a.slot? (a.point p).defn.pod g = some x ∧ x.closed = true ∧ x.final = true ∧
      (a.point p).tail ≤ g ∧ (a.point p).booked g = false) ∧
    (∃ (s a : State) (dt p g : Nat) (x : Slot),
      s.advance dt = a ∧ a.measuring = true ∧ a.pwr.pfw = false ∧ a.runs 9 = true ∧ (a.point p).running = true ∧
      (a.point p).defn.kind = 2 ∧ a.slot? (a.point p).defn.pod g = some x ∧ x.closed = true ∧ x.final = true ∧
      (g < (a.point p).tail ∨ (a.point p).booked g = true)) ∧
    (∃ (s a : State) (dt p g : Nat),
      s.advance dt = a ∧ a.measuring = true ∧ a.pwr.pfw = false ∧ a.runs 9 = true ∧ (a.point p).running = true ∧
      (a.point p).defn.kind = 2 ∧ a.slot? (a.point p).defn.pod g = none ∧
      isGrid (a.podDef (a.point p).defn.pod).rate g = true ∧ (a.point p).tail ≤ g ∧ g ≤ a.now ∧ (a.point p).booked g = false) ∧
    (∃ (s a : State) (dt p w : Nat),
      s.advance dt = a ∧ a.measuring = true ∧ a.pwr.pfw = false ∧ a.runs 9 = true ∧ (a.point p).running = true ∧
      (a.point p).defn.kind ≠ 2 ∧ w % (a.point p).defn.stepNs = 0 ∧ (a.point p).tail ≤ w ∧ w + (a.point p).defn.stepNs ≤ a.now) ∧
    (∃ (s a : State) (dt p w : Nat),
      s.advance dt = a ∧ a.measuring = true ∧ a.pwr.pfw = false ∧ a.runs 9 = true ∧ (a.point p).running = true ∧
      (a.point p).defn.kind ≠ 2 ∧ w % (a.point p).defn.stepNs = 0 ∧ (a.point p).tail ≤ w ∧
      w + (a.point p).defn.stepNs ≤ a.now ∧ ceilTo (a.point p).defn.stepNs (a.point p).tail = w ∧ a.stepRuns w = true) ∧
    (∃ (s a : State) (dt p w : Nat),
      s.advance dt = a ∧ a.measuring = true ∧ a.pwr.pfw = false ∧ a.runs 9 = true ∧ (a.point p).running = true ∧
      (a.point p).defn.kind ≠ 2 ∧ w % (a.point p).defn.stepNs = 0 ∧ (a.point p).tail ≤ w ∧ a.now < w + (a.point p).defn.stepNs) ∧
    (∃ (s a : State) (dt p t : Nat),
      s.advance dt = a ∧ a.measuring = true ∧ a.pwr.pfw = false ∧ a.runs 9 = true ∧ (a.point p).running = true ∧
      (a.point p).signSince = some t ∧ (a.point p).tail < t + 1000000 * a.parN Par.CUS.REV_DEBOUNCE_MS p) ∧
    (∃ (s a : State) (dt p t : Nat),
      s.advance dt = a ∧ a.measuring = true ∧ a.pwr.pfw = false ∧ a.runs 9 = true ∧ (a.point p).running = true ∧
      (a.point p).signSince = some t ∧ t + 1000000 * a.parN Par.CUS.REV_DEBOUNCE_MS p ≤ (a.point p).tail) ∧
    (∃ (s a : State) (dt : Nat),
      s.advance dt = a ∧ a.measuring = true ∧ a.pwr.pfw = false ∧ a.runs 9 = true ∧ a.now % sec = 0) ∧
    (∃ (s a : State) (dt : Nat),
      s.advance dt = a ∧ a.measuring = true ∧ a.pwr.pfw = false ∧ a.runs 9 = true ∧ a.now % sec ≠ 0) ∧
    (∃ (s a : State) (dt : Nat),
      s.advance dt = a ∧ a.measuring = true ∧ a.pwr.pfw = false ∧ a.runs 9 = true) ∧
    (∃ (s a : State) (dt p land : Nat),
      s.advance dt = a ∧ a.measuring = true ∧ a.pwr.pfw = false ∧ a.runs 9 = true ∧ a.accounts = [p] ∧
      a.pwr.pfwSaved = false ∧ (a.point p).running = true ∧ (a.point p).defn.kind = 3 ∧ a.pulseLand p = some land) ∧
    (∃ (s a : State) (dt : Nat),
      s.advance dt = a ∧ a.measuring = true ∧ a.pwr.pfw = false ∧ a.runs 9 = true) ∧
    (∃ (s a : State) (dt p n : Nat) (r : Profile),
      s.advance dt = a ∧ a.measuring = true ∧ a.pwr.pfw = false ∧ a.runs 9 = true ∧
      (List.find? (fun r => r.point == p && r.seq == n && r.sig.isEmpty) a.cus.records = some r) ∧ a.canSign = true) ∧
    (∃ (s a : State) (dt p n : Nat) (r : Profile),
      s.advance dt = a ∧ a.measuring = true ∧ a.pwr.pfw = false ∧ a.runs 9 = true ∧
      (List.find? (fun r => r.point == p && r.seq == n && r.sig.isEmpty) a.cus.records = some r) ∧ a.canSign = false) :=
  ⟨
     ⟨sPoint (withSlot sPod5 (slotShut true true)) ptAligned, sPoint (withSlot sPod5 (slotShut true true)) ptAligned, 0, 4, 0,
         slotShut true true,
       rfl,
       by decide +kernel,
       by decide +kernel,
       by decide +kernel,
       by decide +kernel,
       by decide +kernel,
       by decide +kernel,
       by decide +kernel,
       by decide +kernel,
       by decide +kernel,
       by decide +kernel⟩,
     ⟨sPoint (withSlot sPod5 (slotShut true true)) (ptTail 1), sPoint (withSlot sPod5 (slotShut true true)) (ptTail 1), 0, 4,
         0, slotShut true true,
       rfl,
       by decide +kernel,
       by decide +kernel,
       by decide +kernel,
       by decide +kernel,
       by decide +kernel,
       by decide +kernel,
       by decide +kernel,
       by decide +kernel,
       by decide +kernel⟩,
     ⟨sPoint sPod5 ptAligned, sPoint sPod5 ptAligned, 0, 4, 0,
       rfl,
       by decide +kernel,
       by decide +kernel,
       by decide +kernel,
       by decide +kernel,
       by decide +kernel,
       by decide +kernel,
       by decide +kernel,
       by decide +kernel,
       by decide +kernel,
       by decide +kernel⟩,
     ⟨sPoint run ptLocal, (sPoint run ptLocal).advance 10000000, 10000000, 4, 0,
       rfl,
       by decide +kernel,
       by decide +kernel,
       by decide +kernel,
       by decide +kernel,
       by decide +kernel,
       by decide +kernel,
       by decide +kernel,
       by decide +kernel⟩,
     ⟨sPoint run ptLocal, (sPoint run ptLocal).advance 10000000, 10000000, 4, 0,
       rfl,
       by decide +kernel,
       by decide +kernel,
       by decide +kernel,
       by decide +kernel,
       by decide +kernel,
       by decide +kernel,
       by decide +kernel,
       by decide +kernel,
       by decide +kernel,
       by decide +kernel⟩,
     ⟨sPoint run ptLocal, sPoint run ptLocal, 0, 4, 0,
       rfl,
       by decide +kernel,
       by decide +kernel,
       by decide +kernel,
       by decide +kernel,
       by decide +kernel,
       by decide +kernel,
       by decide +kernel,
       by decide +kernel⟩,
     ⟨sPoint run (ptSign 0), sPoint run (ptSign 0), 0, 4, 0,
       rfl,
       by decide +kernel,
       by decide +kernel,
       by decide +kernel,
       by decide +kernel,
       by decide +kernel,
       by decide +kernel⟩,
     ⟨sPoint run (ptSign (60*sec)), sPoint run (ptSign (60*sec)), 0, 4, 0,
       rfl,
       by decide +kernel,
       by decide +kernel,
       by decide +kernel,
       by decide +kernel,
       by decide +kernel,
       by decide +kernel⟩,
     ⟨run, run, 0,
       rfl,
       by decide +kernel,
       by decide +kernel,
       by decide +kernel,
       by decide +kernel⟩,
     ⟨run, run.advance 1, 1,
       rfl,
       by decide +kernel,
       by decide +kernel,
       by decide +kernel,
       by decide +kernel⟩,
     ⟨run, run, 0,
       rfl,
       by decide +kernel,
       by decide +kernel,
       by decide +kernel⟩,
     ⟨sPulse, sPulse, 0, 4, 7,
       rfl,
       by decide +kernel,
       by decide +kernel,
       by decide +kernel,
       by decide +kernel,
       by decide +kernel,
       by decide +kernel,
       by decide +kernel,
       by decide +kernel⟩,
     ⟨run, run, 0,
       rfl,
       by decide +kernel,
       by decide +kernel,
       by decide +kernel⟩,
     ⟨signKeyed (sRec run), signKeyed (sRec run), 0, 4, 3, rec1,
       rfl,
       by decide +kernel,
       by decide +kernel,
       by decide +kernel,
       by decide +kernel,
       by decide +kernel⟩,
     ⟨sRec run, sRec run, 0, 4, 3, rec1,
       rfl,
       by decide +kernel,
       by decide +kernel,
       by decide +kernel,
       by decide +kernel,
       by decide +kernel⟩⟩

/-- The hypotheses of each clause of `CustodyAnswersItsCommands` are met. -/
theorem witness_CustodyAnswersItsCommands :
    (∃ (s t : State) (dt : Nat) (q : Req) (role : Nat),
      Admitted (s.advance dt) q 2048 9 0 3 true t role ∧ 1 ≤ (q.w 5).toNat ∧ (q.w 5).toNat ≤ 256 ∧
      q.bits 4 8 0 + (q.w 5).toNat ≤ 512 ∧
      (ReplyFits t q (List.flatMap (fun k => t.registerWords (BitVec.getLsbD (q.w 6) 0) (q.bits 4 8 0 + k)) (List.range ((q.w 5).toNat))))) ∧
    (∃ (s t : State) (dt : Nat) (q : Req) (role : Nat),
      Admitted (s.advance dt) q 2049 9 0 3 true t role ∧ 1 ≤ q.bits 6 15 0 ∧ q.bits 6 15 0 ≤ 100 ∧
      0 < (q.w 5).toNat ∧ (q.w 5).toNat < (Option.map Profile.seq (t.recordsOf (q.bits 4 8 0)).head?).getD ((t.point (q.bits 4 8 0)).seq + 1) ∧ (q.w 5).toNat ≤ (t.point (q.bits 4 8 0)).seq) ∧
    (∃ (s t : State) (dt : Nat) (q : Req) (role : Nat),
      Admitted (s.advance dt) q 2049 9 0 3 true t role ∧ 1 ≤ q.bits 6 15 0 ∧ q.bits 6 15 0 ≤ 100 ∧
      ¬(0 < (q.w 5).toNat ∧ (q.w 5).toNat < (Option.map Profile.seq (t.recordsOf (q.bits 4 8 0)).head?).getD ((t.point (q.bits 4 8 0)).seq + 1) ∧ (q.w 5).toNat ≤ (t.point (q.bits 4 8 0)).seq) ∧
      (ReplyFits t q ([BitVec.ofNat 32 (List.take (q.bits 6 15 0) (List.filter (fun r => decide ((q.w 5).toNat ≤ r.seq)) (t.recordsOf (q.bits 4 8 0)))).length, BitVec.ofNat 32 ((Option.map Profile.seq (t.recordsOf (q.bits 4 8 0)).head?).getD 0), BitVec.ofNat 32 ((Option.map Profile.seq (t.recordsOf (q.bits 4 8 0)).getLast?).getD 0)] ++ List.flatMap (fun r => q.carriage.pack (wordsLe (t.readProfile r).words ++ padTo 64 (t.readProfile r).sig)) (List.take (q.bits 6 15 0) (List.filter (fun r => decide ((q.w 5).toNat ≤ r.seq)) (t.recordsOf (q.bits 4 8 0))))))) ∧
    (∃ (s t : State) (dt : Nat) (q : Req) (role : Nat),
      Admitted (s.advance dt) q 2050 9 1 2 true t role ∧
      (q.w 5 = 0 ∨ ∃ r ∈ List.filter (fun r => BitVec.getLsbD (q.w 4) 31 || r.point == q.bits 4 8 0) t.cus.records,
          (q.w 5).toNat ≤ r.seq)) ∧
    (∃ (s t : State) (dt : Nat) (q : Req) (role : Nat),
      Admitted (s.advance dt) q 2053 9 0 0 true t role ∧ t.ident.variantM = false) ∧
    (∃ (s t : State) (dt : Nat) (q : Req) (role : Nat),
      Admitted (s.advance dt) q 2053 9 0 0 true t role ∧ t.ident.variantM = true ∧
      (ReplyFits t q (q.carriage.pack (List.take 8 (padTo 40 (List.drop 24 (if t.pwr.bank = 0 then t.pwr.bank0.bytes else t.pwr.bank1.bytes)))) ++ q.carriage.pack (List.drop 8 (padTo 40 (List.drop 24 (if t.pwr.bank = 0 then t.pwr.bank0.bytes else t.pwr.bank1.bytes)))) ++ [BitVec.ofNat 32 (bitAt t.sealedBit 0 + bitAt t.vlt.latch 1 + bitAt t.provisional 2)] ++ words64 (BitVec.toNat t.cus.sealCtr) ++ q.carriage.pack t.cus.sealHash))) :=
  ⟨
     ⟨cfg, cfg, 0, pub [511, 1, 0], 0,
       ⟨by decide +kernel, by decide +kernel, rfl, by decide +kernel⟩,
       by decide +kernel,
       by decide +kernel,
       by decide +kernel,
       by decide +kernel⟩,
     ⟨sSeq 3, sSeq 3, 0, pub [4, 1, 1], 0,
       ⟨by decide +kernel, by decide +kernel, rfl, by decide +kernel⟩,
       by decide +kernel,
       by decide +kernel,
       by decide +kernel⟩,
     ⟨sSeq 3, sSeq 3, 0, pub [4, 0, 100], 0,
       ⟨by decide +kernel, by decide +kernel, rfl, by decide +kernel⟩,
       by decide +kernel,
       by decide +kernel,
       by decide +kernel,
       by decide +kernel⟩,
     ⟨sSeq 3, sSeq 3, 0, opr [0x80000000, 3], 1,
       ⟨by decide +kernel, by decide +kernel, rfl, by decide +kernel⟩,
       by decide +kernel⟩,
     ⟨sPlain, sPlain, 0, pub [], 0,
       ⟨by decide +kernel, by decide +kernel, rfl, by decide +kernel⟩,
       by decide +kernel⟩,
     ⟨cfg, cfg, 0, pub [], 0,
       ⟨by decide +kernel, by decide +kernel, rfl, by decide +kernel⟩,
       by decide +kernel,
       by decide +kernel⟩⟩

/-- The hypotheses of each clause of `UpdateMessagesFailAtTheFirstCheck` are met. -/
theorem witness_UpdateMessagesFailAtTheFirstCheck :
    (∃ (t : State) (q : Req),
      q.dw 4 ≠ BitVec.toNat t.ident.deviceId) ∧
    (∃ (t : State) (q : Req),
      q.dw 4 = BitVec.toNat t.ident.deviceId ∧ q.dw 6 ≤ BitVec.toNat t.vaultCtr) ∧
    (∃ (t : State) (q : Req) (x : KeyMsg),
      q.dw 4 = BitVec.toNat t.ident.deviceId ∧ BitVec.toNat t.vaultCtr < q.dw 6 ∧ t.signerOk q x = false) ∧
    (∃ (t : State) (q : Req) (x : KeyMsg),
      q.dw 4 = BitVec.toNat t.ident.deviceId ∧ BitVec.toNat t.vaultCtr < q.dw 6 ∧ t.signerOk q x = true ∧
      signedBy q (t.signerKey x) = false) ∧
    (∃ (t : State) (q : Req) (x : KeyMsg),
      q.dw 4 = BitVec.toNat t.ident.deviceId ∧ BitVec.toNat t.vaultCtr < q.dw 6 ∧ t.signerOk q x = true ∧
      signedBy q (t.signerKey x) = true ∧ t.vlt.latch = true ∧ (x.inv = true ∨ x.op ≠ 1 ∧ x.op ≠ 2)) ∧
    (∃ (t : State) (q : Req) (x : KeyMsg),
      q.dw 4 = BitVec.toNat t.ident.deviceId ∧ BitVec.toNat t.vaultCtr < q.dw 6 ∧ t.signerOk q x = true ∧
      signedBy q (t.signerKey x) = true ∧ t.vlt.latch = false ∧ t.keyLogged x = true ∧ t.evt.met.freeze ≠ none) ∧
    (∃ (t : State) (q : Req) (x : KeyMsg),
      q.dw 4 = BitVec.toNat t.ident.deviceId ∧ BitVec.toNat t.vaultCtr < q.dw 6 ∧ t.signerOk q x = true ∧
      signedBy q (t.signerKey x) = true ∧ t.vlt.latch = false ∧ t.keyLogged x = false ∧ t.vlt.journal ≠ none) ∧
    (∃ (t : State) (q : Req) (x : KeyMsg),
      q.dw 4 = BitVec.toNat t.ident.deviceId ∧ BitVec.toNat t.vaultCtr < q.dw 6 ∧ t.signerOk q x = true ∧
      signedBy q (t.signerKey x) = true ∧ t.vlt.latch = false ∧ t.keyLogged x = false ∧ t.vlt.journal = none) ∧
    (∃ (t : State) (q : Req) (x : KeyMsg),
      q.dw 4 = BitVec.toNat t.ident.deviceId ∧ BitVec.toNat t.vaultCtr < q.dw 6 ∧ t.signerOk q x = true ∧
      signedBy q (t.signerKey x) = true ∧ t.vlt.latch = false ∧ t.keyLogged x = true ∧ t.evt.met.freeze = none ∧
      32768 ≤ t.evt.met.mram.length + t.evt.met.buf.length) :=
  ⟨
     ⟨sVault, other,
       by decide +kernel⟩,
     ⟨sVault, low,
       by decide +kernel,
       by decide +kernel⟩,
     ⟨sVault, noSigner, keyMsgOf noSigner true,
       by decide +kernel,
       by decide +kernel,
       by decide +kernel⟩,
     ⟨sVault, badSig, keyMsgOf badSig true,
       by decide +kernel,
       by decide +kernel,
       by decide +kernel,
       by decide +kernel⟩,
     ⟨vLatch, invalidate7, keyMsgOf invalidate7 true,
       by decide +kernel,
       by decide +kernel,
       by decide +kernel,
       by decide +kernel,
       by decide +kernel,
       by decide +kernel⟩,
     ⟨vFroze, slot2x, keyMsgOf slot2x false,
       by decide +kernel,
       by decide +kernel,
       by decide +kernel,
       by decide +kernel,
       by decide +kernel,
       by decide +kernel,
       by decide +kernel⟩,
     ⟨sJournal .break_, invalidate7, keyMsgOf invalidate7 true,
       by decide +kernel,
       by decide +kernel,
       by decide +kernel,
       by decide +kernel,
       by decide +kernel,
       by decide +kernel,
       by decide +kernel⟩,
     ⟨sVault, invalidate7, keyMsgOf invalidate7 true,
       by decide +kernel,
       by decide +kernel,
       by decide +kernel,
       by decide +kernel,
       by decide +kernel,
       by decide +kernel,
       by decide +kernel⟩,
     ⟨vFull, slot2x, keyMsgOf slot2x false,
       by decide +kernel,
       by decide +kernel,
       by decide +kernel,
       by decide +kernel,
       by decide +kernel,
       by decide +kernel,
       by decide +kernel,
       by decide +kernel⟩⟩

/-- The hypotheses of each clause of `VaultMessagesEnterTheJournal` are met. -/
theorem witness_VaultMessagesEnterTheJournal :
    (∃ (s t : State) (dt : Nat) (q : Req) (role : Nat) (c : Instr) (b : State) (op : VaultOp),
      Admitted (s.advance dt) q 1536 13 0 24 true t role ∧
      c ∈ [Instr.keyUpdateSetAnchor dt q, Instr.keyUpdateRekeyRoot dt q, Instr.keyUpdateGenerate dt q,
          Instr.keyUpdateDerive dt q, Instr.keyUpdateLoadWrapped dt q, Instr.keyUpdateLoadPublic dt q] ∧
      t.up = true ∧ t.keyStatus q (keyMsgOf q false) = 0 ∧ t.keyEffect q (keyMsgOf q false) = (b, Except.ok op)) ∧
    (∃ (s t : State) (dt : Nat) (q : Req) (role : Nat) (c : Instr) (b : State) (st : Nat),
      Admitted (s.advance dt) q 1536 13 0 24 true t role ∧
      c ∈ [Instr.keyUpdateSetAnchor dt q, Instr.keyUpdateRekeyRoot dt q, Instr.keyUpdateGenerate dt q,
          Instr.keyUpdateDerive dt q, Instr.keyUpdateLoadWrapped dt q, Instr.keyUpdateLoadPublic dt q] ∧
      t.keyStatus q (keyMsgOf q false) = 0 ∧ t.keyEffect q (keyMsgOf q false) = (b, Except.error st)) ∧
    (∃ (s t : State) (dt : Nat) (q : Req) (role : Nat) (c : Instr),
      Admitted (s.advance dt) q 1536 13 0 24 true t role ∧
      c ∈ [Instr.keyUpdateSetAnchor dt q, Instr.keyUpdateRekeyRoot dt q, Instr.keyUpdateGenerate dt q,
          Instr.keyUpdateDerive dt q, Instr.keyUpdateLoadWrapped dt q, Instr.keyUpdateLoadPublic dt q] ∧
      t.keyStatus q (keyMsgOf q false) ≠ 0) ∧
    (∃ (s t : State) (dt : Nat) (q : Req) (role : Nat),
      Admitted (s.advance dt) q 1537 13 0 24 true t role ∧ t.up = true ∧ t.keyStatus q (keyMsgOf q true) = 0) ∧
    (∃ (s t : State) (dt : Nat) (q : Req) (role : Nat),
      Admitted (s.advance dt) q 1537 13 0 24 true t role ∧ t.keyStatus q (keyMsgOf q true) ≠ 0) ∧
    (∃ (s t : State) (dt : Nat) (q : Req) (role : Nat) (c : Instr) (b : State) (op : VaultOp),
      Admitted (s.advance dt) q 2051 9 0 22 true t role ∧
      c ∈ [Instr.cusSealSeal dt q, Instr.cusSealBreak dt q, Instr.cusSealClearRegisters dt q] ∧ t.up = true ∧
      t.sealStatus q (sealMsgOf q false) = 0 ∧ t.vlt.journal = none ∧ t.sealBody (sealMsgOf q false) = (b, Except.ok op)) ∧
    (∃ (s t : State) (dt : Nat) (q : Req) (role : Nat) (c : Instr),
      Admitted (s.advance dt) q 2051 9 0 22 true t role ∧
      c ∈ [Instr.cusSealSeal dt q, Instr.cusSealBreak dt q, Instr.cusSealClearRegisters dt q] ∧
      t.sealStatus q (sealMsgOf q false) = 0 ∧ t.vlt.journal ≠ none) ∧
    (∃ (s t : State) (dt : Nat) (q : Req) (role : Nat) (c : Instr),
      Admitted (s.advance dt) q 2051 9 0 22 true t role ∧
      c ∈ [Instr.cusSealSeal dt q, Instr.cusSealBreak dt q, Instr.cusSealClearRegisters dt q] ∧
      t.sealStatus q (sealMsgOf q false) ≠ 0) ∧
    (∃ (s t : State) (dt : Nat) (q : Req) (role : Nat) (c : Instr),
      Admitted (s.advance dt) q 2051 9 0 22 true t role ∧
      c ∈ [Instr.cusSealSeal dt q, Instr.cusSealBreak dt q, Instr.cusSealClearRegisters dt q] ∧ t.ident.variantM = false) ∧
    (∃ (s t : State) (dt : Nat) (q : Req) (role : Nat) (b : State) (op : VaultOp),
      Admitted (s.advance dt) q 2052 9 0 22 true t role ∧ t.up = true ∧ t.sealStatus q (sealMsgOf q true) = 0 ∧
      t.vlt.journal = none ∧ t.sealBody (sealMsgOf q true) = (b, Except.ok op)) ∧
    (∃ (s t : State) (dt : Nat) (q : Req) (role : Nat) (b : State) (a : Ans),
      Admitted (s.advance dt) q 2052 9 0 22 true t role ∧ t.sealStatus q (sealMsgOf q true) = 0 ∧ t.vlt.journal = none ∧
      t.sealBody (sealMsgOf q true) = (b, Except.error (some a)) ∧ fits q.carriage (t.sessionKey q).isSome a = true) ∧
    (∃ (s t : State) (dt : Nat) (q : Req) (role : Nat),
      Admitted (s.advance dt) q 2052 9 0 22 true t role ∧ t.ident.variantM = false) :=
  ⟨
     ⟨sVault, sVault, 0, loadPublic, 0, .keyUpdateLoadPublic 0 loadPublic, sVault, .key 6 7 genKey,
       ⟨by decide +kernel, by decide +kernel, rfl, by decide +kernel⟩,
       by decide +kernel,
       by decide +kernel,
       by decide +kernel,
       by decide +kernel⟩,
     ⟨sParentKey, sParentKey, 0, loadBad, 0, .keyUpdateLoadWrapped 0 loadBad, sParentKey, 0x0113,
       ⟨by decide +kernel, by decide +kernel, rfl, by decide +kernel⟩,
       by decide +kernel,
       by decide +kernel,
       by decide +kernel⟩,
     ⟨sVault, sVault, 0, low, 0, .keyUpdateLoadPublic 0 low,
       ⟨by decide +kernel, by decide +kernel, rfl, by decide +kernel⟩,
       by decide +kernel,
       by decide +kernel⟩,
     ⟨sVault, sVault, 0, invalidate7, 0,
       ⟨by decide +kernel, by decide +kernel, rfl, by decide +kernel⟩,
       by decide +kernel,
       by decide +kernel⟩,
     ⟨sVault, sVault, 0, low, 0,
       ⟨by decide +kernel, by decide +kernel, rfl, by decide +kernel⟩,
       by decide +kernel⟩,
     ⟨sSeal, sSeal, 0, sealMsg 1, 0, .cusSealSeal 0 (sealMsg 1), sSeal, .seal,
       ⟨by decide +kernel, by decide +kernel, rfl, by decide +kernel⟩,
       by decide +kernel,
       by decide +kernel,
       by decide +kernel,
       by decide +kernel,
       by decide +kernel⟩,
     ⟨sSealJ, sSealJ, 0, sealMsg 1, 0, .cusSealSeal 0 (sealMsg 1),
       ⟨by decide +kernel, by decide +kernel, rfl, by decide +kernel⟩,
       by decide +kernel,
       by decide +kernel,
       by decide +kernel⟩,
     ⟨sSeal, sSeal, 0, low, 0, .cusSealSeal 0 low,
       ⟨by decide +kernel, by decide +kernel, rfl, by decide +kernel⟩,
       by decide +kernel,
       by decide +kernel⟩,
     ⟨sPlainV, sPlainV, 0, sealMsg 1, 0, .cusSealSeal 0 (sealMsg 1),
       ⟨by decide +kernel, by decide +kernel, rfl, by decide +kernel⟩,
       by decide +kernel,
       by decide +kernel⟩,
     ⟨sVault, sVault, 0, sealUpdS, 0, sVault, .update [updItem],
       ⟨by decide +kernel, by decide +kernel, rfl, by decide +kernel⟩,
       by decide +kernel,
       by decide +kernel,
       by decide +kernel,
       by decide +kernel⟩,
     ⟨sVault, sVault, 0, sealUpd0, 0, sVault, (0x0106, [detail 0xFFFF 0]),
       ⟨by decide +kernel, by decide +kernel, rfl, by decide +kernel⟩,
       by decide +kernel,
       by decide +kernel,
       by decide +kernel,
       by decide +kernel⟩,
     ⟨sPlainV, sPlainV, 0, sealUpdS, 0,
       ⟨by decide +kernel, by decide +kernel, rfl, by decide +kernel⟩,
       by decide +kernel⟩⟩

/-- The hypotheses of each clause of `JournalCommitApplies` are met. -/
theorem witness_JournalCommitApplies :
    (∃ (s a : State) (dt : Nat) (j : Journal),
      s.advance dt = a ∧ a.up = true ∧ a.pwr.pfw = false ∧ a.vlt.journal = some j) ∧
    (∃ (s a : State) (dt : Nat) (j : Journal),
      s.advance dt = a ∧ a.up = true ∧ a.pwr.pfw = false ∧ a.vlt.journal = some j) :=
  ⟨
     ⟨sJournal .seal, sJournal .seal, 0, jr .seal,
       rfl,
       by decide +kernel,
       by decide +kernel,
       by decide +kernel⟩,
     ⟨sJournal (.clear [4]), sJournal (.clear [4]), 0, jr (.clear [4]),
       rfl,
       by decide +kernel,
       by decide +kernel,
       by decide +kernel⟩⟩

/-- The hypotheses of each clause of `VaultAnswersItsCommands` are met. -/
theorem witness_VaultAnswersItsCommands :
    (∃ (s t : State) (dt : Nat) (q : Req) (role : Nat),
      Admitted (s.advance dt) q 1539 13 1 9 true t role ∧ t.pwr.dev = DevState.safe) ∧
    (∃ (s t : State) (dt : Nat) (q : Req) (role : Nat),
      Admitted (s.advance dt) q 1539 13 1 9 true t role ∧ t.pwr.dev ≠ DevState.safe ∧ q.bits 4 7 0 ≤ 127 ∧
      (t.keySlot (q.bits 4 7 0)).usable = true ∧ (t.keySlot (q.bits 4 7 0)).ty = 1 ∧ (t.keySlot (q.bits 4 7 0)).has 0 = true ∧
      (t.keySlot (q.bits 4 7 0)).has 7 = false ∧
      (ReplyFits t q (q.carriage.pack (p256SignWith (ofBe (t.keySlot (q.bits 4 7 0)).secret) (p256Nonce (ofBe (t.keySlot (q.bits 4 7 0)).secret) (if q.bits 4 7 0 = 0 then sha256 (ascii "GLENIS-ATTEST-V1" ++ t.idBytes ++ leBytes 8 (BitVec.toNat t.vaultCtr) ++ q.bytes 5 32) else q.bytes 5 32)) (if q.bits 4 7 0 = 0 then sha256 (ascii "GLENIS-ATTEST-V1" ++ t.idBytes ++ leBytes 8 (BitVec.toNat t.vaultCtr) ++ q.bytes 5 32) else q.bytes 5 32)) ++ if q.bits 4 7 0 = 0 then words64 (BitVec.toNat t.vaultCtr) else [0, 0]))) ∧
    (∃ (s t : State) (dt : Nat) (q : Req) (role : Nat),
      Admitted (s.advance dt) q 1540 13 0 41 true t role ∧
      (q.bits 4 7 0 = 255 ∨ q.bits 4 7 0 ≤ 127 ∧ (t.keySlot (q.bits 4 7 0)).usable = true ∧
          ((t.keySlot (q.bits 4 7 0)).ty = 1 ∨ (t.keySlot (q.bits 4 7 0)).ty = 2) ∧ (t.keySlot (q.bits 4 7 0)).has 1 = true) ∧
      (p256Verify (if q.bits 4 7 0 = 255 then q.bytes 13 64 else (t.keySlot (q.bits 4 7 0)).pub) (q.bytes 5 32) (q.bytes 29 64) = true)) ∧
    (∃ (s t : State) (dt : Nat) (q : Req) (role : Nat),
      Admitted (s.advance dt) q 1540 13 0 41 true t role ∧
      (q.bits 4 7 0 = 255 ∨ q.bits 4 7 0 ≤ 127 ∧ (t.keySlot (q.bits 4 7 0)).usable = true ∧
          ((t.keySlot (q.bits 4 7 0)).ty = 1 ∨ (t.keySlot (q.bits 4 7 0)).ty = 2) ∧ (t.keySlot (q.bits 4 7 0)).has 1 = true) ∧
      (p256Verify (if q.bits 4 7 0 = 255 then q.bytes 13 64 else (t.keySlot (q.bits 4 7 0)).pub) (q.bytes 5 32) (q.bytes 29 64) = false)) ∧
    (∃ (s t : State) (dt : Nat) (q : Req) (role : Nat),
      Admitted (s.advance dt) q 1538 13 0 1 true t role ∧ BitVec.getLsbD (q.w 4) 8 = false ∧ q.bits 4 7 0 ≤ 127 ∧
      ReplyFits t q (keyWords q.carriage (t.keySlot (q.bits 4 7 0)))) ∧
    (∃ (s t : State) (dt : Nat) (q : Req) (role : Nat),
      Admitted (s.advance dt) q 1538 13 0 1 true t role ∧ BitVec.getLsbD (q.w 4) 8 = true ∧ q.bits 4 7 0 ≤ 127 ∧
      4 ≤ q.payload.length ∧ 2 ≤ role ∧ (t.keySlot (q.bits 4 7 0)).usable = true ∧ (t.keySlot (q.bits 4 7 0)).has 9 = true ∧
      q.bits 4 23 16 ≤ 127 ∧ (t.keySlot (q.bits 4 23 16)).usable = true ∧ (t.keySlot (q.bits 4 23 16)).has 5 = true ∧
      (t.keySlot (q.bits 4 23 16)).has 2 = true ∧
      ReplyFits t q (keyWords q.carriage (t.keySlot (q.bits 4 7 0)) ++ q.carriage.pack (List.take 12 t.draw.2 ++
          (gcmSeal (wrapKey (t.keySlot (q.bits 4 23 16)).material (leBytes 8 (q.dw 6)) (q.bits 5 7 0) (t.keySlot (q.bits 4 7 0)).ty) (List.take 12 t.draw.2) (List.map (Config.exportData (q.bits 4 7 0) (q.bits 5 7 0) (BitVec.ofNat 64 (q.dw 6))) (List.range 32)) (t.keySlot (q.bits 4 7 0)).secret).1 ++ (gcmSeal (wrapKey (t.keySlot (q.bits 4 23 16)).material (leBytes 8 (q.dw 6)) (q.bits 5 7 0) (t.keySlot (q.bits 4 7 0)).ty) (List.take 12 t.draw.2) (List.map (Config.exportData (q.bits 4 7 0) (q.bits 5 7 0) (BitVec.ofNat 64 (q.dw 6))) (List.range 32)) (t.keySlot (q.bits 4 7 0)).secret).2))) ∧
    (∃ (s t : State) (dt : Nat) (q : Req) (role : Nat),
      Admitted (s.advance dt) q 1541 13 0 3 true t role ∧ (q.w 6).toNat % 4 = 0 ∧ 4 ≤ (q.w 6).toNat ∧ (q.w 6).toNat ≤ 4096 ∧
      (q.w 5).toNat ≤ Config.certLength (q.bits 4 0 0) ∧
      (ReplyFits t q ([BitVec.ofNat 32 (Config.certLength (q.bits 4 0 0)),
          BitVec.ofNat 32 (min ((q.w 6).toNat) (Config.certLength (q.bits 4 0 0) - (q.w 5).toNat))] ++
          q.carriage.pack (List.map (fun i => Config.certByte (q.bits 4 0 0) ((q.w 5).toNat + i)) (List.range (min ((q.w 6).toNat) (Config.certLength (q.bits 4 0 0) - (q.w 5).toNat))))))) ∧
    (∃ (s t : State) (dt : Nat) (q : Req) (role : Nat),
      Admitted (s.advance dt) q 1542 13 0 0 true t role) :=
  ⟨
     ⟨inSafe sSign, inSafe sSign, 0, qSign 0, 1,
       ⟨by decide +kernel, by decide +kernel, rfl, by decide +kernel⟩,
       by decide +kernel⟩,
     ⟨sSign, sSign, 0, qSign 6, 1,
       ⟨by decide +kernel, by decide +kernel, rfl, by decide +kernel⟩,
       by decide +kernel,
       by decide +kernel,
       by decide +kernel,
       by decide +kernel,
       by decide +kernel,
       by decide +kernel,
       by decide +kernel⟩,
     ⟨sVault, sVault, 0, qVerify 0xFF, 0,
       ⟨by decide +kernel, by decide +kernel, rfl, by decide +kernel⟩,
       by decide +kernel,
       by decide +kernel⟩,
     ⟨sVault, sVault, 0, qVerifyBad, 0,
       ⟨by decide +kernel, by decide +kernel, rfl, by decide +kernel⟩,
       by decide +kernel,
       by decide +kernel⟩,
     ⟨sVault, sVault, 0, pub [2], 0,
       ⟨by decide +kernel, by decide +kernel, rfl, by decide +kernel⟩,
       by decide +kernel,
       by decide +kernel,
       by decide +kernel⟩,
     ⟨withOwner sWrap, tWrap, 0, ownExport, 2,
       ⟨by decide +kernel, by decide +kernel, Prod.ext rfl (by decide +kernel), by decide +kernel⟩,
       by decide +kernel,
       by decide +kernel,
       by decide +kernel,
       by decide +kernel,
       by decide +kernel,
       by decide +kernel,
       by decide +kernel,
       by decide +kernel,
       by decide +kernel,
       by decide +kernel,
       by decide +kernel⟩,
     ⟨sVault, sVault, 0, pub [0, 0, 4], 0,
       ⟨by decide +kernel, by decide +kernel, rfl, by decide +kernel⟩,
       by decide +kernel,
       by decide +kernel,
       by decide +kernel,
       by decide +kernel,
       fits_short _ _ _ _ (Nat.min_le_left _ _)⟩,
     ⟨sVault, sVault, 0, pub [], 0,
       ⟨by decide +kernel, by decide +kernel, rfl, by decide +kernel⟩⟩⟩

/-- The hypotheses of each clause of `TamperLatches` are met. -/
theorem witness_TamperLatches :
    (∃ (s a : State) (dt src : Nat),
      s.advance dt = a ∧ src ≠ 11 ∧ a.tamperWatched src = false) ∧
    (∃ (s a : State) (dt src : Nat),
      s.advance dt = a ∧ src ≠ 11 ∧ a.tamperWatched src = true ∧ a.up = true ∧ a.pwr.pfw = false) ∧
    (∃ (s a : State) (dt src : Nat),
      s.advance dt = a ∧ src ≠ 11 ∧ a.powered = true) ∧
    (∃ (s a : State) (dt src : Nat),
      s.advance dt = a ∧ src ≠ 11 ∧ a.pwr.dev ≠ DevState.boot) ∧
    (∃ (s a : State) (dt src : Nat),
      s.advance dt = a ∧ src ≠ 11 ∧ a.pwr.dev = DevState.boot) ∧
    (∃ (s a : State) (dt src : Nat),
      s.advance dt = a ∧ src ≠ 11) :=
  ⟨
     ⟨cfg, cfg, 0, 0,
       rfl,
       by decide +kernel,
       by decide +kernel⟩,
     ⟨keyed run, keyed run, 0, 7,
       rfl,
       by decide +kernel,
       by decide +kernel,
       by decide +kernel,
       by decide +kernel⟩,
     ⟨run, run, 0, 7,
       rfl,
       by decide +kernel,
       by decide +kernel⟩,
     ⟨run, run, 0, 7,
       rfl,
       by decide +kernel,
       by decide +kernel⟩,
     ⟨keyed State.reset, keyed State.reset, 0, 7,
       rfl,
       by decide +kernel,
       by decide +kernel⟩,
     ⟨run, run, 0, 7,
       rfl,
       by decide +kernel⟩⟩

/-- The hypotheses of each clause of `ConvertersAndFiltersRun` are met. -/
theorem witness_ConvertersAndFiltersRun :
    (∃ (s a : State) (dt : Nat) (codes : List Int),
      s.advance dt = a ∧ a.converting = true ∧ a.now % 1000 = 0 ∧ codes.length ≤ 24) ∧
    (∃ (s a : State) (dt : Nat) (codes : List Int) (code : Int),
      s.advance dt = a ∧ a.converting = true ∧ a.now % 1000 = 0 ∧ codes[24]? = some code) ∧
    (∃ (s a : State) (dt c : Nat) (code : Int),
      s.advance dt = a ∧ a.chopAt c a.now = false ∧ (code ≤ -32768 ∨ 32767 ≤ code)) ∧
    (∃ (s a : State) (dt : Nat),
      s.advance dt = a ∧ a.now % 1000 ≠ 0) ∧
    (∃ (s a : State) (dt : Nat) (z : Nat × AuxEntry × Nat),
      s.advance dt = a ∧ a.converting = true ∧ a.now % 1000000 = 0 ∧
      (List.find? (fun z => z.2.2 * 1000000 == a.auxPlace a.now) a.auxCycle = some z)) ∧
    (∃ (s a : State) (dt land : Nat),
      s.advance dt = a ∧ a.converting = true ∧ a.now % 1000 = 0 ∧ a.chopAt land a.now = true ∧ (a.ow land).last ≠ some a.now) ∧
    (∃ (s a : State) (dt land : Nat),
      s.advance dt = a ∧ a.converting = true ∧ a.now % 1000 = 0 ∧ a.chopAt land a.now = true ∧ (a.ow land).last = some a.now) ∧
    (∃ (s a : State) (dt x : Nat),
      s.advance dt = a ∧ a.converting = true ∧ a.parB Par.CNV.CAL_ENABLE 0 = true ∧ a.sliceState x = 1 ∧
      a.cnv.cycle.get? x = none ∧ a.failedSlices < 2 ∧ a.cnv.calAt.get? x = none ∧ (∀ d ∈ a.ctl.drain, d.1 ≠ 5)) ∧
    (∃ (s a : State) (dt x : Nat) (c : Cal) (n : Nat) (m k : Int),
      s.advance dt = a ∧ a.converting = true ∧ a.cnv.cycle.get? x = some c ∧ c.at_ + 1024000 ≤ a.now ∧ 512 ≤ n ∧
      m.natAbs ≤ 32 ∧ k.natAbs ≤ 128 ∧ x ≠ c.slice ∧ c.step = 1) ∧
    (∃ (s a : State) (dt x : Nat) (c : Cal) (n : Nat) (m k : Int),
      s.advance dt = a ∧ a.converting = true ∧ a.cnv.cycle.get? x = some c ∧ c.at_ + 1024000 ≤ a.now ∧ 512 ≤ n ∧
      m.natAbs ≤ 32 ∧ k.natAbs ≤ 128 ∧ x ≠ c.slice ∧ c.step = 4) ∧
    (∃ (s a : State) (dt x : Nat) (c : Cal) (slice : Nat) (off : Int) (gain : Word),
      s.advance dt = a ∧ a.converting = true ∧
      (List.find? (fun z => z.2.step == 3 && decide (z.2.at_ + 4500000000 ≤ a.now) && if z.2.selfCal = true then z.1 == slice else z.2.slice == slice) a.cnv.cycle = some (x, c)) ∧
      off.natAbs ≤ 4096 ∧ (FVal.ofRat 2000).lt (f32Val gain).abs = false ∧ f32IsNan gain = false) ∧
    (∃ (s a : State) (dt : Nat),
      s.advance dt = a ∧ a.converting = false) ∧
    (∃ (s a : State) (dt c : Nat) (d : OutDue),
      s.advance dt = a ∧ a.up = true ∧ a.runs 6 = true ∧ a.parN Par.FLT.BANK c ≠ (a.flt_ c).active ∧
      a.bankDue c (a.parN Par.FLT.BANK c) a.now = some d ∧
      ((if a.parN Par.FLT.BANK c = 1 then (a.flt_ c).sinceB else (a.flt_ c).since) ≤ d.first) ∧
      ((List.filter (fun y => decide (d.first ≤ y.t) && decide (y.t < a.now)) (a.flt_ c).hist).length = (a.now - d.first) / 1000)) ∧
    (∃ (s a : State) (dt c : Nat),
      s.advance dt = a ∧ a.up = true ∧ a.runs 6 = true ∧ a.parN Par.FLT.BANK c = (a.flt_ c).active) ∧
    (∃ (s a : State) (dt src tau : Nat) (d : SrcDef),
      s.advance dt = a ∧ a.up = true ∧ a.runs 6 = true ∧ a.srcDef src = some d ∧ d.kind = 5 ∧ a.runs 3 = true ∧
      isGrid d.rate tau = true ∧ tau ≤ a.now ∧ (a.src src).definedAt ≤ tau ∧
      (Option.all (fun r => decide (r < tau)) (a.src src).reported = true)) ∧
    (∃ (s a : State) (dt src tau : Nat) (d : SrcDef) (r : Nat),
      s.advance dt = a ∧ a.up = true ∧ a.runs 6 = true ∧ a.srcDef src = some d ∧ d.kind = 5 ∧ a.runs 3 = true ∧
      isGrid d.rate tau = true ∧ (a.src src).reported = some r ∧ tau ≤ r) :=
  ⟨
     ⟨run, run, 0, [1, -32768],
       rfl,
       by decide +kernel,
       by decide +kernel,
       by decide +kernel⟩,
     ⟨run, run, 0, List.replicate 25 1, 1,
       rfl,
       by decide +kernel,
       by decide +kernel,
       by decide +kernel⟩,
     ⟨run, run, 0, 23, 32767,
       rfl,
       by decide +kernel,
       by decide +kernel⟩,
     ⟨run, run.advance 1, 1,
       rfl,
       by decide +kernel⟩,
     ⟨run, run, 0, (0, run.auxEntryOf 0, 0),
       rfl,
       by decide +kernel,
       by decide +kernel,
       by decide +kernel⟩,
     ⟨sChop none, sChop none, 0, 0,
       rfl,
       by decide +kernel,
       by decide +kernel,
       by decide +kernel,
       by decide +kernel⟩,
     ⟨sChop (some 1000), sChop (some 1000), 0, 0,
       rfl,
       by decide +kernel,
       by decide +kernel,
       by decide +kernel,
       by decide +kernel⟩,
     ⟨sCalOn, sCalOn, 0, 25,
       rfl,
       by decide +kernel,
       by decide +kernel,
       by decide +kernel,
       by decide +kernel,
       by decide +kernel,
       by decide +kernel,
       by decide +kernel⟩,
     ⟨sCal 1 3 false, sDue1 1 3, 60*sec, 25, calOf 1 3 false, 512, -32, 128,
       rfl,
       by decide +kernel,
       by decide +kernel,
       by decide +kernel,
       by decide +kernel,
       by decide +kernel,
       by decide +kernel,
       by decide +kernel,
       by decide +kernel⟩,
     ⟨sCal 4 3 false, sDue1 4 3, 60*sec, 25, calOf 4 3 false, 512, -32, 128,
       rfl,
       by decide +kernel,
       by decide +kernel,
       by decide +kernel,
       by decide +kernel,
       by decide +kernel,
       by decide +kernel,
       by decide +kernel,
       by decide +kernel⟩,
     ⟨sCal 3 3 false, sDue1 3 3, 60*sec, 25, calOf 3 3 false, 3, -4096, 0x44FA0000,
       rfl,
       by decide +kernel,
       by decide +kernel,
       by decide +kernel,
       by decide +kernel,
       by decide +kernel⟩,
     ⟨State.reset, State.reset, 0,
       rfl,
       by decide +kernel⟩,
     ⟨sBankB, sBankB, 0, 3, { stamp := 0, first := 0 },
       rfl,
       by decide +kernel,
       by decide +kernel,
       by decide +kernel,
       by decide +kernel,
       by decide +kernel,
       by decide +kernel⟩,
     ⟨run, run, 0, 24,
       rfl,
       by decide +kernel,
       by decide +kernel,
       by decide +kernel⟩,
     ⟨sLocal srcNew, (sLocal srcNew).advance 20000000, 20000000, 5, 20000000, dLocal,
       rfl,
       by decide +kernel,
       by decide +kernel,
       by decide +kernel,
       by decide +kernel,
       by decide +kernel,
       by decide +kernel,
       by decide +kernel,
       by decide +kernel,
       by decide +kernel⟩,
     ⟨sLocal srcSent, (sLocal srcSent).advance 20000000, 20000000, 5, 20000000, dLocal, 20000000,
       rfl,
       by decide +kernel,
       by decide +kernel,
       by decide +kernel,
       by decide +kernel,
       by decide +kernel,
       by decide +kernel,
       by decide +kernel,
       by decide +kernel⟩⟩

/-- The hypotheses of each clause of `RecordersRunBetweenCommands` are met. -/
theorem witness_RecordersRunBetweenCommands :
    (∃ (s a : State) (dt n row : Nat) (es : List Entry),
      s.advance dt = a ∧ a.capRuns = true ∧ a.capKind n ≠ 0 ∧ 2 ≤ (a.recorder n).st ∧ (a.recorder n).st ≤ 5 ∧
      a.rowEntries n row = some es ∧ (Option.any (fun l => decide (row ≤ l)) (a.recorder n).lastRow = true)) ∧
    (∃ (s a : State) (dt n row : Nat) (es : List Entry),
      s.advance dt = a ∧ a.capRuns = true ∧ a.capKind n ≠ 0 ∧ 2 ≤ (a.recorder n).st ∧ (a.recorder n).st ≤ 5 ∧
      a.rowEntries n row = some es ∧ (Option.any (fun l => decide (row ≤ l)) (a.recorder n).lastRow = false)) ∧
    (∃ (s a : State) (dt n row : Nat),
      s.advance dt = a ∧ a.capRuns = true ∧ ((a.recorder n).st < 2 ∨ 5 < (a.recorder n).st ∨ a.rowEntries n row = none)) ∧
    (∃ (s a : State) (dt land : Nat),
      s.advance dt = a ∧ a.capRuns = true ∧ land < 8) ∧
    (∃ (s a : State) (dt n : Nat),
      s.advance dt = a ∧ a.capRuns = true ∧ a.parN Par.CAP.AUTO_TIMEOUT_MS n ≠ 0 ∧
      ((a.recorder n).st = 2 ∨ (a.recorder n).st = 3) ∧ (a.recorder n).waiting = [] ∧
      (a.recorder n).autoAt + 1000000 * a.parN Par.CAP.AUTO_TIMEOUT_MS n ≤ a.now) ∧
    (∃ (s a : State) (dt n : Nat),
      s.advance dt = a ∧ a.capRuns = true ∧ a.parN Par.CAP.AUTO_TIMEOUT_MS n ≠ 0 ∧
      ((a.recorder n).st = 2 ∨ (a.recorder n).st = 3) ∧ (a.recorder n).waiting = [] ∧
      a.now < (a.recorder n).autoAt + 1000000 * a.parN Par.CAP.AUTO_TIMEOUT_MS n) ∧
    (∃ (s a : State) (dt n : Nat),
      s.advance dt = a ∧ a.capRuns = true ∧ (a.recorder n).st = 5 ∧
      (a.recorder n).rearmAt + 1000000 * a.parN Par.CAP.REARM_MS n ≤ a.now) ∧
    (∃ (s a : State) (dt n : Nat),
      s.advance dt = a ∧ a.capRuns = true ∧ (a.recorder n).st = 5 ∧
      a.now < (a.recorder n).rearmAt + 1000000 * a.parN Par.CAP.REARM_MS n) :=
  ⟨
     ⟨sCapPod (some 0), sCapPod (some 0), 0, 0, 0, [],
       rfl,
       by decide +kernel,
       by decide +kernel,
       by decide +kernel,
       by decide +kernel,
       by decide +kernel,
       by decide +kernel⟩,
     ⟨sCapPod none, sCapPod none, 0, 0, 0, [],
       rfl,
       by decide +kernel,
       by decide +kernel,
       by decide +kernel,
       by decide +kernel,
       by decide +kernel,
       by decide +kernel⟩,
     ⟨sCap (rec0 6 []), sCap (rec0 6 []), 0, 0, 5,
       rfl,
       by decide +kernel,
       by decide +kernel⟩,
     ⟨run, run, 0, 7,
       rfl,
       by decide +kernel,
       by decide +kernel⟩,
     ⟨sAuto 0, (sAuto 0).advance 1000000, 1000000, 0,
       rfl,
       by decide +kernel,
       by decide +kernel,
       by decide +kernel,
       by decide +kernel,
       by decide +kernel⟩,
     ⟨sAuto 0, (sAuto 0).advance 999999, 999999, 0,
       rfl,
       by decide +kernel,
       by decide +kernel,
       by decide +kernel,
       by decide +kernel,
       by decide +kernel⟩,
     ⟨sCap (rec0 5 []), (sCap (rec0 5 [])).advance (3600*sec), 3600*sec, 0,
       rfl,
       by decide +kernel,
       by decide +kernel,
       by decide +kernel⟩,
     ⟨withPar (sCap (rec0 5 [])) Par.CAP.REARM_MS 0 1, withPar (sCap (rec0 5 [])) Par.CAP.REARM_MS 0 1, 0, 0,
       rfl,
       by decide +kernel,
       by decide +kernel,
       by decide +kernel⟩⟩

/-- The hypotheses of each clause of `RecordersTakeTheirCommands` are met. -/
theorem witness_RecordersTakeTheirCommands :
    (∃ (s t : State) (dt : Nat) (q : Req) (role : Nat),
      Admitted (s.advance dt) q 1024 11 1 0 true t role ∧ t.measuring = true ∧ t.capKind (q.bits 4 2 0) ≠ 0 ∧
      (t.recorder (q.bits 4 2 0)).st ≤ 1 ∧ 4 ≤ q.payload.length ∧
      ((fun k => if t.capMode (q.bits 4 2 0) = 2 then 0 else BitVec.toNat (q.w k)) 5 + 1 + (fun k => if t.capMode (q.bits 4 2 0) = 2 then 0 else BitVec.toNat (q.w k)) 6 ≤ t.capCapacity (q.bits 4 2 0)) ∧
      (t.capMode (q.bits 4 2 0) = 1 →
          rowsHeld (t.recorder (q.bits 4 2 0)).recs + ((fun k => if t.capMode (q.bits 4 2 0) = 2 then 0 else BitVec.toNat (q.w k)) 5 + 1 + (fun k => if t.capMode (q.bits 4 2 0) = 2 then 0 else BitVec.toNat (q.w k)) 6) ≤ t.capCapacity (q.bits 4 2 0) ∧ (t.recorder (q.bits 4 2 0)).recs.length < 512)) ∧
    (∃ (s t : State) (dt : Nat) (q : Req) (role : Nat),
      Admitted (s.advance dt) q 1024 11 1 0 true t role ∧ (t.measuring = false ∨ 2 ≤ (t.recorder (q.bits 4 2 0)).st)) ∧
    (∃ (s t : State) (dt : Nat) (q : Req) (role : Nat),
      Admitted (s.advance dt) q 1025 11 1 1 true t role) ∧
    (∃ (s t : State) (dt : Nat) (q : Req) (role : Nat),
      Admitted (s.advance dt) q 1026 11 1 1 true t role) ∧
    (∃ (s t : State) (dt : Nat) (q : Req) (role : Nat),
      Admitted (s.advance dt) q 1030 11 1 0 true t role ∧ t.capMode (q.bits 4 2 0) ≠ 2 ∧ 2 ≤ q.payload.length ∧
      (∃ c ∈ (t.recorder (q.bits 4 2 0)).recs, c.id = (q.w 5).toNat) ∧
      (¬((t.recorder (q.bits 4 2 0)).st = 6 ∧
          rowsHeld (List.filter (fun c => decide ((q.w 5).toNat < c.id)) (t.recorder (q.bits 4 2 0)).recs) + ((t.recorder (q.bits 4 2 0)).pre + 1 + (t.recorder (q.bits 4 2 0)).post) ≤ t.capCapacity (q.bits 4 2 0)))) ∧
    (∃ (s t : State) (dt : Nat) (q : Req) (role : Nat),
      Admitted (s.advance dt) q 1030 11 1 0 true t role ∧ t.capMode (q.bits 4 2 0) ≠ 2 ∧ 2 ≤ q.payload.length ∧
      (∃ c ∈ (t.recorder (q.bits 4 2 0)).recs, c.id = (q.w 5).toNat) ∧
      ((t.recorder (q.bits 4 2 0)).st = 6 ∧
          rowsHeld (List.filter (fun c => decide ((q.w 5).toNat < c.id)) (t.recorder (q.bits 4 2 0)).recs) + ((t.recorder (q.bits 4 2 0)).pre + 1 + (t.recorder (q.bits 4 2 0)).post) ≤ t.capCapacity (q.bits 4 2 0))) ∧
    (∃ (s t : State) (dt : Nat) (q : Req) (role : Nat),
      Admitted (s.advance dt) q 1027 11 1 0 true t role ∧ q.bits 4 3 0 = 0 ∧ 1 ≤ BitVec.toNat (q.w 9) ∧
      BitVec.toNat (q.w 9) ≤ 4096 ∧ 6 ≤ q.payload.length ∧ (∃ c ∈ (t.recorder (q.bits 4 31 29)).all, c.1.id = (q.w 5).toNat) ∧
      (ReplyFits t q ([BitVec.ofNat 32 (List.take (BitVec.toNat (q.w 9)) (List.filter (fun c => decide ((q.w 5).toNat ≤ c.1.id)) (t.recorder (q.bits 4 31 29)).all)).length, BitVec.ofNat 32 ((q.w 5).toNat + (List.take (BitVec.toNat (q.w 9)) (List.filter (fun c => decide ((q.w 5).toNat ≤ c.1.id)) (t.recorder (q.bits 4 31 29)).all)).length)] ++ List.flatMap (fun c => t.recHeader (q.bits 4 31 29) c.1 c.2) (List.take (BitVec.toNat (q.w 9)) (List.filter (fun c => decide ((q.w 5).toNat ≤ c.1.id)) (t.recorder (q.bits 4 31 29)).all))))) ∧
    (∃ (s t : State) (dt : Nat) (q : Req) (role : Nat),
      Admitted (s.advance dt) q 1027 11 1 0 true t role ∧ q.bits 4 3 0 = 4 ∧ t.capMode (q.bits 4 31 29) = 2 ∧
      6 ≤ q.payload.length ∧ 1 ≤ BitVec.toNat (q.w 9) ∧ BitVec.toNat (q.w 9) ≤ 4096 ∧ gtfValid (q.dw 6) = true ∧
      (ReplyFits t q ([BitVec.ofNat 32 (List.take (BitVec.toNat (q.w 9)) (List.drop (BitVec.toNat (q.w 8)) (List.filter (fun x => decide (q.dw 6 ≤ gtfOf x.t)) (t.rollRows (q.bits 4 31 29))))).length, BitVec.ofNat 32 (BitVec.toNat (q.w 8) + (List.take (BitVec.toNat (q.w 9)) (List.drop (BitVec.toNat (q.w 8)) (List.filter (fun x => decide (q.dw 6 ≤ gtfOf x.t)) (t.rollRows (q.bits 4 31 29))))).length)] ++ List.flatMap CapRow.words (List.take (BitVec.toNat (q.w 9)) (List.drop (BitVec.toNat (q.w 8)) (List.filter (fun x => decide (q.dw 6 ≤ gtfOf x.t)) (t.rollRows (q.bits 4 31 29)))))))) ∧
    (∃ (s t : State) (dt : Nat) (q : Req) (role : Nat),
      Admitted (s.advance dt) q 1028 11 1 0 true t role ∧ t.capMode (q.bits 4 31 29) = 2 ∧ 3 ≤ q.payload.length ∧
      BitVec.getLsbD (q.w 4) 8 = true) ∧
    (∃ (s t : State) (dt : Nat) (q : Req) (role : Nat),
      Admitted (s.advance dt) q 1028 11 1 0 true t role ∧ t.capMode (q.bits 4 31 29) = 2 ∧ 3 ≤ q.payload.length ∧
      BitVec.getLsbD (q.w 4) 8 = false ∧ gtfValid (q.dw 5) = true) ∧
    (∃ (s t : State) (dt : Nat) (q : Req) (role : Nat) (c : CapRec) (rows : List CapRow),
      Admitted (s.advance dt) q 1029 11 1 0 true t role ∧ t.capMode (q.bits 4 31 29) ≠ 2 ∧ 4 ≤ q.payload.length ∧
      4 ≤ BitVec.toNat (q.w 7) ∧ BitVec.toNat (q.w 7) ≤ 60000 ∧ BitVec.toNat (q.w 7) % 4 = 0 ∧
      (List.find? (fun c => c.id == (q.w 5).toNat) (t.recorder (q.bits 4 31 29)).recs = some c) ∧
      t.sectionRows (q.bits 4 31 29) c (q.bits 4 3 0) = some rows ∧
      (ReplyFits t q ([BitVec.ofNat 32 (if BitVec.getLsbD (q.w 4) 4 = true then t.datFile (q.bits 4 31 29) rows else t.cfgFile (q.bits 4 31 29) c (q.bits 4 3 0) rows).length, BitVec.ofNat 32 (List.take (BitVec.toNat (q.w 7)) (List.drop ((q.w 6).toNat) (if BitVec.getLsbD (q.w 4) 4 = true then t.datFile (q.bits 4 31 29) rows else t.cfgFile (q.bits 4 31 29) c (q.bits 4 3 0) rows))).length] ++ q.carriage.pack (List.take (BitVec.toNat (q.w 7)) (List.drop ((q.w 6).toNat) (if BitVec.getLsbD (q.w 4) 4 = true then t.datFile (q.bits 4 31 29) rows else t.cfgFile (q.bits 4 31 29) c (q.bits 4 3 0) rows)))))) :=
  ⟨
     ⟨sRoom 0, sRoom 0, 0, opr [0, 0, 0, 0], 1,
       ⟨by decide +kernel, by decide +kernel, rfl, by decide +kernel⟩,
       by decide +kernel,
       by decide +kernel,
       by decide +kernel,
       by decide +kernel,
       by decide +kernel,
       by decide +kernel⟩,
     ⟨sRoom 2, sRoom 2, 0, opr [0, 0, 0, 0], 1,
       ⟨by decide +kernel, by decide +kernel, rfl, by decide +kernel⟩,
       by decide +kernel⟩,
     ⟨sCap (recHeld 4), sCap (recHeld 4), 0, opr [0], 1,
       ⟨by decide +kernel, by decide +kernel, rfl, by decide +kernel⟩⟩,
     ⟨sCap (rec0 3 []), sCap (rec0 3 []), 0, opr [0xFF], 1,
       ⟨by decide +kernel, by decide +kernel, rfl, by decide +kernel⟩⟩,
     ⟨sCap (recHeld 3), sCap (recHeld 3), 0, opr [0, 2], 1,
       ⟨by decide +kernel, by decide +kernel, rfl, by decide +kernel⟩,
       by decide +kernel,
       by decide +kernel,
       by decide +kernel,
       by decide +kernel⟩,
     ⟨sRecFull, sRecFull, 0, opr [0, 1], 1,
       ⟨by decide +kernel, by decide +kernel, rfl, by decide +kernel⟩,
       by decide +kernel,
       by decide +kernel,
       by decide +kernel,
       by decide +kernel⟩,
     ⟨sRaw, sRaw, 0, opr [0, 1, 0, 0, 0, 4096], 1,
       ⟨by decide +kernel, by decide +kernel, rfl, by decide +kernel⟩,
       by decide +kernel,
       by decide +kernel,
       by decide +kernel,
       by decide +kernel,
       by decide +kernel,
       by decide +kernel⟩,
     ⟨sRollRow, sRollRow, 0, opr [4, 0, 0, 0, 0, 4096], 1,
       ⟨by decide +kernel, by decide +kernel, rfl, by decide +kernel⟩,
       by decide +kernel,
       by decide +kernel,
       by decide +kernel,
       by decide +kernel,
       by decide +kernel,
       by decide +kernel,
       by decide +kernel⟩,
     ⟨sRoll, sRoll, 0, opr [0x103, 0, 0], 1,
       ⟨by decide +kernel, by decide +kernel, rfl, by decide +kernel⟩,
       by decide +kernel,
       by decide +kernel,
       by decide +kernel⟩,
     ⟨sRollRow, sRollRow, 0, opr [3, 0, 0], 1,
       ⟨by decide +kernel, by decide +kernel, rfl, by decide +kernel⟩,
       by decide +kernel,
       by decide +kernel,
       by decide +kernel,
       by decide +kernel⟩,
     ⟨sRaw, sRaw, 0, opr [0, 2, 0, 60000], 1, capRec 2, [row 7],
       ⟨by decide +kernel, by decide +kernel, rfl, by decide +kernel⟩,
       by decide +kernel,
       by decide +kernel,
       by decide +kernel,
       by decide +kernel,
       by decide +kernel,
       by decide +kernel,
       by decide +kernel,
       by decide +kernel⟩⟩

/-- The hypotheses of each clause of `ScansAndStationsKeepTheirTimes` are met. -/
theorem witness_ScansAndStationsKeepTheirTimes :
    (∃ (s a : State) (dt : Nat),
      s.advance dt = a ∧ a.lgcDue = true) ∧
    (∃ (s a : State) (dt : Nat),
      s.advance dt = a ∧ a.lgcDue = false) ∧
    (∃ (s a : State) (dt : Nat) (im : Image),
      s.advance dt = a ∧ a.lgc.image = some im ∧ a.lgc.st = 2 ∧ a.lgc.scanning = true ∧ a.lgc.stopReq = none ∧
      a.lgc.suspend = false) ∧
    (∃ (s a : State) (dt : Nat) (im : Image) (cb : Nat) (g : GoosePub),
      s.advance dt = a ∧ a.lgc.image = some im ∧ a.lgc.goose.get? cb = some g ∧ a.lgc.st = 2 ∧ g.on = true ∧
      BitVec.getLsbD ((a.par Par.LGC.GOOSE_CB cb).getD 0 0) 31 = true ∧ g.nextAt ≤ a.now) ∧
    (∃ (s a : State) (dt : Nat) (im : Image) (cb : Nat) (g : GoosePub),
      s.advance dt = a ∧ a.lgc.image = some im ∧ a.lgc.goose.get? cb = some g ∧ a.lgc.st = 2 ∧ g.on = true ∧
      BitVec.getLsbD ((a.par Par.LGC.GOOSE_CB cb).getD 0 0) 31 = true ∧ a.now < g.nextAt) ∧
    (∃ (s a : State) (dt src : Nat),
      s.advance dt = a ∧ a.lgc.st = 2 ∧ a.lgc.lastW = some a.now ∧ a.parN Par.LGC.STATION_REFRESH_MS 0 ≠ 0 ∧
      (a.station src).st ≠ 0 ∧
      (Option.all (fun t => decide (t + 1000000 * a.parN Par.LGC.STATION_REFRESH_MS 0 ≤ a.now)) (a.station src).sentAt = true) ∧
      (a.station src).st ≠ 2) ∧
    (∃ (s a : State) (dt src : Nat),
      s.advance dt = a ∧ a.lgc.st = 2 ∧ a.lgc.lastW = some a.now ∧ a.parN Par.LGC.STATION_REFRESH_MS 0 ≠ 0 ∧
      (a.station src).st ≠ 0 ∧
      (Option.all (fun t => decide (t + 1000000 * a.parN Par.LGC.STATION_REFRESH_MS 0 ≤ a.now)) (a.station src).sentAt = true) ∧
      (a.station src).st = 2) ∧
    (∃ (s a : State) (dt src : Nat),
      s.advance dt = a ∧ a.lgc.st = 2 ∧ a.lgc.lastW = some a.now ∧ a.parN Par.LGC.STATION_REFRESH_MS 0 ≠ 0 ∧
      (a.station src).st ≠ 0 ∧
      (Option.all (fun t => decide (t + 1000000 * a.parN Par.LGC.STATION_REFRESH_MS 0 ≤ a.now)) (a.station src).sentAt = false)) ∧
    (∃ (s a : State) (dt src t : Nat),
      s.advance dt = a ∧ a.lgc.st = 2 ∧ (a.station src).waiting = true ∧ ((a.station src).st = 1 ∨ (a.station src).st = 3) ∧
      (a.station src).sentAt = some t ∧ a.now < t + 1000000 * a.parN Par.LGC.ACK_TIMEOUT_MS 0) ∧
    (∃ (s a : State) (dt src t : Nat),
      s.advance dt = a ∧ a.lgc.st = 2 ∧ (a.station src).waiting = true ∧ ((a.station src).st = 1 ∨ (a.station src).st = 3) ∧
      (a.station src).sentAt = some t ∧ t + 1000000 * a.parN Par.LGC.ACK_TIMEOUT_MS 0 ≤ a.now ∧
      (a.station src).unacked + 1 < a.parN Par.LGC.ACK_RETRIES 0) ∧
    (∃ (s a : State) (dt src t : Nat),
      s.advance dt = a ∧ a.lgc.st = 2 ∧ (a.station src).waiting = true ∧ ((a.station src).st = 1 ∨ (a.station src).st = 3) ∧
      (a.station src).sentAt = some t ∧ t + 1000000 * a.parN Par.LGC.ACK_TIMEOUT_MS 0 ≤ a.now ∧
      a.parN Par.LGC.ACK_RETRIES 0 ≤ (a.station src).unacked + 1) ∧
    (∃ (s a : State) (dt src port : Nat) (l : List Byte) (d : SrcDef),
      s.advance dt = a ∧ a.ingRuns = true ∧ ocfParses l = true ∧ fld l 1 1 = 2 ∧
      (a.takeWords port).1.identify 3 (beBytes 4 (fld l 8 4)) = some (src, d) ∧ fld l 4 2 = l.length ∧
      (l.length = 24 + 12 * fld l 6 2 + if (fld l 3 1 % 2 == 1) = true then 16 else 0) ∧
      (a.takeWords port).1.ocfTag d l (fld l 3 1 % 2 == 1) = false) ∧
    (∃ (s a : State) (dt src port : Nat) (l : List Byte) (d : SrcDef),
      s.advance dt = a ∧ a.ingRuns = true ∧ ocfParses l = true ∧ fld l 1 1 = 2 ∧
      (a.takeWords port).1.identify 3 (beBytes 4 (fld l 8 4)) = some (src, d) ∧ fld l 4 2 = l.length ∧
      (l.length = 24 + 12 * fld l 6 2 + if (fld l 3 1 % 2 == 1) = true then 16 else 0) ∧
      (a.takeWords port).1.ocfTag d l (fld l 3 1 % 2 == 1) = true ∧ (a.takeWords port).1.runs 10 = true ∧
      ((a.takeWords port).1.station src).st ≠ 0 ∧ fld l 22 2 = ((a.takeWords port).1.station src).seq ∧
      ((a.takeWords port).1.station src).waiting = true) :=
  ⟨
     ⟨sLgc 2 0 false, sLgc 2 0 false, 0,
       rfl,
       by decide +kernel⟩,
     ⟨run, run, 0,
       rfl,
       by decide +kernel⟩,
     ⟨sLgc 2 0 true, sLgc 2 0 true, 0, im1,
       rfl,
       by decide +kernel,
       by decide +kernel,
       by decide +kernel,
       by decide +kernel,
       by decide +kernel⟩,
     ⟨sGoose 0, sGoose 0, 0, im1, 1, gooseOf 0,
       rfl,
       by decide +kernel,
       by decide +kernel,
       by decide +kernel,
       by decide +kernel,
       by decide +kernel,
       by decide +kernel⟩,
     ⟨sGoose 1, sGoose 1, 0, im1, 1, gooseOf 1,
       rfl,
       by decide +kernel,
       by decide +kernel,
       by decide +kernel,
       by decide +kernel,
       by decide +kernel,
       by decide +kernel⟩,
     ⟨sStationAt (station 1 0 false 0) (60000 * 1000000), sStationAt (station 1 0 false 0) (60000 * 1000000), 0, 5,
       rfl,
       by decide +kernel,
       by decide +kernel,
       by decide +kernel,
       by decide +kernel,
       by decide +kernel,
       by decide +kernel⟩,
     ⟨sStationAt (station 2 0 false 0) (60000 * 1000000), sStationAt (station 2 0 false 0) (60000 * 1000000), 0, 5,
       rfl,
       by decide +kernel,
       by decide +kernel,
       by decide +kernel,
       by decide +kernel,
       by decide +kernel,
       by decide +kernel⟩,
     ⟨sStationAt (station 1 0 false 0) 0, sStationAt (station 1 0 false 0) 0, 0, 5,
       rfl,
       by decide +kernel,
       by decide +kernel,
       by decide +kernel,
       by decide +kernel,
       by decide +kernel⟩,
     ⟨sStation (station 1 0 true 0), sStation (station 1 0 true 0), 0, 5, 0,
       rfl,
       by decide +kernel,
       by decide +kernel,
       by decide +kernel,
       by decide +kernel,
       by decide +kernel⟩,
     ⟨sStation (station 1 0 true 0), (sStation (station 1 0 true 0)).advance (60*sec), 60*sec, 5, 0,
       rfl,
       by decide +kernel,
       by decide +kernel,
       by decide +kernel,
       by decide +kernel,
       by decide +kernel,
       by decide +kernel⟩,
     ⟨sStation (station 1 255 true 0), (sStation (station 1 255 true 0)).advance (60*sec), 60*sec, 5, 0,
       rfl,
       by decide +kernel,
       by decide +kernel,
       by decide +kernel,
       by decide +kernel,
       by decide +kernel,
       by decide +kernel⟩,
     ⟨sStationTag, sStationTag, 0, 5, 31, ackOf 0, dOcf 1,
       rfl,
       by decide +kernel,
       by decide +kernel,
       by decide +kernel,
       by decide +kernel,
       by decide +kernel,
       by decide +kernel,
       by decide +kernel⟩,
     ⟨sStation (station 3 2 true 0), sStation (station 3 2 true 0), 0, 5, 31, ackOf 0, dOcf 0,
       rfl,
       by decide +kernel,
       by decide +kernel,
       by decide +kernel,
       by decide +kernel,
       by decide +kernel,
       by decide +kernel,
       by decide +kernel,
       by decide +kernel,
       by decide +kernel,
       by decide +kernel,
       by decide +kernel⟩⟩

/-- The hypotheses of each clause of `LogicTakesItsCommands` are met. -/
theorem witness_LogicTakesItsCommands :
    (∃ (s t : State) (dt : Nat) (q : Req) (role : Nat),
      Admitted (s.advance dt) q 1280 10 1 0 true t role ∧ t.lgc.st = 2) ∧
    (∃ (s t : State) (dt : Nat) (q : Req) (role : Nat),
      Admitted (s.advance dt) q 1280 10 1 0 true t role ∧ t.lgc.st ≠ 2 ∧ 4 ≤ (q.w 6).toNat ∧ (q.w 6).toNat % 4 = 0 ∧
      (q.w 6).toNat ≤ 65000 ∧ (q.w 6).toNat ≤ 4 * (q.payload.length - 3) ∧
      ((q.w 4).toNat = (if (q.w 4).toNat = 0 then [] else (Option.map Prod.snd t.lgc.load).getD []).length) ∧
      ((q.w 4).toNat = 0 ∨ Option.map Prod.fst t.lgc.load = some ((q.w 5).toNat)) ∧
      (q.w 4).toNat + (q.w 6).toNat ≤ (q.w 5).toNat ∧ (q.w 5).toNat ≤ 917540 ∧
      (((if (q.w 4).toNat = 0 then [] else (Option.map Prod.snd t.lgc.load).getD []) ++
          q.bytes 7 ((q.w 6).toNat)).length < (q.w 5).toNat)) ∧
    (∃ (s t : State) (dt : Nat) (q : Req) (role r b i : Nat),
      Admitted (s.advance dt) q 1280 10 1 0 true t role ∧ t.lgc.st ≠ 2 ∧ 4 ≤ (q.w 6).toNat ∧ (q.w 6).toNat % 4 = 0 ∧
      (q.w 6).toNat ≤ 65000 ∧ (q.w 6).toNat ≤ 4 * (q.payload.length - 3) ∧
      ((q.w 4).toNat = (if (q.w 4).toNat = 0 then [] else (Option.map Prod.snd t.lgc.load).getD []).length) ∧
      ((q.w 4).toNat = 0 ∨ Option.map Prod.fst t.lgc.load = some ((q.w 5).toNat)) ∧
      (q.w 4).toNat + (q.w 6).toNat ≤ (q.w 5).toNat ∧ (q.w 5).toNat ≤ 917540 ∧
      ((q.w 5).toNat ≤ ((if (q.w 4).toNat = 0 then [] else (Option.map Prod.snd t.lgc.load).getD []) ++
          q.bytes 7 ((q.w 6).toNat)).length) ∧
      t.lgc.writing = none ∧
      (parseImage ((if (q.w 4).toNat = 0 then [] else (Option.map Prod.snd t.lgc.load).getD []) ++
          q.bytes 7 ((q.w 6).toNat)) = Except.error (r, b, i))) ∧
    (∃ (s t : State) (dt : Nat) (q : Req) (role : Nat) (im : Image),
      Admitted (s.advance dt) q 1280 10 1 0 true t role ∧ t.lgc.st ≠ 2 ∧ 4 ≤ (q.w 6).toNat ∧ (q.w 6).toNat % 4 = 0 ∧
      (q.w 6).toNat ≤ 65000 ∧ (q.w 6).toNat ≤ 4 * (q.payload.length - 3) ∧
      ((q.w 4).toNat = (if (q.w 4).toNat = 0 then [] else (Option.map Prod.snd t.lgc.load).getD []).length) ∧
      ((q.w 4).toNat = 0 ∨ Option.map Prod.fst t.lgc.load = some ((q.w 5).toNat)) ∧
      (q.w 4).toNat + (q.w 6).toNat ≤ (q.w 5).toNat ∧ (q.w 5).toNat ≤ 917540 ∧ t.up = true ∧
      ((q.w 5).toNat ≤ ((if (q.w 4).toNat = 0 then [] else (Option.map Prod.snd t.lgc.load).getD []) ++
          q.bytes 7 ((q.w 6).toNat)).length) ∧
      t.lgc.writing = none ∧
      (parseImage ((if (q.w 4).toNat = 0 then [] else (Option.map Prod.snd t.lgc.load).getD []) ++
          q.bytes 7 ((q.w 6).toNat)) = Except.ok im)) ∧
    (∃ (s : State) (dt : Nat) (q : Req) (im : Image),
      (s.advance dt).lgc.writing = some q ∧ (s.advance dt).lgc.image = some im) ∧
    (∃ (s t : State) (dt : Nat) (q : Req) (role : Nat),
      Admitted (s.advance dt) q 1281 10 1 0 true t role ∧ (t.lgc.image = none ∨ t.lgc.st = 2 ∨ t.measuring = false)) ∧
    (∃ (s t : State) (dt : Nat) (q : Req) (role : Nat) (im : Image),
      Admitted (s.advance dt) q 1281 10 1 0 true t role ∧ t.lgc.image = some im ∧ t.lgc.st ≠ 2 ∧ t.measuring = true ∧
      t.conflictsOf t true true = []) ∧
    (∃ (s t : State) (dt : Nat) (q : Req) (role : Nat),
      Admitted (s.advance dt) q 1282 10 1 0 true t role ∧ t.up = true ∧ t.lgc.st = 2 ∧ t.lgc.scanning = true ∧
      t.lgc.stopReq = none) ∧
    (∃ (s t : State) (dt : Nat) (q : Req) (role : Nat),
      Admitted (s.advance dt) q 1282 10 1 0 true t role ∧ t.lgc.st = 2 ∧ t.lgc.scanning = true ∧ t.lgc.stopReq ≠ none) ∧
    (∃ (s t : State) (dt : Nat) (q : Req) (role : Nat),
      Admitted (s.advance dt) q 1282 10 1 0 true t role ∧ (t.lgc.st = 2 ∧ t.lgc.scanning = false ∨ t.lgc.st = 3)) ∧
    (∃ (s t : State) (dt : Nat) (q : Req) (role : Nat),
      Admitted (s.advance dt) q 1282 10 1 0 true t role ∧ t.lgc.st < 2) ∧
    (∃ (s t : State) (dt : Nat) (q : Req) (role : Nat) (im : Image),
      t.lgc.image = some im ∧ Admitted (s.advance dt) q 1283 10 1 0 true t role ∧ 1 ≤ (q.w 4).toNat ∧ (q.w 4).toNat ≤ 256 ∧
      1 + 2 * (q.w 4).toNat ≤ q.payload.length ∧
      (∀ x ∈ List.map (fun l => (wordBits l 0 15 0, l.getD 1 0)) (itemsOf 2 ((q.w 4).toNat) (q.rest 5)), ∃ v,
          im.vars[x.1]? = some v ∧ v.takes x.2 = true) ∧
      List.length ({ t.lgc with forceNew := List.foldl (fun m x => m.set x.1 x.2) t.lgc.forceNew (List.map (fun l => (wordBits l 0 15 0, l.getD 1 0)) (itemsOf 2 ((q.w 4).toNat) (q.rest 5))), relNew := List.filter (fun v => !(List.map Prod.fst (List.map (fun l => (wordBits l 0 15 0, l.getD 1 0)) (itemsOf 2 ((q.w 4).toNat) (q.rest 5)))).contains v) t.lgc.relNew } : Lgc).requested ≤ 256) ∧
    (∃ (s t : State) (dt : Nat) (q : Req) (role : Nat) (im : Image),
      t.lgc.image = some im ∧ Admitted (s.advance dt) q 1283 10 1 0 true t role ∧ 1 ≤ (q.w 4).toNat ∧ (q.w 4).toNat ≤ 256 ∧
      1 + 2 * (q.w 4).toNat ≤ q.payload.length ∧
      (∀ x ∈ List.map (fun l => (wordBits l 0 15 0, l.getD 1 0)) (itemsOf 2 ((q.w 4).toNat) (q.rest 5)), ∃ v,
          im.vars[x.1]? = some v ∧ v.takes x.2 = true) ∧
      256 < List.length ({ t.lgc with forceNew := List.foldl (fun m x => m.set x.1 x.2) t.lgc.forceNew (List.map (fun l => (wordBits l 0 15 0, l.getD 1 0)) (itemsOf 2 ((q.w 4).toNat) (q.rest 5))), relNew := List.filter (fun v => !(List.map Prod.fst (List.map (fun l => (wordBits l 0 15 0, l.getD 1 0)) (itemsOf 2 ((q.w 4).toNat) (q.rest 5)))).contains v) t.lgc.relNew } : Lgc).requested) ∧
    (∃ (s t : State) (dt : Nat) (q : Req) (role : Nat) (im : Image),
      t.lgc.image = some im ∧ Admitted (s.advance dt) q 1284 10 1 0 true t role ∧ q.payload ≠ [] ∧
      (BitVec.getLsbD (q.w 4) 31 = true ∨ 1 + q.bits 4 15 0 ≤ q.payload.length)) ∧
    (∃ (s t : State) (dt : Nat) (q : Req) (role : Nat) (im : Image),
      t.lgc.image = some im ∧ Admitted (s.advance dt) q 1285 10 1 0 true t role ∧ 1 ≤ (q.w 4).toNat ∧ (q.w 4).toNat ≤ 1024 ∧
      1 + 2 * (q.w 4).toNat ≤ q.payload.length ∧
      (∀ x ∈ List.map (fun l => (wordBits l 0 31 30, wordBits l 0 15 0, l.getD 1 0)) (itemsOf 2 ((q.w 4).toNat) (q.rest 5)),
          changeFault im x = none) ∧
      (ReplyFits t q (BitVec.ofNat 32 ((if List.map (fun p => p.2.getD 0 0) (List.filter (fun p => (fun x => if x.1 = 0 then (t.lgc.requested.get? x.2.1).isSome else Option.any (fun b => b.op != 0 && (t.lgc.requested.get? b.out).isSome) im.blocks[x.2.1]?) p.1) ((List.map (fun l => (wordBits l 0 31 30, wordBits l 0 15 0, l.getD 1 0)) (itemsOf 2 ((q.w 4).toNat) (q.rest 5))).zip (itemsOf 2 ((q.w 4).toNat) (q.rest 5)))) = [] then 0 else 290) * 65536 + (List.map (fun p => p.2.getD 0 0) (List.filter (fun p => (fun x => if x.1 = 0 then (t.lgc.requested.get? x.2.1).isSome else Option.any (fun b => b.op != 0 && (t.lgc.requested.get? b.out).isSome) im.blocks[x.2.1]?) p.1) ((List.map (fun l => (wordBits l 0 31 30, wordBits l 0 15 0, l.getD 1 0)) (itemsOf 2 ((q.w 4).toNat) (q.rest 5))).zip (itemsOf 2 ((q.w 4).toNat) (q.rest 5))))).length) :: List.map (fun p => p.2.getD 0 0) (List.filter (fun p => (fun x => if x.1 = 0 then (t.lgc.requested.get? x.2.1).isSome else Option.any (fun b => b.op != 0 && (t.lgc.requested.get? b.out).isSome) im.blocks[x.2.1]?) p.1) ((List.map (fun l => (wordBits l 0 31 30, wordBits l 0 15 0, l.getD 1 0)) (itemsOf 2 ((q.w 4).toNat) (q.rest 5))).zip (itemsOf 2 ((q.w 4).toNat) (q.rest 5))))))) ∧
    (∃ (s t : State) (dt : Nat) (q : Req) (role : Nat) (im : Image),
      t.lgc.image = some im ∧ Admitted (s.advance dt) q 1286 10 1 0 true t role ∧ 1 ≤ (q.w 5).toNat ∧ (q.w 5).toNat ≤ 4096 ∧
      q.bits 4 15 0 + (q.w 5).toNat ≤ im.vars.length ∧
      (ReplyFits t q ([BitVec.ofNat 32 ((q.w 5).toNat)] ++ words64 (gtfOpt t.lgc.lastW) ++
          List.flatMap (fun k => [(t.lgc.written.getD (q.bits 4 15 0 + k) { v := 0, q := 1 }).v,
          BitVec.ofNat 32 (BitVec.toNat (t.lgc.written.getD (q.bits 4 15 0 + k) { v := 0, q := 1 }).q * 65536 + bitAt (t.lgc.forces.get? (q.bits 4 15 0 + k)).isSome 4 + bitAt (t.lgc.chgVar.get? (q.bits 4 15 0 + k)).isSome 5 + (Option.map LVar.ty im.vars[q.bits 4 15 0 + k]?).getD 0)]) (List.range ((q.w 5).toNat))))) :=
  ⟨
     ⟨sLgc 2 0 false, sLgc 2 0 false, 0, qLoad, 1,
       ⟨by decide +kernel, by decide +kernel, rfl, by decide +kernel⟩,
       by decide +kernel⟩,
     ⟨cfg, cfg, 0, qLoadPart, 1,
       ⟨by decide +kernel, by decide +kernel, rfl, by decide +kernel⟩,
       by decide +kernel,
       by decide +kernel,
       by decide +kernel,
       by decide +kernel,
       by decide +kernel,
       by decide +kernel,
       by decide +kernel,
       by decide +kernel,
       by decide +kernel,
       by decide +kernel⟩,
     ⟨cfg, cfg, 0, qLoadBad, 1, 3, 0xFFFF, 0,
       ⟨by decide +kernel, by decide +kernel, rfl, by decide +kernel⟩,
       by decide +kernel,
       by decide +kernel,
       by decide +kernel,
       by decide +kernel,
       by decide +kernel,
       by decide +kernel,
       by decide +kernel,
       by decide +kernel,
       by decide +kernel,
       by decide +kernel,
       by decide +kernel,
       by decide +kernel⟩,
     ⟨cfg, cfg, 0, qLoad, 1, im1,
       ⟨by decide +kernel, by decide +kernel, rfl, by decide +kernel⟩,
       by decide +kernel,
       by decide +kernel,
       by decide +kernel,
       by decide +kernel,
       by decide +kernel,
       by decide +kernel,
       by decide +kernel,
       by decide +kernel,
       by decide +kernel,
       by decide +kernel,
       by decide +kernel,
       by decide +kernel,
       by decide +kernel⟩,
     ⟨sWriting, 0, qLoad, im1,
       by decide +kernel,
       by decide +kernel⟩,
     ⟨cfg, cfg, 0, opr [], 1,
       ⟨by decide +kernel, by decide +kernel, rfl, by decide +kernel⟩,
       by decide +kernel⟩,
     ⟨sLgc 1 0 false, sLgc 1 0 false, 0, opr [], 1, im1,
       ⟨by decide +kernel, by decide +kernel, rfl, by decide +kernel⟩,
       by decide +kernel,
       by decide +kernel,
       by decide +kernel,
       by decide +kernel⟩,
     ⟨sStop 2 true, sStop 2 true, 0, opr [], 1,
       ⟨by decide +kernel, by decide +kernel, rfl, by decide +kernel⟩,
       by decide +kernel,
       by decide +kernel,
       by decide +kernel,
       by decide +kernel⟩,
     ⟨sStopping, sStopping, 0, opr [], 1,
       ⟨by decide +kernel, by decide +kernel, rfl, by decide +kernel⟩,
       by decide +kernel,
       by decide +kernel,
       by decide +kernel⟩,
     ⟨sStop 2 false, sStop 2 false, 0, opr [], 1,
       ⟨by decide +kernel, by decide +kernel, rfl, by decide +kernel⟩,
       by decide +kernel⟩,
     ⟨sStop 1 false, sStop 1 false, 0, opr [], 1,
       ⟨by decide +kernel, by decide +kernel, rfl, by decide +kernel⟩,
       by decide +kernel⟩,
     ⟨sForced 255, sForced 255, 0, opr [1, 0, 5], 1, im1,
       by decide +kernel,
       ⟨by decide +kernel, by decide +kernel, rfl, by decide +kernel⟩,
       by decide +kernel,
       by decide +kernel,
       by decide +kernel,
       by decide +kernel,
       by decide +kernel⟩,
     ⟨sForced 256, sForced 256, 0, opr [1, 0, 5], 1, im1,
       by decide +kernel,
       ⟨by decide +kernel, by decide +kernel, rfl, by decide +kernel⟩,
       by decide +kernel,
       by decide +kernel,
       by decide +kernel,
       by decide +kernel,
       by decide +kernel⟩,
     ⟨sForced 2, sForced 2, 0, opr [0x80000000], 1, im1,
       by decide +kernel,
       ⟨by decide +kernel, by decide +kernel, rfl, by decide +kernel⟩,
       by decide +kernel,
       by decide +kernel⟩,
     ⟨sForced 0, sForced 0, 0, opr [1, 0, 5], 1, im1,
       by decide +kernel,
       ⟨by decide +kernel, by decide +kernel, rfl, by decide +kernel⟩,
       by decide +kernel,
       by decide +kernel,
       by decide +kernel,
       by decide +kernel,
       by decide +kernel⟩,
     ⟨sForced 1, sForced 1, 0, opr [0, 1], 1, im1,
       by decide +kernel,
       ⟨by decide +kernel, by decide +kernel, rfl, by decide +kernel⟩,
       by decide +kernel,
       by decide +kernel,
       by decide +kernel,
       by decide +kernel⟩⟩

/-- The hypotheses of each clause of `LogsAnswerTheirCommands` are met. -/
theorem witness_LogsAnswerTheirCommands :
    (∃ (s t : State) (dt : Nat) (q : Req) (role : Nat) (m : Bool) (c : Instr) (op : Nat),
      (m = false ∧ c = Instr.logRead dt q ∧ op = 1792 ∨ m = true ∧ c = Instr.mlogRead dt q ∧ op = 1796) ∧
      Admitted (s.advance dt) q op 14 0 2 true t role ∧ 1 ≤ (q.w 5).toNat ∧ (q.w 5).toNat ≤ 2000 ∧
      (ReplyFits t q ([BitVec.ofNat 32 (List.take ((q.w 5).toNat) (List.filter (fun r => decide ((q.w 4).toNat ≤ r.seq)) ((t.logOf m).mram ++ (t.logOf m).buf))).length, BitVec.ofNat 32 (firstSeq ((t.logOf m).mram ++ (t.logOf m).buf)), BitVec.ofNat 32 (t.logOf m).seq] ++ List.flatMap EvRec.words (List.take ((q.w 5).toNat) (List.filter (fun r => decide ((q.w 4).toNat ≤ r.seq)) ((t.logOf m).mram ++ (t.logOf m).buf)))))) ∧
    (∃ (s t : State) (dt : Nat) (q : Req) (role : Nat) (m : Bool) (c : Instr) (op : Nat),
      (m = false ∧ c = Instr.logRead dt q ∧ op = 1792 ∨ m = true ∧ c = Instr.mlogRead dt q ∧ op = 1796) ∧
      Admitted (s.advance dt) q op 14 0 2 true t role ∧ 1 ≤ (q.w 5).toNat ∧ (q.w 5).toNat ≤ 2000 ∧
      (ReplyFits t q ([BitVec.ofNat 32 (List.take ((q.w 5).toNat) (List.filter (fun r => decide ((q.w 4).toNat ≤ r.seq)) ((t.logOf m).mram ++ (t.logOf m).buf))).length, BitVec.ofNat 32 (firstSeq ((t.logOf m).mram ++ (t.logOf m).buf)), BitVec.ofNat 32 (t.logOf m).seq] ++ List.flatMap EvRec.words (List.take ((q.w 5).toNat) (List.filter (fun r => decide ((q.w 4).toNat ≤ r.seq)) ((t.logOf m).mram ++ (t.logOf m).buf)))))) ∧
    (∃ (s t : State) (dt : Nat) (q : Req) (role : Nat) (m : Bool),
      Admitted (s.advance dt) q 1793 14 0 1 true t role ∧ (q.bits 4 0 0 = 1 ↔ m = true) ∧ (t.logOf m).freeze ≠ none) ∧
    (∃ (s t : State) (dt : Nat) (q : Req) (role : Nat) (m : Bool),
      Admitted (s.advance dt) q 1793 14 0 1 true t role ∧ (q.bits 4 0 0 = 1 ↔ m = true) ∧ (t.logOf m).freeze = none) ∧
    (∃ (s t : State) (dt : Nat) (q : Req) (role : Nat) (m : Bool) (f : Freeze),
      Admitted (s.advance dt) q 1794 14 0 1 true t role ∧ (q.bits 4 0 0 = 1 ↔ m = true) ∧ (t.logOf m).freeze = some f ∧
      f.id = q.bits 4 31 16) ∧
    (∃ (s t : State) (dt : Nat) (q : Req) (role : Nat) (m : Bool) (f : Freeze),
      Admitted (s.advance dt) q 1794 14 0 1 true t role ∧ (q.bits 4 0 0 = 1 ↔ m = true) ∧ (t.logOf m).freeze = some f ∧
      f.id ≠ q.bits 4 31 16) ∧
    (∃ (s t : State) (dt : Nat) (q : Req) (role : Nat),
      Admitted (s.advance dt) q 1795 14 0 1 true t role ∧ q.bits 4 0 0 = 1) ∧
    (∃ (s t : State) (dt : Nat) (q : Req) (role : Nat) (m : Bool),
      Admitted (s.advance dt) q 1795 14 0 1 true t role ∧ q.bits 4 0 0 = 0 ∧ m = false ∧ (t.logOf m).freeze = none) :=
  ⟨
     ⟨cfg, cfg, 0, pub [0, 2000, 0], 0, false, .logRead 0 (pub [0, 2000, 0]), 0x0700,
       by decide +kernel,
       ⟨by decide +kernel, by decide +kernel, rfl, by decide +kernel⟩,
       by decide +kernel,
       by decide +kernel,
       by decide +kernel⟩,
     ⟨cfg, cfg, 0, pub [0, 1, 0], 0, true, .mlogRead 0 (pub [0, 1, 0]), 0x0704,
       by decide +kernel,
       ⟨by decide +kernel, by decide +kernel, rfl, by decide +kernel⟩,
       by decide +kernel,
       by decide +kernel,
       by decide +kernel⟩,
     ⟨sFrozen 9, sFrozen 9, 0, pub [1], 0, true,
       ⟨by decide +kernel, by decide +kernel, rfl, by decide +kernel⟩,
       by decide +kernel,
       by decide +kernel⟩,
     ⟨cfg, cfg, 0, pub [0], 0, false,
       ⟨by decide +kernel, by decide +kernel, rfl, by decide +kernel⟩,
       by decide +kernel,
       by decide +kernel⟩,
     ⟨sFrozen 9, sFrozen 9, 0, pub [0x90001], 0, true, frz 9,
       ⟨by decide +kernel, by decide +kernel, rfl, by decide +kernel⟩,
       by decide +kernel,
       by decide +kernel,
       by decide +kernel⟩,
     ⟨sFrozen 9, sFrozen 9, 0, pub [0x80000], 0, false, frz 9,
       ⟨by decide +kernel, by decide +kernel, rfl, by decide +kernel⟩,
       by decide +kernel,
       by decide +kernel,
       by decide +kernel⟩,
     ⟨cfg, cfg, 0, pub [1], 0,
       ⟨by decide +kernel, by decide +kernel, rfl, by decide +kernel⟩,
       by decide +kernel⟩,
     ⟨cfg, cfg, 0, pub [0], 0, false,
       ⟨by decide +kernel, by decide +kernel, rfl, by decide +kernel⟩,
       by decide +kernel,
       by decide +kernel,
       by decide +kernel⟩⟩

/-- The hypotheses of each clause of `RecordsAreNumberedBufferedAndLimited` are met. -/
theorem witness_RecordsAreNumberedBufferedAndLimited :
    (∃ (s a : State) (dt sev : Nat),
      s.advance dt = a ∧ a.evt.gen.buf.length < 768 ∧ sev < 3) ∧
    (∃ (s a : State) (dt : Nat) (m : Bool),
      s.advance dt = a ∧ (a.logOf m).freeze = none ∧ (a.logOf m).mram.length + (a.logOf m).buf.length ≤ logSize m) ∧
    (∃ (s a : State) (dt : Nat) (m : Bool),
      s.advance dt = a ∧ (a.logOf m).freeze ≠ none) ∧
    (∃ (s a : State) (dt code : Nat),
      s.advance dt = a ∧ (evInfo code).2.1 ≠ 0 ∧ (evInfo code).2.2.1 = true ∧ (evInfo code).2.2.2 = false ∧
      (a.bucket code).tokens = 0) ∧
    (∃ (s a : State) (dt : Nat),
      s.advance dt = a ∧ a.up = true ∧ a.evt.flushAt + 5 * sec ≤ a.now) ∧
    (∃ (s a : State) (dt : Nat),
      s.advance dt = a ∧ (a.up = false ∨ a.now < a.evt.flushAt + 5 * sec)) ∧
    (∃ (s a : State) (dt : Nat) (m : Bool) (f : Freeze),
      s.advance dt = a ∧ (a.logOf m).freeze = some f ∧ f.at_ + a.parN Par.EVT.FREEZE_MAX_S 0 * sec ≤ a.now) ∧
    (∃ (s a : State) (dt : Nat) (m : Bool) (f : Freeze),
      s.advance dt = a ∧ (a.logOf m).freeze = some f ∧ a.now < f.at_ + a.parN Par.EVT.FREEZE_MAX_S 0 * sec) ∧
    (∃ (s a : State) (dt code : Nat),
      s.advance dt = a ∧ (a.bucket code).fellAt < a.now ∧
      (a.now - (a.bucket code).fellAt) % (a.parN Par.EVT.REFILL_MS (evInfo code).2.1 * 1000000) = 0 ∧
      (a.bucket code).tokens < 8 ∧ (a.bucket code).gainedAt < a.now) ∧
    (∃ (s a : State) (dt code : Nat),
      s.advance dt = a ∧ (a.bucket code).fellAt < a.now ∧
      (a.now - (a.bucket code).fellAt) % (a.parN Par.EVT.REFILL_MS (evInfo code).2.1 * 1000000) = 0 ∧
      (8 ≤ (a.bucket code).tokens ∨ a.now ≤ (a.bucket code).gainedAt)) :=
  ⟨
     ⟨cfg, cfg, 0, 2,
       rfl,
       by decide +kernel,
       by decide +kernel⟩,
     ⟨cfg, cfg, 0, false,
       rfl,
       by decide +kernel,
       by decide +kernel⟩,
     ⟨sFrozen 9, sFrozen 9, 0, true,
       rfl,
       by decide +kernel⟩,
     ⟨sBucket 0, sBucket 0, 0, 0x0301,
       rfl,
       by decide +kernel,
       by decide +kernel,
       by decide +kernel,
       by decide +kernel⟩,
     ⟨cfg, cfg.advance (5*sec), 5*sec,
       rfl,
       by decide +kernel,
       by decide +kernel⟩,
     ⟨cfg, cfg, 0,
       rfl,
       by decide +kernel⟩,
     ⟨sFrozen 9, (sFrozen 9).advance (86400*sec), 86400*sec, false, frz 9,
       rfl,
       by decide +kernel,
       by decide +kernel⟩,
     ⟨sFrozen 9, sFrozen 9, 0, false, frz 9,
       rfl,
       by decide +kernel,
       by decide +kernel⟩,
     ⟨sBucket 7, (sBucket 7).advance (3600*sec), 3600*sec, 0x0301,
       rfl,
       by decide +kernel,
       by decide +kernel,
       by decide +kernel,
       by decide +kernel⟩,
     ⟨sBucket 8, (sBucket 8).advance (3600*sec), 3600*sec, 0x0301,
       rfl,
       by decide +kernel,
       by decide +kernel,
       by decide +kernel⟩⟩

/-- The hypotheses of each clause of `CoresTasksAndFifos` are met. -/
theorem witness_CoresTasksAndFifos :
    (∃ (s a : State) (dt : Nat),
      s.advance dt = a ∧ a.up = true ∧ a.now % 10000 = 0) ∧
    (∃ (s a : State) (dt : Nat),
      s.advance dt = a ∧ a.up = true ∧ a.now % 10000 ≠ 0) ∧
    (∃ (s a : State) (dt core : Nat),
      s.advance dt = a ∧ a.up = true ∧ core < 18 ∧ a.core core = 0) ∧
    (∃ (s a : State) (dt core : Nat),
      s.advance dt = a ∧ a.up = true ∧ core < 18 ∧ a.core core ≠ 0) ∧
    (∃ (s a : State) (dt : Nat),
      s.advance dt = a ∧ a.up = true ∧
      (a.parN Par.CTL.CORE_TEST_S 0 * sec = 0 ∨ a.now < a.ctl.coreTestAt + a.parN Par.CTL.CORE_TEST_S 0 * sec)) ∧
    (∃ (s a : State) (dt core : Nat),
      s.advance dt = a ∧ a.up = true ∧ a.parN Par.CTL.CORE_TEST_S 0 * sec ≠ 0 ∧
      a.ctl.coreTestAt + a.parN Par.CTL.CORE_TEST_S 0 * sec ≤ a.now ∧ a.coresOn = [core]) ∧
    (∃ (s a : State) (dt core : Nat),
      s.advance dt = a ∧ a.up = true ∧ a.parN Par.CTL.CORE_TEST_S 0 * sec ≠ 0 ∧
      a.ctl.coreTestAt + a.parN Par.CTL.CORE_TEST_S 0 * sec ≤ a.now ∧ a.coresOn = [core] ∧ a.ctl.coreFails.getD core 0 = 1) ∧
    (∃ (s a : State) (dt f : Nat) (ws : List FifoWord),
      s.advance dt = a ∧ a.up = true ∧ f ≤ 73 ∧ a.fifoFill f ≤ a.parN Par.CTL.FIFO_LEVEL f ∧
      a.parN Par.CTL.FIFO_LEVEL f < a.fifoFill f + ws.length ∧ a.fifoFill f + ws.length ≤ 16) ∧
    (∃ (s a : State) (dt f : Nat) (ws : List FifoWord),
      s.advance dt = a ∧ a.up = true ∧ f ≤ 73 ∧ a.fifoFill f + ws.length ≤ a.parN Par.CTL.FIFO_LEVEL f ∧
      a.fifoFill f + ws.length ≤ 16) ∧
    (∃ (s a : State) (dt f left : Nat),
      s.advance dt = a ∧ a.up = true ∧ f ≤ 73 ∧ a.ctl.fifo.wf = true ∧ left ≤ a.fifoFill f) ∧
    (∃ (s a : State) (dt f left : Nat),
      s.advance dt = a ∧ a.up = true ∧ f ≤ 73 ∧ a.ctl.fifo.wf = true ∧ left ≤ a.fifoFill f ∧
      a.parN Par.CTL.FIFO_LEVEL f < left) ∧
    (∃ (s a : State) (dt f left : Nat),
      s.advance dt = a ∧ a.up = true ∧ f ≤ 73 ∧ a.ctl.fifo.wf = true ∧ left ≤ a.fifoFill f ∧
      left ≤ a.parN Par.CTL.FIFO_LEVEL f) ∧
    (∃ (s a : State) (dt u : Nat) (q : Req) (r : Nat × Nat × Nat × Nat × Nat),
      s.advance dt = a ∧ a.up = true ∧ a.ctl.selfTest = some (u, q) ∧ u ≠ 0 ∧ r.1 = u ∧ u ∈ unitIds) ∧
    (∃ (s a : State) (dt : Nat),
      s.advance dt = a ∧ a.up = true ∧ a.ctl.selfTest = none) ∧
    (∃ (s t : State) (dt : Nat) (q : Req) (role : Nat),
      Admitted (s.advance dt) q 2565 12 0 1 true t role ∧ ReplyFits t q t.schedStats ∧ BitVec.getLsbD (q.w 4) 0 = false) ∧
    (∃ (s t : State) (dt : Nat) (q : Req) (role : Nat),
      Admitted (s.advance dt) q 2565 12 0 1 true t role ∧ ReplyFits t q t.schedStats ∧ BitVec.getLsbD (q.w 4) 0 = true) ∧
    (∃ (s t : State) (dt : Nat) (q : Req) (role : Nat),
      (Admitted (s.advance dt) q 2566 (if 1 ≤ q.bits 4 7 0 ∧ q.bits 4 7 0 ≤ 15 then q.bits 4 7 0 else 12) 1 1 false t role) ∧
      q.bits 4 7 0 ≤ 15 ∧ (q.bits 4 7 0 = 0 ∨ t.runs (q.bits 4 7 0) = true) ∧ t.up = true ∧ t.ctl.selfTest = none) ∧
    (∃ (s t : State) (dt : Nat) (q : Req) (role : Nat),
      (Admitted (s.advance dt) q 2566 (if 1 ≤ q.bits 4 7 0 ∧ q.bits 4 7 0 ≤ 15 then q.bits 4 7 0 else 12) 1 1 false t role) ∧
      q.bits 4 7 0 ≤ 15 ∧ (q.bits 4 7 0 = 0 ∨ t.runs (q.bits 4 7 0) = true) ∧ t.ctl.selfTest ≠ none) ∧
    (∃ (s t : State) (dt : Nat) (q : Req) (role : Nat),
      (Admitted (s.advance dt) q 2566 (if 1 ≤ q.bits 4 7 0 ∧ q.bits 4 7 0 ≤ 15 then q.bits 4 7 0 else 12) 1 1 false t role) ∧
      15 < q.bits 4 7 0) :=
  ⟨
     ⟨cfg, cfg, 0,
       rfl,
       by decide +kernel,
       by decide +kernel⟩,
     ⟨cfg, cfg.advance 1, 1,
       rfl,
       by decide +kernel,
       by decide +kernel⟩,
     ⟨cfg, cfg, 0, 15,
       rfl,
       by decide +kernel,
       by decide +kernel,
       by decide +kernel⟩,
     ⟨sCoreOut, sCoreOut, 0, 17,
       rfl,
       by decide +kernel,
       by decide +kernel,
       by decide +kernel⟩,
     ⟨sTestOff, sTestOff, 0,
       rfl,
       by decide +kernel,
       by decide +kernel⟩,
     ⟨sCores, sCores.advance sec, sec, 0,
       rfl,
       by decide +kernel,
       by decide +kernel,
       by decide +kernel,
       by decide +kernel⟩,
     ⟨sCores, sCores.advance sec, sec, 0,
       rfl,
       by decide +kernel,
       by decide +kernel,
       by decide +kernel,
       by decide +kernel,
       by decide +kernel⟩,
     ⟨cfg, cfg, 0, 63, List.replicate 16 (fw 1),
       rfl,
       by decide +kernel,
       by decide +kernel,
       by decide +kernel,
       by decide +kernel,
       by decide +kernel⟩,
     ⟨cfg, cfg, 0, 73, [fw 1],
       rfl,
       by decide +kernel,
       by decide +kernel,
       by decide +kernel,
       by decide +kernel⟩,
     ⟨sFifoIn 32 16, sFifoIn 32 16, 0, 32, 16,
       rfl,
       by decide +kernel,
       by decide +kernel,
       by decide +kernel,
       by decide +kernel⟩,
     ⟨sFifoIn 32 16, sFifoIn 32 16, 0, 32, 15,
       rfl,
       by decide +kernel,
       by decide +kernel,
       by decide +kernel,
       by decide +kernel,
       by decide +kernel⟩,
     ⟨sFifoIn 64 2, sFifoIn 64 2, 0, 64, 0,
       rfl,
       by decide +kernel,
       by decide +kernel,
       by decide +kernel,
       by decide +kernel,
       by decide +kernel⟩,
     ⟨sSelf, sSelf, 0, 4, opr [4], (4, 1, 0, 0, 0),
       rfl,
       by decide +kernel,
       by decide +kernel,
       by decide +kernel,
       by decide +kernel,
       by decide +kernel⟩,
     ⟨cfg, cfg, 0,
       rfl,
       by decide +kernel,
       by decide +kernel⟩,
     ⟨cfg, cfg, 0, pub [0], 0,
       ⟨by decide +kernel, by decide +kernel, rfl, by decide +kernel⟩,
       by decide +kernel,
       by decide +kernel⟩,
     ⟨cfg, cfg, 0, pub [1], 0,
       ⟨by decide +kernel, by decide +kernel, rfl, by decide +kernel⟩,
       by decide +kernel,
       by decide +kernel⟩,
     ⟨cfg, cfg, 0, opr [15], 1,
       ⟨by decide +kernel, by decide +kernel, rfl, by decide +kernel⟩,
       by decide +kernel,
       by decide +kernel,
       by decide +kernel,
       by decide +kernel⟩,
     ⟨sSelf, sSelf, 0, opr [0], 1,
       ⟨by decide +kernel, by decide +kernel, rfl, by decide +kernel⟩,
       by decide +kernel,
       by decide +kernel,
       by decide +kernel⟩,
     ⟨cfg, cfg, 0, opr [16], 1,
       ⟨by decide +kernel, by decide +kernel, rfl, by decide +kernel⟩,
       by decide +kernel⟩⟩

/-- The hypotheses of each clause of `UnitsQuiesceResetAndResume` are met. -/
theorem witness_UnitsQuiesceResetAndResume :
    (∃ (s t : State) (dt : Nat) (q : Req) (role : Nat),
      Admitted (s.advance dt) q 2560 (namedUnit (q.w 4)) 1 1 (unitNamed (q.bits 4 7 0)) t role ∧
      unitNamed (q.bits 4 7 0) = true ∧ q.bits 4 7 0 = 12) ∧
    (∃ (s t : State) (dt : Nat) (q : Req) (role : Nat),
      Admitted (s.advance dt) q 2560 (namedUnit (q.w 4)) 1 1 (unitNamed (q.bits 4 7 0)) t role ∧
      unitNamed (q.bits 4 7 0) = true ∧ q.bits 4 7 0 ≠ 12 ∧ (t.unit (q.bits 4 7 0)).st = 1) ∧
    (∃ (s t : State) (dt : Nat) (q : Req) (role : Nat),
      Admitted (s.advance dt) q 2560 (namedUnit (q.w 4)) 1 1 (unitNamed (q.bits 4 7 0)) t role ∧
      unitNamed (q.bits 4 7 0) = true ∧ q.bits 4 7 0 ≠ 12 ∧ q.bits 4 7 0 ≠ 4 ∧ (t.unit (q.bits 4 7 0)).st ≠ 1 ∧
      (∀ d ∈ t.ctl.drain, d.1 ≠ q.bits 4 7 0) ∧ t.up = true) ∧
    (∃ (s t : State) (dt : Nat) (q : Req) (role : Nat),
      Admitted (s.advance dt) q 2561 (namedUnit (q.w 4)) 1 1 false t role ∧ unitNamed (q.bits 4 7 0) = true ∧
      (t.unit (q.bits 4 7 0)).st ≠ 3) ∧
    (∃ (s t : State) (dt : Nat) (q : Req) (role : Nat),
      Admitted (s.advance dt) q 2562 (namedUnit (q.w 4)) 1 1 false t role ∧ unitNamed (q.bits 4 7 0) = true ∧
      ((t.unit (q.bits 4 7 0)).st = 1 ∨ (t.unit (q.bits 4 7 0)).st = 2)) ∧
    (∃ (s t : State) (dt : Nat) (q : Req) (role : Nat),
      Admitted (s.advance dt) q 2562 (namedUnit (q.w 4)) 1 1 false t role ∧ unitNamed (q.bits 4 7 0) = true ∧
      (t.unit (q.bits 4 7 0)).st = 0) ∧
    (∃ (s t : State) (dt : Nat) (q : Req) (role : Nat),
      Admitted (s.advance dt) q 2562 (namedUnit (q.w 4)) 1 1 false t role ∧ unitNamed (q.bits 4 7 0) = true ∧
      (t.unit (q.bits 4 7 0)).st = 3) ∧
    (∃ (s : State) (dt : Nat) (a : State) (d : Nat × Req × Nat),
      s.advance dt = a ∧ a.up = true ∧ (List.find? (fun d => a.drained d.1 d.2.2 && !a.ofActivation d) a.ctl.drain = some d)) ∧
    (∃ (s : State) (dt : Nat) (a : State) (d : Nat × Req × Nat),
      s.advance dt = a ∧ a.up = true ∧
      (List.find? (fun d => decide (d.2.2 + 1000000 * a.parN Par.CTL.QUIESCE_MAX_MS 0 ≤ a.now) && !a.ofActivation d) a.ctl.drain = some d)) ∧
    (∃ (s : State) (dt : Nat) (a : State),
      s.advance dt = a ∧ a.up = true ∧ a.ctl.drain = []) :=
  ⟨
     ⟨cfg, cfg, 0, opr [0x0C], 1,
       ⟨by decide +kernel, by decide +kernel, rfl, by decide +kernel⟩,
       by decide +kernel,
       by decide +kernel⟩,
     ⟨sUnitIn 7 1, sUnitIn 7 1, 0, opr [7], 1,
       ⟨by decide +kernel, by decide +kernel, rfl, by decide +kernel⟩,
       by decide +kernel,
       by decide +kernel,
       by decide +kernel⟩,
     ⟨cfg, cfg, 0, opr [7], 1,
       ⟨by decide +kernel, by decide +kernel, rfl, by decide +kernel⟩,
       by decide +kernel,
       by decide +kernel,
       by decide +kernel,
       by decide +kernel,
       by decide +kernel,
       by decide +kernel⟩,
     ⟨cfg, cfg, 0, opr [14], 1,
       ⟨by decide +kernel, by decide +kernel, rfl, by decide +kernel⟩,
       by decide +kernel,
       by decide +kernel⟩,
     ⟨sUnitIn 7 2, sUnitIn 7 2, 0, opr [7], 1,
       ⟨by decide +kernel, by decide +kernel, rfl, by decide +kernel⟩,
       by decide +kernel,
       by decide +kernel⟩,
     ⟨cfg, cfg, 0, opr [1], 1,
       ⟨by decide +kernel, by decide +kernel, rfl, by decide +kernel⟩,
       by decide +kernel,
       by decide +kernel⟩,
     ⟨sUnitIn 7 3, sUnitIn 7 3, 0, opr [7], 1,
       ⟨by decide +kernel, by decide +kernel, rfl, by decide +kernel⟩,
       by decide +kernel,
       by decide +kernel⟩,
     ⟨sDrain 7, 0, sDrain 7, (7, opr [7], 0),
       rfl,
       by decide +kernel,
       by decide +kernel⟩,
     ⟨sDrain 7, 600*sec, (sDrain 7).advance (600*sec), (7, opr [7], 0),
       rfl,
       by decide +kernel,
       by decide +kernel⟩,
     ⟨cfg, 0, cfg,
       rfl,
       by decide +kernel,
       by decide +kernel⟩⟩

/-- The hypotheses of each clause of `FirmwareIsStagedVerifiedActivated` are met. -/
theorem witness_FirmwareIsStagedVerifiedActivated :
    (∃ (s t : State) (dt : Nat) (q : Req) (role : Nat),
      Admitted (s.advance dt) q 2304 12 1 3 true t role ∧ t.pwr.activate ≠ none) ∧
    (∃ (s t : State) (dt : Nat) (q : Req) (role : Nat),
      Admitted (s.advance dt) q 2304 12 1 3 true t role ∧ t.pwr.activate = none ∧ (q.w 4).toNat = 0 ∧ 256 ≤ (q.w 5).toNat ∧
      (q.w 5).toNat ≤ 28311552 ∧ 4 ≤ (q.w 6).toNat ∧ (q.w 6).toNat % 4 = 0 ∧ (q.w 6).toNat ≤ 65000 ∧
      (q.w 6).toNat ≤ 4 * (q.payload.length - 3) ∧ (q.w 6).toNat < (q.w 5).toNat ∧
      (q.bytes 7 ((q.w 6).toNat)).length = (q.w 6).toNat) ∧
    (∃ (s t : State) (dt : Nat) (q : Req) (role : Nat),
      Admitted (s.advance dt) q 2305 12 1 0 true t role ∧ (t.bankOf t.idleBank).format = false) ∧
    (∃ (s t : State) (dt : Nat) (q : Req) (role : Nat),
      Admitted (s.advance dt) q 2305 12 1 0 true t role ∧ (t.bankOf t.idleBank).format = true ∧
      (t.bankOf t.idleBank).auth = false) ∧
    (∃ (s t : State) (dt : Nat) (q : Req) (role : Nat),
      Admitted (s.advance dt) q 2305 12 1 0 true t role ∧ (t.bankOf t.idleBank).format = true ∧
      (t.bankOf t.idleBank).auth = true ∧ (t.bankOf t.idleBank).fits t.ident = false) ∧
    (∃ (s t : State) (dt : Nat) (q : Req) (role : Nat),
      Admitted (s.advance dt) q 2305 12 1 0 true t role ∧ (t.bankOf t.idleBank).format = true ∧
      (t.bankOf t.idleBank).auth = true ∧ (t.bankOf t.idleBank).fits t.ident = true ∧
      ReplyFits t q ([BitVec.ofNat 32 (t.bankOf t.idleBank).version, BitVec.ofNat 32 ((t.bankOf t.idleBank).word 16)] ++
          q.carriage.pack (t.bankOf t.idleBank).legal)) ∧
    (∃ (s t : State) (dt : Nat) (q : Req) (role f : Nat),
      Admitted (s.advance dt) q 2306 12 2 1 true t role ∧ t.activateFault = some f) ∧
    (∃ (s t : State) (dt : Nat) (q : Req) (role : Nat),
      Admitted (s.advance dt) q 2306 12 2 1 true t role ∧ (t.bankOf t.idleBank).verified = false) ∧
    (∃ (s t : State) (dt : Nat) (q : Req) (role : Nat),
      Admitted (s.advance dt) q 2306 12 2 1 true t role ∧ t.activateFault = none ∧ BitVec.getLsbD (q.w 4) 0 = false) ∧
    (∃ (s t : State) (dt : Nat) (q : Req) (role : Nat),
      Admitted (s.advance dt) q 2306 12 2 1 true t role ∧ t.activateFault = none ∧ BitVec.getLsbD (q.w 4) 0 = true ∧
      t.pwr.dev ≠ DevState.boot) ∧
    (∃ (s t : State) (dt : Nat) (q : Req) (role : Nat),
      Admitted (s.advance dt) q 2307 12 0 0 true t role ∧ ReplyFits t q (t.bankWords q.carriage 0 ++ t.bankWords q.carriage 1)) ∧
    (∃ (s : State) (dt : Nat) (a : State) (r : Req) (units : Nat),
      s.advance dt = a ∧ a.pwr.activate = some (r, units) ∧ a.up = true ∧
      (∀ d ∈ a.ctl.drain, a.ofActivation d = true → a.drained d.1 d.2.2 = true)) :=
  ⟨
     ⟨sBusyFw, sBusyFw, 0, fwChunk, 1,
       ⟨by decide +kernel, by decide +kernel, rfl, by decide +kernel⟩,
       by decide +kernel⟩,
     ⟨cfg, cfg, 0, fwChunk, 1,
       ⟨by decide +kernel, by decide +kernel, rfl, by decide +kernel⟩,
       by decide +kernel,
       by decide +kernel,
       by decide +kernel,
       by decide +kernel,
       by decide +kernel,
       by decide +kernel,
       by decide +kernel,
       by decide +kernel,
       by decide +kernel,
       by decide +kernel⟩,
     ⟨cfg, cfg, 0, opr [], 1,
       ⟨by decide +kernel, by decide +kernel, rfl, by decide +kernel⟩,
       by decide +kernel⟩,
     ⟨sStaged goodU, sStaged goodU, 0, opr [], 1,
       ⟨by decide +kernel, by decide +kernel, rfl, by decide +kernel⟩,
       by decide +kernel,
       by decide +kernel⟩,
     ⟨sOtherVariant, sOtherVariant, 0, opr [], 1,
       ⟨by decide +kernel, by decide +kernel, rfl, by decide +kernel⟩,
       by decide +kernel,
       by decide +kernel,
       by decide +kernel⟩,
     ⟨sStaged goodA, sStaged goodA, 0, opr [], 1,
       ⟨by decide +kernel, by decide +kernel, rfl, by decide +kernel⟩,
       by decide +kernel,
       by decide +kernel,
       by decide +kernel,
       by decide +kernel⟩,
     ⟨withOwner (sStaged goodA), tAct goodA, 0, actNow, 2, 0x010E,
       ⟨by decide +kernel, by decide +kernel, Prod.ext rfl (by decide +kernel), by decide +kernel⟩,
       by decide +kernel⟩,
     ⟨withOwner (sStaged goodA), tAct goodA, 0, actNow, 2,
       ⟨by decide +kernel, by decide +kernel, Prod.ext rfl (by decide +kernel), by decide +kernel⟩,
       by decide +kernel⟩,
     ⟨withOwner (sStaged goodV), tAct goodV, 0, actNow, 2,
       ⟨by decide +kernel, by decide +kernel, Prod.ext rfl (by decide +kernel), by decide +kernel⟩,
       by decide +kernel,
       by decide +kernel⟩,
     ⟨withOwner (sStaged goodV), tGo, 0, actGo, 2,
       ⟨by decide +kernel, by decide +kernel, Prod.ext rfl (by decide +kernel), by decide +kernel⟩,
       by decide +kernel,
       by decide +kernel,
       by decide +kernel⟩,
     ⟨cfg, cfg, 0, pub [], 0,
       ⟨by decide +kernel, by decide +kernel, rfl, by decide +kernel⟩,
       by decide +kernel⟩,
     ⟨sBusyFw, 0, sBusyFw, opr [1], 0,
       rfl,
       by decide +kernel,
       by decide +kernel,
       by decide +kernel⟩⟩

/-- The hypotheses of each clause of `SparesWearAndPatina` are met. -/
theorem witness_SparesWearAndPatina :
    (∃ (s a : State) (dt c : Nat),
      s.advance dt = a ∧ a.up = true ∧ a.mem.sramDue = [] ∧ a.mem.sramTable.contains c = false ∧ a.mem.sramTable.length < 4096) ∧
    (∃ (s a : State) (dt row : Nat),
      s.advance dt = a ∧ a.up = true ∧ a.mem.sramDue = [row]) ∧
    (∃ (s a : State) (dt page : Nat),
      s.advance dt = a ∧ a.up = true ∧ a.mem.dramPages.contains page = false ∧ a.mem.dramUsed < 16384) ∧
    (∃ (s a : State) (dt page : Nat),
      s.advance dt = a ∧ a.up = true ∧ a.mem.dramPages.contains page = true) ∧
    (∃ (s a : State) (dt k : Nat),
      s.advance dt = a ∧ a.up = true ∧ List.length a.mem.mramMap < 1024 ∧ a.mem.mramMap.get? k = none) ∧
    (∃ (s a : State) (dt k : Nat),
      s.advance dt = a ∧ a.up = true ∧ a.mem.mramMap.get? k ≠ none) ∧
    (∃ (s a : State) (dt : Nat),
      s.advance dt = a ∧ a.up = true ∧ a.mem.vstep < 8 ∧ a.now % sec = 0) ∧
    (∃ (s a : State) (dt : Nat),
      s.advance dt = a ∧ a.up = true) ∧
    (∃ (s a : State) (dt : Nat),
      s.advance dt = a ∧ a.mainPowered = true ∧ a.now % sec = 0) ∧
    (∃ (s a : State) (dt : Nat) (t : State) (q : Req) (role : Nat),
      s.advance dt = a ∧ Admitted a q 2563 15 0 0 true t role ∧
      (ReplyFits t q (List.flatMap (fun k => [BitVec.ofNat 32 (k * 2 ^ 24 + t.sparesLeft k),
          BitVec.ofNat 32 (t.sparesUsed k)]) [1, 2, 3, 4, 5, 6, 7, 8]))) ∧
    (∃ (s a : State) (dt : Nat) (t : State) (q : Req) (role : Nat),
      s.advance dt = a ∧ Admitted a q 2564 15 0 1 true t role ∧ q.bits 4 3 0 ≤ 3 ∧
      (q.bits 4 3 0 = 2 → 2 ≤ q.payload.length ∧ q.bits 5 4 0 ≤ 26) ∧
      (ReplyFits t q (if BitVec.getLsbD (q.w 4) 8 = true then t.baselineWords (q.bits 4 3 0) (q.bits 5 4 0) else t.patinaWords (q.bits 4 3 0) (q.bits 5 4 0)))) :=
  ⟨
     ⟨run, run, 0, 9,
       rfl,
       by decide +kernel,
       by decide +kernel,
       by decide +kernel,
       by decide +kernel⟩,
     ⟨sDue, sDue, 0, 9,
       rfl,
       by decide +kernel,
       by decide +kernel⟩,
     ⟨run, run, 0, 9,
       rfl,
       by decide +kernel,
       by decide +kernel,
       by decide +kernel⟩,
     ⟨sPage, sPage, 0, 9,
       rfl,
       by decide +kernel,
       by decide +kernel⟩,
     ⟨run, run, 0, 9,
       rfl,
       by decide +kernel,
       by decide +kernel,
       by decide +kernel⟩,
     ⟨sBlock, sBlock, 0, 9,
       rfl,
       by decide +kernel,
       by decide +kernel⟩,
     ⟨sVolt, sVolt, 0,
       rfl,
       by decide +kernel,
       by decide +kernel,
       by decide +kernel⟩,
     ⟨run, run, 0,
       rfl,
       by decide +kernel⟩,
     ⟨run, run, 0,
       rfl,
       by decide +kernel,
       by decide +kernel⟩,
     ⟨cfg, cfg, 0, cfg, pub [], 0,
       rfl,
       ⟨by decide +kernel, by decide +kernel, rfl, by decide +kernel⟩,
       by decide +kernel⟩,
     ⟨cfg, cfg, 0, cfg, pub [2, 26], 0,
       rfl,
       ⟨by decide +kernel, by decide +kernel, rfl, by decide +kernel⟩,
       by decide +kernel,
       by decide +kernel,
       by decide +kernel⟩⟩

/-! ### Published values -/

/-- The check values that CRC catalogues give for "123456789": CRC-32C (R32), CRC-CCITT from 0xFFFF (C37.118.2, R127), CRC-32 of
IEEE 802.3. -/
theorem test_crcs : crc32c (ascii "123456789") = 0xE3069283 ∧ crcCcitt (ascii "123456789") = 0x29B1 ∧
    crc32 (ascii "123456789") = 0xCBF43926 := by decide +kernel

/-- FIPS 180-4, the example "abc". -/
theorem test_sha256 : ofBe (sha256 (ascii "abc")) = 0xba7816bf8f01cfea414140de5dae2223b00361a396177a9cb410ff61f20015ad := by
  decide +kernel

/-- The clock shows 2,000,000,000 ns as two seconds (R76). -/
theorem test_gtf : gtfOf 2000000000 = 2 * 2 ^ 30 ∧ gtfValid (2 * 2 ^ 30 + 1000000000) = false := by decide +kernel

end Sys2Proof.Tests
end

section
/-! SUPPORT. What a command cannot touch: the identity of manufacture, the queue, and what has left the module. -/

namespace Sys2Proof.Laws

open Sys2Proof.Machine

/-- The frame of every command: the state `s`, come from `s₀`, has the identity and the queue of `s₀`, and what had left the
module at `s₀` has left it at `s`. -/
def Stays (s₀ s : State) : Prop := s.ident = s₀.ident ∧ s.pending = s₀.pending ∧ s₀.out <+: s.out

/-- An outcome whose next state, where it has one, stays so. -/
def NextStays (s₀ : State) : Out → Prop
  | .next t => Stays s₀ t
  | .fault _ => True
  | .refused _ => True

/-! One lemma `Stays.f` for each operation `f` of the state, in the order of the model, and one lemma `execX_stays` for each
command: where `s` has stayed, `s.f …` has. A proof reads as the definition does: `h.count.notify` follows a count and the
notice after it, `.ite` an `if`, `.foldl` a loop, and `h.set` an update of the fields a command may write. -/

section Operations

variable {s₀ s t : State}

theorem Stays.refl (s : State) : Stays s s := ⟨rfl, rfl, [], List.append_nil _⟩

theorem Stays.trans {s t u : State} (h : Stays s t) (g : Stays t u) : Stays s u :=
  ⟨g.1.trans h.1, g.2.1.trans h.2.1, h.2.2.trans g.2.2⟩

theorem Stays.next (h : Stays s₀ t) : NextStays s₀ (.next t) := h

/-- What only writes ports, logs and the like (`Kept`) lets the state stay. -/
theorem Stays.kept (h : Stays s₀ s) (k : Kept s t) : Stays s₀ t := by
  obtain ⟨pending, ident, -⟩ := k.fields
  exact h.trans ⟨ident, pending, k.2⟩

/-- Releasing a packet and taking one in write the scheduler alone (`Taken`). -/
theorem Stays.taken (h : Stays s₀ s) (k : Taken s t) : Stays s₀ t := by
  rw [k.eq]
  exact h

/-- The state of a pair that a `match` has taken apart. -/
theorem Stays.of_eq {α : Type} {p : State × α} {a : α} (e : p = (t, a)) (h : Stays s₀ p.1) : Stays s₀ t := by
  rw [e] at h
  exact h

/-- The one lemma on record updates: every field but the identity, the queue and the outputs may be written. -/
theorem Stays.set (h : Stays s₀ s) {pwr : Pwr} {units : AMap UnitSt} {lands : Lands} {alarms : List (Nat × Nat × Nat)} {ctl : Ctl}
    {prt : Ports} {tim : Tim} {ing : Ing} {aln : Aln} {osc : Osc} {arm : Arm} {cus : Cus} {cnv : Cnv} {flt : FltUnit} {cap : Cap}
    {lgc : Lgc} {vlt : Vlt} {evt : Evt} {mem : Mem} :
    Stays s₀ ⟨s.pending, s.ident, pwr, units, lands, alarms, ctl, prt, tim, ing, aln, osc, arm, cus, cnv, flt, cap, lgc, vlt, evt, mem,
      s.out⟩ := h

theorem Stays.ite {c : Prop} [Decidable c] (h : Stays s₀ s) (g : Stays s₀ t) : Stays s₀ (if c then s else t) := by
  split
  · exact h
  · exact g

/-- As `Stays.ite`, for a branch that yields a value along with the state. -/
theorem Stays.iteFst {α : Type} {c : Prop} [Decidable c] {p q : State × α} (h : Stays s₀ p.1) (g : Stays s₀ q.1) :
    Stays s₀ (if c then p else q).1 := by
  split
  · exact h
  · exact g

theorem Stays.foldl {α : Type} {f : State → α → State} {l : List α} (h : Stays s₀ s)
    (step : ∀ {s a}, Stays s₀ s → Stays s₀ (f s a)) : Stays s₀ (l.foldl f s) := by
  induction l generalizing s with
  | nil => exact h
  | cons a l ih => exact ih (step h)

/-- As `Stays.foldl`, for a loop that carries a value along with the state. -/
theorem Stays.foldlFst {α β : Type} {f : State × β → α → State × β} {p : State × β} {l : List α} (h : Stays s₀ p.1)
    (step : ∀ {p a}, Stays s₀ p.1 → Stays s₀ (f p a).1) : Stays s₀ (l.foldl f p).1 := by
  induction l generalizing p with
  | nil => exact h
  | cons a l ih => exact ih (step h)

/-! ### Flags -/

theorem Stays.setPar (h : Stays s₀ s) {id inst : Nat} {v : List Word} : Stays s₀ (s.setPar id inst v) :=
  h.set

theorem Stays.advance (h : Stays s₀ s) {dt : Nat} : Stays s₀ (s.advance dt) :=
  h.set

/-! ### Transmit -/

theorem Stays.setCtr (h : Stays s₀ s) {id inst v : Nat} : Stays s₀ (s.setCtr id inst v) :=
  h.kept (setCtr_keptLogs _ _ _ _).1

theorem Stays.count (h : Stays s₀ s) {id inst n : Nat} : Stays s₀ (s.count id inst n) :=
  h.kept (count_keptLogs _ _ _ _).1

theorem Stays.count2 (h : Stays s₀ s) {id inst n : Nat} : Stays s₀ (s.count2 id inst n) :=
  h.kept (count2_keptLogs _ _ _ _).1

theorem Stays.clearCounters (h : Stays s₀ s) {u : Nat} : Stays s₀ (s.clearCounters u) :=
  h.set

theorem Stays.fifoRead (h : Stays s₀ s) {f n : Nat} : Stays s₀ (s.fifoRead f n) :=
  h.kept (fifoRead_keptLogs _ _ _).1

theorem Stays.takeWords (h : Stays s₀ s) {f : Nat} : Stays s₀ (s.takeWords f).1 :=
  h.kept (takeWords_keptLogs _ _).1

theorem Stays.takeItem (h : Stays s₀ s) {f : Nat} : Stays s₀ (s.takeItem f).1 :=
  h.kept (takeItem_keptLogs _ _).1

theorem Stays.setRing (h : Stays s₀ s) {n : Nat} {r : Ring} : Stays s₀ (s.setRing n r) :=
  h.kept (setRing_keptLogs _ _ _).1

theorem Stays.emit (h : Stays s₀ s) {o : Output} : Stays s₀ (s.emit o) :=
  h.kept (emit_keptLogs _ _).1

theorem Stays.raiseIrq (h : Stays s₀ s) {v : Nat} : Stays s₀ (s.raiseIrq v) :=
  h.kept (raiseIrq_keptLogs _ _).1

theorem Stays.fillBuf (h : Stays s₀ s) {n : Nat} : Stays s₀ (s.fillBuf n) :=
  h.kept (fillBuf_keptLogs _ _).1

theorem Stays.setPort (h : Stays s₀ s) {n : Nat} {p : Port} : Stays s₀ (s.setPort n p) :=
  h.kept (setPort_keptLogs _ _ _).1

theorem Stays.startTx (h : Stays s₀ s) {n : Nat} : Stays s₀ (s.startTx n) :=
  h.kept (startTx_keptLogs _ _).1

theorem Stays.completeSend (h : Stays s₀ s) {ring status : Nat} {stamp : Option Nat} :
    Stays s₀ (s.completeSend ring status stamp) :=
  h.setRing.emit.raiseIrq

theorem Stays.queueTx (h : Stays s₀ s) {n : Nat} {x : TxItem} : Stays s₀ (s.queueTx n x) :=
  h.kept (queueTx_keptLogs _ _ _).1

theorem Stays.sendFrames' (h : Stays s₀ s) {n rank : Nat} {tso : Bool} {msg : Option Output} {x : List (List Byte)} :
    Stays s₀ (s.sendFrames' n rank tso msg x) :=
  h.kept (sendFrames'_keptLogs _ _ _ _ _ _).1

theorem Stays.sendUdp (h : Stays s₀ s) {n rank srcPort : Nat} {peer : Peer} {payload : List Byte} {msg : Option Output} :
    Stays s₀ (s.sendUdp n rank srcPort peer payload msg) :=
  h.kept (sendUdp_keptLogs _ _ _ _ _ _ _).1

theorem Stays.sendTcp (h : Stays s₀ s) {k rank : Nat} {data : List Byte} {msg : Option Output} :
    Stays s₀ (s.sendTcp k rank data msg) :=
  h.kept (sendTcp_keptLogs _ _ _ _ _).1

/-! ### Ops -/

theorem Stays.noticeUdp (h : Stays s₀ s) {port : Option Nat} {peer : Peer} {d : NoticeDest} {seq : Word} {n : Notice} :
    Stays s₀ (s.noticeUdp port peer d seq n) :=
  h.kept (noticeUdp_keptLogs _ _ _ _ _ _).1

theorem Stays.noticeTo (h : Stays s₀ s) {d : NoticeDest} {n : Notice} : Stays s₀ (s.noticeTo d n) :=
  h.kept (noticeTo_keptLogs _ _ _).1

theorem Stays.noticeAll (h : Stays s₀ s) {n : Notice} : Stays s₀ (s.noticeAll n) :=
  h.kept (noticeAll_keptLogs _ _).1

theorem Stays.notify (h : Stays s₀ s) {op status u : Nat} {payload : List Word} : Stays s₀ (s.notify op status u payload) :=
  h.kept (notify_keptLogs _ _ _ _ _).1

theorem Stays.setLog (h : Stays s₀ s) {m : Bool} {l : Log} : Stays s₀ (s.setLog m l) :=
  h.kept (setLog_kept _ _ _)

theorem Stays.wearAdd (h : Stays s₀ s) {word n : Nat} : Stays s₀ (s.wearAdd word n) :=
  h.kept (wearAdd_kept _ _ _)

theorem Stays.flushLog (h : Stays s₀ s) {m : Bool} : Stays s₀ (s.flushLog m) :=
  h.kept (flushLog_kept _ _)

theorem Stays.flushLogs (h : Stays s₀ s) : Stays s₀ s.flushLogs :=
  h.kept (flushLogs_kept _)

theorem Stays.pushRecord (h : Stays s₀ s) {m : Bool} {r : EvRec} : Stays s₀ (s.pushRecord m r) :=
  h.kept (pushRecord_kept _ _ _)

theorem Stays.admitGen (h : Stays s₀ s) {code u sev supp t : Nat} {par : DWord} :
    Stays s₀ (s.admitGen code u sev supp t par) :=
  h.kept (admitGen_kept _ _ _ _ _ _ _)

theorem Stays.endFreeze (h : Stays s₀ s) {m : Bool} {cause : Nat} : Stays s₀ (s.endFreeze m cause) :=
  h.kept (endFreeze_kept _ _ _)

theorem Stays.admitMet (h : Stays s₀ s) {code u sev : Nat} {plinth : Bool} {t : Nat} {par : DWord} :
    Stays s₀ (s.admitMet code u sev plinth t par).1 :=
  h.kept (admitMet_kept _ _ _ _ _ _ _)

theorem Stays.setBucket (h : Stays s₀ s) {code : Nat} {b : Bucket} : Stays s₀ (s.setBucket code b) :=
  h.kept (setBucket_kept _ _ _)

theorem Stays.logEvB (h : Stays s₀ s) {code u t : Nat} {par : DWord} {plinth : Bool} :
    Stays s₀ (s.logEvB code u t par plinth).1 :=
  h.kept (logEvB_kept _ _ _ _ _ _)

theorem Stays.logEv (h : Stays s₀ s) {code u t : Nat} {par : DWord} : Stays s₀ (s.logEv code u t par) :=
  h.kept (logEv_kept _ _ _ _ _)

theorem Stays.logCus (h : Stays s₀ s) {code t : Nat} {par : DWord} : Stays s₀ (s.logCus code t par) :=
  h.kept (logCus_kept _ _ _ _)

theorem Stays.setUnit (h : Stays s₀ s) {u st : Nat} : Stays s₀ (s.setUnit u st) :=
  h.set.notify

theorem Stays.setUnitQuiet (h : Stays s₀ s) {u st : Nat} : Stays s₀ (s.setUnitQuiet u st) :=
  h.set

theorem Stays.spareUsed (h : Stays s₀ s) {kind inst remaining : Nat} : Stays s₀ (s.spareUsed kind inst remaining) :=
  h.set.notify.logEv

theorem Stays.placeReply (h : Stays s₀ s) {ring len : Nat} {r : Reply} : Stays s₀ (s.placeReply ring len r) :=
  h.kept (placeReply_keptLogs _ _ _ _).1

theorem Stays.sendReply (h : Stays s₀ s) {r : Reply} : Stays s₀ (s.sendReply r) :=
  h.kept (sendReply_keptLogs _ _).1

theorem Stays.sendOwed (h : Stays s₀ s) : Stays s₀ s.sendOwed :=
  h.kept (sendOwed_keptLogs _).1

theorem Stays.sendInOrder (h : Stays s₀ s) {u : Nat} {r : Reply} : Stays s₀ (s.sendInOrder u r) :=
  h.kept (sendInOrder_keptLogs _ _ _).1

theorem Stays.answer (h : Stays s₀ s) {key : Option (List Byte)} {q : Req} {op u : Nat} {a : Ans} :
    Stays s₀ (s.answer key q op u a) :=
  h.kept (answer_keptLogs _ _ _ _ _ _).1

theorem Stays.owe (h : Stays s₀ s) {q : Req} {op u : Nat} : Stays s₀ (s.owe q op u) :=
  h.kept (owe_keptLogs _ _ _ _).1

theorem Stays.answerLater (h : Stays s₀ s) {q : Req} {op u : Nat} {a : Ans} : Stays s₀ (s.answerLater q op u a) :=
  h.kept (answerLater_keptLogs _ _ _ _ _).1

theorem Stays.dropOld (h : Stays s₀ s) {u : Nat} : Stays s₀ (s.dropOld u) :=
  h.set.sendOwed

theorem Stays.newEpoch (h : Stays s₀ s) {u st : Nat} : Stays s₀ (s.newEpoch u st) :=
  h.set.dropOld.notify.logEv

theorem Stays.checkSession (h : Stays s₀ s) {q : Req} {op : Nat} : Stays s₀ (s.checkSession q op).1 := by
  unfold State.checkSession
  refine .iteFst (.iteFst h.count h) ?_
  split
  · exact h.count
  · exact .iteFst h.count (.iteFst h.count h.set)

theorem Stays.admission (h : Stays s₀ s) {q : Req} {op u least : Nat} {unitCheck : Bool} :
    Stays s₀ (s.admission q op u least unitCheck).1 := by
  obtain ⟨n, m, e, -⟩ := admission_frame s q op u least unitCheck
  rw [e]
  exact h.set

theorem Stays.noteDepth (h : Stays s₀ s) {levels : List Nat} : Stays s₀ (s.noteDepth levels) :=
  h.taken (noteDepth_taken _ _)

theorem Stays.taskReady (h : Stays s₀ s) {level num : Nat} : Stays s₀ (s.taskReady level num) :=
  h.set.noteDepth

theorem Stays.taskWaits (h : Stays s₀ s) {level num n : Nat} : Stays s₀ (s.taskWaits level num n) :=
  .ite h.taskReady h.set

theorem Stays.prerequisiteDone (h : Stays s₀ s) {num : Nat} : Stays s₀ (s.prerequisiteDone num) := by
  unfold State.prerequisiteDone
  split
  · exact .ite h.set.taskReady h.set
  · exact h

theorem Stays.taskDiscard (h : Stays s₀ s) {num : Nat} : Stays s₀ (s.taskDiscard num) :=
  h.set

theorem Stays.taskRun (h : Stays s₀ s) {num : Nat} : Stays s₀ (s.taskRun num) :=
  h.set

theorem Stays.fetchMore (h : Stays s₀ s) : Stays s₀ s.fetchMore :=
  h.taken (fetchMore_taken _)

theorem Stays.bufferPacket (h : Stays s₀ s) {c : Carriage} {bytes : List Byte} : Stays s₀ (s.bufferPacket c bytes) :=
  h.set.fetchMore

theorem Stays.release (h : Stays s₀ s) {c : Carriage} : Stays s₀ (s.release c) :=
  h.taken (release_taken _ _)

theorem Stays.tcpEnd (h : Stays s₀ s) {k : Nat} : Stays s₀ (s.tcpEnd k) :=
  h.set.emit

theorem Stays.arrive (h : Stays s₀ s) {c : Carriage} {op : Nat} : Stays s₀ (s.arrive c op).1 :=
  h.taken (arrive_taken _ _ _)

theorem Stays.framingReply (h : Stays s₀ s) {r : Reply} : Stays s₀ (s.framingReply r) := by
  unfold State.framingReply
  dsimp only
  split
  · exact h.count.sendInOrder.tcpEnd
  · exact h.count.sendInOrder

theorem Stays.poisonedRequest (h : Stays s₀ s) {q : Req} {op : Nat} : Stays s₀ (s.poisonedRequest q op) :=
  h.framingReply

/-- R39: serving a packet is admission, the body and the answers, so a body that stays is served staying. -/
theorem Stays.serve {q : Req} {op u least need : Nat} {unitCheck : Bool} {body : Nat → State → State × Option Ans}
    (h : Stays s₀ s) (run : ∀ {s₀ role t}, Stays s₀ t → Stays s₀ (body role t).1) :
    Stays s₀ (s.serve q op u least need unitCheck body) :=
  h.trans (serve_rel (R := Stays) .trans .refl (fun s _ => (refl s).release) (fun s _ _ => (refl s).arrive)
    (fun s _ _ => (refl s).poisonedRequest) (fun s _ _ _ _ _ => (refl s).admission) (fun s _ _ _ _ _ => (refl s).answer)
    (fun s _ _ _ => (refl s).owe) (fun _ t => run (refl t)))

/-! ### Recorder -/

theorem Stays.setRec (h : Stays s₀ s) {n : Nat} {r : Rec} : Stays s₀ (s.setRec n r) :=
  h.set

theorem Stays.capPulse (h : Stays s₀ s) {n : Nat} : Stays s₀ (s.capPulse n) :=
  .ite h.set h

theorem Stays.captureDone (h : Stays s₀ s) {n cause flags id trig pre post : Nat} :
    Stays s₀ (s.captureDone n cause flags id trig pre post) :=
  h.notify

theorem Stays.endRecordTo (h : Stays s₀ s) {n flags st : Nat} : Stays s₀ (s.endRecordTo n flags st) := by
  unfold State.endRecordTo
  dsimp only
  split
  · exact h
  · exact h.setRec.count2.captureDone

theorem Stays.endRecord (h : Stays s₀ s) {n : Nat} : Stays s₀ (s.endRecord n) :=
  h.endRecordTo

theorem Stays.startRecord (h : Stays s₀ s) {n cause stamp : Nat} : Stays s₀ (s.startRecord n cause stamp) := by
  unfold State.startRecord
  extract_lets r clamped k before rows left open_ step need kept gone c _ _ s₁
  have h₁ : Stays s₀ s₁ := (Stays.ite h h.count2).setRec.capPulse
  exact .ite h₁.endRecord h₁

theorem Stays.rollMark (h : Stays s₀ s) {n cause stamp : Nat} : Stays s₀ (s.rollMark n cause stamp) :=
  h.setRec.capPulse.captureDone

theorem Stays.capFire (h : Stays s₀ s) {n : Nat} {t : Nat × Nat} : Stays s₀ (s.capFire n t) := by
  unfold State.capFire
  dsimp only
  split
  · exact .ite h.rollMark (.ite h.setRec h.startRecord)
  · exact .ite h.rollMark (.ite h.setRec h.startRecord)
  · exact h.setRec.count2
  · exact h.count2.logEv
  · exact h.count2
  · exact h

theorem Stays.capFires (h : Stays s₀ s) {n : Nat} {l : List (Nat × Nat)} : Stays s₀ (s.capFires n l) :=
  h.foldl fun h => h.capFire

theorem Stays.capEvent (h : Stays s₀ s) {kind : Nat} {hit : Nat → Option Bool} {stamp : Nat} :
    Stays s₀ (s.capEvent kind hit stamp) :=
  .ite (h.foldl fun h => .ite h h.capFires) h

theorem Stays.alarmT (h : Stays s₀ s) {u cls inst : Nat} {raised test : Bool} {t : Nat} :
    Stays s₀ (s.alarmT u cls inst raised test t) :=
  .ite h h.set.notify.capEvent

theorem Stays.alarm (h : Stays s₀ s) {u cls inst : Nat} {raised : Bool} {t : Nat} : Stays s₀ (s.alarm u cls inst raised t) :=
  h.alarmT

/-! ### Ports -/

theorem Stays.receive (h : Stays s₀ s) {n : Nat} {f : RxFrame} : Stays s₀ (s.receive n f) := by
  unfold State.receive
  split
  · exact h.count
  · exact h.setPort

theorem execFrameReceived_stays (h : Stays s₀ s) {dt port : Nat} {frame : RxFrame} :
    NextStays s₀ (execFrameReceived dt port frame s) :=
  Stays.next (.ite h.advance.receive h.advance)

theorem Stays.toManagement (h : Stays s₀ s) {n stamp : Nat} {data : List Byte} : Stays s₀ (s.toManagement n stamp data) :=
  .ite h.setRing.count.emit.raiseIrq h.count

theorem Stays.poisonOn (h : Stays s₀ s) {bad : Bool} : Stays s₀ (s.poisonOn bad) :=
  .ite h.set h

theorem Stays.takeSteered (h : Stays s₀ s) {n d stamp : Nat} {l : List Byte} : Stays s₀ (s.takeSteered n d stamp l) := by
  unfold State.takeSteered
  dsimp only
  split
  · exact (Stays.iteFst h h.takeItem).toManagement
  · split
    · exact (Stays.iteFst h h.takeItem).count.emit.poisonOn.bufferPacket
    · exact (Stays.iteFst h h.takeItem).count.emit.sendFrames'
    · exact (Stays.iteFst h h.takeItem).count.emit

theorem Stays.steerFrame (h : Stays s₀ s) {n stamp : Nat} {l : List Byte} {rest : List (Nat × List Byte)} :
    Stays s₀ (s.steerFrame n stamp l rest) :=
  h.setPort.count.count.takeSteered

theorem execRxFrameSteer_stays (h : Stays s₀ s) {dt port : Nat} : NextStays s₀ (execRxFrameSteer dt port s) := by
  unfold execRxFrameSteer
  refine Stays.next ?_
  split
  · exact .ite h.advance.steerFrame h.advance
  · exact h.advance

theorem Stays.reassembled (h : Stays s₀ s) {r : Reassembly} : Stays s₀ (s.reassembled r) :=
  .ite h.poisonOn.bufferPacket h.toManagement

theorem Stays.setReasm (h : Stays s₀ s) {l : List Reassembly} : Stays s₀ (s.setReasm l) :=
  h.set

theorem Stays.addFragment (h : Stays s₀ s) {f : Fragment} {bad : Bool} : Stays s₀ (s.addFragment f bad) := by
  unfold State.addFragment
  dsimp only
  split
  · exact .ite h.setReasm.reassembled h.setReasm
  · exact .ite (.ite h.reassembled h.setReasm) h.count

theorem execFragmentReceived_stays (h : Stays s₀ s) {dt : Nat} {frag : Fragment} :
    NextStays s₀ (execFragmentReceived dt frag s) :=
  Stays.next (.ite h.advance.takeItem.addFragment h.advance)

theorem Stays.dropStale (h : Stays s₀ s) : Stays s₀ s.dropStale :=
  h.set.foldl fun h => h.count

theorem execReassemblyTimeout_stays (h : Stays s₀ s) {dt : Nat} : NextStays s₀ (execReassemblyTimeout dt s) :=
  h.advance.dropStale.next

theorem Stays.emitMsg (h : Stays s₀ s) {x : TxItem} : Stays s₀ (s.emitMsg x) := by
  unfold State.emitMsg
  split
  · exact .ite h.emit h
  · exact h

theorem Stays.frameSent (h : Stays s₀ s) {n : Nat} {x : TxItem} : Stays s₀ (s.frameSent n x) := by
  unfold State.frameSent
  extract_lets _ s₁
  have h₁ : Stays s₀ s₁ := (Stays.ite h.count.count.emit.count h.count.count.emit).emitMsg
  split
  · exact .ite h₁.completeSend h₁
  · exact h₁

theorem Stays.finishTx (h : Stays s₀ s) {n : Nat} : Stays s₀ (s.finishTx n) := by
  unfold State.finishTx
  split
  · exact h
  · dsimp only
    refine .startTx ?_
    split
    · exact h.setPort.takeItem.count.setPort
    · exact h.setPort.takeItem.frameSent

theorem execTxFrame_stays (h : Stays s₀ s) {dt port : Nat} : NextStays s₀ (execTxFrame dt port s) :=
  Stays.next (.ite h.advance.finishTx h.advance)

theorem Stays.queueSend (h : Stays s₀ s) {n ring : Nat} {tsReq tso first : Bool} {l : List (List Byte)} :
    Stays s₀ (s.queueSend n ring tsReq tso first l) := by
  induction l generalizing s first with
  | nil => exact h
  | cons f l ih => exact ih h.queueTx

theorem Stays.txSend (h : Stays s₀ s) {ring : Nat} : Stays s₀ (s.txSend ring) := by
  unfold State.txSend
  dsimp only
  split
  · exact h
  · split
    · exact h.setRing.count.completeSend
    · exact .ite h.setRing.queueSend h.setRing.count.completeSend

theorem execTxSend_stays (h : Stays s₀ s) {dt ring : Nat} : NextStays s₀ (execTxSend dt ring s) :=
  Stays.next (.ite h.advance.txSend h.advance)

theorem Stays.phyWrite (h : Stays s₀ s) {n register value : Nat} : Stays s₀ (s.phyWrite n register value) :=
  h.emit

theorem Stays.bringUp (h : Stays s₀ s) {n : Nat} : Stays s₀ (s.bringUp n) :=
  .ite h.phyWrite.phyWrite.emit.phyWrite.setPort h

theorem Stays.dropQueued (h : Stays s₀ s) {n status : Nat} : Stays s₀ (s.dropQueued n status) :=
  h.setPort.count.foldl fun h => h.completeSend

theorem Stays.linkDown (h : Stays s₀ s) {n : Nat} : Stays s₀ (s.linkDown n) :=
  .ite h.setPort.count.dropQueued h

theorem Stays.linkUp (h : Stays s₀ s) {n : Nat} {st : PhyStatus} : Stays s₀ (s.linkUp n st) :=
  .ite h (.ite (.ite h.linkDown h.linkDown.setPort.count) (.ite h.setPort h))

theorem execLinkDown_stays (h : Stays s₀ s) {dt port : Nat} : NextStays s₀ (execLinkDown dt port s) :=
  Stays.next (.ite h.advance.linkDown h.advance)

theorem execLinkUp_stays (h : Stays s₀ s) {dt port : Nat} {status : PhyStatus} : NextStays s₀ (execLinkUp dt port status s) :=
  Stays.next (.ite h.advance.linkUp h.advance)

theorem Stays.phyPoll (h : Stays s₀ s) {n : Nat} {st : PhyStatus} : Stays s₀ (s.phyPoll n st) :=
  .ite h.setPort.linkUp h.setPort.linkDown.setPort

theorem execPhyStatusPoll_stays (h : Stays s₀ s) {dt port : Nat} {status : PhyStatus} :
    NextStays s₀ (execPhyStatusPoll dt port status s) :=
  Stays.next (.ite h.advance.phyPoll h.advance)

theorem Stays.shift (h : Stays s₀ s) {n : Nat} {down : Bool} : Stays s₀ (s.shift n down) :=
  h.setPort.count.logEv.linkDown.bringUp

theorem Stays.utilisation (h : Stays s₀ s) {n bits : Nat} : Stays s₀ (s.utilisation n bits) :=
  .ite (.ite h.setPort.shift h.setPort) (.ite (.ite h.setPort.shift h.setPort.setPort) h.setPort.setPort)

theorem execDownshiftWindow_stays (h : Stays s₀ s) {dt port rxBits txBits : Nat} :
    NextStays s₀ (execDownshiftWindow dt port rxBits txBits s) :=
  Stays.next (.ite h.advance.utilisation h.advance)

theorem execDownshiftLinkTimeout_stays (h : Stays s₀ s) {dt port : Nat} : NextStays s₀ (execDownshiftLinkTimeout dt port s) :=
  Stays.next (.ite h.advance.shift.setPort h.advance)

theorem Stays.portsReset (h : Stays s₀ s) : Stays s₀ s.portsReset :=
  h.foldl fun h => (Stays.ite h.count h).setPort.foldl fun h => h.completeSend

theorem Stays.portCommit (h : Stays s₀ s) {n : Nat} {mode pct : Bool} : Stays s₀ (s.portCommit n mode pct) := by
  unfold State.portCommit
  extract_lets _ s₁
  have h₁ : Stays s₀ s₁ := .ite h.linkDown.setPort.bringUp h
  exact .ite (.ite h₁.setPort.shift h₁.setPort) h₁

/-! ### Sources -/

theorem Stays.setSrc (h : Stays s₀ s) {n : Nat} {x : Src} : Stays s₀ (s.setSrc n x) :=
  h.set

theorem Stays.maqWrite (h : Stays s₀ s) {key session : Nat} {v : MaqVal} : Stays s₀ (s.maqWrite key session v).1 :=
  .iteFst h (.iteFst h h.set)

theorem Stays.setPod (h : Stays s₀ s) {n : Nat} {p : Pod} : Stays s₀ (s.setPod n p) :=
  h.set

/-! ### Alignment -/

theorem Stays.setSlot (h : Stays s₀ s) {p g : Nat} {x : Slot} : Stays s₀ (s.setSlot p g x) :=
  h.setPod

theorem Stays.countPod (h : Stays s₀ s) {id p n : Nat} : Stays s₀ (s.countPod id p n) :=
  .ite h h.count2

theorem Stays.openSlot (h : Stays s₀ s) {p g : Nat} : Stays s₀ (s.openSlot p g) :=
  h.setSlot

theorem Stays.dropEgress (h : Stays s₀ s) {p n k : Nat} : Stays s₀ (s.dropEgress p n k) :=
  h.countPod.count

theorem Stays.oafTo (h : Stays s₀ s) {p : Nat} {w : List Word} {o : OafOut} : Stays s₀ (s.oafTo p w o) :=
  .ite (h.foldl fun h => h.sendUdp) h.dropEgress

theorem Stays.podDataTo (h : Stays s₀ s) {p : Nat} {d : NoticeDest} {named : Bool} {o : OafOut} :
    Stays s₀ (s.podDataTo p d named o) :=
  h.foldl fun h => .ite h.noticeTo.countPod h.noticeTo

theorem Stays.c37To (h : Stays s₀ s) {p d : Nat} {w : List Word} {kind : Nat} {bytes : List Byte} :
    Stays s₀ (s.c37To p d w kind bytes) := by
  unfold State.c37To
  dsimp only
  refine .ite h.dropEgress (.ite h.sendUdp ?_)
  split
  · exact h.sendTcp
  · exact h

theorem Stays.editionTo (h : Stays s₀ s) {p g : Nat} {x : Slot} {n : Nat} {o : OafOut} {d : Nat} :
    Stays s₀ (s.editionTo p g x n o d) := by
  unfold State.editionTo
  dsimp only
  split
  · exact .ite h.oafTo (.ite h.c37To h)
  · exact .ite h.countPod (.ite h.c37To h)
  · exact h.podDataTo
  · exact h

theorem Stays.sendLayout (h : Stays s₀ s) {p : Nat} {d : PodDef} {commit : Bool} : Stays s₀ (s.sendLayout p d commit) := by
  unfold State.sendLayout
  extract_lets o s₁
  have h₁ : Stays s₀ s₁ := by
    dsimp only [s₁]
    refine h.foldl fun h => ?_
    split
    · exact .ite h.oafTo h
    · exact h.podDataTo
    · exact h
  exact .ite (h₁.foldl fun h => h.podDataTo) h₁

theorem Stays.layoutFirst (h : Stays s₀ s) {p : Nat} {d : PodDef} : Stays s₀ (s.layoutFirst p d) :=
  .ite h.sendLayout.setPod h

theorem Stays.egress (h : Stays s₀ s) {p g : Nat} {x : Slot} {n cause : Nat} : Stays s₀ (s.egress p g x n cause) :=
  .ite (((Stays.ite h.layoutFirst h).foldl fun h => h.editionTo).foldl fun h => h.podDataTo) h

theorem Stays.slotEvent (h : Stays s₀ s) {p g : Nat} {x : Slot} {n cause : Nat} {issued : Bool} :
    Stays s₀ (s.slotEvent p g x n cause issued) :=
  .ite h.notify h

theorem Stays.freeStore (h : Stays s₀ s) {x : Slot} : Stays s₀ (s.freeStore x) :=
  .ite h h.set

theorem Stays.feedTrackers (h : Stays s₀ s) {p g : Nat} {x : Slot} : Stays s₀ (s.feedTrackers p g x) :=
  h.foldl fun h => .ite h.set h

theorem Stays.feedLogic (h : Stays s₀ s) {p g : Nat} {x : Slot} : Stays s₀ (s.feedLogic p g x) := by
  unfold State.feedLogic
  dsimp only
  split
  · exact .ite h.setPod h
  · exact h.setPod

theorem Stays.closeSlotCore (h : Stays s₀ s) {p g cause : Nat} : Stays s₀ (s.closeSlotCore p g cause) := by
  unfold State.closeSlotCore
  split
  · exact h
  · refine .ite h ?_
    extract_lets pod es soon missing y _ _ _ s₁
    have h₁ : Stays s₀ s₁ := h.freeStore.setSlot.setPod.countPod.countPod
    exact .ite (.ite h₁.countPod h₁) (Stays.ite h₁.countPod h₁).feedTrackers.feedLogic.egress.slotEvent

theorem Stays.deepReady (h : Stays s₀ s) {p g : Nat} : Stays s₀ (s.deepReady p g) := by
  unfold State.deepReady
  split
  · exact h
  · exact .ite h.takeWords.setSlot.feedTrackers.feedLogic.egress.slotEvent h

theorem Stays.revise (h : Stays s₀ s) {p g : Nat} {x : Slot} {cause : Nat} {final : Bool} :
    Stays s₀ (s.revise p g x cause final) :=
  h.setSlot.countPod.egress.slotEvent

theorem Stays.finish (h : Stays s₀ s) {p g cause : Nat} : Stays s₀ (s.finish p g cause) := by
  unfold State.finish
  split
  · exact h
  · exact .ite h (.ite h.setSlot.slotEvent h.revise)

theorem Stays.drainFinals (h : Stays s₀ s) : Stays s₀ s.drainFinals :=
  .ite (h.foldl fun h => h.finish) h

theorem Stays.closeSlot (h : Stays s₀ s) {p g cause : Nat} : Stays s₀ (s.closeSlot p g cause) :=
  h.closeSlotCore.drainFinals

theorem Stays.releaseSlot (h : Stays s₀ s) {p g : Nat} : Stays s₀ (s.releaseSlot p g) := by
  unfold State.releaseSlot
  split
  · exact h
  · exact h.setPod.set

theorem Stays.pruneDests (h : Stays s₀ s) {p : Nat} : Stays s₀ (s.pruneDests p) :=
  h.set.foldl fun h => h.tcpEnd

theorem execSlotOpen_stays (h : Stays s₀ s) {dt pod slot : Nat} : NextStays s₀ (execSlotOpen dt pod slot s) :=
  Stays.next (.ite h.advance.openSlot.setPod h.advance)

theorem execSlotCloseAtNominal_stays (h : Stays s₀ s) {dt pod slot : Nat} :
    NextStays s₀ (execSlotCloseAtNominal dt pod slot s) := by
  unfold execSlotCloseAtNominal
  refine Stays.next ?_
  split
  · exact .ite h.advance.closeSlot h.advance
  · exact h.advance

theorem execSlotDeadlineTick_stays (h : Stays s₀ s) {dt pod slot : Nat} :
    NextStays s₀ (execSlotDeadlineTick dt pod slot s) := by
  unfold execSlotDeadlineTick
  refine Stays.next ?_
  split
  · exact .ite h.advance.closeSlot h.advance
  · exact h.advance

theorem Stays.batchExpiry (h : Stays s₀ s) {p g cause : Nat} : Stays s₀ (s.batchExpiry p g cause) := by
  unfold State.batchExpiry
  split
  · exact .ite h h.revise.drainFinals
  · exact h

theorem execRevBatchExpiry_stays (h : Stays s₀ s) {dt pod slot : Nat} : NextStays s₀ (execRevBatchExpiry dt pod slot s) := by
  unfold execRevBatchExpiry
  refine Stays.next ?_
  split
  · exact .ite h.advance.batchExpiry h.advance
  · exact h.advance

theorem execRevHorizonExpiry_stays (h : Stays s₀ s) {dt pod slot : Nat} :
    NextStays s₀ (execRevHorizonExpiry dt pod slot s) := by
  unfold execRevHorizonExpiry
  refine Stays.next ?_
  split
  · exact .ite h.advance.finish h.advance
  · exact h.advance

theorem execSlotRelease_stays (h : Stays s₀ s) {dt pod slot : Nat} : NextStays s₀ (execSlotRelease dt pod slot s) := by
  unfold execSlotRelease
  refine Stays.next ?_
  split
  · exact .ite h.advance.releaseSlot.pruneDests h.advance
  · exact h.advance

theorem execDeepWaitEditionReady_stays (h : Stays s₀ s) {dt pod slot : Nat} :
    NextStays s₀ (execDeepWaitEditionReady dt pod slot s) :=
  h.advance.deepReady.next

theorem execOafLayoutRepeat_stays (h : Stays s₀ s) {dt pod : Nat} : NextStays s₀ (execOafLayoutRepeat dt pod s) :=
  Stays.next (.ite h.advance.setPod h.advance)

theorem Stays.pressureClose (h : Stays s₀ s) {p g : Nat} : Stays s₀ (s.pressureClose p g) :=
  .ite h.closeSlot.countPod.setPod.logEv h.closeSlot.countPod.setPod

theorem Stays.makeRoom (h : Stays s₀ s) : Stays s₀ s.makeRoom := by
  unfold State.makeRoom
  refine .ite ?_ h
  split
  · exact h.pressureClose
  · exact h

theorem Stays.lateEntry (h : Stays s₀ s) {p g pos : Nat} {x : Slot} {e : Entry} {free : Bool} :
    Stays s₀ (s.lateEntry p g pos x e free) :=
  .ite h.countPod (.ite h.countPod (.ite h.countPod (.ite h.countPod h.setSlot.set.countPod)))

theorem Stays.deepTake (h : Stays s₀ s) {arrival : Nat} : Stays s₀ (s.deepTake arrival).1 :=
  h.set

theorem Stays.openEntry (h : Stays s₀ s) {p g pos stamp : Nat} {x : Slot} {e : Entry} :
    Stays s₀ (s.openEntry p g pos stamp x e) :=
  .ite h.setSlot h.setSlot.set

theorem Stays.putEntry (h : Stays s₀ s) {p g pos stamp arrival : Nat} {e : Entry} :
    Stays s₀ (s.putEntry p g pos stamp arrival e) := by
  unfold State.putEntry
  split
  · exact h.countPod
  · refine .ite h.lateEntry (.ite h.countPod (.ite (.ite h.set.openEntry h.set.countPod) ?_))
    dsimp only
    split
    · exact h.makeRoom
    · exact .ite h.makeRoom.lateEntry h.makeRoom.openEntry

theorem Stays.memberArrives (h : Stays s₀ s) {p g src : Nat} : Stays s₀ (s.memberArrives p g src) := by
  unfold State.memberArrives
  split
  · exact h
  · exact .ite h (.ite h.setSlot.closeSlot h.setSlot)

theorem Stays.putFrame (h : Stays s₀ s) {p g src stamp arrival : Nat} {d : PodDef} {es : List InEntry} :
    Stays s₀ (s.putFrame p g src stamp arrival d es) := by
  unfold State.putFrame
  dsimp only
  refine .memberArrives (h.foldl fun h => ?_)
  split
  · exact h.putEntry
  · exact h

theorem Stays.placeInPod (h : Stays s₀ s) {p src stamp arrival : Nat} {es : List InEntry} :
    Stays s₀ (s.placeInPod p src stamp arrival es) := by
  unfold State.placeInPod
  extract_lets held d
  clear_value held
  cases held with
  | some z => exact .ite h.countPod h.putFrame
  | none =>
    refine .ite ?_ h
    generalize d.members.find? (fun m => m.src == src) = found
    generalize gridNear d.rate d.tolNs stamp = near
    cases found with
    | none => exact h
    | some m =>
      cases near with
      | none => exact .ite h.countPod h
      | some g => exact .ite h.countPod (.ite h.openSlot.putFrame h.countPod)

theorem Stays.placeFrame (h : Stays s₀ s) {src stamp arrival : Nat} {es : List InEntry} :
    Stays s₀ (s.placeFrame src stamp arrival es) :=
  h.foldl fun h => .ite h.placeInPod h

theorem Stays.gooseFuture (h : Stays s₀ s) {src n : Nat} : Stays s₀ (s.gooseFuture src n) :=
  h.foldl fun h => .ite h.countPod h

theorem Stays.gooseLate (h : Stays s₀ s) {src arrival : Nat} {m : GooseMsg} : Stays s₀ (s.gooseLate src arrival m) := by
  unfold State.gooseLate
  refine h.foldl fun h => h.foldl fun h => ?_
  split
  · exact h.lateEntry
  · exact h

theorem Stays.fireStep (h : Stays s₀ s) {t : Nat × Nat × Nat} : Stays s₀ (s.fireStep t) := by
  unfold State.fireStep
  split
  · exact h
  · exact .ite h.closeSlot (.ite h.batchExpiry (.ite h.finish h))

theorem Stays.stepSlots (h : Stays s₀ s) {p a b : Nat} : Stays s₀ (s.stepSlots p a b) :=
  .ite (h.foldl fun h => .ite h.openSlot.closeSlot h).setPod h

theorem Stays.alnStep (h : Stays s₀ s) {a b : Nat} : Stays s₀ (s.alnStep a b) :=
  .ite ((h.foldl fun h => h.fireStep).foldl fun h => h.stepSlots) h.set

theorem Stays.reform (h : Stays s₀ s) {p g : Nat} {x : Slot} : Stays s₀ (s.reform p g x) := by
  refine h.freeStore.setPod.foldl fun {s e} h => ?_
  split
  · refine .ite ?_ h.countPod
    extract_lets d
    split
    · extract_lets s₁
      have opened : Stays s₀ s₁ := .ite h.openSlot h
      split
      · refine .ite opened.lateEntry (.ite opened.countPod ?_)
        extract_lets s₂
        split
        · exact opened.openEntry.setSlot
        · exact opened.openEntry
      · exact opened.countPod
    · exact h.countPod
  · exact h

theorem Stays.podCommit (h : Stays s₀ s) {p : Nat} {commit : Word} {boundary : Nat} :
    Stays s₀ (s.podCommit p commit boundary) :=
  ((Stays.ite h.set.setPod h.set.setPod.set).foldl fun h => h.reform).pruneDests

theorem Stays.alnFinalise (h : Stays s₀ s) : Stays s₀ s.alnFinalise :=
  ((h.foldl fun h => h.closeSlotCore).foldl fun h => h.deepReady).foldl fun h => h.finish

theorem Stays.alnClear (h : Stays s₀ s) : Stays s₀ s.alnClear :=
  (h.foldl fun h => h.releaseSlot).set

theorem Stays.c37SendConfig (h : Stays s₀ s) {p k : Nat} {d : PodDef} {three : Bool} :
    Stays s₀ (s.c37SendConfig p k d three) :=
  .ite h.countPod (h.foldl fun h => h.c37To)

theorem Stays.c37Command (h : Stays s₀ s) {i : Nat} {peer : Peer} {command : Nat} :
    Stays s₀ (s.c37Command i peer command) := by
  unfold State.c37Command
  dsimp only
  split
  · exact h
  · split
    · exact h.set
    · exact h.set
    · exact h.c37SendConfig
    · exact h.c37SendConfig
    · exact h.countPod

theorem execC37OutputCommand_stays (h : Stays s₀ s) {dt dest : Nat} {peer : Peer} {command : Nat} :
    NextStays s₀ (execC37OutputCommand dt dest peer command s) :=
  Stays.next (.ite h.advance.c37Command h.advance)

theorem execPodReadSlot_stays (h : Stays s₀ s) {dt : Nat} {q : Req} : NextStays s₀ (execPodReadSlot dt q s) :=
  Stays.next (h.advance.serve fun h => h)

theorem Stays.podSubscribe (h : Stays s₀ s) {q : Req} : Stays s₀ (s.podSubscribe q).1 := by
  unfold State.podSubscribe
  dsimp only
  split
  · exact h
  · exact .iteFst h (.iteFst (.iteFst h (.iteFst h (.ite h.set.podDataTo h.set))) h.set)

theorem execPodSubscribe_stays (h : Stays s₀ s) {dt : Nat} {q : Req} : NextStays s₀ (execPodSubscribe dt q s) :=
  Stays.next (h.advance.serve fun h => h.podSubscribe)

/-! ### Topology -/

theorem Stays.setBranch (h : Stays s₀ s) {b : Nat} {x : Branch} : Stays s₀ (s.setBranch b x) :=
  h.set

theorem Stays.startRecompute (h : Stays s₀ s) {stamp : Nat} {test : Bool} : Stays s₀ (s.startRecompute stamp test) :=
  h.set

theorem Stays.needRecompute (h : Stays s₀ s) {stamp : Nat} {test : Bool} : Stays s₀ (s.needRecompute stamp test) :=
  .ite h.set h.startRecompute

theorem Stays.branchSet (h : Stays s₀ s) {b : Nat} {closed : Bool} {stamp : Nat} {test : Bool} :
    Stays s₀ (s.branchSet b closed stamp test) :=
  .ite h h.setBranch.count.needRecompute

theorem Stays.branchBad (h : Stays s₀ s) {b : Nat} {d : BranchDef} {since : Option Nat} {stamp : Nat} {test : Bool} :
    Stays s₀ (s.branchBad b d since stamp test) :=
  .ite h.setBranch h.setBranch.count.alarmT.branchSet

theorem Stays.branchReport (h : Stays s₀ s) {b : Nat} {d : BranchDef} {r : StatusRep} {stamp : Nat} {test : Bool} :
    Stays s₀ (s.branchReport b d r stamp test) := by
  unfold State.branchReport
  dsimp only
  split
  · exact h.setBranch.alarmT.branchSet
  · exact .ite h h.setBranch
  · exact h.branchBad

theorem Stays.gooseReports (h : Stays s₀ s) {src stamp : Nat} {m : GooseMsg} : Stays s₀ (s.gooseReports src stamp m) := by
  unfold State.gooseReports
  refine .ite (h.foldl fun h => ?_) h
  split
  · exact h.branchReport
  · exact h

theorem Stays.gooseDies (h : Stays s₀ s) {src : Nat} : Stays s₀ (s.gooseDies src) :=
  .ite (h.foldl fun h => h.branchReport) h

theorem Stays.gooseLives (h : Stays s₀ s) {src : Nat} : Stays s₀ (s.gooseLives src) := by
  unfold State.gooseLives
  split
  · exact h.gooseReports
  · exact h

theorem Stays.setStation (h : Stays s₀ s) {src : Nat} {x : Station} : Stays s₀ (s.setStation src x) :=
  h.set

theorem Stays.stationLost (h : Stays s₀ s) {src : Nat} : Stays s₀ (s.stationLost src) :=
  .ite h h.setStation.logEv.alarm

theorem Stays.stationBack (h : Stays s₀ s) {src : Nat} : Stays s₀ (s.stationBack src) :=
  .ite h.setStation h

/-! ### Ingress -/

theorem Stays.countSrc (h : Stays s₀ s) {id src n : Nat} : Stays s₀ (s.countSrc id src n) :=
  .ite h h.count2

theorem Stays.latency (h : Stays s₀ s) {src : Nat} {lag : ℤ} : Stays s₀ (s.latency src lag) :=
  .ite (Stays.ite h.countSrc h).setSrc (Stays.ite h.countSrc h).setSrc

theorem Stays.shownAlive (h : Stays s₀ s) {src : Nat} : Stays s₀ (s.shownAlive src) :=
  h.setSrc.alarm.stationBack

theorem Stays.revive (h : Stays s₀ s) {src : Nat} : Stays s₀ (s.revive src) :=
  .ite h.shownAlive.gooseLives h.shownAlive

theorem Stays.rateTake (h : Stays s₀ s) {src rate arrival n : Nat} : Stays s₀ (s.rateTake src rate arrival n).1 :=
  h.setSrc

theorem Stays.accept (h : Stays s₀ s) {src stamp arrival : Nat} {groups : List (Nat × List InEntry)} :
    Stays s₀ (s.accept src stamp arrival groups) :=
  .ite (h.latency.setSrc.shownAlive.countSrc.countSrc.foldl fun h => h.placeFrame) h.latency.setSrc.shownAlive.countSrc

theorem Stays.checkAccept (h : Stays s₀ s) {src : Nat} {d : SrcDef} {stamp arrival n : Nat} {groups : List (Nat × List InEntry)} :
    Stays s₀ (s.checkAccept src d stamp arrival n groups).1 :=
  .iteFst h.countSrc (.iteFst h.accept (.iteFst h.setSrc.accept h.setSrc.countSrc))

theorem Stays.unknown (h : Stays s₀ s) {kind port : Nat} {key : List Byte} {arrival : Nat} :
    Stays s₀ (s.unknown kind port key arrival) :=
  .ite h.count.set h.count

theorem Stays.mismatch (h : Stays s₀ s) {src : Nat} : Stays s₀ (s.mismatch src) :=
  h.setSrc.countSrc

theorem Stays.c37SendTo (h : Stays s₀ s) {src : Nat} {d : SrcDef} {command : Nat} : Stays s₀ (s.c37SendTo src d command) := by
  unfold State.c37SendTo
  dsimp only
  refine .ite ?_ ?_
  · split
    · exact h.sendTcp
    · exact h
  · split
    · exact h.sendUdp
    · exact h

theorem Stays.c37Send (h : Stays s₀ s) {src command : Nat} : Stays s₀ (s.c37Send src command) := by
  unfold State.c37Send
  split
  · exact h.c37SendTo
  · exact h

theorem Stays.askCfg (h : Stays s₀ s) {src : Nat} {d : SrcDef} : Stays s₀ (s.askCfg src d) :=
  h.setSrc.c37Send

theorem Stays.c37Take (h : Stays s₀ s) {arrival : Nat} {l : List Byte} {bad : Nat → Nat → Bool} {src : Nat} {d : SrcDef} :
    Stays s₀ (s.c37Take arrival l bad src d) := by
  unfold State.c37Take
  dsimp only
  refine .ite h.countSrc (.ite h.countSrc ?_)
  split
  · exact h.countSrc
  · split
    · exact h.mismatch
    · split
      · exact h.countSrc
      · exact h.checkAccept

theorem Stays.c37Data (h : Stays s₀ s) {port arrival station : Nat} {l : List Byte} {bad : Nat → Nat → Bool} :
    Stays s₀ (s.c37Data port arrival station l bad) :=
  (h.foldl fun h => h.unknown).foldl fun h => .ite h.c37Take.askCfg h.c37Take

theorem Stays.setCfg (h : Stays s₀ s) {c : C37Cfg} {src : Nat} {d : SrcDef} : Stays s₀ (s.setCfg c src d) :=
  .ite h.setSrc.c37Send h.setSrc

theorem Stays.cfgJoin (h : Stays s₀ s) {idcode station idx : Nat} {body : List Byte} :
    Stays s₀ (s.cfgJoin idcode station idx body).1 := by
  unfold State.cfgJoin
  dsimp only
  refine .iteFst h.set (.iteFst h.set (.iteFst h.set ?_))
  split
  · exact h
  · exact .iteFst h.set (.iteFst h.set h.set)

theorem Stays.c37CfgFrame (h : Stays s₀ s) {port arrival station : Nat} {l : List Byte} :
    Stays s₀ (s.c37CfgFrame port arrival station l) := by
  unfold State.c37CfgFrame
  dsimp only
  refine .ite h.unknown (.ite (h.foldl fun h => h.countSrc) ?_)
  split
  · next e => exact .of_eq e (.iteFst h.cfgJoin h)
  · next e => exact (Stays.of_eq e (.iteFst h.cfgJoin h)).foldl fun h => h.countSrc
  · next e =>
      have h₁ : Stays s₀ _ := .of_eq e (.iteFst h.cfgJoin h)
      split
      · exact h₁.foldl fun h => h.countSrc
      · exact h₁.foldl fun h => .ite h.setCfg h.countSrc

theorem Stays.c37Receive (h : Stays s₀ s) {port arrival station : Nat} {l : List Byte} {bad : Nat → Nat → Bool} :
    Stays s₀ (s.c37Receive port arrival station l bad) := by
  unfold State.c37Receive
  refine .ite h.count (.ite h.count ?_)
  split
  · exact h.c37Data
  · exact h.c37CfgFrame
  · exact h.c37CfgFrame
  · exact h
  · exact h.count

theorem Stays.keepSv (h : Stays s₀ s) {src : Nat} {gs : List (Nat × List InEntry)} : Stays s₀ (s.keepSv src gs) :=
  h.setSrc

theorem Stays.svTake (h : Stays s₀ s) {port arrival : Nat} {f : SvFrame} {bad : Nat → Nat → Bool} {svid : List Byte} :
    Stays s₀ (s.svTake port arrival f bad svid) := by
  unfold State.svTake
  dsimp only
  split
  · exact h.unknown
  · refine .ite h.countSrc (.ite h.countSrc (.ite h.mismatch (.ite h.countSrc ?_)))
    split
    · exact h
    · exact .ite h.checkAccept.keepSv h.checkAccept

theorem Stays.svFrame (h : Stays s₀ s) {port arrival : Nat} {l : List Byte} {bad : Nat → Nat → Bool} :
    Stays s₀ (s.svFrame port arrival l bad) := by
  unfold State.svFrame
  split
  · exact h.count
  · exact h.foldl fun h => h.svTake

theorem Stays.keepGoose (h : Stays s₀ s) {src : Nat} {m : GooseMsg} : Stays s₀ (s.keepGoose src m) :=
  h.setSrc

theorem Stays.gooseNew (h : Stays s₀ s) {arrival : Nat} {f : GooseFrame} {src : Nat} {values : List InEntry} :
    Stays s₀ (s.gooseNew arrival f src values) := by
  unfold State.gooseNew
  extract_lets _ x m far _ _ y _ s₁
  have h₁ : Stays s₀ s₁ := (Stays.ite h.setSrc.latency h.setSrc.latency.keepGoose).setSrc.shownAlive.gooseReports
  exact .ite
      h.countSrc
      (.ite h.countSrc (.ite (.ite h₁.countSrc.countSrc.gooseFuture h₁.countSrc.countSrc.gooseLate) h₁.countSrc))

theorem Stays.gooseFrame (h : Stays s₀ s) {port arrival : Nat} {l : List Byte} {bad : Nat → Nat → Bool} :
    Stays s₀ (s.gooseFrame port arrival l bad) := by
  unfold State.gooseFrame
  split
  · exact h.count
  · split
    · exact h.unknown
    · exact .ite h.countSrc (.ite h.countSrc (.ite h.countSrc (.ite h.mismatch (.ite h.setSrc.revive h.gooseNew))))

theorem Stays.ocfTake {acc : State × List InEntry} (h : Stays s₀ acc.1) {d : SrcDef} {src : Nat} {qual : Half} {e : OcfEntry × Bool} :
    Stays s₀ (State.ocfTake d src qual acc e).1 := by
  obtain ⟨s, es⟩ := acc
  unfold State.ocfTake
  dsimp only
  split
  · exact Stays.countSrc h
  · refine .iteFst (Stays.countSrc h) ?_
    split <;> exact h

theorem Stays.ocfFrame (h : Stays s₀ s) {port arrival : Nat} {l : List Byte} {bad : Nat → Nat → Bool} :
    Stays s₀ (s.ocfFrame port arrival l bad) := by
  unfold State.ocfFrame
  refine .ite h.count ?_
  extract_lets id
  split
  · exact h.count
  · exact h
  · split
    · exact h.unknown
    · refine .ite h.countSrc (.ite h.countSrc (.ite h.countSrc ?_))
      extract_lets
      refine .ite h.countSrc ?_
      split
      · next s₁ fit e =>
        have taken : Stays s₀ s₁ := .of_eq e h.rateTake
        refine .ite taken.countSrc ?_
        split
        · next s₂ es e => exact .accept (.of_eq e (taken.foldlFst fun g => g.ocfTake))

theorem Stays.classify (h : Stays s₀ s) {port arrival : Nat} {bad : Nat → Nat → Bool} {x : IngFrame} :
    Stays s₀ (s.classify port arrival bad x) := by
  unfold State.classify
  split
  · exact h.ocfFrame
  · exact h.c37Receive
  · exact h.svFrame
  · exact h.gooseFrame

theorem Stays.ingress (h : Stays s₀ s) {port arrival : Nat} {frame : IngFrame} : Stays s₀ (s.ingress port arrival frame) :=
  .ite h.takeWords.classify h

theorem execIngressFrame_stays (h : Stays s₀ s) {dt port arrival : Nat} {frame : IngFrame} :
    NextStays s₀ (execIngressFrame dt port arrival frame s) :=
  h.advance.ingress.next

theorem execC37CfgReceived_stays (h : Stays s₀ s) {dt : Nat} {rx : C37Rx} : NextStays s₀ (execC37CfgReceived dt rx s) :=
  h.advance.ingress.next

theorem execCfgRetryTimer_stays (h : Stays s₀ s) {dt src : Nat} : NextStays s₀ (execCfgRetryTimer dt src s) := by
  unfold execCfgRetryTimer
  refine Stays.next ?_
  split
  · exact .ite h.advance.askCfg h.advance
  · exact h.advance

theorem execC37ReconnectTimer_stays (h : Stays s₀ s) {dt src : Nat} {connected : Bool} :
    NextStays s₀ (execC37ReconnectTimer dt src connected s) := by
  unfold execC37ReconnectTimer
  refine Stays.next ?_
  dsimp only
  split
  · refine .ite ?_ h.advance
    split
    · exact h.advance.setSrc.set
    · exact h.advance.setSrc
  · exact h.advance

theorem Stays.sourceDies (h : Stays s₀ s) {src : Nat} : Stays s₀ (s.sourceDies src) :=
  h.setSrc.logEv.countSrc.alarm.gooseDies.stationLost

theorem execSourceDead_stays (h : Stays s₀ s) {dt src : Nat} : NextStays s₀ (execSourceDead dt src s) := by
  unfold execSourceDead
  refine Stays.next ?_
  split
  · exact .ite h.advance.sourceDies h.advance
  · exact h.advance

theorem execSourceDefine_stays (h : Stays s₀ s) {dt : Nat} {q : Req} : NextStays s₀ (execSourceDefine dt q s) := by
  unfold execSourceDefine
  refine Stays.next (h.advance.serve fun h => ?_)
  dsimp only
  split
  · exact h.maqWrite
  · exact h

theorem execSourceRemove_stays (h : Stays s₀ s) {dt : Nat} {q : Req} : NextStays s₀ (execSourceRemove dt q s) :=
  Stays.next (h.advance.serve fun h => .iteFst h (.iteFst h (.iteFst h h.maqWrite)))

theorem execSourceQuery_stays (h : Stays s₀ s) {dt : Nat} {q : Req} : NextStays s₀ (execSourceQuery dt q s) :=
  Stays.next (h.advance.serve fun h => h)

theorem execCatalogueRead_stays (h : Stays s₀ s) {dt : Nat} {q : Req} : NextStays s₀ (execCatalogueRead dt q s) :=
  Stays.next (h.advance.serve fun h => .iteFst h (.iteFst h h))

/-! ### Oscillation -/

theorem Stays.setFd (h : Stays s₀ s) {d : Nat} {x : Fd} : Stays s₀ (s.setFd d x) :=
  h.set

theorem Stays.refreshAlm (h : Stays s₀ s) : Stays s₀ s.refreshAlm :=
  h.set

theorem Stays.fdJudge (h : Stays s₀ s) {d g : Nat} : Stays s₀ (s.fdJudge d g) :=
  (Stays.ite (Stays.ite h.setFd.count2.alarmT h).setFd.alarmT (.ite h.setFd.count2.alarmT h)).refreshAlm

theorem Stays.fdValid (h : Stays s₀ s) {d g : Nat} {e : Entry} : Stays s₀ (s.fdValid d g e) :=
  .ite (Stays.ite h.alarmT h).setFd (Stays.ite h.alarmT h).setFd.fdJudge

theorem Stays.fdBad (h : Stays s₀ s) {d g n : Nat} {test : Bool} : Stays s₀ (s.fdBad d g n test) :=
  .ite h.setFd.alarmT.count2.alarmT.refreshAlm h.setFd

theorem Stays.fdTake (h : Stays s₀ s) {d g : Nat} {x : Slot} : Stays s₀ (s.fdTake d g x) :=
  .ite h (.ite h.count2 (.ite (Stays.ite h.setFd h.setFd.fdBad).count2.fdBad (Stays.ite h.setFd h.setFd.fdBad).fdValid))

theorem Stays.fdFirst (h : Stays s₀ s) {d p slot : Nat} : Stays s₀ (s.fdFirst d p slot) := by
  unfold State.fdFirst
  refine .ite ?_ h
  split
  · exact .ite h.fdTake h
  · exact h

theorem execFdEvaluate_stays (h : Stays s₀ s) {dt det slot : Nat} : NextStays s₀ (execFdEvaluate dt det slot s) :=
  Stays.next (.ite h.advance.fdFirst h.advance)

theorem Stays.fdCommit (h : Stays s₀ s) {d boundary : Nat} : Stays s₀ (s.fdCommit d boundary) :=
  h.alarmT.alarmT.setFd.refreshAlm

theorem Stays.setMt (h : Stays s₀ s) {t : Nat} {x : Mt} : Stays s₀ (s.setMt t x) :=
  h.set

theorem Stays.modeUpdate (h : Stays s₀ s) {t g : Nat} : Stays s₀ (s.modeUpdate t g) :=
  h.notify

theorem Stays.clearModes (h : Stays s₀ s) {t g : Nat} : Stays s₀ (s.clearModes t g) :=
  h.foldl fun h => h.foldl fun h => h.alarmT

theorem Stays.mtRestart (h : Stays s₀ s) {t fromGtf : Nat} : Stays s₀ (s.mtRestart t fromGtf) :=
  h.setMt

theorem Stays.mtSuspend (h : Stays s₀ s) {t g : Nat} : Stays s₀ (s.mtSuspend t g) :=
  .ite h.clearModes.setMt.alarmT.count2.modeUpdate (.ite h.alarmT.setMt.modeUpdate h)

theorem Stays.mtSignal (h : Stays s₀ s) {t g i k role : Nat} {e : Option Entry} : Stays s₀ (s.mtSignal t g i k role e).1 := by
  unfold State.mtSignal
  dsimp only
  split
  · exact h.setMt
  · exact .iteFst (.iteFst h.setMt h.setMt.count2) h.setMt

theorem Stays.mtFold (h : Stays s₀ s) {t : Nat} : Stays s₀ (s.mtFold t) :=
  h.setMt

theorem Stays.mtSample (h : Stays s₀ s) {t g : Nat} : Stays s₀ (s.mtSample t g) :=
  h.setMt.mtFold

theorem Stays.mtRead (h : Stays s₀ s) {t g : Nat} : Stays s₀ (s.mtRead t g) := by
  unfold State.mtRead
  extract_lets r d es _ sigs _ m test s₁ _ s₂
  have h₁ : Stays s₀ s₁ := ((Stays.ite h.count2 h).foldl fun h => h.mtSignal.setMt).setMt
  have h₁ : Stays s₀ s₂ := (Stays.ite h₁.mtSample h₁).mtSuspend
  exact .ite h₁.setMt.modeUpdate h₁

theorem execMtSlotRead_stays (h : Stays s₀ s) {dt tracker : Nat} : NextStays s₀ (execMtSlotRead dt tracker s) :=
  Stays.next (.ite h.advance.mtRead h.advance)

theorem Stays.mtStart (h : Stays s₀ s) {t : Nat} : Stays s₀ (s.mtStart t) :=
  h.setMt.setMt

theorem execMtExtractionStart_stays (h : Stays s₀ s) {dt tracker : Nat} : NextStays s₀ (execMtExtractionStart dt tracker s) :=
  Stays.next (.ite (.ite h.advance.setMt.count2 h.advance.mtStart) h.advance)

theorem execMtSignalRejoin_stays (h : Stays s₀ s) {dt tracker signal : Nat} :
    NextStays s₀ (execMtSignalRejoin dt tracker signal s) :=
  Stays.next (.ite (.ite h.advance.setMt.mtSuspend h.advance.setMt) h.advance)

theorem Stays.modeAlarms (h : Stays s₀ s) {t g : Nat} {test : Bool} {cls : List Nat} {id : Nat} :
    Stays s₀ (s.modeAlarms t g test cls id) :=
  (h.foldl fun h => h.alarmT).foldl fun h => h.alarmT

theorem Stays.mtModes (h : Stays s₀ s) {t : Nat} : Stays s₀ (s.mtModes t) :=
  .ite
    ((h.setMt.foldl fun h => h.modeAlarms).foldl fun h => h.modeAlarms).modeUpdate
    ((h.setMt.foldl fun h => h.modeAlarms).foldl fun h => h.modeAlarms)

theorem execMtExtractionDone_stays (h : Stays s₀ s) {dt tracker : Nat} : NextStays s₀ (execMtExtractionDone dt tracker s) :=
  Stays.next (.ite
      (.ite h.advance.setMt.count2.mtModes (.ite h.advance.setMt.count2.modeUpdate h.advance.setMt.count2))
      h.advance)

theorem Stays.mtCommit (h : Stays s₀ s) {t boundary : Nat} : Stays s₀ (s.mtCommit t boundary) :=
  .ite (.ite h.clearModes.alarmT.mtRestart.modeUpdate h.clearModes.alarmT.mtRestart) h.clearModes.alarmT.setMt

theorem Stays.oscReset (h : Stays s₀ s) : Stays s₀ s.oscReset := by
  refine .refreshAlm ((h.foldl fun g => ?_).foldl fun g => ?_)
  · exact .ite g.alarmT.alarmT.setFd g
  · exact .ite g (.ite g.clearModes.alarmT.mtRestart.modeUpdate g.clearModes.alarmT.mtRestart)

/-! ### Armature -/

theorem Stays.setNode (h : Stays s₀ s) {n : Nat} {x : Node} : Stays s₀ (s.setNode n x) :=
  h.set

theorem Stays.setNet (h : Stays s₀ s) {n : Nat} {x : Net} : Stays s₀ (s.setNet n x) :=
  h.set

theorem Stays.applyTopology (h : Stays s₀ s) : Stays s₀ s.applyTopology :=
  h.set.foldl fun h => h.setNode

theorem Stays.islandUpdate (h : Stays s₀ s) {n reason g : Nat} : Stays s₀ (s.islandUpdate n reason g) :=
  h.notify

theorem Stays.updateIslands (h : Stays s₀ s) {g : Nat} {test : Bool} : Stays s₀ (s.updateIslands g test).1 :=
  ((Stays.ite h.set h.set.count).alarmT.foldl fun h => h.alarmT).foldl fun h => h.alarmT

theorem Stays.reportIslands (h : Stays s₀ s) {α : Type} [DecidableEq α] {old : List Island} {f : Island → α}
    {reason : Nat → Nat} {g : Nat}
    {always : Nat → Bool} : Stays s₀ (s.reportIslands old f reason g always) :=
  h.foldl fun h => .ite h.islandUpdate h

theorem Stays.recomputeDone (h : Stays s₀ s) {fresh : Option Nat} : Stays s₀ (s.recomputeDone fresh) := by
  unfold State.recomputeDone
  dsimp only
  split
  · exact h.set.count.startRecompute
  · exact .reportIslands h.set.count.applyTopology.updateIslands

theorem execArmRecomputeDone_stays (h : Stays s₀ s) {dt : Nat} : NextStays s₀ (execArmRecomputeDone dt s) :=
  Stays.next (.ite h.advance.recomputeDone h.advance)

theorem execArmStatusChange_stays (h : Stays s₀ s) {dt branch : Nat} {closed : Bool} {stamp : Nat} :
    NextStays s₀ (execArmStatusChange dt branch closed stamp s) :=
  Stays.next (.ite h.advance.branchSet h.advance)

theorem Stays.dinReport (h : Stays s₀ s) {land stamp : Nat} : Stays s₀ (s.dinReport land stamp) :=
  h.foldl fun h => h.branchReport

theorem execDinStatusDebounced_stays (h : Stays s₀ s) {dt land : Nat} {level : Bool} {stamp : Nat} :
    NextStays s₀ (execDinStatusDebounced dt land level stamp s) :=
  Stays.next (.ite (.ite h.advance.set.dinReport h.advance.set) h.advance)

theorem execTravelTimeout_stays (h : Stays s₀ s) {dt branch : Nat} : NextStays s₀ (execTravelTimeout dt branch s) := by
  unfold execTravelTimeout
  refine Stays.next (.ite ?_ h.advance)
  split
  · exact h.advance.branchBad
  · exact h.advance

theorem Stays.measNode (h : Stays s₀ s) {n i : Nat} {valid : Bool} {m : MeasRes} : Stays s₀ (s.measNode n i valid m) :=
  .ite h.setNode (.ite h.setNode h.setNode)

theorem Stays.measure (h : Stays s₀ s) {n g : Nat} {x : Slot} : Stays s₀ (s.measure n g x) := by
  unfold State.measure
  extract_lets nodes ty
  split
  · exact h
  · extract_lets aOk _ _ _ others res ds _ _ _ _ s₁
    have measured : Stays s₀ s₁ := by
      refine .ite ?_ ?_
      · exact .setNet (h.setNet.setNode.foldl fun g => g.measNode)
      · exact h.setNet.setNode.foldl fun g => g.setNode
    refine .ite (.ite (.islandUpdate ?_) ?_) (.ite measured.islandUpdate measured)
    · exact .reportIslands measured.updateIslands
    · exact .reportIslands measured.updateIslands

theorem Stays.statusBits (h : Stays s₀ s) {n g : Nat} {x : Slot} : Stays s₀ (s.statusBits n g x) := by
  unfold State.statusBits
  dsimp only
  refine h.foldl fun h => ?_
  split
  · exact h.branchReport
  · exact h

theorem Stays.armTake (h : Stays s₀ s) {n g : Nat} {x : Slot} : Stays s₀ (s.armTake n g x) := by
  unfold State.armTake
  refine .ite h.count ?_
  extract_lets _ _ before _ fresh _ _ s₁
  have h₁ : Stays s₀ s₁ := .ite h.setNet.statusBits.set.needRecompute h.setNet.statusBits.set
  exact (Stays.ite h₁ (.ite (Stays.ite h₁.recomputeDone h₁).recomputeDone (.ite h₁.recomputeDone h₁))).measure

theorem execArmMeasEvaluate_stays (h : Stays s₀ s) {dt net slot : Nat} :
    NextStays s₀ (execArmMeasEvaluate dt net slot s) := by
  unfold execArmMeasEvaluate
  refine Stays.next (.ite ?_ h.advance)
  split
  · exact .ite h.advance.armTake h.advance
  · exact h.advance

theorem Stays.setBal (h : Stays s₀ s) {g : Nat} {x : Bal} : Stays s₀ (s.setBal g x) :=
  h.set

theorem Stays.balJudge (h : Stays s₀ s) {g slot : Nat} {p : List DWord} : Stays s₀ (s.balJudge g slot p) := by
  unfold State.balJudge
  extract_lets r tput tau x above below _ k up _ s₁
  have h₁ : Stays s₀ s₁ := .ite h.setBal.count2.alarm h.setBal
  exact .ite h₁.setBal.alarm h₁

theorem Stays.balFirst (h : Stays s₀ s) {g p slot : Nat} : Stays s₀ (s.balFirst g p slot) := by
  unfold State.balFirst
  split
  · refine .ite ?_ h
    dsimp only
    split
    · exact h.setSlot.balJudge
    · exact h.setSlot.count2
  · exact h

theorem execBalEvaluate_stays (h : Stays s₀ s) {dt group slot : Nat} : NextStays s₀ (execBalEvaluate dt group slot s) :=
  Stays.next (.ite h.advance.balFirst h.advance)

theorem Stays.recNext (h : Stays s₀ s) {g p slot : Nat} : Stays s₀ (s.recNext g p slot) := by
  unfold State.recNext
  dsimp only
  split
  · exact .ite h.setBal h
  · exact h

theorem Stays.balTake (h : Stays s₀ s) {g p slot : Nat} : Stays s₀ (s.balTake g p slot) := by
  unfold State.balTake
  split
  · exact .ite (.ite h.recNext.setSlot.setBal h.recNext) h
  · exact h

theorem Stays.balTakeAll (h : Stays s₀ s) {p slot : Nat} : Stays s₀ (s.balTakeAll p slot) :=
  .ite (h.foldl fun h => h.balTake) h

theorem execBalRecSlot_stays (h : Stays s₀ s) {dt group slot : Nat} : NextStays s₀ (execBalRecSlot dt group slot s) :=
  Stays.next (.ite (h.advance.foldl fun h => h.balTake) h.advance)

theorem Stays.recClose (h : Stays s₀ s) {g : Nat} : Stays s₀ (s.recClose g) := by
  unfold State.recClose
  dsimp only
  split
  · exact h
  · exact h.setBal.logEv

theorem Stays.recFollow (h : Stays s₀ s) {g stop : Nat} : Stays s₀ (s.recFollow g stop) :=
  .ite h h.setBal

theorem execBalRecIntervalClose_stays (h : Stays s₀ s) {dt group : Nat} :
    NextStays s₀ (execBalRecIntervalClose dt group s) := by
  unfold execBalRecIntervalClose
  refine Stays.next (.ite ?_ h.advance)
  split
  · exact .ite h.advance.recClose.recFollow h.advance
  · exact h.advance

theorem Stays.balCommit (h : Stays s₀ s) {g boundary : Nat} : Stays s₀ (s.balCommit g boundary) :=
  h.alarmT.setBal

theorem Stays.branchStart (h : Stays s₀ s) {b : Nat} {d : BranchDef} {stamp : Nat} : Stays s₀ (s.branchStart b d stamp) := by
  unfold State.branchStart
  dsimp only
  split
  · exact h.setBranch
  · exact h.setBranch.branchReport
  · refine .ite h.setBranch.branchReport ?_
    split
    · exact h.setBranch.branchReport
    · exact h.setBranch
  · refine .ite h.setBranch.branchReport ?_
    split
    · exact h.setBranch.branchReport
    · exact h.setBranch
  · exact h.setBranch.setBranch

theorem Stays.armStart (h : Stays s₀ s) : Stays s₀ s.armStart :=
  (h.foldl fun h => h.branchStart).set.needRecompute.foldl fun h => .ite h h.setBal

theorem Stays.armReset (h : Stays s₀ s) : Stays s₀ s.armReset :=
  ((h.foldl fun h => h.alarmT).foldl fun h => .ite (h.foldl fun h => h.recClose).setBal (h.foldl fun h => h.recClose)).set

theorem Stays.armCommit (h : Stays s₀ s) {branches nodes nets : List Nat} {boundary : Nat} :
    Stays s₀ (s.armCommit branches nodes nets boundary) := by
  unfold State.armCommit
  refine .ite h ?_
  extract_lets _ _ s₁
  have h₁ : Stays s₀ s₁ := by
    dsimp only [s₁]
    refine .foldl (.foldl (h.foldl fun h => ?_) fun h => h.setNode) fun h => h.setNet
    dsimp only
    split
    · exact h.alarmT.setBranch.branchStart
    · exact h.alarmT.setBranch
  exact .ite h₁.needRecompute h₁

/-! ### Filters -/

theorem Stays.setFlt (h : Stays s₀ s) {c : Nat} {x : Flt} : Stays s₀ (s.setFlt c x) :=
  h.set

theorem Stays.fltRestart (h : Stays s₀ s) {c : Nat} : Stays s₀ (s.fltRestart c) :=
  h.setFlt.count2

theorem Stays.fltRestartAll (h : Stays s₀ s) : Stays s₀ s.fltRestartAll :=
  h.foldl fun h => h.fltRestart

theorem Stays.fltRestartB (h : Stays s₀ s) {c : Nat} : Stays s₀ (s.fltRestartB c) :=
  h.setFlt

theorem Stays.deliver (h : Stays s₀ s) {c : Nat} {o : FltOut} : Stays s₀ (s.deliver c o) :=
  .ite (.ite h.count h.count2) h.setFlt

theorem Stays.fltTake (h : Stays s₀ s) {c : Nat} {y : Sample} : Stays s₀ (s.fltTake c y) := by
  unfold State.fltTake
  refine .ite ?_ h
  dsimp only
  split
  · exact h.setFlt.deliver
  · exact h.setFlt

theorem execFltBankSwap_stays (h : Stays s₀ s) {dt channel : Nat} : NextStays s₀ (execFltBankSwap dt channel s) := by
  unfold execFltBankSwap
  refine Stays.next (.ite ?_ h.advance)
  split
  · exact .ite h.advance.setFlt h.advance
  · exact h.advance

theorem Stays.keepDwell (h : Stays s₀ s) {input st : Nat} {mean : Option FltOut} : Stays s₀ (s.keepDwell input st mean) :=
  .ite h h.setFlt

theorem Stays.endDwell (h : Stays s₀ s) {k a : Nat} : Stays s₀ (s.endDwell k a) :=
  h.keepDwell

theorem Stays.localReport (h : Stays s₀ s) {src : Nat} {d : SrcDef} {tau : Nat} : Stays s₀ (s.localReport src d tau) :=
  .ite h (.ite h.setSrc.count2 (Stays.ite h.setSrc.set h.setSrc).accept)

theorem execLocalSourceReport_stays (h : Stays s₀ s) {dt src report : Nat} :
    NextStays s₀ (execLocalSourceReport dt src report s) := by
  unfold execLocalSourceReport
  refine Stays.next ?_
  split
  · exact .ite h.advance.localReport h.advance
  · exact h.advance

theorem Stays.fltCommit (h : Stays s₀ s) {channels : List Nat} : Stays s₀ (s.fltCommit channels) :=
  h.foldl fun h => h.fltRestart

theorem Stays.fltStep (h : Stays s₀ s) {a b : Nat} : Stays s₀ (s.fltStep a b) :=
  .ite (h.fltRestartAll.set.foldl fun h => h.setFlt) h.fltRestartAll.set

theorem Stays.fltReset (h : Stays s₀ s) : Stays s₀ s.fltReset :=
  h.foldl fun h => h.setFlt

/-! ### Converters -/

theorem Stays.setChan (h : Stays s₀ s) {c : Nat} {x : Chan} : Stays s₀ (s.setChan c x) :=
  h.set

theorem Stays.avgDeliver (h : Stays s₀ s) {c : Nat} {o : FltOut} : Stays s₀ (s.avgDeliver c o) :=
  .ite h.count h.setChan

theorem Stays.avgTake (h : Stays s₀ s) {c : Nat} {y : Sample} : Stays s₀ (s.avgTake c y) := by
  unfold State.avgTake
  dsimp only
  refine .ite h ?_
  split
  · exact .ite (.ite h.setChan.avgDeliver.count2 h.setChan.avgDeliver) h.setChan
  · exact h.setChan

theorem Stays.takeSample (h : Stays s₀ s) {c : Nat} {y : Sample} : Stays s₀ (s.takeSample c y) :=
  h.avgTake.fltTake

theorem Stays.refreshExc (h : Stays s₀ s) : Stays s₀ s.refreshExc :=
  (h.foldl fun h => .ite h h.emit).set

theorem Stays.closeDwell (h : Stays s₀ s) : Stays s₀ s.closeDwell := by
  unfold State.closeDwell
  split
  · exact h.endDwell
  · exact h

theorem Stays.cutDwell (h : Stays s₀ s) : Stays s₀ s.cutDwell := by
  unfold State.cutDwell
  split
  · exact h.keepDwell
  · exact h

theorem execAuxDwellStart_stays (h : Stays s₀ s) {dt : Nat} : NextStays s₀ (execAuxDwellStart dt s) := by
  unfold execAuxDwellStart
  refine Stays.next (.ite ?_ h.advance)
  split
  · exact .ite h.advance h.advance.closeDwell.set.refreshExc
  · exact h.advance

theorem Stays.setOw (h : Stays s₀ s) {land : Nat} {x : Ow} : Stays s₀ (s.setOw land x) :=
  h.set

theorem Stays.owChange (h : Stays s₀ s) {land : Nat} {on : Bool} : Stays s₀ (s.owChange land on) :=
  (Stays.ite h.setOw.count2 h.setOw).logEv.alarm

theorem Stays.owJudge (h : Stays s₀ s) {land : Nat} {fails : Bool} : Stays s₀ (s.owJudge land fails) :=
  .ite h.setOw.owChange (.ite h.setOw.owChange h.setOw)

theorem execOwChop_stays (h : Stays s₀ s) {dt land : Nat} {before chopped after : ℤ} :
    NextStays s₀ (execOwChop dt land before chopped after s) := by
  unfold execOwChop
  extract_lets _ c a x b _ _ s₁ ca cb _ ch over_ _ q
  refine Stays.next ?_
  have h₁ : Stays s₀ s₁ := .ite h.advance.setOw.emit.count2 h.advance.setOw.emit
  exact .ite (Stays.ite h₁ h₁.owJudge).setChan.count2.takeSample h.advance

theorem Stays.sampleMain (h : Stays s₀ s) {c : Nat} {code : ℤ} {poison : Bool} : Stays s₀ (s.sampleMain c code poison) :=
  .ite h (Stays.ite (Stays.ite h.count2 h).setChan.set (Stays.ite h.count2 h).setChan).takeSample

theorem Stays.auxReplace (h : Stays s₀ s) {y : Sample} : Stays s₀ (s.auxReplace y) :=
  h.set.foldl fun h => h.count2.takeSample

theorem Stays.auxFlush (h : Stays s₀ s) {input : Nat} : Stays s₀ (s.auxFlush input) := by
  unfold State.auxFlush
  split
  · exact h.auxReplace
  · exact h.set.count2

theorem Stays.auxTake (h : Stays s₀ s) {input : Nat} {last : Bool} {y : Sample} : Stays s₀ (s.auxTake input last y) := by
  unfold State.auxTake
  extract_lets _ _ _ s₁
  have h₁ : Stays s₀ s₁ := .ite h.set h.auxReplace.set.takeSample
  exact .ite h₁.auxFlush h₁

theorem Stays.sampleAux (h : Stays s₀ s) {code : ℤ} {poison : Bool} : Stays s₀ (s.sampleAux code poison) := by
  unfold State.sampleAux
  split
  · exact h
  · extract_lets _ stop code hit _ last _ _ s₁
    have h₁ : Stays s₀ s₁ := (Stays.ite (.ite h.count2 h) (Stays.ite h.count2 h).auxTake).set
    exact .ite h (.ite h₁.endDwell h₁)

theorem execSamplingInstant_stays (h : Stays s₀ s) {dt : Nat} {codes : List ℤ} :
    NextStays s₀ (execSamplingInstant dt codes s) := by
  unfold execSamplingInstant
  refine Stays.next (.ite (.refreshExc ?_) h.advance)
  split
  · exact (h.advance.takeWords.takeItem.foldl fun h => h.sampleMain).sampleAux
  · exact h.advance.takeWords.takeItem.foldl fun h => h.sampleMain

theorem Stays.setSlice (h : Stays s₀ s) {x v : Nat} : Stays s₀ (s.setSlice x v) :=
  h.set

theorem Stays.calStart (h : Stays s₀ s) {x : Nat} : Stays s₀ (s.calStart x) :=
  h.setSlice.set

theorem execCalCycleStart_stays (h : Stays s₀ s) {dt spare : Nat} : NextStays s₀ (execCalCycleStart dt spare s) :=
  Stays.next (.ite h.advance.calStart h.advance)

theorem Stays.setCycle (h : Stays s₀ s) {x : Nat} {c : Cal} : Stays s₀ (s.setCycle x c) :=
  h.set

theorem Stays.dropCycle (h : Stays s₀ s) {x : Nat} : Stays s₀ (s.dropCycle x) :=
  h.set

theorem Stays.endCycle (h : Stays s₀ s) {x : Nat} : Stays s₀ (s.endCycle x) := by
  unfold State.endCycle
  split
  · exact .ite h.dropCycle.setSlice h.dropCycle.setSlice
  · exact h

theorem Stays.handover (h : Stays s₀ s) {x : Nat} {c : Cal} : Stays s₀ (s.handover x c) :=
  h.setChan.setSlice.setSlice.setCycle

theorem Stays.calFail (h : Stays s₀ s) {c : Cal} {slice step : Nat} {dead : Bool} : Stays s₀ (s.calFail c slice step dead) :=
  h.set.count2.logEv

theorem Stays.sliceDies (h : Stays s₀ s) {x : Nat} {c : Cal} : Stays s₀ (s.sliceDies x c) :=
  h.dropCycle.setSlice.spareUsed

theorem Stays.comparison (h : Stays s₀ s) {x : Nat} {c : Cal} {usable : Nat} {mean max_ : ℤ} :
    Stays s₀ (s.comparison x c usable mean max_) :=
  .ite
    (.ite h.setCycle h.endCycle.count2)
    (.ite
       (.ite h.handover h.setChan.setSlice.setSlice.dropCycle.count2)
       (.ite (.ite h.calFail.handover h.calFail.setSlice.setCycle) (.ite h.calFail.sliceDies h.calFail.setSlice.setCycle)))

theorem execCalComparisonDone_stays (h : Stays s₀ s) {dt spare usable : Nat} {meanDiff16 maxDiff16 : ℤ} :
    NextStays s₀ (execCalComparisonDone dt spare usable meanDiff16 maxDiff16 s) := by
  unfold execCalComparisonDone
  refine Stays.next ?_
  split
  · exact .ite h.advance.comparison h.advance
  · exact h.advance

theorem Stays.calibrated (h : Stays s₀ s) {x : Nat} {c : Cal} {slice : Nat} {off : ℤ} {gain : Word} :
    Stays s₀ (s.calibrated x c slice off gain) :=
  .ite
    (.ite h.set.calFail.dropCycle.setSlice.spareUsed h.set.calFail.sliceDies)
    (.ite h.set.set.setSlice.setCycle h.set.set.setSlice.setCycle)

theorem execCalCalibrationDone_stays (h : Stays s₀ s) {dt slice : Nat} {offset16 : ℤ} {gainPpm : Word} :
    NextStays s₀ (execCalCalibrationDone dt slice offset16 gainPpm s) := by
  unfold execCalCalibrationDone
  refine Stays.next (.ite ?_ h.advance)
  split
  · exact h.advance.calibrated
  · exact h.advance

theorem Stays.cnvCommit (h : Stays s₀ s) {selGain preset avg : List Nat} {seq : Bool} :
    Stays s₀ (s.cnvCommit selGain preset avg seq) := by
  unfold State.cnvCommit
  extract_lets _ s₁
  have h₁ : Stays s₀ s₁ := (h.foldl fun h => h.endCycle).foldl fun h => h.setChan
  exact (Stays.ite h₁.set.refreshExc h₁).fltCommit

theorem Stays.cnvStep (h : Stays s₀ s) {a b : Nat} : Stays s₀ (s.cnvStep a b) :=
  (h.foldl fun h => h.setChan).cutDwell.set.fltStep

theorem Stays.cnvStop (h : Stays s₀ s) : Stays s₀ s.cnvStop :=
  ((h.cutDwell.foldl fun h => h.endCycle).foldl fun h => h.setChan).set.refreshExc

/-! ### Capture -/

theorem Stays.edges (h : Stays s₀ s) {n : Nat} {row : CapRow} : Stays s₀ (s.edges n row).1 := by
  unfold State.edges
  dsimp only
  refine h.foldlFst fun h => .iteFst ?_ h
  split
  · exact h.setRec
  · exact h

theorem Stays.holdRow (h : Stays s₀ s) {n : Nat} {row : CapRow} : Stays s₀ (s.holdRow n row) :=
  h.setRec

theorem Stays.appendRow (h : Stays s₀ s) {n : Nat} {row : CapRow} : Stays s₀ (s.appendRow n row) := by
  unfold State.appendRow
  dsimp only
  split
  · exact h.setRec.holdRow
  · exact h.setRec.holdRow
  · exact h.setRec.holdRow
  · split
    · exact h.setRec.setRec
    · exact h.setRec
  · exact h.setRec

theorem Stays.settle (h : Stays s₀ s) {n t : Nat} {causes : List Nat} : Stays s₀ (s.settle n t causes) :=
  .ite h.setRec.capFires.endRecord h.setRec.capFires

theorem Stays.newRow (h : Stays s₀ s) {n : Nat} {row : CapRow} : Stays s₀ (s.newRow n row) := by
  unfold State.newRow
  dsimp only
  exact (h.foldl fun h => h.appendRow.settle).appendRow.edges.settle

theorem Stays.lateRow (h : Stays s₀ s) {n : Nat} {row : CapRow} : Stays s₀ (s.lateRow n row) := by
  unfold State.lateRow
  dsimp only
  exact .ite h.count2 (.ite h h.setRec.edges.settle)

theorem Stays.loseRow (h : Stays s₀ s) {n t : Nat} : Stays s₀ (s.loseRow n t) :=
  .ite h.count2.setRec (.ite h.count2.setRec.endRecordTo h.count2.setRec.setRec)

theorem Stays.rowTaken (h : Stays s₀ s) {n t : Nat} : Stays s₀ (s.rowTaken n t) := by
  unfold State.rowTaken
  refine .ite ?_ h
  split
  · exact h.setSlot
  · exact h

theorem Stays.capTake (h : Stays s₀ s) {recorder row : Nat} {full : Bool} : Stays s₀ (s.capTake recorder row full) := by
  unfold State.capTake
  refine .ite ?_ h
  split
  · exact .ite h.rowTaken.lateRow (.ite h.rowTaken.loseRow h.rowTaken.newRow)
  · exact h

theorem execCapRow_stays (h : Stays s₀ s) {dt recorder row : Nat} {full : Bool} :
    NextStays s₀ (execCapRow dt recorder row full s) :=
  h.advance.capTake.next

theorem execDinTriggerEdge_stays (h : Stays s₀ s) {dt land : Nat} {rising : Bool} {stamp : Nat} :
    NextStays s₀ (execDinTriggerEdge dt land rising stamp s) :=
  Stays.next (.ite h.advance.set.capEvent h.advance)

theorem execCapAutoTimeout_stays (h : Stays s₀ s) {dt recorder : Nat} : NextStays s₀ (execCapAutoTimeout dt recorder s) :=
  Stays.next (.ite h.advance.setRec.count2.capFire h.advance)

theorem execCapRearmEnd_stays (h : Stays s₀ s) {dt recorder : Nat} : NextStays s₀ (execCapRearmEnd dt recorder s) :=
  Stays.next (.ite h.advance.setRec h.advance)

theorem Stays.capArm (h : Stays s₀ s) {q : Req} : Stays s₀ (s.capArm q).1 :=
  .iteFst h (.iteFst h (.iteFst h (.iteFst h (.iteFst h h.setRec))))

theorem Stays.capStop (h : Stays s₀ s) {n flags : Nat} : Stays s₀ (s.capStop n flags) :=
  .ite h h.setRec.endRecordTo.setRec

theorem Stays.capRelease (h : Stays s₀ s) {q : Req} : Stays s₀ (s.capRelease q).1 :=
  .iteFst h (.iteFst h (.iteFst h h.setRec))

theorem Stays.capForce (h : Stays s₀ s) {mask : Nat} : Stays s₀ (s.capForce mask).1 :=
  h.foldl fun h => h.capFire

theorem execCapArm_stays (h : Stays s₀ s) {dt : Nat} {q : Req} : NextStays s₀ (execCapArm dt q s) :=
  Stays.next (h.advance.serve fun h => h.capArm)

theorem execCapDisarm_stays (h : Stays s₀ s) {dt : Nat} {q : Req} : NextStays s₀ (execCapDisarm dt q s) :=
  Stays.next (h.advance.serve fun h => h.capStop)

theorem execCapForce_stays (h : Stays s₀ s) {dt : Nat} {q : Req} : NextStays s₀ (execCapForce dt q s) :=
  Stays.next (h.advance.serve fun h => h.capForce)

theorem execCapRelease_stays (h : Stays s₀ s) {dt : Nat} {q : Req} : NextStays s₀ (execCapRelease dt q s) :=
  Stays.next (h.advance.serve fun h => h.capRelease)

theorem Stays.readMark (h : Stays s₀ s) {n m a k : Nat} : Stays s₀ (s.readMark n m a k).1 := by
  unfold State.readMark
  dsimp only
  split
  · exact h
  · exact h.setRec.count2
  · exact .ite h h.setRec

theorem Stays.capRead (h : Stays s₀ s) {q : Req} : Stays s₀ (s.capRead q).1 := by
  unfold State.capRead
  dsimp only
  refine .iteFst h (.iteFst h (.iteFst h ?_))
  split
  · exact .iteFst h h
  · split
    · exact .iteFst h h
    · exact h
  · split
    · exact .iteFst h h
    · exact h
  · exact .iteFst h h.readMark
  · exact .iteFst h h
  · exact h
  · exact h

theorem execCapRead_stays (h : Stays s₀ s) {dt : Nat} {q : Req} : NextStays s₀ (execCapRead dt q s) :=
  Stays.next (h.advance.serve fun h => h.capRead)

theorem Stays.setRewind (h : Stays s₀ s) {q : Req} : Stays s₀ (s.setRewind q).1 :=
  .iteFst h (.iteFst h (.iteFst h.setRec (.iteFst h h.setRec)))

theorem execCapSetRewind_stays (h : Stays s₀ s) {dt : Nat} {q : Req} : NextStays s₀ (execCapSetRewind dt q s) :=
  Stays.next (h.advance.serve fun h => h.setRewind)

theorem execCapExport_stays (h : Stays s₀ s) {dt : Nat} {q : Req} : NextStays s₀ (execCapExport dt q s) :=
  Stays.next (h.advance.serve fun h => h)

theorem Stays.capStopAll (h : Stays s₀ s) {flags : Nat} : Stays s₀ (s.capStopAll flags) :=
  h.foldl fun h => h.capStop

theorem Stays.capReset (h : Stays s₀ s) : Stays s₀ s.capReset :=
  h.capStopAll.foldl fun h => h.setRec

theorem Stays.capLose (h : Stays s₀ s) : Stays s₀ s.capLose :=
  h.set

theorem Stays.capCommit (h : Stays s₀ s) {n : Nat} {commit : Word} : Stays s₀ (s.capCommit n commit) :=
  h.capStop.setRec

theorem Stays.capStep (h : Stays s₀ s) : Stays s₀ s.capStep := by
  unfold State.capStep
  refine h.foldl fun h => ?_
  dsimp only
  split
  · exact h.setRec
  · exact .ite h h.setRec

/-! ### Conflict -/

theorem Stays.withCfg (h : Stays s₀ s) {c : Config} : Stays s₀ (s.withCfg c) :=
  h.set

theorem Stays.keepConflicts (h : Stays s₀ s) {l : List Conflict} : Stays s₀ (s.keepConflicts l) :=
  h.set

/-! ### Logic -/

theorem Stays.setLvar (h : Stays s₀ s) {i : Nat} {x : LVal} : Stays s₀ (s.setLvar i x) :=
  h.set

theorem Stays.lgcRelease (h : Stays s₀ s) : Stays s₀ s.lgcRelease :=
  h.set

theorem Stays.lgcHalt (h : Stays s₀ s) {st : Nat} : Stays s₀ (s.lgcHalt st) :=
  h.set.lgcRelease

theorem Stays.stationsStart (h : Stays s₀ s) {im : Image} : Stays s₀ (s.stationsStart im) :=
  (h.foldl fun h => h.set.alarm).foldl fun h => .ite (.ite h.setStation.stationLost h.setStation) h.setStation

theorem Stays.lgcStart (h : Stays s₀ s) {im : Image} : Stays s₀ (s.lgcStart im) :=
  h.set.stationsStart

theorem Stays.lgcResume (h : Stays s₀ s) : Stays s₀ s.lgcResume := by
  unfold State.lgcResume
  split
  · exact .ite (.ite h.lgcStart h.set) h
  · exact h

theorem Stays.lgcSuspend (h : Stays s₀ s) : Stays s₀ s.lgcSuspend :=
  .ite (.ite h.set h.lgcHalt) h

theorem Stays.lgcReset (h : Stays s₀ s) : Stays s₀ s.lgcReset := by
  unfold State.lgcReset
  dsimp only
  split
  · exact (Stays.ite h h.lgcHalt).set.answerLater
  · exact (Stays.ite h h.lgcHalt).set

theorem Stays.lgcBoot (h : Stays s₀ s) : Stays s₀ s.lgcBoot :=
  h.set

theorem Stays.lgcApply (h : Stays s₀ s) : Stays s₀ s.lgcApply :=
  h.set

theorem Stays.snapshot (h : Stays s₀ s) {im : Image} : Stays s₀ (s.snapshot im) :=
  h.foldl fun h => h.setLvar

theorem Stays.blkEffect (h : Stays s₀ s) {b : LBlock} {ty : Nat} {a i1 : Option LVal} {st : BlkSt} :
    Stays s₀ (s.blkEffect b ty a i1 st) := by
  unfold State.blkEffect
  dsimp only
  split
  · exact .ite h h.alarm
  · exact .ite h.setStation h
  · exact h

theorem Stays.runBlk (h : Stays s₀ s) {im : Image} {dt j : Nat} {b : LBlock} : Stays s₀ (s.runBlk im dt j b) := by
  unfold State.runBlk
  split
  · exact h
  · refine .ite h ?_
    extract_lets ty st a i1 z r v _ _ _ s₁
    have h₁ : Stays s₀ s₁ := .ite h.blkEffect.set.count h.blkEffect.set
    exact .ite h₁ h₁.setLvar

theorem Stays.lgcScan (h : Stays s₀ s) : Stays s₀ s.lgcScan := by
  unfold State.lgcScan
  dsimp only
  split
  · exact h.lgcApply
  · exact h.lgcApply.set.snapshot.foldl fun h => h.runBlk

theorem execLgcScan_stays (h : Stays s₀ s) {dt : Nat} : NextStays s₀ (execLgcScan dt s) :=
  Stays.next (.ite h.advance.lgcScan h.advance)

theorem Stays.sendControl (h : Stays s₀ s) {src : Nat} {points : AMap (Nat × Word)} :
    Stays s₀ (s.sendControl src points) := by
  unfold State.sendControl
  split
  · exact h
  · exact h.setStation.sendUdp.count2

theorem Stays.stationWrite (h : Stays s₀ s) {src : Nat} : Stays s₀ (s.stationWrite src) :=
  .ite h.setStation (.ite h.setStation.count2 h.setStation.sendControl)

theorem execStationRefresh_stays (h : Stays s₀ s) {dt src : Nat} : NextStays s₀ (execStationRefresh dt src s) :=
  Stays.next (.ite (.ite h.advance.count2 h.advance.sendControl) h.advance)

theorem Stays.controlAck (h : Stays s₀ s) {src seq code : Nat} : Stays s₀ (s.controlAck src seq code) :=
  .ite h (.ite (.ite h.setStation.alarm h.setStation) h.setStation.count2.logEv)

theorem execStationControlAck_stays (h : Stays s₀ s) {dt port : Nat} {bytes : List Byte} :
    NextStays s₀ (execStationControlAck dt port bytes s) := by
  unfold execStationControlAck
  refine Stays.next ?_
  dsimp only
  refine .ite (.ite h.advance.takeWords.count (.ite h.advance.takeWords ?_)) h.advance
  split
  · exact h.advance.takeWords.unknown
  · exact .ite
        h.advance.takeWords.countSrc
        (.ite h.advance.takeWords.countSrc (.ite h.advance.takeWords.controlAck h.advance.takeWords))

theorem execStationAckTimeout_stays (h : Stays s₀ s) {dt src : Nat} : NextStays s₀ (execStationAckTimeout dt src s) :=
  Stays.next (.ite (.ite h.advance.stationLost h.advance.setStation.sendControl.count2) h.advance)

theorem Stays.gooseSend (h : Stays s₀ s) {im : Image} {cb : Nat} {g : GoosePub} {w : List Word} :
    Stays s₀ (s.gooseSend im cb g w) :=
  (h.set.foldl fun h => h.sendFrames').count2

theorem Stays.gooseWrite (h : Stays s₀ s) {im : Image} {cb : Nat} : Stays s₀ (s.gooseWrite im cb) :=
  .ite h (.ite h h.gooseSend)

theorem execGooseRepeat_stays (h : Stays s₀ s) {dt cb : Nat} : NextStays s₀ (execGooseRepeat dt cb s) := by
  unfold execGooseRepeat
  refine Stays.next ?_
  split
  · exact .ite h.advance.gooseSend h.advance
  · exact h.advance

theorem Stays.lgcOverrun (h : Stays s₀ s) : Stays s₀ s.lgcOverrun :=
  .ite h.set.count.logEv.alarm h.set.count.logEv

theorem Stays.lgcClean (h : Stays s₀ s) : Stays s₀ s.lgcClean :=
  .ite h.set.alarm h.set

theorem Stays.lgcNext (h : Stays s₀ s) {im : Image} : Stays s₀ (s.lgcNext im) :=
  .ite (Stays.ite h.lgcOverrun h.lgcClean).set.count (Stays.ite h.lgcOverrun h.lgcClean).set

theorem Stays.outputWrite (h : Stays s₀ s) {im : Image} : Stays s₀ (s.outputWrite im) := by
  unfold State.outputWrite
  extract_lets w ex new old _ _ _ _ _ _ s₁
  have h₁ : Stays s₀ s₁ := ((h.set.count.capEvent.foldl fun h => h.gooseWrite).foldl fun h => h.stationWrite).lgcNext
  split
  · exact h₁.lgcHalt.answerLater
  · exact .ite h₁.lgcHalt h₁

theorem execLgcOutputWrite_stays (h : Stays s₀ s) {dt : Nat} : NextStays s₀ (execLgcOutputWrite dt s) := by
  unfold execLgcOutputWrite
  refine Stays.next ?_
  split
  · exact .ite h.advance.outputWrite h.advance
  · exact h.advance

theorem Stays.lgcInstall (h : Stays s₀ s) {im : Image} : Stays s₀ (s.lgcInstall im) :=
  h.set

theorem Stays.lgcLoad (h : Stays s₀ s) {q : Req} : Stays s₀ (s.lgcLoad q).1 := by
  unfold State.lgcLoad
  dsimp only
  refine .iteFst h (.iteFst h (.iteFst h (.iteFst h (.iteFst h.set (.iteFst h ?_)))))
  split
  · exact h.set
  · exact h.lgcInstall.set

theorem execLgcLoad_stays (h : Stays s₀ s) {dt : Nat} {q : Req} : NextStays s₀ (execLgcLoad dt q s) :=
  Stays.next (h.advance.serve fun h => h.lgcLoad)

theorem execLgcImageStored_stays (h : Stays s₀ s) {dt : Nat} : NextStays s₀ (execLgcImageStored dt s) := by
  unfold execLgcImageStored
  refine Stays.next ?_
  split
  · exact h.advance.set.answerLater
  · exact h.advance

theorem Stays.lgcStartCmd (h : Stays s₀ s) : Stays s₀ s.lgcStartCmd.1 := by
  unfold State.lgcStartCmd
  split
  · exact h
  · exact .iteFst h (.iteFst h.lgcStart h.keepConflicts)

theorem execLgcStart_stays (h : Stays s₀ s) {dt : Nat} {q : Req} : NextStays s₀ (execLgcStart dt q s) :=
  Stays.next (h.advance.serve fun h => h.lgcStartCmd)

theorem Stays.lgcStopCmd (h : Stays s₀ s) {q : Req} : Stays s₀ (s.lgcStopCmd q).1 :=
  .iteFst (.iteFst h h.set) (.iteFst h.lgcHalt h)

theorem execLgcStop_stays (h : Stays s₀ s) {dt : Nat} {q : Req} : NextStays s₀ (execLgcStop dt q s) :=
  Stays.next (h.advance.serve fun h => h.lgcStopCmd)

theorem Stays.lgcForce (h : Stays s₀ s) {q : Req} : Stays s₀ (s.lgcForce q).1 := by
  unfold State.lgcForce
  split
  · exact h
  · dsimp only
    refine .iteFst h (.iteFst h ?_)
    split
    · exact h
    · exact .iteFst h h.set

theorem execLgcForce_stays (h : Stays s₀ s) {dt : Nat} {q : Req} : NextStays s₀ (execLgcForce dt q s) :=
  Stays.next (h.advance.serve fun h => h.lgcForce)

theorem Stays.lgcReleaseCmd (h : Stays s₀ s) {q : Req} : Stays s₀ (s.lgcReleaseCmd q).1 := by
  unfold State.lgcReleaseCmd
  split
  · exact h
  · exact .iteFst h (.iteFst h h.set)

theorem execLgcRelease_stays (h : Stays s₀ s) {dt : Nat} {q : Req} : NextStays s₀ (execLgcRelease dt q s) :=
  Stays.next (h.advance.serve fun h => h.lgcReleaseCmd)

theorem Stays.lgcChange (h : Stays s₀ s) {q : Req} : Stays s₀ (s.lgcChange q).1 := by
  unfold State.lgcChange
  split
  · exact h
  · dsimp only
    refine .iteFst h (.iteFst h ?_)
    split
    · exact h
    · exact h.set

theorem execLgcOnlineChange_stays (h : Stays s₀ s) {dt : Nat} {q : Req} : NextStays s₀ (execLgcOnlineChange dt q s) :=
  Stays.next (h.advance.serve fun h => h.lgcChange)

theorem execLgcReadVars_stays (h : Stays s₀ s) {dt : Nat} {q : Req} : NextStays s₀ (execLgcReadVars dt q s) :=
  Stays.next (h.advance.serve fun h => h)

/-! ### Custody -/

theorem Stays.setPoint (h : Stays s₀ s) {p : Nat} {x : Point} : Stays s₀ (s.setPoint p x) :=
  h.set

theorem Stays.register (h : Stays s₀ s) {p n : Nat} {amount : Rat} : Stays s₀ (s.register p n amount) :=
  h.set

theorem Stays.gapRecords (h : Stays s₀ s) {k p reason a ns : Nat} : Stays s₀ (s.gapRecords k p reason a ns) := by
  induction k generalizing s a ns with
  | zero => exact h
  | succ k ih => exact ih h.logCus

theorem Stays.gapRecord (h : Stays s₀ s) {p reason a ns : Nat} : Stays s₀ (s.gapRecord p reason a ns) :=
  h.gapRecords

theorem Stays.gapNow (h : Stays s₀ s) {p reason a b : Nat} : Stays s₀ (s.gapNow p reason a b) :=
  .ite h.setPoint.gapRecord h

theorem Stays.gapMerge (h : Stays s₀ s) {p reason a b : Nat} : Stays s₀ (s.gapMerge p reason a b) :=
  h.setPoint

theorem Stays.gapClose (h : Stays s₀ s) {p : Nat} : Stays s₀ (s.gapClose p) := by
  unfold State.gapClose
  dsimp only
  split
  · exact h
  · exact h.gapRecord

theorem Stays.boundaryFirst (h : Stays s₀ s) {stop : Nat} : Stays s₀ (s.boundaryFirst stop) :=
  .ite h h.taskWaits

theorem Stays.absorb (h : Stays s₀ s) {p stop : Nat} : Stays s₀ (s.absorb p stop) := by
  unfold State.absorb
  dsimp only
  refine .setPoint (h.foldl fun h => ?_)
  split
  · exact h.gapMerge
  · exact h

theorem Stays.closeInterval (h : Stays s₀ s) {p stop flags : Nat} : Stays s₀ (s.closeInterval p stop flags) :=
  .ite
    h.boundaryFirst.gapClose.set.setPoint.count2.absorb.prerequisiteDone
    h.boundaryFirst.gapClose.set.setPoint.count2.absorb.prerequisiteDone

theorem Stays.boundaryDone (h : Stays s₀ s) {t : Nat} : Stays s₀ (s.boundaryDone t) := by
  unfold State.boundaryDone
  split
  · exact h
  · refine .ite h ?_
    extract_lets _ _ _ s₁
    have h₁ : Stays s₀ s₁ := (Stays.ite h.set h.set.logCus).alarm
    exact .ite h₁.taskRun.notify h₁

theorem Stays.boundariesDone (h : Stays s₀ s) : Stays s₀ s.boundariesDone :=
  h.foldl fun h => h.boundaryDone

theorem Stays.bookHole (h : Stays s₀ s) {p stop : Nat} : Stays s₀ (s.bookHole p stop) :=
  .ite h (Stays.ite h h.gapMerge.count2.setPoint).setPoint

theorem Stays.closeDue (h : Stays s₀ s) {n p lim : Nat} : Stays s₀ (s.closeDue n p lim) := by
  induction n generalizing s with
  | zero => exact h
  | succ n ih => exact .ite (ih h.bookHole.closeInterval) h

theorem Stays.closeUpTo (h : Stays s₀ s) {p lim : Nat} : Stays s₀ (s.closeUpTo p lim) :=
  h.closeDue

theorem Stays.directionDue (h : Stays s₀ s) {p : Nat} : Stays s₀ (s.directionDue p) := by
  unfold State.directionDue
  dsimp only
  split
  · exact h
  · exact .ite h h.setPoint.logCus.alarm.count2

theorem execDirectionDebounce_stays (h : Stays s₀ s) {dt point : Nat} : NextStays s₀ (execDirectionDebounce dt point s) :=
  Stays.next (.ite h.advance.directionDue h.advance)

theorem Stays.endPending (h : Stays s₀ s) {p a : Nat} : Stays s₀ (s.endPending p a) :=
  h.setPoint.foldl fun h => h.gapNow

theorem Stays.stepDone (h : Stays s₀ s) {p stop : Nat} {y : Ahead} : Stays s₀ (s.stepDone p stop y) :=
  h.setPoint

theorem Stays.bookStep (h : Stays s₀ s) {p a b : Nat} {qty : StepQty} : Stays s₀ (s.bookStep p a b qty) := by
  unfold State.bookStep
  extract_lets _ _ s₁ x stop step late
  have h₁ : Stays s₀ s₁ := (Stays.ite h.directionDue h.directionDue.closeUpTo).endPending
  split
  · extract_lets _ s₁
    have h₁ : Stays s₀ s₁ := (Stays.ite h₁.setPoint.gapMerge h₁.setPoint).stepDone.count2
    exact .ite h₁.count2 h₁
  · exact h₁.setPoint.stepDone
  · extract_lets _ units _ s₁
    have h₁ : Stays s₀ s₁ := (h₁.setPoint.foldl fun h => h.register).stepDone
    exact .ite h₁.count2 h₁

theorem Stays.cusTake (h : Stays s₀ s) {p g : Nat} {x : Slot} : Stays s₀ (s.cusTake p g x) :=
  .ite h.bookStep.closeUpTo.boundariesDone h

theorem Stays.cusTakeAll (h : Stays s₀ s) {pod g : Nat} {x : Slot} : Stays s₀ (s.cusTakeAll pod g x) :=
  h.foldl fun h => .ite h.cusTake h

theorem Stays.windowStep (h : Stays s₀ s) {p a : Nat} : Stays s₀ (s.windowStep p a) := by
  unfold State.windowStep
  dsimp only
  split
  · exact h.bookStep
  · exact h.bookStep
  · exact h.bookStep.setPoint

theorem Stays.windowsTo (h : Stays s₀ s) {p stop : Nat} : Stays s₀ (s.windowsTo p stop) :=
  h.foldl fun h => .ite h.windowStep h

theorem Stays.cusWindow (h : Stays s₀ s) {p a : Nat} : Stays s₀ (s.cusWindow p a) :=
  .ite h.windowsTo h

theorem execCusStep_stays (h : Stays s₀ s) {dt point : Nat} {input : StepInput} :
    NextStays s₀ (execCusStep dt point input s) := by
  unfold execCusStep
  refine Stays.next ?_
  split
  · split
    · exact h.advance.cusTake
    · exact h.advance
  · exact .ite h.advance.bookStep h.advance
  · exact h.advance.cusWindow

theorem execDinPulseEdge_stays (h : Stays s₀ s) {dt land : Nat} {rising : Bool} :
    NextStays s₀ (execDinPulseEdge dt land rising s) :=
  Stays.next (.ite (h.advance.set.foldl fun h => .ite h.setPoint h) h.advance.set)

theorem execProfileBoundary_stays (h : Stays s₀ s) {dt minutes : Nat} : NextStays s₀ (execProfileBoundary dt minutes s) :=
  Stays.next (.ite (h.advance.foldl fun h => h.closeUpTo).boundariesDone h.advance)

theorem execProfileSigned_stays (h : Stays s₀ s) {dt point sequence : Nat} :
    NextStays s₀ (execProfileSigned dt point sequence s) := by
  unfold execProfileSigned
  refine Stays.next ?_
  split
  · exact h.advance
  · exact .ite h.advance.set.count h.advance.set

theorem Stays.cusSave (h : Stays s₀ s) {kind : Nat} {pfw : Option Nat} : Stays s₀ (s.cusSave kind pfw) :=
  h.set.count.wearAdd

theorem execTotalsSave_stays (h : Stays s₀ s) {dt : Nat} : NextStays s₀ (execTotalsSave dt s) :=
  Stays.next (.ite h.advance.cusSave h.advance)

theorem Stays.cusLoad (h : Stays s₀ s) : Stays s₀ s.cusLoad := by
  unfold State.cusLoad
  split
  · exact h
  · exact h.set.foldl fun h => h.setPoint

theorem Stays.pointStart (h : Stays s₀ s) {p : Nat} {partial_ : Bool} : Stays s₀ (s.pointStart p partial_) :=
  h.setPoint

theorem Stays.pointStop (h : Stays s₀ s) {p : Nat} : Stays s₀ (s.pointStop p) :=
  h.setPoint

theorem Stays.cusCommit (h : Stays s₀ s) : Stays s₀ s.cusCommit :=
  h.foldl fun h => .ite (.ite h.setPoint h.pointStart) (.ite h.pointStop h)

theorem Stays.pointChanged (h : Stays s₀ s) {p : Nat} : Stays s₀ (s.pointChanged p) :=
  .ite h h.setPoint

theorem Stays.cusBoot (h : Stays s₀ s) : Stays s₀ s.cusBoot := by
  unfold State.cusBoot
  refine .set ?_
  split
  · refine .foldl (.foldl h.set.cusLoad fun g => ?_) fun g => g.setPoint
    exact .ite g.setPoint g
  · refine .foldl (.ite (.count (.foldl h.set.cusLoad fun g => ?_)) (.foldl h.set.cusLoad fun g => ?_)) fun g => ?_
    · exact .ite g.setPoint g
    · exact .ite g.setPoint g
    · extract_lets x last
      split
      · exact g.gapNow.setPoint
      all_goals exact g.setPoint

theorem Stays.cusOff (h : Stays s₀ s) : Stays s₀ s.cusOff :=
  h.foldl fun h => .ite h.bookHole.setPoint h.bookHole

theorem Stays.boundariesMissed (h : Stays s₀ s) {per n a b : Nat} : Stays s₀ (s.boundariesMissed per n a b) := by
  induction n generalizing s a with
  | zero => exact h
  | succ n ih => exact .ite (ih h.prerequisiteDone) h

theorem Stays.cusOn (h : Stays s₀ s) : Stays s₀ s.cusOn :=
  h.foldl fun h => .ite h.gapClose.boundariesMissed.setPoint h.setPoint

theorem Stays.cusReset (h : Stays s₀ s) : Stays s₀ s.cusReset :=
  (h.foldl fun h => h.taskDiscard).cusLoad.foldl fun h => h.setPoint

theorem Stays.cusResume (h : Stays s₀ s) : Stays s₀ s.cusResume :=
  h.foldl fun h => h.endPending.setPoint

theorem Stays.bookLost (h : Stays s₀ s) {p reason a b : Nat} : Stays s₀ (s.bookLost p reason a b) :=
  .ite h h.gapMerge.count2.setPoint

theorem Stays.cusStepClock (h : Stays s₀ s) {a b : Nat} : Stays s₀ (s.cusStepClock a b) :=
  .ite
    ((h.foldl fun h =>
         h.cusTakeAll).foldl fun h =>
        .ite
          (Stays.ite
              (Stays.ite
                  (Stays.ite (Stays.ite h.windowsTo h).bookLost (.ite h.windowsTo h)).closeInterval
                  (.ite (Stays.ite h.windowsTo h).bookLost (.ite h.windowsTo h))).bookLost
              (.ite
                 (Stays.ite (Stays.ite h.windowsTo h).bookLost (.ite h.windowsTo h)).closeInterval
                 (.ite (Stays.ite h.windowsTo h).bookLost (.ite h.windowsTo h)))).setPoint
          (.ite
             (Stays.ite
                 (Stays.ite (Stays.ite h.windowsTo h).bookLost (.ite h.windowsTo h)).closeInterval
                 (.ite (Stays.ite h.windowsTo h).bookLost (.ite h.windowsTo h))).bookLost
             (.ite
                (Stays.ite (Stays.ite h.windowsTo h).bookLost (.ite h.windowsTo h)).closeInterval
                (.ite (Stays.ite h.windowsTo h).bookLost (.ite h.windowsTo h))))).boundariesDone
    h

theorem Stays.stepsEnd (h : Stays s₀ s) {t : Nat} : Stays s₀ (s.stepsEnd t) :=
  h.foldl fun h => .ite h.windowsTo h

theorem Stays.cusFreeze (h : Stays s₀ s) {t : Nat} : Stays s₀ (s.cusFreeze t) :=
  .ite h h.set

theorem Stays.cusUnfreeze (h : Stays s₀ s) : Stays s₀ s.cusUnfreeze :=
  (Stays.ite (h.set.foldl fun h => h.gapNow) h).set

theorem execCusReadRegisters_stays (h : Stays s₀ s) {dt : Nat} {q : Req} : NextStays s₀ (execCusReadRegisters dt q s) :=
  Stays.next (h.advance.serve fun h => .iteFst h (.iteFst h (.iteFst h h)))

theorem execCusReadProfile_stays (h : Stays s₀ s) {dt : Nat} {q : Req} : NextStays s₀ (execCusReadProfile dt q s) :=
  Stays.next (h.advance.serve fun h => .iteFst h (.iteFst h (.iteFst h h.set.count)))

theorem execCusAckProfile_stays (h : Stays s₀ s) {dt : Nat} {q : Req} : NextStays s₀ (execCusAckProfile dt q s) :=
  Stays.next (h.advance.serve fun h => .iteFst h h.set)

theorem execCusReadLegalId_stays (h : Stays s₀ s) {dt : Nat} {q : Req} : NextStays s₀ (execCusReadLegalId dt q s) :=
  Stays.next (h.advance.serve fun h => .iteFst h h)

/-! ### Params -/

theorem Stays.writeLive (h : Stays s₀ s) {x : WItem} : Stays s₀ (s.writeLive x) :=
  .ite h.set (.ite h.setPar.fltRestartB (.ite h.setPar.fltRestartB h.setPar))

theorem Stays.writeItems (h : Stays s₀ s) {live batch : Bool} {session : Nat} {l : List WItem} :
    Stays s₀ (s.writeItems live batch session l).1 := by
  unfold State.writeItems
  dsimp only
  refine .iteFst h ?_
  split
  · exact h
  · exact .iteFst (h.foldl fun h => h.writeLive) (.iteFst h h.set)

theorem Stays.setFlash (h : Stays s₀ s) {k : Nat} {x : FlashSlot} : Stays s₀ (s.setFlash k x) :=
  h.set

theorem Stays.tcpFree (h : Stays s₀ s) {use : Nat} {owners : List Nat} : Stays s₀ (s.tcpFree use owners) :=
  h.foldl fun h => h.tcpEnd

theorem Stays.sourceCommit (h : Stays s₀ s) {r : State} {src b : Nat} : Stays s₀ (r.sourceCommit s src b) := by
  unfold State.sourceCommit
  dsimp only
  split
  · refine .setSrc (.tcpFree ?_)
    split
    · exact .ite (Stays.ite h.set.alarm h.set).c37SendTo (.ite h.set.alarm h.set)
    · exact .ite h.set.alarm h.set
  · exact .ite (Stays.ite h.set.alarm h.set).tcpFree.setSrc.askCfg (Stays.ite h.set.alarm h.set).tcpFree.setSrc

theorem Stays.replay (h : Stays s₀ s) {r : JournalRec} : Stays s₀ (s.replay r) :=
  .ite h.withCfg h.withCfg

theorem Stays.applyConfig (h : Stays s₀ s) {c : Config} {b : Nat} {srcs : List Nat} {wrote : List (Nat × Nat)} :
    Stays s₀ (s.applyConfig c b srcs wrote) := by
  unfold State.applyConfig
  extract_lets ch _ pods reshaped changed drains _ _ _ modes pcts _ _ banks _ _ fds _ mts _ _ bals s₁
  have h₁ : Stays s₀ s₁ :=
    ((((((h.withCfg.set.foldl fun h =>
              h.sourceCommit).foldl fun h =>
             h.portCommit).cnvCommit.foldl fun h =>
           h.fltRestartB).foldl fun h =>
          h.podCommit).foldl fun h => h.fdCommit).foldl fun h => h.mtCommit).armCommit.foldl fun h => h.balCommit
  exact (Stays.ite h₁.cusCommit h₁).foldl fun h => h.capCommit

theorem Stays.offsetCommit (h : Stays s₀ s) {maq : AMap MaqEntry} : Stays s₀ (s.offsetCommit maq) := by
  unfold State.offsetCommit
  split
  · exact h.set
  · exact h

/-! ### Device -/

theorem Stays.endSessions (h : Stays s₀ s) : Stays s₀ s.endSessions :=
  h.set

theorem Stays.setDev (h : Stays s₀ s) {d : DevState} : Stays s₀ (s.setDev d) :=
  h.set

theorem Stays.feedFinals (h : Stays s₀ s) : Stays s₀ s.feedFinals :=
  h.foldl fun h => h.cusTakeAll.balTakeAll

theorem Stays.feedFirst (h : Stays s₀ s) {p g : Nat} : Stays s₀ (s.feedFirst p g) := by
  unfold State.feedFirst
  extract_lets _ s₁
  have h₁ : Stays s₀ s₁ := by
    dsimp only [s₁]
    refine (h.foldl fun h => h.fdFirst).foldl fun h => .ite ?_ h
    split
    · exact .ite h.armTake h
    · exact h
  exact (Stays.ite (h₁.foldl fun h => h.balFirst) h₁).foldl fun h => .ite h.capTake h

theorem Stays.finalsNow (h : Stays s₀ s) : Stays s₀ s.finalsNow :=
  (Stays.ite (h.alnFinalise.foldl fun h => h.feedFirst) h.alnFinalise).feedFinals

theorem Stays.stopMeasuring (h : Stays s₀ s) : Stays s₀ s.stopMeasuring :=
  h.finalsNow.lgcSuspend.capStopAll.cusOff

theorem Stays.enterConfig (h : Stays s₀ s) : Stays s₀ s.enterConfig :=
  (Stays.ite h.stopMeasuring h).setDev.set

theorem Stays.startMeasuring (h : Stays s₀ s) : Stays s₀ s.startMeasuring := by
  unfold State.startMeasuring
  refine .lgcResume (.armStart (.cusOn (h.foldl fun g => ?_)))
  exact .ite g.setPod g

theorem Stays.enterMeasuring (h : Stays s₀ s) {d : DevState} : Stays s₀ (s.enterMeasuring d) :=
  .ite h.setDev h.setDev.startMeasuring

theorem Stays.enterRun (h : Stays s₀ s) : Stays s₀ s.enterRun :=
  h.enterMeasuring.set

theorem Stays.bootRule (h : Stays s₀ s) : Stays s₀ s.bootRule :=
  .ite h.enterRun h

theorem Stays.leaveHold (h : Stays s₀ s) : Stays s₀ s.leaveHold :=
  .ite h.set.enterRun h.set.enterConfig

theorem Stays.selectBank (h : Stays s₀ s) : Stays s₀ s.selectBank := by
  unfold State.selectBank
  dsimp only
  split
  · exact .ite h.set (.ite h.set.count h.set)
  · exact .ite h.set h.set
  · exact .ite h.set h.set
  · exact h.set

theorem Stays.dropVolatile (h : Stays s₀ s) : Stays s₀ s.dropVolatile :=
  h.set

theorem Stays.rebooted (h : Stays s₀ s) : Stays s₀ s.rebooted := h

theorem Stays.startBoot (h : Stays s₀ s) {cause : Nat} : Stays s₀ (s.startBoot cause) :=
  h.rebooted.set.selectBank

/-! ### Vault -/

theorem Stays.setSlot' (h : Stays s₀ s) {k : Nat} {x : KeySlot} : Stays s₀ (s.setSlot' k x) :=
  h.set

theorem Stays.endSlotSessions (h : Stays s₀ s) {l : List Nat} : Stays s₀ (s.endSlotSessions l) :=
  h.set

theorem Stays.orphan (h : Stays s₀ s) {k : Nat} : Stays s₀ (s.orphan k) :=
  (h.foldl fun h => h.setSlot').endSlotSessions

theorem Stays.changeSlot (h : Stays s₀ s) {k : Nat} {x : KeySlot} : Stays s₀ (s.changeSlot k x) :=
  h.orphan.setSlot'

theorem Stays.draw (h : Stays s₀ s) : Stays s₀ s.draw.1 :=
  h.set

theorem Stays.setCtrs (h : Stays s₀ s) {c : DWord} : Stays s₀ (s.setCtrs c) :=
  h.set

theorem Stays.journalled (h : Stays s₀ s) {j : Journal} : Stays s₀ (s.journalled j) :=
  h.set

theorem Stays.keyEffect (h : Stays s₀ s) {q : Req} {x : KeyMsg} : Stays s₀ (s.keyEffect q x).1 := by
  unfold State.keyEffect
  refine .iteFst h ?_
  split
  · exact h
  · exact h.set
  · exact h.set
  · exact h
  · split
    · exact h
    · exact .iteFst h h
  · exact h

theorem Stays.refuseKey (h : Stays s₀ s) {x : KeyMsg} {st : Nat} : Stays s₀ (s.refuseKey x st).1 :=
  h.count.logEv

theorem Stays.keyUpdate (h : Stays s₀ s) {q : Req} {inv : Bool} : Stays s₀ (s.keyUpdate q inv).1 := by
  unfold State.keyUpdate
  dsimp only
  split
  · split
    · exact h.refuseKey
    · next e => exact (Stays.of_eq e h.keyEffect).journalled
  · exact h.refuseKey

theorem Stays.serveKeyUpdate (h : Stays s₀ s) {q : Req} : Stays s₀ (s.serveKeyUpdate q) :=
  h.serve fun h => h.keyUpdate

theorem execKeyUpdateSetAnchor_stays (h : Stays s₀ s) {dt : Nat} {q : Req} : NextStays s₀ (execKeyUpdateSetAnchor dt q s) :=
  h.advance.serveKeyUpdate.next

theorem execKeyUpdateRekeyRoot_stays (h : Stays s₀ s) {dt : Nat} {q : Req} : NextStays s₀ (execKeyUpdateRekeyRoot dt q s) :=
  h.advance.serveKeyUpdate.next

theorem execKeyUpdateGenerate_stays (h : Stays s₀ s) {dt : Nat} {q : Req} : NextStays s₀ (execKeyUpdateGenerate dt q s) :=
  h.advance.serveKeyUpdate.next

theorem execKeyUpdateDerive_stays (h : Stays s₀ s) {dt : Nat} {q : Req} : NextStays s₀ (execKeyUpdateDerive dt q s) :=
  h.advance.serveKeyUpdate.next

theorem execKeyUpdateLoadWrapped_stays (h : Stays s₀ s) {dt : Nat} {q : Req} :
    NextStays s₀ (execKeyUpdateLoadWrapped dt q s) :=
  h.advance.serveKeyUpdate.next

theorem execKeyUpdateLoadPublic_stays (h : Stays s₀ s) {dt : Nat} {q : Req} : NextStays s₀ (execKeyUpdateLoadPublic dt q s) :=
  h.advance.serveKeyUpdate.next

theorem execKeyInvalidate_stays (h : Stays s₀ s) {dt : Nat} {q : Req} : NextStays s₀ (execKeyInvalidate dt q s) :=
  Stays.next (h.advance.serve fun h => h.keyUpdate)

theorem Stays.sealedUpdate (h : Stays s₀ s) {x : SealMsg} : Stays s₀ (s.sealedUpdate x).1 := by
  unfold State.sealedUpdate
  refine .iteFst h (.iteFst h ?_)
  split
  · exact h
  · dsimp only
    split
    · exact h
    · exact .iteFst h (.iteFst h h.keepConflicts)

theorem Stays.sealBody (h : Stays s₀ s) {x : SealMsg} : Stays s₀ (s.sealBody x).1 :=
  .iteFst h.sealedUpdate (.iteFst (.iteFst h (.iteFst h (.iteFst h h))) (.iteFst h (.iteFst h (.iteFst (.iteFst h h) h))))

theorem Stays.sealMessage (h : Stays s₀ s) {q : Req} {update : Bool} : Stays s₀ (s.sealMessage q update).1 := by
  unfold State.sealMessage
  dsimp only
  split
  · refine .iteFst h ?_
    split
    · next e => exact .of_eq e h.sealBody
    · next e => exact (Stays.of_eq e h.sealBody).journalled
  · exact h

theorem Stays.serveSeal (h : Stays s₀ s) {q : Req} : Stays s₀ (s.serveSeal q) :=
  h.serve fun h => h.sealMessage

theorem execCusSealSeal_stays (h : Stays s₀ s) {dt : Nat} {q : Req} : NextStays s₀ (execCusSealSeal dt q s) :=
  h.advance.serveSeal.next

theorem execCusSealBreak_stays (h : Stays s₀ s) {dt : Nat} {q : Req} : NextStays s₀ (execCusSealBreak dt q s) :=
  h.advance.serveSeal.next

theorem execCusSealClearRegisters_stays (h : Stays s₀ s) {dt : Nat} {q : Req} :
    NextStays s₀ (execCusSealClearRegisters dt q s) :=
  h.advance.serveSeal.next

theorem execCusSealedUpdate_stays (h : Stays s₀ s) {dt : Nat} {q : Req} : NextStays s₀ (execCusSealedUpdate dt q s) :=
  Stays.next (h.advance.serve fun h => h.sealMessage)

theorem Stays.sealLog (h : Stays s₀ s) {code par : Nat} : Stays s₀ (s.sealLog code par) := by
  unfold State.sealLog
  split
  · next e =>
      have h₁ : Stays s₀ _ := .of_eq e h.admitMet
      exact .ite h₁ h₁.count

theorem Stays.sealOp (h : Stays s₀ s) {op : Nat} {c : DWord} : Stays s₀ (s.sealOp op c) :=
  h.sealLog

theorem Stays.applySeal (h : Stays s₀ s) {c : DWord} : Stays s₀ (s.applySeal c) :=
  (h.set.sealOp.foldl fun h => h.sealLog).cusUnfreeze

theorem Stays.clearPoint (h : Stays s₀ s) {p : Nat} : Stays s₀ (s.clearPoint p) :=
  (h.foldl fun h => h.sealLog).set.pointChanged

theorem Stays.applySealed (h : Stays s₀ s) {items : List (Nat × Nat × List Word)} : Stays s₀ (s.applySealed items) := by
  unfold State.applySealed
  extract_lets l _ kept points _ srcs _ _ s₁ _ _ after
  have h₁ : Stays s₀ s₁ := (h.foldl fun h => h.sealLog).applyConfig.set
  exact (Stays.ite h₁.set h₁).foldl fun h => h.pointChanged

theorem Stays.keyAccepted (h : Stays s₀ s) {j : Journal} : Stays s₀ (s.keyAccepted j) :=
  .ite h.count.admitMet h.count.logEv

theorem Stays.applyVault (h : Stays s₀ s) {j : Journal} : Stays s₀ (s.applyVault j) := by
  unfold State.applyVault
  extract_lets
  split
  · exact h.setCtrs.changeSlot.keyAccepted
  · exact h.setCtrs.changeSlot.endSlotSessions.keyAccepted
  · extract_lets _ _ _ s₁
    have h₁ : Stays s₀ s₁ := h.setCtrs.changeSlot.set.alarm.keyAccepted
    exact .ite h₁.leaveHold h₁
  · exact h.setCtrs.set.applySeal
  · exact h.setCtrs.set.sealOp
  · exact h.setCtrs.set.sealOp.foldl fun h => h.clearPoint
  · exact h.setCtrs.set.applySealed

theorem Stays.answerJournal (h : Stays s₀ s) {j : Journal} {a : Ans} : Stays s₀ (s.answerJournal j a) :=
  h.answerLater

theorem Stays.journalCommit (h : Stays s₀ s) : Stays s₀ s.journalCommit := by
  unfold State.journalCommit
  split
  · exact h
  · exact (Stays.ite h.set.applyVault.flushLog h.set.applyVault).answerJournal

theorem execVaultJournalCommit_stays (h : Stays s₀ s) {dt : Nat} : NextStays s₀ (execVaultJournalCommit dt s) :=
  Stays.next (.ite h.advance.journalCommit h.advance)

theorem execSign_stays (h : Stays s₀ s) {dt : Nat} {q : Req} : NextStays s₀ (execSign dt q s) := by
  unfold execSign
  refine Stays.next (h.advance.serve fun h => ?_)
  dsimp only
  split
  · exact h
  · exact .iteFst h (.iteFst h h.count)

theorem execVerify_stays (h : Stays s₀ s) {dt : Nat} {q : Req} : NextStays s₀ (execVerify dt q s) :=
  Stays.next (h.advance.serve fun h => .iteFst h (.iteFst h (.iteFst h h.count)))

theorem Stays.keyExport (h : Stays s₀ s) {q : Req} {role : Nat} : Stays s₀ (s.keyExport q role).1 :=
  .iteFst h (.iteFst h h.set)

theorem Stays.serveKeyInfo (h : Stays s₀ s) {q : Req} : Stays s₀ (s.serveKeyInfo q) :=
  h.serve fun h => .iteFst h.keyExport h

theorem execKeyInfo_stays (h : Stays s₀ s) {dt : Nat} {q : Req} : NextStays s₀ (execKeyInfo dt q s) :=
  h.advance.serveKeyInfo.next

theorem execKeyInfoExport_stays (h : Stays s₀ s) {dt : Nat} {q : Req} : NextStays s₀ (execKeyInfoExport dt q s) :=
  h.advance.serveKeyInfo.next

theorem execDeviceCert_stays (h : Stays s₀ s) {dt : Nat} {q : Req} : NextStays s₀ (execDeviceCert dt q s) :=
  Stays.next (h.advance.serve fun h => .iteFst h (.iteFst h (.iteFst h h)))

theorem execCounterRead_stays (h : Stays s₀ s) {dt : Nat} {q : Req} : NextStays s₀ (execCounterRead dt q s) :=
  Stays.next (h.advance.serve fun h => h)

theorem Stays.plinthTamper (h : Stays s₀ s) {source : Nat} {copied : Bool} : Stays s₀ (s.plinthTamper source copied) :=
  (Stays.ite h h.setSlot').dropVolatile.set.count

theorem Stays.eraseSecrets (h : Stays s₀ s) : Stays s₀ s.eraseSecrets :=
  h.foldl fun h => h.setSlot'

theorem Stays.copyTampers (h : Stays s₀ s) : Stays s₀ s.copyTampers :=
  (h.foldl fun h => h.admitMet).set

theorem Stays.tamperNotice (h : Stays s₀ s) : Stays s₀ s.tamperNotice :=
  h.notify

theorem Stays.mainTamper (h : Stays s₀ s) {t : Nat} : Stays s₀ (s.mainTamper t) := by
  unfold State.mainTamper
  dsimp only
  refine .copyTampers (.tamperNotice (.set (.alarm (.cusFreeze (.enterMeasuring (.endSessions (.eraseSecrets ?_)))))))
  split
  · exact h.set.answerJournal
  · exact h

theorem Stays.plinthLost (h : Stays s₀ s) : Stays s₀ s.plinthLost :=
  .ite h.set.plinthTamper.set h.set

theorem Stays.tamper (h : Stays s₀ s) {source : Nat} : Stays s₀ (s.tamper source) := by
  unfold State.tamper
  refine .ite (.ite h.plinthLost h) (.ite h ?_)
  dsimp only
  split
  · exact .ite h.plinthTamper.set h.plinthTamper.mainTamper
  · exact .ite h.plinthTamper.set h.plinthTamper.mainTamper
  · exact .ite h.plinthTamper.set h.plinthTamper.mainTamper
  · exact h.plinthTamper.set.startBoot
  · exact h.plinthTamper.set

theorem execTamperDetected_stays (h : Stays s₀ s) {dt source : Nat} : NextStays s₀ (execTamperDetected dt source s) :=
  h.advance.tamper.next

theorem execSupplyMeasurement_stays (h : Stays s₀ s) {dt vbatMv vplcMv : Nat} :
    NextStays s₀ (execSupplyMeasurement dt vbatMv vplcMv s) :=
  Stays.next (.ite h.advance.set.set.alarm.alarm h.advance)

theorem execBatteryInsertion_stays (h : Stays s₀ s) {dt : Nat} : NextStays s₀ (execBatteryInsertion dt s) :=
  h.advance.set.next

/-! ### Packet -/

theorem Stays.flushQueued (h : Stays s₀ s) {u : Nat} : Stays s₀ (s.flushQueued u) := by
  unfold State.flushQueued
  dsimp only
  refine .foldl (h.set.foldl fun h => ?_) fun h => h.fetchMore
  split
  · exact h.answer
  · exact h

/-! ### Ptp -/

theorem Stays.ptpNext (h : Stays s₀ s) {n ty : Nat} : Stays s₀ (s.ptpNext n ty).1 :=
  h.set

theorem Stays.ptpSend (h : Stays s₀ s) {n ty seq flags control interval : Nat} {body : List Byte} :
    Stays s₀ (s.ptpSend n ty seq flags control interval body) :=
  h.queueTx

theorem Stays.sendSync (h : Stays s₀ s) {n : Nat} : Stays s₀ (s.sendSync n) :=
  h.set.ptpSend

theorem Stays.sendPdelayReq (h : Stays s₀ s) {n : Nat} : Stays s₀ (s.sendPdelayReq n) :=
  h.set.ptpSend

theorem Stays.sendPdelayResp (h : Stays s₀ s) {n t : Nat} {l : List Byte} : Stays s₀ (s.sendPdelayResp n t l) :=
  h.ptpSend

/-! ### Time -/

theorem Stays.sendQuality (h : Stays s₀ s) {step : Option ℤ} : Stays s₀ (s.sendQuality step) :=
  h.notify.set

theorem Stays.timeChanged (h : Stays s₀ s) {change : Bool} {step : Option Int} : Stays s₀ (s.timeChanged change step) := by
  unfold State.timeChanged
  extract_lets q locked w lockMoved tqMoved _ s₁ s₂ s₃ s₄
  have changed : Stays s₀ s₃ := by
    have sent : Stays s₀ s₂ := .ite h.set.sendQuality h.set
    exact .ite sent.logEv sent
  have stepped : Stays s₀ s₄ := by
    dsimp only [s₄]
    split
    · exact changed.logEv
    · exact changed
  exact .ite stepped.bootRule stepped

theorem Stays.shiftTimers (h : Stays s₀ s) {f : Nat → Nat} : Stays s₀ (s.shiftTimers f) :=
  h.set

theorem Stays.setClock (h : Stays s₀ s) {b : Nat} : Stays s₀ (s.setClock b) :=
  h.shiftTimers.set

theorem Stays.stepUnits (h : Stays s₀ s) {a b : Nat} : Stays s₀ (s.stepUnits a b) :=
  h.alnStep.cnvStep.capStep.cusStepClock

theorem Stays.setRef (h : Stays s₀ s) {kind : Nat} {r : Ref} : Stays s₀ (s.setRef kind r) := by
  unfold State.setRef
  split
  · exact h.set
  · exact h.set
  · exact h.set
  · exact h

theorem Stays.correct (h : Stays s₀ s) {o done : ℤ} {first change : Bool} : Stays s₀ (s.correct o done first change) :=
  .ite h.setClock.set.count.timeChanged.stepUnits h.set.timeChanged

theorem Stays.ptpUtc (h : Stays s₀ s) : Stays s₀ s.ptpUtc := by
  unfold State.ptpUtc
  split
  · exact .ite h.set h
  · exact h

theorem Stays.steerBy (h : Stays s₀ s) {kind : Nat} : Stays s₀ (s.steerBy kind) :=
  h.set.ptpUtc.correct

theorem Stays.holdover (h : Stays s₀ s) : Stays s₀ s.holdover :=
  h.set.timeChanged

theorem Stays.reselect (h : Stays s₀ s) : Stays s₀ s.reselect := by
  unfold State.reselect
  split
  · exact h.steerBy
  · exact h.holdover

theorem Stays.acquire (h : Stays s₀ s) : Stays s₀ s.acquire :=
  .ite h.set.timeChanged (.ite h.set.timeChanged h)

theorem Stays.disqualify (h : Stays s₀ s) {kind : Nat} : Stays s₀ (s.disqualify kind) :=
  h.setRef.acquire

theorem Stays.badItem (h : Stays s₀ s) {kind counter limit : Nat} : Stays s₀ (s.badItem kind counter limit) :=
  .ite (.ite h.count.disqualify h.count.setRef) h

theorem Stays.goodItem (h : Stays s₀ s) {kind : Nat} {inacc : Rat} {offset : ℤ} {counts : Bool} :
    Stays s₀ (s.goodItem kind inacc offset counts) :=
  .ite (.ite h.setRef.correct h.setRef.acquire) h

theorem execReferenceQualified_stays (h : Stays s₀ s) {dt kind : Nat} : NextStays s₀ (execReferenceQualified dt kind s) :=
  Stays.next (.ite (.ite h.advance.setRef h.advance.setRef.reselect) h.advance)

theorem execReferenceDisqualified_stays (h : Stays s₀ s) {dt kind : Nat} :
    NextStays s₀ (execReferenceDisqualified dt kind s) :=
  Stays.next (.ite h.advance.reselect h.advance)

theorem execReferenceRevert_stays (h : Stays s₀ s) {dt : Nat} : NextStays s₀ (execReferenceRevert dt s) := by
  unfold execReferenceRevert
  refine Stays.next ?_
  split
  · exact h.advance.steerBy
  · exact h.advance

theorem execTqChange_stays (h : Stays s₀ s) {dt : Nat} : NextStays s₀ (execTqChange dt s) :=
  Stays.next (.ite h.advance.timeChanged h.advance)

theorem execTimeQualityHoldEnd_stays (h : Stays s₀ s) {dt : Nat} : NextStays s₀ (execTimeQualityHoldEnd dt s) :=
  Stays.next (.ite (.ite h.advance.set.timeChanged.sendQuality h.advance.set.timeChanged) h.advance)

theorem Stays.parentAnnounce (h : Stays s₀ s) {a : Announce} : Stays s₀ (s.parentAnnounce a) :=
  .ite
    (.ite h.set.disqualify h.set)
    (.ite
       (Stays.ite
           (Stays.ite h.set.setRef h.set.setRef.set).set.ptpUtc.timeChanged
           (.ite h.set.setRef h.set.setRef.set)).acquire
       h.set)

theorem Stays.bestMaster (h : Stays s₀ s) : Stays s₀ s.bestMaster := by
  unfold State.bestMaster
  dsimp only
  split
  · exact h.set
  · exact .ite h.set (.ite h.set (Stays.ite h.set.disqualify h.set).set.parentAnnounce)

theorem Stays.announce (h : Stays s₀ s) {port : Nat} {a : Announce} : Stays s₀ (s.announce port a) :=
  .ite h.set.parentAnnounce (.ite h.set h.set.bestMaster)

theorem Stays.leapAnnounced (h : Stays s₀ s) {insert : Bool} : Stays s₀ (s.leapAnnounced insert) :=
  .ite h h.set

theorem Stays.announceTaken (h : Stays s₀ s) {port : Nat} {a : Announce} : Stays s₀ (s.announceTaken port a) :=
  .ite h.announce.leapAnnounced h.announce

theorem execPtpAnnounceReceived_stays (h : Stays s₀ s) {dt port : Nat} {msg : List Byte} :
    NextStays s₀ (execPtpAnnounceReceived dt port msg s) := by
  unfold execPtpAnnounceReceived
  refine Stays.next ?_
  split
  · exact .ite h.advance.announceTaken h.advance
  · exact h.advance

theorem Stays.ptpMeasured (h : Stays s₀ s) {offset : ℤ} : Stays s₀ (s.ptpMeasured offset) :=
  .ite h.setRef.correct h.setRef

theorem Stays.syncTaken (h : Stays s₀ s) {n : Nat} {msg : List Byte} {stamp : Nat} {delay : ℤ} :
    Stays s₀ (s.syncTaken n msg stamp delay) := by
  unfold State.syncTaken
  dsimp only
  split
  · exact .ite (.ite h.set h.set.ptpMeasured) h
  · split
    · exact .ite h.set.ptpMeasured h
    · exact h
  · exact h

theorem execPtpSyncReceived_stays (h : Stays s₀ s) {dt port : Nat} {msg : List Byte} {heard : PtpHeard} :
    NextStays s₀ (execPtpSyncReceived dt port msg heard s) :=
  Stays.next (.ite h.advance.syncTaken h.advance)

theorem execPtpPdelayReqReceived_stays (h : Stays s₀ s) {dt : Nat} {rx : PtpRx} :
    NextStays s₀ (execPtpPdelayReqReceived dt rx s) :=
  Stays.next (.ite h.advance.sendPdelayResp h.advance)

theorem Stays.sendAnnounce (h : Stays s₀ s) {n : Nat} : Stays s₀ (s.sendAnnounce n) :=
  h.set.ptpSend

theorem Stays.ptpInterval (h : Stays s₀ s) : Stays s₀ s.ptpInterval :=
  (h.set.bestMaster.foldl fun h => h.sendAnnounce.sendSync).foldl fun h => h.sendPdelayReq

theorem execPtpAnnounceInterval_stays (h : Stays s₀ s) {dt : Nat} : NextStays s₀ (execPtpAnnounceInterval dt s) :=
  Stays.next (.ite h.advance.ptpInterval h.advance)

theorem Stays.announceTimeout (h : Stays s₀ s) : Stays s₀ s.announceTimeout :=
  (Stays.ite h.count.disqualify h).bestMaster

theorem execPtpAnnounceTimeout_stays (h : Stays s₀ s) {dt port : Nat} {sync : Bool} :
    NextStays s₀ (execPtpAnnounceTimeout dt port sync s) :=
  Stays.next (.ite (.ite (.ite h.advance.disqualify h.advance) (.ite h.advance.set.announceTimeout h.advance.set)) h.advance)

theorem Stays.irigFrame (h : Stays s₀ s) {f : IrigFrame} : Stays s₀ (s.irigFrame f) :=
  .ite h.set.badItem (.ite (.ite h.set.disqualify h.set) (.ite h.set.set.goodItem.leapAnnounced h.set.set.goodItem))

theorem execIrigFrameReceived_stays (h : Stays s₀ s) {dt : Nat} {f : IrigFrame} :
    NextStays s₀ (execIrigFrameReceived dt f s) :=
  Stays.next (.ite h.advance.irigFrame h.advance)

theorem execIrigFrameMissing_stays (h : Stays s₀ s) {dt : Nat} : NextStays s₀ (execIrigFrameMissing dt s) := by
  unfold execIrigFrameMissing
  refine Stays.next ?_
  split
  · exact .ite h.advance.set.badItem h.advance
  · exact h.advance

theorem Stays.ppsEdge (h : Stays s₀ s) {stamp : Nat} : Stays s₀ (s.ppsEdge stamp) := by
  unfold State.ppsEdge
  dsimp only
  refine .ite (.disqualify (.count (.set (.ite ?_ h)))) ?_
  · split
    · exact h.setPar
    · exact h
  · split
    · refine .goodItem (.set (.ite ?_ h))
      split
      · exact h.setPar
      · exact h
    · refine .ite (.acquire (.setRef (.set (.ite ?_ h)))) (.set (.ite ?_ h))
      · split
        · exact h.setPar
        · exact h
      · split
        · exact h.setPar
        · exact h

theorem execPpsInEdge_stays (h : Stays s₀ s) {dt stamp : Nat} : NextStays s₀ (execPpsInEdge dt stamp s) :=
  Stays.next (.ite h.advance.ppsEdge h.advance)

theorem execPpsInMissing_stays (h : Stays s₀ s) {dt : Nat} : NextStays s₀ (execPpsInMissing dt s) :=
  Stays.next (.ite h.advance.set.badItem h.advance)

theorem execPpsOutSecond_stays (h : Stays s₀ s) {dt : Nat} : NextStays s₀ (execPpsOutSecond dt s) :=
  Stays.next (.ite (.ite (Stays.ite h.advance.set.logEv h.advance).set (.ite h.advance.set.logEv h.advance)) h.advance)

theorem execPpsOutWidthEnd_stays (h : Stays s₀ s) {dt : Nat} : NextStays s₀ (execPpsOutWidthEnd dt s) :=
  Stays.next (.ite h.advance.set h.advance)

theorem execRef10mLoss_stays (h : Stays s₀ s) {dt : Nat} : NextStays s₀ (execRef10mLoss dt s) :=
  Stays.next (.ite h.advance.set.count.logEv (.ite h.advance.set h.advance))

theorem execRef10mRestore_stays (h : Stays s₀ s) {dt : Nat} : NextStays s₀ (execRef10mRestore dt s) :=
  Stays.next (.ite h.advance.set.logEv h.advance)

theorem execLeapSecondApply_stays (h : Stays s₀ s) {dt : Nat} : NextStays s₀ (execLeapSecondApply dt s) :=
  Stays.next (.ite h.advance.set.logEv h.advance)

theorem execPlinthTimeSet_stays (h : Stays s₀ s) {dt : Nat} : NextStays s₀ (execPlinthTimeSet dt s) :=
  Stays.next (.ite h.advance.set h.advance)

theorem Stays.timCommit (h : Stays s₀ s) {r : State} {b : Nat} : Stays s₀ (r.timCommit s b) := by
  unfold State.timCommit
  extract_lets _ _ rx kept _ _ lost _ _ _ _ inacc _ _ s₁ on _ _ _ s₂
  have h₁ : Stays s₀ s₁ :=
    ((Stays.ite (Stays.ite h.set h).set.set (Stays.ite h.set h).set).foldl fun h => .ite h h.setRef).set
  have h₁ : Stays s₀ s₂ := .ite (.ite h₁ h₁.set) (Stays.ite h₁ h₁.set).set
  exact .ite h₁.reselect h₁.timeChanged.acquire

theorem Stays.timStop (h : Stays s₀ s) : Stays s₀ s.timStop :=
  (Stays.ite h.holdover h).set.acquire

theorem Stays.timBoot (h : Stays s₀ s) : Stays s₀ s.timBoot :=
  h.setClock.set

/-! ### Spares -/

theorem execSpareStatus_stays (h : Stays s₀ s) {dt : Nat} {q : Req} : NextStays s₀ (execSpareStatus dt q s) :=
  Stays.next (h.advance.serve fun h => h)

theorem Stays.sramRepair (h : Stays s₀ s) {row : Nat} : Stays s₀ (s.sramRepair row) :=
  .ite h (.ite h.set h.set.count.notify)

theorem Stays.sramCorrected (h : Stays s₀ s) {a : Nat} : Stays s₀ (s.sramCorrected a) :=
  .ite h.wearAdd.set.sramRepair h.wearAdd.set

theorem Stays.sramCopy (h : Stays s₀ s) {row : Nat} : Stays s₀ (s.sramCopy row) :=
  h.set.count.spareUsed

theorem Stays.scrub (h : Stays s₀ s) {corrected uncorrectable : List Nat} : Stays s₀ (s.scrub corrected uncorrectable) :=
  ((h.foldl fun h => h.sramCopy).foldl fun h => h.sramCorrected).foldl fun h => h.wearAdd.sramRepair

theorem execSramScrubPass_stays (h : Stays s₀ s) {dt : Nat} {corrected uncorrectable : List Nat} :
    NextStays s₀ (execSramScrubPass dt corrected uncorrectable s) :=
  Stays.next (.ite h.advance.scrub h.advance)

theorem Stays.dramRetire (h : Stays s₀ s) {page : Nat} : Stays s₀ (s.dramRetire page) :=
  .ite h h.set.count.spareUsed

theorem execDramPageRetire_stays (h : Stays s₀ s) {dt page : Nat} {uncorrectable : Bool} :
    NextStays s₀ (execDramPageRetire dt page uncorrectable s) :=
  Stays.next (.ite h.advance.wearAdd.dramRetire h.advance)

theorem Stays.dramRepair (h : Stays s₀ s) : Stays s₀ s.dramRepair :=
  h.foldl fun h => .ite h.set h

theorem Stays.mramRetire (h : Stays s₀ s) {block : Nat} : Stays s₀ (s.mramRetire block) :=
  .ite h.set.count.wearAdd.spareUsed h

theorem execMramBlockRetire_stays (h : Stays s₀ s) {dt block : Nat} : NextStays s₀ (execMramBlockRetire dt block s) :=
  Stays.next (.ite h.advance.mramRetire h.advance)

theorem execMarginMonitor_stays (h : Stays s₀ s) {dt : Nat} {low : Bool} : NextStays s₀ (execMarginMonitor dt low s) :=
  Stays.next (.ite h.advance.set.spareUsed h.advance)

theorem execOperatingSecond_stays (h : Stays s₀ s) {dt : Nat} {tjMilli : ℤ} :
    NextStays s₀ (execOperatingSecond dt tjMilli s) :=
  Stays.next (.ite h.advance.set h.advance)

theorem Stays.savePatina (h : Stays s₀ s) : Stays s₀ s.savePatina :=
  h.set

theorem execPatinaSave_stays (h : Stays s₀ s) {dt : Nat} : NextStays s₀ (execPatinaSave dt s) :=
  Stays.next (.ite h.advance.savePatina h.advance)

theorem execPatinaRead_stays (h : Stays s₀ s) {dt : Nat} {q : Req} : NextStays s₀ (execPatinaRead dt q s) :=
  Stays.next (h.advance.serve fun h => .iteFst h (.iteFst h (.iteFst h h)))

/-! ### Scheduler -/

theorem Stays.setCore (h : Stays s₀ s) {n st : Nat} : Stays s₀ (s.setCore n st) :=
  h.set

theorem Stays.retireCore (h : Stays s₀ s) {core : Nat} {task : Option (Nat × Nat)} : Stays s₀ (s.retireCore core task) := by
  unfold State.retireCore
  extract_lets _ _ s₁
  have h₁ : Stays s₀ s₁ := by
    dsimp only [s₁]
    split
    · exact h.setCore.count.set.count
    · exact h.setCore.count
  split
  · exact h₁.setCore.spareUsed
  · exact h₁

theorem execCoreRetire_stays (h : Stays s₀ s) {dt core : Nat} {task : Option (Nat × Nat)} :
    NextStays s₀ (execCoreRetire dt core task s) :=
  Stays.next (.ite h.advance.retireCore h.advance)

theorem Stays.coreTested (h : Stays s₀ s) {core : Nat} {bad : Bool} : Stays s₀ (s.coreTested core bad) :=
  .ite h (.ite (.ite h.set.wearAdd.retireCore h.set.wearAdd) h.set)

theorem Stays.coresTested (h : Stays s₀ s) {failed : List Nat} : Stays s₀ (s.coresTested failed) :=
  h.set.foldl fun h => h.coreTested

theorem execCoreSelfTestTimer_stays (h : Stays s₀ s) {dt : Nat} {failed : List Nat} :
    NextStays s₀ (execCoreSelfTestTimer dt failed s) :=
  Stays.next (.ite h.advance.coresTested h.advance)

theorem execDelayExpiry_stays (h : Stays s₀ s) {dt : Nat} : NextStays s₀ (execDelayExpiry dt s) :=
  Stays.next (.ite h.advance.set.noteDepth.set h.advance)

theorem execSchedStats_stays (h : Stays s₀ s) {dt : Nat} {q : Req} : NextStays s₀ (execSchedStats dt q s) :=
  Stays.next (h.advance.serve fun h => .ite h.set h)

theorem Stays.fifoWrite (h : Stays s₀ s) {fifo : Nat} {words : List FifoWord} : Stays s₀ (s.fifoWrite fifo words) :=
  h.set

theorem Stays.holdPort (h : Stays s₀ s) {fifo : Nat} {on : Bool} : Stays s₀ (s.holdPort fifo on) :=
  .ite h.setPort h

theorem execFifoLevelHit_stays (h : Stays s₀ s) {dt fifo : Nat} {words : List FifoWord} :
    NextStays s₀ (execFifoLevelHit dt fifo words s) :=
  Stays.next (.ite (.ite h.advance.fifoWrite.count2.holdPort h.advance.fifoWrite) h.advance)

theorem execFifoLevelRelease_stays (h : Stays s₀ s) {dt fifo left : Nat} :
    NextStays s₀ (execFifoLevelRelease dt fifo left s) := by
  unfold execFifoLevelRelease
  extract_lets _ level _ _ s₁
  refine Stays.next ?_
  have h₁ : Stays s₀ s₁ := .ite h.advance.fifoRead.holdPort.startTx h.advance.fifoRead.holdPort
  exact .ite (.ite (.ite (h₁.foldl fun h => h.fetchMore) h₁) h.advance.fifoRead) h.advance

theorem execSelfTest_stays (h : Stays s₀ s) {dt : Nat} {q : Req} : NextStays s₀ (execSelfTest dt q s) :=
  Stays.next (h.advance.serve fun h => .iteFst h (.iteFst h (.iteFst h h.set)))

theorem Stays.cure (h : Stays s₀ s) {kind inst : Nat} : Stays s₀ (s.cure kind inst).1 := by
  unfold State.cure
  split
  · split
    · exact h.setSlice.setSlice.setChan.spareUsed
    · exact h
  · exact .ite h.retireCore h
  · exact h.sramRepair
  · exact h.dramRetire
  · exact h.mramRetire
  · exact .iteFst h.set.spareUsed h
  · exact h

theorem Stays.selfTestDone (h : Stays s₀ s) {u : Nat} {q : Req} {records : List (Nat × Nat × Nat × Nat × Nat)}
    {faults : List (Nat × Nat)} : Stays s₀ (s.selfTestDone u q records faults) := by
  unfold State.selfTestDone
  extract_lets _ s₁ out recs unit
  have cured : Stays s₀ out.1 := Stays.foldlFst h.set fun g => g.cure
  split
  · exact cured.answerLater
  · exact cured.answerLater

theorem execSelfTestDone_stays (h : Stays s₀ s) {dt : Nat} {records : List (Nat × Nat × Nat × Nat × Nat)}
    {faults : List (Nat × Nat)} : NextStays s₀ (execSelfTestDone dt records faults s) := by
  unfold execSelfTestDone
  refine Stays.next ?_
  split
  · exact .ite h.advance.selfTestDone h.advance
  · exact h.advance

/-! ### Boot -/

theorem execPowerUp_stays (h : Stays s₀ s) {dt : Nat} : NextStays s₀ (execPowerUp dt s) :=
  Stays.next (.ite h.advance h.advance.set)

theorem Stays.resetLow (h : Stays s₀ s) {supplies : Bool} : Stays s₀ (s.resetLow supplies) :=
  h.rebooted.set

theorem execResetNAssert_stays (h : Stays s₀ s) {dt : Nat} : NextStays s₀ (execResetNAssert dt s) :=
  Stays.next (.ite h.advance.resetLow h.advance)

theorem execSupplyOutOfTolerance_stays (h : Stays s₀ s) {dt : Nat} : NextStays s₀ (execSupplyOutOfTolerance dt s) :=
  Stays.next (.ite h.advance.resetLow h.advance)

theorem execResetNRelease_stays (h : Stays s₀ s) {dt straps : Nat} : NextStays s₀ (execResetNRelease dt straps s) :=
  Stays.next (.ite h.advance.set.selectBank h.advance)

theorem Stays.bootRecord (h : Stays s₀ s) : Stays s₀ s.bootRecord :=
  h.logEv

theorem Stays.firmwareRuns (h : Stays s₀ s) : Stays s₀ s.firmwareRuns :=
  (Stays.ite h.set h.set.set.logEv).logEv

theorem Stays.sourcesBoot (h : Stays s₀ s) : Stays s₀ s.sourcesBoot :=
  h.foldl fun h => .ite h.setSrc.askCfg h.setSrc

theorem Stays.analyticsBoot (h : Stays s₀ s) : Stays s₀ s.analyticsBoot :=
  ((((h.foldl fun h =>
        h.setPod).foldl fun h => h.fdCommit).foldl fun h => h.mtCommit).foldl fun h => h.setFlt).foldl fun h => h.capCommit

theorem Stays.vaultBoot (h : Stays s₀ s) : Stays s₀ s.vaultBoot :=
  h.set

theorem Stays.unitsBoot (h : Stays s₀ s) : Stays s₀ s.unitsBoot :=
  h.set

theorem Stays.configBoot (h : Stays s₀ s) : Stays s₀ s.configBoot :=
  h.set

theorem Stays.portsBoot (h : Stays s₀ s) : Stays s₀ s.portsBoot :=
  h.foldl fun h => h.bringUp

theorem Stays.bootComplete (h : Stays s₀ s) : Stays s₀ s.bootComplete := by
  unfold State.bootComplete
  extract_lets _ _ _ _ _ _ s₁ _ s₂
  have h₁ : Stays s₀ s₁ :=
    h.set.dramRepair.vaultBoot.configBoot.timBoot.unitsBoot.portsBoot.set.cusBoot.lgcBoot.sourcesBoot.analyticsBoot
  have h₁ : Stays s₀ s₂ := (Stays.ite h₁.firmwareRuns h₁).bootRecord
  exact .ite (.ite h₁.mainTamper (Stays.ite h₁.enterMeasuring.alarm h₁.enterMeasuring).copyTampers) h₁.copyTampers.leaveHold

theorem execBootComplete_stays (h : Stays s₀ s) {dt : Nat} : NextStays s₀ (execBootComplete dt s) :=
  Stays.next (.ite h.advance.bootComplete h.advance)

theorem execLockWaitTimeout_stays (h : Stays s₀ s) {dt : Nat} : NextStays s₀ (execLockWaitTimeout dt s) :=
  Stays.next (.ite h.advance.enterRun h.advance)

theorem Stays.closeLogs (h : Stays s₀ s) {cause : Nat} : Stays s₀ (s.closeLogs cause) :=
  h.endFreeze.endFreeze.flushLogs

theorem Stays.lgcOff (h : Stays s₀ s) : Stays s₀ s.lgcOff :=
  .ite h.lgcHalt h

theorem Stays.portsOff (h : Stays s₀ s) {sleep : Bool} : Stays s₀ (s.portsOff sleep) :=
  h.set

theorem Stays.powerSettle (h : Stays s₀ s) : Stays s₀ s.powerSettle :=
  (Stays.ite h.lgcOff.capStopAll.finalsNow.cusOff h.lgcOff.capStopAll).cusSave.closeLogs.savePatina.set.sendOwed

theorem Stays.enterSleep (h : Stays s₀ s) : Stays s₀ s.enterSleep :=
  (h.powerSettle.foldl fun h => h.setUnit).endSessions.portsOff.setDev

theorem Stays.enterHalt (h : Stays s₀ s) : Stays s₀ s.enterHalt :=
  h.powerSettle.endSessions.portsOff.setDev.set.foldl fun h => .ite h h.setUnitQuiet

theorem Stays.setStateTo (h : Stays s₀ s) {q : Req} : Stays s₀ (s.setStateTo q).1 := by
  unfold State.setStateTo
  dsimp only
  split
  · exact h.enterRun
  · exact h.enterConfig.set
  · exact h.answer.enterSleep
  · exact h.answer.enterSleep
  · exact h.answer.enterSleep
  · exact h.answer.enterHalt
  · exact h.answer.enterHalt
  · exact h.answer.enterHalt
  · exact h

theorem execSetState_stays (h : Stays s₀ s) {dt : Nat} {q : Req} : NextStays s₀ (execSetState dt q s) :=
  Stays.next (h.advance.serve fun h => h.setStateTo)

theorem Stays.powerEdge (h : Stays s₀ s) : Stays s₀ s.powerEdge :=
  h.count.lgcSuspend.set

theorem Stays.powerSave (h : Stays s₀ s) : Stays s₀ s.powerSave :=
  (Stays.ite h.stepsEnd.lgcOff.cusSave.noticeTo h.stepsEnd.lgcOff.cusSave).endFreeze.endFreeze.logEv.flushLogs.savePatina.set

theorem execPfwNFall_stays (h : Stays s₀ s) {dt : Nat} : NextStays s₀ (execPfwNFall dt s) :=
  Stays.next (.ite h.advance.powerSave (.ite h.advance.powerEdge (.ite h.advance.set h.advance)))

theorem execPfwNReturn_stays (h : Stays s₀ s) {dt : Nat} : NextStays s₀ (execPfwNReturn dt s) :=
  Stays.next (.ite (Stays.ite h.advance.powerSave h.advance).startBoot h.advance)

theorem execPcieL1ExitWake_stays (h : Stays s₀ s) {dt : Nat} : NextStays s₀ (execPcieL1ExitWake dt s) :=
  Stays.next (.ite h.advance.set.startBoot h.advance)

theorem execWakeFrame_stays (h : Stays s₀ s) {dt port : Nat} {bytes : List Byte} :
    NextStays s₀ (execWakeFrame dt port bytes s) :=
  Stays.next (.ite h.advance.set.startBoot h.advance)

/-! ### Units -/

theorem Stays.unitStops (h : Stays s₀ s) {u t : Nat} : Stays s₀ (s.unitStops u t) := by
  unfold State.unitStops
  split
  · exact h.timStop
  · exact h.feedFinals
  · exact h.cnvStop
  · exact h.stepsEnd.cusSave.cusOff
  · exact h.lgcOff
  · exact h.flushLogs
  · exact h

theorem Stays.unitResumes (h : Stays s₀ s) {u : Nat} : Stays s₀ (s.unitResumes u) := by
  unfold State.unitResumes
  split
  · exact h.portsBoot
  · exact h.foldl fun h => .ite h.setPod h
  · exact h.fltRestartAll.refreshExc
  · exact h.fltRestartAll
  · exact .ite h.armStart h
  · exact h.cusResume
  · exact h.lgcResume
  · exact h

theorem Stays.ingReset (h : Stays s₀ s) : Stays s₀ s.ingReset :=
  h.set

theorem Stays.ctlReset (h : Stays s₀ s) : Stays s₀ s.ctlReset :=
  (h.foldl fun h => h.setRing.completeSend.foldl fun h => h.emit).set

theorem Stays.poisonFlight (h : Stays s₀ s) {u : Nat} : Stays s₀ (s.poisonFlight u) :=
  h.set

theorem Stays.unitDiscards (h : Stays s₀ s) {u : Nat} : Stays s₀ (s.unitDiscards u) := by
  unfold State.unitDiscards
  split
  · exact h.portsReset
  · exact h.timStop
  · exact h.ingReset
  · exact h.finalsNow.alnClear
  · exact h.cnvStop.fltRestartAll
  · exact h.fltReset
  · exact h.oscReset
  · exact h.armReset
  · exact h.cusReset
  · exact h.lgcReset
  · exact h.capReset
  · exact h.ctlReset
  · exact h.dropVolatile.endSessions
  · exact h

theorem Stays.waitersReset (h : Stays s₀ s) {u : Nat} : Stays s₀ (s.waitersReset u) := by
  unfold State.waitersReset
  extract_lets mine _ _ s₁
  have h₁ : Stays s₀ s₁ := h.set.foldl fun h => h.answerLater
  split
  · exact .ite h₁.set.answerLater h₁
  · exact h₁

theorem Stays.resetUnit (h : Stays s₀ s) {u : Nat} : Stays s₀ (s.resetUnit u) := by
  unfold State.resetUnit
  extract_lets _ _ s₁
  have h₁ : Stays s₀ s₁ :=
    (Stays.ite h.journalCommit (.ite h.flushLogs h)).clearCounters.newEpoch.poisonFlight.unitDiscards.waitersReset
  exact .ite h₁.setUnit h₁

theorem execUnitQuiesce_stays (h : Stays s₀ s) {dt : Nat} {q : Req} : NextStays s₀ (execUnitQuiesce dt q s) :=
  Stays.next (h.advance.serve fun h => .iteFst h (.iteFst h (.iteFst h (.iteFst h (.ite h.set.drainFinals h.set)))))

theorem Stays.quiesceDrained (h : Stays s₀ s) : Stays s₀ s.quiesceDrained := by
  unfold State.quiesceDrained
  split
  · exact h.unitStops.set.setUnit.answerLater
  · exact h

theorem execUnitQuiesceDrained_stays (h : Stays s₀ s) {dt : Nat} : NextStays s₀ (execUnitQuiesceDrained dt s) :=
  Stays.next (.ite h.advance.quiesceDrained h.advance)

theorem execUnitQuiesceTimeout_stays (h : Stays s₀ s) {dt : Nat} : NextStays s₀ (execUnitQuiesceTimeout dt s) := by
  unfold execUnitQuiesceTimeout
  refine Stays.next ?_
  split
  · exact .ite h.advance.set.answerLater h.advance
  · exact h.advance

theorem execUnitReset_stays (h : Stays s₀ s) {dt : Nat} {q : Req} : NextStays s₀ (execUnitReset dt q s) :=
  Stays.next (h.advance.serve fun h => .iteFst h (.iteFst h (.iteFst h.resetUnit.flushQueued h.resetUnit.flushQueued.count)))

theorem execUnitResume_stays (h : Stays s₀ s) {dt : Nat} {q : Req} : NextStays s₀ (execUnitResume dt q s) := by
  unfold execUnitResume
  refine Stays.next (h.advance.serve fun h => .iteFst h ?_)
  split
  · exact h.setUnit.unitResumes
  · exact h.setUnit.unitResumes
  · exact h
  · exact h

theorem Stays.setBank (h : Stays s₀ s) {k : Nat} {b : Bank} : Stays s₀ (s.setBank k b) :=
  .ite h.set h.set

theorem Stays.fwStage (h : Stays s₀ s) {q : Req} : Stays s₀ (s.fwStage q).1 :=
  .iteFst h (.iteFst h (.iteFst h h.setBank.set))

theorem execFwStage_stays (h : Stays s₀ s) {dt : Nat} {q : Req} : NextStays s₀ (execFwStage dt q s) :=
  Stays.next (h.advance.serve fun h => .iteFst h h.fwStage)

theorem execFwVerify_stays (h : Stays s₀ s) {dt : Nat} {q : Req} : NextStays s₀ (execFwVerify dt q s) :=
  Stays.next (h.advance.serve fun h => .iteFst h (.iteFst h (.iteFst h h.setBank)))

theorem execFwActivate_stays (h : Stays s₀ s) {dt : Nat} {q : Req} : NextStays s₀ (execFwActivate dt q s) := by
  unfold execFwActivate
  refine Stays.next (h.advance.serve fun h => ?_)
  split
  · exact h
  · exact .iteFst (.ite h.set.set.drainFinals h.set.set) h.set

theorem Stays.updateUnit (h : Stays s₀ s) {t u : Nat} : Stays s₀ (s.updateUnit t u) := by
  unfold State.updateUnit
  extract_lets st _ s₁
  have h₁ : Stays s₀ s₁ := (Stays.ite h.unitStops h).setUnit.newEpoch
  exact .ite h₁.unitResumes h₁

theorem Stays.activated (h : Stays s₀ s) {q : Req} {units : Nat} : Stays s₀ (s.activated q units) := by
  unfold State.activated
  extract_lets _ _ _ _ s₁
  have h₁ : Stays s₀ s₁ := h.set.foldl fun h => h.updateUnit
  exact (Stays.ite h₁.setUnit.newEpoch.ctlReset.flushQueued h₁).firmwareRuns.bootRecord

theorem execFwActivationDrained_stays (h : Stays s₀ s) {dt : Nat} : NextStays s₀ (execFwActivationDrained dt s) := by
  unfold execFwActivationDrained
  refine Stays.next ?_
  split
  · exact .ite h.advance.activated h.advance
  · exact h.advance

theorem execFwInfo_stays (h : Stays s₀ s) {dt : Nat} {q : Req} : NextStays s₀ (execFwInfo dt q s) :=
  Stays.next (h.advance.serve fun h => h)

/-! ### Access -/

theorem execReadParam_stays (h : Stays s₀ s) {dt : Nat} {q : Req} : NextStays s₀ (execReadParam dt q s) := by
  unfold execReadParam
  refine Stays.next (h.advance.serve fun h => ?_)
  split
  · exact .ite h.count h
  · exact h

theorem execReadBatch_stays (h : Stays s₀ s) {dt : Nat} {q : Req} : NextStays s₀ (execReadBatch dt q s) :=
  Stays.next (h.advance.serve fun h => .iteFst h (.iteFst h h.count))

theorem Stays.writeOne (h : Stays s₀ s) {q : Req} {live : Bool} : Stays s₀ (s.writeOne q live).1 := by
  unfold State.writeOne
  split
  · exact h.writeItems
  · exact .iteFst h h

theorem execWriteParam_stays (h : Stays s₀ s) {dt : Nat} {q : Req} : NextStays s₀ (execWriteParam dt q s) :=
  Stays.next (h.advance.serve fun h => .iteFst h (.iteFst h h.writeOne))

theorem execWriteLive_stays (h : Stays s₀ s) {dt : Nat} {q : Req} : NextStays s₀ (execWriteLive dt q s) :=
  Stays.next (h.advance.serve fun h => h.writeOne)

theorem execWriteBatch_stays (h : Stays s₀ s) {dt : Nat} {q : Req} : NextStays s₀ (execWriteBatch dt q s) := by
  unfold execWriteBatch
  refine Stays.next (h.advance.serve fun h => ?_)
  dsimp only
  refine .iteFst h (.iteFst h (.iteFst h (.iteFst h ?_)))
  split
  · exact h.writeItems
  · exact h

theorem Stays.readCounters (h : Stays s₀ s) {q : Req} {clear : Bool} : Stays s₀ (s.readCounters q clear).1 := by
  unfold State.readCounters
  dsimp only
  refine .iteFst h ?_
  split
  · exact h
  · exact .iteFst h (.ite (h.foldl fun h => h.setCtr) h)

theorem execReadCounters_stays (h : Stays s₀ s) {dt : Nat} {q : Req} : NextStays s₀ (execReadCounters dt q s) :=
  Stays.next (h.advance.serve fun h => h.readCounters)

theorem execPeekCounters_stays (h : Stays s₀ s) {dt : Nat} {q : Req} : NextStays s₀ (execPeekCounters dt q s) :=
  Stays.next (h.advance.serve fun h => h.readCounters)

theorem execReadStatusBlock_stays (h : Stays s₀ s) {dt : Nat} {q : Req} : NextStays s₀ (execReadStatusBlock dt q s) :=
  Stays.next (h.advance.serve fun h => h)

theorem Stays.readLow (h : Stays s₀ s) {requester offset : Nat} : Stays s₀ (s.readLow requester offset) :=
  h.set.emit

theorem Stays.readWhole (h : Stays s₀ s) {offset : Nat} : Stays s₀ (s.readWhole offset) :=
  h.emit.emit

theorem execLiveWindowLowRead_stays (h : Stays s₀ s) {dt requester : Nat} {read : HostRead} :
    NextStays s₀ (execLiveWindowLowRead dt requester read s) := by
  unfold execLiveWindowLowRead
  refine Stays.next ?_
  split
  · exact .ite h.advance.readLow h.advance
  · exact .ite h.advance.readWhole h.advance
  · exact .ite h.advance.emit h.advance

theorem execLiveWindowHighRead_stays (h : Stays s₀ s) {dt requester offset : Nat} :
    NextStays s₀ (execLiveWindowHighRead dt requester offset s) := by
  unfold execLiveWindowHighRead
  refine Stays.next (.ite ?_ h.advance)
  split
  · exact h.advance.set.emit
  · exact h.advance.emit

theorem execLiveWindowWrite_stays (h : Stays s₀ s) {dt offset : Nat} {value : DWord} :
    NextStays s₀ (execLiveWindowWrite dt offset value s) :=
  Stays.next (.ite h.advance.count h.advance)

/-! ### Commit -/

theorem Stays.setCommit (h : Stays s₀ s) {c : Option Commit} : Stays s₀ (s.setCommit c) :=
  h.set

theorem Stays.commitStart (h : Stays s₀ s) {q : Req} : Stays s₀ (s.commitStart q).1 :=
  .iteFst
    h.keepConflicts
    (.iteFst
       h.keepConflicts
       (.iteFst h.keepConflicts (.iteFst h.keepConflicts (.iteFst h.keepConflicts h.keepConflicts.setCommit))))

theorem execCommitMaquette_stays (h : Stays s₀ s) {dt : Nat} {q : Req} : NextStays s₀ (execCommitMaquette dt q s) :=
  Stays.next (h.advance.serve fun h => h.commitStart)

theorem Stays.program (h : Stays s₀ s) {c : Config} {n : Nat} : Stays s₀ (s.program c n) :=
  h.setFlash.set

theorem Stays.programmed (h : Stays s₀ s) : Stays s₀ s.programmed := by
  unfold State.programmed
  split
  · exact h.setFlash.set
  · exact h

theorem Stays.rebase (h : Stays s₀ s) {w : Nat} : Stays s₀ (s.rebase w) :=
  h.set.setFlash

theorem Stays.flashCommit (h : Stays s₀ s) {c : Commit} : Stays s₀ (s.flashCommit c) :=
  h.setCommit.program

theorem Stays.commitStore (h : Stays s₀ s) {c : Commit} {b : Nat} : Stays s₀ (s.commitStore c b) :=
  .ite h.set.setCommit.set (.ite h.set.flashCommit h.set.setCommit)

theorem Stays.commitChecked (h : Stays s₀ s) {c : Commit} : Stays s₀ (s.commitChecked c) := by
  unfold State.commitChecked
  dsimp only
  refine .ite h.setCommit.keepConflicts.answerLater ?_
  split
  · exact h.setCommit.answerLater
  · exact h.commitStore.answerLater

theorem execCommitCheckDone_stays (h : Stays s₀ s) {dt : Nat} : NextStays s₀ (execCommitCheckDone dt s) := by
  unfold execCommitCheckDone
  refine Stays.next ?_
  split
  · exact .ite h.advance.commitChecked h.advance
  · exact h.advance

theorem execCommitFlashStored_stays (h : Stays s₀ s) {dt : Nat} : NextStays s₀ (execCommitFlashStored dt s) := by
  unfold execCommitFlashStored
  refine Stays.next ?_
  split
  · exact .ite h.advance.programmed.setCommit h.advance
  · exact h.advance

theorem Stays.unstore (h : Stays s₀ s) {c : Commit} : Stays s₀ (s.unstore c) :=
  .ite (.ite h.setCommit h.setCommit.setFlash.set) (.ite h.setCommit.set h.setCommit)

theorem Stays.commitReport (h : Stays s₀ s) {c : Commit} {status block : Nat} : Stays s₀ (s.commitReport c status block) :=
  h.logEv.notify

theorem Stays.storeApplied (h : Stays s₀ s) {c : Commit} : Stays s₀ (s.storeApplied c) :=
  .ite h.rebase h.set

theorem Stays.commitApplied (h : Stays s₀ s) {c : Commit} : Stays s₀ (s.commitApplied c) :=
  h.applyConfig.offsetCommit.timCommit.storeApplied.set.commitReport

theorem execCommitBoundary_stays (h : Stays s₀ s) {dt : Nat} : NextStays s₀ (execCommitBoundary dt s) := by
  unfold execCommitBoundary
  refine Stays.next ?_
  split
  · refine .ite ?_ h.advance
    split
    · exact h.advance.unstore.commitReport
    · exact h.advance.commitApplied
  · exact h.advance

theorem Stays.discard (h : Stays s₀ s) : Stays s₀ s.discard.1 := by
  unfold State.discard
  dsimp only
  split
  · exact .iteFst h.keepConflicts h.keepConflicts.unstore.set
  · exact h.keepConflicts.set

theorem execDiscardMaquette_stays (h : Stays s₀ s) {dt : Nat} {q : Req} : NextStays s₀ (execDiscardMaquette dt q s) :=
  Stays.next (h.advance.serve fun h => h.discard)

theorem execDiffMaquette_stays (h : Stays s₀ s) {dt : Nat} {q : Req} : NextStays s₀ (execDiffMaquette dt q s) :=
  Stays.next (h.advance.serve fun h => h)

theorem execReadConflicts_stays (h : Stays s₀ s) {dt : Nat} {q : Req} : NextStays s₀ (execReadConflicts dt q s) :=
  Stays.next (h.advance.serve fun h => h)

theorem execConfigConsolidationStart_stays (h : Stays s₀ s) {dt : Nat} : NextStays s₀ (execConfigConsolidationStart dt s) :=
  Stays.next (.ite h.advance.program.set h.advance)

theorem execConfigConsolidationDone_stays (h : Stays s₀ s) {dt : Nat} : NextStays s₀ (execConfigConsolidationDone dt s) :=
  Stays.next (.ite h.advance.programmed.rebase.set h.advance)

theorem execConsolidationEraseDone_stays (h : Stays s₀ s) {dt : Nat} : NextStays s₀ (execConsolidationEraseDone dt s) := by
  unfold execConsolidationEraseDone
  refine Stays.next ?_
  dsimp only
  refine .ite ?_ h.advance
  split
  · exact .ite h.advance.setFlash.set.flashCommit h.advance.setFlash.set
  · exact h.advance.setFlash.set

/-! ### EventLog -/

theorem Stays.readLog (h : Stays s₀ s) {m : Bool} {q : Req} : Stays s₀ (s.readLog m q).1 :=
  .iteFst h (.iteFst h h.setLog)

theorem Stays.freezeLog (h : Stays s₀ s) {m : Bool} : Stays s₀ (s.freezeLog m).1 :=
  .iteFst h h.set.setLog

theorem Stays.thawLog (h : Stays s₀ s) {m : Bool} {id : Nat} : Stays s₀ (s.thawLog m id).1 := by
  unfold State.thawLog
  split
  · exact h
  · exact .iteFst h h.endFreeze

theorem Stays.clearLog (h : Stays s₀ s) : Stays s₀ s.clearLog.1 :=
  .iteFst h h.setLog.logEv

theorem execLogRead_stays (h : Stays s₀ s) {dt : Nat} {q : Req} : NextStays s₀ (execLogRead dt q s) :=
  Stays.next (h.advance.serve fun h => h.readLog)

theorem execMlogRead_stays (h : Stays s₀ s) {dt : Nat} {q : Req} : NextStays s₀ (execMlogRead dt q s) :=
  Stays.next (h.advance.serve fun h => h.readLog)

theorem execLogFreeze_stays (h : Stays s₀ s) {dt : Nat} {q : Req} : NextStays s₀ (execLogFreeze dt q s) :=
  Stays.next (h.advance.serve fun h => h.freezeLog)

theorem execLogThaw_stays (h : Stays s₀ s) {dt : Nat} {q : Req} : NextStays s₀ (execLogThaw dt q s) :=
  Stays.next (h.advance.serve fun h => h.thawLog)

theorem execLogClear_stays (h : Stays s₀ s) {dt : Nat} {q : Req} : NextStays s₀ (execLogClear dt q s) :=
  Stays.next (h.advance.serve fun h => .iteFst h h.clearLog)

theorem execFreezeMaxTimeout_stays (h : Stays s₀ s) {dt : Nat} {metrological : Bool} :
    NextStays s₀ (execFreezeMaxTimeout dt metrological s) := by
  unfold execFreezeMaxTimeout
  dsimp only
  split
  · exact Stays.next (.ite h.advance.endFreeze h.advance)
  · exact h.advance.next

theorem execLogFlushTimer_stays (h : Stays s₀ s) {dt : Nat} : NextStays s₀ (execLogFlushTimer dt s) :=
  Stays.next (.ite h.advance.set.flushLogs h.advance)

theorem execTokenRefill_stays (h : Stays s₀ s) {dt code : Nat} : NextStays s₀ (execTokenRefill dt code s) :=
  Stays.next (.ite h.advance.setBucket h.advance)

/-! ### Session -/

theorem execNop_stays (h : Stays s₀ s) {dt : Nat} {q : Req} : NextStays s₀ (execNop dt q s) :=
  Stays.next (h.advance.serve fun h => h)

theorem execIdentify_stays (h : Stays s₀ s) {dt : Nat} {q : Req} : NextStays s₀ (execIdentify dt q s) :=
  Stays.next (h.advance.serve fun h => h)

theorem execGetState_stays (h : Stays s₀ s) {dt : Nat} {q : Req} : NextStays s₀ (execGetState dt q s) :=
  Stays.next (h.advance.serve fun h => h)

theorem execEchoTime_stays (h : Stays s₀ s) {dt : Nat} {q : Req} : NextStays s₀ (execEchoTime dt q s) :=
  Stays.next (h.advance.serve fun h => .iteFst h h)

theorem Stays.endSession (h : Stays s₀ s) {n : Nat} : Stays s₀ (s.endSession n) :=
  h.set

theorem Stays.openPhase1 (h : Stays s₀ s) {q : Req} : Stays s₀ (s.openPhase1 q).1 := by
  unfold State.openPhase1
  dsimp only
  refine .iteFst h.count (.iteFst h ?_)
  split
  · exact h
  · exact .iteFst h h.draw.set

theorem Stays.openPhase2 (h : Stays s₀ s) {q : Req} : Stays s₀ (s.openPhase2 q).1 := by
  unfold State.openPhase2
  split
  · exact h.count
  · exact .iteFst h (.iteFst h.endSession (.iteFst h (.iteFst h h.set)))

theorem Stays.serveOpen (h : Stays s₀ s) {q : Req} : Stays s₀ (s.serveOpen q) := by
  unfold State.serveOpen
  refine h.serve fun h => ?_
  split
  · exact h.openPhase1
  · exact h.openPhase2
  · exact h

theorem execOpenSessionPhase1_stays (h : Stays s₀ s) {dt : Nat} {q : Req} : NextStays s₀ (execOpenSessionPhase1 dt q s) :=
  h.advance.serveOpen.next

theorem execOpenSessionPhase2_stays (h : Stays s₀ s) {dt : Nat} {q : Req} : NextStays s₀ (execOpenSessionPhase2 dt q s) :=
  h.advance.serveOpen.next

theorem execSessionPhase2Timeout_stays (h : Stays s₀ s) {dt session : Nat} :
    NextStays s₀ (execSessionPhase2Timeout dt session s) := by
  unfold execSessionPhase2Timeout
  refine Stays.next ?_
  split
  · exact .ite h.advance.endSession h.advance
  · exact h.advance

theorem execCloseSession_stays (h : Stays s₀ s) {dt : Nat} {q : Req} : NextStays s₀ (execCloseSession dt q s) :=
  Stays.next (h.advance.serve fun h => h.endSession)

theorem execSessionIdleTimeout_stays (h : Stays s₀ s) {dt session : Nat} :
    NextStays s₀ (execSessionIdleTimeout dt session s) := by
  unfold execSessionIdleTimeout
  refine Stays.next ?_
  split
  · exact .ite h.advance.endSession h.advance
  · exact h.advance

/-! ### Rings -/

theorem Stays.disableRing (h : Stays s₀ s) {n : Nat} : Stays s₀ (s.disableRing n) :=
  h.setRing.set

theorem execRingCtlWrite_stays (h : Stays s₀ s) {dt ring : Nat} {value : Word} :
    NextStays s₀ (execRingCtlWrite dt ring value s) :=
  Stays.next (.ite (.ite h.advance.disableRing (.ite h.advance.setRing h.advance)) h.advance)

theorem Stays.releaseIrq (h : Stays s₀ s) {v : Nat} : Stays s₀ (s.releaseIrq v) :=
  .ite h.set.emit h

theorem execBar0RegisterWrite_stays (h : Stays s₀ s) {dt offset : Nat} {value : Word} :
    NextStays s₀ (execBar0RegisterWrite dt offset value s) :=
  Stays.next (.ite
      (.ite h.advance.set (.ite h.advance.set (.ite h.advance.setRing (.ite h.advance.set.releaseIrq h.advance))))
      h.advance)

theorem Stays.placeWaiting (h : Stays s₀ s) {n k : Nat} : Stays s₀ (s.placeWaiting n k) := by
  induction k generalizing s with
  | zero => exact h
  | succ k ih =>
    unfold State.placeWaiting
    split
    · exact ih h.setRing.placeReply
    · exact h

theorem Stays.ringData (h : Stays s₀ s) {n k : Nat} {d : RingData} : Stays s₀ (s.ringData n k d) := by
  unfold State.ringData
  dsimp only
  split
  · exact .ite (h.set.foldl fun h => h.fetchMore) h
  · exact .ite h.setRing h
  · exact .ite h.setRing.placeWaiting h

theorem execDoorbellWrite_stays (h : Stays s₀ s) {dt ring index : Nat} {data : RingData} :
    NextStays s₀ (execDoorbellWrite dt ring index data s) :=
  Stays.next (.ite h.advance.setRing.ringData h.advance)

theorem execReplyWaitTimeout_stays (h : Stays s₀ s) {dt ring : Nat} : NextStays s₀ (execReplyWaitTimeout dt ring s) := by
  unfold execReplyWaitTimeout
  refine Stays.next ?_
  split
  · exact .ite h.advance.setRing.count h.advance
  · exact h.advance

theorem execIrqHoldoffExpiry_stays (h : Stays s₀ s) {dt vector : Nat} : NextStays s₀ (execIrqHoldoffExpiry dt vector s) :=
  h.advance.releaseIrq.next

theorem execPePerstNAssert_stays (h : Stays s₀ s) {dt : Nat} : NextStays s₀ (execPePerstNAssert dt s) :=
  (h.advance.foldl fun h => h.setRing.disableRing).set.count.next

theorem execPePerstNRelease_stays (h : Stays s₀ s) {dt : Nat} : NextStays s₀ (execPePerstNRelease dt s) :=
  h.advance.set.next

theorem Stays.badPacket (h : Stays s₀ s) {c : Carriage} {l : List Byte} {st : Nat} : Stays s₀ (s.badPacket c l st) :=
  h.framingReply

theorem execPacketBadFraming_stays (h : Stays s₀ s) {dt : Nat} {c : Carriage} {bufLen : Nat} {bytes : List Byte} :
    NextStays s₀ (execPacketBadFraming dt c bufLen bytes s) := by
  unfold execPacketBadFraming
  refine Stays.next ?_
  dsimp only
  refine .ite ?_ h.advance
  split
  · exact h.advance.release.arrive.badPacket
  · refine .ite h.advance ?_
    split
    · next e => exact (Stays.of_eq e h.advance.release.arrive).poisonedRequest
    · next e => exact (Stays.of_eq e h.advance.release.arrive).answer

theorem execUartFrameBad_stays (h : Stays s₀ s) {dt : Nat} {frame : List Byte} : NextStays s₀ (execUartFrameBad dt frame s) :=
  Stays.next (.ite h.advance.count h.advance)

theorem Stays.tcpAccept (h : Stays s₀ s) {port lport use owner : Nat} {peer : Peer} :
    Stays s₀ (s.tcpAccept port lport use owner peer) := by
  unfold State.tcpAccept
  split
  · exact h.set.emit
  · exact h

theorem Stays.tcpSyn (h : Stays s₀ s) {port tcpPort : Nat} {peer : Peer} : Stays s₀ (s.tcpSyn port tcpPort peer) := by
  unfold State.tcpSyn
  split
  · exact .ite h.emit h.tcpAccept
  · exact .ite (.ite h.tcpAccept h.count.emit) h

theorem execTcpConnectionRequest_stays (h : Stays s₀ s) {dt port tcpPort : Nat} {peer : Peer} :
    NextStays s₀ (execTcpConnectionRequest dt port tcpPort peer s) :=
  Stays.next (.ite h.advance.tcpSyn h.advance)

theorem execTcpConnectionIdleClose_stays (h : Stays s₀ s) {dt conn : Nat} :
    NextStays s₀ (execTcpConnectionIdleClose dt conn s) := by
  unfold execTcpConnectionIdleClose
  refine Stays.next ?_
  split
  · exact .ite h.advance.tcpEnd h.advance
  · exact h.advance

end Operations

/-! ### The commands -/

theorem exec_stays (c : Instr) (s : State) : NextStays s (exec c s) :=
  match c with
  | .nop .. => execNop_stays (.refl s)
  | .identify .. => execIdentify_stays (.refl s)
  | .getState .. => execGetState_stays (.refl s)
  | .setState .. => execSetState_stays (.refl s)
  | .openSessionPhase1 .. => execOpenSessionPhase1_stays (.refl s)
  | .openSessionPhase2 .. => execOpenSessionPhase2_stays (.refl s)
  | .sessionPhase2Timeout .. => execSessionPhase2Timeout_stays (.refl s)
  | .closeSession .. => execCloseSession_stays (.refl s)
  | .sessionIdleTimeout .. => execSessionIdleTimeout_stays (.refl s)
  | .echoTime .. => execEchoTime_stays (.refl s)
  | .readParam .. => execReadParam_stays (.refl s)
  | .writeParam .. => execWriteParam_stays (.refl s)
  | .writeLive .. => execWriteLive_stays (.refl s)
  | .readBatch .. => execReadBatch_stays (.refl s)
  | .writeBatch .. => execWriteBatch_stays (.refl s)
  | .commitMaquette .. => execCommitMaquette_stays (.refl s)
  | .commitCheckDone .. => execCommitCheckDone_stays (.refl s)
  | .commitFlashStored .. => execCommitFlashStored_stays (.refl s)
  | .commitBoundary .. => execCommitBoundary_stays (.refl s)
  | .discardMaquette .. => execDiscardMaquette_stays (.refl s)
  | .diffMaquette .. => execDiffMaquette_stays (.refl s)
  | .readConflicts .. => execReadConflicts_stays (.refl s)
  | .configConsolidationStart .. => execConfigConsolidationStart_stays (.refl s)
  | .configConsolidationDone .. => execConfigConsolidationDone_stays (.refl s)
  | .readCounters .. => execReadCounters_stays (.refl s)
  | .peekCounters .. => execPeekCounters_stays (.refl s)
  | .readStatusBlock .. => execReadStatusBlock_stays (.refl s)
  | .packetBadFraming .. => execPacketBadFraming_stays (.refl s)
  | .uartFrameBad .. => execUartFrameBad_stays (.refl s)
  | .tcpConnectionRequest .. => execTcpConnectionRequest_stays (.refl s)
  | .tcpConnectionIdleClose .. => execTcpConnectionIdleClose_stays (.refl s)
  | .replyWaitTimeout .. => execReplyWaitTimeout_stays (.refl s)
  | .doorbellWrite .. => execDoorbellWrite_stays (.refl s)
  | .ringCtlWrite .. => execRingCtlWrite_stays (.refl s)
  | .bar0RegisterWrite .. => execBar0RegisterWrite_stays (.refl s)
  | .liveWindowLowRead .. => execLiveWindowLowRead_stays (.refl s)
  | .liveWindowHighRead .. => execLiveWindowHighRead_stays (.refl s)
  | .liveWindowWrite _ offset value => execLiveWindowWrite_stays (.refl s) (offset := offset) (value := value)
  | .pePerstNAssert .. => execPePerstNAssert_stays (.refl s)
  | .pcieL1ExitWake .. => execPcieL1ExitWake_stays (.refl s)
  | .frameReceived .. => execFrameReceived_stays (.refl s)
  | .rxFrameSteer .. => execRxFrameSteer_stays (.refl s)
  | .fragmentReceived .. => execFragmentReceived_stays (.refl s)
  | .reassemblyTimeout .. => execReassemblyTimeout_stays (.refl s)
  | .phyStatusPoll .. => execPhyStatusPoll_stays (.refl s)
  | .linkDown .. => execLinkDown_stays (.refl s)
  | .linkUp .. => execLinkUp_stays (.refl s)
  | .txSend .. => execTxSend_stays (.refl s)
  | .txFrame .. => execTxFrame_stays (.refl s)
  | .downshiftWindow .. => execDownshiftWindow_stays (.refl s)
  | .downshiftLinkTimeout .. => execDownshiftLinkTimeout_stays (.refl s)
  | .wakeFrame .. => execWakeFrame_stays (.refl s)
  | .ptpAnnounceReceived .. => execPtpAnnounceReceived_stays (.refl s)
  | .ptpSyncReceived .. => execPtpSyncReceived_stays (.refl s)
  | .ptpPdelayReqReceived .. => execPtpPdelayReqReceived_stays (.refl s)
  | .ptpAnnounceInterval .. => execPtpAnnounceInterval_stays (.refl s)
  | .ptpAnnounceTimeout .. => execPtpAnnounceTimeout_stays (.refl s)
  | .irigFrameReceived .. => execIrigFrameReceived_stays (.refl s)
  | .irigFrameMissing .. => execIrigFrameMissing_stays (.refl s)
  | .ppsInEdge .. => execPpsInEdge_stays (.refl s)
  | .ppsInMissing .. => execPpsInMissing_stays (.refl s)
  | .referenceQualified .. => execReferenceQualified_stays (.refl s)
  | .referenceDisqualified .. => execReferenceDisqualified_stays (.refl s)
  | .referenceRevert .. => execReferenceRevert_stays (.refl s)
  | .tqChange .. => execTqChange_stays (.refl s)
  | .timeQualityHoldEnd .. => execTimeQualityHoldEnd_stays (.refl s)
  | .ppsOutSecond .. => execPpsOutSecond_stays (.refl s)
  | .ref10mLoss .. => execRef10mLoss_stays (.refl s)
  | .ref10mRestore .. => execRef10mRestore_stays (.refl s)
  | .leapSecondApply .. => execLeapSecondApply_stays (.refl s)
  | .plinthTimeSet .. => execPlinthTimeSet_stays (.refl s)
  | .ingressFrame .. => execIngressFrame_stays (.refl s)
  | .c37CfgReceived .. => execC37CfgReceived_stays (.refl s)
  | .cfgRetryTimer .. => execCfgRetryTimer_stays (.refl s)
  | .c37ReconnectTimer .. => execC37ReconnectTimer_stays (.refl s)
  | .sourceDead .. => execSourceDead_stays (.refl s)
  | .sourceDefine .. => execSourceDefine_stays (.refl s)
  | .sourceRemove .. => execSourceRemove_stays (.refl s)
  | .sourceQuery .. => execSourceQuery_stays (.refl s)
  | .catalogueRead .. => execCatalogueRead_stays (.refl s)
  | .slotOpen .. => execSlotOpen_stays (.refl s)
  | .slotCloseAtNominal .. => execSlotCloseAtNominal_stays (.refl s)
  | .slotDeadlineTick .. => execSlotDeadlineTick_stays (.refl s)
  | .revBatchExpiry .. => execRevBatchExpiry_stays (.refl s)
  | .revHorizonExpiry .. => execRevHorizonExpiry_stays (.refl s)
  | .slotRelease .. => execSlotRelease_stays (.refl s)
  | .deepWaitEditionReady .. => execDeepWaitEditionReady_stays (.refl s)
  | .oafLayoutRepeat .. => execOafLayoutRepeat_stays (.refl s)
  | .c37OutputCommand .. => execC37OutputCommand_stays (.refl s)
  | .podReadSlot .. => execPodReadSlot_stays (.refl s)
  | .podSubscribe .. => execPodSubscribe_stays (.refl s)
  | .fdEvaluate .. => execFdEvaluate_stays (.refl s)
  | .mtSlotRead .. => execMtSlotRead_stays (.refl s)
  | .mtExtractionStart .. => execMtExtractionStart_stays (.refl s)
  | .mtExtractionDone .. => execMtExtractionDone_stays (.refl s)
  | .mtSignalRejoin .. => execMtSignalRejoin_stays (.refl s)
  | .armStatusChange .. => execArmStatusChange_stays (.refl s)
  | .dinStatusDebounced .. => execDinStatusDebounced_stays (.refl s)
  | .travelTimeout .. => execTravelTimeout_stays (.refl s)
  | .armRecomputeDone .. => execArmRecomputeDone_stays (.refl s)
  | .armMeasEvaluate .. => execArmMeasEvaluate_stays (.refl s)
  | .balEvaluate .. => execBalEvaluate_stays (.refl s)
  | .balRecSlot .. => execBalRecSlot_stays (.refl s)
  | .balRecIntervalClose .. => execBalRecIntervalClose_stays (.refl s)
  | .cusStep .. => execCusStep_stays (.refl s)
  | .directionDebounce .. => execDirectionDebounce_stays (.refl s)
  | .totalsSave .. => execTotalsSave_stays (.refl s)
  | .profileBoundary .. => execProfileBoundary_stays (.refl s)
  | .profileSigned .. => execProfileSigned_stays (.refl s)
  | .cusReadRegisters .. => execCusReadRegisters_stays (.refl s)
  | .cusReadProfile .. => execCusReadProfile_stays (.refl s)
  | .cusAckProfile .. => execCusAckProfile_stays (.refl s)
  | .cusSealSeal .. => execCusSealSeal_stays (.refl s)
  | .cusSealBreak .. => execCusSealBreak_stays (.refl s)
  | .cusSealClearRegisters .. => execCusSealClearRegisters_stays (.refl s)
  | .cusSealedUpdate .. => execCusSealedUpdate_stays (.refl s)
  | .cusReadLegalId .. => execCusReadLegalId_stays (.refl s)
  | .owChop .. => execOwChop_stays (.refl s)
  | .auxDwellStart .. => execAuxDwellStart_stays (.refl s)
  | .calCycleStart .. => execCalCycleStart_stays (.refl s)
  | .calComparisonDone .. => execCalComparisonDone_stays (.refl s)
  | .calCalibrationDone .. => execCalCalibrationDone_stays (.refl s)
  | .fltBankSwap .. => execFltBankSwap_stays (.refl s)
  | .localSourceReport .. => execLocalSourceReport_stays (.refl s)
  | .capRow .. => execCapRow_stays (.refl s)
  | .dinTriggerEdge .. => execDinTriggerEdge_stays (.refl s)
  | .capAutoTimeout .. => execCapAutoTimeout_stays (.refl s)
  | .capRearmEnd .. => execCapRearmEnd_stays (.refl s)
  | .capArm .. => execCapArm_stays (.refl s)
  | .capDisarm .. => execCapDisarm_stays (.refl s)
  | .capForce .. => execCapForce_stays (.refl s)
  | .capRead .. => execCapRead_stays (.refl s)
  | .capSetRewind .. => execCapSetRewind_stays (.refl s)
  | .capExport .. => execCapExport_stays (.refl s)
  | .capRelease .. => execCapRelease_stays (.refl s)
  | .lgcScan .. => execLgcScan_stays (.refl s)
  | .lgcOutputWrite .. => execLgcOutputWrite_stays (.refl s)
  | .gooseRepeat .. => execGooseRepeat_stays (.refl s)
  | .stationControlAck .. => execStationControlAck_stays (.refl s)
  | .stationAckTimeout .. => execStationAckTimeout_stays (.refl s)
  | .stationRefresh .. => execStationRefresh_stays (.refl s)
  | .lgcLoad .. => execLgcLoad_stays (.refl s)
  | .lgcImageStored .. => execLgcImageStored_stays (.refl s)
  | .lgcStart .. => execLgcStart_stays (.refl s)
  | .lgcStop .. => execLgcStop_stays (.refl s)
  | .lgcForce .. => execLgcForce_stays (.refl s)
  | .lgcRelease .. => execLgcRelease_stays (.refl s)
  | .lgcOnlineChange .. => execLgcOnlineChange_stays (.refl s)
  | .lgcReadVars .. => execLgcReadVars_stays (.refl s)
  | .keyUpdateSetAnchor .. => execKeyUpdateSetAnchor_stays (.refl s)
  | .keyUpdateRekeyRoot .. => execKeyUpdateRekeyRoot_stays (.refl s)
  | .keyUpdateGenerate .. => execKeyUpdateGenerate_stays (.refl s)
  | .keyUpdateDerive .. => execKeyUpdateDerive_stays (.refl s)
  | .keyUpdateLoadWrapped .. => execKeyUpdateLoadWrapped_stays (.refl s)
  | .keyUpdateLoadPublic .. => execKeyUpdateLoadPublic_stays (.refl s)
  | .keyInvalidate .. => execKeyInvalidate_stays (.refl s)
  | .vaultJournalCommit .. => execVaultJournalCommit_stays (.refl s)
  | .keyInfo .. => execKeyInfo_stays (.refl s)
  | .keyInfoExport .. => execKeyInfoExport_stays (.refl s)
  | .sign .. => execSign_stays (.refl s)
  | .verify .. => execVerify_stays (.refl s)
  | .deviceCert .. => execDeviceCert_stays (.refl s)
  | .counterRead .. => execCounterRead_stays (.refl s)
  | .tamperDetected .. => execTamperDetected_stays (.refl s)
  | .supplyMeasurement .. => execSupplyMeasurement_stays (.refl s)
  | .batteryInsertion .. => execBatteryInsertion_stays (.refl s)
  | .logRead .. => execLogRead_stays (.refl s)
  | .mlogRead .. => execMlogRead_stays (.refl s)
  | .logFreeze .. => execLogFreeze_stays (.refl s)
  | .logThaw .. => execLogThaw_stays (.refl s)
  | .logClear .. => execLogClear_stays (.refl s)
  | .freezeMaxTimeout .. => execFreezeMaxTimeout_stays (.refl s)
  | .logFlushTimer .. => execLogFlushTimer_stays (.refl s)
  | .tokenRefill .. => execTokenRefill_stays (.refl s)
  | .delayExpiry .. => execDelayExpiry_stays (.refl s)
  | .coreSelfTestTimer .. => execCoreSelfTestTimer_stays (.refl s)
  | .coreRetire .. => execCoreRetire_stays (.refl s)
  | .fifoLevelHit .. => execFifoLevelHit_stays (.refl s)
  | .schedStats .. => execSchedStats_stays (.refl s)
  | .selfTest .. => execSelfTest_stays (.refl s)
  | .unitQuiesce .. => execUnitQuiesce_stays (.refl s)
  | .unitQuiesceDrained .. => execUnitQuiesceDrained_stays (.refl s)
  | .unitQuiesceTimeout .. => execUnitQuiesceTimeout_stays (.refl s)
  | .unitReset .. => execUnitReset_stays (.refl s)
  | .unitResume .. => execUnitResume_stays (.refl s)
  | .fwStage .. => execFwStage_stays (.refl s)
  | .fwVerify .. => execFwVerify_stays (.refl s)
  | .fwActivate .. => execFwActivate_stays (.refl s)
  | .fwActivationDrained .. => execFwActivationDrained_stays (.refl s)
  | .fwInfo .. => execFwInfo_stays (.refl s)
  | .spareStatus .. => execSpareStatus_stays (.refl s)
  | .patinaRead .. => execPatinaRead_stays (.refl s)
  | .powerUp .. => execPowerUp_stays (.refl s)
  | .resetNAssert .. => execResetNAssert_stays (.refl s)
  | .resetNRelease .. => execResetNRelease_stays (.refl s)
  | .bootComplete .. => execBootComplete_stays (.refl s)
  | .lockWaitTimeout .. => execLockWaitTimeout_stays (.refl s)
  | .pfwNFall .. => execPfwNFall_stays (.refl s)
  | .pfwNReturn .. => execPfwNReturn_stays (.refl s)
  | .supplyOutOfTolerance .. => execSupplyOutOfTolerance_stays (.refl s)
  | .sramScrubPass .. => execSramScrubPass_stays (.refl s)
  | .dramPageRetire .. => execDramPageRetire_stays (.refl s)
  | .mramBlockRetire .. => execMramBlockRetire_stays (.refl s)
  | .marginMonitor .. => execMarginMonitor_stays (.refl s)
  | .patinaSave .. => execPatinaSave_stays (.refl s)
  | .samplingInstant .. => execSamplingInstant_stays (.refl s)
  | .ppsOutWidthEnd .. => execPpsOutWidthEnd_stays (.refl s)
  | .irqHoldoffExpiry .. => execIrqHoldoffExpiry_stays (.refl s)
  | .fifoLevelRelease .. => execFifoLevelRelease_stays (.refl s)
  | .selfTestDone .. => execSelfTestDone_stays (.refl s)
  | .consolidationEraseDone .. => execConsolidationEraseDone_stays (.refl s)
  | .dinPulseEdge .. => execDinPulseEdge_stays (.refl s)
  | .pePerstNRelease .. => execPePerstNRelease_stays (.refl s)
  | .operatingSecond .. => execOperatingSecond_stays (.refl s)

/-- Settles O7: no operation of any command writes the identity or the queue or drops an output (`exec_stays`). -/
theorem identityIsFixedAndOutputsStand : Obligations.IdentityIsFixedAndOutputsStand := by
  intro c s t e
  have stays := exec_stays c s
  rw [e] at stays
  obtain ⟨ident, pending, out⟩ := stays
  exact ⟨ident, out, pending⟩

end Sys2Proof.Laws
end

section
/-! SUPPORT. Writing parameters (R50 to R58): the faults of an item, what a write of items answers, and the three commands. -/

namespace Sys2Proof.Laws

open Sys2Proof.Machine

section Items

variable {s t : State} {x : WItem} {d : PDesc} {q : Req} {live batch : Bool} {session : Nat}

/-- An admission that asks for more payload words is one that asks for fewer. -/
theorem admitted_weaken {op u least need fewer role : Nat} {uc : Bool} (h : Admitted s q op u least need uc t role)
    (le : fewer ≤ need) : Admitted s q op u least fewer uc t role := by
  obtain ⟨heard, whole, admitted, words⟩ := h
  exact ⟨heard, whole, admitted, le.trans words⟩

/-- A refusal, one word long, fits every carriage. -/
theorem serve_turnedAway {op u least need role f id : Nat} {uc : Bool} {body : Nat → State → State × Option Ans}
    (adm : Admitted s q op u least need uc t role) (run : body role t = (t, errId f id)) :
    s.serve q op u least need uc body = turnedAway t q op u f id :=
  serve_answers adm run (fits_of_short (Nat.le_add_left 1 9))

/-! ### The faults of an item -/

@[simp] theorem kept_id (x : WItem) : x.kept.id = x.id := rfl

@[simp] theorem kept_inst (x : WItem) : x.kept.inst = x.inst := rfl

@[simp] theorem kept_key (x : WItem) : x.kept.key = x.key := rfl

theorem fault_of_fitting (hd : parDesc x.id = some d) (hi : d.hasInst x.inst = true) (hl : x.value.length = d.words)
    (hr : d.range.ok x.id x.value = true) : x.fault = none := by
  simp [WItem.fault, hd, hi, hl, hr]

theorem fault_of_value (hd : parDesc x.id = some d) (hi : d.hasInst x.inst = true)
    (hv : x.value.length ≠ d.words ∨ d.range.ok x.id x.value = false) : x.fault = some 0x0106 := by
  simp [WItem.fault, hd, hi, hv]

theorem classFault_of_classL (hd : parDesc x.id = some d) (hc : d.clsOn s.ident.variantM = .L) :
    s.classFault live x.id = none := by
  simp [State.classFault, hd, hc]

theorem classFault_live_of_classM (hd : parDesc x.id = some d) (hc : d.clsOn s.ident.variantM = .M) :
    s.classFault true x.id = some 0x0107 := by
  simp [State.classFault, hd, hc]

/-- The rules of their own that live writes have are those of TIM.UTC_OFFSET and of FLT (R95, R291, R292, R305). -/
theorem liveFault_of_plain (utc : x.id ≠ Par.TIM.UTC_OFFSET) (flt : x.id / 256 ≠ 6) : s.liveFault x = none := by
  unfold State.liveFault
  split
  · next e => exact absurd e utc
  · next e => simp [e] at flt
  · next e => simp [e] at flt
  · next e => simp [e] at flt
  · rfl

theorem writeFault_of_fault {f : Nat} (h : x.fault = some f) : s.writeFault live x = some f := by
  simp [State.writeFault, h]

theorem writeFault_of_classFault {f : Nat} (h : x.fault = none) (hc : s.classFault live x.id = some f) :
    s.writeFault live x = some f := by
  simp [State.writeFault, h, hc]

theorem writeFault_live_eq_none (h : x.fault = none) (hc : s.classFault true x.id = none) (hl : s.liveFault x = none) :
    s.writeFault true x = none := by
  simp [State.writeFault, h, hc, hl]

/-- A live write of a parameter outside TIM.UTC_OFFSET and FLT sets it, and nothing else (R57). -/
theorem writeLive_of_plain (utc : x.id ≠ Par.TIM.UTC_OFFSET) (flt : x.id / 256 ≠ 6) :
    s.writeLive x = s.setPar x.id x.inst x.value := by
  have cfg : x.id ≠ Par.FLT.CUSTOM_CFG := fun e => by simp [e, Par.FLT.CUSTOM_CFG] at flt
  have coef : x.id ≠ Par.FLT.COEF_B := fun e => by simp [e, Par.FLT.COEF_B] at flt
  simp [State.writeLive, utc, cfg, coef]

/-! ### A write of items -/

/-- The search for a fault among items numbered from `i` finds none where none has one. -/
theorem findSome?_numbered_eq_none {g : WItem → Option Nat} {l : List WItem} (i : Nat) (h : ∀ x ∈ l, g x = none) :
    ((List.range' i l.length).zip l).findSome? (fun p => (g p.2).map (fun f => (p.1, p.2.id, f))) = none := by
  rw [List.findSome?_eq_none_iff]
  intro p hp
  rw [h p.2 (List.of_mem_zip hp).2, Option.map_none]

/-- The search for a fault among items numbered from `i` finds the first with its number. -/
theorem findSome?_numbered_eq_first {g : WItem → Option Nat} {pre post : List WItem} {f : Nat} (i : Nat)
    (hpre : ∀ y ∈ pre, g y = none) (hx : g x = some f) :
    ((List.range' i (pre ++ x :: post).length).zip (pre ++ x :: post)).findSome?
      (fun p => (g p.2).map (fun f => (p.1, p.2.id, f))) = some (i + pre.length, x.id, f) := by
  induction pre generalizing i with
  | nil => simp [List.range'_succ, hx]
  | cons y pre ih =>
    have hy : g y = none := hpre y List.mem_cons_self
    have rest := ih (i + 1) (fun z hz => hpre z (List.mem_cons_of_mem y hz))
    simp only [List.cons_append, List.length_cons, List.range'_succ, List.zip_cons_cons, List.findSome?_cons, hy,
      Option.map_none]
    rw [rest, Nat.add_assoc, Nat.add_comm 1]

/-- Items of which one has a fault are refused with the first fault, its index and its ID, and none is written (R34, R52). -/
theorem writeItems_of_first_fault {pre post : List WItem} {f : Nat} (free : (!live && s.ctl.commit.isSome) = false)
    (hpre : ∀ y ∈ pre, s.writeFault live y.kept = none) (hx : s.writeFault live x.kept = some f) :
    s.writeItems live batch session (pre ++ x :: post) = (s, errItem f (if batch then pre.length else 0xFFFF) x.id) := by
  have first := findSome?_numbered_eq_first (g := s.writeFault live) (x := x.kept) (pre := pre.map WItem.kept)
    (post := post.map WItem.kept) 0 (by simpa using hpre) hx
  unfold State.writeItems
  simp only [free, List.map_append, List.map_cons, List.range_eq_range', first]
  simp

/-- Items without a fault are written into the maquette, where no commit is pending and they have room (R58). -/
theorem writeItems_maquette {l : List WItem} (idle : s.ctl.commit = none) (fit : ∀ x ∈ l, s.writeFault false x.kept = none)
    (room : (l.foldl (fun (m : AMap MaqEntry) x => m.set x.key { session := session, val := .value x.kept.value })
      s.ctl.maquette).length ≤ 524288) :
    s.writeItems false batch session l = ({ s with ctl := { s.ctl with
      maquette := l.foldl (fun (m : AMap MaqEntry) x => m.set x.key { session := session, val := .value x.kept.value })
        s.ctl.maquette } }, ok []) := by
  have clean := findSome?_numbered_eq_none (g := s.writeFault false) (l := l.map WItem.kept) 0 (by simpa using fit)
  unfold State.writeItems
  simp only [idle, List.range_eq_range', clean, List.foldl_map, kept_key, Nat.not_lt.mpr room]
  simp

/-- Items without a fault are written live, one after the other (R57). -/
theorem writeItems_live {l : List WItem} (fit : ∀ x ∈ l, s.writeFault true x.kept = none) :
    s.writeItems true batch session l = (l.foldl (fun s x => s.writeLive x.kept) s, ok []) := by
  have clean := findSome?_numbered_eq_none (g := s.writeFault true) (l := l.map WItem.kept) 0 (by simpa using fit)
  unfold State.writeItems
  simp only [List.range_eq_range', clean, List.foldl_map]
  simp

theorem writeOne_of_item (item : Req.item q = some x) : s.writeOne q live = s.writeItems live false q.session [x] := by
  simp [State.writeOne, item]

/-- A single item with a fault is refused with it and its ID. -/
theorem writeOne_of_fault {f : Nat} (item : Req.item q = some x) (free : (!live && s.ctl.commit.isSome) = false)
    (fault : s.writeFault live x.kept = some f) : s.writeOne q live = (s, errId f x.id) := by
  rw [writeOne_of_item item]
  exact writeItems_of_first_fault (pre := []) free (by simp) fault

/-! ### WRITE_PARAM, WRITE_LIVE, WRITE_BATCH -/

variable {dt role : Nat}

theorem exec_writeParam_maquette (adm : Admitted (s.advance dt) q 0x0101 (idUnit (q.bits 4 15 0)) 1 2 true t role)
    (item : Req.item q = some x) (idle : t.ctl.commit = none) (fit : t.writeFault false x.kept = none)
    (room : (t.ctl.maquette.set x.key { session := q.session, val := .value x.kept.value }).length ≤ 524288) :
    exec (.writeParam dt q) s = .next (replied t { t with ctl := { t.ctl with
      maquette := t.ctl.maquette.set x.key { session := q.session, val := .value x.kept.value } } } q 0x0101
        (idUnit (q.bits 4 15 0)) []) := by
  refine congrArg Host.Outcome.next (serve_ok_short (admitted_weaken adm (Nat.zero_le 2)) ?_ (Nat.zero_le 10))
  obtain ⟨-, -, -, words⟩ := adm
  dsimp only
  rw [if_neg (by simp [idle]), if_neg (Nat.not_lt.mpr words), writeOne_of_item item]
  exact writeItems_maquette (l := [x]) idle (by simpa using fit) room

theorem exec_writeParam_busy (adm : Admitted (s.advance dt) q 0x0101 (idUnit (q.bits 4 15 0)) 1 0 true t role)
    (pending : t.ctl.commit ≠ none) :
    exec (.writeParam dt q) s = .next (turnedAway t q 0x0101 (idUnit (q.bits 4 15 0)) 0x010B 0) := by
  refine congrArg Host.Outcome.next (serve_turnedAway adm ?_)
  rw [if_pos (Option.isSome_iff_ne_none.mpr pending)]
  rfl

theorem exec_writeLive_sets (adm : Admitted (s.advance dt) q 0x0102 (idUnit (q.bits 4 15 0)) 1 2 true t role)
    (item : Req.item q = some x) (fit : t.writeFault true x.kept = none) (utc : x.id ≠ Par.TIM.UTC_OFFSET)
    (flt : x.id / 256 ≠ 6) :
    exec (.writeLive dt q) s =
      .next (replied t (t.setPar x.id x.inst x.kept.value) q 0x0102 (idUnit (q.bits 4 15 0)) []) := by
  refine congrArg Host.Outcome.next (serve_ok_short adm ?_ (Nat.zero_le 10))
  rw [writeOne_of_item item, writeItems_live (by simpa using fit), List.foldl_cons, List.foldl_nil,
    writeLive_of_plain (x := x.kept) utc flt]
  rfl

theorem exec_writeLive_fault {f : Nat} (adm : Admitted (s.advance dt) q 0x0102 (idUnit (q.bits 4 15 0)) 1 2 true t role)
    (item : Req.item q = some x) (fault : t.writeFault true x.kept = some f) :
    exec (.writeLive dt q) s = .next (turnedAway t q 0x0102 (idUnit (q.bits 4 15 0)) f x.id) :=
  congrArg Host.Outcome.next (serve_turnedAway adm (writeOne_of_fault item rfl fault))

/-- A batch into the maquette whose items are whole is a write of its items, where no commit is pending (R52). -/
theorem exec_writeBatch_of_items {l : List WItem} {u : State} {a : Ans}
    (adm : Admitted (s.advance dt) q 0x0104 0x0C 1 1 true t role) (idle : t.ctl.commit = none)
    (maquette : (q.w 4).getLsbD 16 = false) (least : 1 ≤ q.bits 4 15 0) (most : q.bits 4 15 0 ≤ 4096)
    (items : itemsOf' (q.bits 4 15 0) (q.rest 5) = some l) (run : t.writeItems false true q.session l = (u, some a))
    (short : a.2.length ≤ 10) : exec (.writeBatch dt q) s = .next (u.answer (t.sessionKey q) q 0x0104 0x0C a) := by
  have words : q.payload.isEmpty = false := by
    rw [List.isEmpty_eq_false_iff, ← List.length_pos_iff]
    obtain ⟨-, -, -, words⟩ := adm
    exact words
  refine congrArg Host.Outcome.next (serve_answers (admitted_weaken adm (Nat.zero_le 1)) ?_ (fits_of_short short))
  have one : q.bits 4 15 0 ≠ 0 := Nat.one_le_iff_ne_zero.mp least
  simp only [maquette, idle, words, one, Nat.not_lt.mpr most, items, run, Option.isSome_none, Bool.and_false,
    Bool.false_eq_true, if_false]

end Items

/-- Settles O17: each command is a write of its items (`writeItems_maquette`, `writeItems_live`,
`writeItems_of_first_fault`), and the faults of an item follow R54's order. -/
theorem parametersAreWritten : Obligations.ParametersAreWritten := by
  refine ⟨fun s t dt q role x => ⟨?_, ?_⟩, fun s t dt q role x d adm item desc inst => ⟨?_, ?_, ?_⟩,
    fun s t dt q role l adm idle maquette least most items => ⟨?_, ?_⟩⟩
  · exact fun adm item idle fit room => exec_writeParam_maquette adm item idle fit room
  · exact fun adm pending => exec_writeParam_busy adm pending
  · intro cls length range utc flt
    exact exec_writeLive_sets adm item (writeFault_live_eq_none (fault_of_fitting desc inst length range)
      (classFault_of_classL desc cls) (liveFault_of_plain utc flt)) utc flt
  · intro cls length range
    exact exec_writeLive_fault adm item (writeFault_of_classFault (fault_of_fitting desc inst length range)
      (classFault_live_of_classM desc cls))
  · intro bad
    exact exec_writeLive_fault adm item (writeFault_of_fault (fault_of_value desc inst bad))
  · intro maq fit room
    exact exec_writeBatch_of_items adm idle maquette least most items (writeItems_maquette idle fit room) (Nat.zero_le 10)
  · intro pre x post f split clean fault
    subst split
    exact exec_writeBatch_of_items adm idle maquette least most items
      (writeItems_of_first_fault (by simp [idle]) clean fault) (Nat.le_add_left 1 9)

end Sys2Proof.Laws
end

section
/-! SUPPORT. The commands on sources (R58, R64, R147, R468): what each answers, and what of the maquette it writes. -/

namespace Sys2Proof.Laws

open Sys2Proof.Machine

section Sources

variable {s t : State} {q : Req} {dt role : Nat}

theorem maqWrite_of_room {key session : Nat} {v : MaqVal} (idle : s.ctl.commit = none)
    (room : s.ctl.maquette.length < 524288) :
    s.maqWrite key session v =
      ({ s with ctl := { s.ctl with maquette := s.ctl.maquette.set key { session := session, val := v } } }, ok []) := by
  unfold State.maqWrite
  rw [if_neg (by simp [idle]), if_neg (by simp [room])]

/-! ### SOURCE_DEFINE, SOURCE_REMOVE -/

theorem exec_sourceDefine_maquette (adm : Admitted (s.advance dt) q 0x0300 3 1 0 true t role) (words : 4 ≤ q.payload.length)
    (idle : t.ctl.commit = none) (fit : t.defineStatus (definitionKept q.payload) = 0)
    (room : t.ctl.maquette.length < 524288) :
    exec (.sourceDefine dt q) s = .next (replied t { t with ctl := { t.ctl with
      maquette := t.ctl.maquette.set (sourceKey (q.bits 4 31 16))
        { session := q.session, val := .define (definitionKept q.payload) } } } q 0x0300 3 []) := by
  refine congrArg Host.Outcome.next (serve_ok_short adm ?_ (Nat.zero_le 10))
  dsimp only
  rw [if_neg (by simp [idle]), if_neg (Nat.not_lt.mpr words), fit]
  exact maqWrite_of_room idle room

theorem exec_sourceDefine_busy (adm : Admitted (s.advance dt) q 0x0300 3 1 0 true t role) (pending : t.ctl.commit ≠ none) :
    exec (.sourceDefine dt q) s = .next (turnedAway t q 0x0300 3 0x010B 0) := by
  refine congrArg Host.Outcome.next (serve_turnedAway adm ?_)
  dsimp only
  rw [if_pos (Option.isSome_iff_ne_none.mpr pending)]
  rfl

theorem exec_sourceRemove_maquette (adm : Admitted (s.advance dt) q 0x0301 3 1 0 true t role) (words : 1 ≤ q.payload.length)
    (idle : t.ctl.commit = none) (known : q.bits 4 31 16 ≤ 8191) (room : t.ctl.maquette.length < 524288) :
    exec (.sourceRemove dt q) s = .next (replied t { t with ctl := { t.ctl with
      maquette := t.ctl.maquette.set (sourceKey (q.bits 4 31 16)) { session := q.session, val := .remove } } }
      q 0x0301 3 []) := by
  have heard : q.payload ≠ [] := List.ne_nil_of_length_pos words
  refine congrArg Host.Outcome.next (serve_ok_short adm ?_ (Nat.zero_le 10))
  dsimp only
  rw [if_neg (by simp [idle]), if_neg (by simp [heard]), if_neg (Nat.not_lt.mpr known)]
  exact maqWrite_of_room idle room

theorem exec_sourceRemove_busy (adm : Admitted (s.advance dt) q 0x0301 3 1 0 true t role) (pending : t.ctl.commit ≠ none) :
    exec (.sourceRemove dt q) s = .next (turnedAway t q 0x0301 3 0x010B 0) := by
  refine congrArg Host.Outcome.next (serve_turnedAway adm ?_)
  rw [if_pos (Option.isSome_iff_ne_none.mpr pending)]
  rfl

/-! ### SOURCE_QUERY, CATALOGUE_READ -/

theorem exec_sourceQuery_answers {ws : List Word} (adm : Admitted (s.advance dt) q 0x0302 3 0 1 true t role)
    (run : t.sourceQuery q = ok ws) (fit : ReplyFits t q ws) :
    exec (.sourceQuery dt q) s = .next (replied t t q 0x0302 3 ws) :=
  congrArg Host.Outcome.next (serve_ok adm (congrArg (Prod.mk t) run) fit)

/-- The state a query gives for a source: 0 where nothing in force defines it (R147). -/
def stateInForce (t : State) (src : Nat) : Nat :=
  if ((t.ctl.cfg.sources.get? src).getD []).isEmpty then 0 else (t.src src).st

/-- Without SELECT, and where the maquette holds no command on the source, a query answers what is in force. -/
theorem sourceQuery_in_force (known : q.bits 4 31 16 ≤ 8191)
    (plain : q.bits 4 0 0 = 0 ∨ (t.ctl.maquette.get? (sourceKey (q.bits 4 31 16))).map MaqEntry.val = none) :
    t.sourceQuery q = ok (q.w 4 :: t.sourceWords (q.bits 4 31 16) ((t.ctl.cfg.sources.get? (q.bits 4 31 16)).getD [])
      (stateInForce t (q.bits 4 31 16))) := by
  unfold State.sourceQuery
  rw [if_neg (by omega), if_neg (Nat.not_lt.mpr known)]
  rcases plain with unset | unheld
  · rw [if_neg (by omega)]
    rfl
  · simp only [unheld, ite_self]
    rfl

/-- With SELECT, a query of a source whose removal the maquette holds answers an empty definition and state 0. -/
theorem sourceQuery_removed (known : q.bits 4 31 16 ≤ 8191) (select : q.bits 4 0 0 = 1)
    (held : (t.ctl.maquette.get? (sourceKey (q.bits 4 31 16))).map MaqEntry.val = some .remove) :
    t.sourceQuery q = ok (q.w 4 :: t.sourceWords (q.bits 4 31 16) [] 0) := by
  unfold State.sourceQuery
  rw [if_neg (by omega), if_neg (Nat.not_lt.mpr known), if_pos select, held]

/-- With SELECT, a query of a source whose definition the maquette holds answers that definition. -/
theorem sourceQuery_defined {defn : List Word} (known : q.bits 4 31 16 ≤ 8191) (select : q.bits 4 0 0 = 1)
    (held : (t.ctl.maquette.get? (sourceKey (q.bits 4 31 16))).map MaqEntry.val = some (.define defn)) :
    t.sourceQuery q = ok (q.w 4 :: t.sourceWords (q.bits 4 31 16) defn (stateInForce t (q.bits 4 31 16))) := by
  unfold State.sourceQuery
  rw [if_neg (by omega), if_neg (Nat.not_lt.mpr known), if_pos select, held]
  rfl

/-- A query of source 0xFFFF answers a page of the learn list. -/
theorem sourceQuery_learn (learn : q.bits 4 31 16 = 0xFFFF) (words : 3 ≤ q.payload.length) (least : 1 ≤ (q.w 6).toNat)
    (most : (q.w 6).toNat ≤ 256) :
    t.sourceQuery q = ok (BitVec.ofNat 32 t.ing.learn.length ::
      ((t.ing.learn.drop (q.w 5).toNat).take (q.w 6).toNat).flatMap (learnWords q.carriage)) := by
  unfold State.sourceQuery
  rw [if_pos learn]
  dsimp only
  rw [if_neg (by omega), if_neg (Nat.not_lt.mpr most)]
  rfl

theorem exec_catalogueRead_answers (adm : Admitted (s.advance dt) q 0x0303 3 0 2 true t role) (least : 1 ≤ q.bits 5 15 0)
    (most : q.bits 5 15 0 ≤ 4096) (inside : q.bits 4 17 0 + q.bits 5 15 0 ≤ 262144)
    (fit : ReplyFits t q (BitVec.ofNat 32 (q.bits 5 15 0) :: (List.range (q.bits 5 15 0)).map
      (fun k => catalogueWord (catalogueOf t.ctl.cfg.sources) (q.bits 4 17 0 + k)))) :
    exec (.catalogueRead dt q) s = .next (replied t t q 0x0303 3 (BitVec.ofNat 32 (q.bits 5 15 0) ::
      (List.range (q.bits 5 15 0)).map (fun k => catalogueWord (catalogueOf t.ctl.cfg.sources) (q.bits 4 17 0 + k)))) := by
  refine congrArg Host.Outcome.next (serve_ok adm ?_ fit)
  dsimp only
  rw [if_neg (by omega), if_neg (by omega)]

end Sources

/-- Settles O35: SOURCE_DEFINE and SOURCE_REMOVE are one write of the maquette (`maqWrite_of_room`), and the two
reads answer by what SELECT, the maquette and the source number choose. -/
theorem sourceCommandsAnswer : Obligations.SourceCommandsAnswer := by
  refine ⟨fun s t dt q role => ⟨fun adm => ⟨?_, ?_⟩, fun adm => ⟨?_, ?_⟩⟩, fun s t dt q role => ⟨?_, ?_, ?_⟩⟩
  · exact fun words idle fit room => exec_sourceDefine_maquette adm words idle fit room
  · exact fun pending => exec_sourceDefine_busy adm pending
  · exact fun words idle known room => exec_sourceRemove_maquette adm words idle known room
  · exact fun pending => exec_sourceRemove_busy adm pending
  · intro ws adm known answer fit
    refine exec_sourceQuery_answers adm ?_ fit
    rcases answer with ⟨plain, rfl⟩ | ⟨select, held, rfl⟩ | ⟨select, defn, held, rfl⟩
    · exact sourceQuery_in_force known plain
    · exact sourceQuery_removed known select held
    · exact sourceQuery_defined known select held
  · exact fun adm learn words least most fit => exec_sourceQuery_answers adm (sourceQuery_learn learn words least most) fit
  · exact fun adm least most inside fit => exec_catalogueRead_answers adm least most inside fit

end Sys2Proof.Laws
end

section
/-! SUPPORT. HEALTHY (R29): what it conducts on, and what a unit's run state and DEGRADED do to it. -/

namespace Sys2Proof.Laws

open Sys2Proof.Machine

theorem mem_unitIds {u : Nat} : u ∈ unitIds ↔ 1 ≤ u ∧ u ≤ 15 := by
  simp only [unitIds, List.mem_cons, List.not_mem_nil, or_false]
  omega

theorem runs_iff {s : State} {u : Nat} : s.runs u = true ↔ (s.unit u).st = 0 := beq_iff_eq

theorem allRun_iff {s : State} : s.allRun = true ↔ ∀ u, 1 ≤ u → u ≤ 15 → s.runs u = true := by
  simp only [State.allRun, List.all_eq_true, mem_unitIds, and_imp]

/-- The power-fail sequence releases HEALTHY besides what R29 names (R426). -/
theorem healthy_iff {s : State} : s.healthy = true ↔ s.pwr.dev = .run ∧ s.pwr.pfw = false ∧ s.allRun = true := by
  simp only [State.healthy, Bool.and_eq_true, beq_iff_eq, Bool.not_eq_true', and_assoc]

theorem unit_setUnit_self (s : State) (u : Nat) (x : UnitSt) : ({ s with units := s.units.set u x }).unit u = x :=
  AMap.getD_set_self s.units u x UnitSt.init

/-- A unit that does not run releases HEALTHY, whatever else holds (R29). -/
theorem healthy_eq_false_of_stopped {s : State} {u : Nat} (low : 1 ≤ u) (high : u ≤ 15) (stopped : (s.unit u).st ≠ 0) :
    s.healthy = false := by
  refine Bool.eq_false_iff.mpr fun conducts => stopped ?_
  obtain ⟨-, -, all⟩ := healthy_iff.mp conducts
  exact runs_iff.mp (allRun_iff.mp all u low high)

/-- HEALTHY does not read DEGRADED (R29). -/
theorem healthy_setDegraded (s : State) (d : Bool) :
    ({ s with mem := { s.mem with degraded := d } }).healthy = s.healthy := rfl

/-- Settles O4: HEALTHY is RUN, no power-fail sequence and every unit running (`healthy_iff`), so that a unit stopped
releases it (`healthy_eq_false_of_stopped`) and DEGRADED does not (`healthy_setDegraded`). -/
theorem healthyConductsOnlyInRunWithEveryUnit : Obligations.HealthyConductsOnlyInRunWithEveryUnit := by
  intro s
  refine ⟨fun conducts => ?_, fun dev pfw all => ?_, fun d u st low high conducts => ⟨?_, fun stopped => ?_⟩⟩
  · obtain ⟨dev, -, all⟩ := healthy_iff.mp conducts
    exact ⟨dev, fun u low high => runs_iff.mp (allRun_iff.mp all u low high)⟩
  · exact healthy_iff.mpr ⟨dev, pfw, allRun_iff.mpr all⟩
  · exact (healthy_setDegraded s d).trans conducts
  · refine healthy_eq_false_of_stopped low high ?_
    rw [unit_setUnit_self]
    exact stopped

end Sys2Proof.Laws
end

section
/-! SUPPORT. The writes a command is made of, as far as the identity, the queue, the outputs, the sessions, DEGRADED, the power state
and the configuration in force go: a property that each of these writes keeps, every command keeps. -/

namespace Sys2Proof.Laws

open Sys2Proof.Machine

/-- What an operation may write besides: neither the power state nor the configuration, the power state, or both. -/
inductive Scope where
  | still
  | moving (config : Bool)

/-- `t` differs from `s` at most in what the writes of `Reaches` do not name. -/
def Guarded (s t : State) : Prop :=
  t.ident = s.ident ∧ t.pending = s.pending ∧ t.out = s.out ∧ t.ctl.sessions = s.ctl.sessions ∧ t.mem.degraded = s.mem.degraded ∧
  t.pwr = s.pwr ∧ t.ctl.cfg = s.ctl.cfg

/-- The state with other sessions. -/
def withSessions (s : State) (l : AMap Session) : State := { s with ctl := { s.ctl with sessions := l } }

/-- The block comes from `s₀` to a state by writes of these kinds alone, the last two within their scope. -/
inductive Reaches (σ : Scope) (s₀ : State) : State → Prop
  | here : Reaches σ s₀ s₀
  /-- Any other field is written. -/
  | write {s t : State} : Reaches σ s₀ s → Guarded s t → Reaches σ s₀ t
  /-- Outputs leave the module. -/
  | send {s : State} (l : List Output) : Reaches σ s₀ s → Reaches σ s₀ { s with out := s.out ++ l }
  /-- DEGRADED is set, or stays (R461). -/
  | degrade {s : State} (b : Bool) : Reaches σ s₀ s → Reaches σ s₀ { s with mem := { s.mem with degraded := s.mem.degraded || b } }
  /-- An open session is changed (R39, R43, R47). -/
  | touch {s : State} {n : Nat} {x : Session} (y : Session) :
    Reaches σ s₀ s → s.ctl.sessions.get? n = some x → Reaches σ s₀ (withSessions s (s.ctl.sessions.set n y))
  /-- A session opens while fewer than 32 are open (R46). -/
  | opened {s : State} (n : Nat) (x : Session) :
    Reaches σ s₀ s → s.ctl.sessions.length < 32 → Reaches σ s₀ (withSessions s (s.ctl.sessions.set n x))
  /-- Sessions end (R48). -/
  | ended {s : State} {l : AMap Session} : Reaches σ s₀ s → l.Sublist s.ctl.sessions → Reaches σ s₀ (withSessions s l)
  /-- The power state changes (R28, R414). -/
  | power {s : State} (p : Pwr) : Reaches σ s₀ s → σ ≠ .still → Reaches σ s₀ { s with pwr := p }
  /-- The configuration in force changes (R57, R62). -/
  | config {s : State} (c : Config) : Reaches σ s₀ s → σ = .moving true → Reaches σ s₀ { s with ctl := { s.ctl with cfg := c } }

/-- An outcome whose next state, where it has one, is reached so. -/
def NextReaches (s₀ : State) : Out → Prop
  | .next t => Reaches (.moving true) s₀ t
  | .fault _ => True
  | .refused _ => True

/-! One lemma `Reaches.f` for each operation `f` of the state, in the order of the model, and one lemma `execX_reaches` for each
command: where `s` is reached, `s.f …` is. A proof reads as the definition does: `h.count.notify` follows a count and the
notice after it, `.ite` an `if`, `.foldl` a loop, and `h.set` an update of fields that `Reaches` does not name. An operation that
writes the power state is followed in the scope `.moving c`, one that writes the configuration in `.moving true`. -/

section Operations

variable {σ : Scope} {c : Bool} {s₀ s t : State}

/-- Erasing leaves entries out. -/
theorem erase_sublist {β : Type} (m : AMap β) (key : Nat) : (m.erase key).Sublist m := by
  induction m with
  | nil => exact List.Sublist.refl _
  | cons p m ih =>
    simp only [AMap.erase]
    split
    · exact List.sublist_cons_self ..
    · exact ih.cons_cons _

theorem Guarded.refl (s : State) : Guarded s s := ⟨rfl, rfl, rfl, rfl, rfl, rfl, rfl⟩

theorem Reaches.refl (s : State) : Reaches σ s s := .here

theorem Reaches.trans {s t u : State} (h : Reaches σ s t) (g : Reaches σ t u) : Reaches σ s u := by
  induction g with
  | here => exact h
  | write _ e ih => exact ih.write e
  | send l _ ih => exact ih.send l
  | degrade b _ ih => exact ih.degrade b
  | touch y _ e ih => exact ih.touch y e
  | opened n x _ e ih => exact ih.opened n x e
  | ended _ e ih => exact ih.ended e
  | power p _ e ih => exact ih.power p e
  | config c _ e ih => exact ih.config c e

theorem Reaches.next (h : Reaches (.moving true) s₀ t) : NextReaches s₀ (.next t) := h

/-- What only writes ports, logs and the like (`Kept`) is reached by a write and outputs. -/
theorem Reaches.kept (h : Reaches σ s₀ s) (k : Kept s t) : Reaches σ s₀ t := by
  obtain ⟨l, e⟩ := k.2
  obtain ⟨eq, -⟩ := k
  simp only [settled, State.mk.injEq, Ctl.mk.injEq, Evt.mk.injEq, Mem.mk.injEq] at eq
  exact (h.send l).write (by simp only [Guarded, eq, e, and_self])

/-- Releasing a packet and taking one in write the scheduler alone (`Taken`). -/
theorem Reaches.taken (h : Reaches σ s₀ s) (k : Taken s t) : Reaches σ s₀ t := by
  rw [k.eq]
  exact h.write (.refl s)

/-- The state of a pair that a `match` has taken apart. -/
theorem Reaches.of_eq {α : Type} {p : State × α} {a : α} (e : p = (t, a)) (h : Reaches σ s₀ p.1) : Reaches σ s₀ t := by
  rw [e] at h
  exact h

/-- On record updates: every field outside the control complex and the store may be written, but those `Guarded` names. -/
theorem Reaches.set (h : Reaches σ s₀ s) {units : AMap UnitSt} {lands : Lands} {alarms : List (Nat × Nat × Nat)} {prt : Ports}
  {tim : Tim}
    {ing : Ing} {aln : Aln} {osc : Osc} {arm : Arm} {cus : Cus} {cnv : Cnv} {flt : FltUnit} {cap : Cap} {lgc : Lgc} {vlt : Vlt}
    {evt : Evt} :
    Reaches σ s₀ ⟨s.pending, s.ident, s.pwr, units, lands, alarms, s.ctl, prt, tim, ing, aln, osc, arm, cus, cnv, flt, cap, lgc, vlt,
      evt, s.mem, s.out⟩ := h.write ⟨rfl, rfl, rfl, rfl, rfl, rfl, rfl⟩

/-- As `Reaches.set`, and every field of the control complex but the configuration and the sessions. -/
theorem Reaches.setCtl (h : Reaches σ s₀ s) {units : AMap UnitSt} {lands : Lands} {alarms : List (Nat × Nat × Nat)} {prt : Ports}
  {tim : Tim}
    {ing : Ing} {aln : Aln} {osc : Osc} {arm : Arm} {cus : Cus} {cnv : Cnv} {flt : FltUnit} {cap : Cap} {lgc : Lgc} {vlt : Vlt}
    {evt : Evt}
    {flash journal image included maquette commit commitNo conflicts cfgSlot consolidations consolidating buffers unfetched owed
    lastCmdRing rings hostCtl irqHoldoff msix irqLast irqHeld latches noticeSeq subs tcp reasm counters linkUp drain selfTest
    statsStart delays ready waits maxDepth cores coreFails coreTestAt fifo taken fifoPeak} :
    Reaches σ s₀ ⟨s.pending, s.ident, s.pwr, units, lands, alarms,
      ⟨s.ctl.cfg, flash, journal, image, included, maquette, commit, commitNo, conflicts, cfgSlot, consolidations, consolidating,
        s.ctl.sessions, buffers, unfetched, owed, lastCmdRing, rings, hostCtl, irqHoldoff, msix, irqLast, irqHeld, latches, noticeSeq,
        subs, tcp, reasm, counters, linkUp, drain, selfTest, statsStart, delays, ready, waits, maxDepth, cores, coreFails, coreTestAt,
        fifo, taken, fifoPeak⟩,
      prt, tim, ing, aln, osc, arm, cus, cnv, flt, cap, lgc, vlt, evt, s.mem, s.out⟩ := h.write ⟨rfl, rfl, rfl, rfl, rfl, rfl, rfl⟩

/-- As `Reaches.set`, and every field of the store but DEGRADED. -/
theorem Reaches.setMem (h : Reaches σ s₀ s) {units : AMap UnitSt} {lands : Lands} {alarms : List (Nat × Nat × Nat)} {prt : Ports}
  {tim : Tim}
    {ing : Ing} {aln : Aln} {osc : Osc} {arm : Arm} {cus : Cus} {cnv : Cnv} {flt : FltUnit} {cap : Cap} {lgc : Lgc} {vlt : Vlt}
    {evt : Evt}
    {sramUsed sramTable sramDue sramStuck dramUsed dramPages dramPpr mramMap vstep used patina saved} :
    Reaches σ s₀ ⟨s.pending, s.ident, s.pwr, units, lands, alarms, s.ctl, prt, tim, ing, aln, osc, arm, cus, cnv, flt, cap, lgc, vlt,
      evt, ⟨sramUsed, sramTable, sramDue, sramStuck, dramUsed, dramPages, dramPpr, mramMap, vstep, used, s.mem.degraded, patina,
      saved⟩, s.out⟩ := h.write ⟨rfl, rfl, rfl, rfl, rfl, rfl, rfl⟩

/-- As `Reaches.set`, and the power state. -/
theorem Reaches.setPwr (h : Reaches (.moving c) s₀ s) {pwr : Pwr} {units : AMap UnitSt} {lands : Lands}
  {alarms : List (Nat × Nat × Nat)} {prt : Ports} {tim : Tim}
    {ing : Ing} {aln : Aln} {osc : Osc} {arm : Arm} {cus : Cus} {cnv : Cnv} {flt : FltUnit} {cap : Cap} {lgc : Lgc} {vlt : Vlt}
    {evt : Evt} :
    Reaches (.moving c) s₀
      ⟨s.pending, s.ident, pwr, units, lands, alarms, s.ctl, prt, tim, ing, aln, osc, arm, cus, cnv, flt, cap, lgc,
      vlt, evt, s.mem, s.out⟩ := (h.power pwr nofun).write ⟨rfl, rfl, rfl, rfl, rfl, rfl, rfl⟩

/-- As `Reaches.setCtl`, and the power state and the configuration. -/
theorem Reaches.setAll (h : Reaches (.moving true) s₀ s) {pwr : Pwr} {units : AMap UnitSt} {lands : Lands}
  {alarms : List (Nat × Nat × Nat)} {prt : Ports} {tim : Tim}
    {ing : Ing} {aln : Aln} {osc : Osc} {arm : Arm} {cus : Cus} {cnv : Cnv} {flt : FltUnit} {cap : Cap} {lgc : Lgc} {vlt : Vlt}
    {evt : Evt}
    {cfg : Config}
      {flash journal image included maquette commit commitNo conflicts cfgSlot consolidations consolidating buffers unfetched owed
    lastCmdRing rings hostCtl irqHoldoff msix irqLast irqHeld latches noticeSeq subs tcp reasm counters linkUp drain selfTest
    statsStart delays ready waits maxDepth cores coreFails coreTestAt fifo taken fifoPeak} :
    Reaches (.moving true) s₀ ⟨s.pending, s.ident, pwr, units, lands, alarms,
      ⟨cfg, flash, journal, image, included, maquette, commit, commitNo, conflicts, cfgSlot, consolidations, consolidating,
        s.ctl.sessions, buffers, unfetched, owed, lastCmdRing, rings, hostCtl, irqHoldoff, msix, irqLast, irqHeld, latches, noticeSeq,
        subs, tcp, reasm, counters, linkUp, drain, selfTest, statsStart, delays, ready, waits, maxDepth, cores, coreFails, coreTestAt,
        fifo, taken, fifoPeak⟩,
      prt, tim, ing, aln, osc, arm, cus, cnv, flt, cap, lgc, vlt, evt, s.mem, s.out⟩ :=
  ((h.power pwr nofun).config cfg rfl).write ⟨rfl, rfl, rfl, rfl, rfl, rfl, rfl⟩

theorem Reaches.ite {c : Prop} [Decidable c] (h : Reaches σ s₀ s) (g : Reaches σ s₀ t) : Reaches σ s₀ (if c then s else t) := by
  split
  · exact h
  · exact g

/-- As `Reaches.ite`, for a branch that yields a value along with the state. -/
theorem Reaches.iteFst {α : Type} {c : Prop} [Decidable c] {p q : State × α} (h : Reaches σ s₀ p.1) (g : Reaches σ s₀ q.1) :
    Reaches σ s₀ (if c then p else q).1 := by
  split
  · exact h
  · exact g

theorem Reaches.foldl {α : Type} {f : State → α → State} {l : List α} (h : Reaches σ s₀ s)
    (step : ∀ {s a}, Reaches σ s₀ s → Reaches σ s₀ (f s a)) : Reaches σ s₀ (l.foldl f s) := by
  induction l generalizing s with
  | nil => exact h
  | cons a l ih => exact ih (step h)

/-- As `Reaches.foldl`, for a loop that carries a value along with the state. -/
theorem Reaches.foldlFst {α β : Type} {f : State × β → α → State × β} {p : State × β} {l : List α} (h : Reaches σ s₀ p.1)
    (step : ∀ {p a}, Reaches σ s₀ p.1 → Reaches σ s₀ (f p a).1) : Reaches σ s₀ (l.foldl f p).1 := by
  induction l generalizing p with
  | nil => exact h
  | cons a l ih => exact ih (step h)

/-! ### Flags -/

theorem Reaches.setPar (h : Reaches (.moving true) s₀ s) {id inst : Nat} {v : List Word} :
    Reaches (.moving true) s₀ (s.setPar id inst v) :=
  h.setAll

theorem Reaches.advance (h : Reaches σ s₀ s) {dt : Nat} : Reaches σ s₀ (s.advance dt) :=
  h.set

/-! ### Transmit -/

theorem Reaches.setCtr (h : Reaches σ s₀ s) {id inst v : Nat} : Reaches σ s₀ (s.setCtr id inst v) :=
  h.kept (setCtr_keptLogs _ _ _ _).1

theorem Reaches.count (h : Reaches σ s₀ s) {id inst n : Nat} : Reaches σ s₀ (s.count id inst n) :=
  h.kept (count_keptLogs _ _ _ _).1

theorem Reaches.count2 (h : Reaches σ s₀ s) {id inst n : Nat} : Reaches σ s₀ (s.count2 id inst n) :=
  h.kept (count2_keptLogs _ _ _ _).1

theorem Reaches.clearCounters (h : Reaches σ s₀ s) {u : Nat} : Reaches σ s₀ (s.clearCounters u) :=
  h.setCtl

theorem Reaches.fifoRead (h : Reaches σ s₀ s) {f n : Nat} : Reaches σ s₀ (s.fifoRead f n) :=
  h.kept (fifoRead_keptLogs _ _ _).1

theorem Reaches.takeWords (h : Reaches σ s₀ s) {f : Nat} : Reaches σ s₀ (s.takeWords f).1 :=
  h.kept (takeWords_keptLogs _ _).1

theorem Reaches.takeItem (h : Reaches σ s₀ s) {f : Nat} : Reaches σ s₀ (s.takeItem f).1 :=
  h.kept (takeItem_keptLogs _ _).1

theorem Reaches.setRing (h : Reaches σ s₀ s) {n : Nat} {r : Ring} : Reaches σ s₀ (s.setRing n r) :=
  h.kept (setRing_keptLogs _ _ _).1

theorem Reaches.emit (h : Reaches σ s₀ s) {o : Output} : Reaches σ s₀ (s.emit o) :=
  h.kept (emit_keptLogs _ _).1

theorem Reaches.raiseIrq (h : Reaches σ s₀ s) {v : Nat} : Reaches σ s₀ (s.raiseIrq v) :=
  h.kept (raiseIrq_keptLogs _ _).1

theorem Reaches.fillBuf (h : Reaches σ s₀ s) {n : Nat} : Reaches σ s₀ (s.fillBuf n) :=
  h.kept (fillBuf_keptLogs _ _).1

theorem Reaches.setPort (h : Reaches σ s₀ s) {n : Nat} {p : Port} : Reaches σ s₀ (s.setPort n p) :=
  h.kept (setPort_keptLogs _ _ _).1

theorem Reaches.startTx (h : Reaches σ s₀ s) {n : Nat} : Reaches σ s₀ (s.startTx n) :=
  h.kept (startTx_keptLogs _ _).1

theorem Reaches.completeSend (h : Reaches σ s₀ s) {ring status : Nat} {stamp : Option Nat} :
    Reaches σ s₀ (s.completeSend ring status stamp) :=
  h.setRing.emit.raiseIrq

theorem Reaches.queueTx (h : Reaches σ s₀ s) {n : Nat} {x : TxItem} : Reaches σ s₀ (s.queueTx n x) :=
  h.kept (queueTx_keptLogs _ _ _).1

theorem Reaches.sendFrames' (h : Reaches σ s₀ s) {n rank : Nat} {tso : Bool} {msg : Option Output} {x : List (List Byte)} :
    Reaches σ s₀ (s.sendFrames' n rank tso msg x) :=
  h.kept (sendFrames'_keptLogs _ _ _ _ _ _).1

theorem Reaches.sendUdp (h : Reaches σ s₀ s) {n rank srcPort : Nat} {peer : Peer} {payload : List Byte} {msg : Option Output} :
    Reaches σ s₀ (s.sendUdp n rank srcPort peer payload msg) :=
  h.kept (sendUdp_keptLogs _ _ _ _ _ _ _).1

theorem Reaches.sendTcp (h : Reaches σ s₀ s) {k rank : Nat} {data : List Byte} {msg : Option Output} :
    Reaches σ s₀ (s.sendTcp k rank data msg) :=
  h.kept (sendTcp_keptLogs _ _ _ _ _).1

/-! ### Ops -/

theorem Reaches.noticeUdp (h : Reaches σ s₀ s) {port : Option Nat} {peer : Peer} {d : NoticeDest} {seq : Word} {n : Notice} :
    Reaches σ s₀ (s.noticeUdp port peer d seq n) :=
  h.kept (noticeUdp_keptLogs _ _ _ _ _ _).1

theorem Reaches.noticeTo (h : Reaches σ s₀ s) {d : NoticeDest} {n : Notice} : Reaches σ s₀ (s.noticeTo d n) :=
  h.kept (noticeTo_keptLogs _ _ _).1

theorem Reaches.noticeAll (h : Reaches σ s₀ s) {n : Notice} : Reaches σ s₀ (s.noticeAll n) :=
  h.kept (noticeAll_keptLogs _ _).1

theorem Reaches.notify (h : Reaches σ s₀ s) {op status u : Nat} {payload : List Word} : Reaches σ s₀ (s.notify op status u payload) :=
  h.kept (notify_keptLogs _ _ _ _ _).1

theorem Reaches.setLog (h : Reaches σ s₀ s) {m : Bool} {l : Log} : Reaches σ s₀ (s.setLog m l) :=
  h.kept (setLog_kept _ _ _)

theorem Reaches.wearAdd (h : Reaches σ s₀ s) {word n : Nat} : Reaches σ s₀ (s.wearAdd word n) :=
  h.kept (wearAdd_kept _ _ _)

theorem Reaches.flushLog (h : Reaches σ s₀ s) {m : Bool} : Reaches σ s₀ (s.flushLog m) :=
  h.kept (flushLog_kept _ _)

theorem Reaches.flushLogs (h : Reaches σ s₀ s) : Reaches σ s₀ s.flushLogs :=
  h.kept (flushLogs_kept _)

theorem Reaches.pushRecord (h : Reaches σ s₀ s) {m : Bool} {r : EvRec} : Reaches σ s₀ (s.pushRecord m r) :=
  h.kept (pushRecord_kept _ _ _)

theorem Reaches.admitGen (h : Reaches σ s₀ s) {code u sev supp t : Nat} {par : DWord} :
    Reaches σ s₀ (s.admitGen code u sev supp t par) :=
  h.kept (admitGen_kept _ _ _ _ _ _ _)

theorem Reaches.endFreeze (h : Reaches σ s₀ s) {m : Bool} {cause : Nat} : Reaches σ s₀ (s.endFreeze m cause) :=
  h.kept (endFreeze_kept _ _ _)

theorem Reaches.admitMet (h : Reaches σ s₀ s) {code u sev : Nat} {plinth : Bool} {t : Nat} {par : DWord} :
    Reaches σ s₀ (s.admitMet code u sev plinth t par).1 :=
  h.kept (admitMet_kept _ _ _ _ _ _ _)

theorem Reaches.setBucket (h : Reaches σ s₀ s) {code : Nat} {b : Bucket} : Reaches σ s₀ (s.setBucket code b) :=
  h.kept (setBucket_kept _ _ _)

theorem Reaches.logEvB (h : Reaches σ s₀ s) {code u t : Nat} {par : DWord} {plinth : Bool} :
    Reaches σ s₀ (s.logEvB code u t par plinth).1 :=
  h.kept (logEvB_kept _ _ _ _ _ _)

theorem Reaches.logEv (h : Reaches σ s₀ s) {code u t : Nat} {par : DWord} : Reaches σ s₀ (s.logEv code u t par) :=
  h.kept (logEv_kept _ _ _ _ _)

theorem Reaches.logCus (h : Reaches σ s₀ s) {code t : Nat} {par : DWord} : Reaches σ s₀ (s.logCus code t par) :=
  h.kept (logCus_kept _ _ _ _)

theorem Reaches.setUnit (h : Reaches σ s₀ s) {u st : Nat} : Reaches σ s₀ (s.setUnit u st) :=
  h.set.notify

theorem Reaches.setUnitQuiet (h : Reaches σ s₀ s) {u st : Nat} : Reaches σ s₀ (s.setUnitQuiet u st) :=
  h.set

theorem Reaches.spareUsed (h : Reaches σ s₀ s) {kind inst remaining : Nat} : Reaches σ s₀ (s.spareUsed kind inst remaining) :=
  (h.degrade (remaining == 0)).setMem.notify.logEv

theorem Reaches.placeReply (h : Reaches σ s₀ s) {ring len : Nat} {r : Reply} : Reaches σ s₀ (s.placeReply ring len r) :=
  h.kept (placeReply_keptLogs _ _ _ _).1

theorem Reaches.sendReply (h : Reaches σ s₀ s) {r : Reply} : Reaches σ s₀ (s.sendReply r) :=
  h.kept (sendReply_keptLogs _ _).1

theorem Reaches.sendOwed (h : Reaches σ s₀ s) : Reaches σ s₀ s.sendOwed :=
  h.kept (sendOwed_keptLogs _).1

theorem Reaches.sendInOrder (h : Reaches σ s₀ s) {u : Nat} {r : Reply} : Reaches σ s₀ (s.sendInOrder u r) :=
  h.kept (sendInOrder_keptLogs _ _ _).1

theorem Reaches.answer (h : Reaches σ s₀ s) {key : Option (List Byte)} {q : Req} {op u : Nat} {a : Ans} :
    Reaches σ s₀ (s.answer key q op u a) :=
  h.kept (answer_keptLogs _ _ _ _ _ _).1

theorem Reaches.owe (h : Reaches σ s₀ s) {q : Req} {op u : Nat} : Reaches σ s₀ (s.owe q op u) :=
  h.kept (owe_keptLogs _ _ _ _).1

theorem Reaches.answerLater (h : Reaches σ s₀ s) {q : Req} {op u : Nat} {a : Ans} : Reaches σ s₀ (s.answerLater q op u a) :=
  h.kept (answerLater_keptLogs _ _ _ _ _).1

theorem Reaches.dropOld (h : Reaches σ s₀ s) {u : Nat} : Reaches σ s₀ (s.dropOld u) :=
  h.setCtl.sendOwed

theorem Reaches.newEpoch (h : Reaches σ s₀ s) {u st : Nat} : Reaches σ s₀ (s.newEpoch u st) :=
  h.setCtl.dropOld.notify.logEv

theorem Reaches.checkSession (h : Reaches σ s₀ s) {q : Req} {op : Nat} : Reaches σ s₀ (s.checkSession q op).1 := by
  unfold State.checkSession
  refine .iteFst (.iteFst h.count h) ?_
  split
  · exact h.count
  · next found => exact .iteFst h.count (.iteFst h.count (h.touch _ found))

theorem Reaches.admission (h : Reaches σ s₀ s) {q : Req} {op u least : Nat} {unitCheck : Bool} :
    Reaches σ s₀ (s.admission q op u least unitCheck).1 := by
  unfold State.admission
  refine .iteFst h ?_
  split
  · next e => exact .of_eq e h.checkSession
  · next e =>
    have checked : Reaches σ s₀ _ := .of_eq e h.checkSession
    refine .iteFst checked.count (.iteFst checked (.iteFst checked (.iteFst ?_ checked)))
    split <;> exact checked

theorem Reaches.noteDepth (h : Reaches σ s₀ s) {levels : List Nat} : Reaches σ s₀ (s.noteDepth levels) :=
  h.taken (noteDepth_taken _ _)

theorem Reaches.taskReady (h : Reaches σ s₀ s) {level num : Nat} : Reaches σ s₀ (s.taskReady level num) :=
  h.setCtl.noteDepth

theorem Reaches.taskWaits (h : Reaches σ s₀ s) {level num n : Nat} : Reaches σ s₀ (s.taskWaits level num n) :=
  .ite h.taskReady h.setCtl

theorem Reaches.prerequisiteDone (h : Reaches σ s₀ s) {num : Nat} : Reaches σ s₀ (s.prerequisiteDone num) := by
  unfold State.prerequisiteDone
  split
  · exact .ite h.setCtl.taskReady h.setCtl
  · exact h

theorem Reaches.taskDiscard (h : Reaches σ s₀ s) {num : Nat} : Reaches σ s₀ (s.taskDiscard num) :=
  h.setCtl

theorem Reaches.taskRun (h : Reaches σ s₀ s) {num : Nat} : Reaches σ s₀ (s.taskRun num) :=
  h.setCtl

theorem Reaches.fetchMore (h : Reaches σ s₀ s) : Reaches σ s₀ s.fetchMore :=
  h.taken (fetchMore_taken _)

theorem Reaches.bufferPacket (h : Reaches σ s₀ s) {c : Carriage} {bytes : List Byte} : Reaches σ s₀ (s.bufferPacket c bytes) :=
  h.setCtl.fetchMore

theorem Reaches.release (h : Reaches σ s₀ s) {c : Carriage} : Reaches σ s₀ (s.release c) :=
  h.taken (release_taken _ _)

theorem Reaches.tcpEnd (h : Reaches σ s₀ s) {k : Nat} : Reaches σ s₀ (s.tcpEnd k) :=
  (h.ended List.filter_sublist).setCtl.emit

theorem Reaches.arrive (h : Reaches σ s₀ s) {c : Carriage} {op : Nat} : Reaches σ s₀ (s.arrive c op).1 :=
  h.taken (arrive_taken _ _ _)

theorem Reaches.framingReply (h : Reaches σ s₀ s) {r : Reply} : Reaches σ s₀ (s.framingReply r) := by
  unfold State.framingReply
  dsimp only
  split
  · exact h.count.sendInOrder.tcpEnd
  · exact h.count.sendInOrder

theorem Reaches.poisonedRequest (h : Reaches σ s₀ s) {q : Req} {op : Nat} : Reaches σ s₀ (s.poisonedRequest q op) :=
  h.framingReply

/-- R39: serving a packet is admission, the body and the answers, so what a body reaches, serving it reaches. -/
theorem Reaches.serve {q : Req} {op u least need : Nat} {unitCheck : Bool} {body : Nat → State → State × Option Ans}
    (h : Reaches σ s₀ s) (run : ∀ {s₀ role t}, Reaches σ s₀ t → Reaches σ s₀ (body role t).1) :
    Reaches σ s₀ (s.serve q op u least need unitCheck body) :=
  h.trans (serve_rel (R := Reaches σ) .trans .refl (fun s _ => (refl s).release) (fun s _ _ => (refl s).arrive)
    (fun s _ _ => (refl s).poisonedRequest) (fun s _ _ _ _ _ => (refl s).admission) (fun s _ _ _ _ _ => (refl s).answer)
    (fun s _ _ _ => (refl s).owe) (fun _ t => run (refl t)))

/-! ### Recorder -/

theorem Reaches.setRec (h : Reaches σ s₀ s) {n : Nat} {r : Rec} : Reaches σ s₀ (s.setRec n r) :=
  h.set

theorem Reaches.capPulse (h : Reaches σ s₀ s) {n : Nat} : Reaches σ s₀ (s.capPulse n) :=
  .ite h.set h

theorem Reaches.captureDone (h : Reaches σ s₀ s) {n cause flags id trig pre post : Nat} :
    Reaches σ s₀ (s.captureDone n cause flags id trig pre post) :=
  h.notify

theorem Reaches.endRecordTo (h : Reaches σ s₀ s) {n flags st : Nat} : Reaches σ s₀ (s.endRecordTo n flags st) := by
  unfold State.endRecordTo
  dsimp only
  split
  · exact h
  · exact h.setRec.count2.captureDone

theorem Reaches.endRecord (h : Reaches σ s₀ s) {n : Nat} : Reaches σ s₀ (s.endRecord n) :=
  h.endRecordTo

theorem Reaches.startRecord (h : Reaches σ s₀ s) {n cause stamp : Nat} : Reaches σ s₀ (s.startRecord n cause stamp) := by
  unfold State.startRecord
  extract_lets r clamped k before rows left open_ step need kept gone c _ _ s₁
  have h₁ : Reaches σ s₀ s₁ := (Reaches.ite h h.count2).setRec.capPulse
  exact .ite h₁.endRecord h₁

theorem Reaches.rollMark (h : Reaches σ s₀ s) {n cause stamp : Nat} : Reaches σ s₀ (s.rollMark n cause stamp) :=
  h.setRec.capPulse.captureDone

theorem Reaches.capFire (h : Reaches σ s₀ s) {n : Nat} {t : Nat × Nat} : Reaches σ s₀ (s.capFire n t) := by
  unfold State.capFire
  dsimp only
  split
  · exact .ite h.rollMark (.ite h.setRec h.startRecord)
  · exact .ite h.rollMark (.ite h.setRec h.startRecord)
  · exact h.setRec.count2
  · exact h.count2.logEv
  · exact h.count2
  · exact h

theorem Reaches.capFires (h : Reaches σ s₀ s) {n : Nat} {l : List (Nat × Nat)} : Reaches σ s₀ (s.capFires n l) :=
  h.foldl fun h => h.capFire

theorem Reaches.capEvent (h : Reaches σ s₀ s) {kind : Nat} {hit : Nat → Option Bool} {stamp : Nat} :
    Reaches σ s₀ (s.capEvent kind hit stamp) :=
  .ite (h.foldl fun h => .ite h h.capFires) h

theorem Reaches.alarmT (h : Reaches σ s₀ s) {u cls inst : Nat} {raised test : Bool} {t : Nat} :
    Reaches σ s₀ (s.alarmT u cls inst raised test t) :=
  .ite h h.set.notify.capEvent

theorem Reaches.alarm (h : Reaches σ s₀ s) {u cls inst : Nat} {raised : Bool} {t : Nat} : Reaches σ s₀ (s.alarm u cls inst raised t) :=
  h.alarmT

/-! ### Ports -/

theorem Reaches.receive (h : Reaches σ s₀ s) {n : Nat} {f : RxFrame} : Reaches σ s₀ (s.receive n f) := by
  unfold State.receive
  split
  · exact h.count
  · exact h.setPort

theorem execFrameReceived_reaches (h : Reaches (.moving true) s₀ s) {dt port : Nat} {frame : RxFrame} :
    NextReaches s₀ (execFrameReceived dt port frame s) :=
  Reaches.next (.ite h.advance.receive h.advance)

theorem Reaches.toManagement (h : Reaches σ s₀ s) {n stamp : Nat} {data : List Byte} : Reaches σ s₀ (s.toManagement n stamp data) :=
  .ite h.setRing.count.emit.raiseIrq h.count

theorem Reaches.poisonOn (h : Reaches σ s₀ s) {bad : Bool} : Reaches σ s₀ (s.poisonOn bad) :=
  .ite h.setCtl h

theorem Reaches.takeSteered (h : Reaches σ s₀ s) {n d stamp : Nat} {l : List Byte} : Reaches σ s₀ (s.takeSteered n d stamp l) := by
  unfold State.takeSteered
  dsimp only
  split
  · exact (Reaches.iteFst h h.takeItem).toManagement
  · split
    · exact (Reaches.iteFst h h.takeItem).count.emit.poisonOn.bufferPacket
    · exact (Reaches.iteFst h h.takeItem).count.emit.sendFrames'
    · exact (Reaches.iteFst h h.takeItem).count.emit

theorem Reaches.steerFrame (h : Reaches σ s₀ s) {n stamp : Nat} {l : List Byte} {rest : List (Nat × List Byte)} :
    Reaches σ s₀ (s.steerFrame n stamp l rest) :=
  h.setPort.count.count.takeSteered

theorem execRxFrameSteer_reaches (h : Reaches (.moving true) s₀ s) {dt port : Nat} : NextReaches s₀ (execRxFrameSteer dt port s) := by
  unfold execRxFrameSteer
  refine Reaches.next ?_
  split
  · exact .ite h.advance.steerFrame h.advance
  · exact h.advance

theorem Reaches.reassembled (h : Reaches σ s₀ s) {r : Reassembly} : Reaches σ s₀ (s.reassembled r) :=
  .ite h.poisonOn.bufferPacket h.toManagement

theorem Reaches.setReasm (h : Reaches σ s₀ s) {l : List Reassembly} : Reaches σ s₀ (s.setReasm l) :=
  h.setCtl

theorem Reaches.addFragment (h : Reaches σ s₀ s) {f : Fragment} {bad : Bool} : Reaches σ s₀ (s.addFragment f bad) := by
  unfold State.addFragment
  dsimp only
  split
  · exact .ite h.setReasm.reassembled h.setReasm
  · exact .ite (.ite h.reassembled h.setReasm) h.count

theorem execFragmentReceived_reaches (h : Reaches (.moving true) s₀ s) {dt : Nat} {frag : Fragment} :
    NextReaches s₀ (execFragmentReceived dt frag s) :=
  Reaches.next (.ite h.advance.takeItem.addFragment h.advance)

theorem Reaches.dropStale (h : Reaches σ s₀ s) : Reaches σ s₀ s.dropStale :=
  h.setCtl.foldl fun h => h.count

theorem execReassemblyTimeout_reaches (h : Reaches (.moving true) s₀ s) {dt : Nat} : NextReaches s₀ (execReassemblyTimeout dt s) :=
  h.advance.dropStale.next

theorem Reaches.emitMsg (h : Reaches σ s₀ s) {x : TxItem} : Reaches σ s₀ (s.emitMsg x) := by
  unfold State.emitMsg
  split
  · exact .ite h.emit h
  · exact h

theorem Reaches.frameSent (h : Reaches σ s₀ s) {n : Nat} {x : TxItem} : Reaches σ s₀ (s.frameSent n x) := by
  unfold State.frameSent
  extract_lets _ s₁
  have h₁ : Reaches σ s₀ s₁ := (Reaches.ite h.count.count.emit.count h.count.count.emit).emitMsg
  split
  · exact .ite h₁.completeSend h₁
  · exact h₁

theorem Reaches.finishTx (h : Reaches σ s₀ s) {n : Nat} : Reaches σ s₀ (s.finishTx n) := by
  unfold State.finishTx
  split
  · exact h
  · dsimp only
    refine .startTx ?_
    split
    · exact h.setPort.takeItem.count.setPort
    · exact h.setPort.takeItem.frameSent

theorem execTxFrame_reaches (h : Reaches (.moving true) s₀ s) {dt port : Nat} : NextReaches s₀ (execTxFrame dt port s) :=
  Reaches.next (.ite h.advance.finishTx h.advance)

theorem Reaches.queueSend (h : Reaches σ s₀ s) {n ring : Nat} {tsReq tso first : Bool} {l : List (List Byte)} :
    Reaches σ s₀ (s.queueSend n ring tsReq tso first l) := by
  induction l generalizing s first with
  | nil => exact h
  | cons f l ih => exact ih h.queueTx

theorem Reaches.txSend (h : Reaches σ s₀ s) {ring : Nat} : Reaches σ s₀ (s.txSend ring) := by
  unfold State.txSend
  dsimp only
  split
  · exact h
  · split
    · exact h.setRing.count.completeSend
    · exact .ite h.setRing.queueSend h.setRing.count.completeSend

theorem execTxSend_reaches (h : Reaches (.moving true) s₀ s) {dt ring : Nat} : NextReaches s₀ (execTxSend dt ring s) :=
  Reaches.next (.ite h.advance.txSend h.advance)

theorem Reaches.phyWrite (h : Reaches σ s₀ s) {n register value : Nat} : Reaches σ s₀ (s.phyWrite n register value) :=
  h.emit

theorem Reaches.bringUp (h : Reaches σ s₀ s) {n : Nat} : Reaches σ s₀ (s.bringUp n) :=
  .ite h.phyWrite.phyWrite.emit.phyWrite.setPort h

theorem Reaches.dropQueued (h : Reaches σ s₀ s) {n status : Nat} : Reaches σ s₀ (s.dropQueued n status) :=
  h.setPort.count.foldl fun h => h.completeSend

theorem Reaches.linkDown (h : Reaches σ s₀ s) {n : Nat} : Reaches σ s₀ (s.linkDown n) :=
  .ite h.setPort.count.dropQueued h

theorem Reaches.linkUp (h : Reaches σ s₀ s) {n : Nat} {st : PhyStatus} : Reaches σ s₀ (s.linkUp n st) :=
  .ite h (.ite (.ite h.linkDown h.linkDown.setPort.count) (.ite h.setPort h))

theorem execLinkDown_reaches (h : Reaches (.moving true) s₀ s) {dt port : Nat} : NextReaches s₀ (execLinkDown dt port s) :=
  Reaches.next (.ite h.advance.linkDown h.advance)

theorem execLinkUp_reaches (h : Reaches (.moving true) s₀ s) {dt port : Nat} {status : PhyStatus} :
    NextReaches s₀ (execLinkUp dt port status s) :=
  Reaches.next (.ite h.advance.linkUp h.advance)

theorem Reaches.phyPoll (h : Reaches σ s₀ s) {n : Nat} {st : PhyStatus} : Reaches σ s₀ (s.phyPoll n st) :=
  .ite h.setPort.linkUp h.setPort.linkDown.setPort

theorem execPhyStatusPoll_reaches (h : Reaches (.moving true) s₀ s) {dt port : Nat} {status : PhyStatus} :
    NextReaches s₀ (execPhyStatusPoll dt port status s) :=
  Reaches.next (.ite h.advance.phyPoll h.advance)

theorem Reaches.shift (h : Reaches σ s₀ s) {n : Nat} {down : Bool} : Reaches σ s₀ (s.shift n down) :=
  h.setPort.count.logEv.linkDown.bringUp

theorem Reaches.utilisation (h : Reaches σ s₀ s) {n bits : Nat} : Reaches σ s₀ (s.utilisation n bits) :=
  .ite (.ite h.setPort.shift h.setPort) (.ite (.ite h.setPort.shift h.setPort.setPort) h.setPort.setPort)

theorem execDownshiftWindow_reaches (h : Reaches (.moving true) s₀ s) {dt port rxBits txBits : Nat} :
    NextReaches s₀ (execDownshiftWindow dt port rxBits txBits s) :=
  Reaches.next (.ite h.advance.utilisation h.advance)

theorem execDownshiftLinkTimeout_reaches (h : Reaches (.moving true) s₀ s) {dt port : Nat} :
    NextReaches s₀ (execDownshiftLinkTimeout dt port s) :=
  Reaches.next (.ite h.advance.shift.setPort h.advance)

theorem Reaches.portsReset (h : Reaches σ s₀ s) : Reaches σ s₀ s.portsReset :=
  h.foldl fun h => (Reaches.ite h.count h).setPort.foldl fun h => h.completeSend

theorem Reaches.portCommit (h : Reaches σ s₀ s) {n : Nat} {mode pct : Bool} : Reaches σ s₀ (s.portCommit n mode pct) := by
  unfold State.portCommit
  extract_lets _ s₁
  have h₁ : Reaches σ s₀ s₁ := .ite h.linkDown.setPort.bringUp h
  exact .ite (.ite h₁.setPort.shift h₁.setPort) h₁

/-! ### Sources -/

theorem Reaches.setSrc (h : Reaches σ s₀ s) {n : Nat} {x : Src} : Reaches σ s₀ (s.setSrc n x) :=
  h.set

theorem Reaches.maqWrite (h : Reaches σ s₀ s) {key session : Nat} {v : MaqVal} : Reaches σ s₀ (s.maqWrite key session v).1 :=
  .iteFst h (.iteFst h h.setCtl)

theorem Reaches.setPod (h : Reaches σ s₀ s) {n : Nat} {p : Pod} : Reaches σ s₀ (s.setPod n p) :=
  h.set

/-! ### Alignment -/

theorem Reaches.setSlot (h : Reaches σ s₀ s) {p g : Nat} {x : Slot} : Reaches σ s₀ (s.setSlot p g x) :=
  h.setPod

theorem Reaches.countPod (h : Reaches σ s₀ s) {id p n : Nat} : Reaches σ s₀ (s.countPod id p n) :=
  .ite h h.count2

theorem Reaches.openSlot (h : Reaches σ s₀ s) {p g : Nat} : Reaches σ s₀ (s.openSlot p g) :=
  h.setSlot

theorem Reaches.dropEgress (h : Reaches σ s₀ s) {p n k : Nat} : Reaches σ s₀ (s.dropEgress p n k) :=
  h.countPod.count

theorem Reaches.oafTo (h : Reaches σ s₀ s) {p : Nat} {w : List Word} {o : OafOut} : Reaches σ s₀ (s.oafTo p w o) :=
  .ite (h.foldl fun h => h.sendUdp) h.dropEgress

theorem Reaches.podDataTo (h : Reaches σ s₀ s) {p : Nat} {d : NoticeDest} {named : Bool} {o : OafOut} :
    Reaches σ s₀ (s.podDataTo p d named o) :=
  h.foldl fun h => .ite h.noticeTo.countPod h.noticeTo

theorem Reaches.c37To (h : Reaches σ s₀ s) {p d : Nat} {w : List Word} {kind : Nat} {bytes : List Byte} :
    Reaches σ s₀ (s.c37To p d w kind bytes) := by
  unfold State.c37To
  dsimp only
  refine .ite h.dropEgress (.ite h.sendUdp ?_)
  split
  · exact h.sendTcp
  · exact h

theorem Reaches.editionTo (h : Reaches σ s₀ s) {p g : Nat} {x : Slot} {n : Nat} {o : OafOut} {d : Nat} :
    Reaches σ s₀ (s.editionTo p g x n o d) := by
  unfold State.editionTo
  dsimp only
  split
  · exact .ite h.oafTo (.ite h.c37To h)
  · exact .ite h.countPod (.ite h.c37To h)
  · exact h.podDataTo
  · exact h

theorem Reaches.sendLayout (h : Reaches σ s₀ s) {p : Nat} {d : PodDef} {commit : Bool} : Reaches σ s₀ (s.sendLayout p d commit) := by
  unfold State.sendLayout
  extract_lets o s₁
  have h₁ : Reaches σ s₀ s₁ := by
    dsimp only [s₁]
    refine h.foldl fun h => ?_
    split
    · exact .ite h.oafTo h
    · exact h.podDataTo
    · exact h
  exact .ite (h₁.foldl fun h => h.podDataTo) h₁

theorem Reaches.layoutFirst (h : Reaches σ s₀ s) {p : Nat} {d : PodDef} : Reaches σ s₀ (s.layoutFirst p d) :=
  .ite h.sendLayout.setPod h

theorem Reaches.egress (h : Reaches σ s₀ s) {p g : Nat} {x : Slot} {n cause : Nat} : Reaches σ s₀ (s.egress p g x n cause) :=
  .ite (((Reaches.ite h.layoutFirst h).foldl fun h => h.editionTo).foldl fun h => h.podDataTo) h

theorem Reaches.slotEvent (h : Reaches σ s₀ s) {p g : Nat} {x : Slot} {n cause : Nat} {issued : Bool} :
    Reaches σ s₀ (s.slotEvent p g x n cause issued) :=
  .ite h.notify h

theorem Reaches.freeStore (h : Reaches σ s₀ s) {x : Slot} : Reaches σ s₀ (s.freeStore x) :=
  .ite h h.set

theorem Reaches.feedTrackers (h : Reaches σ s₀ s) {p g : Nat} {x : Slot} : Reaches σ s₀ (s.feedTrackers p g x) :=
  h.foldl fun h => .ite h.set h

theorem Reaches.feedLogic (h : Reaches σ s₀ s) {p g : Nat} {x : Slot} : Reaches σ s₀ (s.feedLogic p g x) := by
  unfold State.feedLogic
  dsimp only
  split
  · exact .ite h.setPod h
  · exact h.setPod

theorem Reaches.closeSlotCore (h : Reaches σ s₀ s) {p g cause : Nat} : Reaches σ s₀ (s.closeSlotCore p g cause) := by
  unfold State.closeSlotCore
  split
  · exact h
  · refine .ite h ?_
    extract_lets pod es soon missing y _ _ _ s₁
    have h₁ : Reaches σ s₀ s₁ := h.freeStore.setSlot.setPod.countPod.countPod
    exact .ite (.ite h₁.countPod h₁) (Reaches.ite h₁.countPod h₁).feedTrackers.feedLogic.egress.slotEvent

theorem Reaches.deepReady (h : Reaches σ s₀ s) {p g : Nat} : Reaches σ s₀ (s.deepReady p g) := by
  unfold State.deepReady
  split
  · exact h
  · exact .ite h.takeWords.setSlot.feedTrackers.feedLogic.egress.slotEvent h

theorem Reaches.revise (h : Reaches σ s₀ s) {p g : Nat} {x : Slot} {cause : Nat} {final : Bool} :
    Reaches σ s₀ (s.revise p g x cause final) :=
  h.setSlot.countPod.egress.slotEvent

theorem Reaches.finish (h : Reaches σ s₀ s) {p g cause : Nat} : Reaches σ s₀ (s.finish p g cause) := by
  unfold State.finish
  split
  · exact h
  · exact .ite h (.ite h.setSlot.slotEvent h.revise)

theorem Reaches.drainFinals (h : Reaches σ s₀ s) : Reaches σ s₀ s.drainFinals :=
  .ite (h.foldl fun h => h.finish) h

theorem Reaches.closeSlot (h : Reaches σ s₀ s) {p g cause : Nat} : Reaches σ s₀ (s.closeSlot p g cause) :=
  h.closeSlotCore.drainFinals

theorem Reaches.releaseSlot (h : Reaches σ s₀ s) {p g : Nat} : Reaches σ s₀ (s.releaseSlot p g) := by
  unfold State.releaseSlot
  split
  · exact h
  · exact h.setPod.set

theorem Reaches.pruneDests (h : Reaches σ s₀ s) {p : Nat} : Reaches σ s₀ (s.pruneDests p) :=
  h.set.foldl fun h => h.tcpEnd

theorem execSlotOpen_reaches (h : Reaches (.moving true) s₀ s) {dt pod slot : Nat} : NextReaches s₀ (execSlotOpen dt pod slot s) :=
  Reaches.next (.ite h.advance.openSlot.setPod h.advance)

theorem execSlotCloseAtNominal_reaches (h : Reaches (.moving true) s₀ s) {dt pod slot : Nat} :
    NextReaches s₀ (execSlotCloseAtNominal dt pod slot s) := by
  unfold execSlotCloseAtNominal
  refine Reaches.next ?_
  split
  · exact .ite h.advance.closeSlot h.advance
  · exact h.advance

theorem execSlotDeadlineTick_reaches (h : Reaches (.moving true) s₀ s) {dt pod slot : Nat} :
    NextReaches s₀ (execSlotDeadlineTick dt pod slot s) := by
  unfold execSlotDeadlineTick
  refine Reaches.next ?_
  split
  · exact .ite h.advance.closeSlot h.advance
  · exact h.advance

theorem Reaches.batchExpiry (h : Reaches σ s₀ s) {p g cause : Nat} : Reaches σ s₀ (s.batchExpiry p g cause) := by
  unfold State.batchExpiry
  split
  · exact .ite h h.revise.drainFinals
  · exact h

theorem execRevBatchExpiry_reaches (h : Reaches (.moving true) s₀ s) {dt pod slot : Nat} :
    NextReaches s₀ (execRevBatchExpiry dt pod slot s) := by
  unfold execRevBatchExpiry
  refine Reaches.next ?_
  split
  · exact .ite h.advance.batchExpiry h.advance
  · exact h.advance

theorem execRevHorizonExpiry_reaches (h : Reaches (.moving true) s₀ s) {dt pod slot : Nat} :
    NextReaches s₀ (execRevHorizonExpiry dt pod slot s) := by
  unfold execRevHorizonExpiry
  refine Reaches.next ?_
  split
  · exact .ite h.advance.finish h.advance
  · exact h.advance

theorem execSlotRelease_reaches (h : Reaches (.moving true) s₀ s) {dt pod slot : Nat} :
    NextReaches s₀ (execSlotRelease dt pod slot s) := by
  unfold execSlotRelease
  refine Reaches.next ?_
  split
  · exact .ite h.advance.releaseSlot.pruneDests h.advance
  · exact h.advance

theorem execDeepWaitEditionReady_reaches (h : Reaches (.moving true) s₀ s) {dt pod slot : Nat} :
    NextReaches s₀ (execDeepWaitEditionReady dt pod slot s) :=
  h.advance.deepReady.next

theorem execOafLayoutRepeat_reaches (h : Reaches (.moving true) s₀ s) {dt pod : Nat} : NextReaches s₀ (execOafLayoutRepeat dt pod s) :=
  Reaches.next (.ite h.advance.setPod h.advance)

theorem Reaches.pressureClose (h : Reaches σ s₀ s) {p g : Nat} : Reaches σ s₀ (s.pressureClose p g) :=
  .ite h.closeSlot.countPod.setPod.logEv h.closeSlot.countPod.setPod

theorem Reaches.makeRoom (h : Reaches σ s₀ s) : Reaches σ s₀ s.makeRoom := by
  unfold State.makeRoom
  refine .ite ?_ h
  split
  · exact h.pressureClose
  · exact h

theorem Reaches.lateEntry (h : Reaches σ s₀ s) {p g pos : Nat} {x : Slot} {e : Entry} {free : Bool} :
    Reaches σ s₀ (s.lateEntry p g pos x e free) :=
  .ite h.countPod (.ite h.countPod (.ite h.countPod (.ite h.countPod h.setSlot.set.countPod)))

theorem Reaches.deepTake (h : Reaches σ s₀ s) {arrival : Nat} : Reaches σ s₀ (s.deepTake arrival).1 :=
  h.set

theorem Reaches.openEntry (h : Reaches σ s₀ s) {p g pos stamp : Nat} {x : Slot} {e : Entry} :
    Reaches σ s₀ (s.openEntry p g pos stamp x e) :=
  .ite h.setSlot h.setSlot.set

theorem Reaches.putEntry (h : Reaches σ s₀ s) {p g pos stamp arrival : Nat} {e : Entry} :
    Reaches σ s₀ (s.putEntry p g pos stamp arrival e) := by
  unfold State.putEntry
  split
  · exact h.countPod
  · refine .ite h.lateEntry (.ite h.countPod (.ite (.ite h.set.openEntry h.set.countPod) ?_))
    dsimp only
    split
    · exact h.makeRoom
    · exact .ite h.makeRoom.lateEntry h.makeRoom.openEntry

theorem Reaches.memberArrives (h : Reaches σ s₀ s) {p g src : Nat} : Reaches σ s₀ (s.memberArrives p g src) := by
  unfold State.memberArrives
  split
  · exact h
  · exact .ite h (.ite h.setSlot.closeSlot h.setSlot)

theorem Reaches.putFrame (h : Reaches σ s₀ s) {p g src stamp arrival : Nat} {d : PodDef} {es : List InEntry} :
    Reaches σ s₀ (s.putFrame p g src stamp arrival d es) := by
  unfold State.putFrame
  dsimp only
  refine .memberArrives (h.foldl fun h => ?_)
  split
  · exact h.putEntry
  · exact h

theorem Reaches.placeInPod (h : Reaches σ s₀ s) {p src stamp arrival : Nat} {es : List InEntry} :
    Reaches σ s₀ (s.placeInPod p src stamp arrival es) := by
  unfold State.placeInPod
  extract_lets held d
  clear_value held
  cases held with
  | some z => exact .ite h.countPod h.putFrame
  | none =>
    refine .ite ?_ h
    generalize d.members.find? (fun m => m.src == src) = found
    generalize gridNear d.rate d.tolNs stamp = near
    cases found with
    | none => exact h
    | some m =>
      cases near with
      | none => exact .ite h.countPod h
      | some g => exact .ite h.countPod (.ite h.openSlot.putFrame h.countPod)

theorem Reaches.placeFrame (h : Reaches σ s₀ s) {src stamp arrival : Nat} {es : List InEntry} :
    Reaches σ s₀ (s.placeFrame src stamp arrival es) :=
  h.foldl fun h => .ite h.placeInPod h

theorem Reaches.gooseFuture (h : Reaches σ s₀ s) {src n : Nat} : Reaches σ s₀ (s.gooseFuture src n) :=
  h.foldl fun h => .ite h.countPod h

theorem Reaches.gooseLate (h : Reaches σ s₀ s) {src arrival : Nat} {m : GooseMsg} : Reaches σ s₀ (s.gooseLate src arrival m) := by
  unfold State.gooseLate
  refine h.foldl fun h => h.foldl fun h => ?_
  split
  · exact h.lateEntry
  · exact h

theorem Reaches.fireStep (h : Reaches σ s₀ s) {t : Nat × Nat × Nat} : Reaches σ s₀ (s.fireStep t) := by
  unfold State.fireStep
  split
  · exact h
  · exact .ite h.closeSlot (.ite h.batchExpiry (.ite h.finish h))

theorem Reaches.stepSlots (h : Reaches σ s₀ s) {p a b : Nat} : Reaches σ s₀ (s.stepSlots p a b) :=
  .ite (h.foldl fun h => .ite h.openSlot.closeSlot h).setPod h

theorem Reaches.alnStep (h : Reaches σ s₀ s) {a b : Nat} : Reaches σ s₀ (s.alnStep a b) :=
  .ite ((h.foldl fun h => h.fireStep).foldl fun h => h.stepSlots) h.set

theorem Reaches.reform (h : Reaches σ s₀ s) {p g : Nat} {x : Slot} : Reaches σ s₀ (s.reform p g x) := by
  refine h.freeStore.setPod.foldl fun {s e} h => ?_
  split
  · refine .ite ?_ h.countPod
    extract_lets d
    split
    · extract_lets s₁
      have opened : Reaches σ s₀ s₁ := .ite h.openSlot h
      split
      · refine .ite opened.lateEntry (.ite opened.countPod ?_)
        extract_lets s₂
        split
        · exact opened.openEntry.setSlot
        · exact opened.openEntry
      · exact opened.countPod
    · exact h.countPod
  · exact h

/-- But for the pod's commit number and boundary, a commit that touches a pod leaves the configuration. -/
theorem podCommit_reaches (s : State) (p : Nat) (commit : Word) (boundary : Nat) : Reaches σ { s with ctl := { s.ctl with
    cfg := { s.ctl.cfg with pods := s.ctl.cfg.pods.set p (commit, boundary) } } } (s.podCommit p commit boundary) :=
  ((Reaches.ite (Reaches.refl _).setPod (Reaches.refl _).setPod.setCtl).foldl fun h => h.reform).pruneDests

theorem Reaches.podCommit (h : Reaches (.moving true) s₀ s) {p : Nat} {commit : Word} {boundary : Nat} :
    Reaches (.moving true) s₀ (s.podCommit p commit boundary) :=
  (h.config _ rfl).trans (podCommit_reaches s p commit boundary)

theorem Reaches.alnFinalise (h : Reaches σ s₀ s) : Reaches σ s₀ s.alnFinalise :=
  ((h.foldl fun h => h.closeSlotCore).foldl fun h => h.deepReady).foldl fun h => h.finish

theorem Reaches.alnClear (h : Reaches σ s₀ s) : Reaches σ s₀ s.alnClear :=
  (h.foldl fun h => h.releaseSlot).set

theorem Reaches.c37SendConfig (h : Reaches σ s₀ s) {p k : Nat} {d : PodDef} {three : Bool} :
    Reaches σ s₀ (s.c37SendConfig p k d three) :=
  .ite h.countPod (h.foldl fun h => h.c37To)

theorem Reaches.c37Command (h : Reaches σ s₀ s) {i : Nat} {peer : Peer} {command : Nat} :
    Reaches σ s₀ (s.c37Command i peer command) := by
  unfold State.c37Command
  dsimp only
  split
  · exact h
  · split
    · exact h.set
    · exact h.set
    · exact h.c37SendConfig
    · exact h.c37SendConfig
    · exact h.countPod

theorem execC37OutputCommand_reaches (h : Reaches (.moving true) s₀ s) {dt dest : Nat} {peer : Peer} {command : Nat} :
    NextReaches s₀ (execC37OutputCommand dt dest peer command s) :=
  Reaches.next (.ite h.advance.c37Command h.advance)

theorem execPodReadSlot_reaches (h : Reaches (.moving true) s₀ s) {dt : Nat} {q : Req} : NextReaches s₀ (execPodReadSlot dt q s) :=
  Reaches.next (h.advance.serve fun h => h)

theorem Reaches.podSubscribe (h : Reaches σ s₀ s) {q : Req} : Reaches σ s₀ (s.podSubscribe q).1 := by
  unfold State.podSubscribe
  dsimp only
  split
  · exact h
  · exact .iteFst h (.iteFst (.iteFst h (.iteFst h (.ite h.setCtl.podDataTo h.setCtl))) h.setCtl)

theorem execPodSubscribe_reaches (h : Reaches (.moving true) s₀ s) {dt : Nat} {q : Req} : NextReaches s₀ (execPodSubscribe dt q s) :=
  Reaches.next (h.advance.serve fun h => h.podSubscribe)

/-! ### Topology -/

theorem Reaches.setBranch (h : Reaches σ s₀ s) {b : Nat} {x : Branch} : Reaches σ s₀ (s.setBranch b x) :=
  h.set

theorem Reaches.startRecompute (h : Reaches σ s₀ s) {stamp : Nat} {test : Bool} : Reaches σ s₀ (s.startRecompute stamp test) :=
  h.set

theorem Reaches.needRecompute (h : Reaches σ s₀ s) {stamp : Nat} {test : Bool} : Reaches σ s₀ (s.needRecompute stamp test) :=
  .ite h.set h.startRecompute

theorem Reaches.branchSet (h : Reaches σ s₀ s) {b : Nat} {closed : Bool} {stamp : Nat} {test : Bool} :
    Reaches σ s₀ (s.branchSet b closed stamp test) :=
  .ite h h.setBranch.count.needRecompute

theorem Reaches.branchBad (h : Reaches σ s₀ s) {b : Nat} {d : BranchDef} {since : Option Nat} {stamp : Nat} {test : Bool} :
    Reaches σ s₀ (s.branchBad b d since stamp test) :=
  .ite h.setBranch h.setBranch.count.alarmT.branchSet

theorem Reaches.branchReport (h : Reaches σ s₀ s) {b : Nat} {d : BranchDef} {r : StatusRep} {stamp : Nat} {test : Bool} :
    Reaches σ s₀ (s.branchReport b d r stamp test) := by
  unfold State.branchReport
  dsimp only
  split
  · exact h.setBranch.alarmT.branchSet
  · exact .ite h h.setBranch
  · exact h.branchBad

theorem Reaches.gooseReports (h : Reaches σ s₀ s) {src stamp : Nat} {m : GooseMsg} : Reaches σ s₀ (s.gooseReports src stamp m) := by
  unfold State.gooseReports
  refine .ite (h.foldl fun h => ?_) h
  split
  · exact h.branchReport
  · exact h

theorem Reaches.gooseDies (h : Reaches σ s₀ s) {src : Nat} : Reaches σ s₀ (s.gooseDies src) :=
  .ite (h.foldl fun h => h.branchReport) h

theorem Reaches.gooseLives (h : Reaches σ s₀ s) {src : Nat} : Reaches σ s₀ (s.gooseLives src) := by
  unfold State.gooseLives
  split
  · exact h.gooseReports
  · exact h

theorem Reaches.setStation (h : Reaches σ s₀ s) {src : Nat} {x : Station} : Reaches σ s₀ (s.setStation src x) :=
  h.set

theorem Reaches.stationLost (h : Reaches σ s₀ s) {src : Nat} : Reaches σ s₀ (s.stationLost src) :=
  .ite h h.setStation.logEv.alarm

theorem Reaches.stationBack (h : Reaches σ s₀ s) {src : Nat} : Reaches σ s₀ (s.stationBack src) :=
  .ite h.setStation h

/-! ### Ingress -/

theorem Reaches.countSrc (h : Reaches σ s₀ s) {id src n : Nat} : Reaches σ s₀ (s.countSrc id src n) :=
  .ite h h.count2

theorem Reaches.latency (h : Reaches σ s₀ s) {src : Nat} {lag : ℤ} : Reaches σ s₀ (s.latency src lag) :=
  .ite (Reaches.ite h.countSrc h).setSrc (Reaches.ite h.countSrc h).setSrc

theorem Reaches.shownAlive (h : Reaches σ s₀ s) {src : Nat} : Reaches σ s₀ (s.shownAlive src) :=
  h.setSrc.alarm.stationBack

theorem Reaches.revive (h : Reaches σ s₀ s) {src : Nat} : Reaches σ s₀ (s.revive src) :=
  .ite h.shownAlive.gooseLives h.shownAlive

theorem Reaches.rateTake (h : Reaches σ s₀ s) {src rate arrival n : Nat} : Reaches σ s₀ (s.rateTake src rate arrival n).1 :=
  h.setSrc

theorem Reaches.accept (h : Reaches σ s₀ s) {src stamp arrival : Nat} {groups : List (Nat × List InEntry)} :
    Reaches σ s₀ (s.accept src stamp arrival groups) :=
  .ite (h.latency.setSrc.shownAlive.countSrc.countSrc.foldl fun h => h.placeFrame) h.latency.setSrc.shownAlive.countSrc

theorem Reaches.checkAccept (h : Reaches σ s₀ s) {src : Nat} {d : SrcDef} {stamp arrival n : Nat}
      {groups : List (Nat × List InEntry)} :
    Reaches σ s₀ (s.checkAccept src d stamp arrival n groups).1 :=
  .iteFst (h.countSrc (id := 779) (src := src) (n := 1)) (.iteFst h.accept
    (.iteFst h.setSrc.accept (h.setSrc.countSrc (id := 780) (src := src) (n := 1))))

theorem Reaches.unknown (h : Reaches σ s₀ s) {kind port : Nat} {key : List Byte} {arrival : Nat} :
    Reaches σ s₀ (s.unknown kind port key arrival) :=
  .ite h.count.set h.count

theorem Reaches.mismatch (h : Reaches σ s₀ s) {src : Nat} : Reaches σ s₀ (s.mismatch src) :=
  h.setSrc.countSrc

theorem Reaches.c37SendTo (h : Reaches σ s₀ s) {src : Nat} {d : SrcDef} {command : Nat} :
    Reaches σ s₀ (s.c37SendTo src d command) := by
  unfold State.c37SendTo
  dsimp only
  refine .ite ?_ ?_
  · split
    · exact h.sendTcp
    · exact h
  · split
    · exact h.sendUdp
    · exact h

theorem Reaches.c37Send (h : Reaches σ s₀ s) {src command : Nat} : Reaches σ s₀ (s.c37Send src command) := by
  unfold State.c37Send
  split
  · exact h.c37SendTo
  · exact h

theorem Reaches.askCfg (h : Reaches σ s₀ s) {src : Nat} {d : SrcDef} : Reaches σ s₀ (s.askCfg src d) :=
  h.setSrc.c37Send

theorem Reaches.c37Take (h : Reaches σ s₀ s) {arrival : Nat} {l : List Byte} {bad : Nat → Nat → Bool} {src : Nat} {d : SrcDef} :
    Reaches σ s₀ (s.c37Take arrival l bad src d) := by
  unfold State.c37Take
  dsimp only
  refine .ite h.countSrc (.ite h.countSrc ?_)
  split
  · exact h.countSrc
  · split
    · exact h.mismatch
    · split
      · exact h.countSrc
      · exact h.checkAccept

theorem Reaches.c37Data (h : Reaches σ s₀ s) {port arrival station : Nat} {l : List Byte} {bad : Nat → Nat → Bool} :
    Reaches σ s₀ (s.c37Data port arrival station l bad) :=
  (h.foldl fun h => h.unknown).foldl fun h => .ite h.c37Take.askCfg h.c37Take

theorem Reaches.setCfg (h : Reaches σ s₀ s) {c : C37Cfg} {src : Nat} {d : SrcDef} : Reaches σ s₀ (s.setCfg c src d) :=
  .ite h.setSrc.c37Send h.setSrc

theorem Reaches.cfgJoin (h : Reaches σ s₀ s) {idcode station idx : Nat} {body : List Byte} :
    Reaches σ s₀ (s.cfgJoin idcode station idx body).1 := by
  unfold State.cfgJoin
  dsimp only
  refine .iteFst h.set (.iteFst h.set (.iteFst h.set ?_))
  split
  · exact h
  · exact .iteFst h.set (.iteFst h.set h.set)

theorem Reaches.c37CfgFrame (h : Reaches σ s₀ s) {port arrival station : Nat} {l : List Byte} :
    Reaches σ s₀ (s.c37CfgFrame port arrival station l) := by
  unfold State.c37CfgFrame
  dsimp only
  refine .ite h.unknown (.ite (h.foldl fun h => h.countSrc) ?_)
  split
  · next e => exact .of_eq e (.iteFst h.cfgJoin h)
  · next e => exact (Reaches.of_eq e (.iteFst h.cfgJoin h)).foldl fun h => h.countSrc
  · next e =>
      have h₁ : Reaches σ s₀ _ := .of_eq e (.iteFst h.cfgJoin h)
      split
      · exact h₁.foldl fun h => h.countSrc
      · exact h₁.foldl fun h => .ite h.setCfg h.countSrc

theorem Reaches.c37Receive (h : Reaches σ s₀ s) {port arrival station : Nat} {l : List Byte} {bad : Nat → Nat → Bool} :
    Reaches σ s₀ (s.c37Receive port arrival station l bad) := by
  unfold State.c37Receive
  refine .ite h.count (.ite h.count ?_)
  split
  · exact h.c37Data
  · exact h.c37CfgFrame
  · exact h.c37CfgFrame
  · exact h
  · exact h.count

theorem Reaches.keepSv (h : Reaches σ s₀ s) {src : Nat} {gs : List (Nat × List InEntry)} : Reaches σ s₀ (s.keepSv src gs) :=
  h.setSrc

theorem Reaches.svTake (h : Reaches σ s₀ s) {port arrival : Nat} {f : SvFrame} {bad : Nat → Nat → Bool} {svid : List Byte} :
    Reaches σ s₀ (s.svTake port arrival f bad svid) := by
  unfold State.svTake
  dsimp only
  split
  · exact h.unknown
  · refine .ite h.countSrc (.ite h.countSrc (.ite h.mismatch (.ite h.countSrc ?_)))
    split
    · exact h
    · exact .ite h.checkAccept.keepSv h.checkAccept

theorem Reaches.svFrame (h : Reaches σ s₀ s) {port arrival : Nat} {l : List Byte} {bad : Nat → Nat → Bool} :
    Reaches σ s₀ (s.svFrame port arrival l bad) := by
  unfold State.svFrame
  split
  · exact h.count
  · exact h.foldl fun h => h.svTake

theorem Reaches.keepGoose (h : Reaches σ s₀ s) {src : Nat} {m : GooseMsg} : Reaches σ s₀ (s.keepGoose src m) :=
  h.setSrc

theorem Reaches.gooseNew (h : Reaches σ s₀ s) {arrival : Nat} {f : GooseFrame} {src : Nat} {values : List InEntry} :
    Reaches σ s₀ (s.gooseNew arrival f src values) := by
  unfold State.gooseNew
  extract_lets _ x m far _ _ y _ s₁
  have h₁ : Reaches σ s₀ s₁ := (Reaches.ite h.setSrc.latency h.setSrc.latency.keepGoose).setSrc.shownAlive.gooseReports
  exact .ite
      h.countSrc
      (.ite h.countSrc (.ite (.ite h₁.countSrc.countSrc.gooseFuture h₁.countSrc.countSrc.gooseLate) h₁.countSrc))

theorem Reaches.gooseFrame (h : Reaches σ s₀ s) {port arrival : Nat} {l : List Byte} {bad : Nat → Nat → Bool} :
    Reaches σ s₀ (s.gooseFrame port arrival l bad) := by
  unfold State.gooseFrame
  split
  · exact h.count
  · split
    · exact h.unknown
    · exact .ite h.countSrc (.ite h.countSrc (.ite h.countSrc (.ite h.mismatch (.ite h.setSrc.revive h.gooseNew))))

theorem Reaches.ocfTake {acc : State × List InEntry} (h : Reaches σ s₀ acc.1) {d : SrcDef} {src : Nat} {qual : Half}
      {e : OcfEntry × Bool} :
    Reaches σ s₀ (State.ocfTake d src qual acc e).1 := by
  obtain ⟨s, es⟩ := acc
  unfold State.ocfTake
  dsimp only
  split
  · exact Reaches.countSrc h (id := 781) (src := src) (n := 1)
  · refine .iteFst (Reaches.countSrc h (id := 782) (src := src) (n := 1)) ?_
    split <;> exact h

theorem Reaches.ocfFrame (h : Reaches σ s₀ s) {port arrival : Nat} {l : List Byte} {bad : Nat → Nat → Bool} :
    Reaches σ s₀ (s.ocfFrame port arrival l bad) := by
  unfold State.ocfFrame
  refine .ite h.count ?_
  extract_lets id
  split
  · exact h.count
  · exact h
  · split
    · exact h.unknown
    · refine .ite h.countSrc (.ite h.countSrc (.ite h.countSrc ?_))
      extract_lets
      refine .ite h.countSrc ?_
      split
      · next s₁ fit e =>
        have taken : Reaches σ s₀ s₁ := .of_eq e h.rateTake
        refine .ite taken.countSrc ?_
        split
        · next s₂ es e => exact .accept (.of_eq e (taken.foldlFst fun g => g.ocfTake))

theorem Reaches.classify (h : Reaches σ s₀ s) {port arrival : Nat} {bad : Nat → Nat → Bool} {x : IngFrame} :
    Reaches σ s₀ (s.classify port arrival bad x) := by
  unfold State.classify
  split
  · exact h.ocfFrame
  · exact h.c37Receive
  · exact h.svFrame
  · exact h.gooseFrame

theorem Reaches.ingress (h : Reaches σ s₀ s) {port arrival : Nat} {frame : IngFrame} : Reaches σ s₀ (s.ingress port arrival frame) :=
  .ite h.takeWords.classify h

theorem execIngressFrame_reaches (h : Reaches (.moving true) s₀ s) {dt port arrival : Nat} {frame : IngFrame} :
    NextReaches s₀ (execIngressFrame dt port arrival frame s) :=
  h.advance.ingress.next

theorem execC37CfgReceived_reaches (h : Reaches (.moving true) s₀ s) {dt : Nat} {rx : C37Rx} :
    NextReaches s₀ (execC37CfgReceived dt rx s) :=
  h.advance.ingress.next

theorem execCfgRetryTimer_reaches (h : Reaches (.moving true) s₀ s) {dt src : Nat} : NextReaches s₀ (execCfgRetryTimer dt src s) := by
  unfold execCfgRetryTimer
  refine Reaches.next ?_
  split
  · exact .ite h.advance.askCfg h.advance
  · exact h.advance

theorem execC37ReconnectTimer_reaches (h : Reaches (.moving true) s₀ s) {dt src : Nat} {connected : Bool} :
    NextReaches s₀ (execC37ReconnectTimer dt src connected s) := by
  unfold execC37ReconnectTimer
  refine Reaches.next ?_
  dsimp only
  split
  · refine .ite ?_ h.advance
    split
    · exact h.advance.setSrc.setCtl
    · exact h.advance.setSrc
  · exact h.advance

theorem Reaches.sourceDies (h : Reaches σ s₀ s) {src : Nat} : Reaches σ s₀ (s.sourceDies src) :=
  h.setSrc.logEv.countSrc.alarm.gooseDies.stationLost

theorem execSourceDead_reaches (h : Reaches (.moving true) s₀ s) {dt src : Nat} : NextReaches s₀ (execSourceDead dt src s) := by
  unfold execSourceDead
  refine Reaches.next ?_
  split
  · exact .ite h.advance.sourceDies h.advance
  · exact h.advance

theorem execSourceDefine_reaches (h : Reaches (.moving true) s₀ s) {dt : Nat} {q : Req} :
    NextReaches s₀ (execSourceDefine dt q s) := by
  unfold execSourceDefine
  refine Reaches.next (h.advance.serve fun h => ?_)
  dsimp only
  split
  · exact h.maqWrite
  · exact h

theorem execSourceRemove_reaches (h : Reaches (.moving true) s₀ s) {dt : Nat} {q : Req} : NextReaches s₀ (execSourceRemove dt q s) :=
  Reaches.next (h.advance.serve fun h => .iteFst h (.iteFst h (.iteFst h h.maqWrite)))

theorem execSourceQuery_reaches (h : Reaches (.moving true) s₀ s) {dt : Nat} {q : Req} : NextReaches s₀ (execSourceQuery dt q s) :=
  Reaches.next (h.advance.serve fun h => h)

theorem execCatalogueRead_reaches (h : Reaches (.moving true) s₀ s) {dt : Nat} {q : Req} : NextReaches s₀ (execCatalogueRead dt q s) :=
  Reaches.next (h.advance.serve fun h => .iteFst h (.iteFst h h))

/-! ### Oscillation -/

theorem Reaches.setFd (h : Reaches σ s₀ s) {d : Nat} {x : Fd} : Reaches σ s₀ (s.setFd d x) :=
  h.set

theorem Reaches.refreshAlm (h : Reaches σ s₀ s) : Reaches σ s₀ s.refreshAlm :=
  h.set

theorem Reaches.fdJudge (h : Reaches σ s₀ s) {d g : Nat} : Reaches σ s₀ (s.fdJudge d g) :=
  (Reaches.ite (Reaches.ite h.setFd.count2.alarmT h).setFd.alarmT (.ite h.setFd.count2.alarmT h)).refreshAlm

theorem Reaches.fdValid (h : Reaches σ s₀ s) {d g : Nat} {e : Entry} : Reaches σ s₀ (s.fdValid d g e) :=
  .ite (Reaches.ite h.alarmT h).setFd (Reaches.ite h.alarmT h).setFd.fdJudge

theorem Reaches.fdBad (h : Reaches σ s₀ s) {d g n : Nat} {test : Bool} : Reaches σ s₀ (s.fdBad d g n test) :=
  .ite h.setFd.alarmT.count2.alarmT.refreshAlm h.setFd

theorem Reaches.fdTake (h : Reaches σ s₀ s) {d g : Nat} {x : Slot} : Reaches σ s₀ (s.fdTake d g x) :=
  .ite h (.ite h.count2 (.ite (Reaches.ite h.setFd h.setFd.fdBad).count2.fdBad (Reaches.ite h.setFd h.setFd.fdBad).fdValid))

theorem Reaches.fdFirst (h : Reaches σ s₀ s) {d p slot : Nat} : Reaches σ s₀ (s.fdFirst d p slot) := by
  unfold State.fdFirst
  refine .ite ?_ h
  split
  · exact .ite h.fdTake h
  · exact h

theorem execFdEvaluate_reaches (h : Reaches (.moving true) s₀ s) {dt det slot : Nat} : NextReaches s₀ (execFdEvaluate dt det slot s) :=
  Reaches.next (.ite h.advance.fdFirst h.advance)

theorem Reaches.fdCommit (h : Reaches σ s₀ s) {d boundary : Nat} : Reaches σ s₀ (s.fdCommit d boundary) :=
  h.alarmT.alarmT.setFd.refreshAlm

theorem Reaches.setMt (h : Reaches σ s₀ s) {t : Nat} {x : Mt} : Reaches σ s₀ (s.setMt t x) :=
  h.set

theorem Reaches.modeUpdate (h : Reaches σ s₀ s) {t g : Nat} : Reaches σ s₀ (s.modeUpdate t g) :=
  h.notify

theorem Reaches.clearModes (h : Reaches σ s₀ s) {t g : Nat} : Reaches σ s₀ (s.clearModes t g) :=
  h.foldl fun h => h.foldl fun h => h.alarmT

theorem Reaches.mtRestart (h : Reaches σ s₀ s) {t fromGtf : Nat} : Reaches σ s₀ (s.mtRestart t fromGtf) :=
  h.setMt

theorem Reaches.mtSuspend (h : Reaches σ s₀ s) {t g : Nat} : Reaches σ s₀ (s.mtSuspend t g) :=
  .ite h.clearModes.setMt.alarmT.count2.modeUpdate (.ite h.alarmT.setMt.modeUpdate h)

theorem Reaches.mtSignal (h : Reaches σ s₀ s) {t g i k role : Nat} {e : Option Entry} :
    Reaches σ s₀ (s.mtSignal t g i k role e).1 := by
  unfold State.mtSignal
  dsimp only
  split
  · exact h.setMt
  · exact .iteFst (.iteFst h.setMt h.setMt.count2) h.setMt

theorem Reaches.mtFold (h : Reaches σ s₀ s) {t : Nat} : Reaches σ s₀ (s.mtFold t) :=
  h.setMt

theorem Reaches.mtSample (h : Reaches σ s₀ s) {t g : Nat} : Reaches σ s₀ (s.mtSample t g) :=
  h.setMt.mtFold

theorem Reaches.mtRead (h : Reaches σ s₀ s) {t g : Nat} : Reaches σ s₀ (s.mtRead t g) := by
  unfold State.mtRead
  extract_lets r d es _ sigs _ m test s₁ _ s₂
  have h₁ : Reaches σ s₀ s₁ := ((Reaches.ite h.count2 h).foldl fun h => h.mtSignal.setMt).setMt
  have h₁ : Reaches σ s₀ s₂ := (Reaches.ite h₁.mtSample h₁).mtSuspend
  exact .ite h₁.setMt.modeUpdate h₁

theorem execMtSlotRead_reaches (h : Reaches (.moving true) s₀ s) {dt tracker : Nat} : NextReaches s₀ (execMtSlotRead dt tracker s) :=
  Reaches.next (.ite h.advance.mtRead h.advance)

theorem Reaches.mtStart (h : Reaches σ s₀ s) {t : Nat} : Reaches σ s₀ (s.mtStart t) :=
  h.setMt.setMt

theorem execMtExtractionStart_reaches (h : Reaches (.moving true) s₀ s) {dt tracker : Nat} :
    NextReaches s₀ (execMtExtractionStart dt tracker s) :=
  Reaches.next (.ite (.ite h.advance.setMt.count2 h.advance.mtStart) h.advance)

theorem execMtSignalRejoin_reaches (h : Reaches (.moving true) s₀ s) {dt tracker signal : Nat} :
    NextReaches s₀ (execMtSignalRejoin dt tracker signal s) :=
  Reaches.next (.ite (.ite h.advance.setMt.mtSuspend h.advance.setMt) h.advance)

theorem Reaches.modeAlarms (h : Reaches σ s₀ s) {t g : Nat} {test : Bool} {cls : List Nat} {id : Nat} :
    Reaches σ s₀ (s.modeAlarms t g test cls id) :=
  (h.foldl fun h => h.alarmT).foldl fun h => h.alarmT

theorem Reaches.mtModes (h : Reaches σ s₀ s) {t : Nat} : Reaches σ s₀ (s.mtModes t) :=
  .ite
    ((h.setMt.foldl fun h => h.modeAlarms).foldl fun h => h.modeAlarms).modeUpdate
    ((h.setMt.foldl fun h => h.modeAlarms).foldl fun h => h.modeAlarms)

theorem execMtExtractionDone_reaches (h : Reaches (.moving true) s₀ s) {dt tracker : Nat} :
    NextReaches s₀ (execMtExtractionDone dt tracker s) :=
  Reaches.next (.ite
      (.ite h.advance.setMt.count2.mtModes (.ite h.advance.setMt.count2.modeUpdate h.advance.setMt.count2))
      h.advance)

theorem Reaches.mtCommit (h : Reaches σ s₀ s) {t boundary : Nat} : Reaches σ s₀ (s.mtCommit t boundary) :=
  .ite (.ite h.clearModes.alarmT.mtRestart.modeUpdate h.clearModes.alarmT.mtRestart) h.clearModes.alarmT.setMt

theorem Reaches.oscReset (h : Reaches σ s₀ s) : Reaches σ s₀ s.oscReset := by
  refine .refreshAlm ((h.foldl fun g => ?_).foldl fun g => ?_)
  · exact .ite g.alarmT.alarmT.setFd g
  · exact .ite g (.ite g.clearModes.alarmT.mtRestart.modeUpdate g.clearModes.alarmT.mtRestart)

/-! ### Armature -/

theorem Reaches.setNode (h : Reaches σ s₀ s) {n : Nat} {x : Node} : Reaches σ s₀ (s.setNode n x) :=
  h.set

theorem Reaches.setNet (h : Reaches σ s₀ s) {n : Nat} {x : Net} : Reaches σ s₀ (s.setNet n x) :=
  h.set

theorem Reaches.applyTopology (h : Reaches σ s₀ s) : Reaches σ s₀ s.applyTopology :=
  h.set.foldl fun h => h.setNode

theorem Reaches.islandUpdate (h : Reaches σ s₀ s) {n reason g : Nat} : Reaches σ s₀ (s.islandUpdate n reason g) :=
  h.notify

theorem Reaches.updateIslands (h : Reaches σ s₀ s) {g : Nat} {test : Bool} : Reaches σ s₀ (s.updateIslands g test).1 :=
  ((Reaches.ite h.set h.set.count).alarmT.foldl fun h => h.alarmT).foldl fun h => h.alarmT

theorem Reaches.reportIslands (h : Reaches σ s₀ s) {α : Type} [DecidableEq α] {old : List Island} {f : Island → α}
    {reason : Nat → Nat} {g : Nat}
    {always : Nat → Bool} : Reaches σ s₀ (s.reportIslands old f reason g always) :=
  h.foldl fun h => .ite h.islandUpdate h

theorem Reaches.recomputeDone (h : Reaches σ s₀ s) {fresh : Option Nat} : Reaches σ s₀ (s.recomputeDone fresh) := by
  unfold State.recomputeDone
  dsimp only
  split
  · exact h.set.count.startRecompute
  · exact .reportIslands h.set.count.applyTopology.updateIslands

theorem execArmRecomputeDone_reaches (h : Reaches (.moving true) s₀ s) {dt : Nat} : NextReaches s₀ (execArmRecomputeDone dt s) :=
  Reaches.next (.ite h.advance.recomputeDone h.advance)

theorem execArmStatusChange_reaches (h : Reaches (.moving true) s₀ s) {dt branch : Nat} {closed : Bool} {stamp : Nat} :
    NextReaches s₀ (execArmStatusChange dt branch closed stamp s) :=
  Reaches.next (.ite h.advance.branchSet h.advance)

theorem Reaches.dinReport (h : Reaches σ s₀ s) {land stamp : Nat} : Reaches σ s₀ (s.dinReport land stamp) :=
  h.foldl fun h => h.branchReport

theorem execDinStatusDebounced_reaches (h : Reaches (.moving true) s₀ s) {dt land : Nat} {level : Bool} {stamp : Nat} :
    NextReaches s₀ (execDinStatusDebounced dt land level stamp s) :=
  Reaches.next (.ite (.ite h.advance.set.dinReport h.advance.set) h.advance)

theorem execTravelTimeout_reaches (h : Reaches (.moving true) s₀ s) {dt branch : Nat} :
    NextReaches s₀ (execTravelTimeout dt branch s) := by
  unfold execTravelTimeout
  refine Reaches.next (.ite ?_ h.advance)
  split
  · exact h.advance.branchBad
  · exact h.advance

theorem Reaches.measNode (h : Reaches σ s₀ s) {n i : Nat} {valid : Bool} {m : MeasRes} : Reaches σ s₀ (s.measNode n i valid m) :=
  .ite h.setNode (.ite h.setNode h.setNode)

theorem Reaches.measure (h : Reaches σ s₀ s) {n g : Nat} {x : Slot} : Reaches σ s₀ (s.measure n g x) := by
  unfold State.measure
  extract_lets nodes ty
  split
  · exact h
  · extract_lets aOk _ _ _ others res ds _ _ _ _ s₁
    have measured : Reaches σ s₀ s₁ := by
      refine .ite ?_ ?_
      · exact .setNet (h.setNet.setNode.foldl fun g => g.measNode)
      · exact h.setNet.setNode.foldl fun g => g.setNode
    refine .ite (.ite (.islandUpdate ?_) ?_) (.ite measured.islandUpdate measured)
    · exact .reportIslands measured.updateIslands
    · exact .reportIslands measured.updateIslands

theorem Reaches.statusBits (h : Reaches σ s₀ s) {n g : Nat} {x : Slot} : Reaches σ s₀ (s.statusBits n g x) := by
  unfold State.statusBits
  dsimp only
  refine h.foldl fun h => ?_
  split
  · exact h.branchReport
  · exact h

theorem Reaches.armTake (h : Reaches σ s₀ s) {n g : Nat} {x : Slot} : Reaches σ s₀ (s.armTake n g x) := by
  unfold State.armTake
  refine .ite h.count ?_
  extract_lets _ _ before _ fresh _ _ s₁
  have h₁ : Reaches σ s₀ s₁ := .ite h.setNet.statusBits.set.needRecompute h.setNet.statusBits.set
  exact (Reaches.ite h₁ (.ite (Reaches.ite h₁.recomputeDone h₁).recomputeDone (.ite h₁.recomputeDone h₁))).measure

theorem execArmMeasEvaluate_reaches (h : Reaches (.moving true) s₀ s) {dt net slot : Nat} :
    NextReaches s₀ (execArmMeasEvaluate dt net slot s) := by
  unfold execArmMeasEvaluate
  refine Reaches.next (.ite ?_ h.advance)
  split
  · exact .ite h.advance.armTake h.advance
  · exact h.advance

theorem Reaches.setBal (h : Reaches σ s₀ s) {g : Nat} {x : Bal} : Reaches σ s₀ (s.setBal g x) :=
  h.set

theorem Reaches.balJudge (h : Reaches σ s₀ s) {g slot : Nat} {p : List DWord} : Reaches σ s₀ (s.balJudge g slot p) := by
  unfold State.balJudge
  extract_lets r tput tau x above below _ k up _ s₁
  have h₁ : Reaches σ s₀ s₁ := .ite h.setBal.count2.alarm h.setBal
  exact .ite h₁.setBal.alarm h₁

theorem Reaches.balFirst (h : Reaches σ s₀ s) {g p slot : Nat} : Reaches σ s₀ (s.balFirst g p slot) := by
  unfold State.balFirst
  split
  · refine .ite ?_ h
    dsimp only
    split
    · exact h.setSlot.balJudge
    · exact h.setSlot.count2
  · exact h

theorem execBalEvaluate_reaches (h : Reaches (.moving true) s₀ s) {dt group slot : Nat} :
    NextReaches s₀ (execBalEvaluate dt group slot s) :=
  Reaches.next (.ite h.advance.balFirst h.advance)

theorem Reaches.recNext (h : Reaches σ s₀ s) {g p slot : Nat} : Reaches σ s₀ (s.recNext g p slot) := by
  unfold State.recNext
  dsimp only
  split
  · exact .ite h.setBal h
  · exact h

theorem Reaches.balTake (h : Reaches σ s₀ s) {g p slot : Nat} : Reaches σ s₀ (s.balTake g p slot) := by
  unfold State.balTake
  split
  · exact .ite (.ite h.recNext.setSlot.setBal h.recNext) h
  · exact h

theorem Reaches.balTakeAll (h : Reaches σ s₀ s) {p slot : Nat} : Reaches σ s₀ (s.balTakeAll p slot) :=
  .ite (h.foldl fun h => h.balTake) h

theorem execBalRecSlot_reaches (h : Reaches (.moving true) s₀ s) {dt group slot : Nat} :
    NextReaches s₀ (execBalRecSlot dt group slot s) :=
  Reaches.next (.ite (h.advance.foldl fun h => h.balTake) h.advance)

theorem Reaches.recClose (h : Reaches σ s₀ s) {g : Nat} : Reaches σ s₀ (s.recClose g) := by
  unfold State.recClose
  dsimp only
  split
  · exact h
  · exact h.setBal.logEv

theorem Reaches.recFollow (h : Reaches σ s₀ s) {g stop : Nat} : Reaches σ s₀ (s.recFollow g stop) :=
  .ite h h.setBal

theorem execBalRecIntervalClose_reaches (h : Reaches (.moving true) s₀ s) {dt group : Nat} :
    NextReaches s₀ (execBalRecIntervalClose dt group s) := by
  unfold execBalRecIntervalClose
  refine Reaches.next (.ite ?_ h.advance)
  split
  · exact .ite h.advance.recClose.recFollow h.advance
  · exact h.advance

theorem Reaches.balCommit (h : Reaches σ s₀ s) {g boundary : Nat} : Reaches σ s₀ (s.balCommit g boundary) :=
  h.alarmT.setBal

theorem Reaches.branchStart (h : Reaches σ s₀ s) {b : Nat} {d : BranchDef} {stamp : Nat} : Reaches σ s₀ (s.branchStart b d stamp) := by
  unfold State.branchStart
  dsimp only
  split
  · exact h.setBranch
  · exact h.setBranch.branchReport
  · refine .ite h.setBranch.branchReport ?_
    split
    · exact h.setBranch.branchReport
    · exact h.setBranch
  · refine .ite h.setBranch.branchReport ?_
    split
    · exact h.setBranch.branchReport
    · exact h.setBranch
  · exact h.setBranch.setBranch

theorem Reaches.armStart (h : Reaches σ s₀ s) : Reaches σ s₀ s.armStart :=
  (h.foldl fun h => h.branchStart).set.needRecompute.foldl fun h => .ite h h.setBal

theorem Reaches.armReset (h : Reaches σ s₀ s) : Reaches σ s₀ s.armReset :=
  ((h.foldl fun h => h.alarmT).foldl fun h => .ite (h.foldl fun h => h.recClose).setBal (h.foldl fun h => h.recClose)).set

theorem Reaches.armCommit (h : Reaches σ s₀ s) {branches nodes nets : List Nat} {boundary : Nat} :
    Reaches σ s₀ (s.armCommit branches nodes nets boundary) := by
  unfold State.armCommit
  refine .ite h ?_
  extract_lets _ _ s₁
  have h₁ : Reaches σ s₀ s₁ := by
    dsimp only [s₁]
    refine .foldl (.foldl (h.foldl fun h => ?_) fun h => h.setNode) fun h => h.setNet
    dsimp only
    split
    · exact h.alarmT.setBranch.branchStart
    · exact h.alarmT.setBranch
  exact .ite h₁.needRecompute h₁

/-! ### Filters -/

theorem Reaches.setFlt (h : Reaches σ s₀ s) {c : Nat} {x : Flt} : Reaches σ s₀ (s.setFlt c x) :=
  h.set

theorem Reaches.fltRestart (h : Reaches σ s₀ s) {c : Nat} : Reaches σ s₀ (s.fltRestart c) :=
  h.setFlt.count2

theorem Reaches.fltRestartAll (h : Reaches σ s₀ s) : Reaches σ s₀ s.fltRestartAll :=
  h.foldl fun h => h.fltRestart

theorem Reaches.fltRestartB (h : Reaches σ s₀ s) {c : Nat} : Reaches σ s₀ (s.fltRestartB c) :=
  h.setFlt

theorem Reaches.deliver (h : Reaches σ s₀ s) {c : Nat} {o : FltOut} : Reaches σ s₀ (s.deliver c o) :=
  .ite (.ite h.count h.count2) h.setFlt

theorem Reaches.fltTake (h : Reaches σ s₀ s) {c : Nat} {y : Sample} : Reaches σ s₀ (s.fltTake c y) := by
  unfold State.fltTake
  refine .ite ?_ h
  dsimp only
  split
  · exact h.setFlt.deliver
  · exact h.setFlt

theorem execFltBankSwap_reaches (h : Reaches (.moving true) s₀ s) {dt channel : Nat} :
    NextReaches s₀ (execFltBankSwap dt channel s) := by
  unfold execFltBankSwap
  refine Reaches.next (.ite ?_ h.advance)
  split
  · exact .ite h.advance.setFlt h.advance
  · exact h.advance

theorem Reaches.keepDwell (h : Reaches σ s₀ s) {input st : Nat} {mean : Option FltOut} : Reaches σ s₀ (s.keepDwell input st mean) :=
  .ite h h.setFlt

theorem Reaches.endDwell (h : Reaches σ s₀ s) {k a : Nat} : Reaches σ s₀ (s.endDwell k a) :=
  h.keepDwell

theorem Reaches.localReport (h : Reaches σ s₀ s) {src : Nat} {d : SrcDef} {tau : Nat} : Reaches σ s₀ (s.localReport src d tau) :=
  .ite h (.ite h.setSrc.count2 (Reaches.ite h.setSrc.set h.setSrc).accept)

theorem execLocalSourceReport_reaches (h : Reaches (.moving true) s₀ s) {dt src report : Nat} :
    NextReaches s₀ (execLocalSourceReport dt src report s) := by
  unfold execLocalSourceReport
  refine Reaches.next ?_
  split
  · exact .ite h.advance.localReport h.advance
  · exact h.advance

theorem Reaches.fltCommit (h : Reaches σ s₀ s) {channels : List Nat} : Reaches σ s₀ (s.fltCommit channels) :=
  h.foldl fun h => h.fltRestart

theorem Reaches.fltStep (h : Reaches σ s₀ s) {a b : Nat} : Reaches σ s₀ (s.fltStep a b) :=
  .ite (h.fltRestartAll.set.foldl fun h => h.setFlt) h.fltRestartAll.set

theorem Reaches.fltReset (h : Reaches σ s₀ s) : Reaches σ s₀ s.fltReset :=
  h.foldl fun h => h.setFlt

/-! ### Converters -/

theorem Reaches.setChan (h : Reaches σ s₀ s) {c : Nat} {x : Chan} : Reaches σ s₀ (s.setChan c x) :=
  h.set

theorem Reaches.avgDeliver (h : Reaches σ s₀ s) {c : Nat} {o : FltOut} : Reaches σ s₀ (s.avgDeliver c o) :=
  .ite h.count h.setChan

theorem Reaches.avgTake (h : Reaches σ s₀ s) {c : Nat} {y : Sample} : Reaches σ s₀ (s.avgTake c y) := by
  unfold State.avgTake
  dsimp only
  refine .ite h ?_
  split
  · exact .ite (.ite h.setChan.avgDeliver.count2 h.setChan.avgDeliver) h.setChan
  · exact h.setChan

theorem Reaches.takeSample (h : Reaches σ s₀ s) {c : Nat} {y : Sample} : Reaches σ s₀ (s.takeSample c y) :=
  h.avgTake.fltTake

theorem Reaches.refreshExc (h : Reaches σ s₀ s) : Reaches σ s₀ s.refreshExc :=
  (h.foldl fun h => .ite h h.emit).set

theorem Reaches.closeDwell (h : Reaches σ s₀ s) : Reaches σ s₀ s.closeDwell := by
  unfold State.closeDwell
  split
  · exact h.endDwell
  · exact h

theorem Reaches.cutDwell (h : Reaches σ s₀ s) : Reaches σ s₀ s.cutDwell := by
  unfold State.cutDwell
  split
  · exact h.keepDwell
  · exact h

theorem execAuxDwellStart_reaches (h : Reaches (.moving true) s₀ s) {dt : Nat} : NextReaches s₀ (execAuxDwellStart dt s) := by
  unfold execAuxDwellStart
  refine Reaches.next (.ite ?_ h.advance)
  split
  · exact .ite h.advance h.advance.closeDwell.set.refreshExc
  · exact h.advance

theorem Reaches.setOw (h : Reaches σ s₀ s) {land : Nat} {x : Ow} : Reaches σ s₀ (s.setOw land x) :=
  h.set

theorem Reaches.owChange (h : Reaches σ s₀ s) {land : Nat} {on : Bool} : Reaches σ s₀ (s.owChange land on) :=
  (Reaches.ite h.setOw.count2 h.setOw).logEv.alarm

theorem Reaches.owJudge (h : Reaches σ s₀ s) {land : Nat} {fails : Bool} : Reaches σ s₀ (s.owJudge land fails) :=
  .ite h.setOw.owChange (.ite h.setOw.owChange h.setOw)

theorem execOwChop_reaches (h : Reaches (.moving true) s₀ s) {dt land : Nat} {before chopped after : ℤ} :
    NextReaches s₀ (execOwChop dt land before chopped after s) := by
  unfold execOwChop
  extract_lets _ c a x b _ _ s₁ ca cb _ ch over_ _ q
  refine Reaches.next ?_
  have h₁ : Reaches (.moving true) s₀ s₁ := .ite h.advance.setOw.emit.count2 h.advance.setOw.emit
  exact .ite (Reaches.ite h₁ h₁.owJudge).setChan.count2.takeSample h.advance

theorem Reaches.sampleMain (h : Reaches σ s₀ s) {c : Nat} {code : ℤ} {poison : Bool} : Reaches σ s₀ (s.sampleMain c code poison) :=
  .ite h (Reaches.ite (Reaches.ite h.count2 h).setChan.set (Reaches.ite h.count2 h).setChan).takeSample

theorem Reaches.auxReplace (h : Reaches σ s₀ s) {y : Sample} : Reaches σ s₀ (s.auxReplace y) :=
  h.set.foldl fun h => h.count2.takeSample

theorem Reaches.auxFlush (h : Reaches σ s₀ s) {input : Nat} : Reaches σ s₀ (s.auxFlush input) := by
  unfold State.auxFlush
  split
  · exact h.auxReplace
  · exact h.set.count2

theorem Reaches.auxTake (h : Reaches σ s₀ s) {input : Nat} {last : Bool} {y : Sample} : Reaches σ s₀ (s.auxTake input last y) := by
  unfold State.auxTake
  extract_lets _ _ _ s₁
  have h₁ : Reaches σ s₀ s₁ := .ite h.set h.auxReplace.set.takeSample
  exact .ite h₁.auxFlush h₁

theorem Reaches.sampleAux (h : Reaches σ s₀ s) {code : ℤ} {poison : Bool} : Reaches σ s₀ (s.sampleAux code poison) := by
  unfold State.sampleAux
  split
  · exact h
  · extract_lets _ stop code hit _ last _ _ s₁
    have h₁ : Reaches σ s₀ s₁ := (Reaches.ite (.ite h.count2 h) (Reaches.ite h.count2 h).auxTake).set
    exact .ite h (.ite h₁.endDwell h₁)

theorem execSamplingInstant_reaches (h : Reaches (.moving true) s₀ s) {dt : Nat} {codes : List ℤ} :
    NextReaches s₀ (execSamplingInstant dt codes s) := by
  unfold execSamplingInstant
  refine Reaches.next (.ite (.refreshExc ?_) h.advance)
  split
  · exact (h.advance.takeWords.takeItem.foldl fun h => h.sampleMain).sampleAux
  · exact h.advance.takeWords.takeItem.foldl fun h => h.sampleMain

theorem Reaches.setSlice (h : Reaches σ s₀ s) {x v : Nat} : Reaches σ s₀ (s.setSlice x v) :=
  h.set

theorem Reaches.calStart (h : Reaches σ s₀ s) {x : Nat} : Reaches σ s₀ (s.calStart x) :=
  h.setSlice.set

theorem execCalCycleStart_reaches (h : Reaches (.moving true) s₀ s) {dt spare : Nat} : NextReaches s₀ (execCalCycleStart dt spare s) :=
  Reaches.next (.ite h.advance.calStart h.advance)

theorem Reaches.setCycle (h : Reaches σ s₀ s) {x : Nat} {c : Cal} : Reaches σ s₀ (s.setCycle x c) :=
  h.set

theorem Reaches.dropCycle (h : Reaches σ s₀ s) {x : Nat} : Reaches σ s₀ (s.dropCycle x) :=
  h.set

theorem Reaches.endCycle (h : Reaches σ s₀ s) {x : Nat} : Reaches σ s₀ (s.endCycle x) := by
  unfold State.endCycle
  split
  · exact .ite h.dropCycle.setSlice h.dropCycle.setSlice
  · exact h

theorem Reaches.handover (h : Reaches σ s₀ s) {x : Nat} {c : Cal} : Reaches σ s₀ (s.handover x c) :=
  h.setChan.setSlice.setSlice.setCycle

theorem Reaches.calFail (h : Reaches σ s₀ s) {c : Cal} {slice step : Nat} {dead : Bool} : Reaches σ s₀ (s.calFail c slice step dead) :=
  h.setMem.count2.logEv

theorem Reaches.sliceDies (h : Reaches σ s₀ s) {x : Nat} {c : Cal} : Reaches σ s₀ (s.sliceDies x c) :=
  h.dropCycle.setSlice.spareUsed

theorem Reaches.comparison (h : Reaches σ s₀ s) {x : Nat} {c : Cal} {usable : Nat} {mean max_ : ℤ} :
    Reaches σ s₀ (s.comparison x c usable mean max_) :=
  .ite
    (.ite h.setCycle h.endCycle.count2)
    (.ite
       (.ite h.handover h.setChan.setSlice.setSlice.dropCycle.count2)
       (.ite (.ite h.calFail.handover h.calFail.setSlice.setCycle) (.ite h.calFail.sliceDies h.calFail.setSlice.setCycle)))

theorem execCalComparisonDone_reaches (h : Reaches (.moving true) s₀ s) {dt spare usable : Nat} {meanDiff16 maxDiff16 : ℤ} :
    NextReaches s₀ (execCalComparisonDone dt spare usable meanDiff16 maxDiff16 s) := by
  unfold execCalComparisonDone
  refine Reaches.next ?_
  split
  · exact .ite h.advance.comparison h.advance
  · exact h.advance

theorem Reaches.calibrated (h : Reaches σ s₀ s) {x : Nat} {c : Cal} {slice : Nat} {off : ℤ} {gain : Word} :
    Reaches σ s₀ (s.calibrated x c slice off gain) :=
  .ite
    (.ite h.setMem.calFail.dropCycle.setSlice.spareUsed h.setMem.calFail.sliceDies)
    (.ite h.setMem.setMem.setSlice.setCycle h.setMem.setMem.setSlice.setCycle)

theorem execCalCalibrationDone_reaches (h : Reaches (.moving true) s₀ s) {dt slice : Nat} {offset16 : ℤ} {gainPpm : Word} :
    NextReaches s₀ (execCalCalibrationDone dt slice offset16 gainPpm s) := by
  unfold execCalCalibrationDone
  refine Reaches.next (.ite ?_ h.advance)
  split
  · exact h.advance.calibrated
  · exact h.advance

theorem Reaches.cnvCommit (h : Reaches σ s₀ s) {selGain preset avg : List Nat} {seq : Bool} :
    Reaches σ s₀ (s.cnvCommit selGain preset avg seq) := by
  unfold State.cnvCommit
  extract_lets _ s₁
  have h₁ : Reaches σ s₀ s₁ := (h.foldl fun h => h.endCycle).foldl fun h => h.setChan
  exact (Reaches.ite h₁.set.refreshExc h₁).fltCommit

theorem Reaches.cnvStep (h : Reaches σ s₀ s) {a b : Nat} : Reaches σ s₀ (s.cnvStep a b) :=
  (h.foldl fun h => h.setChan).cutDwell.set.fltStep

theorem Reaches.cnvStop (h : Reaches σ s₀ s) : Reaches σ s₀ s.cnvStop :=
  ((h.cutDwell.foldl fun h => h.endCycle).foldl fun h => h.setChan).set.refreshExc

/-! ### Capture -/

theorem Reaches.edges (h : Reaches σ s₀ s) {n : Nat} {row : CapRow} : Reaches σ s₀ (s.edges n row).1 := by
  unfold State.edges
  dsimp only
  refine h.foldlFst fun h => .iteFst ?_ h
  split
  · exact h.setRec
  · exact h

theorem Reaches.holdRow (h : Reaches σ s₀ s) {n : Nat} {row : CapRow} : Reaches σ s₀ (s.holdRow n row) :=
  h.setRec

theorem Reaches.appendRow (h : Reaches σ s₀ s) {n : Nat} {row : CapRow} : Reaches σ s₀ (s.appendRow n row) := by
  unfold State.appendRow
  dsimp only
  split
  · exact h.setRec.holdRow
  · exact h.setRec.holdRow
  · exact h.setRec.holdRow
  · split
    · exact h.setRec.setRec
    · exact h.setRec
  · exact h.setRec

theorem Reaches.settle (h : Reaches σ s₀ s) {n t : Nat} {causes : List Nat} : Reaches σ s₀ (s.settle n t causes) :=
  .ite h.setRec.capFires.endRecord h.setRec.capFires

theorem Reaches.newRow (h : Reaches σ s₀ s) {n : Nat} {row : CapRow} : Reaches σ s₀ (s.newRow n row) := by
  unfold State.newRow
  dsimp only
  exact (h.foldl fun h => h.appendRow.settle).appendRow.edges.settle

theorem Reaches.lateRow (h : Reaches σ s₀ s) {n : Nat} {row : CapRow} : Reaches σ s₀ (s.lateRow n row) := by
  unfold State.lateRow
  dsimp only
  exact .ite h.count2 (.ite h h.setRec.edges.settle)

theorem Reaches.loseRow (h : Reaches σ s₀ s) {n t : Nat} : Reaches σ s₀ (s.loseRow n t) :=
  .ite h.count2.setRec (.ite h.count2.setRec.endRecordTo h.count2.setRec.setRec)

theorem Reaches.rowTaken (h : Reaches σ s₀ s) {n t : Nat} : Reaches σ s₀ (s.rowTaken n t) := by
  unfold State.rowTaken
  refine .ite ?_ h
  split
  · exact h.setSlot
  · exact h

theorem Reaches.capTake (h : Reaches σ s₀ s) {recorder row : Nat} {full : Bool} : Reaches σ s₀ (s.capTake recorder row full) := by
  unfold State.capTake
  refine .ite ?_ h
  split
  · exact .ite h.rowTaken.lateRow (.ite h.rowTaken.loseRow h.rowTaken.newRow)
  · exact h

theorem execCapRow_reaches (h : Reaches (.moving true) s₀ s) {dt recorder row : Nat} {full : Bool} :
    NextReaches s₀ (execCapRow dt recorder row full s) :=
  h.advance.capTake.next

theorem execDinTriggerEdge_reaches (h : Reaches (.moving true) s₀ s) {dt land : Nat} {rising : Bool} {stamp : Nat} :
    NextReaches s₀ (execDinTriggerEdge dt land rising stamp s) :=
  Reaches.next (.ite h.advance.set.capEvent h.advance)

theorem execCapAutoTimeout_reaches (h : Reaches (.moving true) s₀ s) {dt recorder : Nat} :
    NextReaches s₀ (execCapAutoTimeout dt recorder s) :=
  Reaches.next (.ite h.advance.setRec.count2.capFire h.advance)

theorem execCapRearmEnd_reaches (h : Reaches (.moving true) s₀ s) {dt recorder : Nat} :
    NextReaches s₀ (execCapRearmEnd dt recorder s) :=
  Reaches.next (.ite h.advance.setRec h.advance)

theorem Reaches.capArm (h : Reaches σ s₀ s) {q : Req} : Reaches σ s₀ (s.capArm q).1 :=
  .iteFst h (.iteFst h (.iteFst h (.iteFst h (.iteFst h h.setRec))))

theorem Reaches.capStop (h : Reaches σ s₀ s) {n flags : Nat} : Reaches σ s₀ (s.capStop n flags) :=
  .ite h h.setRec.endRecordTo.setRec

theorem Reaches.capRelease (h : Reaches σ s₀ s) {q : Req} : Reaches σ s₀ (s.capRelease q).1 :=
  .iteFst h (.iteFst h (.iteFst h h.setRec))

theorem Reaches.capForce (h : Reaches σ s₀ s) {mask : Nat} : Reaches σ s₀ (s.capForce mask).1 :=
  h.foldl fun h => h.capFire

theorem execCapArm_reaches (h : Reaches (.moving true) s₀ s) {dt : Nat} {q : Req} : NextReaches s₀ (execCapArm dt q s) :=
  Reaches.next (h.advance.serve fun h => h.capArm)

theorem execCapDisarm_reaches (h : Reaches (.moving true) s₀ s) {dt : Nat} {q : Req} : NextReaches s₀ (execCapDisarm dt q s) :=
  Reaches.next (h.advance.serve fun h => h.capStop)

theorem execCapForce_reaches (h : Reaches (.moving true) s₀ s) {dt : Nat} {q : Req} : NextReaches s₀ (execCapForce dt q s) :=
  Reaches.next (h.advance.serve fun h => h.capForce)

theorem execCapRelease_reaches (h : Reaches (.moving true) s₀ s) {dt : Nat} {q : Req} : NextReaches s₀ (execCapRelease dt q s) :=
  Reaches.next (h.advance.serve fun h => h.capRelease)

theorem Reaches.readMark (h : Reaches σ s₀ s) {n m a k : Nat} : Reaches σ s₀ (s.readMark n m a k).1 := by
  unfold State.readMark
  dsimp only
  split
  · exact h
  · exact h.setRec.count2
  · exact .ite h h.setRec

theorem Reaches.capRead (h : Reaches σ s₀ s) {q : Req} : Reaches σ s₀ (s.capRead q).1 := by
  unfold State.capRead
  dsimp only
  refine .iteFst h (.iteFst h (.iteFst h ?_))
  split
  · exact .iteFst h h
  · split
    · exact .iteFst h h
    · exact h
  · split
    · exact .iteFst h h
    · exact h
  · exact .iteFst h h.readMark
  · exact .iteFst h h
  · exact h
  · exact h

theorem execCapRead_reaches (h : Reaches (.moving true) s₀ s) {dt : Nat} {q : Req} : NextReaches s₀ (execCapRead dt q s) :=
  Reaches.next (h.advance.serve fun h => h.capRead)

theorem Reaches.setRewind (h : Reaches σ s₀ s) {q : Req} : Reaches σ s₀ (s.setRewind q).1 :=
  .iteFst h (.iteFst h (.iteFst h.setRec (.iteFst h h.setRec)))

theorem execCapSetRewind_reaches (h : Reaches (.moving true) s₀ s) {dt : Nat} {q : Req} : NextReaches s₀ (execCapSetRewind dt q s) :=
  Reaches.next (h.advance.serve fun h => h.setRewind)

theorem execCapExport_reaches (h : Reaches (.moving true) s₀ s) {dt : Nat} {q : Req} : NextReaches s₀ (execCapExport dt q s) :=
  Reaches.next (h.advance.serve fun h => h)

theorem Reaches.capStopAll (h : Reaches σ s₀ s) {flags : Nat} : Reaches σ s₀ (s.capStopAll flags) :=
  h.foldl fun h => h.capStop

theorem Reaches.capReset (h : Reaches σ s₀ s) : Reaches σ s₀ s.capReset :=
  h.capStopAll.foldl fun h => h.setRec

theorem Reaches.capLose (h : Reaches σ s₀ s) : Reaches σ s₀ s.capLose :=
  h.set

theorem Reaches.capCommit (h : Reaches σ s₀ s) {n : Nat} {commit : Word} : Reaches σ s₀ (s.capCommit n commit) :=
  h.capStop.setRec

theorem Reaches.capStep (h : Reaches σ s₀ s) : Reaches σ s₀ s.capStep := by
  unfold State.capStep
  refine h.foldl fun h => ?_
  dsimp only
  split
  · exact h.setRec
  · exact .ite h h.setRec

/-! ### Conflict -/

theorem Reaches.withCfg (h : Reaches (.moving true) s₀ s) {c : Config} : Reaches (.moving true) s₀ (s.withCfg c) :=
  h.setAll

theorem Reaches.keepConflicts (h : Reaches σ s₀ s) {l : List Conflict} : Reaches σ s₀ (s.keepConflicts l) :=
  h.setCtl

/-! ### Logic -/

theorem Reaches.setLvar (h : Reaches σ s₀ s) {i : Nat} {x : LVal} : Reaches σ s₀ (s.setLvar i x) :=
  h.set

theorem Reaches.lgcRelease (h : Reaches σ s₀ s) : Reaches σ s₀ s.lgcRelease :=
  h.set

theorem Reaches.lgcHalt (h : Reaches σ s₀ s) {st : Nat} : Reaches σ s₀ (s.lgcHalt st) :=
  h.set.lgcRelease

theorem Reaches.stationsStart (h : Reaches σ s₀ s) {im : Image} : Reaches σ s₀ (s.stationsStart im) :=
  (h.foldl fun h => h.set.alarm).foldl fun h => .ite (.ite h.setStation.stationLost h.setStation) h.setStation

theorem Reaches.lgcStart (h : Reaches σ s₀ s) {im : Image} : Reaches σ s₀ (s.lgcStart im) :=
  h.set.stationsStart

theorem Reaches.lgcResume (h : Reaches σ s₀ s) : Reaches σ s₀ s.lgcResume := by
  unfold State.lgcResume
  split
  · exact .ite (.ite h.lgcStart h.set) h
  · exact h

theorem Reaches.lgcSuspend (h : Reaches σ s₀ s) : Reaches σ s₀ s.lgcSuspend :=
  .ite (.ite h.set h.lgcHalt) h

theorem Reaches.lgcReset (h : Reaches σ s₀ s) : Reaches σ s₀ s.lgcReset := by
  unfold State.lgcReset
  dsimp only
  split
  · exact (Reaches.ite h h.lgcHalt).set.answerLater
  · exact (Reaches.ite h h.lgcHalt).set

theorem Reaches.lgcBoot (h : Reaches σ s₀ s) : Reaches σ s₀ s.lgcBoot :=
  h.set

theorem Reaches.lgcApply (h : Reaches σ s₀ s) : Reaches σ s₀ s.lgcApply :=
  h.set

theorem Reaches.snapshot (h : Reaches σ s₀ s) {im : Image} : Reaches σ s₀ (s.snapshot im) :=
  h.foldl fun h => h.setLvar

theorem Reaches.blkEffect (h : Reaches σ s₀ s) {b : LBlock} {ty : Nat} {a i1 : Option LVal} {st : BlkSt} :
    Reaches σ s₀ (s.blkEffect b ty a i1 st) := by
  unfold State.blkEffect
  dsimp only
  split
  · exact .ite h h.alarm
  · exact .ite h.setStation h
  · exact h

theorem Reaches.runBlk (h : Reaches σ s₀ s) {im : Image} {dt j : Nat} {b : LBlock} : Reaches σ s₀ (s.runBlk im dt j b) := by
  unfold State.runBlk
  split
  · exact h
  · refine .ite h ?_
    extract_lets ty st a i1 z r v _ _ _ s₁
    have h₁ : Reaches σ s₀ s₁ := .ite h.blkEffect.set.count h.blkEffect.set
    exact .ite h₁ h₁.setLvar

theorem Reaches.lgcScan (h : Reaches σ s₀ s) : Reaches σ s₀ s.lgcScan := by
  unfold State.lgcScan
  dsimp only
  split
  · exact h.lgcApply
  · exact h.lgcApply.set.snapshot.foldl fun h => h.runBlk

theorem execLgcScan_reaches (h : Reaches (.moving true) s₀ s) {dt : Nat} : NextReaches s₀ (execLgcScan dt s) :=
  Reaches.next (.ite h.advance.lgcScan h.advance)

theorem Reaches.sendControl (h : Reaches σ s₀ s) {src : Nat} {points : AMap (Nat × Word)} :
    Reaches σ s₀ (s.sendControl src points) := by
  unfold State.sendControl
  split
  · exact h
  · exact h.setStation.sendUdp.count2

theorem Reaches.stationWrite (h : Reaches σ s₀ s) {src : Nat} : Reaches σ s₀ (s.stationWrite src) :=
  .ite h.setStation (.ite h.setStation.count2 h.setStation.sendControl)

theorem execStationRefresh_reaches (h : Reaches (.moving true) s₀ s) {dt src : Nat} : NextReaches s₀ (execStationRefresh dt src s) :=
  Reaches.next (.ite (.ite h.advance.count2 h.advance.sendControl) h.advance)

theorem Reaches.controlAck (h : Reaches σ s₀ s) {src seq code : Nat} : Reaches σ s₀ (s.controlAck src seq code) :=
  .ite h (.ite (.ite h.setStation.alarm h.setStation) h.setStation.count2.logEv)

theorem execStationControlAck_reaches (h : Reaches (.moving true) s₀ s) {dt port : Nat} {bytes : List Byte} :
    NextReaches s₀ (execStationControlAck dt port bytes s) := by
  unfold execStationControlAck
  refine Reaches.next ?_
  dsimp only
  refine .ite (.ite h.advance.takeWords.count (.ite h.advance.takeWords ?_)) h.advance
  split
  · exact h.advance.takeWords.unknown
  · exact .ite
        h.advance.takeWords.countSrc
        (.ite h.advance.takeWords.countSrc (.ite h.advance.takeWords.controlAck h.advance.takeWords))

theorem execStationAckTimeout_reaches (h : Reaches (.moving true) s₀ s) {dt src : Nat} :
    NextReaches s₀ (execStationAckTimeout dt src s) :=
  Reaches.next (.ite (.ite h.advance.stationLost h.advance.setStation.sendControl.count2) h.advance)

theorem Reaches.gooseSend (h : Reaches σ s₀ s) {im : Image} {cb : Nat} {g : GoosePub} {w : List Word} :
    Reaches σ s₀ (s.gooseSend im cb g w) :=
  (h.set.foldl fun h => h.sendFrames').count2

theorem Reaches.gooseWrite (h : Reaches σ s₀ s) {im : Image} {cb : Nat} : Reaches σ s₀ (s.gooseWrite im cb) :=
  .ite h (.ite h h.gooseSend)

theorem execGooseRepeat_reaches (h : Reaches (.moving true) s₀ s) {dt cb : Nat} : NextReaches s₀ (execGooseRepeat dt cb s) := by
  unfold execGooseRepeat
  refine Reaches.next ?_
  split
  · exact .ite h.advance.gooseSend h.advance
  · exact h.advance

theorem Reaches.lgcOverrun (h : Reaches σ s₀ s) : Reaches σ s₀ s.lgcOverrun :=
  .ite h.set.count.logEv.alarm h.set.count.logEv

theorem Reaches.lgcClean (h : Reaches σ s₀ s) : Reaches σ s₀ s.lgcClean :=
  .ite h.set.alarm h.set

theorem Reaches.lgcNext (h : Reaches σ s₀ s) {im : Image} : Reaches σ s₀ (s.lgcNext im) :=
  .ite (Reaches.ite h.lgcOverrun h.lgcClean).set.count (Reaches.ite h.lgcOverrun h.lgcClean).set

theorem Reaches.outputWrite (h : Reaches σ s₀ s) {im : Image} : Reaches σ s₀ (s.outputWrite im) := by
  unfold State.outputWrite
  extract_lets w ex new old _ _ _ _ _ _ s₁
  have h₁ : Reaches σ s₀ s₁ := ((h.set.count.capEvent.foldl fun h => h.gooseWrite).foldl fun h => h.stationWrite).lgcNext
  split
  · exact h₁.lgcHalt.answerLater
  · exact .ite h₁.lgcHalt h₁

theorem execLgcOutputWrite_reaches (h : Reaches (.moving true) s₀ s) {dt : Nat} : NextReaches s₀ (execLgcOutputWrite dt s) := by
  unfold execLgcOutputWrite
  refine Reaches.next ?_
  split
  · exact .ite h.advance.outputWrite h.advance
  · exact h.advance

theorem Reaches.lgcInstall (h : Reaches σ s₀ s) {im : Image} : Reaches σ s₀ (s.lgcInstall im) :=
  h.set

theorem Reaches.lgcLoad (h : Reaches σ s₀ s) {q : Req} : Reaches σ s₀ (s.lgcLoad q).1 := by
  unfold State.lgcLoad
  dsimp only
  refine .iteFst h (.iteFst h (.iteFst h (.iteFst h (.iteFst h.set (.iteFst h ?_)))))
  split
  · exact h.set
  · exact h.lgcInstall.set

theorem execLgcLoad_reaches (h : Reaches (.moving true) s₀ s) {dt : Nat} {q : Req} : NextReaches s₀ (execLgcLoad dt q s) :=
  Reaches.next (h.advance.serve fun h => h.lgcLoad)

theorem execLgcImageStored_reaches (h : Reaches (.moving true) s₀ s) {dt : Nat} : NextReaches s₀ (execLgcImageStored dt s) := by
  unfold execLgcImageStored
  refine Reaches.next ?_
  split
  · exact h.advance.set.answerLater
  · exact h.advance

theorem Reaches.lgcStartCmd (h : Reaches σ s₀ s) : Reaches σ s₀ s.lgcStartCmd.1 := by
  unfold State.lgcStartCmd
  split
  · exact h
  · exact .iteFst h (.iteFst h.lgcStart h.keepConflicts)

theorem execLgcStart_reaches (h : Reaches (.moving true) s₀ s) {dt : Nat} {q : Req} : NextReaches s₀ (execLgcStart dt q s) :=
  Reaches.next (h.advance.serve fun h => h.lgcStartCmd)

theorem Reaches.lgcStopCmd (h : Reaches σ s₀ s) {q : Req} : Reaches σ s₀ (s.lgcStopCmd q).1 :=
  .iteFst (.iteFst h h.set) (.iteFst h.lgcHalt h)

theorem execLgcStop_reaches (h : Reaches (.moving true) s₀ s) {dt : Nat} {q : Req} : NextReaches s₀ (execLgcStop dt q s) :=
  Reaches.next (h.advance.serve fun h => h.lgcStopCmd)

theorem Reaches.lgcForce (h : Reaches σ s₀ s) {q : Req} : Reaches σ s₀ (s.lgcForce q).1 := by
  unfold State.lgcForce
  split
  · exact h
  · dsimp only
    refine .iteFst h (.iteFst h ?_)
    split
    · exact h
    · exact .iteFst h h.set

theorem execLgcForce_reaches (h : Reaches (.moving true) s₀ s) {dt : Nat} {q : Req} : NextReaches s₀ (execLgcForce dt q s) :=
  Reaches.next (h.advance.serve fun h => h.lgcForce)

theorem Reaches.lgcReleaseCmd (h : Reaches σ s₀ s) {q : Req} : Reaches σ s₀ (s.lgcReleaseCmd q).1 := by
  unfold State.lgcReleaseCmd
  split
  · exact h
  · exact .iteFst h (.iteFst h h.set)

theorem execLgcRelease_reaches (h : Reaches (.moving true) s₀ s) {dt : Nat} {q : Req} : NextReaches s₀ (execLgcRelease dt q s) :=
  Reaches.next (h.advance.serve fun h => h.lgcReleaseCmd)

theorem Reaches.lgcChange (h : Reaches σ s₀ s) {q : Req} : Reaches σ s₀ (s.lgcChange q).1 := by
  unfold State.lgcChange
  split
  · exact h
  · dsimp only
    refine .iteFst h (.iteFst h ?_)
    split
    · exact h
    · exact h.set

theorem execLgcOnlineChange_reaches (h : Reaches (.moving true) s₀ s) {dt : Nat} {q : Req} :
    NextReaches s₀ (execLgcOnlineChange dt q s) :=
  Reaches.next (h.advance.serve fun h => h.lgcChange)

theorem execLgcReadVars_reaches (h : Reaches (.moving true) s₀ s) {dt : Nat} {q : Req} : NextReaches s₀ (execLgcReadVars dt q s) :=
  Reaches.next (h.advance.serve fun h => h)

/-! ### Custody -/

theorem Reaches.setPoint (h : Reaches σ s₀ s) {p : Nat} {x : Point} : Reaches σ s₀ (s.setPoint p x) :=
  h.set

theorem Reaches.register (h : Reaches σ s₀ s) {p n : Nat} {amount : Rat} : Reaches σ s₀ (s.register p n amount) :=
  h.set

theorem Reaches.gapRecords (h : Reaches σ s₀ s) {k p reason a ns : Nat} : Reaches σ s₀ (s.gapRecords k p reason a ns) := by
  induction k generalizing s a ns with
  | zero => exact h
  | succ k ih => exact ih h.logCus

theorem Reaches.gapRecord (h : Reaches σ s₀ s) {p reason a ns : Nat} : Reaches σ s₀ (s.gapRecord p reason a ns) :=
  h.gapRecords

theorem Reaches.gapNow (h : Reaches σ s₀ s) {p reason a b : Nat} : Reaches σ s₀ (s.gapNow p reason a b) :=
  .ite h.setPoint.gapRecord h

theorem Reaches.gapMerge (h : Reaches σ s₀ s) {p reason a b : Nat} : Reaches σ s₀ (s.gapMerge p reason a b) :=
  h.setPoint

theorem Reaches.gapClose (h : Reaches σ s₀ s) {p : Nat} : Reaches σ s₀ (s.gapClose p) := by
  unfold State.gapClose
  dsimp only
  split
  · exact h
  · exact h.gapRecord

theorem Reaches.boundaryFirst (h : Reaches σ s₀ s) {stop : Nat} : Reaches σ s₀ (s.boundaryFirst stop) :=
  .ite h h.taskWaits

theorem Reaches.absorb (h : Reaches σ s₀ s) {p stop : Nat} : Reaches σ s₀ (s.absorb p stop) := by
  unfold State.absorb
  dsimp only
  refine .setPoint (h.foldl fun h => ?_)
  split
  · exact h.gapMerge
  · exact h

theorem Reaches.closeInterval (h : Reaches σ s₀ s) {p stop flags : Nat} : Reaches σ s₀ (s.closeInterval p stop flags) :=
  .ite
    h.boundaryFirst.gapClose.set.setPoint.count2.absorb.prerequisiteDone
    h.boundaryFirst.gapClose.set.setPoint.count2.absorb.prerequisiteDone

theorem Reaches.boundaryDone (h : Reaches σ s₀ s) {t : Nat} : Reaches σ s₀ (s.boundaryDone t) := by
  unfold State.boundaryDone
  split
  · exact h
  · refine .ite h ?_
    extract_lets _ _ _ s₁
    have h₁ : Reaches σ s₀ s₁ := (Reaches.ite h.set h.set.logCus).alarm
    exact .ite h₁.taskRun.notify h₁

theorem Reaches.boundariesDone (h : Reaches σ s₀ s) : Reaches σ s₀ s.boundariesDone :=
  h.foldl fun h => h.boundaryDone

theorem Reaches.bookHole (h : Reaches σ s₀ s) {p stop : Nat} : Reaches σ s₀ (s.bookHole p stop) :=
  .ite h (Reaches.ite h h.gapMerge.count2.setPoint).setPoint

theorem Reaches.closeDue (h : Reaches σ s₀ s) {n p lim : Nat} : Reaches σ s₀ (s.closeDue n p lim) := by
  induction n generalizing s with
  | zero => exact h
  | succ n ih => exact .ite (ih h.bookHole.closeInterval) h

theorem Reaches.closeUpTo (h : Reaches σ s₀ s) {p lim : Nat} : Reaches σ s₀ (s.closeUpTo p lim) :=
  h.closeDue

theorem Reaches.directionDue (h : Reaches σ s₀ s) {p : Nat} : Reaches σ s₀ (s.directionDue p) := by
  unfold State.directionDue
  dsimp only
  split
  · exact h
  · exact .ite h h.setPoint.logCus.alarm.count2

theorem execDirectionDebounce_reaches (h : Reaches (.moving true) s₀ s) {dt point : Nat} :
    NextReaches s₀ (execDirectionDebounce dt point s) :=
  Reaches.next (.ite h.advance.directionDue h.advance)

theorem Reaches.endPending (h : Reaches σ s₀ s) {p a : Nat} : Reaches σ s₀ (s.endPending p a) :=
  h.setPoint.foldl fun h => h.gapNow

theorem Reaches.stepDone (h : Reaches σ s₀ s) {p stop : Nat} {y : Ahead} : Reaches σ s₀ (s.stepDone p stop y) :=
  h.setPoint

theorem Reaches.bookStep (h : Reaches σ s₀ s) {p a b : Nat} {qty : StepQty} : Reaches σ s₀ (s.bookStep p a b qty) := by
  unfold State.bookStep
  extract_lets _ _ s₁ x stop step late
  have h₁ : Reaches σ s₀ s₁ := (Reaches.ite h.directionDue h.directionDue.closeUpTo).endPending
  split
  · extract_lets _ s₁
    have h₁ : Reaches σ s₀ s₁ := (Reaches.ite h₁.setPoint.gapMerge h₁.setPoint).stepDone.count2
    exact .ite h₁.count2 h₁
  · exact h₁.setPoint.stepDone
  · extract_lets _ units _ s₁
    have h₁ : Reaches σ s₀ s₁ := (h₁.setPoint.foldl fun h => h.register).stepDone
    exact .ite h₁.count2 h₁

theorem Reaches.cusTake (h : Reaches σ s₀ s) {p g : Nat} {x : Slot} : Reaches σ s₀ (s.cusTake p g x) :=
  .ite h.bookStep.closeUpTo.boundariesDone h

theorem Reaches.cusTakeAll (h : Reaches σ s₀ s) {pod g : Nat} {x : Slot} : Reaches σ s₀ (s.cusTakeAll pod g x) :=
  h.foldl fun h => .ite h.cusTake h

theorem Reaches.windowStep (h : Reaches σ s₀ s) {p a : Nat} : Reaches σ s₀ (s.windowStep p a) := by
  unfold State.windowStep
  dsimp only
  split
  · exact h.bookStep
  · exact h.bookStep
  · exact h.bookStep.setPoint

theorem Reaches.windowsTo (h : Reaches σ s₀ s) {p stop : Nat} : Reaches σ s₀ (s.windowsTo p stop) :=
  h.foldl fun h => .ite h.windowStep h

theorem Reaches.cusWindow (h : Reaches σ s₀ s) {p a : Nat} : Reaches σ s₀ (s.cusWindow p a) :=
  .ite h.windowsTo h

theorem execCusStep_reaches (h : Reaches (.moving true) s₀ s) {dt point : Nat} {input : StepInput} :
    NextReaches s₀ (execCusStep dt point input s) := by
  unfold execCusStep
  refine Reaches.next ?_
  split
  · split
    · exact h.advance.cusTake
    · exact h.advance
  · exact .ite h.advance.bookStep h.advance
  · exact h.advance.cusWindow

theorem execDinPulseEdge_reaches (h : Reaches (.moving true) s₀ s) {dt land : Nat} {rising : Bool} :
    NextReaches s₀ (execDinPulseEdge dt land rising s) :=
  Reaches.next (.ite (h.advance.set.foldl fun h => .ite h.setPoint h) h.advance.set)

theorem execProfileBoundary_reaches (h : Reaches (.moving true) s₀ s) {dt minutes : Nat} :
    NextReaches s₀ (execProfileBoundary dt minutes s) :=
  Reaches.next (.ite (h.advance.foldl fun h => h.closeUpTo).boundariesDone h.advance)

theorem execProfileSigned_reaches (h : Reaches (.moving true) s₀ s) {dt point sequence : Nat} :
    NextReaches s₀ (execProfileSigned dt point sequence s) := by
  unfold execProfileSigned
  refine Reaches.next ?_
  split
  · exact h.advance
  · exact .ite h.advance.set.count h.advance.set

theorem Reaches.cusSave (h : Reaches σ s₀ s) {kind : Nat} {pfw : Option Nat} : Reaches σ s₀ (s.cusSave kind pfw) :=
  h.set.count.wearAdd

theorem execTotalsSave_reaches (h : Reaches (.moving true) s₀ s) {dt : Nat} : NextReaches s₀ (execTotalsSave dt s) :=
  Reaches.next (.ite h.advance.cusSave h.advance)

theorem Reaches.cusLoad (h : Reaches σ s₀ s) : Reaches σ s₀ s.cusLoad := by
  unfold State.cusLoad
  split
  · exact h
  · exact h.set.foldl fun h => h.setPoint

theorem Reaches.pointStart (h : Reaches σ s₀ s) {p : Nat} {partial_ : Bool} : Reaches σ s₀ (s.pointStart p partial_) :=
  h.setPoint

theorem Reaches.pointStop (h : Reaches σ s₀ s) {p : Nat} : Reaches σ s₀ (s.pointStop p) :=
  h.setPoint

theorem Reaches.cusCommit (h : Reaches σ s₀ s) : Reaches σ s₀ s.cusCommit :=
  h.foldl fun h => .ite (.ite h.setPoint h.pointStart) (.ite h.pointStop h)

theorem Reaches.pointChanged (h : Reaches σ s₀ s) {p : Nat} : Reaches σ s₀ (s.pointChanged p) :=
  .ite h h.setPoint

theorem Reaches.cusBoot (h : Reaches σ s₀ s) : Reaches σ s₀ s.cusBoot := by
  unfold State.cusBoot
  refine .set ?_
  split
  · refine .foldl (.foldl h.set.cusLoad fun g => ?_) fun g => g.setPoint
    exact .ite g.setPoint g
  · refine .foldl (.ite (.count (.foldl h.set.cusLoad fun g => ?_)) (.foldl h.set.cusLoad fun g => ?_)) fun g => ?_
    · exact .ite g.setPoint g
    · exact .ite g.setPoint g
    · extract_lets x last
      split
      · exact g.gapNow.setPoint
      all_goals exact g.setPoint

theorem Reaches.cusOff (h : Reaches σ s₀ s) : Reaches σ s₀ s.cusOff :=
  h.foldl fun h => .ite h.bookHole.setPoint h.bookHole

theorem Reaches.boundariesMissed (h : Reaches σ s₀ s) {per n a b : Nat} : Reaches σ s₀ (s.boundariesMissed per n a b) := by
  induction n generalizing s a with
  | zero => exact h
  | succ n ih => exact .ite (ih h.prerequisiteDone) h

theorem Reaches.cusOn (h : Reaches σ s₀ s) : Reaches σ s₀ s.cusOn :=
  h.foldl fun h => .ite h.gapClose.boundariesMissed.setPoint h.setPoint

theorem Reaches.cusReset (h : Reaches σ s₀ s) : Reaches σ s₀ s.cusReset :=
  (h.foldl fun h => h.taskDiscard).cusLoad.foldl fun h => h.setPoint

theorem Reaches.cusResume (h : Reaches σ s₀ s) : Reaches σ s₀ s.cusResume :=
  h.foldl fun h => h.endPending.setPoint

theorem Reaches.bookLost (h : Reaches σ s₀ s) {p reason a b : Nat} : Reaches σ s₀ (s.bookLost p reason a b) :=
  .ite h h.gapMerge.count2.setPoint

theorem Reaches.cusStepClock (h : Reaches σ s₀ s) {a b : Nat} : Reaches σ s₀ (s.cusStepClock a b) :=
  .ite
    ((h.foldl fun h =>
         h.cusTakeAll).foldl fun h =>
        .ite
          (Reaches.ite
              (Reaches.ite
                  (Reaches.ite (Reaches.ite h.windowsTo h).bookLost (.ite h.windowsTo h)).closeInterval
                  (.ite (Reaches.ite h.windowsTo h).bookLost (.ite h.windowsTo h))).bookLost
              (.ite
                 (Reaches.ite (Reaches.ite h.windowsTo h).bookLost (.ite h.windowsTo h)).closeInterval
                 (.ite (Reaches.ite h.windowsTo h).bookLost (.ite h.windowsTo h)))).setPoint
          (.ite
             (Reaches.ite
                 (Reaches.ite (Reaches.ite h.windowsTo h).bookLost (.ite h.windowsTo h)).closeInterval
                 (.ite (Reaches.ite h.windowsTo h).bookLost (.ite h.windowsTo h))).bookLost
             (.ite
                (Reaches.ite (Reaches.ite h.windowsTo h).bookLost (.ite h.windowsTo h)).closeInterval
                (.ite (Reaches.ite h.windowsTo h).bookLost (.ite h.windowsTo h))))).boundariesDone
    h

theorem Reaches.stepsEnd (h : Reaches σ s₀ s) {t : Nat} : Reaches σ s₀ (s.stepsEnd t) :=
  h.foldl fun h => .ite h.windowsTo h

theorem Reaches.cusFreeze (h : Reaches σ s₀ s) {t : Nat} : Reaches σ s₀ (s.cusFreeze t) :=
  .ite h h.set

theorem Reaches.cusUnfreeze (h : Reaches σ s₀ s) : Reaches σ s₀ s.cusUnfreeze :=
  (Reaches.ite (h.set.foldl fun h => h.gapNow) h).set

theorem execCusReadRegisters_reaches (h : Reaches (.moving true) s₀ s) {dt : Nat} {q : Req} :
    NextReaches s₀ (execCusReadRegisters dt q s) :=
  Reaches.next (h.advance.serve fun h => .iteFst h (.iteFst h (.iteFst h h)))

theorem execCusReadProfile_reaches (h : Reaches (.moving true) s₀ s) {dt : Nat} {q : Req} :
    NextReaches s₀ (execCusReadProfile dt q s) :=
  Reaches.next (h.advance.serve fun h => .iteFst h (.iteFst h (.iteFst h h.set.count)))

theorem execCusAckProfile_reaches (h : Reaches (.moving true) s₀ s) {dt : Nat} {q : Req} : NextReaches s₀ (execCusAckProfile dt q s) :=
  Reaches.next (h.advance.serve fun h => .iteFst h h.set)

theorem execCusReadLegalId_reaches (h : Reaches (.moving true) s₀ s) {dt : Nat} {q : Req} :
    NextReaches s₀ (execCusReadLegalId dt q s) :=
  Reaches.next (h.advance.serve fun h => .iteFst h h)

/-! ### Params -/

theorem Reaches.writeLive (h : Reaches (.moving true) s₀ s) {x : WItem} : Reaches (.moving true) s₀ (s.writeLive x) :=
  .ite h.set (.ite h.setPar.fltRestartB (.ite h.setPar.fltRestartB h.setPar))

theorem Reaches.writeItems (h : Reaches (.moving true) s₀ s) {live batch : Bool} {session : Nat} {l : List WItem} :
    Reaches (.moving true) s₀ (s.writeItems live batch session l).1 := by
  unfold State.writeItems
  dsimp only
  refine .iteFst h ?_
  split
  · exact h
  · exact .iteFst (h.foldl fun h => h.writeLive) (.iteFst h h.setCtl)

theorem Reaches.setFlash (h : Reaches σ s₀ s) {k : Nat} {x : FlashSlot} : Reaches σ s₀ (s.setFlash k x) :=
  h.setCtl

theorem Reaches.tcpFree (h : Reaches σ s₀ s) {use : Nat} {owners : List Nat} : Reaches σ s₀ (s.tcpFree use owners) :=
  h.foldl fun h => h.tcpEnd

theorem Reaches.sourceCommit (h : Reaches σ s₀ s) {r : State} {src b : Nat} : Reaches σ s₀ (r.sourceCommit s src b) := by
  unfold State.sourceCommit
  dsimp only
  split
  · refine .setSrc (.tcpFree ?_)
    split
    · exact .ite (Reaches.ite h.set.alarm h.set).c37SendTo (.ite h.set.alarm h.set)
    · exact .ite h.set.alarm h.set
  · exact .ite (Reaches.ite h.set.alarm h.set).tcpFree.setSrc.askCfg (Reaches.ite h.set.alarm h.set).tcpFree.setSrc

theorem Reaches.replay (h : Reaches (.moving true) s₀ s) {r : JournalRec} : Reaches (.moving true) s₀ (s.replay r) :=
  .ite h.withCfg h.withCfg

theorem Reaches.applyConfig (h : Reaches (.moving true) s₀ s) {c : Config} {b : Nat} {srcs : List Nat} {wrote : List (Nat × Nat)} :
    Reaches (.moving true) s₀ (s.applyConfig c b srcs wrote) := by
  unfold State.applyConfig
  extract_lets ch _ pods reshaped changed drains _ _ _ modes pcts _ _ banks _ _ fds _ mts _ _ bals s₁
  have h₁ : Reaches (.moving true) s₀ s₁ :=
    ((((((h.withCfg.set.foldl fun h =>
              h.sourceCommit).foldl fun h =>
             h.portCommit).cnvCommit.foldl fun h =>
           h.fltRestartB).foldl fun h =>
          h.podCommit).foldl fun h => h.fdCommit).foldl fun h => h.mtCommit).armCommit.foldl fun h => h.balCommit
  exact (Reaches.ite h₁.cusCommit h₁).foldl fun h => h.capCommit

theorem Reaches.offsetCommit (h : Reaches σ s₀ s) {maq : AMap MaqEntry} : Reaches σ s₀ (s.offsetCommit maq) := by
  unfold State.offsetCommit
  split
  · exact h.set
  · exact h

/-! ### Device -/

theorem Reaches.endSessions (h : Reaches σ s₀ s) : Reaches σ s₀ s.endSessions :=
  h.ended (List.nil_sublist _)

theorem Reaches.setDev (h : Reaches (.moving c) s₀ s) {d : DevState} : Reaches (.moving c) s₀ (s.setDev d) :=
  h.setPwr

theorem Reaches.feedFinals (h : Reaches σ s₀ s) : Reaches σ s₀ s.feedFinals :=
  h.foldl fun h => h.cusTakeAll.balTakeAll

theorem Reaches.feedFirst (h : Reaches σ s₀ s) {p g : Nat} : Reaches σ s₀ (s.feedFirst p g) := by
  unfold State.feedFirst
  extract_lets _ s₁
  have h₁ : Reaches σ s₀ s₁ := by
    dsimp only [s₁]
    refine (h.foldl fun h => h.fdFirst).foldl fun h => .ite ?_ h
    split
    · exact .ite h.armTake h
    · exact h
  exact (Reaches.ite (h₁.foldl fun h => h.balFirst) h₁).foldl fun h => .ite h.capTake h

theorem Reaches.finalsNow (h : Reaches σ s₀ s) : Reaches σ s₀ s.finalsNow :=
  (Reaches.ite (h.alnFinalise.foldl fun h => h.feedFirst) h.alnFinalise).feedFinals

theorem Reaches.stopMeasuring (h : Reaches σ s₀ s) : Reaches σ s₀ s.stopMeasuring :=
  h.finalsNow.lgcSuspend.capStopAll.cusOff

theorem Reaches.enterConfig (h : Reaches (.moving c) s₀ s) : Reaches (.moving c) s₀ s.enterConfig :=
  (Reaches.ite h.stopMeasuring h).setDev.setPwr

theorem Reaches.startMeasuring (h : Reaches σ s₀ s) : Reaches σ s₀ s.startMeasuring := by
  unfold State.startMeasuring
  refine .lgcResume (.armStart (.cusOn (h.foldl fun g => ?_)))
  exact .ite g.setPod g

theorem Reaches.enterMeasuring (h : Reaches (.moving c) s₀ s) {d : DevState} : Reaches (.moving c) s₀ (s.enterMeasuring d) :=
  .ite h.setDev h.setDev.startMeasuring

theorem Reaches.enterRun (h : Reaches (.moving c) s₀ s) : Reaches (.moving c) s₀ s.enterRun :=
  h.enterMeasuring.setPwr

theorem Reaches.bootRule (h : Reaches (.moving c) s₀ s) : Reaches (.moving c) s₀ s.bootRule :=
  .ite h.enterRun h

theorem Reaches.leaveHold (h : Reaches (.moving c) s₀ s) : Reaches (.moving c) s₀ s.leaveHold :=
  .ite h.setPwr.enterRun h.setPwr.enterConfig

theorem Reaches.selectBank (h : Reaches (.moving c) s₀ s) : Reaches (.moving c) s₀ s.selectBank := by
  unfold State.selectBank
  dsimp only
  split
  · exact .ite h.setPwr (.ite h.setPwr.count h.setPwr)
  · exact .ite h.setPwr h.setPwr
  · exact .ite h.setPwr h.setPwr
  · exact h.setPwr

theorem Reaches.dropVolatile (h : Reaches σ s₀ s) : Reaches σ s₀ s.dropVolatile :=
  h.set

theorem Reaches.rebooted (h : Reaches (.moving true) s₀ s) : Reaches (.moving true) s₀ s.rebooted :=
  (((h.ended (List.nil_sublist _)).power _ nofun).config _ rfl).write ⟨rfl, rfl, rfl, rfl, rfl, rfl, rfl⟩

theorem Reaches.startBoot (h : Reaches (.moving true) s₀ s) {cause : Nat} : Reaches (.moving true) s₀ (s.startBoot cause) :=
  h.rebooted.setPwr.selectBank

/-! ### Vault -/

theorem Reaches.setSlot' (h : Reaches σ s₀ s) {k : Nat} {x : KeySlot} : Reaches σ s₀ (s.setSlot' k x) :=
  h.set

theorem Reaches.endSlotSessions (h : Reaches σ s₀ s) {l : List Nat} : Reaches σ s₀ (s.endSlotSessions l) :=
  h.ended List.filter_sublist

theorem Reaches.orphan (h : Reaches σ s₀ s) {k : Nat} : Reaches σ s₀ (s.orphan k) :=
  (h.foldl fun h => h.setSlot').endSlotSessions

theorem Reaches.changeSlot (h : Reaches σ s₀ s) {k : Nat} {x : KeySlot} : Reaches σ s₀ (s.changeSlot k x) :=
  h.orphan.setSlot'

theorem Reaches.draw (h : Reaches σ s₀ s) : Reaches σ s₀ s.draw.1 :=
  h.set

theorem Reaches.setCtrs (h : Reaches σ s₀ s) {c : DWord} : Reaches σ s₀ (s.setCtrs c) :=
  h.set

theorem Reaches.journalled (h : Reaches σ s₀ s) {j : Journal} : Reaches σ s₀ (s.journalled j) :=
  h.set

theorem Reaches.keyEffect (h : Reaches σ s₀ s) {q : Req} {x : KeyMsg} : Reaches σ s₀ (s.keyEffect q x).1 := by
  unfold State.keyEffect
  refine .iteFst h ?_
  split
  · exact h
  · exact h.set
  · exact h.set
  · exact h
  · split
    · exact h
    · exact .iteFst h h
  · exact h

theorem Reaches.refuseKey (h : Reaches σ s₀ s) {x : KeyMsg} {st : Nat} : Reaches σ s₀ (s.refuseKey x st).1 :=
  h.count.logEv

theorem Reaches.keyUpdate (h : Reaches σ s₀ s) {q : Req} {inv : Bool} : Reaches σ s₀ (s.keyUpdate q inv).1 := by
  unfold State.keyUpdate
  dsimp only
  split
  · split
    · exact h.refuseKey
    · next e => exact (Reaches.of_eq e h.keyEffect).journalled
  · exact h.refuseKey

theorem Reaches.serveKeyUpdate (h : Reaches σ s₀ s) {q : Req} : Reaches σ s₀ (s.serveKeyUpdate q) :=
  h.serve fun h => h.keyUpdate

theorem execKeyUpdateSetAnchor_reaches (h : Reaches (.moving true) s₀ s) {dt : Nat} {q : Req} :
    NextReaches s₀ (execKeyUpdateSetAnchor dt q s) :=
  h.advance.serveKeyUpdate.next

theorem execKeyUpdateRekeyRoot_reaches (h : Reaches (.moving true) s₀ s) {dt : Nat} {q : Req} :
    NextReaches s₀ (execKeyUpdateRekeyRoot dt q s) :=
  h.advance.serveKeyUpdate.next

theorem execKeyUpdateGenerate_reaches (h : Reaches (.moving true) s₀ s) {dt : Nat} {q : Req} :
    NextReaches s₀ (execKeyUpdateGenerate dt q s) :=
  h.advance.serveKeyUpdate.next

theorem execKeyUpdateDerive_reaches (h : Reaches (.moving true) s₀ s) {dt : Nat} {q : Req} :
    NextReaches s₀ (execKeyUpdateDerive dt q s) :=
  h.advance.serveKeyUpdate.next

theorem execKeyUpdateLoadWrapped_reaches (h : Reaches (.moving true) s₀ s) {dt : Nat} {q : Req} :
    NextReaches s₀ (execKeyUpdateLoadWrapped dt q s) :=
  h.advance.serveKeyUpdate.next

theorem execKeyUpdateLoadPublic_reaches (h : Reaches (.moving true) s₀ s) {dt : Nat} {q : Req} :
    NextReaches s₀ (execKeyUpdateLoadPublic dt q s) :=
  h.advance.serveKeyUpdate.next

theorem execKeyInvalidate_reaches (h : Reaches (.moving true) s₀ s) {dt : Nat} {q : Req} : NextReaches s₀ (execKeyInvalidate dt q s) :=
  Reaches.next (h.advance.serve fun h => h.keyUpdate)

theorem Reaches.sealedUpdate (h : Reaches σ s₀ s) {x : SealMsg} : Reaches σ s₀ (s.sealedUpdate x).1 := by
  unfold State.sealedUpdate
  refine .iteFst h (.iteFst h ?_)
  split
  · exact h
  · dsimp only
    split
    · exact h
    · exact .iteFst h (.iteFst h h.keepConflicts)

theorem Reaches.sealBody (h : Reaches σ s₀ s) {x : SealMsg} : Reaches σ s₀ (s.sealBody x).1 :=
  .iteFst h.sealedUpdate (.iteFst (.iteFst h (.iteFst h (.iteFst h h))) (.iteFst h (.iteFst h (.iteFst (.iteFst h h) h))))

theorem Reaches.sealMessage (h : Reaches σ s₀ s) {q : Req} {update : Bool} : Reaches σ s₀ (s.sealMessage q update).1 := by
  unfold State.sealMessage
  dsimp only
  split
  · refine .iteFst h ?_
    split
    · next e => exact .of_eq e h.sealBody
    · next e => exact (Reaches.of_eq e h.sealBody).journalled
  · exact h

theorem Reaches.serveSeal (h : Reaches σ s₀ s) {q : Req} : Reaches σ s₀ (s.serveSeal q) :=
  h.serve fun h => h.sealMessage

theorem execCusSealSeal_reaches (h : Reaches (.moving true) s₀ s) {dt : Nat} {q : Req} : NextReaches s₀ (execCusSealSeal dt q s) :=
  h.advance.serveSeal.next

theorem execCusSealBreak_reaches (h : Reaches (.moving true) s₀ s) {dt : Nat} {q : Req} : NextReaches s₀ (execCusSealBreak dt q s) :=
  h.advance.serveSeal.next

theorem execCusSealClearRegisters_reaches (h : Reaches (.moving true) s₀ s) {dt : Nat} {q : Req} :
    NextReaches s₀ (execCusSealClearRegisters dt q s) :=
  h.advance.serveSeal.next

theorem execCusSealedUpdate_reaches (h : Reaches (.moving true) s₀ s) {dt : Nat} {q : Req} :
    NextReaches s₀ (execCusSealedUpdate dt q s) :=
  Reaches.next (h.advance.serve fun h => h.sealMessage)

theorem Reaches.sealLog (h : Reaches σ s₀ s) {code par : Nat} : Reaches σ s₀ (s.sealLog code par) := by
  unfold State.sealLog
  split
  · next e =>
      have h₁ : Reaches σ s₀ _ := .of_eq e h.admitMet
      exact .ite h₁ h₁.count

theorem Reaches.sealOp (h : Reaches σ s₀ s) {op : Nat} {c : DWord} : Reaches σ s₀ (s.sealOp op c) :=
  h.sealLog

theorem Reaches.applySeal (h : Reaches σ s₀ s) {c : DWord} : Reaches σ s₀ (s.applySeal c) :=
  (h.set.sealOp.foldl fun h => h.sealLog).cusUnfreeze

theorem Reaches.clearPoint (h : Reaches σ s₀ s) {p : Nat} : Reaches σ s₀ (s.clearPoint p) :=
  (h.foldl fun h => h.sealLog).set.pointChanged

theorem Reaches.applySealed (h : Reaches (.moving true) s₀ s) {items : List (Nat × Nat × List Word)} :
    Reaches (.moving true) s₀ (s.applySealed items) := by
  unfold State.applySealed
  extract_lets l _ kept points _ srcs _ _ s₁ _ _ after
  have h₁ : Reaches (.moving true) s₀ s₁ := (h.foldl fun h => h.sealLog).applyConfig.setCtl
  exact (Reaches.ite h₁.setCtl h₁).foldl fun h => h.pointChanged

theorem Reaches.keyAccepted (h : Reaches σ s₀ s) {j : Journal} : Reaches σ s₀ (s.keyAccepted j) :=
  .ite h.count.admitMet h.count.logEv

theorem Reaches.applyVault (h : Reaches (.moving true) s₀ s) {j : Journal} : Reaches (.moving true) s₀ (s.applyVault j) := by
  unfold State.applyVault
  extract_lets
  split
  · exact h.setCtrs.changeSlot.keyAccepted
  · exact h.setCtrs.changeSlot.endSlotSessions.keyAccepted
  · extract_lets _ _ _ s₁
    have h₁ : Reaches (.moving true) s₀ s₁ := h.setCtrs.changeSlot.set.alarm.keyAccepted
    exact .ite h₁.leaveHold h₁
  · exact h.setCtrs.set.applySeal
  · exact h.setCtrs.set.sealOp
  · exact h.setCtrs.set.sealOp.foldl fun h => h.clearPoint
  · exact h.setCtrs.set.applySealed

theorem Reaches.answerJournal (h : Reaches σ s₀ s) {j : Journal} {a : Ans} : Reaches σ s₀ (s.answerJournal j a) :=
  h.answerLater

theorem Reaches.journalCommit (h : Reaches (.moving true) s₀ s) : Reaches (.moving true) s₀ s.journalCommit := by
  unfold State.journalCommit
  split
  · exact h
  · exact (Reaches.ite h.set.applyVault.flushLog h.set.applyVault).answerJournal

theorem execVaultJournalCommit_reaches (h : Reaches (.moving true) s₀ s) {dt : Nat} : NextReaches s₀ (execVaultJournalCommit dt s) :=
  Reaches.next (.ite h.advance.journalCommit h.advance)

theorem execSign_reaches (h : Reaches (.moving true) s₀ s) {dt : Nat} {q : Req} : NextReaches s₀ (execSign dt q s) := by
  unfold execSign
  refine Reaches.next (h.advance.serve fun h => ?_)
  dsimp only
  split
  · exact h
  · exact .iteFst h (.iteFst h h.count)

theorem execVerify_reaches (h : Reaches (.moving true) s₀ s) {dt : Nat} {q : Req} : NextReaches s₀ (execVerify dt q s) :=
  Reaches.next (h.advance.serve fun h => .iteFst h (.iteFst h (.iteFst h h.count)))

theorem Reaches.keyExport (h : Reaches σ s₀ s) {q : Req} {role : Nat} : Reaches σ s₀ (s.keyExport q role).1 :=
  .iteFst h (.iteFst h h.set)

theorem Reaches.serveKeyInfo (h : Reaches σ s₀ s) {q : Req} : Reaches σ s₀ (s.serveKeyInfo q) :=
  h.serve fun h => .iteFst h.keyExport h

theorem execKeyInfo_reaches (h : Reaches (.moving true) s₀ s) {dt : Nat} {q : Req} : NextReaches s₀ (execKeyInfo dt q s) :=
  h.advance.serveKeyInfo.next

theorem execKeyInfoExport_reaches (h : Reaches (.moving true) s₀ s) {dt : Nat} {q : Req} : NextReaches s₀ (execKeyInfoExport dt q s) :=
  h.advance.serveKeyInfo.next

theorem execDeviceCert_reaches (h : Reaches (.moving true) s₀ s) {dt : Nat} {q : Req} : NextReaches s₀ (execDeviceCert dt q s) :=
  Reaches.next (h.advance.serve fun h => .iteFst h (.iteFst h (.iteFst h h)))

theorem execCounterRead_reaches (h : Reaches (.moving true) s₀ s) {dt : Nat} {q : Req} : NextReaches s₀ (execCounterRead dt q s) :=
  Reaches.next (h.advance.serve fun h => h)

theorem Reaches.plinthTamper (h : Reaches σ s₀ s) {source : Nat} {copied : Bool} : Reaches σ s₀ (s.plinthTamper source copied) :=
  (Reaches.ite h h.setSlot').dropVolatile.set.count

theorem Reaches.eraseSecrets (h : Reaches σ s₀ s) : Reaches σ s₀ s.eraseSecrets :=
  h.foldl fun h => h.setSlot'

theorem Reaches.copyTampers (h : Reaches σ s₀ s) : Reaches σ s₀ s.copyTampers :=
  (h.foldl fun h => h.admitMet).set

theorem Reaches.tamperNotice (h : Reaches σ s₀ s) : Reaches σ s₀ s.tamperNotice :=
  h.notify

theorem Reaches.mainTamper (h : Reaches (.moving c) s₀ s) {t : Nat} : Reaches (.moving c) s₀ (s.mainTamper t) := by
  unfold State.mainTamper
  dsimp only
  refine .copyTampers (.tamperNotice (.set (.alarm (.cusFreeze (.enterMeasuring (.endSessions (.eraseSecrets ?_)))))))
  split
  · exact h.set.answerJournal
  · exact h

theorem Reaches.plinthLost (h : Reaches σ s₀ s) : Reaches σ s₀ s.plinthLost :=
  .ite h.set.plinthTamper.set h.set

theorem Reaches.tamper (h : Reaches (.moving true) s₀ s) {source : Nat} : Reaches (.moving true) s₀ (s.tamper source) := by
  unfold State.tamper
  refine .ite (.ite h.plinthLost h) (.ite h ?_)
  dsimp only
  split
  · exact .ite h.plinthTamper.set h.plinthTamper.mainTamper
  · exact .ite h.plinthTamper.set h.plinthTamper.mainTamper
  · exact .ite h.plinthTamper.set h.plinthTamper.mainTamper
  · exact h.plinthTamper.set.startBoot
  · exact h.plinthTamper.set

theorem execTamperDetected_reaches (h : Reaches (.moving true) s₀ s) {dt source : Nat} :
    NextReaches s₀ (execTamperDetected dt source s) :=
  h.advance.tamper.next

theorem execSupplyMeasurement_reaches (h : Reaches (.moving true) s₀ s) {dt vbatMv vplcMv : Nat} :
    NextReaches s₀ (execSupplyMeasurement dt vbatMv vplcMv s) :=
  Reaches.next (.ite h.advance.set.set.alarm.alarm h.advance)

theorem execBatteryInsertion_reaches (h : Reaches (.moving true) s₀ s) {dt : Nat} : NextReaches s₀ (execBatteryInsertion dt s) :=
  h.advance.set.next

/-! ### Packet -/

theorem Reaches.flushQueued (h : Reaches σ s₀ s) {u : Nat} : Reaches σ s₀ (s.flushQueued u) := by
  unfold State.flushQueued
  dsimp only
  refine .foldl (h.setCtl.foldl fun h => ?_) fun h => h.fetchMore
  split
  · exact h.answer
  · exact h

/-! ### Ptp -/

theorem Reaches.ptpNext (h : Reaches σ s₀ s) {n ty : Nat} : Reaches σ s₀ (s.ptpNext n ty).1 :=
  h.set

theorem Reaches.ptpSend (h : Reaches σ s₀ s) {n ty seq flags control interval : Nat} {body : List Byte} :
    Reaches σ s₀ (s.ptpSend n ty seq flags control interval body) :=
  h.queueTx

theorem Reaches.sendSync (h : Reaches σ s₀ s) {n : Nat} : Reaches σ s₀ (s.sendSync n) :=
  h.set.ptpSend

theorem Reaches.sendPdelayReq (h : Reaches σ s₀ s) {n : Nat} : Reaches σ s₀ (s.sendPdelayReq n) :=
  h.set.ptpSend

theorem Reaches.sendPdelayResp (h : Reaches σ s₀ s) {n t : Nat} {l : List Byte} : Reaches σ s₀ (s.sendPdelayResp n t l) :=
  h.ptpSend

/-! ### Time -/

theorem Reaches.sendQuality (h : Reaches σ s₀ s) {step : Option ℤ} : Reaches σ s₀ (s.sendQuality step) :=
  h.notify.set

theorem Reaches.timeChanged (h : Reaches (.moving c) s₀ s) {change : Bool} {step : Option Int} :
    Reaches (.moving c) s₀ (s.timeChanged change step) := by
  unfold State.timeChanged
  extract_lets q locked w lockMoved tqMoved _ s₁ s₂ s₃ s₄
  have changed : Reaches (.moving c) s₀ s₃ := by
    have sent : Reaches (.moving c) s₀ s₂ := .ite h.set.sendQuality h.set
    exact .ite sent.logEv sent
  have stepped : Reaches (.moving c) s₀ s₄ := by
    dsimp only [s₄]
    split
    · exact changed.logEv
    · exact changed
  exact .ite stepped.bootRule stepped

theorem Reaches.shiftTimers (h : Reaches σ s₀ s) {f : Nat → Nat} : Reaches σ s₀ (s.shiftTimers f) :=
  h.set

theorem Reaches.setClock (h : Reaches σ s₀ s) {b : Nat} : Reaches σ s₀ (s.setClock b) :=
  h.shiftTimers.set

theorem Reaches.stepUnits (h : Reaches σ s₀ s) {a b : Nat} : Reaches σ s₀ (s.stepUnits a b) :=
  h.alnStep.cnvStep.capStep.cusStepClock

theorem Reaches.setRef (h : Reaches σ s₀ s) {kind : Nat} {r : Ref} : Reaches σ s₀ (s.setRef kind r) := by
  unfold State.setRef
  split
  · exact h.set
  · exact h.set
  · exact h.set
  · exact h

theorem Reaches.correct (h : Reaches (.moving c) s₀ s) {o done : ℤ} {first change : Bool} :
    Reaches (.moving c) s₀ (s.correct o done first change) :=
  .ite h.setClock.set.count.timeChanged.stepUnits h.set.timeChanged

theorem Reaches.ptpUtc (h : Reaches σ s₀ s) : Reaches σ s₀ s.ptpUtc := by
  unfold State.ptpUtc
  split
  · exact .ite h.set h
  · exact h

theorem Reaches.steerBy (h : Reaches (.moving c) s₀ s) {kind : Nat} : Reaches (.moving c) s₀ (s.steerBy kind) :=
  h.set.ptpUtc.correct

theorem Reaches.holdover (h : Reaches (.moving c) s₀ s) : Reaches (.moving c) s₀ s.holdover := by
  unfold State.holdover
  exact h.set.timeChanged

theorem Reaches.reselect (h : Reaches (.moving c) s₀ s) : Reaches (.moving c) s₀ s.reselect := by
  unfold State.reselect
  split
  · exact h.steerBy
  · exact h.holdover

theorem Reaches.acquire (h : Reaches (.moving c) s₀ s) : Reaches (.moving c) s₀ s.acquire :=
  .ite h.set.timeChanged (.ite h.set.timeChanged h)

theorem Reaches.disqualify (h : Reaches (.moving c) s₀ s) {kind : Nat} : Reaches (.moving c) s₀ (s.disqualify kind) :=
  h.setRef.acquire

theorem Reaches.badItem (h : Reaches (.moving c) s₀ s) {kind counter limit : Nat} :
    Reaches (.moving c) s₀ (s.badItem kind counter limit) :=
  .ite (.ite h.count.disqualify h.count.setRef) h

theorem Reaches.goodItem (h : Reaches (.moving c) s₀ s) {kind : Nat} {inacc : Rat} {offset : ℤ} {counts : Bool} :
    Reaches (.moving c) s₀ (s.goodItem kind inacc offset counts) :=
  .ite (.ite h.setRef.correct h.setRef.acquire) h

theorem execReferenceQualified_reaches (h : Reaches (.moving true) s₀ s) {dt kind : Nat} :
    NextReaches s₀ (execReferenceQualified dt kind s) :=
  Reaches.next (.ite (.ite h.advance.setRef h.advance.setRef.reselect) h.advance)

theorem execReferenceDisqualified_reaches (h : Reaches (.moving true) s₀ s) {dt kind : Nat} :
    NextReaches s₀ (execReferenceDisqualified dt kind s) :=
  Reaches.next (.ite h.advance.reselect h.advance)

theorem execReferenceRevert_reaches (h : Reaches (.moving true) s₀ s) {dt : Nat} : NextReaches s₀ (execReferenceRevert dt s) := by
  unfold execReferenceRevert
  refine Reaches.next ?_
  split
  · exact h.advance.steerBy
  · exact h.advance

theorem execTqChange_reaches (h : Reaches (.moving true) s₀ s) {dt : Nat} : NextReaches s₀ (execTqChange dt s) :=
  Reaches.next (.ite h.advance.timeChanged h.advance)

theorem execTimeQualityHoldEnd_reaches (h : Reaches (.moving true) s₀ s) {dt : Nat} : NextReaches s₀ (execTimeQualityHoldEnd dt s) :=
  Reaches.next (.ite (.ite h.advance.set.timeChanged.sendQuality h.advance.set.timeChanged) h.advance)

theorem Reaches.parentAnnounce (h : Reaches (.moving c) s₀ s) {a : Announce} : Reaches (.moving c) s₀ (s.parentAnnounce a) :=
  .ite
    (.ite h.set.disqualify h.set)
    (.ite
       (Reaches.ite
           (Reaches.ite h.set.setRef h.set.setRef.set).set.ptpUtc.timeChanged
           (.ite h.set.setRef h.set.setRef.set)).acquire
       h.set)

theorem Reaches.bestMaster (h : Reaches (.moving c) s₀ s) : Reaches (.moving c) s₀ s.bestMaster := by
  unfold State.bestMaster
  dsimp only
  split
  · exact h.set
  · exact .ite h.set (.ite h.set (Reaches.ite h.set.disqualify h.set).set.parentAnnounce)

theorem Reaches.announce (h : Reaches (.moving c) s₀ s) {port : Nat} {a : Announce} : Reaches (.moving c) s₀ (s.announce port a) :=
  .ite h.set.parentAnnounce (.ite h.set h.set.bestMaster)

theorem Reaches.leapAnnounced (h : Reaches σ s₀ s) {insert : Bool} : Reaches σ s₀ (s.leapAnnounced insert) :=
  .ite h h.set

theorem Reaches.announceTaken (h : Reaches (.moving c) s₀ s) {port : Nat} {a : Announce} :
    Reaches (.moving c) s₀ (s.announceTaken port a) :=
  .ite h.announce.leapAnnounced h.announce

theorem execPtpAnnounceReceived_reaches (h : Reaches (.moving true) s₀ s) {dt port : Nat} {msg : List Byte} :
    NextReaches s₀ (execPtpAnnounceReceived dt port msg s) := by
  unfold execPtpAnnounceReceived
  refine Reaches.next ?_
  split
  · exact .ite h.advance.announceTaken h.advance
  · exact h.advance

theorem Reaches.ptpMeasured (h : Reaches (.moving c) s₀ s) {offset : ℤ} : Reaches (.moving c) s₀ (s.ptpMeasured offset) :=
  .ite h.setRef.correct h.setRef

theorem Reaches.syncTaken (h : Reaches (.moving c) s₀ s) {n : Nat} {msg : List Byte} {stamp : Nat} {delay : ℤ} :
    Reaches (.moving c) s₀ (s.syncTaken n msg stamp delay) := by
  unfold State.syncTaken
  dsimp only
  split
  · exact .ite (.ite h.set h.set.ptpMeasured) h
  · split
    · exact .ite h.set.ptpMeasured h
    · exact h
  · exact h

theorem execPtpSyncReceived_reaches (h : Reaches (.moving true) s₀ s) {dt port : Nat} {msg : List Byte} {heard : PtpHeard} :
    NextReaches s₀ (execPtpSyncReceived dt port msg heard s) :=
  Reaches.next (.ite h.advance.syncTaken h.advance)

theorem execPtpPdelayReqReceived_reaches (h : Reaches (.moving true) s₀ s) {dt : Nat} {rx : PtpRx} :
    NextReaches s₀ (execPtpPdelayReqReceived dt rx s) :=
  Reaches.next (.ite h.advance.sendPdelayResp h.advance)

theorem Reaches.sendAnnounce (h : Reaches σ s₀ s) {n : Nat} : Reaches σ s₀ (s.sendAnnounce n) :=
  h.set.ptpSend

theorem Reaches.ptpInterval (h : Reaches (.moving c) s₀ s) : Reaches (.moving c) s₀ s.ptpInterval :=
  (h.set.bestMaster.foldl fun h => h.sendAnnounce.sendSync).foldl fun h => h.sendPdelayReq

theorem execPtpAnnounceInterval_reaches (h : Reaches (.moving true) s₀ s) {dt : Nat} : NextReaches s₀ (execPtpAnnounceInterval dt s) :=
  Reaches.next (.ite h.advance.ptpInterval h.advance)

theorem Reaches.announceTimeout (h : Reaches (.moving c) s₀ s) : Reaches (.moving c) s₀ s.announceTimeout :=
  (Reaches.ite h.count.disqualify h).bestMaster

theorem execPtpAnnounceTimeout_reaches (h : Reaches (.moving true) s₀ s) {dt port : Nat} {sync : Bool} :
    NextReaches s₀ (execPtpAnnounceTimeout dt port sync s) :=
  Reaches.next (.ite (.ite (.ite h.advance.disqualify h.advance) (.ite h.advance.set.announceTimeout h.advance.set)) h.advance)

theorem Reaches.irigFrame (h : Reaches (.moving c) s₀ s) {f : IrigFrame} : Reaches (.moving c) s₀ (s.irigFrame f) :=
  .ite h.set.badItem (.ite (.ite h.set.disqualify h.set) (.ite h.set.set.goodItem.leapAnnounced h.set.set.goodItem))

theorem execIrigFrameReceived_reaches (h : Reaches (.moving true) s₀ s) {dt : Nat} {f : IrigFrame} :
    NextReaches s₀ (execIrigFrameReceived dt f s) :=
  Reaches.next (.ite h.advance.irigFrame h.advance)

theorem execIrigFrameMissing_reaches (h : Reaches (.moving true) s₀ s) {dt : Nat} : NextReaches s₀ (execIrigFrameMissing dt s) := by
  unfold execIrigFrameMissing
  refine Reaches.next ?_
  split
  · exact .ite h.advance.set.badItem h.advance
  · exact h.advance

theorem Reaches.ppsEdge (h : Reaches (.moving true) s₀ s) {stamp : Nat} : Reaches (.moving true) s₀ (s.ppsEdge stamp) := by
  unfold State.ppsEdge
  dsimp only
  refine .ite (.disqualify (.count (.set (.ite ?_ h)))) ?_
  · split
    · exact h.setPar
    · exact h
  · split
    · refine .goodItem (.set (.ite ?_ h))
      split
      · exact h.setPar
      · exact h
    · refine .ite (.acquire (.setRef (.set (.ite ?_ h)))) (.set (.ite ?_ h))
      · split
        · exact h.setPar
        · exact h
      · split
        · exact h.setPar
        · exact h

theorem execPpsInEdge_reaches (h : Reaches (.moving true) s₀ s) {dt stamp : Nat} : NextReaches s₀ (execPpsInEdge dt stamp s) :=
  Reaches.next (.ite h.advance.ppsEdge h.advance)

theorem execPpsInMissing_reaches (h : Reaches (.moving true) s₀ s) {dt : Nat} : NextReaches s₀ (execPpsInMissing dt s) :=
  Reaches.next (.ite h.advance.set.badItem h.advance)

theorem execPpsOutSecond_reaches (h : Reaches (.moving true) s₀ s) {dt : Nat} : NextReaches s₀ (execPpsOutSecond dt s) :=
  Reaches.next (.ite (.ite (Reaches.ite h.advance.set.logEv h.advance).set (.ite h.advance.set.logEv h.advance)) h.advance)

theorem execPpsOutWidthEnd_reaches (h : Reaches (.moving true) s₀ s) {dt : Nat} : NextReaches s₀ (execPpsOutWidthEnd dt s) :=
  Reaches.next (.ite h.advance.set h.advance)

theorem execRef10mLoss_reaches (h : Reaches (.moving true) s₀ s) {dt : Nat} : NextReaches s₀ (execRef10mLoss dt s) :=
  Reaches.next (.ite h.advance.set.count.logEv (.ite h.advance.set h.advance))

theorem execRef10mRestore_reaches (h : Reaches (.moving true) s₀ s) {dt : Nat} : NextReaches s₀ (execRef10mRestore dt s) :=
  Reaches.next (.ite h.advance.set.logEv h.advance)

theorem execLeapSecondApply_reaches (h : Reaches (.moving true) s₀ s) {dt : Nat} : NextReaches s₀ (execLeapSecondApply dt s) :=
  Reaches.next (.ite h.advance.set.logEv h.advance)

theorem execPlinthTimeSet_reaches (h : Reaches (.moving true) s₀ s) {dt : Nat} : NextReaches s₀ (execPlinthTimeSet dt s) :=
  Reaches.next (.ite h.advance.set h.advance)

theorem Reaches.timCommit (h : Reaches (.moving c) s₀ s) {r : State} {b : Nat} : Reaches (.moving c) s₀ (r.timCommit s b) := by
  unfold State.timCommit
  extract_lets _ _ rx kept _ _ lost _ _ _ _ inacc _ _ s₁ on _ _ _ s₂
  have h₁ : Reaches (.moving c) s₀ s₁ :=
    ((Reaches.ite (Reaches.ite h.set h).set.set (Reaches.ite h.set h).set).foldl fun h => .ite h h.setRef).set
  have h₁ : Reaches (.moving c) s₀ s₂ := .ite (.ite h₁ h₁.set) (Reaches.ite h₁ h₁.set).set
  exact .ite h₁.reselect h₁.timeChanged.acquire

theorem Reaches.timStop (h : Reaches (.moving c) s₀ s) : Reaches (.moving c) s₀ s.timStop :=
  (Reaches.ite h.holdover h).set.acquire

theorem Reaches.timBoot (h : Reaches σ s₀ s) : Reaches σ s₀ s.timBoot :=
  h.setClock.set

/-! ### Spares -/

theorem execSpareStatus_reaches (h : Reaches (.moving true) s₀ s) {dt : Nat} {q : Req} : NextReaches s₀ (execSpareStatus dt q s) :=
  Reaches.next (h.advance.serve fun h => h)

theorem Reaches.sramRepair (h : Reaches σ s₀ s) {row : Nat} : Reaches σ s₀ (s.sramRepair row) :=
  .ite h (.ite h.setMem h.setMem.count.notify)

theorem Reaches.sramCorrected (h : Reaches σ s₀ s) {a : Nat} : Reaches σ s₀ (s.sramCorrected a) :=
  .ite h.wearAdd.setMem.sramRepair h.wearAdd.setMem

theorem Reaches.sramCopy (h : Reaches σ s₀ s) {row : Nat} : Reaches σ s₀ (s.sramCopy row) :=
  h.setMem.count.spareUsed

theorem Reaches.scrub (h : Reaches σ s₀ s) {corrected uncorrectable : List Nat} : Reaches σ s₀ (s.scrub corrected uncorrectable) :=
  ((h.foldl fun h => h.sramCopy).foldl fun h => h.sramCorrected).foldl fun h => h.wearAdd.sramRepair

theorem execSramScrubPass_reaches (h : Reaches (.moving true) s₀ s) {dt : Nat} {corrected uncorrectable : List Nat} :
    NextReaches s₀ (execSramScrubPass dt corrected uncorrectable s) :=
  Reaches.next (.ite h.advance.scrub h.advance)

theorem Reaches.dramRetire (h : Reaches σ s₀ s) {page : Nat} : Reaches σ s₀ (s.dramRetire page) :=
  .ite h h.setMem.count.spareUsed

theorem execDramPageRetire_reaches (h : Reaches (.moving true) s₀ s) {dt page : Nat} {uncorrectable : Bool} :
    NextReaches s₀ (execDramPageRetire dt page uncorrectable s) :=
  Reaches.next (.ite h.advance.wearAdd.dramRetire h.advance)

theorem Reaches.dramRepair (h : Reaches σ s₀ s) : Reaches σ s₀ s.dramRepair :=
  h.foldl fun h => .ite h.setMem h

theorem Reaches.mramRetire (h : Reaches σ s₀ s) {block : Nat} : Reaches σ s₀ (s.mramRetire block) :=
  .ite h.setMem.count.wearAdd.spareUsed h

theorem execMramBlockRetire_reaches (h : Reaches (.moving true) s₀ s) {dt block : Nat} :
    NextReaches s₀ (execMramBlockRetire dt block s) :=
  Reaches.next (.ite h.advance.mramRetire h.advance)

theorem execMarginMonitor_reaches (h : Reaches (.moving true) s₀ s) {dt : Nat} {low : Bool} :
    NextReaches s₀ (execMarginMonitor dt low s) :=
  Reaches.next (.ite h.advance.setMem.spareUsed h.advance)

theorem execOperatingSecond_reaches (h : Reaches (.moving true) s₀ s) {dt : Nat} {tjMilli : ℤ} :
    NextReaches s₀ (execOperatingSecond dt tjMilli s) :=
  Reaches.next (.ite h.advance.setMem h.advance)

theorem Reaches.savePatina (h : Reaches σ s₀ s) : Reaches σ s₀ s.savePatina :=
  h.setMem

theorem execPatinaSave_reaches (h : Reaches (.moving true) s₀ s) {dt : Nat} : NextReaches s₀ (execPatinaSave dt s) :=
  Reaches.next (.ite h.advance.savePatina h.advance)

theorem execPatinaRead_reaches (h : Reaches (.moving true) s₀ s) {dt : Nat} {q : Req} : NextReaches s₀ (execPatinaRead dt q s) :=
  Reaches.next (h.advance.serve fun h => .iteFst h (.iteFst h (.iteFst h h)))

/-! ### Scheduler -/

theorem Reaches.setCore (h : Reaches σ s₀ s) {n st : Nat} : Reaches σ s₀ (s.setCore n st) :=
  h.setCtl

theorem Reaches.retireCore (h : Reaches σ s₀ s) {core : Nat} {task : Option (Nat × Nat)} : Reaches σ s₀ (s.retireCore core task) := by
  unfold State.retireCore
  extract_lets _ _ s₁
  have h₁ : Reaches σ s₀ s₁ := by
    dsimp only [s₁]
    split
    · exact h.setCore.count.setCtl.count
    · exact h.setCore.count
  split
  · exact h₁.setCore.spareUsed
  · exact h₁

theorem execCoreRetire_reaches (h : Reaches (.moving true) s₀ s) {dt core : Nat} {task : Option (Nat × Nat)} :
    NextReaches s₀ (execCoreRetire dt core task s) :=
  Reaches.next (.ite h.advance.retireCore h.advance)

theorem Reaches.coreTested (h : Reaches σ s₀ s) {core : Nat} {bad : Bool} : Reaches σ s₀ (s.coreTested core bad) :=
  .ite h (.ite (.ite h.setCtl.wearAdd.retireCore h.setCtl.wearAdd) h.setCtl)

theorem Reaches.coresTested (h : Reaches σ s₀ s) {failed : List Nat} : Reaches σ s₀ (s.coresTested failed) :=
  h.setCtl.foldl fun h => h.coreTested

theorem execCoreSelfTestTimer_reaches (h : Reaches (.moving true) s₀ s) {dt : Nat} {failed : List Nat} :
    NextReaches s₀ (execCoreSelfTestTimer dt failed s) :=
  Reaches.next (.ite h.advance.coresTested h.advance)

theorem execDelayExpiry_reaches (h : Reaches (.moving true) s₀ s) {dt : Nat} : NextReaches s₀ (execDelayExpiry dt s) := by
  unfold execDelayExpiry
  extract_lets _ _ _ _ s₁ s₂
  have h₁ : Reaches (.moving true) s₀ s₁ := h.advance.setCtl
  have h₂ : Reaches (.moving true) s₀ s₂ := h₁.noteDepth
  exact Reaches.next (.ite h₂.setCtl h.advance)

theorem execSchedStats_reaches (h : Reaches (.moving true) s₀ s) {dt : Nat} {q : Req} : NextReaches s₀ (execSchedStats dt q s) :=
  Reaches.next (h.advance.serve fun h => .ite h.setCtl h)

theorem Reaches.fifoWrite (h : Reaches σ s₀ s) {fifo : Nat} {words : List FifoWord} : Reaches σ s₀ (s.fifoWrite fifo words) :=
  h.setCtl

theorem Reaches.holdPort (h : Reaches σ s₀ s) {fifo : Nat} {on : Bool} : Reaches σ s₀ (s.holdPort fifo on) :=
  .ite h.setPort h

theorem execFifoLevelHit_reaches (h : Reaches (.moving true) s₀ s) {dt fifo : Nat} {words : List FifoWord} :
    NextReaches s₀ (execFifoLevelHit dt fifo words s) :=
  Reaches.next (.ite (.ite h.advance.fifoWrite.count2.holdPort h.advance.fifoWrite) h.advance)

theorem execFifoLevelRelease_reaches (h : Reaches (.moving true) s₀ s) {dt fifo left : Nat} :
    NextReaches s₀ (execFifoLevelRelease dt fifo left s) := by
  unfold execFifoLevelRelease
  extract_lets _ level _ _ s₁
  refine Reaches.next ?_
  have h₁ : Reaches (.moving true) s₀ s₁ := .ite h.advance.fifoRead.holdPort.startTx h.advance.fifoRead.holdPort
  exact .ite (.ite (.ite (h₁.foldl fun h => h.fetchMore) h₁) h.advance.fifoRead) h.advance

theorem execSelfTest_reaches (h : Reaches (.moving true) s₀ s) {dt : Nat} {q : Req} : NextReaches s₀ (execSelfTest dt q s) :=
  Reaches.next (h.advance.serve fun h => .iteFst h (.iteFst h (.iteFst h h.setCtl)))

theorem Reaches.cure (h : Reaches σ s₀ s) {kind inst : Nat} : Reaches σ s₀ (s.cure kind inst).1 := by
  unfold State.cure
  split
  · split
    · exact h.setSlice.setSlice.setChan.spareUsed
    · exact h
  · exact .ite h.retireCore h
  · exact h.sramRepair
  · exact h.dramRetire
  · exact h.mramRetire
  · exact .iteFst h.setMem.spareUsed h
  · exact h

theorem Reaches.selfTestDone (h : Reaches σ s₀ s) {u : Nat} {q : Req} {records : List (Nat × Nat × Nat × Nat × Nat)}
    {faults : List (Nat × Nat)} : Reaches σ s₀ (s.selfTestDone u q records faults) := by
  unfold State.selfTestDone
  extract_lets _ s₁ out recs unit
  have cured : Reaches σ s₀ out.1 := Reaches.foldlFst h.setCtl fun g => g.cure
  split
  · exact cured.answerLater
  · exact cured.answerLater

theorem execSelfTestDone_reaches (h : Reaches (.moving true) s₀ s) {dt : Nat} {records : List (Nat × Nat × Nat × Nat × Nat)}
    {faults : List (Nat × Nat)} : NextReaches s₀ (execSelfTestDone dt records faults s) := by
  unfold execSelfTestDone
  refine Reaches.next ?_
  split
  · exact .ite h.advance.selfTestDone h.advance
  · exact h.advance

/-! ### Boot -/

theorem execPowerUp_reaches (h : Reaches (.moving true) s₀ s) {dt : Nat} : NextReaches s₀ (execPowerUp dt s) :=
  Reaches.next (.ite h.advance h.advance.setPwr)

theorem Reaches.resetLow (h : Reaches (.moving true) s₀ s) {supplies : Bool} : Reaches (.moving true) s₀ (s.resetLow supplies) :=
  h.rebooted.setPwr

theorem execResetNAssert_reaches (h : Reaches (.moving true) s₀ s) {dt : Nat} : NextReaches s₀ (execResetNAssert dt s) :=
  Reaches.next (.ite h.advance.resetLow h.advance)

theorem execSupplyOutOfTolerance_reaches (h : Reaches (.moving true) s₀ s) {dt : Nat} :
    NextReaches s₀ (execSupplyOutOfTolerance dt s) :=
  Reaches.next (.ite h.advance.resetLow h.advance)

theorem execResetNRelease_reaches (h : Reaches (.moving true) s₀ s) {dt straps : Nat} :
    NextReaches s₀ (execResetNRelease dt straps s) :=
  Reaches.next (.ite h.advance.setPwr.selectBank h.advance)

theorem Reaches.bootRecord (h : Reaches σ s₀ s) : Reaches σ s₀ s.bootRecord :=
  h.logEv

theorem Reaches.firmwareRuns (h : Reaches (.moving c) s₀ s) : Reaches (.moving c) s₀ s.firmwareRuns :=
  (Reaches.ite h.setPwr h.setPwr.setPwr.logEv).logEv

theorem Reaches.sourcesBoot (h : Reaches σ s₀ s) : Reaches σ s₀ s.sourcesBoot :=
  h.foldl fun h => .ite h.setSrc.askCfg h.setSrc

theorem Reaches.analyticsBoot (h : Reaches σ s₀ s) : Reaches σ s₀ s.analyticsBoot :=
  ((((h.foldl fun h =>
        h.setPod).foldl fun h => h.fdCommit).foldl fun h => h.mtCommit).foldl fun h => h.setFlt).foldl fun h => h.capCommit

theorem Reaches.vaultBoot (h : Reaches σ s₀ s) : Reaches σ s₀ s.vaultBoot :=
  h.set

theorem Reaches.unitsBoot (h : Reaches σ s₀ s) : Reaches σ s₀ s.unitsBoot :=
  h.set

theorem Reaches.configBoot (h : Reaches (.moving true) s₀ s) : Reaches (.moving true) s₀ s.configBoot :=
  h.setAll

theorem Reaches.portsBoot (h : Reaches σ s₀ s) : Reaches σ s₀ s.portsBoot :=
  h.foldl fun h => h.bringUp

theorem Reaches.bootComplete (h : Reaches (.moving true) s₀ s) : Reaches (.moving true) s₀ s.bootComplete := by
  unfold State.bootComplete
  extract_lets _ _ _ s₁ _ s₂ s₃ _ s₄
  have h₁ : Reaches (.moving true) s₀ s₁ := h.setPwr.dramRepair.vaultBoot.configBoot.timBoot.unitsBoot.portsBoot
  have h₂ : Reaches (.moving true) s₀ s₂ := h₁.setCtl
  have h₁ : Reaches (.moving true) s₀ s₃ := h₂.cusBoot.lgcBoot.sourcesBoot.analyticsBoot
  have h₁ : Reaches (.moving true) s₀ s₄ := (Reaches.ite h₁.firmwareRuns h₁).bootRecord
  exact .ite (.ite h₁.mainTamper (Reaches.ite h₁.enterMeasuring.alarm h₁.enterMeasuring).copyTampers) h₁.copyTampers.leaveHold

theorem execBootComplete_reaches (h : Reaches (.moving true) s₀ s) {dt : Nat} : NextReaches s₀ (execBootComplete dt s) :=
  Reaches.next (.ite h.advance.bootComplete h.advance)

theorem execLockWaitTimeout_reaches (h : Reaches (.moving true) s₀ s) {dt : Nat} : NextReaches s₀ (execLockWaitTimeout dt s) :=
  Reaches.next (.ite h.advance.enterRun h.advance)

theorem Reaches.closeLogs (h : Reaches σ s₀ s) {cause : Nat} : Reaches σ s₀ (s.closeLogs cause) :=
  h.endFreeze.endFreeze.flushLogs

theorem Reaches.lgcOff (h : Reaches σ s₀ s) : Reaches σ s₀ s.lgcOff :=
  .ite h.lgcHalt h

theorem Reaches.portsOff (h : Reaches σ s₀ s) {sleep : Bool} : Reaches σ s₀ (s.portsOff sleep) :=
  h.set

theorem Reaches.powerSettle (h : Reaches σ s₀ s) : Reaches σ s₀ s.powerSettle :=
  (Reaches.ite h.lgcOff.capStopAll.finalsNow.cusOff h.lgcOff.capStopAll).cusSave.closeLogs.savePatina.setCtl.sendOwed

theorem Reaches.enterSleep (h : Reaches (.moving c) s₀ s) : Reaches (.moving c) s₀ s.enterSleep :=
  (h.powerSettle.foldl fun h => h.setUnit).endSessions.portsOff.setDev

theorem Reaches.enterHalt (h : Reaches (.moving c) s₀ s) : Reaches (.moving c) s₀ s.enterHalt :=
  h.powerSettle.endSessions.portsOff.setDev.set.foldl fun h => .ite h h.setUnitQuiet

theorem Reaches.setStateTo (h : Reaches (.moving true) s₀ s) {q : Req} : Reaches (.moving true) s₀ (s.setStateTo q).1 := by
  unfold State.setStateTo
  dsimp only
  split
  · exact h.enterRun
  · exact h.enterConfig.setPwr
  · exact h.answer.enterSleep
  · exact h.answer.enterSleep
  · exact h.answer.enterSleep
  · exact h.answer.enterHalt
  · exact h.answer.enterHalt
  · exact h.answer.enterHalt
  · exact h

theorem execSetState_reaches (h : Reaches (.moving true) s₀ s) {dt : Nat} {q : Req} : NextReaches s₀ (execSetState dt q s) :=
  Reaches.next (h.advance.serve fun h => h.setStateTo)

theorem Reaches.powerEdge (h : Reaches (.moving c) s₀ s) : Reaches (.moving c) s₀ s.powerEdge :=
  h.count.lgcSuspend.setPwr

theorem Reaches.powerSave (h : Reaches (.moving c) s₀ s) : Reaches (.moving c) s₀ s.powerSave :=
  (Reaches.ite h.stepsEnd.lgcOff.cusSave.noticeTo h.stepsEnd.lgcOff.cusSave).endFreeze.endFreeze.logEv.flushLogs.savePatina.setPwr

theorem execPfwNFall_reaches (h : Reaches (.moving true) s₀ s) {dt : Nat} : NextReaches s₀ (execPfwNFall dt s) :=
  Reaches.next (.ite h.advance.powerSave (.ite h.advance.powerEdge (.ite h.advance.setPwr h.advance)))

theorem execPfwNReturn_reaches (h : Reaches (.moving true) s₀ s) {dt : Nat} : NextReaches s₀ (execPfwNReturn dt s) :=
  Reaches.next (.ite (Reaches.ite h.advance.powerSave h.advance).startBoot h.advance)

theorem execPcieL1ExitWake_reaches (h : Reaches (.moving true) s₀ s) {dt : Nat} : NextReaches s₀ (execPcieL1ExitWake dt s) :=
  Reaches.next (.ite h.advance.set.startBoot h.advance)

theorem execWakeFrame_reaches (h : Reaches (.moving true) s₀ s) {dt port : Nat} {bytes : List Byte} :
    NextReaches s₀ (execWakeFrame dt port bytes s) :=
  Reaches.next (.ite h.advance.set.startBoot h.advance)

/-! ### Units -/

theorem Reaches.unitStops (h : Reaches (.moving c) s₀ s) {u t : Nat} : Reaches (.moving c) s₀ (s.unitStops u t) := by
  unfold State.unitStops
  split
  · exact h.timStop
  · exact h.feedFinals
  · exact h.cnvStop
  · exact h.stepsEnd.cusSave.cusOff
  · exact h.lgcOff
  · exact h.flushLogs
  · exact h

theorem Reaches.unitResumes (h : Reaches σ s₀ s) {u : Nat} : Reaches σ s₀ (s.unitResumes u) := by
  unfold State.unitResumes
  split
  · exact h.portsBoot
  · exact h.foldl fun h => .ite h.setPod h
  · exact h.fltRestartAll.refreshExc
  · exact h.fltRestartAll
  · exact .ite h.armStart h
  · exact h.cusResume
  · exact h.lgcResume
  · exact h

theorem Reaches.ingReset (h : Reaches σ s₀ s) : Reaches σ s₀ s.ingReset :=
  h.set

theorem Reaches.ctlReset (h : Reaches σ s₀ s) : Reaches σ s₀ s.ctlReset :=
  ((h.foldl fun h => h.setRing.completeSend.foldl fun h => h.emit).ended (List.nil_sublist _)).setCtl

theorem Reaches.poisonFlight (h : Reaches σ s₀ s) {u : Nat} : Reaches σ s₀ (s.poisonFlight u) :=
  h.setCtl

theorem Reaches.unitDiscards (h : Reaches (.moving c) s₀ s) {u : Nat} : Reaches (.moving c) s₀ (s.unitDiscards u) := by
  unfold State.unitDiscards
  split
  · exact h.portsReset
  · exact h.timStop
  · exact h.ingReset
  · exact h.finalsNow.alnClear
  · exact h.cnvStop.fltRestartAll
  · exact h.fltReset
  · exact h.oscReset
  · exact h.armReset
  · exact h.cusReset
  · exact h.lgcReset
  · exact h.capReset
  · exact h.ctlReset
  · exact h.dropVolatile.endSessions
  · exact h

theorem Reaches.waitersReset (h : Reaches σ s₀ s) {u : Nat} : Reaches σ s₀ (s.waitersReset u) := by
  unfold State.waitersReset
  extract_lets mine _ _ s₁
  have h₁ : Reaches σ s₀ s₁ := h.setCtl.foldl fun h => h.answerLater
  split
  · exact .ite h₁.setCtl.answerLater h₁
  · exact h₁

theorem Reaches.resetUnit (h : Reaches (.moving true) s₀ s) {u : Nat} : Reaches (.moving true) s₀ (s.resetUnit u) := by
  unfold State.resetUnit
  extract_lets _ _ s₁
  have h₁ : Reaches (.moving true) s₀ s₁ :=
    (Reaches.ite h.journalCommit (.ite h.flushLogs h)).clearCounters.newEpoch.poisonFlight.unitDiscards.waitersReset
  exact .ite h₁.setUnit h₁

theorem execUnitQuiesce_reaches (h : Reaches (.moving true) s₀ s) {dt : Nat} {q : Req} : NextReaches s₀ (execUnitQuiesce dt q s) :=
  Reaches.next (h.advance.serve fun h => .iteFst h (.iteFst h (.iteFst h (.iteFst h (.ite h.setCtl.drainFinals h.setCtl)))))

theorem Reaches.quiesceDrained (h : Reaches (.moving c) s₀ s) : Reaches (.moving c) s₀ s.quiesceDrained := by
  unfold State.quiesceDrained
  split
  · exact h.unitStops.setCtl.setUnit.answerLater
  · exact h

theorem execUnitQuiesceDrained_reaches (h : Reaches (.moving true) s₀ s) {dt : Nat} : NextReaches s₀ (execUnitQuiesceDrained dt s) :=
  Reaches.next (.ite h.advance.quiesceDrained h.advance)

theorem execUnitQuiesceTimeout_reaches (h : Reaches (.moving true) s₀ s) {dt : Nat} :
    NextReaches s₀ (execUnitQuiesceTimeout dt s) := by
  unfold execUnitQuiesceTimeout
  refine Reaches.next ?_
  split
  · exact .ite h.advance.setCtl.answerLater h.advance
  · exact h.advance

theorem execUnitReset_reaches (h : Reaches (.moving true) s₀ s) {dt : Nat} {q : Req} : NextReaches s₀ (execUnitReset dt q s) :=
  Reaches.next (h.advance.serve fun h => .iteFst h (.iteFst h (.iteFst h.resetUnit.flushQueued h.resetUnit.flushQueued.count)))

theorem execUnitResume_reaches (h : Reaches (.moving true) s₀ s) {dt : Nat} {q : Req} : NextReaches s₀ (execUnitResume dt q s) := by
  unfold execUnitResume
  refine Reaches.next (h.advance.serve fun h => .iteFst h ?_)
  split
  · exact h.setUnit.unitResumes
  · exact h.setUnit.unitResumes
  · exact h
  · exact h

theorem Reaches.setBank (h : Reaches (.moving c) s₀ s) {k : Nat} {b : Bank} : Reaches (.moving c) s₀ (s.setBank k b) :=
  .ite h.setPwr h.setPwr

theorem Reaches.fwStage (h : Reaches (.moving c) s₀ s) {q : Req} : Reaches (.moving c) s₀ (s.fwStage q).1 :=
  .iteFst h (.iteFst h (.iteFst h h.setBank.setPwr))

theorem execFwStage_reaches (h : Reaches (.moving true) s₀ s) {dt : Nat} {q : Req} : NextReaches s₀ (execFwStage dt q s) :=
  Reaches.next (h.advance.serve fun h => .iteFst h h.fwStage)

theorem execFwVerify_reaches (h : Reaches (.moving true) s₀ s) {dt : Nat} {q : Req} : NextReaches s₀ (execFwVerify dt q s) :=
  Reaches.next (h.advance.serve fun h => .iteFst h (.iteFst h (.iteFst h h.setBank)))

theorem execFwActivate_reaches (h : Reaches (.moving true) s₀ s) {dt : Nat} {q : Req} : NextReaches s₀ (execFwActivate dt q s) := by
  unfold execFwActivate
  refine Reaches.next (h.advance.serve fun h => ?_)
  split
  · exact h
  · exact .iteFst (.ite h.setPwr.setAll.drainFinals h.setPwr.setAll) h.setPwr

theorem Reaches.updateUnit (h : Reaches (.moving c) s₀ s) {t u : Nat} : Reaches (.moving c) s₀ (s.updateUnit t u) := by
  unfold State.updateUnit
  extract_lets st _ s₁
  have h₁ : Reaches (.moving c) s₀ s₁ := (Reaches.ite h.unitStops h).setUnit.newEpoch
  exact .ite h₁.unitResumes h₁

theorem Reaches.activated (h : Reaches (.moving true) s₀ s) {q : Req} {units : Nat} :
    Reaches (.moving true) s₀ (s.activated q units) := by
  unfold State.activated
  extract_lets _ _ _ _ s₁
  have h₁ : Reaches (.moving true) s₀ s₁ := h.setAll.foldl fun h => h.updateUnit
  exact (Reaches.ite h₁.setUnit.newEpoch.ctlReset.flushQueued h₁).firmwareRuns.bootRecord

theorem execFwActivationDrained_reaches (h : Reaches (.moving true) s₀ s) {dt : Nat} :
    NextReaches s₀ (execFwActivationDrained dt s) := by
  unfold execFwActivationDrained
  refine Reaches.next ?_
  split
  · exact .ite h.advance.activated h.advance
  · exact h.advance

theorem execFwInfo_reaches (h : Reaches (.moving true) s₀ s) {dt : Nat} {q : Req} : NextReaches s₀ (execFwInfo dt q s) :=
  Reaches.next (h.advance.serve fun h => h)

/-! ### Access -/

theorem execReadParam_reaches (h : Reaches (.moving true) s₀ s) {dt : Nat} {q : Req} : NextReaches s₀ (execReadParam dt q s) := by
  unfold execReadParam
  refine Reaches.next (h.advance.serve fun h => ?_)
  split
  · exact .ite h.count h
  · exact h

theorem execReadBatch_reaches (h : Reaches (.moving true) s₀ s) {dt : Nat} {q : Req} : NextReaches s₀ (execReadBatch dt q s) :=
  Reaches.next (h.advance.serve fun h => .iteFst h (.iteFst h h.count))

theorem Reaches.writeOne (h : Reaches (.moving true) s₀ s) {q : Req} {live : Bool} :
    Reaches (.moving true) s₀ (s.writeOne q live).1 := by
  unfold State.writeOne
  split
  · exact h.writeItems
  · exact .iteFst h h

theorem execWriteParam_reaches (h : Reaches (.moving true) s₀ s) {dt : Nat} {q : Req} : NextReaches s₀ (execWriteParam dt q s) :=
  Reaches.next (h.advance.serve fun h => .iteFst h (.iteFst h h.writeOne))

theorem execWriteLive_reaches (h : Reaches (.moving true) s₀ s) {dt : Nat} {q : Req} : NextReaches s₀ (execWriteLive dt q s) :=
  Reaches.next (h.advance.serve fun h => h.writeOne)

theorem execWriteBatch_reaches (h : Reaches (.moving true) s₀ s) {dt : Nat} {q : Req} : NextReaches s₀ (execWriteBatch dt q s) := by
  unfold execWriteBatch
  refine Reaches.next (h.advance.serve fun h => ?_)
  dsimp only
  refine .iteFst h (.iteFst h (.iteFst h (.iteFst h ?_)))
  split
  · exact h.writeItems
  · exact h

theorem Reaches.readCounters (h : Reaches σ s₀ s) {q : Req} {clear : Bool} : Reaches σ s₀ (s.readCounters q clear).1 := by
  unfold State.readCounters
  dsimp only
  refine .iteFst h ?_
  split
  · exact h
  · exact .iteFst h (.ite (h.foldl fun h => h.setCtr) h)

theorem execReadCounters_reaches (h : Reaches (.moving true) s₀ s) {dt : Nat} {q : Req} : NextReaches s₀ (execReadCounters dt q s) :=
  Reaches.next (h.advance.serve fun h => h.readCounters)

theorem execPeekCounters_reaches (h : Reaches (.moving true) s₀ s) {dt : Nat} {q : Req} : NextReaches s₀ (execPeekCounters dt q s) :=
  Reaches.next (h.advance.serve fun h => h.readCounters)

theorem execReadStatusBlock_reaches (h : Reaches (.moving true) s₀ s) {dt : Nat} {q : Req} :
    NextReaches s₀ (execReadStatusBlock dt q s) :=
  Reaches.next (h.advance.serve fun h => h)

theorem Reaches.readLow (h : Reaches σ s₀ s) {requester offset : Nat} : Reaches σ s₀ (s.readLow requester offset) :=
  h.setCtl.emit

theorem Reaches.readWhole (h : Reaches σ s₀ s) {offset : Nat} : Reaches σ s₀ (s.readWhole offset) :=
  h.emit.emit

theorem execLiveWindowLowRead_reaches (h : Reaches (.moving true) s₀ s) {dt requester : Nat} {read : HostRead} :
    NextReaches s₀ (execLiveWindowLowRead dt requester read s) := by
  unfold execLiveWindowLowRead
  refine Reaches.next ?_
  split
  · exact .ite h.advance.readLow h.advance
  · exact .ite h.advance.readWhole h.advance
  · exact .ite h.advance.emit h.advance

theorem execLiveWindowHighRead_reaches (h : Reaches (.moving true) s₀ s) {dt requester offset : Nat} :
    NextReaches s₀ (execLiveWindowHighRead dt requester offset s) := by
  unfold execLiveWindowHighRead
  refine Reaches.next (.ite ?_ h.advance)
  split
  · exact h.advance.setCtl.emit
  · exact h.advance.emit

theorem execLiveWindowWrite_reaches (h : Reaches (.moving true) s₀ s) {dt offset : Nat} {value : DWord} :
    NextReaches s₀ (execLiveWindowWrite dt offset value s) :=
  Reaches.next (.ite h.advance.count h.advance)

/-! ### Commit -/

theorem Reaches.setCommit (h : Reaches σ s₀ s) {c : Option Commit} : Reaches σ s₀ (s.setCommit c) :=
  h.setCtl

theorem Reaches.commitStart (h : Reaches σ s₀ s) {q : Req} : Reaches σ s₀ (s.commitStart q).1 :=
  .iteFst
    h.keepConflicts
    (.iteFst
       h.keepConflicts
       (.iteFst h.keepConflicts (.iteFst h.keepConflicts (.iteFst h.keepConflicts h.keepConflicts.setCommit))))

theorem execCommitMaquette_reaches (h : Reaches (.moving true) s₀ s) {dt : Nat} {q : Req} :
    NextReaches s₀ (execCommitMaquette dt q s) :=
  Reaches.next (h.advance.serve fun h => h.commitStart)

theorem Reaches.program (h : Reaches σ s₀ s) {c : Config} {n : Nat} : Reaches σ s₀ (s.program c n) :=
  h.setFlash.setCtl

theorem Reaches.programmed (h : Reaches σ s₀ s) : Reaches σ s₀ s.programmed := by
  unfold State.programmed
  split
  · exact h.setFlash.setCtl
  · exact h

theorem Reaches.rebase (h : Reaches σ s₀ s) {w : Nat} : Reaches σ s₀ (s.rebase w) :=
  h.setCtl.setFlash

theorem Reaches.flashCommit (h : Reaches σ s₀ s) {c : Commit} : Reaches σ s₀ (s.flashCommit c) :=
  h.setCommit.program

theorem Reaches.commitStore (h : Reaches σ s₀ s) {c : Commit} {b : Nat} : Reaches σ s₀ (s.commitStore c b) :=
  .ite h.setCtl.setCommit.setCtl (.ite h.setCtl.flashCommit h.setCtl.setCommit)

theorem Reaches.commitChecked (h : Reaches σ s₀ s) {c : Commit} : Reaches σ s₀ (s.commitChecked c) := by
  unfold State.commitChecked
  dsimp only
  refine .ite h.setCommit.keepConflicts.answerLater ?_
  split
  · exact h.setCommit.answerLater
  · exact h.commitStore.answerLater

theorem execCommitCheckDone_reaches (h : Reaches (.moving true) s₀ s) {dt : Nat} : NextReaches s₀ (execCommitCheckDone dt s) := by
  unfold execCommitCheckDone
  refine Reaches.next ?_
  split
  · exact .ite h.advance.commitChecked h.advance
  · exact h.advance

theorem execCommitFlashStored_reaches (h : Reaches (.moving true) s₀ s) {dt : Nat} : NextReaches s₀ (execCommitFlashStored dt s) := by
  unfold execCommitFlashStored
  refine Reaches.next ?_
  split
  · exact .ite h.advance.programmed.setCommit h.advance
  · exact h.advance

theorem Reaches.unstore (h : Reaches σ s₀ s) {c : Commit} : Reaches σ s₀ (s.unstore c) :=
  .ite (.ite h.setCommit h.setCommit.setFlash.setCtl) (.ite h.setCommit.setCtl h.setCommit)

theorem Reaches.commitReport (h : Reaches σ s₀ s) {c : Commit} {status block : Nat} : Reaches σ s₀ (s.commitReport c status block) :=
  h.logEv.notify

theorem Reaches.storeApplied (h : Reaches σ s₀ s) {c : Commit} : Reaches σ s₀ (s.storeApplied c) :=
  .ite h.rebase h.setCtl

theorem Reaches.commitApplied (h : Reaches (.moving true) s₀ s) {c : Commit} : Reaches (.moving true) s₀ (s.commitApplied c) :=
  h.applyConfig.offsetCommit.timCommit.storeApplied.setCtl.commitReport

theorem execCommitBoundary_reaches (h : Reaches (.moving true) s₀ s) {dt : Nat} : NextReaches s₀ (execCommitBoundary dt s) := by
  unfold execCommitBoundary
  refine Reaches.next ?_
  split
  · refine .ite ?_ h.advance
    split
    · exact h.advance.unstore.commitReport
    · exact h.advance.commitApplied
  · exact h.advance

theorem Reaches.discard (h : Reaches σ s₀ s) : Reaches σ s₀ s.discard.1 := by
  unfold State.discard
  dsimp only
  split
  · exact .iteFst h.keepConflicts h.keepConflicts.unstore.setCtl
  · exact h.keepConflicts.setCtl

theorem execDiscardMaquette_reaches (h : Reaches (.moving true) s₀ s) {dt : Nat} {q : Req} :
    NextReaches s₀ (execDiscardMaquette dt q s) :=
  Reaches.next (h.advance.serve fun h => h.discard)

theorem execDiffMaquette_reaches (h : Reaches (.moving true) s₀ s) {dt : Nat} {q : Req} : NextReaches s₀ (execDiffMaquette dt q s) :=
  Reaches.next (h.advance.serve fun h => h)

theorem execReadConflicts_reaches (h : Reaches (.moving true) s₀ s) {dt : Nat} {q : Req} : NextReaches s₀ (execReadConflicts dt q s) :=
  Reaches.next (h.advance.serve fun h => h)

theorem execConfigConsolidationStart_reaches (h : Reaches (.moving true) s₀ s) {dt : Nat} :
    NextReaches s₀ (execConfigConsolidationStart dt s) :=
  Reaches.next (.ite h.advance.program.setCtl h.advance)

theorem execConfigConsolidationDone_reaches (h : Reaches (.moving true) s₀ s) {dt : Nat} :
    NextReaches s₀ (execConfigConsolidationDone dt s) :=
  Reaches.next (.ite h.advance.programmed.rebase.setCtl h.advance)

theorem execConsolidationEraseDone_reaches (h : Reaches (.moving true) s₀ s) {dt : Nat} :
    NextReaches s₀ (execConsolidationEraseDone dt s) := by
  unfold execConsolidationEraseDone
  refine Reaches.next ?_
  dsimp only
  refine .ite ?_ h.advance
  split
  · exact .ite h.advance.setFlash.setCtl.flashCommit h.advance.setFlash.setCtl
  · exact h.advance.setFlash.setCtl

/-! ### EventLog -/

theorem Reaches.readLog (h : Reaches σ s₀ s) {m : Bool} {q : Req} : Reaches σ s₀ (s.readLog m q).1 :=
  .iteFst h (.iteFst h h.setLog)

theorem Reaches.freezeLog (h : Reaches σ s₀ s) {m : Bool} : Reaches σ s₀ (s.freezeLog m).1 :=
  .iteFst h h.set.setLog

theorem Reaches.thawLog (h : Reaches σ s₀ s) {m : Bool} {id : Nat} : Reaches σ s₀ (s.thawLog m id).1 := by
  unfold State.thawLog
  split
  · exact h
  · exact .iteFst h h.endFreeze

theorem Reaches.clearLog (h : Reaches σ s₀ s) : Reaches σ s₀ s.clearLog.1 :=
  .iteFst h h.setLog.logEv

theorem execLogRead_reaches (h : Reaches (.moving true) s₀ s) {dt : Nat} {q : Req} : NextReaches s₀ (execLogRead dt q s) :=
  Reaches.next (h.advance.serve fun h => h.readLog)

theorem execMlogRead_reaches (h : Reaches (.moving true) s₀ s) {dt : Nat} {q : Req} : NextReaches s₀ (execMlogRead dt q s) :=
  Reaches.next (h.advance.serve fun h => h.readLog)

theorem execLogFreeze_reaches (h : Reaches (.moving true) s₀ s) {dt : Nat} {q : Req} : NextReaches s₀ (execLogFreeze dt q s) :=
  Reaches.next (h.advance.serve fun h => h.freezeLog)

theorem execLogThaw_reaches (h : Reaches (.moving true) s₀ s) {dt : Nat} {q : Req} : NextReaches s₀ (execLogThaw dt q s) :=
  Reaches.next (h.advance.serve fun h => h.thawLog)

theorem execLogClear_reaches (h : Reaches (.moving true) s₀ s) {dt : Nat} {q : Req} : NextReaches s₀ (execLogClear dt q s) :=
  Reaches.next (h.advance.serve fun h => .iteFst h h.clearLog)

theorem execFreezeMaxTimeout_reaches (h : Reaches (.moving true) s₀ s) {dt : Nat} {metrological : Bool} :
    NextReaches s₀ (execFreezeMaxTimeout dt metrological s) := by
  unfold execFreezeMaxTimeout
  dsimp only
  split
  · exact Reaches.next (.ite h.advance.endFreeze h.advance)
  · exact h.advance.next

theorem execLogFlushTimer_reaches (h : Reaches (.moving true) s₀ s) {dt : Nat} : NextReaches s₀ (execLogFlushTimer dt s) :=
  Reaches.next (.ite h.advance.set.flushLogs h.advance)

theorem execTokenRefill_reaches (h : Reaches (.moving true) s₀ s) {dt code : Nat} : NextReaches s₀ (execTokenRefill dt code s) :=
  Reaches.next (.ite h.advance.setBucket h.advance)

/-! ### Session -/

theorem execNop_reaches (h : Reaches (.moving true) s₀ s) {dt : Nat} {q : Req} : NextReaches s₀ (execNop dt q s) :=
  Reaches.next (h.advance.serve fun h => h)

theorem execIdentify_reaches (h : Reaches (.moving true) s₀ s) {dt : Nat} {q : Req} : NextReaches s₀ (execIdentify dt q s) :=
  Reaches.next (h.advance.serve fun h => h)

theorem execGetState_reaches (h : Reaches (.moving true) s₀ s) {dt : Nat} {q : Req} : NextReaches s₀ (execGetState dt q s) :=
  Reaches.next (h.advance.serve fun h => h)

theorem execEchoTime_reaches (h : Reaches (.moving true) s₀ s) {dt : Nat} {q : Req} : NextReaches s₀ (execEchoTime dt q s) :=
  Reaches.next (h.advance.serve fun h => .iteFst h h)

theorem Reaches.endSession (h : Reaches σ s₀ s) {n : Nat} : Reaches σ s₀ (s.endSession n) :=
  h.ended (erase_sublist _ n)

theorem Reaches.openPhase1 (h : Reaches σ s₀ s) {q : Req} : Reaches σ s₀ (s.openPhase1 q).1 := by
  unfold State.openPhase1
  dsimp only
  refine .iteFst h.count (.iteFst h ?_)
  split
  · exact h
  · split
    · exact h
    · next free => exact h.draw.opened _ _ (Nat.lt_of_not_le free)

theorem Reaches.openPhase2 (h : Reaches σ s₀ s) {q : Req} : Reaches σ s₀ (s.openPhase2 q).1 := by
  unfold State.openPhase2
  split
  · exact h.count
  · next found => exact .iteFst h (.iteFst h.endSession (.iteFst h (.iteFst h (h.touch _ found))))

theorem Reaches.serveOpen (h : Reaches σ s₀ s) {q : Req} : Reaches σ s₀ (s.serveOpen q) := by
  unfold State.serveOpen
  refine h.serve fun h => ?_
  split
  · exact h.openPhase1
  · exact h.openPhase2
  · exact h

theorem execOpenSessionPhase1_reaches (h : Reaches (.moving true) s₀ s) {dt : Nat} {q : Req} :
    NextReaches s₀ (execOpenSessionPhase1 dt q s) :=
  h.advance.serveOpen.next

theorem execOpenSessionPhase2_reaches (h : Reaches (.moving true) s₀ s) {dt : Nat} {q : Req} :
    NextReaches s₀ (execOpenSessionPhase2 dt q s) :=
  h.advance.serveOpen.next

theorem execSessionPhase2Timeout_reaches (h : Reaches (.moving true) s₀ s) {dt session : Nat} :
    NextReaches s₀ (execSessionPhase2Timeout dt session s) := by
  unfold execSessionPhase2Timeout
  refine Reaches.next ?_
  split
  · exact .ite h.advance.endSession h.advance
  · exact h.advance

theorem execCloseSession_reaches (h : Reaches (.moving true) s₀ s) {dt : Nat} {q : Req} : NextReaches s₀ (execCloseSession dt q s) :=
  Reaches.next (h.advance.serve fun h => h.endSession)

theorem execSessionIdleTimeout_reaches (h : Reaches (.moving true) s₀ s) {dt session : Nat} :
    NextReaches s₀ (execSessionIdleTimeout dt session s) := by
  unfold execSessionIdleTimeout
  refine Reaches.next ?_
  split
  · exact .ite h.advance.endSession h.advance
  · exact h.advance

/-! ### Rings -/

theorem Reaches.disableRing (h : Reaches σ s₀ s) {n : Nat} : Reaches σ s₀ (s.disableRing n) :=
  h.setRing.setCtl

theorem execRingCtlWrite_reaches (h : Reaches (.moving true) s₀ s) {dt ring : Nat} {value : Word} :
    NextReaches s₀ (execRingCtlWrite dt ring value s) :=
  Reaches.next (.ite (.ite h.advance.disableRing (.ite h.advance.setRing h.advance)) h.advance)

theorem Reaches.releaseIrq (h : Reaches σ s₀ s) {v : Nat} : Reaches σ s₀ (s.releaseIrq v) :=
  .ite h.setCtl.emit h

theorem execBar0RegisterWrite_reaches (h : Reaches (.moving true) s₀ s) {dt offset : Nat} {value : Word} :
    NextReaches s₀ (execBar0RegisterWrite dt offset value s) :=
  Reaches.next (.ite
      (.ite h.advance.setCtl (.ite h.advance.setCtl (.ite h.advance.setRing (.ite h.advance.setCtl.releaseIrq h.advance))))
      h.advance)

theorem Reaches.placeWaiting (h : Reaches σ s₀ s) {n k : Nat} : Reaches σ s₀ (s.placeWaiting n k) := by
  induction k generalizing s with
  | zero => exact h
  | succ k ih =>
    unfold State.placeWaiting
    split
    · exact ih h.setRing.placeReply
    · exact h

theorem Reaches.ringData (h : Reaches σ s₀ s) {n k : Nat} {d : RingData} : Reaches σ s₀ (s.ringData n k d) := by
  unfold State.ringData
  dsimp only
  split
  · exact .ite (h.setCtl.foldl fun h => h.fetchMore) h
  · exact .ite h.setRing h
  · exact .ite h.setRing.placeWaiting h

theorem execDoorbellWrite_reaches (h : Reaches (.moving true) s₀ s) {dt ring index : Nat} {data : RingData} :
    NextReaches s₀ (execDoorbellWrite dt ring index data s) :=
  Reaches.next (.ite h.advance.setRing.ringData h.advance)

theorem execReplyWaitTimeout_reaches (h : Reaches (.moving true) s₀ s) {dt ring : Nat} :
    NextReaches s₀ (execReplyWaitTimeout dt ring s) := by
  unfold execReplyWaitTimeout
  refine Reaches.next ?_
  split
  · exact .ite h.advance.setRing.count h.advance
  · exact h.advance

theorem execIrqHoldoffExpiry_reaches (h : Reaches (.moving true) s₀ s) {dt vector : Nat} :
    NextReaches s₀ (execIrqHoldoffExpiry dt vector s) :=
  h.advance.releaseIrq.next

theorem execPePerstNAssert_reaches (h : Reaches (.moving true) s₀ s) {dt : Nat} : NextReaches s₀ (execPePerstNAssert dt s) :=
  (h.advance.foldl fun h => h.setRing.disableRing).setCtl.count.next

theorem execPePerstNRelease_reaches (h : Reaches (.moving true) s₀ s) {dt : Nat} : NextReaches s₀ (execPePerstNRelease dt s) :=
  h.advance.setCtl.next

theorem Reaches.badPacket (h : Reaches σ s₀ s) {c : Carriage} {l : List Byte} {st : Nat} : Reaches σ s₀ (s.badPacket c l st) :=
  h.framingReply

theorem execPacketBadFraming_reaches (h : Reaches (.moving true) s₀ s) {dt : Nat} {c : Carriage} {bufLen : Nat} {bytes : List Byte} :
    NextReaches s₀ (execPacketBadFraming dt c bufLen bytes s) := by
  unfold execPacketBadFraming
  refine Reaches.next ?_
  dsimp only
  refine .ite ?_ h.advance
  split
  · exact h.advance.release.arrive.badPacket
  · refine .ite h.advance ?_
    split
    · next e => exact (Reaches.of_eq e h.advance.release.arrive).poisonedRequest
    · next e => exact (Reaches.of_eq e h.advance.release.arrive).answer

theorem execUartFrameBad_reaches (h : Reaches (.moving true) s₀ s) {dt : Nat} {frame : List Byte} :
    NextReaches s₀ (execUartFrameBad dt frame s) :=
  Reaches.next (.ite h.advance.count h.advance)

theorem Reaches.tcpAccept (h : Reaches σ s₀ s) {port lport use owner : Nat} {peer : Peer} :
    Reaches σ s₀ (s.tcpAccept port lport use owner peer) := by
  unfold State.tcpAccept
  split
  · exact h.setCtl.emit
  · exact h

theorem Reaches.tcpSyn (h : Reaches σ s₀ s) {port tcpPort : Nat} {peer : Peer} : Reaches σ s₀ (s.tcpSyn port tcpPort peer) := by
  unfold State.tcpSyn
  split
  · exact .ite h.emit h.tcpAccept
  · exact .ite (.ite h.tcpAccept h.count.emit) h

theorem execTcpConnectionRequest_reaches (h : Reaches (.moving true) s₀ s) {dt port tcpPort : Nat} {peer : Peer} :
    NextReaches s₀ (execTcpConnectionRequest dt port tcpPort peer s) :=
  Reaches.next (.ite h.advance.tcpSyn h.advance)

theorem execTcpConnectionIdleClose_reaches (h : Reaches (.moving true) s₀ s) {dt conn : Nat} :
    NextReaches s₀ (execTcpConnectionIdleClose dt conn s) := by
  unfold execTcpConnectionIdleClose
  refine Reaches.next ?_
  split
  · exact .ite h.advance.tcpEnd h.advance
  · exact h.advance

end Operations

/-! ### The commands -/

theorem exec_reaches (c : Instr) (s : State) : NextReaches s (exec c s) :=
  match c with
  | .nop .. => execNop_reaches (.refl s)
  | .identify .. => execIdentify_reaches (.refl s)
  | .getState .. => execGetState_reaches (.refl s)
  | .setState .. => execSetState_reaches (.refl s)
  | .openSessionPhase1 .. => execOpenSessionPhase1_reaches (.refl s)
  | .openSessionPhase2 .. => execOpenSessionPhase2_reaches (.refl s)
  | .sessionPhase2Timeout .. => execSessionPhase2Timeout_reaches (.refl s)
  | .closeSession .. => execCloseSession_reaches (.refl s)
  | .sessionIdleTimeout .. => execSessionIdleTimeout_reaches (.refl s)
  | .echoTime .. => execEchoTime_reaches (.refl s)
  | .readParam .. => execReadParam_reaches (.refl s)
  | .writeParam .. => execWriteParam_reaches (.refl s)
  | .writeLive .. => execWriteLive_reaches (.refl s)
  | .readBatch .. => execReadBatch_reaches (.refl s)
  | .writeBatch .. => execWriteBatch_reaches (.refl s)
  | .commitMaquette .. => execCommitMaquette_reaches (.refl s)
  | .commitCheckDone .. => execCommitCheckDone_reaches (.refl s)
  | .commitFlashStored .. => execCommitFlashStored_reaches (.refl s)
  | .commitBoundary .. => execCommitBoundary_reaches (.refl s)
  | .discardMaquette .. => execDiscardMaquette_reaches (.refl s)
  | .diffMaquette .. => execDiffMaquette_reaches (.refl s)
  | .readConflicts .. => execReadConflicts_reaches (.refl s)
  | .configConsolidationStart .. => execConfigConsolidationStart_reaches (.refl s)
  | .configConsolidationDone .. => execConfigConsolidationDone_reaches (.refl s)
  | .readCounters .. => execReadCounters_reaches (.refl s)
  | .peekCounters .. => execPeekCounters_reaches (.refl s)
  | .readStatusBlock .. => execReadStatusBlock_reaches (.refl s)
  | .packetBadFraming .. => execPacketBadFraming_reaches (.refl s)
  | .uartFrameBad .. => execUartFrameBad_reaches (.refl s)
  | .tcpConnectionRequest .. => execTcpConnectionRequest_reaches (.refl s)
  | .tcpConnectionIdleClose .. => execTcpConnectionIdleClose_reaches (.refl s)
  | .replyWaitTimeout .. => execReplyWaitTimeout_reaches (.refl s)
  | .doorbellWrite .. => execDoorbellWrite_reaches (.refl s)
  | .ringCtlWrite .. => execRingCtlWrite_reaches (.refl s)
  | .bar0RegisterWrite .. => execBar0RegisterWrite_reaches (.refl s)
  | .liveWindowLowRead .. => execLiveWindowLowRead_reaches (.refl s)
  | .liveWindowHighRead .. => execLiveWindowHighRead_reaches (.refl s)
  | .liveWindowWrite _ offset value => execLiveWindowWrite_reaches (.refl s) (offset := offset) (value := value)
  | .pePerstNAssert .. => execPePerstNAssert_reaches (.refl s)
  | .pcieL1ExitWake .. => execPcieL1ExitWake_reaches (.refl s)
  | .frameReceived .. => execFrameReceived_reaches (.refl s)
  | .rxFrameSteer .. => execRxFrameSteer_reaches (.refl s)
  | .fragmentReceived .. => execFragmentReceived_reaches (.refl s)
  | .reassemblyTimeout .. => execReassemblyTimeout_reaches (.refl s)
  | .phyStatusPoll .. => execPhyStatusPoll_reaches (.refl s)
  | .linkDown .. => execLinkDown_reaches (.refl s)
  | .linkUp .. => execLinkUp_reaches (.refl s)
  | .txSend .. => execTxSend_reaches (.refl s)
  | .txFrame .. => execTxFrame_reaches (.refl s)
  | .downshiftWindow .. => execDownshiftWindow_reaches (.refl s)
  | .downshiftLinkTimeout .. => execDownshiftLinkTimeout_reaches (.refl s)
  | .wakeFrame .. => execWakeFrame_reaches (.refl s)
  | .ptpAnnounceReceived .. => execPtpAnnounceReceived_reaches (.refl s)
  | .ptpSyncReceived .. => execPtpSyncReceived_reaches (.refl s)
  | .ptpPdelayReqReceived .. => execPtpPdelayReqReceived_reaches (.refl s)
  | .ptpAnnounceInterval .. => execPtpAnnounceInterval_reaches (.refl s)
  | .ptpAnnounceTimeout .. => execPtpAnnounceTimeout_reaches (.refl s)
  | .irigFrameReceived .. => execIrigFrameReceived_reaches (.refl s)
  | .irigFrameMissing .. => execIrigFrameMissing_reaches (.refl s)
  | .ppsInEdge .. => execPpsInEdge_reaches (.refl s)
  | .ppsInMissing .. => execPpsInMissing_reaches (.refl s)
  | .referenceQualified .. => execReferenceQualified_reaches (.refl s)
  | .referenceDisqualified .. => execReferenceDisqualified_reaches (.refl s)
  | .referenceRevert .. => execReferenceRevert_reaches (.refl s)
  | .tqChange .. => execTqChange_reaches (.refl s)
  | .timeQualityHoldEnd .. => execTimeQualityHoldEnd_reaches (.refl s)
  | .ppsOutSecond .. => execPpsOutSecond_reaches (.refl s)
  | .ref10mLoss .. => execRef10mLoss_reaches (.refl s)
  | .ref10mRestore .. => execRef10mRestore_reaches (.refl s)
  | .leapSecondApply .. => execLeapSecondApply_reaches (.refl s)
  | .plinthTimeSet .. => execPlinthTimeSet_reaches (.refl s)
  | .ingressFrame .. => execIngressFrame_reaches (.refl s)
  | .c37CfgReceived .. => execC37CfgReceived_reaches (.refl s)
  | .cfgRetryTimer .. => execCfgRetryTimer_reaches (.refl s)
  | .c37ReconnectTimer .. => execC37ReconnectTimer_reaches (.refl s)
  | .sourceDead .. => execSourceDead_reaches (.refl s)
  | .sourceDefine .. => execSourceDefine_reaches (.refl s)
  | .sourceRemove .. => execSourceRemove_reaches (.refl s)
  | .sourceQuery .. => execSourceQuery_reaches (.refl s)
  | .catalogueRead .. => execCatalogueRead_reaches (.refl s)
  | .slotOpen .. => execSlotOpen_reaches (.refl s)
  | .slotCloseAtNominal .. => execSlotCloseAtNominal_reaches (.refl s)
  | .slotDeadlineTick .. => execSlotDeadlineTick_reaches (.refl s)
  | .revBatchExpiry .. => execRevBatchExpiry_reaches (.refl s)
  | .revHorizonExpiry .. => execRevHorizonExpiry_reaches (.refl s)
  | .slotRelease .. => execSlotRelease_reaches (.refl s)
  | .deepWaitEditionReady .. => execDeepWaitEditionReady_reaches (.refl s)
  | .oafLayoutRepeat .. => execOafLayoutRepeat_reaches (.refl s)
  | .c37OutputCommand .. => execC37OutputCommand_reaches (.refl s)
  | .podReadSlot .. => execPodReadSlot_reaches (.refl s)
  | .podSubscribe .. => execPodSubscribe_reaches (.refl s)
  | .fdEvaluate .. => execFdEvaluate_reaches (.refl s)
  | .mtSlotRead .. => execMtSlotRead_reaches (.refl s)
  | .mtExtractionStart .. => execMtExtractionStart_reaches (.refl s)
  | .mtExtractionDone .. => execMtExtractionDone_reaches (.refl s)
  | .mtSignalRejoin .. => execMtSignalRejoin_reaches (.refl s)
  | .armStatusChange .. => execArmStatusChange_reaches (.refl s)
  | .dinStatusDebounced .. => execDinStatusDebounced_reaches (.refl s)
  | .travelTimeout .. => execTravelTimeout_reaches (.refl s)
  | .armRecomputeDone .. => execArmRecomputeDone_reaches (.refl s)
  | .armMeasEvaluate .. => execArmMeasEvaluate_reaches (.refl s)
  | .balEvaluate .. => execBalEvaluate_reaches (.refl s)
  | .balRecSlot .. => execBalRecSlot_reaches (.refl s)
  | .balRecIntervalClose .. => execBalRecIntervalClose_reaches (.refl s)
  | .cusStep .. => execCusStep_reaches (.refl s)
  | .directionDebounce .. => execDirectionDebounce_reaches (.refl s)
  | .totalsSave .. => execTotalsSave_reaches (.refl s)
  | .profileBoundary .. => execProfileBoundary_reaches (.refl s)
  | .profileSigned .. => execProfileSigned_reaches (.refl s)
  | .cusReadRegisters .. => execCusReadRegisters_reaches (.refl s)
  | .cusReadProfile .. => execCusReadProfile_reaches (.refl s)
  | .cusAckProfile .. => execCusAckProfile_reaches (.refl s)
  | .cusSealSeal .. => execCusSealSeal_reaches (.refl s)
  | .cusSealBreak .. => execCusSealBreak_reaches (.refl s)
  | .cusSealClearRegisters .. => execCusSealClearRegisters_reaches (.refl s)
  | .cusSealedUpdate .. => execCusSealedUpdate_reaches (.refl s)
  | .cusReadLegalId .. => execCusReadLegalId_reaches (.refl s)
  | .owChop .. => execOwChop_reaches (.refl s)
  | .auxDwellStart .. => execAuxDwellStart_reaches (.refl s)
  | .calCycleStart .. => execCalCycleStart_reaches (.refl s)
  | .calComparisonDone .. => execCalComparisonDone_reaches (.refl s)
  | .calCalibrationDone .. => execCalCalibrationDone_reaches (.refl s)
  | .fltBankSwap .. => execFltBankSwap_reaches (.refl s)
  | .localSourceReport .. => execLocalSourceReport_reaches (.refl s)
  | .capRow .. => execCapRow_reaches (.refl s)
  | .dinTriggerEdge .. => execDinTriggerEdge_reaches (.refl s)
  | .capAutoTimeout .. => execCapAutoTimeout_reaches (.refl s)
  | .capRearmEnd .. => execCapRearmEnd_reaches (.refl s)
  | .capArm .. => execCapArm_reaches (.refl s)
  | .capDisarm .. => execCapDisarm_reaches (.refl s)
  | .capForce .. => execCapForce_reaches (.refl s)
  | .capRead .. => execCapRead_reaches (.refl s)
  | .capSetRewind .. => execCapSetRewind_reaches (.refl s)
  | .capExport .. => execCapExport_reaches (.refl s)
  | .capRelease .. => execCapRelease_reaches (.refl s)
  | .lgcScan .. => execLgcScan_reaches (.refl s)
  | .lgcOutputWrite .. => execLgcOutputWrite_reaches (.refl s)
  | .gooseRepeat .. => execGooseRepeat_reaches (.refl s)
  | .stationControlAck .. => execStationControlAck_reaches (.refl s)
  | .stationAckTimeout .. => execStationAckTimeout_reaches (.refl s)
  | .stationRefresh .. => execStationRefresh_reaches (.refl s)
  | .lgcLoad .. => execLgcLoad_reaches (.refl s)
  | .lgcImageStored .. => execLgcImageStored_reaches (.refl s)
  | .lgcStart .. => execLgcStart_reaches (.refl s)
  | .lgcStop .. => execLgcStop_reaches (.refl s)
  | .lgcForce .. => execLgcForce_reaches (.refl s)
  | .lgcRelease .. => execLgcRelease_reaches (.refl s)
  | .lgcOnlineChange .. => execLgcOnlineChange_reaches (.refl s)
  | .lgcReadVars .. => execLgcReadVars_reaches (.refl s)
  | .keyUpdateSetAnchor .. => execKeyUpdateSetAnchor_reaches (.refl s)
  | .keyUpdateRekeyRoot .. => execKeyUpdateRekeyRoot_reaches (.refl s)
  | .keyUpdateGenerate .. => execKeyUpdateGenerate_reaches (.refl s)
  | .keyUpdateDerive .. => execKeyUpdateDerive_reaches (.refl s)
  | .keyUpdateLoadWrapped .. => execKeyUpdateLoadWrapped_reaches (.refl s)
  | .keyUpdateLoadPublic .. => execKeyUpdateLoadPublic_reaches (.refl s)
  | .keyInvalidate .. => execKeyInvalidate_reaches (.refl s)
  | .vaultJournalCommit .. => execVaultJournalCommit_reaches (.refl s)
  | .keyInfo .. => execKeyInfo_reaches (.refl s)
  | .keyInfoExport .. => execKeyInfoExport_reaches (.refl s)
  | .sign .. => execSign_reaches (.refl s)
  | .verify .. => execVerify_reaches (.refl s)
  | .deviceCert .. => execDeviceCert_reaches (.refl s)
  | .counterRead .. => execCounterRead_reaches (.refl s)
  | .tamperDetected .. => execTamperDetected_reaches (.refl s)
  | .supplyMeasurement .. => execSupplyMeasurement_reaches (.refl s)
  | .batteryInsertion .. => execBatteryInsertion_reaches (.refl s)
  | .logRead .. => execLogRead_reaches (.refl s)
  | .mlogRead .. => execMlogRead_reaches (.refl s)
  | .logFreeze .. => execLogFreeze_reaches (.refl s)
  | .logThaw .. => execLogThaw_reaches (.refl s)
  | .logClear .. => execLogClear_reaches (.refl s)
  | .freezeMaxTimeout .. => execFreezeMaxTimeout_reaches (.refl s)
  | .logFlushTimer .. => execLogFlushTimer_reaches (.refl s)
  | .tokenRefill .. => execTokenRefill_reaches (.refl s)
  | .delayExpiry .. => execDelayExpiry_reaches (.refl s)
  | .coreSelfTestTimer .. => execCoreSelfTestTimer_reaches (.refl s)
  | .coreRetire .. => execCoreRetire_reaches (.refl s)
  | .fifoLevelHit .. => execFifoLevelHit_reaches (.refl s)
  | .schedStats .. => execSchedStats_reaches (.refl s)
  | .selfTest .. => execSelfTest_reaches (.refl s)
  | .unitQuiesce .. => execUnitQuiesce_reaches (.refl s)
  | .unitQuiesceDrained .. => execUnitQuiesceDrained_reaches (.refl s)
  | .unitQuiesceTimeout .. => execUnitQuiesceTimeout_reaches (.refl s)
  | .unitReset .. => execUnitReset_reaches (.refl s)
  | .unitResume .. => execUnitResume_reaches (.refl s)
  | .fwStage .. => execFwStage_reaches (.refl s)
  | .fwVerify .. => execFwVerify_reaches (.refl s)
  | .fwActivate .. => execFwActivate_reaches (.refl s)
  | .fwActivationDrained .. => execFwActivationDrained_reaches (.refl s)
  | .fwInfo .. => execFwInfo_reaches (.refl s)
  | .spareStatus .. => execSpareStatus_reaches (.refl s)
  | .patinaRead .. => execPatinaRead_reaches (.refl s)
  | .powerUp .. => execPowerUp_reaches (.refl s)
  | .resetNAssert .. => execResetNAssert_reaches (.refl s)
  | .resetNRelease .. => execResetNRelease_reaches (.refl s)
  | .bootComplete .. => execBootComplete_reaches (.refl s)
  | .lockWaitTimeout .. => execLockWaitTimeout_reaches (.refl s)
  | .pfwNFall .. => execPfwNFall_reaches (.refl s)
  | .pfwNReturn .. => execPfwNReturn_reaches (.refl s)
  | .supplyOutOfTolerance .. => execSupplyOutOfTolerance_reaches (.refl s)
  | .sramScrubPass .. => execSramScrubPass_reaches (.refl s)
  | .dramPageRetire .. => execDramPageRetire_reaches (.refl s)
  | .mramBlockRetire .. => execMramBlockRetire_reaches (.refl s)
  | .marginMonitor .. => execMarginMonitor_reaches (.refl s)
  | .patinaSave .. => execPatinaSave_reaches (.refl s)
  | .samplingInstant .. => execSamplingInstant_reaches (.refl s)
  | .ppsOutWidthEnd .. => execPpsOutWidthEnd_reaches (.refl s)
  | .irqHoldoffExpiry .. => execIrqHoldoffExpiry_reaches (.refl s)
  | .fifoLevelRelease .. => execFifoLevelRelease_reaches (.refl s)
  | .selfTestDone .. => execSelfTestDone_reaches (.refl s)
  | .consolidationEraseDone .. => execConsolidationEraseDone_reaches (.refl s)
  | .dinPulseEdge .. => execDinPulseEdge_reaches (.refl s)
  | .pePerstNRelease .. => execPePerstNRelease_reaches (.refl s)
  | .operatingSecond .. => execOperatingSecond_reaches (.refl s)

/-! ### What a scope leaves -/

/-- In the scope `.still` neither the power state nor the configuration is written. -/
theorem Reaches.still {s₀ s : State} (h : Reaches .still s₀ s) : s.pwr = s₀.pwr ∧ s.ctl.cfg = s₀.ctl.cfg := by
  induction h with
  | here => exact ⟨rfl, rfl⟩
  | write _ e ih =>
    obtain ⟨-, -, -, -, -, pwr, cfg⟩ := e
    exact ⟨pwr.trans ih.1, cfg.trans ih.2⟩
  | send _ _ ih => exact ih
  | degrade _ _ ih => exact ih
  | touch _ _ _ ih => exact ih
  | opened _ _ _ _ ih => exact ih
  | ended _ _ ih => exact ih
  | power _ _ moves _ => exact absurd rfl moves
  | config _ _ moves _ => nomatch moves

/-- In the scope `.moving false` the configuration is not written. -/
theorem Reaches.cfg_eq {s₀ s : State} (h : Reaches (.moving false) s₀ s) : s.ctl.cfg = s₀.ctl.cfg := by
  induction h with
  | here => rfl
  | write _ e ih =>
    obtain ⟨-, -, -, -, -, -, cfg⟩ := e
    exact cfg.trans ih
  | send _ _ ih => exact ih
  | degrade _ _ ih => exact ih
  | touch _ _ _ ih => exact ih
  | opened _ _ _ _ ih => exact ih
  | ended _ _ ih => exact ih
  | power _ _ _ ih => exact ih
  | config _ _ moves _ => nomatch moves

/-! ### At most 32 sessions -/

/-- Leaving entries out keeps the keys above a bound. -/
theorem above_sublist {β : Type} {m m' : AMap β} (h : m'.Sublist m) {lo : Nat} (rising : AMap.above lo m = true) :
    AMap.above lo m' = true := by
  induction h generalizing lo with
  | slnil => rfl
  | cons p _ ih =>
    simp only [AMap.above, Bool.and_eq_true, decide_eq_true_eq] at rising
    exact ih (AMap.above_mono rising.2 rising.1.le)
  | cons_cons p _ ih =>
    simp only [AMap.above, Bool.and_eq_true, decide_eq_true_eq] at rising ⊢
    exact ⟨rising.1, ih rising.2⟩

/-- Leaving entries out keeps the keys rising. -/
theorem wf_sublist {β : Type} {m m' : AMap β} (h : m'.Sublist m) (rising : m.wf = true) : m'.wf = true := by
  induction h with
  | slnil => rfl
  | cons p _ ih => exact ih (AMap.wf_of_above rising)
  | cons_cons p sub _ => exact above_sublist sub rising

/-- The sessions stand in order of their numbers, and at most 32 are open (R46). -/
def SessionsFit (s : State) : Prop := s.ctl.sessions.wf = true ∧ s.ctl.sessions.length ≤ 32

/-- No kind of write opens a 33rd session. -/
theorem Reaches.sessionsFit {σ : Scope} {s₀ s : State} (h : Reaches σ s₀ s) (fit : SessionsFit s₀) : SessionsFit s := by
  induction h with
  | here => exact fit
  | write _ e ih =>
    obtain ⟨-, -, -, sessions, -, -, -⟩ := e
    rw [SessionsFit, sessions]
    exact ih
  | send l _ ih => exact ih
  | degrade b _ ih => exact ih
  | touch y _ found ih => exact ⟨AMap.wf_set _ _ ih.1, (AMap.length_set_of_listed y ih.1 found).trans_le ih.2⟩
  | opened n x _ free ih => exact ⟨AMap.wf_set _ _ ih.1, (AMap.length_set_le _ _ _).trans free⟩
  | ended _ sub ih => exact ⟨wf_sublist sub ih.1, sub.length_le.trans ih.2⟩
  | power p _ _ ih => exact ih
  | config c _ _ ih => exact ih

/-- What every command keeps, every step keeps: of the rest of the queue it takes the command from. -/
theorem step_reaches {s t : State} (e : step s = .next t) : Reaches (.moving true) { s with pending := s.pending.tail } t := by
  unfold step at e
  split at e
  · next empty => cases e; exact .write .here (by simp only [Guarded, empty, List.tail_nil, and_self])
  · next c rest queue =>
    have reached := exec_reaches c { s with pending := rest }
    rw [e] at reached
    rw [queue]
    exact reached

/-- Settles O8: a step writes the sessions in the ways of `Reaches` alone (`step_reaches`), and none of these opens a 33rd. -/
theorem atMost32SessionsAreOpen : Obligations.AtMost32SessionsAreOpen :=
  fun _ _ rising most e => (step_reaches e).sessionsFit ⟨rising, most⟩

end Sys2Proof.Laws
end

section
/-! SUPPORT. Packets (R31 to R33): words written as bytes read back, in either byte order, and so does a packet. -/

namespace Sys2Proof.Laws

open Sys2Proof.Machine

/-- Words as the bytes of a carriage of that byte order (R7, R31). -/
def carried (big : Bool) (ws : List Word) : List Byte := if big then wordsBe ws else wordsLe ws

/-- `n` words from the bytes of a carriage of that byte order. -/
def readWords (big : Bool) (n : Nat) (l : List Byte) : List Word := if big then beWords n l else leWords n l

theorem length_leBytes (n x : Nat) : (leBytes n x).length = n := by
  induction n generalizing x with
  | zero => rfl
  | succ n ih => simp [leBytes, ih]

theorem ofLe_leBytes (n x : Nat) : ofLe (leBytes n x) = x % 256 ^ n := by
  induction n generalizing x with
  | zero => simp [leBytes, ofLe, Nat.mod_one]
  | succ n ih =>
    rw [leBytes, ofLe, ih, Nat.pow_succ', Nat.mod_mul]
    rfl

theorem ofBe_reverse (l : List Byte) : ofBe l.reverse = ofLe l := by
  induction l with
  | nil => rfl
  | cons b l ih =>
    rw [ofBe] at ih
    rw [ofBe, List.reverse_cons, List.foldl_append, ih]
    exact Nat.add_comm ..

theorem ofBe_beBytes (n x : Nat) : ofBe (beBytes n x) = x % 256 ^ n := by
  rw [beBytes, ofBe_reverse, ofLe_leBytes]

@[simp] theorem carried_nil (big : Bool) : carried big [] = [] := by cases big <;> rfl

theorem carried_append (big : Bool) (ws ws' : List Word) : carried big (ws ++ ws') = carried big ws ++ carried big ws' := by
  cases big <;> simp [carried, wordsBe, wordsLe]

theorem carried_cons (big : Bool) (w : Word) (ws : List Word) : carried big (w :: ws) = carried big [w] ++ carried big ws :=
  carried_append big [w] ws

@[simp] theorem length_carried (big : Bool) (ws : List Word) : (carried big ws).length = 4 * ws.length := by
  cases big <;> simp [carried, wordsBe, wordsLe, beBytes, length_leBytes, Nat.mul_comm]

theorem length_carried_singleton (big : Bool) (w : Word) : (carried big [w]).length = 4 := length_carried big [w]

theorem readWords_zero (big : Bool) (l : List Byte) : readWords big 0 l = [] := by cases big <;> rfl

theorem readWords_succ (big : Bool) (n : Nat) (l : List Byte) : readWords big (n + 1) l =
    BitVec.ofNat 32 (if big then ofBe (l.take 4) else ofLe (l.take 4)) :: readWords big n (l.drop 4) := by
  cases big <;> rfl

/-- A word written reads back. -/
theorem read_carried_singleton (big : Bool) (w : Word) :
    BitVec.ofNat 32 (if big then ofBe (carried big [w]) else ofLe (carried big [w])) = w := by
  have small : w.toNat % 4294967296 = w.toNat := Nat.mod_eq_of_lt w.isLt
  cases big <;> simp [carried, wordsBe, wordsLe, ofBe_beBytes, ofLe_leBytes, small]

/-- Words written read back, and what stands behind them is read on. -/
theorem readWords_carried_append (big : Bool) (ws : List Word) (n : Nat) (l : List Byte) :
    readWords big (ws.length + n) (carried big ws ++ l) = ws ++ readWords big n l := by
  induction ws with
  | nil => simp
  | cons w ws ih =>
    have first := length_carried_singleton big w
    rw [List.length_cons, Nat.add_right_comm, readWords_succ, carried_cons, List.append_assoc,
      List.take_left' first, List.drop_left' first, read_carried_singleton, ih]
    rfl

theorem readWords_carried (big : Bool) (ws : List Word) : readWords big ws.length (carried big ws) = ws := by
  simpa [readWords_zero] using readWords_carried_append big ws 0 []

theorem padTo_of_length {n : Nat} {l : List Byte} (h : l.length = n) : padTo n l = l := by
  simp [padTo, ← h]

/-- Whole words are packed as they are read. -/
theorem wordsOf_of_length (c : Carriage) {l : List Byte} {n : Nat} (h : l.length = 4 * n) : wordsOf c l = readWords c.big n l := by
  have count : (l.length + 3) / 4 = n := by omega
  simp only [wordsOf, Carriage.pack, count, padTo_of_length h, readWords]

theorem wordsOf_carried (c : Carriage) (ws : List Word) : wordsOf c (carried c.big ws) = ws := by
  rw [wordsOf_of_length c (length_carried ..), readWords_carried]

/-! ### A packet -/

theorem sealedPacket_eq (big : Bool) (ws : List Word) (tag : List Byte) :
    sealedPacket big ws tag = carried big ws ++ (tag ++ carried big [crc32c (carried big ws ++ tag)]) :=
  List.append_assoc ..

theorem length_packetWords (op : Nat) (tag : Half) (flags session : Nat) (seq : Word) (status : Nat) (epoch : Half)
    (payload : List Word) (extra : Nat) :
    (packetWords op tag flags session seq status epoch payload extra).length = payload.length + 4 := by
  simp only [packetWords, List.length_append, List.length_cons, List.length_nil]
  omega

section Sealed

variable {ws : List Word} {tag : List Byte} {n : Nat}

theorem length_sealedPacket (big : Bool) (tagged : tag.length = 4 * n) :
    (sealedPacket big ws tag).length = 4 * (ws.length + n + 1) := by
  simp only [sealedPacket_eq, List.length_append, length_carried, tagged, List.length_singleton]
  omega

/-- The words of a sealed packet: those written, those of the tag, the CRC. -/
theorem wordsOf_sealedPacket (c : Carriage) (tagged : tag.length = 4 * n) :
    ∃ rest, wordsOf c (sealedPacket c.big ws tag) = ws ++ rest := by
  have read := readWords_carried_append c.big ws (n + 1) (tag ++ carried c.big [crc32c (carried c.big ws ++ tag)])
  rw [← sealedPacket_eq, ← Nat.add_assoc, ← wordsOf_of_length c (length_sealedPacket c.big tagged)] at read
  exact ⟨_, read⟩

/-- LENGTH is read from the first word. -/
theorem lengthOf_sealedPacket (c : Carriage) (w : Word) : lengthOf c (sealedPacket c.big (w :: ws) tag) = bitsOf w.toNat 31 16 := by
  have first := length_carried_singleton c.big w
  have head : padTo 4 (sealedPacket c.big (w :: ws) tag) = carried c.big [w] := by
    rw [sealedPacket_eq, carried_cons, List.append_assoc, padTo, List.take_left' first, List.length_append, first,
      Nat.sub_eq_zero_of_le (Nat.le_add_right ..), List.replicate_zero, List.append_nil]
  rw [lengthOf, head, wordsOf_carried]
  rfl

/-- Steps 1 to 3 of R39 pass a sealed packet whose first word names its length. -/
theorem packetFault_sealedPacket (c : Carriage) {w : Word} (tagged : tag.length = 4 * n)
    (named : bitsOf w.toNat 31 16 = ws.length + n + 2) (least : 3 ≤ ws.length + n) (most : ws.length + n + 2 ≤ 16384) :
    packetFault c (sealedPacket c.big (w :: ws) tag).length (sealedPacket c.big (w :: ws) tag) = none := by
  have crcAt : (carried c.big (w :: ws) ++ tag).length = 4 * (ws.length + n + 2 - 1) := by
    rw [List.length_append, length_carried, tagged, List.length_cons]
    omega
  have crc : padTo 4 ((sealedPacket c.big (w :: ws) tag).drop (4 * (ws.length + n + 2 - 1))) =
      carried c.big [crc32c (carried c.big (w :: ws) ++ tag)] := by
    rw [sealedPacket_eq, ← List.append_assoc, List.drop_left' crcAt, padTo_of_length (length_carried_singleton ..)]
  have body : (sealedPacket c.big (w :: ws) tag).take (4 * (ws.length + n + 2 - 1)) = carried c.big (w :: ws) ++ tag := by
    rw [sealedPacket_eq, ← List.append_assoc, List.take_left' crcAt]
  have size : (sealedPacket c.big (w :: ws) tag).length = 4 * (ws.length + n + 2) := by
    rw [length_sealedPacket c.big tagged, List.length_cons]
    omega
  simp only [packetFault, lengthOf_sealedPacket, named, size, crc, body, wordsOf_carried]
  rw [if_neg (by omega), if_neg (by omega), if_neg (by simp), if_pos trivial]

end Sealed

/-! ### The fields of a request -/

theorem flags_eq (q : Req) (rsv : q.rsv < 32) : q.flags =
    256 * q.auth.toNat + 512 * q.noreply.toNat + 1024 * q.urgent.toNat + 2048 * q.rsv := by
  rw [Req.flags, Nat.mod_eq_of_lt rsv]
  cases q.auth <;> cases q.noreply <;> cases q.urgent <;> simp [Nat.mul_comm]

theorem testBit_eq_of_div {x k : Nat} {b : Bool} (h : x / 2 ^ k % 2 = b.toNat) : x.testBit k = b := by
  rw [Nat.testBit_eq_decide_div_mod_eq, h]
  cases b <;> rfl

/-- TAG, FLAGS and SESSION (R31). -/
def secondWord (q : Req) : Word := BitVec.ofNat 32 (q.tag.toNat * 65536 + q.flags + q.session)

/-- STATUS and EPOCH (R31). -/
def fourthWord (q : Req) : Word := BitVec.ofNat 32 (q.status.toNat * 65536 + q.epoch.toNat)

/-- The fields of the second word read back. -/
theorem secondWord_fields (q : Req) (session : q.session < 256) (rsv : q.rsv < 32) :
    (secondWord q).toNat / 65536 = q.tag.toNat ∧ (secondWord q).toNat.testBit 8 = q.auth ∧
    (secondWord q).toNat.testBit 9 = q.noreply ∧ (secondWord q).toNat.testBit 10 = q.urgent ∧
    (secondWord q).toNat % 256 = q.session ∧ (secondWord q).toNat / 2048 % 32 = q.rsv := by
  have tag := q.tag.isLt
  have auth := Bool.toNat_le q.auth
  have noreply := Bool.toNat_le q.noreply
  have urgent := Bool.toNat_le q.urgent
  have number : (secondWord q).toNat = 65536 * q.tag.toNat +
      (256 * q.auth.toNat + 512 * q.noreply.toNat + 1024 * q.urgent.toNat + 2048 * q.rsv) + q.session := by
    rw [secondWord, flags_eq q rsv, BitVec.toNat_ofNat]
    omega
  rw [number]
  refine ⟨by omega, testBit_eq_of_div ?_, testBit_eq_of_div ?_, testBit_eq_of_div ?_, by omega, by omega⟩ <;> omega

/-- The fields of the fourth word read back. -/
theorem fourthWord_fields (q : Req) :
    BitVec.ofNat 16 ((fourthWord q).toNat / 65536) = q.status ∧ (fourthWord q).setWidth 16 = q.epoch := by
  have status := q.status.isLt
  have epoch := q.epoch.isLt
  have number : (fourthWord q).toNat = q.status.toNat * 65536 + q.epoch.toNat := by
    rw [fourthWord, BitVec.toNat_ofNat]
    omega
  constructor
  · rw [number]
    exact BitVec.eq_of_toNat_eq (by rw [BitVec.toNat_ofNat]; omega)
  · exact BitVec.eq_of_toNat_eq (by rw [BitVec.toNat_setWidth, number]; omega)

/-- The words of a request's packet after the first. -/
def laterWords (q : Req) : List Word := [secondWord q, q.seq, fourthWord q] ++ q.payload

/-- The words a tag takes. -/
def tagSize (q : Req) : Nat := if q.auth then 4 else 0

theorem tagSize_eq (q : Req) : tagSize q = if q.auth = true then 4 else 0 := rfl

/-- LENGTH and OPCODE (R31). -/
def firstWord (op : Nat) (q : Req) : Word := BitVec.ofNat 32 ((q.payload.length + 5 + tagSize q) * 65536 + op)

/-- A request's packet is sealed. -/
theorem encodePacket_eq (op : Nat) (q : Req) : encodePacket op q =
    sealedPacket q.carriage.big (firstWord op q :: laterWords q) q.authTag := rfl

section Request

variable {op : Nat} {q : Req}

theorem length_laterWords : (laterWords q).length = q.payload.length + 3 := by
  simp only [laterWords, List.length_append, List.length_cons, List.length_nil]
  omega

/-- The fields of the first word read back. -/
theorem firstWord_fields (opcode : op < 65536) (most : q.payload.length + 5 + tagSize q ≤ 16384) :
    bitsOf (firstWord op q).toNat 31 16 = q.payload.length + 5 + tagSize q ∧ bitsOf (firstWord op q).toNat 15 0 = op := by
  have number : (firstWord op q).toNat = (q.payload.length + 5 + tagSize q) * 65536 + op := by
    rw [firstWord, BitVec.toNat_ofNat]
    omega
  rw [number, bitsOf, bitsOf]
  omega

theorem lengthOf_encodePacket (opcode : op < 65536) (most : q.payload.length + 5 + tagSize q ≤ 16384) :
    lengthOf q.carriage (encodePacket op q) = q.payload.length + 5 + tagSize q := by
  rw [encodePacket_eq, lengthOf_sealedPacket, (firstWord_fields opcode most).1]

/-- The tag stands behind the words (R33). -/
theorem drop_encodePacket : ∃ crc, (encodePacket op q).drop (4 * (q.payload.length + 4)) = q.authTag ++ crc := by
  have before : ∀ w, (carried q.carriage.big (w :: laterWords q)).length = 4 * (q.payload.length + 4) := fun w => by
    rw [length_carried, List.length_cons, length_laterWords]
  rw [encodePacket_eq, sealedPacket_eq, List.drop_left' (before _)]
  exact ⟨_, rfl⟩

/-- A request reads back from its packet. -/
theorem requestOf_encodePacket (opcode : op < 65536) (session : q.session < 256) (rsv : q.rsv < 32)
    (most : q.payload.length + 5 + tagSize q ≤ 16384) (tagged : q.authTag.length = 4 * tagSize q) :
    requestOf q.carriage (encodePacket op q) = (op, q) := by
  obtain ⟨rest, words⟩ := wordsOf_sealedPacket (ws := firstWord op q :: laterWords q) q.carriage tagged
  rw [← encodePacket_eq op] at words
  obtain ⟨crc, behind⟩ := drop_encodePacket (op := op) (q := q)
  obtain ⟨tag, auth, noreply, urgent, sess, reserved⟩ := secondWord_fields q session rsv
  obtain ⟨-, number⟩ := firstWord_fields opcode most
  obtain ⟨status, epoch⟩ := fourthWord_fields q
  have stop : q.payload.length + 5 + tagSize q - 1 - tagSize q = q.payload.length + 4 := by omega
  have body : (wordsOf q.carriage (encodePacket op q)).take (q.payload.length + 4) = firstWord op q :: laterWords q := by
    rw [words]
    exact List.take_left' (by rw [List.length_cons, length_laterWords])
  have word0 : (wordsOf q.carriage (encodePacket op q)).getD 0 0 = firstWord op q := by rw [words]; rfl
  have word1 : (wordsOf q.carriage (encodePacket op q)).getD 1 0 = secondWord q := by rw [words]; rfl
  have word2 : (wordsOf q.carriage (encodePacket op q)).getD 2 0 = q.seq := by rw [words]; rfl
  have word3 : (wordsOf q.carriage (encodePacket op q)).getD 3 0 = fourthWord q := by rw [words]; rfl
  have authField : (if q.auth = true then (q.authTag ++ crc).take 16 else []) = q.authTag := by
    cases auth : q.auth <;> simp only [tagSize, auth] at tagged
    · exact (List.eq_nil_of_length_eq_zero tagged).symm
    · exact List.take_left' tagged
  simp only [requestOf, lengthOf_encodePacket opcode most, word0, word1, word2, word3, tag, auth, noreply, urgent, sess, reserved, status,
    epoch, number, ← tagSize_eq, stop, body, behind, authField, BitVec.ofNat_toNat, BitVec.setWidth_eq]
  rfl

end Request

/-- Settles O9: the first word names the length (`packetFault_sealedPacket`), and the words read back as they were written
(`wordsOf_sealedPacket`), each field from its place in R31's table. -/
theorem packetReadsBackAsWritten : Obligations.PacketReadsBackAsWritten := by
  refine ⟨fun op q opcode session rsv most tagged => ?_, by decide +kernel⟩
  replace most : q.payload.length + 5 + tagSize q ≤ 16384 := most
  have tagged : q.authTag.length = 4 * tagSize q := by
    rw [tagSize]
    split at tagged
    · next auth => rw [if_pos auth, tagged]
    · next auth => rw [if_neg auth, tagged]; rfl
  refine ⟨packetFault_sealedPacket (w := firstWord op q) (ws := laterWords q) q.carriage tagged ?_ ?_ ?_,
    requestOf_encodePacket opcode session rsv most tagged⟩
  · rw [(firstWord_fields opcode most).1, length_laterWords]
    omega
  · rw [length_laterWords]
    omega
  · rw [length_laterWords]
    omega

end Sys2Proof.Laws
end

section
/-! SUPPORT. Admission (R39, steps 5 to 8): the check of the session, then the role, the device state and the unit. -/

namespace Sys2Proof.Laws

open Sys2Proof.Machine

section Admission

variable {s t : State} {q : Req} {op u least need role : Nat} {uc : Bool}

/-! ### Step 6: the session -/

theorem checkSession_open (session : q.session = 0) (auth : q.auth = false) :
    s.checkSession q op = (s, s.openRole q.carriage, true) := by
  simp [State.checkSession, session, auth]

theorem checkSession_open_tagged (session : q.session = 0) (auth : q.auth = true) :
    s.checkSession q op = (s.count 0x0C03 0 1, 0, false) := by
  simp [State.checkSession, session, auth]

theorem checkSession_unopened (session : q.session ≠ 0) (unopened : s.ctl.sessions.get? q.session = none) :
    s.checkSession q op = (s.count 0x0C03 0 1, 0, false) := by
  simp [State.checkSession, session, unopened]

theorem checkSession_untagged {x : Session} (session : q.session ≠ 0) (held : s.ctl.sessions.get? q.session = some x)
    (bad : q.auth = false ∨ q.authTag ≠ authTagOf x.key (tagWords q op)) :
    s.checkSession q op = (s.count 0x0C03 0 1, 0, false) := by
  rcases bad with auth | tag
  · simp [State.checkSession, session, held, auth]
  · simp [State.checkSession, session, held, Ne.symm tag]

theorem checkSession_replayed {x : Session} {l : Word} (session : q.session ≠ 0) (held : s.ctl.sessions.get? q.session = some x)
    (active : x.active = true) (auth : q.auth = true) (tag : q.authTag = authTagOf x.key (tagWords q op))
    (last : x.lastSeq = some l) (old : q.seq.toNat ≤ l.toNat) : s.checkSession q op = (s.count 0x0C04 0 1, 0, false) := by
  simp [State.checkSession, session, held, active, auth, tag, last, old]

theorem checkSession_good {x : Session} (session : q.session ≠ 0) (held : s.ctl.sessions.get? q.session = some x)
    (active : x.active = true) (auth : q.auth = true) (tag : q.authTag = authTagOf x.key (tagWords q op))
    (new : ∀ l, x.lastSeq = some l → l.toNat < q.seq.toNat) :
    s.checkSession q op = ({ s with ctl := { s.ctl with
      sessions := s.ctl.sessions.set q.session { x with lastSeq := some q.seq, lastAt := s.now } } }, x.role, true) := by
  cases last : x.lastSeq with
  | none => simp [State.checkSession, session, held, active, auth, tag, last]
  | some l => simp [State.checkSession, session, held, active, auth, tag, last, Nat.not_le.mpr (new l last)]

/-! ### Steps 5, 7 and 8 -/

/-- EPOCH is 0 or the unit's (R45). -/
abbrev EpochOk (s : State) (q : Req) (u : Nat) : Prop := q.epoch = 0 ∨ q.epoch = s.epochOf u

theorem admission_stale (epoch : ¬EpochOk s q u) : s.admission q op u least uc = (s, 0, some 0x010D) :=
  if_pos (not_or.mp epoch)

theorem admission_rejected (epoch : EpochOk s q u) (check : s.checkSession q op = (t, role, false)) :
    s.admission q op u least uc = (t, role, some 0x0109) := by
  unfold State.admission
  rw [if_neg (not_and_or.mpr (epoch.imp not_not.mpr not_not.mpr)), check]

theorem admission_low (epoch : EpochOk s q u) (check : s.checkSession q op = (t, role, true)) (low : role < least) :
    s.admission q op u least uc = (t.count 0x0C03 0 1, role, some 0x0109) := by
  unfold State.admission
  rw [if_neg (not_and_or.mpr (epoch.imp not_not.mpr not_not.mpr)), check]
  exact if_pos low

theorem dev_of_up (up : s.up = true) : s.pwr.dev ≠ .boot ∧ s.pwr.dev ≠ .sleep ∧ s.pwr.dev ≠ .halt := by
  revert up
  unfold State.up
  cases s.pwr.dev <;> simp

/-- The status a unit that does not run turns requests away with (step 8). -/
def unitFault : Nat → Option Nat
  | 2 => some 0x010C
  | 3 => some 0x010B
  | 4 => some 0x010E
  | _ => none

/-- In SAFE, CONFIG and RUN a role that suffices leaves the unit to decide. -/
theorem admission_unit (epoch : EpochOk s q u) (check : s.checkSession q op = (t, role, true)) (enough : least ≤ role)
    (up : t.up = true) :
    s.admission q op u least uc = (t, role, if uc = true then unitFault (t.unit u).st else none) := by
  obtain ⟨boot, -, halt⟩ := dev_of_up up
  unfold State.admission
  rw [if_neg (not_and_or.mpr (epoch.imp not_not.mpr not_not.mpr)), check]
  dsimp only
  rw [if_neg (Nat.not_lt.mpr enough), if_neg (fun h => halt h.1), if_neg (fun h => boot h.1), bne_iff_ne.mpr boot, Bool.and_true]
  cases uc
  · rfl
  · simp only [if_true]
    unfold unitFault
    generalize (t.unit u).st = n
    rcases n with _ | _ | _ | _ | _ | n <;> rfl

/-- Where the unit runs, the request is admitted. -/
theorem admission_admits (epoch : EpochOk s q u) (check : s.checkSession q op = (t, role, true)) (enough : least ≤ role)
    (up : t.up = true) (runs : t.runs u = true) : s.admission q op u least uc = (t, role, none) := by
  rw [admission_unit epoch check enough up, runs_iff.mp runs]
  cases uc <;> rfl

/-- A unit in reset, updating or powered down turns the request away. -/
theorem admission_stopped {n st : Nat} (epoch : EpochOk s q u) (check : s.checkSession q op = (t, role, true)) (enough : least ≤ role)
    (up : t.up = true) (checked : uc = true) (stopped : (t.unit u).st = n) (fault : unitFault n = some st) :
    s.admission q op u least uc = (t, role, some st) := by
  rw [admission_unit epoch check enough up, if_pos checked, stopped, fault]

/-! ### Serving a request that is turned away -/

/-- A request that fails one of steps 5 to 8 is answered with the status of that step. -/
theorem serve_refuses {lost : Bool} {st : Nat} {body : Nat → State → State × Option Ans} {a : State} (hears : s.hears q.carriage = true)
    (arrive : (s.release q.carriage).arrive q.carriage op = (a, false, lost))
    (refused : a.admission q op u least uc = (t, role, some st)) :
    s.serve q op u least need uc body = t.answer (t.sessionKey q) q op u (st, [detail 0xFFFF 0]) := by
  unfold State.serve
  rw [if_pos hears, arrive]
  dsimp only
  rw [refused]

theorem serve_poisoned {lost : Bool} {body : Nat → State → State × Option Ans} (hears : s.hears q.carriage = true)
    (arrive : (s.release q.carriage).arrive q.carriage op = (t, true, lost)) :
    s.serve q op u least need uc body = t.poisonedRequest q op := by
  unfold State.serve
  rw [if_pos hears, arrive]

/-- An admitted request with too few payload words is turned away (log 3). -/
theorem serve_short {body : Nat → State → State × Option Ans} (adm : Admitted s q op u least 0 uc t role)
    (short : q.payload.length < need) : s.serve q op u least need uc body = turnedAway t q op u 0x0106 0 := by
  obtain ⟨hears, arrive, admitted, -⟩ := adm
  unfold State.serve
  rw [if_pos hears]
  generalize (s.release q.carriage).arrive q.carriage op = x at arrive admitted
  obtain ⟨x, y, z⟩ := x
  simp only [Prod.mk.injEq] at arrive
  obtain ⟨rfl, rfl⟩ := arrive
  dsimp only
  rw [admitted]
  simp only [Bool.false_eq_true, if_false, if_pos short]
  rfl

end Admission

/-! ### Nothing in a FIFO or a command buffer -/

/-- Taking a request off its carriage writes at most the instant of a connection (R37), and its words are read in whole. -/
theorem arrive_released {s : State} (quiet : Quiet s) (c : Carriage) (op : Nat) :
    (s.release c).arrive c op = (s.release c, false, false) := by
  obtain ⟨m, released⟩ := release_quiet_tcp quiet c
  rw [released]
  exact arrive_quiet (s := { s with ctl := { s.ctl with tcp := m } }) quiet c op

/-- Settles O10: the check of the session passes (`checkSession_open`, `checkSession_good`), and so do role and unit
(`admission_admits`). -/
theorem requestsAreAdmitted : Obligations.RequestsAreAdmitted := by
  refine ⟨fun s q op u least need uc quiet hears up session auth epoch runs enough long => ?_,
    fun s q op u least need uc x quiet hears up session epoch runs long held active enough auth tag new => ?_,
    fun s c quiet other => release_quiet quiet other⟩
  · refine ⟨hears, congrArg Prod.snd (arrive_released quiet _ op), ?_, long⟩
    rw [arrive_released quiet]
    obtain ⟨m, released⟩ := release_quiet_tcp quiet q.carriage
    rw [released]
    exact admission_admits epoch (checkSession_open session auth) enough up runs
  · refine ⟨hears, congrArg Prod.snd (arrive_released quiet _ op), ?_, long⟩
    rw [arrive_released quiet]
    obtain ⟨m, released⟩ := release_quiet_tcp quiet q.carriage
    rw [released]
    exact admission_admits epoch (checkSession_good session held active auth tag new) enough up runs

/-- Settles O11: each clause is the failure of one step, `checkSession_…` or `admission_…`, answered with its status
(`serve_refuses`); then a poisoned request (`serve_poisoned`) and a short one (`serve_short`). -/
theorem admissionRefusesByStep : Obligations.AdmissionRefusesByStep := by
  refine ⟨fun a q op u least need uc body quiet hears up => ?_,
    fun a t q op u least need uc lost body hears arrive => serve_poisoned hears arrive,
    fun a t q op u least need role uc body adm short => serve_short adm short⟩
  have refuses {t : State} {role st : Nat} (refused : (a.release q.carriage).admission q op u least uc = (t, role, some st)) :
      a.serve q op u least need uc body = t.answer (t.sessionKey q) q op u (st, [detail 0xFFFF 0]) :=
    serve_refuses hears (arrive_released quiet _ op) refused
  obtain ⟨m, released⟩ := release_quiet_tcp quiet q.carriage
  rw [released] at refuses ⊢
  intro b served refused
  refine ⟨fun zero other => refuses (admission_stale (not_or.mpr ⟨zero, other⟩)), fun epoch =>
    ⟨fun session auth => refuses (admission_rejected epoch (checkSession_open_tagged session auth)),
      fun session auth low => refuses (admission_low epoch (checkSession_open session auth) low),
      fun session unopened => refuses (admission_rejected epoch (checkSession_unopened session unopened)),
      fun x session held => ⟨fun bad => refuses (admission_rejected epoch (checkSession_untagged session held bad)),
        fun l active auth tag last old =>
          refuses (admission_rejected epoch (checkSession_replayed session held active auth tag last old))⟩,
      fun session auth enough checked => ?_⟩⟩
  have unit {n st : Nat} (stopped : (a.unit u).st = n) (fault : unitFault n = some st) : served = refused b st :=
    refuses (admission_stopped epoch (checkSession_open session auth) enough up checked stopped fault)
  exact ⟨fun st => unit st rfl, fun st => unit st rfl, fun st => unit st rfl⟩

end Sys2Proof.Laws
end

section
/-! SUPPORT. Replies (R31, R34 to R37, R42, R44, R70): the order of a source's replies, and how a reply leaves on its carriage. -/

namespace Sys2Proof.Laws

open Sys2Proof.Machine

section Order

variable {s : State} {u : Nat} {r : Reply}

theorem sendInOrder_of_turn (turn : ∀ c, r.carriage.source = some c → s.owes u c = false) :
    s.sendInOrder u r = s.sendReply r := by
  unfold State.sendInOrder
  split
  · next c source => rw [turn c source]; rfl
  · rfl

theorem sendInOrder_of_owes {c : Carriage} (source : r.carriage.source = some c) (owes : s.owes u c = true) :
    s.sendInOrder u r = { s with ctl := { s.ctl with owed := s.ctl.owed ++
      [{ unit := u, source := c, op := r.opcode % 0x8000, tag := r.tag, seq := r.seq, reply := some r }] } } := by
  simp only [State.sendInOrder, source, owes, if_true]

theorem answer_noreply {key : Option (List Byte)} {q : Req} {op : Nat} {x : Ans} (silent : q.noreply = true) :
    s.answer key q op u x = s :=
  if_pos silent

theorem answer_reply {key : Option (List Byte)} {q : Req} {op : Nat} {x : Ans} (reply : q.noreply = false) :
    s.answer key q op u x = s.sendInOrder u (s.replyOf key q op u x) :=
  if_neg (ne_true_of_eq_false reply)

theorem replyOf_authTag (key : Option (List Byte)) (q : Req) (op : Nat) (x : Ans) : (s.replyOf key q op u x).authTag =
    match key with
    | some k => authTagOf k (packetWords (op + 0x8000) q.tag 256 q.session q.seq x.1 (s.epochOf u) x.2 4)
    | none => [] := by
  cases key <;> rfl

end Order

section Carriages

variable {s : State} {r : Reply}

theorem wire_of_not_uart (other : r.carriage ≠ .uart) : r.wire = r.packet := by
  unfold Reply.wire
  split
  · next uart => exact absurd uart other
  · rfl

theorem wire_uart (uart : r.carriage = .uart) : r.wire = cobs r.packet ++ [0] := by
  simp only [Reply.wire, uart]

theorem sendReply_uart (quiet : Quiet s) (uart : r.carriage = .uart) :
    s.sendReply r = { s with out := s.out ++ [.reply r (cobs r.packet ++ [0])] } := by
  simp only [State.sendReply, takeItem_quiet quiet, uart, State.emit, Reply.output, wire_uart uart]

theorem sendReply_udp (quiet : Quiet s) {p : Nat} {peer : Peer} (udp : r.carriage = .udp4 p peer ∨ r.carriage = .udp6 p peer) :
    s.sendReply r = s.sendUdp p 4 (s.parN Par.CTL.UDP_PORT 0) peer r.packet (some (.reply r r.packet)) := by
  rcases udp with udp | udp <;>
    simp only [State.sendReply, takeItem_quiet quiet, udp, Reply.output, wire_of_not_uart (udp ▸ nofun : r.carriage ≠ .uart)]

theorem sendReply_tcp (quiet : Quiet s) {k : Nat} (tcp : r.carriage = .tcp k) :
    s.sendReply r = s.sendTcp k 4 r.packet (some (.reply r r.packet)) := by
  simp only [State.sendReply, takeItem_quiet quiet, tcp, Reply.output, wire_of_not_uart (tcp ▸ nofun : r.carriage ≠ .uart)]

/-- On the host link a reply waits in its ring where no descriptor is free (R70). -/
theorem sendReply_waits (quiet : Quiet s) {ring : Nat} (host : r.carriage = .host ring) (link : s.ctl.linkUp = true)
    (full : s.freeBuf (s.parN Par.CTL.REPLY_RING (ring - 48)) = none) :
    let n := s.parN Par.CTL.REPLY_RING (ring - 48)
    s.sendReply r = s.setRing n { s.ring n with waiting := (s.ring n).waiting ++ [(s.now, r)] } := by
  simp only [State.sendReply, takeItem_quiet quiet, host, link, full, if_true]
  cases (s.ring (s.parN Par.CTL.REPLY_RING (ring - 48))).waiting <;> rfl

/-- Into a free buffer goes the reply, or the six words of NO_RESOURCE where it passes the buffer (R70). -/
theorem sendReply_placed (quiet : Quiet s) {ring len : Nat} (host : r.carriage = .host ring) (link : s.ctl.linkUp = true)
    (next : (s.ring (s.parN Par.CTL.REPLY_RING (ring - 48))).waiting = [])
    (free : s.freeBuf (s.parN Par.CTL.REPLY_RING (ring - 48)) = some len) :
    let sent : Reply := if len < 4 * r.len then { r with status := 0x0117, payload := [detail 0xFFFF 0], authTag := [] } else r
    s.sendReply r = (s.emit (.reply sent sent.packet)).fillBuf (s.parN Par.CTL.REPLY_RING (ring - 48)) := by
  intro sent
  have carriage : sent.carriage ≠ .uart := by
    have same : sent.carriage = r.carriage := by
      simp only [sent]
      split <;> rfl
    rw [same, host]
    nofun
  simp only [State.sendReply, takeItem_quiet quiet, host, link, next, free, if_true]
  rw [State.placeReply, ← wire_of_not_uart carriage]
  rfl

end Carriages

/-- Settles O12: an answer is one reply in its turn (`answer_reply`, `sendInOrder_of_turn`, `sendInOrder_of_owes`), and a reply
leaves as its carriage carries it (`sendReply_…`). -/
theorem repliesGoOutOnce : Obligations.RepliesGoOutOnce := by
  refine ⟨fun t key q op u x => ⟨fun silent => answer_noreply silent, fun reply => ?_⟩, fun t r quiet =>
    ⟨fun uart => sendReply_uart quiet uart, fun p peer udp => sendReply_udp quiet udp, fun k tcp => sendReply_tcp quiet tcp,
      fun ring host link => ⟨fun full => sendReply_waits quiet host link full,
        fun len next free => sendReply_placed quiet host link next free⟩⟩⟩
  refine ⟨t.replyOf key q op u x, rfl, rfl, rfl, rfl, rfl, rfl, rfl, rfl, replyOf_authTag key q op x, fun turn => ?_,
    fun c source owes small => ?_⟩
  · rw [answer_reply reply]
    exact sendInOrder_of_turn turn
  · rw [answer_reply reply, sendInOrder_of_owes source owes]
    have opcode : (op + 0x8000) % 0x8000 = op := by omega
    simp only [State.replyOf, opcode]

end Sys2Proof.Laws
end

section
/-! SUPPORT. The generic reads (R50, R71) and the sessions (R46 to R48). -/

namespace Sys2Proof.Laws

open Sys2Proof.Machine

/-- Every carriage takes a reply of 16,367 payload words, tagged or not. -/
theorem fits_of_le {c : Carriage} {tagged : Bool} {a : Ans} (h : a.2.length ≤ 16367) : fits c tagged a = true := by
  unfold fits
  cases tagged <;> cases c <;> simp [Carriage.maxLength] <;> omega

@[simp] theorem length_words64 (n : Nat) : (words64 n).length = 2 := rfl

/-- Settles O13: each of the five answers its words and leaves the state. -/
theorem genericReadsAnswer : Obligations.GenericReadsAnswer := by
  refine fun s t dt q role => ⟨fun adm => ?_, fun adm => ?_, fun adm => ?_, fun adm valid => ?_, fun adm => ?_⟩
  · exact congrArg Host.Outcome.next (serve_ok_short adm rfl (Nat.zero_le 10))
  · exact congrArg Host.Outcome.next (serve_ok_short adm rfl (by decide : 6 ≤ 10))
  · exact congrArg Host.Outcome.next (serve_ok_short adm rfl (by decide : 1 ≤ 10))
  · refine congrArg Host.Outcome.next (serve_ok_short adm ?_ (by decide : 7 ≤ 10))
    exact if_pos (by simpa using valid)
  · refine congrArg Host.Outcome.next (serve_ok adm rfl (fits_of_le ?_))
    simp [List.length_flatMap]

/-! ### Sessions -/

section Sessions

variable {t : State} {q : Req}

/-- Phase 1 takes the lowest free number and answers it with the module's nonce and the device ID. -/
theorem openPhase1_opens {ikm : List Byte} (session : q.session = 0) (words : 5 ≤ q.payload.length) (low : 3 ≤ q.bits 4 31 16)
    (high : q.bits 4 31 16 ≤ 127) (role : 1 ≤ q.bits 4 15 8) (most : q.bits 4 15 8 ≤ 2)
    (comms : t.commsKey (q.bits 4 31 16) = some ikm) (free : t.ctl.sessions.length < 32) :
    t.openPhase1 q = ({ t.draw.1 with ctl := { t.ctl with sessions := t.ctl.sessions.set t.freeSession {
        slot := q.bits 4 31 16, role := q.bits 4 15 8
        key := sessionKeyOf ikm t.idBytes (q.bytes 5 16) (t.draw.2.take 16) t.freeSession
        active := false, hostNonce := q.bytes 5 16, modNonce := t.draw.2.take 16, lastSeq := none, lastAt := t.now
        conn := match q.carriage with | .tcp k => some k | _ => none } } },
      ok (BitVec.ofNat 32 t.freeSession :: q.carriage.pack (t.draw.2.take 16) ++ words64 t.ident.deviceId.toNat)) := by
  unfold State.openPhase1
  dsimp only
  rw [if_neg (not_not.mpr session), if_neg (by omega), comms]
  exact if_neg (Nat.not_le.mpr free)

/-- Phase 2 in time, for the slot and role of phase 1, and for OWNER under the owner anchor's signature, activates. -/
theorem openPhase2_activates {x : Session} (held : t.ctl.sessions.get? q.session = some x) (waits : x.active = false)
    (inTime : t.now ≤ x.lastAt + 10 * sec) (slot : q.bits 4 31 16 = x.slot) (role : q.bits 4 15 8 = x.role)
    (owner : x.role = 2 → 17 ≤ q.payload.length ∧ (t.keySlot 2).usable = true ∧
      p256Verify (t.keySlot 2).pub (sha256 (t.ownerProof x)) (q.bytes 5 64) = true) :
    t.openPhase2 q = ({ t with ctl := { t.ctl with
      sessions := t.ctl.sessions.set q.session { x with active := true, lastAt := t.now } } }, ok []) := by
  have named : ¬(q.bits 4 31 16 ≠ x.slot ∨ q.bits 4 15 8 ≠ x.role ∨ (x.role = 2 ∧ q.payload.length < 17)) := by
    rintro (other | other | ⟨two, short⟩)
    · exact other slot
    · exact other role
    · exact absurd (owner two).1 (Nat.not_le.mpr short)
  have proved : ¬((decide (x.role = 2) && !((t.keySlot 2).usable &&
      p256Verify (t.keySlot 2).pub (sha256 (t.ownerProof x)) (q.bytes 5 64))) = true) := by
    by_cases two : x.role = 2
    · obtain ⟨-, usable, verified⟩ := owner two
      simp [usable, verified]
    · simp [two]
  unfold State.openPhase2
  rw [held]
  dsimp only
  rw [waits, if_neg Bool.false_ne_true, if_neg (Nat.not_lt.mpr inTime), if_neg named, if_neg proved]

variable {s a : State} {dt n : Nat} {x : Session}

theorem exec_sessionPhase2Timeout (passed : s.advance dt = a) (held : a.ctl.sessions.get? n = some x) :
    exec (.sessionPhase2Timeout dt n) s =
      .next (if a.up && !x.active && decide (x.lastAt + 10 * sec ≤ a.now) then a.endSession n else a) := by
  show execSessionPhase2Timeout dt n s = _
  simp only [execSessionPhase2Timeout, passed, held]

theorem exec_sessionIdleTimeout (passed : s.advance dt = a) (held : a.ctl.sessions.get? n = some x) :
    exec (.sessionIdleTimeout dt n) s = .next (
      if a.up && x.active && decide (x.lastAt + sec * a.parN Par.CTL.SESSION_IDLE_S 0 ≤ a.now) then a.endSession n else a) := by
  show execSessionIdleTimeout dt n s = _
  simp only [execSessionIdleTimeout, passed, held]

end Sessions

/-- Settles O14: the two phases (`openPhase1_opens`, `openPhase2_activates`), the close, and the two instants at which a session
ends. -/
theorem sessionsOpenCloseAndTimeOut : Obligations.SessionsOpenCloseAndTimeOut := by
  refine ⟨fun s t dt q role => ⟨?_, ?_, ?_⟩, fun s a dt n x passed up held => ?_⟩
  · intro ikm adm phase session words low high least most comms free n nonce x fit
    refine congrArg Host.Outcome.next (serve_ok adm ?_ fit)
    simp only [phase]
    exact openPhase1_opens session words low high least most comms free
  · intro x adm phase held waits inTime slot role owner
    refine congrArg Host.Outcome.next (serve_ok_short adm ?_ (Nat.zero_le 10))
    simp only [phase]
    exact openPhase2_activates held waits inTime slot role owner
  · exact fun adm => congrArg Host.Outcome.next (serve_ok_short adm rfl (Nat.zero_le 10))
  · refine ⟨fun waits due => ?_, fun waits early => ?_, fun active due => ?_, fun active early => ?_⟩
    · rw [exec_sessionPhase2Timeout passed held, if_pos (by simp [up, waits, due])]
      rfl
    · rw [exec_sessionPhase2Timeout passed held, if_neg (by simp [early])]
    · rw [exec_sessionIdleTimeout passed held, if_pos (by simp [up, active, due])]
      rfl
    · rw [exec_sessionIdleTimeout passed held, if_neg (by simp [early])]

end Sys2Proof.Laws
end

section
/-! SUPPORT. SET_STATE (R414 to R418): what the entries into the device states leave behind. -/

namespace Sys2Proof.Laws

open Sys2Proof.Machine

/-- A message leaves the maquette. -/
theorem Kept.maquette {s t : State} (h : Kept s t) : t.ctl.maquette = s.ctl.maquette := congrArg (fun u => u.ctl.maquette) h.1

section States

variable {s t : State} {q : Req}

/-- Entry into SAFE or RUN enters it: starting to measure leaves the power state. -/
theorem enterMeasuring_dev (d : DevState) : (s.enterMeasuring d).pwr.dev = d := by
  unfold State.enterMeasuring
  split
  · rfl
  · exact congrArg Pwr.dev (Reaches.still (Reaches.refl (s.setDev d)).startMeasuring).1

/-- Powering down drops the maquette; the replies sent after that leave it so. -/
theorem powerSettle_maquette : s.powerSettle.ctl.maquette = [] := by
  unfold State.powerSettle
  extract_lets _ _ logged _ _ dropped
  clear_value logged
  exact (sendOwed_keptLogs dropped).1.maquette

/-- Setting units with a notice leaves the maquette. -/
theorem maquette_setUnit_fold (st : Nat) (l : List Nat) :
    (l.foldl (fun (s : State) u => s.setUnit u st) s).ctl.maquette = s.ctl.maquette := by
  induction l generalizing s with
  | nil => rfl
  | cons u l ih => exact ih.trans (notify_keptLogs _ _ _ _ _).1.maquette

/-- Setting units without a notice leaves the power state and the control complex. -/
theorem setUnitQuiet_fold (l : List Nat) (spared st : Nat) :
    let t := l.foldl (fun (s : State) u => if u = spared then s else s.setUnitQuiet u st) s
    t.pwr = s.pwr ∧ t.ctl = s.ctl := by
  induction l generalizing s with
  | nil => exact ⟨rfl, rfl⟩
  | cons u l ih =>
    rw [List.foldl_cons]
    obtain ⟨pwr, ctl⟩ := @ih (if u = spared then s else s.setUnitQuiet u st)
    refine ⟨pwr.trans ?_, ctl.trans ?_⟩ <;> split <;> rfl

theorem enterSleep_empty :
    s.enterSleep.pwr.dev = .sleep ∧ s.enterSleep.ctl.sessions = [] ∧ s.enterSleep.ctl.maquette = [] := by
  have dropped := @powerSettle_maquette s
  unfold State.enterSleep
  have units := @maquette_setUnit_fold s.powerSettle 4 unitIds
  rw [dropped] at units
  dsimp only
  generalize unitIds.foldl _ s.powerSettle = off at units
  exact ⟨rfl, rfl, units⟩

theorem enterHalt_empty :
    s.enterHalt.pwr.dev = .halt ∧ s.enterHalt.ctl.sessions = [] ∧ s.enterHalt.ctl.maquette = [] := by
  have dropped := @powerSettle_maquette s
  unfold State.enterHalt
  generalize s.powerSettle = p at dropped
  dsimp only
  rw [(setUnitQuiet_fold _ _ _).1, (setUnitQuiet_fold _ _ _).2]
  exact ⟨rfl, rfl, dropped⟩

/-! ### The rows of R414 -/

theorem setStateTo_run (dev : t.pwr.dev = .config) (target : q.bits 4 3 0 = 4) : t.setStateTo q = (t.enterRun, ok []) := by
  simp [State.setStateTo, dev, target]

theorem setStateTo_config (dev : t.pwr.dev = .run) (target : q.bits 4 3 0 = 3) :
    t.setStateTo q = ({ t.enterConfig with pwr := { t.enterConfig.pwr with ruleDue := false } }, ok []) := by
  simp [State.setStateTo, dev, target]

theorem setStateTo_sleep (up : t.up = true) (target : q.bits 4 3 0 = 5) :
    t.setStateTo q = ((t.answer (t.sessionKey q) q 0x0003 0x0C (1, [])).enterSleep, none) := by
  revert up
  rw [State.up, State.setStateTo, target]
  cases t.pwr.dev <;> simp

theorem setStateTo_halt (up : t.up = true) (target : q.bits 4 3 0 = 6) :
    t.setStateTo q = ((t.answer (t.sessionKey q) q 0x0003 0x0C (0, [])).enterHalt, none) := by
  revert up
  rw [State.up, State.setStateTo, target]
  cases t.pwr.dev <;> simp

theorem setStateTo_refused
    (other : t.pwr.dev = .config ∧ q.bits 4 3 0 ≠ 4 ∨ t.pwr.dev = .run ∧ q.bits 4 3 0 ≠ 3 ∨ t.pwr.dev = .safe)
    (sleep : q.bits 4 3 0 ≠ 5) (halt : q.bits 4 3 0 ≠ 6) : t.setStateTo q = (t, errId 0x010E 0) := by
  rcases other with ⟨dev, target⟩ | ⟨dev, target⟩ | dev <;> simp [State.setStateTo, *] <;> rfl

/-- A request whose work takes the module into SLEEP or HALT ends there. -/
theorem serve_down {t' : State} {op u least need role : Nat} {uc : Bool} {body : Nat → State → State × Option Ans}
    (adm : Admitted s q op u least need uc t role) (run : body role t = (t', none))
    (down : t'.pwr.dev = .sleep ∨ t'.pwr.dev = .halt) : s.serve q op u least need uc body = t' := by
  rw [serve_later adm run, if_pos]
  rcases down with dev | dev <;> simp [dev]

end States

/-- Settles O15: one row of R414 for each target, and a refusal for every other. -/
theorem setStateMakesTheTransitionsOfR414 : Obligations.SetStateMakesTheTransitionsOfR414 := by
  refine fun s t dt q role adm => ⟨fun dev target => ⟨?_, enterMeasuring_dev .run⟩, fun dev target => ?_, fun up target => ?_,
    fun up target => ?_, fun _ other sleep halt => ?_⟩
  · exact congrArg Host.Outcome.next (serve_ok_short adm (setStateTo_run dev target) (Nat.zero_le 10))
  · exact ⟨_, congrArg Host.Outcome.next (serve_ok_short adm (setStateTo_config dev target) (Nat.zero_le 10)), rfl⟩
  · exact ⟨congrArg Host.Outcome.next (serve_down adm (setStateTo_sleep up target) (.inl enterSleep_empty.1)), enterSleep_empty⟩
  · exact ⟨congrArg Host.Outcome.next (serve_down adm (setStateTo_halt up target) (.inr enterHalt_empty.1)), enterHalt_empty⟩
  · exact congrArg Host.Outcome.next (serve_turnedAway adm (setStateTo_refused other sleep halt))

end Sys2Proof.Laws
end

section
/-! SUPPORT. Reading parameters and counters (R50 to R55, R65, R66). -/

namespace Sys2Proof.Laws

open Sys2Proof.Machine

/-! ### READ_PARAM and READ_BATCH -/

section Reads

variable {s : State} {role id inst : Nat} {w : Word} {select : Bool} {d : PDesc}

theorem readFault_unknown (unknown : parDesc id = none) : s.readFault role id inst = some 0x0104 := by
  simp [State.readFault, unknown]

theorem readFault_instance (known : parDesc id = some d) (enough : 1 ≤ role) (beyond : d.hasInst inst = false) :
    s.readFault role id inst = some 0x0105 := by
  simp [State.readFault, known, beyond, Nat.one_le_iff_ne_zero.mp enough]

theorem readItem_readable (known : parDesc (bitsOf w.toNat 15 0) = some d)
    (readable : s.readFault role (bitsOf w.toNat 15 0) (bitsOf w.toNat 31 16) = none) :
    s.readItem role w select =
      [w, BitVec.ofNat 32 (s.selectValue d (bitsOf w.toNat 31 16) select).length, s.typeWord (bitsOf w.toNat 15 0)] ++
        s.selectValue d (bitsOf w.toNat 31 16) select := by
  simp [State.readItem, readable, known]

end Reads

/-- Settles O16: a read that has no fault answers its item, one that has one its fault, and a batch each of its items. -/
theorem parametersAreRead : Obligations.ParametersAreRead := by
  refine ⟨fun s t dt q role adm => ⟨fun d known readable fit => ?_, fun unknown => ?_, fun d known enough beyond => ?_⟩,
    fun s t dt q role adm least most given fit => ?_⟩
  · refine congrArg Host.Outcome.next (serve_ok adm ?_ fit)
    simp only [readable]
    exact congrArg (fun ws => (t, ok ws)) (readItem_readable known readable)
  · refine congrArg Host.Outcome.next (serve_turnedAway adm ?_)
    simp only [readFault_unknown unknown]
    rfl
  · refine congrArg Host.Outcome.next (serve_turnedAway adm ?_)
    simp only [readFault_instance known enough beyond]
    rfl
  · refine congrArg Host.Outcome.next (serve_ok adm ?_ fit)
    dsimp only
    rw [if_neg (Nat.one_le_iff_ne_zero.mp least), if_neg (by omega)]
    rfl

/-! ### Counters -/

theorem parKey_ne {id inst k j : Nat} (low : inst < 65536) (low' : j < 65536) (ne : (k, j) ≠ (id, inst)) :
    parKey k j ≠ parKey id inst := by
  unfold parKey
  intro eq
  refine ne (Prod.ext ?_ ?_) <;> dsimp only <;> omega

section Counters

variable {s : State} {q : Req} {id last k : Nat} {ids : List Nat}

theorem ctr_setCtr_self {inst v : Nat} (rising : s.ctl.counters.wf = true) : (s.setCtr id inst v).ctr id inst = v :=
  AMap.getD_put_self 0 _ v rising

theorem ctr_setCtr_ne {inst j v : Nat} (low : inst < 65536) (low' : j < 65536) (ne : (k, j) ≠ (id, inst)) :
    (s.setCtr id inst v).ctr k j = s.ctr k j :=
  AMap.getD_put_ne _ 0 0 v (parKey_ne low low' ne)

theorem counterFault_none (good : ∀ k ∈ ids, ∃ top, counterTop k = some top ∧ last ≤ top) : counterFault ids last = none := by
  have defined : ids.find? (fun id => (counterTop id).isNone) = none := by
    refine List.find?_eq_none.mpr fun k mem => ?_
    obtain ⟨top, known, -⟩ := good k mem
    simp [known]
  have within : ids.find? (fun id => decide ((counterTop id).getD 0 < last)) = none := by
    refine List.find?_eq_none.mpr fun k mem => ?_
    obtain ⟨top, known, le⟩ := good k mem
    simpa [known] using le
  rw [counterFault, defined, within]
  rfl

/-- The first of the IDs `id`, `id + 1`, … that meets a test. -/
theorem find?_ids {p : Nat → Bool} {n : Nat} (lt : k < n) (hit : p (id + k) = true) (first : ∀ j, j < k → p (id + j) = false) :
    ((List.range n).map (id + ·)).find? p = some (id + k) := by
  have least : (List.range n).find? (p ∘ (id + ·)) = some k :=
    List.find?_range_eq_some.mpr ⟨hit, List.mem_range.mpr lt, fun j less => by simp [first j less]⟩
  rw [List.find?_map, least]
  rfl

theorem counterFault_unknown {n : Nat} (lt : k < n) (unknown : counterTop (id + k) = none)
    (first : ∀ j, j < k → counterTop (id + j) ≠ none) :
    counterFault ((List.range n).map (id + ·)) last = some (0x0104, id + k) := by
  rw [counterFault, find?_ids lt (by simp [unknown])
    fun j less => Option.isNone_eq_false_iff.mpr (Option.isSome_iff_ne_none.mpr (first j less))]

theorem counterFault_instance {n top : Nat} (lt : k < n) (known : ∀ j, j < n → counterTop (id + j) ≠ none)
    (here : counterTop (id + k) = some top) (beyond : top < last)
    (first : ∀ j top, j < k → counterTop (id + j) = some top → last ≤ top) :
    counterFault ((List.range n).map (id + ·)) last = some (0x0105, id + k) := by
  have defined : ((List.range n).map (id + ·)).find? (fun id => (counterTop id).isNone) = none := by
    simpa [List.find?_eq_none] using known
  rw [counterFault, defined, find?_ids lt (by simp [here, beyond])]
  · rfl
  · intro j less
    obtain ⟨top, eq⟩ := Option.ne_none_iff_exists'.mp (known j (less.trans lt))
    simpa [eq] using first j top less eq

/-- The counters a read names, in the order of its values: each place in turn with all its IDs (R66). -/
abbrev counterKeys (q : Req) : List (Nat × Nat) :=
  ((List.range (q.bits 5 31 16)).map (q.bits 4 31 16 + ·)).flatMap (fun i =>
    ((List.range (q.bits 5 15 0)).map (q.bits 4 15 0 + ·)).map (fun k => (k, i)))

theorem readCounters_values (least : 1 ≤ q.bits 5 15 0) (places : 1 ≤ q.bits 5 31 16)
    (good : ∀ k ∈ counterKeys q, ∃ top, counterTop k.1 = some top ∧ k.2 ≤ top)
    (room : 2 * (q.bits 5 15 0 * q.bits 5 31 16) + 6 ≤ q.carriage.maxLength) (clear : Bool) :
    s.readCounters q clear =
      (if clear then (counterKeys q).foldl (fun (u : State) k => u.setCtr k.1 k.2 0) s else s,
        ok (BitVec.ofNat 32 (q.bits 5 15 0 * q.bits 5 31 16) :: (counterKeys q).flatMap (fun k => words64 (s.ctr k.1 k.2)))) := by
  have faultless : counterFault ((List.range (q.bits 5 15 0)).map (q.bits 4 15 0 + ·)) (q.bits 4 31 16 + q.bits 5 31 16 - 1) = none := by
    refine counterFault_none fun k mem => good (k, _) (List.mem_flatMap.mpr ⟨_, ?_, List.mem_map_of_mem mem⟩)
    exact List.mem_map.mpr ⟨q.bits 5 31 16 - 1, List.mem_range.mpr (by omega), by omega⟩
  unfold State.readCounters
  dsimp only
  rw [if_neg (by omega), faultless]
  exact if_neg (Nat.not_lt.mpr room)

theorem readCounters_fault {f : Nat} (least : 1 ≤ q.bits 5 15 0) (places : 1 ≤ q.bits 5 31 16)
    (fault : counterFault ((List.range (q.bits 5 15 0)).map (q.bits 4 15 0 + ·)) (q.bits 4 31 16 + q.bits 5 31 16 - 1) = some (f, k))
    (clear : Bool) : s.readCounters q clear = (s, errId f k) := by
  unfold State.readCounters
  dsimp only
  rw [if_neg (by omega), fault]

end Counters

/-- Settles O18: a count writes one counter, saturated; a read answers the values (`readCounters_values`) or the first fault
(`readCounters_fault`). -/
theorem countersSaturateAreReadAndCleared : Obligations.CountersSaturateAreReadAndCleared := by
  refine ⟨fun s id inst n k j low low' rising => ⟨ctr_setCtr_self rising, fun ne => ctr_setCtr_ne low low' ne, rfl⟩,
    fun s t dt q role => ?_⟩
  intro id inst nId nInst keys ws least places
  refine ⟨fun good room fit => ⟨fun adm => ?_, fun adm => ?_⟩, fun k f lt faults => ?_⟩
  · exact congrArg Host.Outcome.next (serve_ok adm (readCounters_values least places good room false) fit)
  · exact congrArg Host.Outcome.next (serve_ok adm (readCounters_values least places good room true) fit)
  · have fault : counterFault ((List.range nId).map (id + ·)) (inst + nInst - 1) = some (f, id + k) := by
      rcases faults with ⟨rfl, unknown, first⟩ | ⟨rfl, known, ⟨top, here, beyond⟩, first⟩
      · exact counterFault_unknown lt unknown first
      · exact counterFault_instance lt known here beyond first
    exact ⟨fun adm => congrArg Host.Outcome.next (serve_turnedAway adm (readCounters_fault least places fault false)),
      fun adm => congrArg Host.Outcome.next (serve_turnedAway adm (readCounters_fault least places fault true))⟩

end Sys2Proof.Laws
end

section
/-! SUPPORT. The timers of the host link and the reads of its windows (R69 to R71). -/

namespace Sys2Proof.Laws

open Sys2Proof.Machine

section Host

variable {s a : State} {dt n requester offset t : Nat}

theorem exec_replyWaitTimeout {r : Reply} {rest : List (Nat × Reply)} (passed : s.advance dt = a)
    (waiting : (a.ring n).waiting = (t, r) :: rest) :
    exec (.replyWaitTimeout dt n) s = .next (
      if decide (t + 1000000 * a.parN Par.CTL.REPLY_WAIT_MS 0 ≤ a.now) then
        (a.setRing n { a.ring n with waiting := rest }).count 0x0C07 0 1
      else a) := by
  show execReplyWaitTimeout dt n s = _
  simp only [execReplyWaitTimeout, passed, waiting]

theorem exec_irqHoldoffExpiry (passed : s.advance dt = a) : exec (.irqHoldoffExpiry dt n) s = .next (a.releaseIrq n) :=
  passed ▸ rfl

/-- IRQ_HOLDOFF's microseconds (R69). -/
theorem holdoff_eq (w : Word) : bitsOf w.toNat 15 0 * 1000 = 1000 * (w.toNat % 65536) := by
  simp [bitsOf, Nat.mul_comm]

/-- A held interrupt that is neither masked nor within the holdoff leaves. -/
theorem releaseIrq_raised (held : n ∈ a.ctl.irqHeld) (unmasked : a.irqMasked n = false)
    (due : ∀ t, a.ctl.irqLast.get? n = some t → t + 1000 * (a.ctl.irqHoldoff.toNat % 65536) ≤ a.now) :
    a.releaseIrq n = { a with
      ctl := { a.ctl with irqHeld := a.ctl.irqHeld.filter (fun v => v != n), irqLast := a.ctl.irqLast.set n a.now }
      out := a.out ++ [.irq n] } := by
  unfold State.releaseIrq
  rw [holdoff_eq, if_pos]
  · rfl
  · simpa [held, unmasked, Option.all_eq_true] using due

theorem releaseIrq_early (last : a.ctl.irqLast.get? n = some t)
    (early : a.now < t + 1000 * (a.ctl.irqHoldoff.toNat % 65536)) : a.releaseIrq n = a := by
  unfold State.releaseIrq
  rw [holdoff_eq, if_neg]
  simp [last, early]

theorem exec_liveWindowLowRead {read : HostRead} (passed : s.advance dt = a) (up : a.endpointUp = true) :
    exec (.liveWindowLowRead dt requester read) s = .next (match read with
      | .low offset => a.readLow requester offset
      | .whole offset => a.readWhole offset
      | .bar0 offset => if a.bar0Up then a.emit (.barRead (a.bar0Value offset)) else a) := by
  show execLiveWindowLowRead dt requester read s = _
  cases read <;> simp only [execLiveWindowLowRead, passed, up, if_true]

theorem exec_liveWindowHighRead_latched {l : Latch} (passed : s.advance dt = a) (up : a.endpointUp = true)
    (latched : a.ctl.latches.find? (fun x => x.requester == requester && x.offset == offset) = some l) :
    exec (.liveWindowHighRead dt requester offset) s = .next { a with
      ctl := { a.ctl with latches := a.ctl.latches.filter (fun x => x.requester != requester) }
      out := a.out ++ [.barRead l.high] } := by
  show execLiveWindowHighRead dt requester offset s = _
  simp only [execLiveWindowHighRead, passed, up, if_true, latched, State.emit]

theorem exec_liveWindowHighRead_live (passed : s.advance dt = a) (up : a.endpointUp = true)
    (unlatched : ∀ x ∈ a.ctl.latches, x.requester = requester → x.offset ≠ offset) :
    exec (.liveWindowHighRead dt requester offset) s =
      .next { a with out := a.out ++ [.barRead (BitVec.ofNat 32 (a.liveValue offset / 2 ^ 32))] } := by
  have unmatched : a.ctl.latches.find? (fun x => x.requester == requester && x.offset == offset) = none := by
    simpa [List.find?_eq_none] using unlatched
  show execLiveWindowHighRead dt requester offset s = _
  simp only [execLiveWindowHighRead, passed, up, if_true, unmatched, State.emit]

end Host

/-- Settles O22: the two timers act at their instants and not before, and each read answers what it reads. -/
theorem hostTimersAndLiveWindow : Obligations.HostTimersAndLiveWindow := by
  refine ⟨fun s a dt n passed => ⟨fun t r rest waiting => ?_, fun held unmasked due => ?_, fun t last early => ?_⟩,
    fun s a dt requester offset v passed up => ⟨?_, ?_, fun bar => ⟨?_, rfl, rfl⟩, fun l latched => ?_, fun unlatched => ?_, ?_⟩⟩
  · rw [exec_replyWaitTimeout passed waiting]
    exact ⟨fun due => congrArg Host.Outcome.next (if_pos (decide_eq_true due)),
      fun early => congrArg Host.Outcome.next (if_neg (by simpa using early))⟩
  · rw [exec_irqHoldoffExpiry passed, releaseIrq_raised held unmasked due]
  · rw [exec_irqHoldoffExpiry passed, releaseIrq_early last early]
  · exact exec_liveWindowLowRead passed up
  · rw [exec_liveWindowLowRead passed up]
    simp only [State.readWhole, State.emit, List.append_assoc, List.singleton_append]
  · rw [exec_liveWindowLowRead passed up]
    exact congrArg Host.Outcome.next (if_pos bar)
  · exact exec_liveWindowHighRead_latched passed up latched
  · exact exec_liveWindowHighRead_live passed up unlatched
  · show execLiveWindowWrite dt offset v s = _
    simp only [execLiveWindowWrite, passed, up, if_true]

end Sys2Proof.Laws
end

section
/-! SUPPORT. Commits (R59 to R64): the check, the storage, and what the boundary brings into force. -/

namespace Sys2Proof.Laws

open Sys2Proof.Machine

/-! ### Writing map entries twice -/

section Maps

variable {β : Type}

theorem set_entry_twice (m : AMap β) (key : Nat) (x : β) : (m.set key x).set key x = m.set key x := by
  induction m with
  | nil => simp [AMap.set]
  | cons p m ih =>
    obtain ⟨k, v⟩ := p
    rcases Nat.lt_trichotomy key k with below | here | above
    · simp [AMap.set, below]
    · simp [AMap.set, here]
    · simp [AMap.set, above.not_gt, above.ne', ih]

/-- Entries of one value may be written in either order. -/
theorem set_entry_comm (m : AMap β) (key other : Nat) (x : β) : (m.set key x).set other x = (m.set other x).set key x := by
  induction m with
  | nil => grind [AMap.set]
  | cons p m ih =>
    obtain ⟨k, v⟩ := p
    rcases Nat.lt_trichotomy key k with below | here | above <;> grind [AMap.set]

/-- An entry may be written before or after a row of entries of the same value. -/
theorem foldl_set_entry_comm (l : List Nat) (m : AMap β) (key : Nat) (x : β) :
    (l.foldl (fun m p => m.set p x) m).set key x = l.foldl (fun m p => m.set p x) (m.set key x) := by
  induction l generalizing m with
  | nil => rfl
  | cons p l ih => rw [List.foldl_cons, List.foldl_cons, ih, set_entry_comm]

/-- Writing a row of entries a second time changes nothing. -/
theorem foldl_set_entry_twice (l : List Nat) (m : AMap β) (x : β) :
    l.foldl (fun m p => m.set p x) (l.foldl (fun m p => m.set p x) m) = l.foldl (fun m p => m.set p x) m := by
  induction l generalizing m with
  | nil => rfl
  | cons p l ih => rw [List.foldl_cons, List.foldl_cons, foldl_set_entry_comm, set_entry_twice, ih]

end Maps

/-! ### The configuration that an application leaves -/

section Application

variable {s a : State} {c : Commit} {dt : Nat}

theorem podCommit_fold_cfg (l : List Nat) (number : Word) (b : Nat) :
    (l.foldl (fun (t : State) p => t.podCommit p number b) s).ctl.cfg =
      { s.ctl.cfg with pods := l.foldl (fun m p => m.set p (number, b)) s.ctl.cfg.pods } := by
  induction l generalizing s with
  | nil => rfl
  | cons p l ih =>
    have first := (podCommit_reaches (σ := .still) s p number b).still.2
    rw [List.foldl_cons, ih, first]
    rfl

/-- Applying a configuration writes it, and the commit of the pods it touches, and no other part of the configuration. -/
theorem applyConfig_cfg (c : Config) (b : Nat) (srcs : List Nat) (wrote : List (Nat × Nat)) :
    (s.applyConfig c b srcs wrote).ctl.cfg = { c with
      pods := (s.podsTouched (s.withCfg c) (changedKeys s.ctl.cfg.par c.par)).foldl (fun m p => m.set p (c.commit, b)) c.pods } := by
  unfold State.applyConfig
  extract_lets ch t pods reshaped changed drains _ _ _ modes pcts _ _ banks before after fds _ mts _ _ bals s₁
  have h : Reaches .still t before :=
    (((Reaches.refl t).set.foldl fun h => h.sourceCommit).foldl fun h => h.portCommit).cnvCommit.foldl fun h => h.fltRestartB
  have h₁ : Reaches .still after s₁ :=
    (((Reaches.refl after).foldl fun h => h.fdCommit).foldl fun h => h.mtCommit).armCommit.foldl fun h => h.balCommit
  have pod : after.ctl.cfg = { before.ctl.cfg with pods := pods.foldl (fun m p => m.set p (c.commit, b)) before.ctl.cfg.pods } :=
    podCommit_fold_cfg pods c.commit b
  rw [h.still.2] at pod
  refine (Reaches.still (s₀ := after) ?_).2.trans pod
  exact (Reaches.ite h₁.cusCommit h₁).foldl fun h => h.capCommit

/-- The pods a maquette touches have its commit already, so applying it leaves the configuration as `configAfter` has it. -/
theorem applyConfig_configAfter (maq : AMap MaqEntry) (number : Word) (b : Nat) (srcs : List Nat) (wrote : List (Nat × Nat)) :
    (s.applyConfig (s.configAfter maq number b) b srcs wrote).ctl.cfg = s.configAfter maq number b := by
  rw [applyConfig_cfg]
  exact congrArg (fun pods => { s.configAfter maq number b with pods := pods }) (foldl_set_entry_twice _ _ _)

theorem Kept.commit {s t : State} (h : Kept s t) : t.ctl.commit = s.ctl.commit := congrArg (fun u => u.ctl.commit) h.1

theorem Kept.cfg {s t : State} (h : Kept s t) : t.ctl.cfg = s.ctl.cfg := congrArg (fun u => u.ctl.cfg) h.1

theorem commitReport_kept {status block : Nat} : Kept s (s.commitReport c status block) :=
  (logEv_kept _ _ _ _ _).trans (notify_keptLogs _ _ _ _ _).1

theorem commitApplied_spent : (s.commitApplied c).ctl.maquette = [] ∧ (s.commitApplied c).ctl.commit = none ∧
    (s.commitApplied c).ctl.cfg = s.configAfter s.ctl.maquette c.number c.boundary := by
  unfold State.commitApplied
  extract_lets maq cfg t t₁
  have applied : t₁.ctl.cfg = cfg := by
    have moved : Reaches (.moving false) (s.applyConfig cfg c.boundary (sourcesTouched maq) (keysWritten maq)) t₁ :=
      (Reaches.refl _).offsetCommit.timCommit.storeApplied
    rw [moved.cfg_eq]
    exact applyConfig_configAfter maq c.number c.boundary _ _
  clear_value t₁
  have kept := @commitReport_kept { t₁ with ctl := { t₁.ctl with maquette := [], commit := none } } c 0 0
  exact ⟨kept.maquette, kept.commit, kept.cfg.trans applied⟩

theorem unstore_fields : (s.unstore c).ctl.maquette = s.ctl.maquette ∧ (s.unstore c).ctl.commit = none ∧
    (s.unstore c).ctl.cfg = s.ctl.cfg := by
  unfold State.unstore
  dsimp only
  split
  · split <;> exact ⟨rfl, rfl, rfl⟩
  · split <;> exact ⟨rfl, rfl, rfl⟩

section Boundary

variable (passed : s.advance dt = a) (held : a.ctl.commit = some c)

include passed held

theorem exec_commitBoundary_waits (waits : a.now < c.boundary ∨ c.stage ≠ .stored) : exec (.commitBoundary dt) s = .next a := by
  show execCommitBoundary dt s = _
  simp only [execCommitBoundary, passed, held]
  rw [if_neg]
  rcases waits with early | other
  · simp [early]
  · simp [other]

variable (up : a.up = true) (stored : c.stage = .stored) (due : c.boundary ≤ a.now)

include up stored due

theorem exec_commitBoundary_applies (free : a.blockingUnit = none) :
    exec (.commitBoundary dt) s = .next (a.commitApplied c) := by
  show execCommitBoundary dt s = _
  simp only [execCommitBoundary, passed, held, free]
  rw [if_pos (by simp [up, stored, due])]

theorem exec_commitBoundary_blocked {n : Nat} (blocked : a.blockingUnit = some n) :
    exec (.commitBoundary dt) s = .next ((a.unstore c).commitReport c 0x010C n) := by
  show execCommitBoundary dt s = _
  simp only [execCommitBoundary, passed, held, blocked]
  rw [if_pos (by simp [up, stored, due])]

end Boundary

end Application

/-! ### COMMIT_MAQUETTE and its check -/

section Start

variable {s t a : State} {q : Req} {c : Commit} {dt : Nat}

theorem commitStart_busy (pending : t.ctl.commit ≠ none) : t.commitStart q = (t.keepConflicts [], errId 0x010B 0) :=
  if_pos (Option.isSome_iff_ne_none.mpr pending)

theorem commitStart_fits (free : t.ctl.commit = none) (words : 3 ≤ q.payload.length)
    (kind : q.bits 4 1 0 = 0 ∨ q.bits 4 1 0 = 1 ∧ q.bits 4 15 8 ≤ 63 ∧ t.podOn (q.bits 4 15 8) = true ∨
      q.bits 4 1 0 = 2 ∧ gtfValid (q.dw 5) = true) :
    t.commitStart q =
      if t.ctl.maquette.isEmpty then (t.keepConflicts [], errId 0x0120 0)
      else ((t.keepConflicts []).setCommit (some {
        req := q, kind := q.bits 4 1 0, pod := q.bits 4 15 8, at_ := nsOf (q.dw 5), stage := .checking, number := 0
        boundary := 0, toFlash := false }), none) := by
  have fields : ¬(q.bits 4 1 0 = 3 ∨ (q.bits 4 1 0 = 1 ∧ 63 < q.bits 4 15 8) ∨ (q.bits 4 1 0 = 2 ∧ gtfValid (q.dw 5) = false)) := by
    rcases kind with zero | ⟨one, low, -⟩ | ⟨two, valid⟩
    · omega
    · omega
    · simp [two, valid]
  have runs : ¬(q.bits 4 1 0 = 1 ∧ (t.keepConflicts []).podOn (q.bits 4 15 8) = false) := by
    rintro ⟨one, off⟩
    rcases kind with zero | ⟨-, -, on⟩ | ⟨two, -⟩
    · omega
    · exact Bool.false_ne_true (off.symm.trans on)
    · omega
  have pending : ¬((t.keepConflicts []).ctl.commit.isSome = true) := by simp [State.keepConflicts, free]
  unfold State.commitStart
  dsimp only
  rw [if_neg pending, if_neg (Nat.not_lt.mpr words), if_neg fields, if_neg runs]
  rfl

theorem exec_commitCheckDone (passed : s.advance dt = a) (held : a.ctl.commit = some c) :
    exec (.commitCheckDone dt) s = .next (if a.up && c.stage == .checking then a.commitChecked c else a) := by
  show execCommitCheckDone dt s = _
  simp only [execCommitCheckDone, passed, held]

/-- What the check of the commit finds (R60). -/
abbrev foundConflicts (a : State) : List Conflict := a.conflictsOf (a.withCfg (a.ctl.cfg.takeAll a.ident a.ctl.maquette)) false false

/-- The maquette's journal record fits the free journal space (R63). -/
abbrev JournalFits (a : State) : Prop :=
  journalBytes a.ctl.maquette + (a.ctl.journal.map (fun r => journalBytes r.entries)).sum ≤ 589824

theorem commitStore_journal {b : Nat} (fits : JournalFits a) :
    a.commitStore c b = { a with ctl := { a.ctl with
      commitNo := a.ctl.commitNo + 1
      commit := some { c with number := a.ctl.commitNo + 1, boundary := b, stage := .stored }
      journal := a.ctl.journal ++ [journalRec (a.ctl.commitNo + 1) b a.ctl.maquette] } } := by
  unfold State.commitStore
  exact if_pos (decide_eq_true fits)

theorem commitChecked_stored {b : Nat} (clean : foundConflicts a = []) (boundary : a.boundaryOf c = some b) :
    a.commitChecked c =
      (a.commitStore c b).answerLater c.req 0x0105 0x0C (1, (a.commitStore c b).ctl.commitNo :: gtfWords b) := by
  unfold State.commitChecked
  dsimp only
  rw [if_neg (by simpa using clean), boundary]

theorem commitChecked_conflict (conflicting : foundConflicts a ≠ []) :
    a.commitChecked c = ({ a with ctl := { a.ctl with
      commit := none, conflicts := (foundConflicts a).take 4096 } }).answerLater c.req 0x0105 0x0C
        ((conflictAns (foundConflicts a)).getD (0x010A, [])) := by
  unfold State.commitChecked
  dsimp only
  rw [if_pos (by simpa using conflicting)]
  rfl

end Start

/-- Settles O19: the start of a commit, the end of its check, its boundary (`commitApplied_spent`), and what waits. -/
theorem commitsAreCheckedStoredAndApplied : Obligations.CommitsAreCheckedStoredAndApplied := by
  refine ⟨fun s t dt q role adm => ?_, fun s a dt c passed up held checking => ?_,
    fun s a dt c passed up held stored due => ?_, fun s a dt c passed held => ?_⟩
  · have adm' := admitted_weaken adm (Nat.zero_le 3)
    have ⟨_, _, _, words⟩ := adm
    refine ⟨fun up free kind staged => ?_, fun pending => ?_, fun free zero empty => ?_⟩
    · refine congrArg Host.Outcome.next (serve_owed adm' ?_ rfl up)
      exact (commitStart_fits free words kind).trans (if_neg (by simpa using staged))
    · exact congrArg Host.Outcome.next (serve_answers adm' (commitStart_busy pending) (fits_of_short (Nat.le_add_left 1 9)))
    · refine congrArg Host.Outcome.next (serve_answers adm' ?_ (fits_of_short (Nat.le_add_left 1 9)))
      exact (commitStart_fits free words (.inl zero)).trans (if_pos (by simp [empty]))
  · rw [exec_commitCheckDone passed held, if_pos (by simp [up, checking])]
    refine ⟨fun b clean boundary fits => ?_, fun zero fits => ?_, fun conflicting => ?_⟩
    · rw [commitChecked_stored clean boundary, commitStore_journal fits]
    · have now : a.storageAt = a.now := if_pos (decide_eq_true fits)
      simp only [State.boundaryOf, zero, now, State.commitLead]
    · exact ⟨_, congrArg Host.Outcome.next (commitChecked_conflict conflicting)⟩
  · refine ⟨fun free => ⟨_, exec_commitBoundary_applies passed held up stored due free, commitApplied_spent⟩, fun n blocked => ?_⟩
    obtain ⟨maquette, commit, cfg⟩ := @unstore_fields a c
    have kept := @commitReport_kept (a.unstore c) c 0x010C n
    exact ⟨_, exec_commitBoundary_blocked passed held up stored due blocked, kept.maquette.trans maquette,
      kept.commit.trans commit, kept.cfg.trans cfg⟩
  · refine ⟨exec_commitBoundary_waits passed held, fun other => ?_⟩
    rw [exec_commitCheckDone passed held, if_neg (by simp [other])]

/-! ### DISCARD_MAQUETTE, DIFF_MAQUETTE, READ_CONFLICTS -/

section Store

variable {s t a : State} {c : Commit} {dt : Nat}

theorem discard_free (free : t.ctl.commit = none) :
    t.discard = ({ t with ctl := { t.ctl with conflicts := [], maquette := [] } }, ok []) := by
  simp only [State.discard, State.keepConflicts, free]

theorem discard_checking (pending : t.ctl.commit = some c) (checking : c.stage = .checking) :
    t.discard = (t.keepConflicts [], errId 0x010B 0) := by
  simp only [State.discard, State.keepConflicts, pending, checking, true_or, if_true]
  rfl

/-- A commit stored in the journal goes with its record, while its boundary is far enough away (R64). -/
theorem discard_stored (pending : t.ctl.commit = some c) (stored : c.stage = .stored) (journal : c.toFlash = false)
    (early : t.now + 1000000 * t.parN Par.CTL.COMMIT_LEAD_MS 0 ≤ c.boundary) :
    t.discard = ({ t with ctl := { t.ctl with
      conflicts := [], maquette := [], commit := none
      journal := t.ctl.journal.filter (fun r => r.applied || r.number != c.number) } }, ok []) := by
  have inTime : ¬(c.stage = .checking ∨ c.boundary < (t.keepConflicts []).now + (t.keepConflicts []).commitLead) := by
    rw [stored, not_or, Nat.not_lt]
    exact ⟨nofun, early⟩
  have pending' : (t.keepConflicts []).ctl.commit = some c := pending
  unfold State.discard
  dsimp only
  rw [pending']
  dsimp only
  rw [if_neg inTime, State.unstore, journal, stored]
  rfl

theorem pageAns_page {α : Type} {l : List α} {words : α → List Word} {first n most : Nat} (least : 1 ≤ n) (le : n ≤ most) :
    pageAns l words first n most = ok (BitVec.ofNat 32 l.length :: ((l.drop first).take n).flatMap words) := by
  rw [pageAns, if_neg (Nat.one_le_iff_ne_zero.mp least), if_neg (Nat.not_lt.mpr le)]
  rfl

/-! ### The configuration store (R63) -/

theorem programmed_whole {x : Config} (image : a.ctl.image = some x) :
    a.programmed = { a with ctl := { a.ctl with image := none, flash := a.ctl.flash.set (1 - a.ctl.cfgSlot) (.whole x x.crc) } } := by
  simp only [State.programmed, image]
  rfl

theorem exec_commitFlashStored {x : Config} (passed : s.advance dt = a) (up : a.up = true) (pending : a.ctl.commit = some c)
    (writes : c.stage = .flash) (image : a.ctl.image = some x) :
    exec (.commitFlashStored dt) s = .next { a with ctl := { a.ctl with
      commit := some { c with stage := .stored }, image := none
      flash := a.ctl.flash.set (1 - a.ctl.cfgSlot) (.whole x x.crc) } } := by
  show execCommitFlashStored dt s = _
  simp only [execCommitFlashStored, passed, pending]
  rw [if_pos (by simp [up, writes]), programmed_whole image]
  rfl

theorem consolidationDue_holds (up : a.up = true) (idle : a.ctl.consolidating = 0)
    (journal : ∀ c, a.ctl.commit = some c → c.toFlash = false)
    (due : 589824 < 2 * (a.ctl.journal.map (fun r => journalBytes r.entries)).sum ∨ a.ctl.journal ≠ [] ∧ a.utcMidnight = true) :
    a.consolidationDue = true := by
  have inJournal : a.ctl.commit.any Commit.toFlash = false := by
    cases pending : a.ctl.commit with
    | none => rfl
    | some c => exact journal c pending
  have due' : (decide (journalSize < 2 * a.journalUsed) || (!a.ctl.journal.isEmpty && a.utcMidnight)) = true := by
    simp only [Bool.or_eq_true, decide_eq_true_eq, Bool.and_eq_true, Bool.not_eq_true', List.isEmpty_eq_false_iff]
    exact due
  simp only [State.consolidationDue, up, idle, inJournal, due', BEq.rfl, Bool.not_false, Bool.and_self]

/-- The slot not in force is erased, and no consolidation runs. -/
abbrev erased (a : State) : State :=
  { a with ctl := { a.ctl with consolidating := 0, flash := a.ctl.flash.erase (1 - a.ctl.cfgSlot) } }

section Erasing

variable (passed : s.advance dt = a) (up : a.up = true) (erases : 2 ≤ a.ctl.consolidating)

include passed up erases

theorem exec_consolidationEraseDone_idle (clear : ∀ c, a.ctl.commit = some c → c.stage ≠ .waitConsolidation) :
    exec (.consolidationEraseDone dt) s = .next (erased a) := by
  show execConsolidationEraseDone dt s = _
  simp only [execConsolidationEraseDone, passed]
  rw [if_pos (by simp [up, erases])]
  cases pending : a.ctl.commit with
  | none => simp [State.setFlash, pending, State.spareSlot]
  | some c => simp [State.setFlash, pending, clear c pending, State.spareSlot]

theorem exec_consolidationEraseDone_waiting (pending : a.ctl.commit = some c) (waits : c.stage = .waitConsolidation) :
    exec (.consolidationEraseDone dt) s = .next ((erased a).flashCommit c) := by
  show execConsolidationEraseDone dt s = _
  simp only [execConsolidationEraseDone, passed]
  rw [if_pos (by simp [up, erases])]
  split
  · next c' held =>
    obtain rfl : c = c' := Option.some.inj (pending.symm.trans held)
    rw [if_pos waits]
    rfl
  · next free => exact absurd (pending.symm.trans free) nofun

end Erasing

end Store

/-- Settles O20: the discards and the pages, and each step of the configuration store. -/
theorem maquetteAndStore : Obligations.MaquetteAndStore := by
  refine ⟨fun s t dt q role => ⟨fun adm free => ?_, fun c adm pending stored journal early => ?_, fun c adm pending checking => ?_,
    fun adm least most fit => ?_, fun adm least most fit => ?_⟩, fun s a dt passed => ⟨fun c x up pending writes image => ?_,
    fun up idle journal due => ?_, fun x up runs image => ?_, fun up erases clear => ?_, fun c up erases pending waits => ?_⟩⟩
  · exact congrArg Host.Outcome.next (serve_ok_short adm (discard_free free) (Nat.zero_le 10))
  · exact congrArg Host.Outcome.next (serve_ok_short adm (discard_stored pending stored journal early) (Nat.zero_le 10))
  · exact congrArg Host.Outcome.next (serve_answers adm (discard_checking pending checking) (fits_of_short (Nat.le_add_left 1 9)))
  · exact congrArg Host.Outcome.next (serve_ok adm (congrArg (Prod.mk t) (pageAns_page least most)) fit)
  · exact congrArg Host.Outcome.next (serve_ok adm (congrArg (Prod.mk t) (pageAns_page least most)) fit)
  · exact exec_commitFlashStored passed up pending writes image
  · show execConfigConsolidationStart dt s = _
    simp only [execConfigConsolidationStart, passed]
    rw [if_pos (consolidationDue_holds up idle journal due)]
    rfl
  · show execConfigConsolidationDone dt s = _
    simp only [execConfigConsolidationDone, passed]
    rw [if_pos (by simp [up, runs]), programmed_whole image]
    rfl
  · exact exec_consolidationEraseDone_idle passed up erases clear
  · exact exec_consolidationEraseDone_waiting passed up erases pending waits

end Sys2Proof.Laws
end

section
/-! SUPPORT. The GTF pattern, TQ, and TIME_LOCKED (R75, R77, R79, R92). -/

namespace Sys2Proof.Laws

open Sys2Proof.Machine

/-- The nanoseconds of a second fit the low 30 bits (R75). -/
theorem nsOf_gtfOf (t : Nat) : nsOf (gtfOf t) = t := by
  have low : t % sec < 2 ^ 30 := (Nat.mod_lt t (by decide)).trans (by decide)
  have high : (t / sec * 2 ^ 30 + t % sec) / 2 ^ 30 = t / sec := by omega
  have rest : (t / sec * 2 ^ 30 + t % sec) % 2 ^ 30 = t % sec := by omega
  rw [nsOf, gtfOf, high, rest]
  exact Nat.div_add_mod' t sec

/-- One bound of R77's table is asked, and then those above it. -/
theorem findIdx_bound_add (e b : Rat) (l : List Rat) (n : Nat) :
    (b :: l).findIdx (fun b => decide (e ≤ b)) + n = if e ≤ b then n else l.findIdx (fun b => decide (e ≤ b)) + (n + 1) := by
  rw [List.findIdx_cons]
  by_cases within : e ≤ b
  · simp [within]
  · simp [within]
    omega

/-- The table of R77, bound after bound. -/
theorem tqOf_eq_findIdx (e : Rat) :
    tqOf e = ([25, 50, 100, 250, 500, 1000, 2500, 5000, 10000, 25000, 50000, 100000, 1000000, 10000000] : List Rat).findIdx
      (fun b => decide (e ≤ b)) := by
  rw [← Nat.add_zero (List.findIdx _ _)]
  simp only [findIdx_bound_add, List.findIdx_nil, Nat.reduceAdd, tqOf]

theorem errorE_of_free {s : State} (free : s.tim.st = 0) : s.errorE = none := by
  simp [State.errorE, free]

theorem tq_of_free {s : State} (free : s.tim.st = 0) : s.tq = if s.tim.plinthSet then 14 else 15 := by
  simp only [State.tq, errorE_of_free free]

theorem timeLocked_iff {s : State} : s.timeLocked = true ↔ (s.tim.st = 2 ∨ s.tim.st = 3) ∧ s.tq ≤ 8 := by
  simp only [State.timeLocked, Bool.and_eq_true, Bool.or_eq_true, beq_iff_eq, decide_eq_true_eq]

/-- Settles O28: the pattern's two parts are read back, and the table of R77 is searched bound after bound. -/
theorem gtfAndTimeQualityCodes : Obligations.GtfAndTimeQualityCodes :=
  ⟨fun t => ⟨rfl, nsOf_gtfOf t⟩, tqOf_eq_findIdx, fun _ => tq_of_free, fun _ => timeLocked_iff⟩

end Sys2Proof.Laws
end

section
/-! SUPPORT. TIME_QUALITY, PPS_OUT, REF10M_IN, leap seconds and the plinth count (R89, R90, R95, R96, R100, R365). -/

namespace Sys2Proof.Laws

open Sys2Proof.Machine

section Clock

variable {s a : State} {dt t : Nat}

/-! ### TIME_QUALITY (R100) -/

/-- The TQ and TIME_LOCKED now are what the next change is compared with. -/
abbrev qualitySeen (s : State) : State := { s with tim := { s.tim with lastTq := s.tq, lastLocked := s.timeLocked } }

/-- Where neither state, reference, clock nor TIME_LOCKED moves, only a change of TQ outside a held second is sent. -/
theorem timeChanged_of_steady (steady : s.timeLocked = s.tim.lastLocked) :
    s.timeChanged false none =
      if s.tq != s.tim.lastTq && !s.tim.holdEnd.any (fun t => decide (s.now < t)) then (qualitySeen s).sendQuality none
      else qualitySeen s := by
  have unmoved : (s.timeLocked != s.tim.lastLocked) = false := by simp [steady]
  unfold State.timeChanged
  simp only [unmoved, Option.isSome_none, Bool.false_or, Bool.false_eq_true, if_false]
  rfl

theorem timeChanged_of_tq_moved (steady : s.timeLocked = s.tim.lastLocked) (moved : s.tq ≠ s.tim.lastTq)
    (free : s.tim.holdEnd = none) :
    s.timeChanged false none = (qualitySeen s).sendQuality none := by
  rw [timeChanged_of_steady steady, if_pos (by simp [moved, free])]

theorem timeChanged_of_held (steady : s.timeLocked = s.tim.lastLocked) (held : s.tim.holdEnd = some t) (early : s.now < t) :
    s.timeChanged false none = qualitySeen s := by
  rw [timeChanged_of_steady steady, if_neg (by simp [held, early])]

theorem timeChanged_of_tq_steady (steady : s.timeLocked = s.tim.lastLocked) (same : s.tq = s.tim.lastTq) :
    s.timeChanged false none = qualitySeen s := by
  rw [timeChanged_of_steady steady, if_neg (by simp [same])]

theorem exec_tqChange (passed : s.advance dt = a) (up : a.up = true) : exec (.tqChange dt) s = .next (a.timeChanged false none) := by
  show execTqChange dt s = _
  simp only [execTqChange, passed, up, if_true]

/-- At the held second's end the TQ in force is sent where it differs from the one sent last. -/
theorem exec_timeQualityHoldEnd_due (passed : s.advance dt = a) (up : a.up = true) (steady : a.timeLocked = a.tim.lastLocked)
    (held : a.tim.holdEnd = some t) (due : t ≤ a.now) (same : a.tq = a.tim.lastTq) (unsent : a.tq ≠ a.tim.sentTq) :
    exec (.timeQualityHoldEnd dt) s =
      .next (({ qualitySeen a with tim := { (qualitySeen a).tim with holdEnd := none } } : State).sendQuality none) := by
  have seen : State.timeChanged { a with tim := { a.tim with holdEnd := none } } false none =
      { qualitySeen a with tim := { (qualitySeen a).tim with holdEnd := none } } :=
    timeChanged_of_tq_steady (s := { a with tim := { a.tim with holdEnd := none } }) steady same
  show execTimeQualityHoldEnd dt s = _
  simp only [execTimeQualityHoldEnd, passed]
  rw [if_pos (by simp [up, held, due]), seen, if_pos]
  have locked : State.timeLocked { a with tim := { a.tim with holdEnd := none } } = a.tim.lastLocked := steady
  have tq : State.tq { qualitySeen a with tim := { (qualitySeen a).tim with holdEnd := none } } = a.tq := rfl
  simp [locked, tq, unsent]

theorem exec_timeQualityHoldEnd_early (passed : s.advance dt = a) (held : a.tim.holdEnd = some t) (early : a.now < t) :
    exec (.timeQualityHoldEnd dt) s = .next a := by
  show execTimeQualityHoldEnd dt s = _
  simp only [execTimeQualityHoldEnd, passed]
  rw [if_neg (by simp [held, early])]

/-! ### PPS_OUT (R89) -/

theorem exec_ppsOutSecond_good (passed : s.advance dt = a) (up : a.up = true) (on : a.parN Par.TIM.PPS_OUT_MODE 0 = 1)
    (whole : a.now % sec = 0) (good : a.tq ≤ a.parN Par.TIM.PPS_OUT_MIN_TQ 0) (free : a.tim.ppsHeld = false) :
    exec (.ppsOutSecond dt) s = .next { a with tim := { a.tim with ppsOut := true, ppsAt := a.now } } := by
  show execPpsOutSecond dt s = _
  simp [execPpsOutSecond, passed, up, on, whole, good, free]

theorem exec_ppsOutSecond_poor (passed : s.advance dt = a) (up : a.up = true) (on : a.parN Par.TIM.PPS_OUT_MODE 0 = 1)
    (whole : a.now % sec = 0) (poor : a.parN Par.TIM.PPS_OUT_MIN_TQ 0 < a.tq) (free : a.tim.ppsHeld = false) :
    exec (.ppsOutSecond dt) s = .next (({ a with tim := { a.tim with ppsHeld := true } } : State).logEv 0x0203 2 a.now
      (BitVec.ofNat 64 (1 + a.tq * 16))) := by
  show execPpsOutSecond dt s = _
  simp [execPpsOutSecond, passed, up, on, whole, poor.not_ge, free, bitAt]

theorem exec_ppsOutWidthEnd (passed : s.advance dt = a) (high : a.tim.ppsOut = true) :
    exec (.ppsOutWidthEnd dt) s = .next (
      if decide (a.tim.ppsAt + 1000 * a.parN Par.TIM.PPS_OUT_WIDTH_US 0 ≤ a.now) then { a with tim := { a.tim with ppsOut := false } }
      else a) := by
  show execPpsOutWidthEnd dt s = _
  simp only [execPpsOutWidthEnd, passed, high, Bool.true_and]

/-! ### REF10M_IN (R90) -/

theorem exec_ref10mLoss (passed : s.advance dt = a) (up : a.up = true) (valid : a.tim.ref10m = true) :
    exec (.ref10mLoss dt) s =
      .next ((({ a with tim := { a.tim with ref10m := false, ref10mLost := a.now } } : State).count 0x0204 0 1).logEv
        0x0204 2 a.now 1) := by
  show execRef10mLoss dt s = _
  simp only [execRef10mLoss, passed]
  rw [if_pos (by simp [up, valid])]

theorem exec_ref10mRestore (passed : s.advance dt = a) (up : a.up = true) (lost : a.tim.ref10m = false)
    (on : a.parB Par.TIM.REF10M_ENABLE 0 = true) (due : a.tim.ref10mLost + 10 * sec ≤ a.now) :
    exec (.ref10mRestore dt) s = .next (({ a with tim := { a.tim with ref10m := true } } : State).logEv 0x0204 2 a.now 0) := by
  show execRef10mRestore dt s = _
  simp only [execRef10mRestore, passed]
  rw [if_pos (by simp [up, lost, on, due])]

theorem exec_ref10mRestore_early (passed : s.advance dt = a) (early : a.now < a.tim.ref10mLost + 10 * sec) :
    exec (.ref10mRestore dt) s = .next a := by
  show execRef10mRestore dt s = _
  simp only [execRef10mRestore, passed]
  rw [if_neg (by simp [early])]

/-! ### Leap seconds and the plinth count (R95, R96, R365) -/

theorem exec_leapSecondApply (passed : s.advance dt = a) (up : a.up = true) (announced : a.tim.leapDue = true) :
    exec (.leapSecondApply dt) s = .next (
      if decide (a.tim.leapAt ≤ a.now) then
        ({ a with tim := { a.tim with
          utcOffset := a.tim.utcOffset + (if a.tim.leapKind = 1 then 1 else -1)
          prevOffset := some a.tim.utcOffset, leapDue := false } } : State).logEv 0x0205 2 a.now
            (BitVec.ofInt 32 (a.tim.utcOffset + (if a.tim.leapKind = 1 then 1 else -1)) ++ BitVec.ofInt 32 a.tim.utcOffset)
      else a) := by
  show execLeapSecondApply dt s = _
  simp only [execLeapSecondApply, passed, up, announced, Bool.true_and]

theorem exec_plinthTimeSet (passed : s.advance dt = a) (up : a.up = true) (locked : a.timeLocked = true) (whole : a.now % sec = 0) :
    exec (.plinthTimeSet dt) s = .next { a with tim := { a.tim with plinth := a.now, plinthAt := a.now, plinthSet := true } } := by
  show execPlinthTimeSet dt s = _
  simp only [execPlinthTimeSet, passed]
  rw [if_pos (by simp [up, locked, whole])]

end Clock

/-- Settles O32: each clause at its instant, and nothing before it. -/
theorem timeQualityPpsAndClockEvents : Obligations.TimeQualityPpsAndClockEvents := by
  refine ⟨fun s a dt passed up steady => ⟨fun moved free => ?_, fun t held early => ?_, fun t held due same unsent => ?_,
      fun t held early => ?_⟩,
    fun s a dt passed => ⟨fun up on whole => ⟨fun good free => ?_, fun poor free => ?_⟩, fun high due => ?_, fun high early => ?_⟩,
    fun s a dt passed up => ⟨fun valid => ?_, fun lost on due => ?_, fun early => ?_, fun announced due => ?_,
      fun announced early => ?_, fun locked whole => ?_⟩⟩
  · rw [exec_tqChange passed up, timeChanged_of_tq_moved steady moved free]
  · rw [exec_tqChange passed up, timeChanged_of_held steady held early]
  · exact exec_timeQualityHoldEnd_due passed up steady held due same unsent
  · exact exec_timeQualityHoldEnd_early passed held early
  · exact exec_ppsOutSecond_good passed up on whole good free
  · exact exec_ppsOutSecond_poor passed up on whole poor free
  · rw [exec_ppsOutWidthEnd passed high, if_pos (decide_eq_true due)]
  · rw [exec_ppsOutWidthEnd passed high, if_neg (by simpa using early)]
  · exact exec_ref10mLoss passed up valid
  · exact exec_ref10mRestore passed up lost on due
  · exact exec_ref10mRestore_early passed early
  · rw [exec_leapSecondApply passed up announced, if_pos (decide_eq_true due)]
  · rw [exec_leapSecondApply passed up announced, if_neg (by simpa using early)]
  · exact exec_plinthTimeSet passed up locked whole

end Sys2Proof.Laws
end

section
/-! SUPPORT. What a step of the clock in the units, the entry into RUN and TIME_QUALITY cannot touch: the clock, its state and its
references. -/

namespace Sys2Proof.Laws

open Sys2Proof.Machine

/-- The time base without what it reports: the level of PPS_OUT and what TIME_QUALITY has sent (R89, R100). -/
def unreported (t : Tim) : Tim :=
  { t with ppsOut := false, ppsAt := 0, lastTq := 0, lastLocked := false, sentTq := 0, holdEnd := none }

/-- The time base of `s` is that of `s₀`, but for what it reports. -/
def ClockStays (s₀ s : State) : Prop := unreported s.tim = unreported s₀.tim

/-! One lemma `ClockStays.f` for each operation `f` that a step of the clock and the entry into RUN are made of, in the order of the
model; `h.set` is an update of any fields outside the time base, under whatever name it goes. -/

section Operations

variable {s₀ s t : State}

theorem ClockStays.refl (s : State) : ClockStays s s := rfl

/-- The clock and what it is steered by. -/
theorem ClockStays.fields (h : ClockStays s t) : t.tim.now = s.tim.now ∧ t.tim.st = s.tim.st ∧ t.tim.ref = s.tim.ref ∧
    t.tim.holdSince = s.tim.holdSince ∧ t.tim.e0 = s.tim.e0 ∧ t.tim.offset = s.tim.offset ∧ t.tim.offsetAt = s.tim.offsetAt := by
  have h : unreported t.tim = unreported s.tim := h
  simp only [unreported, Tim.mk.injEq] at h
  simp only [h, and_self]

/-- What only writes ports, logs and the like leaves the time base. -/
theorem ClockStays.kept (h : ClockStays s₀ s) (k : Kept s t) : ClockStays s₀ t :=
  (congrArg (fun s : State => unreported s.tim) k.eq).trans h

/-- Releasing a packet and taking one in write the scheduler alone. -/
theorem ClockStays.taken (h : ClockStays s₀ s) (k : Taken s t) : ClockStays s₀ t :=
  (congrArg (fun s : State => unreported s.tim) k.eq).trans h

/-- Every field outside the time base may be written. -/
theorem ClockStays.set (h : ClockStays s₀ s) {pending : List Instr} {ident : Ident} {pwr : Pwr} {units : AMap UnitSt} {lands : Lands}
    {alarms : List (Nat × Nat × Nat)} {ctl : Ctl} {prt : Ports} {ing : Ing} {aln : Aln} {osc : Osc} {arm : Arm} {cus : Cus} {cnv : Cnv}
    {flt : FltUnit} {cap : Cap} {lgc : Lgc} {vlt : Vlt} {evt : Evt} {mem : Mem} {out : List Output} :
    ClockStays s₀ ⟨pending, ident, pwr, units, lands, alarms, ctl, prt, s.tim, ing, aln, osc, arm, cus, cnv, flt, cap, lgc, vlt, evt,
      mem, out⟩ := h

theorem ClockStays.ite {c : Prop} [Decidable c] (h : ClockStays s₀ s) (g : ClockStays s₀ t) : ClockStays s₀ (if c then s else t) := by
  split
  · exact h
  · exact g

theorem ClockStays.foldl {α : Type} {f : State → α → State} {l : List α} (h : ClockStays s₀ s)
    (step : ∀ {s a}, ClockStays s₀ s → ClockStays s₀ (f s a)) : ClockStays s₀ (l.foldl f s) := by
  induction l generalizing s with
  | nil => exact h
  | cons a l ih => exact ih (step h)

/-! ### Transmit -/

theorem ClockStays.count (h : ClockStays s₀ s) {id inst n : Nat} : ClockStays s₀ (s.count id inst n) :=
  h.kept (count_keptLogs _ _ _ _).1

theorem ClockStays.count2 (h : ClockStays s₀ s) {id inst n : Nat} : ClockStays s₀ (s.count2 id inst n) :=
  h.kept (count2_keptLogs _ _ _ _).1

theorem ClockStays.sendUdp (h : ClockStays s₀ s) {n rank srcPort : Nat} {peer : Peer} {payload : List Byte} {msg : Option Output} :
    ClockStays s₀ (s.sendUdp n rank srcPort peer payload msg) :=
  h.kept (sendUdp_keptLogs _ _ _ _ _ _ _).1

theorem ClockStays.sendTcp (h : ClockStays s₀ s) {k rank : Nat} {data : List Byte} {msg : Option Output} :
    ClockStays s₀ (s.sendTcp k rank data msg) :=
  h.kept (sendTcp_keptLogs _ _ _ _ _).1

/-! ### Ops -/

theorem ClockStays.noticeTo (h : ClockStays s₀ s) {d : NoticeDest} {n : Notice} : ClockStays s₀ (s.noticeTo d n) :=
  h.kept (noticeTo_keptLogs _ _ _).1

theorem ClockStays.notify (h : ClockStays s₀ s) {op status u : Nat} {payload : List Word} :
    ClockStays s₀ (s.notify op status u payload) :=
  h.kept (notify_keptLogs _ _ _ _ _).1

theorem ClockStays.logEv (h : ClockStays s₀ s) {code u t : Nat} {par : DWord} : ClockStays s₀ (s.logEv code u t par) :=
  h.kept (logEv_kept _ _ _ _ _)

theorem ClockStays.logCus (h : ClockStays s₀ s) {code t : Nat} {par : DWord} : ClockStays s₀ (s.logCus code t par) :=
  h.kept (logCus_kept _ _ _ _)

theorem ClockStays.noteDepth (h : ClockStays s₀ s) {levels : List Nat} : ClockStays s₀ (s.noteDepth levels) :=
  h.taken (noteDepth_taken _ _)

theorem ClockStays.taskReady (h : ClockStays s₀ s) {level num : Nat} : ClockStays s₀ (s.taskReady level num) :=
  h.set.noteDepth

theorem ClockStays.taskWaits (h : ClockStays s₀ s) {level num n : Nat} : ClockStays s₀ (s.taskWaits level num n) :=
  .ite h.taskReady h.set

theorem ClockStays.prerequisiteDone (h : ClockStays s₀ s) {num : Nat} : ClockStays s₀ (s.prerequisiteDone num) := by
  unfold State.prerequisiteDone
  split
  · exact .ite h.set.taskReady h.set
  · exact h

/-! ### Recorder -/

/-- PPS_OUT may pulse (R315). -/
theorem ClockStays.capPulse (h : ClockStays s₀ s) {n : Nat} : ClockStays s₀ (s.capPulse n) :=
  .ite h h

theorem ClockStays.captureDone (h : ClockStays s₀ s) {n cause flags id trig pre post : Nat} :
    ClockStays s₀ (s.captureDone n cause flags id trig pre post) :=
  h.notify

theorem ClockStays.endRecord (h : ClockStays s₀ s) {n : Nat} : ClockStays s₀ (s.endRecord n) := by
  unfold State.endRecord State.endRecordTo
  dsimp only
  split
  · exact h
  · exact h.set.count2.captureDone

theorem ClockStays.startRecord (h : ClockStays s₀ s) {n cause stamp : Nat} : ClockStays s₀ (s.startRecord n cause stamp) := by
  unfold State.startRecord
  extract_lets r clamped k before rows left open_ step need kept gone c _ _ s₁
  have h₁ : ClockStays s₀ s₁ := (ClockStays.ite h h.count2).set.capPulse
  exact .ite h₁.endRecord h₁

theorem ClockStays.rollMark (h : ClockStays s₀ s) {n cause stamp : Nat} : ClockStays s₀ (s.rollMark n cause stamp) :=
  h.set.capPulse.captureDone

theorem ClockStays.capFire (h : ClockStays s₀ s) {n : Nat} {t : Nat × Nat} : ClockStays s₀ (s.capFire n t) := by
  unfold State.capFire
  dsimp only
  split
  · exact .ite h.rollMark (.ite h.set h.startRecord)
  · exact .ite h.rollMark (.ite h.set h.startRecord)
  · exact h.set.count2
  · exact h.count2.logEv
  · exact h.count2
  · exact h

theorem ClockStays.capFires (h : ClockStays s₀ s) {n : Nat} {l : List (Nat × Nat)} : ClockStays s₀ (s.capFires n l) :=
  h.foldl fun h => h.capFire

theorem ClockStays.capEvent (h : ClockStays s₀ s) {kind : Nat} {hit : Nat → Option Bool} {stamp : Nat} :
    ClockStays s₀ (s.capEvent kind hit stamp) :=
  .ite (h.foldl fun h => .ite h h.capFires) h

theorem ClockStays.alarmT (h : ClockStays s₀ s) {u cls inst : Nat} {raised test : Bool} {t : Nat} :
    ClockStays s₀ (s.alarmT u cls inst raised test t) :=
  .ite h h.set.notify.capEvent

theorem ClockStays.alarm (h : ClockStays s₀ s) {u cls inst : Nat} {raised : Bool} {t : Nat} :
    ClockStays s₀ (s.alarm u cls inst raised t) :=
  h.alarmT

/-! ### Alignment -/

theorem ClockStays.countPod (h : ClockStays s₀ s) {id p n : Nat} : ClockStays s₀ (s.countPod id p n) :=
  .ite h h.count2

theorem ClockStays.dropEgress (h : ClockStays s₀ s) {p n k : Nat} : ClockStays s₀ (s.dropEgress p n k) :=
  h.countPod.count

theorem ClockStays.oafTo (h : ClockStays s₀ s) {p : Nat} {w : List Word} {o : OafOut} : ClockStays s₀ (s.oafTo p w o) :=
  .ite (h.foldl fun h => h.sendUdp) h.dropEgress

theorem ClockStays.podDataTo (h : ClockStays s₀ s) {p : Nat} {d : NoticeDest} {named : Bool} {o : OafOut} :
    ClockStays s₀ (s.podDataTo p d named o) :=
  h.foldl fun h => .ite h.noticeTo.countPod h.noticeTo

theorem ClockStays.c37To (h : ClockStays s₀ s) {p d : Nat} {w : List Word} {kind : Nat} {bytes : List Byte} :
    ClockStays s₀ (s.c37To p d w kind bytes) := by
  unfold State.c37To
  dsimp only
  refine .ite h.dropEgress (.ite h.sendUdp ?_)
  split
  · exact h.sendTcp
  · exact h

theorem ClockStays.editionTo (h : ClockStays s₀ s) {p g : Nat} {x : Slot} {n : Nat} {o : OafOut} {d : Nat} :
    ClockStays s₀ (s.editionTo p g x n o d) := by
  unfold State.editionTo
  dsimp only
  split
  · exact .ite h.oafTo (.ite h.c37To h)
  · exact .ite h.countPod (.ite h.c37To h)
  · exact h.podDataTo
  · exact h

theorem ClockStays.sendLayout (h : ClockStays s₀ s) {p : Nat} {d : PodDef} {commit : Bool} :
    ClockStays s₀ (s.sendLayout p d commit) := by
  unfold State.sendLayout
  extract_lets o s₁
  have h₁ : ClockStays s₀ s₁ := by
    dsimp only [s₁]
    refine h.foldl fun h => ?_
    split
    · exact .ite h.oafTo h
    · exact h.podDataTo
    · exact h
  exact .ite (h₁.foldl fun h => h.podDataTo) h₁

theorem ClockStays.layoutFirst (h : ClockStays s₀ s) {p : Nat} {d : PodDef} : ClockStays s₀ (s.layoutFirst p d) :=
  .ite h.sendLayout.set h

theorem ClockStays.egress (h : ClockStays s₀ s) {p g : Nat} {x : Slot} {n cause : Nat} : ClockStays s₀ (s.egress p g x n cause) :=
  .ite (((ClockStays.ite h.layoutFirst h).foldl fun h => h.editionTo).foldl fun h => h.podDataTo) h

theorem ClockStays.slotEvent (h : ClockStays s₀ s) {p g : Nat} {x : Slot} {n cause : Nat} {issued : Bool} :
    ClockStays s₀ (s.slotEvent p g x n cause issued) :=
  .ite h.notify h

theorem ClockStays.freeStore (h : ClockStays s₀ s) {x : Slot} : ClockStays s₀ (s.freeStore x) :=
  .ite h h.set

theorem ClockStays.feedTrackers (h : ClockStays s₀ s) {p g : Nat} {x : Slot} : ClockStays s₀ (s.feedTrackers p g x) :=
  h.foldl fun h => .ite h.set h

theorem ClockStays.feedLogic (h : ClockStays s₀ s) {p g : Nat} {x : Slot} : ClockStays s₀ (s.feedLogic p g x) := by
  unfold State.feedLogic
  dsimp only
  split
  · exact .ite h.set h
  · exact h.set

theorem ClockStays.closeSlotCore (h : ClockStays s₀ s) {p g cause : Nat} : ClockStays s₀ (s.closeSlotCore p g cause) := by
  unfold State.closeSlotCore
  split
  · exact h
  · refine .ite h ?_
    extract_lets pod es soon missing y _ _ _ s₁
    have h₁ : ClockStays s₀ s₁ := h.freeStore.set.countPod.countPod
    exact .ite (.ite h₁.countPod h₁) (ClockStays.ite h₁.countPod h₁).feedTrackers.feedLogic.egress.slotEvent

theorem ClockStays.revise (h : ClockStays s₀ s) {p g : Nat} {x : Slot} {cause : Nat} {final : Bool} :
    ClockStays s₀ (s.revise p g x cause final) :=
  h.set.countPod.egress.slotEvent

theorem ClockStays.finish (h : ClockStays s₀ s) {p g cause : Nat} : ClockStays s₀ (s.finish p g cause) := by
  unfold State.finish
  split
  · exact h
  · exact .ite h (.ite h.set.slotEvent h.revise)

theorem ClockStays.drainFinals (h : ClockStays s₀ s) : ClockStays s₀ s.drainFinals :=
  .ite (h.foldl fun h => h.finish) h

theorem ClockStays.closeSlot (h : ClockStays s₀ s) {p g cause : Nat} : ClockStays s₀ (s.closeSlot p g cause) :=
  h.closeSlotCore.drainFinals

theorem ClockStays.batchExpiry (h : ClockStays s₀ s) {p g cause : Nat} : ClockStays s₀ (s.batchExpiry p g cause) := by
  unfold State.batchExpiry
  split
  · exact .ite h h.revise.drainFinals
  · exact h

theorem ClockStays.fireStep (h : ClockStays s₀ s) {t : Nat × Nat × Nat} : ClockStays s₀ (s.fireStep t) := by
  unfold State.fireStep
  split
  · exact h
  · exact .ite h.closeSlot (.ite h.batchExpiry (.ite h.finish h))

theorem ClockStays.stepSlots (h : ClockStays s₀ s) {p a b : Nat} : ClockStays s₀ (s.stepSlots p a b) :=
  .ite (h.foldl fun h => .ite h.set.closeSlot h).set h

theorem ClockStays.alnStep (h : ClockStays s₀ s) {a b : Nat} : ClockStays s₀ (s.alnStep a b) :=
  .ite ((h.foldl fun h => h.fireStep).foldl fun h => h.stepSlots) h.set

/-! ### Topology -/

theorem ClockStays.needRecompute (h : ClockStays s₀ s) {stamp : Nat} {test : Bool} : ClockStays s₀ (s.needRecompute stamp test) :=
  .ite h.set h.set

theorem ClockStays.branchSet (h : ClockStays s₀ s) {b : Nat} {closed : Bool} {stamp : Nat} {test : Bool} :
    ClockStays s₀ (s.branchSet b closed stamp test) :=
  .ite h h.set.count.needRecompute

theorem ClockStays.branchBad (h : ClockStays s₀ s) {b : Nat} {d : BranchDef} {since : Option Nat} {stamp : Nat} {test : Bool} :
    ClockStays s₀ (s.branchBad b d since stamp test) :=
  .ite h.set h.set.count.alarmT.branchSet

theorem ClockStays.branchReport (h : ClockStays s₀ s) {b : Nat} {d : BranchDef} {r : StatusRep} {stamp : Nat} {test : Bool} :
    ClockStays s₀ (s.branchReport b d r stamp test) := by
  unfold State.branchReport
  dsimp only
  split
  · exact h.set.alarmT.branchSet
  · exact .ite h h.set
  · exact h.branchBad

theorem ClockStays.stationLost (h : ClockStays s₀ s) {src : Nat} : ClockStays s₀ (s.stationLost src) :=
  .ite h h.set.logEv.alarm

/-! ### Armature -/

theorem ClockStays.branchStart (h : ClockStays s₀ s) {b : Nat} {d : BranchDef} {stamp : Nat} :
    ClockStays s₀ (s.branchStart b d stamp) := by
  unfold State.branchStart
  dsimp only
  split
  · exact h.set
  · exact h.set.branchReport
  · refine .ite h.set.branchReport ?_
    split
    · exact h.set.branchReport
    · exact h.set
  · refine .ite h.set.branchReport ?_
    split
    · exact h.set.branchReport
    · exact h.set
  · exact h.set

theorem ClockStays.armStart (h : ClockStays s₀ s) : ClockStays s₀ s.armStart :=
  (h.foldl fun h => h.branchStart).set.needRecompute.foldl fun h => .ite h h.set

/-! ### Filters -/

theorem ClockStays.fltRestart (h : ClockStays s₀ s) {c : Nat} : ClockStays s₀ (s.fltRestart c) :=
  h.set.count2

theorem ClockStays.fltRestartAll (h : ClockStays s₀ s) : ClockStays s₀ s.fltRestartAll :=
  h.foldl fun h => h.fltRestart

theorem ClockStays.keepDwell (h : ClockStays s₀ s) {input st : Nat} {mean : Option FltOut} :
    ClockStays s₀ (s.keepDwell input st mean) :=
  .ite h h.set

theorem ClockStays.fltStep (h : ClockStays s₀ s) {a b : Nat} : ClockStays s₀ (s.fltStep a b) :=
  .ite (h.fltRestartAll.set.foldl fun h => h.set) h.fltRestartAll.set

/-! ### Converters -/

theorem ClockStays.cutDwell (h : ClockStays s₀ s) : ClockStays s₀ s.cutDwell := by
  unfold State.cutDwell
  split
  · exact h.keepDwell
  · exact h

theorem ClockStays.cnvStep (h : ClockStays s₀ s) {a b : Nat} : ClockStays s₀ (s.cnvStep a b) :=
  (h.foldl fun h => h.set).cutDwell.set.fltStep

/-! ### Capture -/

theorem ClockStays.capStep (h : ClockStays s₀ s) : ClockStays s₀ s.capStep := by
  unfold State.capStep
  refine h.foldl fun h => ?_
  dsimp only
  split
  · exact h.set
  · exact .ite h h.set

/-! ### Logic -/

theorem ClockStays.stationsStart (h : ClockStays s₀ s) {im : Image} : ClockStays s₀ (s.stationsStart im) :=
  (h.foldl fun h => h.set.alarm).foldl fun h => .ite (.ite h.set.stationLost h.set) h.set

theorem ClockStays.lgcStart (h : ClockStays s₀ s) {im : Image} : ClockStays s₀ (s.lgcStart im) :=
  h.set.stationsStart

theorem ClockStays.lgcResume (h : ClockStays s₀ s) : ClockStays s₀ s.lgcResume := by
  unfold State.lgcResume
  split
  · exact .ite (.ite h.lgcStart h.set) h
  · exact h

/-! ### Custody -/

theorem ClockStays.gapRecords (h : ClockStays s₀ s) {k p reason a ns : Nat} : ClockStays s₀ (s.gapRecords k p reason a ns) := by
  induction k generalizing s a ns with
  | zero => exact h
  | succ k ih => exact ih h.logCus

theorem ClockStays.gapRecord (h : ClockStays s₀ s) {p reason a ns : Nat} : ClockStays s₀ (s.gapRecord p reason a ns) :=
  h.gapRecords

theorem ClockStays.gapNow (h : ClockStays s₀ s) {p reason a b : Nat} : ClockStays s₀ (s.gapNow p reason a b) :=
  .ite h.set.gapRecord h

theorem ClockStays.gapClose (h : ClockStays s₀ s) {p : Nat} : ClockStays s₀ (s.gapClose p) := by
  unfold State.gapClose
  dsimp only
  split
  · exact h
  · exact h.gapRecord

theorem ClockStays.boundaryFirst (h : ClockStays s₀ s) {stop : Nat} : ClockStays s₀ (s.boundaryFirst stop) :=
  .ite h h.taskWaits

theorem ClockStays.absorb (h : ClockStays s₀ s) {p stop : Nat} : ClockStays s₀ (s.absorb p stop) := by
  unfold State.absorb
  dsimp only
  refine .set (h.foldl fun h => ?_)
  split
  · exact h.set
  · exact h

theorem ClockStays.closeInterval (h : ClockStays s₀ s) {p stop flags : Nat} : ClockStays s₀ (s.closeInterval p stop flags) := by
  unfold State.closeInterval
  extract_lets
  refine .ite ?_ ?_
  all_goals exact h.boundaryFirst.gapClose.set.count2.absorb.prerequisiteDone

theorem ClockStays.boundaryDone (h : ClockStays s₀ s) {t : Nat} : ClockStays s₀ (s.boundaryDone t) := by
  unfold State.boundaryDone
  split
  · exact h
  · refine .ite h ?_
    extract_lets _ _ _ s₁
    have h₁ : ClockStays s₀ s₁ := (ClockStays.ite h.set h.set.logCus).alarm
    exact .ite h₁.set.notify h₁

theorem ClockStays.boundariesDone (h : ClockStays s₀ s) : ClockStays s₀ s.boundariesDone :=
  h.foldl fun h => h.boundaryDone

theorem ClockStays.bookHole (h : ClockStays s₀ s) {p stop : Nat} : ClockStays s₀ (s.bookHole p stop) :=
  .ite h (ClockStays.ite h h.set.count2.set).set

theorem ClockStays.closeDue (h : ClockStays s₀ s) {n p lim : Nat} : ClockStays s₀ (s.closeDue n p lim) := by
  induction n generalizing s with
  | zero => exact h
  | succ n ih => exact .ite (ih h.bookHole.closeInterval) h

theorem ClockStays.closeUpTo (h : ClockStays s₀ s) {p lim : Nat} : ClockStays s₀ (s.closeUpTo p lim) :=
  h.closeDue

theorem ClockStays.directionDue (h : ClockStays s₀ s) {p : Nat} : ClockStays s₀ (s.directionDue p) := by
  unfold State.directionDue
  dsimp only
  split
  · exact h
  · exact .ite h h.set.logCus.alarm.count2

theorem ClockStays.endPending (h : ClockStays s₀ s) {p a : Nat} : ClockStays s₀ (s.endPending p a) :=
  h.set.foldl fun h => h.gapNow

theorem ClockStays.bookStep (h : ClockStays s₀ s) {p a b : Nat} {qty : StepQty} : ClockStays s₀ (s.bookStep p a b qty) := by
  unfold State.bookStep
  extract_lets _ _ s₁ x stop step late
  have h₁ : ClockStays s₀ s₁ := (ClockStays.ite h.directionDue h.directionDue.closeUpTo).endPending
  split
  · extract_lets _ s₁
    have h₁ : ClockStays s₀ s₁ := (ClockStays.ite h₁.set h₁.set).set.count2
    exact .ite h₁.count2 h₁
  · exact h₁.set
  · extract_lets _ units _ s₁
    have h₁ : ClockStays s₀ s₁ := (h₁.set.foldl fun h => h.set).set
    exact .ite h₁.count2 h₁

theorem ClockStays.cusTake (h : ClockStays s₀ s) {p g : Nat} {x : Slot} : ClockStays s₀ (s.cusTake p g x) :=
  .ite h.bookStep.closeUpTo.boundariesDone h

theorem ClockStays.cusTakeAll (h : ClockStays s₀ s) {pod g : Nat} {x : Slot} : ClockStays s₀ (s.cusTakeAll pod g x) :=
  h.foldl fun h => .ite h.cusTake h

theorem ClockStays.windowStep (h : ClockStays s₀ s) {p a : Nat} : ClockStays s₀ (s.windowStep p a) := by
  unfold State.windowStep
  dsimp only
  split
  · exact h.bookStep
  · exact h.bookStep
  · exact h.bookStep.set

theorem ClockStays.windowsTo (h : ClockStays s₀ s) {p stop : Nat} : ClockStays s₀ (s.windowsTo p stop) :=
  h.foldl fun h => .ite h.windowStep h

theorem ClockStays.boundariesMissed (h : ClockStays s₀ s) {per n a b : Nat} : ClockStays s₀ (s.boundariesMissed per n a b) := by
  induction n generalizing s a with
  | zero => exact h
  | succ n ih => exact .ite (ih h.prerequisiteDone) h

theorem ClockStays.cusOn (h : ClockStays s₀ s) : ClockStays s₀ s.cusOn :=
  h.foldl fun h => .ite h.gapClose.boundariesMissed.set h.set

theorem ClockStays.bookLost (h : ClockStays s₀ s) {p reason a b : Nat} : ClockStays s₀ (s.bookLost p reason a b) :=
  .ite h h.set.count2.set

theorem ClockStays.cusStepClock (h : ClockStays s₀ s) {a b : Nat} : ClockStays s₀ (s.cusStepClock a b) := by
  unfold State.cusStepClock
  split
  case isFalse => exact h
  refine ClockStays.boundariesDone (ClockStays.foldl (h.foldl fun h => h.cusTakeAll) ?_)
  intro s p h
  extract_lets x windowed stop takes
  have h₁ : ClockStays s₀ windowed := .ite h.windowsTo h
  split
  extract_lets lost closed rest y
  have h₂ : ClockStays s₀ lost := .ite h₁.bookLost h₁
  have h₃ : ClockStays s₀ closed := .ite h₂.closeInterval h₂
  have h₄ : ClockStays s₀ rest := .ite h₃.bookLost h₃
  exact .ite h₄.set h₄

/-! ### Device -/

theorem ClockStays.startMeasuring (h : ClockStays s₀ s) : ClockStays s₀ s.startMeasuring := by
  unfold State.startMeasuring
  exact .lgcResume (.armStart (.cusOn (h.foldl fun g => .ite g.set g)))

theorem ClockStays.enterMeasuring (h : ClockStays s₀ s) {d : DevState} : ClockStays s₀ (s.enterMeasuring d) :=
  .ite h.set h.set.startMeasuring

theorem ClockStays.enterRun (h : ClockStays s₀ s) : ClockStays s₀ s.enterRun :=
  h.enterMeasuring.set

theorem ClockStays.bootRule (h : ClockStays s₀ s) : ClockStays s₀ s.bootRule :=
  .ite h.enterRun h

/-! ### Time -/

theorem ClockStays.sendQuality (h : ClockStays s₀ s) {step : Option Int} : ClockStays s₀ (s.sendQuality step) := by
  unfold State.sendQuality
  exact h.notify

/-- A change of the time base is reported, and may bring the module into RUN (R81, R93, R100, R413). -/
theorem ClockStays.timeChanged (h : ClockStays s₀ s) {change : Bool} {step : Option Int} :
    ClockStays s₀ (s.timeChanged change step) := by
  unfold State.timeChanged
  extract_lets q locked w lockMoved tqMoved _ seen sent recorded stepped
  have hSeen : ClockStays s₀ seen := h
  have hSent : ClockStays s₀ sent := .ite hSeen.sendQuality hSeen
  have hRecorded : ClockStays s₀ recorded := .ite hSent.logEv hSent
  have hStepped : ClockStays s₀ stepped := by
    dsimp only [stepped]
    split
    · exact hRecorded.logEv
    · exact hRecorded
  exact .ite hStepped.bootRule hStepped

theorem ClockStays.stepUnits (h : ClockStays s₀ s) {a b : Nat} : ClockStays s₀ (s.stepUnits a b) :=
  h.alnStep.cnvStep.capStep.cusStepClock

end Operations

end Sys2Proof.Laws
end

section
/-! SUPPORT. References: qualification, selection, HOLDOVER, and the steering of the clock (R79 to R81, R91, R93, R94). -/

namespace Sys2Proof.Laws

open Sys2Proof.Machine

/-- Whether a reference is watched or qualified does not move the time base's state. -/
@[simp] theorem setRef_st (s : State) (k : Nat) (r : Ref) : (s.setRef k r).tim.st = s.tim.st := by
  unfold State.setRef
  split <;> rfl

section References

variable {s a : State} {dt k : Nat} {o done : Int} {change : Bool}

/-! ### Steering (R93, R94) -/

/-- An offset within the limit is slewed away from now. -/
theorem correct_of_small (small : o.natAbs ≤ a.parN Par.TIM.STEP_LIMIT_NS 0) :
    a.correct o done false change =
      ({ a with tim := { a.tim with offset := o, offsetAt := a.now, corrected := done } } : State).timeChanged change none := by
  unfold State.correct
  rw [if_neg (by simpa only [Bool.false_or, decide_eq_true_eq, Nat.cast_lt, not_lt] using small)]

/-- The clock is set back by an offset above the limit, whatever the units do at the step. -/
theorem correct_now_of_large (large : a.parN Par.TIM.STEP_LIMIT_NS 0 < o.natAbs) :
    (a.correct o done false change).tim.now = ((a.now : Int) - o).toNat := by
  unfold State.correct
  rw [if_pos (by simpa only [Bool.false_or, decide_eq_true_eq, Nat.cast_lt] using large)]
  extract_lets before after _ _ stepped
  have stays : ClockStays stepped ((stepped.timeChanged change (some (-o))).stepUnits before after) :=
    (ClockStays.refl stepped).timeChanged.stepUnits
  exact stays.fields.1

/-! ### Selection (R79 to R81) -/

/-- The reference has qualified now. -/
abbrev nowQualified (a : State) (k : Nat) : State := a.setRef k { a.tim.refOf k with qualified := true, since := a.now }

theorem exec_referenceQualified (passed : s.advance dt = a) (runs : a.timeRuns = true) (qualifies : a.qualifies k = true) :
    exec (.referenceQualified dt k) s = .next (if a.tim.st = 2 then nowQualified a k else (nowQualified a k).reselect) := by
  show execReferenceQualified dt k s = _
  simp only [execReferenceQualified, passed, setRef_st]
  rw [if_pos (by simp [runs, qualifies])]

theorem reselect_of_ready {j : Nat} {l : List Nat} (ready : a.refsReady = j :: l) : a.reselect = a.steerBy j := by
  simp only [State.reselect, ready]

theorem reselect_of_none (none : a.refsReady = []) : a.reselect = a.holdover := by
  simp only [State.reselect, none]

theorem exec_referenceDisqualified (passed : s.advance dt = a) (runs : a.timeRuns = true) (locked : a.tim.st = 2)
    (used : a.tim.ref = k) (lost : (a.tim.refOf k).qualified = false) : exec (.referenceDisqualified dt k) s = .next a.reselect := by
  show execReferenceDisqualified dt k s = _
  simp only [execReferenceDisqualified, passed]
  rw [if_pos (by simp [runs, locked, used, lost])]

/-- HOLDOVER goes on from E, from now (R91). -/
theorem holdover_clock : a.holdover.tim.st = 3 ∧ a.holdover.tim.ref = 0 ∧ a.holdover.tim.holdSince = a.now ∧
    a.holdover.tim.e0 = a.errorE.getD 0 := by
  unfold State.holdover
  obtain ⟨-, st, ref, since, e0, -, -⟩ := (ClockStays.refl { a with tim := { a.tim with
    st := 3, ref := 0, gmId := 0, e0 := a.errorE.getD 0, holdSince := a.now, offset := a.offsetAt a.now, offsetAt := a.now
    corrected := a.clockMoved } }).timeChanged (change := true) (step := none) |>.fields
  exact ⟨st, ref, since, e0⟩

theorem exec_referenceRevert {l : List Nat} (passed : s.advance dt = a) (runs : a.timeRuns = true) (due : a.revertTo = k :: l) :
    exec (.referenceRevert dt) s = .next (a.steerBy k) := by
  show execReferenceRevert dt s = _
  simp only [execReferenceRevert, passed, runs, due]

end References

/-- Settles O31: the selection by the reference in use and those ready, the steering by the step limit. -/
theorem referencesAreSelectedAndFollowed : Obligations.ReferencesAreSelectedAndFollowed := by
  refine ⟨fun s a dt k passed runs => ⟨fun qualifies locked => ?_, fun j l qualifies unlocked ready => ?_,
      fun locked used lost none => ?_, fun l due => exec_referenceRevert passed runs due⟩,
    fun a o done => ⟨fun large _ => correct_now_of_large large, fun small => ?_⟩⟩
  · rw [exec_referenceQualified passed runs qualifies, if_pos locked]
  · rw [exec_referenceQualified passed runs qualifies, if_neg unlocked]
    exact congrArg _ (reselect_of_ready ready)
  · rw [exec_referenceDisqualified passed runs locked used lost, reselect_of_none none]
    exact ⟨_, rfl, holdover_clock⟩
  · rw [correct_of_small small]
    obtain ⟨now, -, -, -, -, offset, since⟩ :=
      (ClockStays.refl { a with tim := { a.tim with offset := o, offsetAt := a.now, corrected := done } }).timeChanged
        (change := false) (step := none) |>.fields
    exact ⟨now, offset, since⟩

end Sys2Proof.Laws
end

section
/-! SUPPORT. The items of watched references: IRIG-B frames and PPS_IN edges (R80, R86 to R88, R467). -/

namespace Sys2Proof.Laws

open Sys2Proof.Machine

/-! ### References and ACQUIRING (R79, R80) -/

theorem mem_refPriority_of_named {s : State} {k : Nat} (named : s.refNamed k = true) : k ∈ s.refPriority := by
  simp only [State.refNamed, Bool.and_eq_true, List.contains_eq_mem, decide_eq_true_eq] at named
  exact named.1

/-- While a named reference is watched, it is qualifying or ready, so ACQUIRING goes on. -/
theorem acquire_of_acquiring {s : State} {k : Nat} (acquiring : s.tim.st = 1) (named : s.refNamed k = true)
    (watched : (s.tim.refOf k).watched = true) : s.acquire = s := by
  have listed := mem_refPriority_of_named named
  unfold State.acquire
  rw [if_neg (by simp [acquiring]), if_neg]
  rintro ⟨-, idle, empty⟩
  by_cases qualified : (s.tim.refOf k).qualified = true
  · have ready : k ∈ s.refsReady := List.mem_filter.mpr ⟨listed, by simp [named, qualified]⟩
    rw [List.isEmpty_iff.mp empty] at ready
    exact absurd ready List.not_mem_nil
  · exact idle (List.any_eq_true.mpr ⟨k, listed, by simp [named, watched, qualified]⟩)

/-- Whether a reference is named does not depend on what is known of the references. -/
@[simp] theorem refNamed_setRef (s : State) (k j : Nat) (r : Ref) : (s.setRef k r).refNamed j = s.refNamed j := by
  unfold State.setRef
  split <;> rfl

/-! ### Good and bad items (R80, R467) -/

theorem badItem_disqualifies {s : State} {k counter limit : Nat} (watched : (s.tim.refOf k).watched = true)
    (last : limit ≤ (s.tim.refOf k).bad + 1) : s.badItem k counter limit = (s.count counter 0 1).disqualify k := by
  simp [State.badItem, watched, last]

/-- The first of two bad items in a row breaks the qualification alone. -/
theorem badItem_breaks_first {s : State} {k counter : Nat} (watched : (s.tim.refOf k).watched = true)
    (first : (s.tim.refOf k).bad = 0) :
    s.badItem k counter 2 = (s.count counter 0 1).setRef k { s.tim.refOf k with bad := 1, good := 0 } := by
  simp [State.badItem, watched, first]

/-- A reference after an item that counts for its qualification. -/
def goodRef (s : State) (r : Ref) (inacc : Rat) (offset : Int) : Ref :=
  { r with watched := true, bad := 0, good := r.good + 1, inacc := inacc, offset := offset, corrected := s.clockMoved }

/-- In ACQUIRING a good item is taken note of, and ACQUIRING goes on. -/
theorem goodItem_of_acquiring {s : State} {k : Nat} {inacc : Rat} {offset : Int} (known : k = 2 ∨ k = 3)
    (acquiring : s.tim.st = 1) (named : s.refNamed k = true) :
    s.goodItem k inacc offset true = s.setRef k (goodRef s (s.tim.refOf k) inacc offset) := by
  unfold State.goodItem
  simp only [named, if_true]
  rw [if_neg (by simp [acquiring]), acquire_of_acquiring (k := k) (by simp [acquiring]) (by simp [named])]
  · rfl
  · rcases known with rfl | rfl <;> rfl

/-! ### IRIG-B (R86, R87) -/

section Irig

variable {s a : State} {dt t : Nat} {f : IrigFrame}

/-- The on-time edge of a frame is taken note of first. -/
abbrev irigSeen (a : State) (t : Nat) : State := { a with tim := { a.tim with irigLast := some t } }

theorem exec_irigFrameReceived (passed : s.advance dt = a) (runs : a.timeRuns = true) (on : a.parB Par.TIM.IRIG_ENABLE 0 = true) :
    exec (.irigFrameReceived dt f) s = .next (a.irigFrame f) := by
  show execIrigFrameReceived dt f s = _
  simp [execIrigFrameReceived, passed, runs, on]

theorem irigFrame_of_bad (bad : f.valid = false) : a.irigFrame f = (irigSeen a (a.irigEdge f)).badItem 2 0x0202 2 := by
  simp [State.irigFrame, bad]

theorem irigFrame_of_unlocked (good : f.valid = true) (code : f.ext 71 4 = 0xF) (watched : a.tim.irig.watched = true) :
    a.irigFrame f = (irigSeen a (a.irigEdge f)).disqualify 2 := by
  simp [State.irigFrame, good, code, watched]

/-- In ACQUIRING a good frame that announces no leap second gives the time of day, and counts. -/
theorem irigFrame_of_acquiring (good : f.valid = true) (code : f.ext 71 4 ≠ 0xF) (unannounced : f.ext 60 1 ≠ 1)
    (named : a.refNamed 2 = true) (acquiring : a.tim.st = 1) :
    a.irigFrame f = { a with tim := { a.tim with
      irigLast := some (a.irigEdge f), irigTod := some (a.irigEdge f, (a.irigTai f).toNat)
      irig := goodRef a a.tim.irig (a.irigInacc (f.ext 71 4)) ((a.irigEdge f : Int) - a.irigTai f) } } := by
  unfold State.irigFrame
  simp only [good, code, unannounced, Bool.not_true, Bool.false_eq_true, if_false, false_and]
  exact goodItem_of_acquiring (.inl rfl) acquiring named

theorem exec_irigFrameMissing (passed : s.advance dt = a) (runs : a.timeRuns = true) (on : a.parB Par.TIM.IRIG_ENABLE 0 = true)
    (last : a.tim.irigLast = some t) :
    exec (.irigFrameMissing dt) s =
      .next (if decide (t + 2 * sec ≤ a.now) then (irigSeen a (t + sec)).badItem 2 0x0202 2 else a) := by
  show execIrigFrameMissing dt s = _
  simp only [execIrigFrameMissing, passed, last, runs, on, Bool.true_and]

end Irig

/-! ### PPS_IN (R88) -/

section Pps

variable {s a : State} {dt t x stamp : Nat}

/-- An edge of PPS_IN is taken note of first. -/
abbrev ppsSeen (a : State) (t : Nat) : State := { a with tim := { a.tim with ppsLast := some t } }

theorem apart_le {a b n : Nat} : apart a b ≤ n ↔ a ≤ b + n ∧ b ≤ a + n := by
  unfold apart
  omega

theorem exec_ppsInMissing (passed : s.advance dt = a) (runs : a.timeRuns = true) (on : a.parN Par.TIM.PPS_IN_MODE 0 ≠ 0)
    (last : a.tim.ppsLast = some t) (due : t + a.parN Par.TIM.PPS_IN_DELAY_NS 0 + sec + 1000 ≤ a.now) :
    exec (.ppsInMissing dt) s = .next ((ppsSeen a (t + sec)).badItem 3 0x0203 2) := by
  show execPpsInMissing dt s = _
  have missing : a.tim.ppsLast.any (fun t => decide (t + a.parN Par.TIM.PPS_IN_DELAY_NS 0 + sec + 1000 ≤ a.now)) = true :=
    (Option.any_eq_true _ _).mpr ⟨t, last, decide_eq_true due⟩
  simp only [execPpsInMissing, passed, missing]
  rw [if_pos (by simp [runs, on]), last, Option.map_some]

theorem exec_ppsInEdge (passed : s.advance dt = a) (runs : a.timeRuns = true) (mode : a.parN Par.TIM.PPS_IN_MODE 0 = 1) :
    exec (.ppsInEdge dt stamp) s = .next (a.ppsEdge stamp) := by
  show execPpsInEdge dt stamp s = _
  simp [execPpsInEdge, passed, runs, mode]

/-- The edge lies 1 s after the last, to 1 µs. -/
def edgePlaced (a : State) (t : Nat) : Bool := a.tim.ppsLast.any (fun x => decide (apart t (x + sec) ≤ 1000))

theorem edgePlaced_of_near (last : a.tim.ppsLast = some x) (early : x + sec ≤ t + 1000) (late : t ≤ x + sec + 1000) :
    edgePlaced a t = true :=
  (Option.any_eq_true _ _).mpr ⟨x, last, decide_eq_true (apart_le.mpr ⟨late, early⟩)⟩

theorem edgePlaced_of_far (last : a.tim.ppsLast = some x) (far : t + 1000 < x + sec ∨ x + sec + 1000 < t) :
    edgePlaced a t = false := by
  refine (Option.any_eq_false _ _).mpr (fun y held => decide_eq_false (fun near => ?_))
  obtain rfl : x = y := Option.some.inj (last.symm.trans held)
  obtain ⟨late, early⟩ := apart_le.mp near
  omega

/-- In ACQUIRING an edge one second after the last, whose second IRIG-B names, counts. -/
theorem ppsEdge_of_acquiring {n : Nat} (mode : a.parN Par.TIM.PPS_IN_MODE 0 = 1) (named : a.refNamed 3 = true)
    (acquiring : a.tim.st = 1) (edge : stamp - a.parN Par.TIM.PPS_IN_DELAY_NS 0 = t) (placed : edgePlaced a t = true)
    (second : a.ppsSecond t = some n) :
    a.ppsEdge stamp = { a with tim := { a.tim with
      ppsLast := some t, pps := goodRef a a.tim.pps (a.parN Par.TIM.PPS_IN_ERR_NS 0 : Nat) ((t : Int) - n) } } := by
  rw [edgePlaced] at placed
  unfold State.ppsEdge
  simp only [mode, edge, second, placed, OfNat.one_ne_ofNat, if_false, Bool.not_true, Bool.and_false, Bool.false_eq_true]
  exact goodItem_of_acquiring (.inr rfl) acquiring named

theorem ppsEdge_of_displaced (mode : a.parN Par.TIM.PPS_IN_MODE 0 = 1) (watched : a.tim.pps.watched = true)
    (edge : stamp - a.parN Par.TIM.PPS_IN_DELAY_NS 0 = t) (displaced : edgePlaced a t = false) :
    a.ppsEdge stamp = ((ppsSeen a t).count 0x0203 0 1).disqualify 3 := by
  rw [edgePlaced] at displaced
  unfold State.ppsEdge
  simp only [mode, edge, displaced, OfNat.one_ne_ofNat, if_false]
  rw [if_pos (by simp [watched])]

end Pps

/-- Settles O30: bad, missing and displaced items count and break or disqualify; a good one in ACQUIRING counts for qualification. -/
theorem referenceItemsAreWatched : Obligations.ReferenceItemsAreWatched := by
  refine ⟨fun s a dt f passed runs => ⟨fun on watched => ⟨fun bad again => ?_, fun bad first => ?_, fun good code => ?_,
        fun t last due => ⟨fun again => ?_, fun first => ?_⟩, fun t last early => ?_⟩,
      fun t on watched last due => ⟨fun again => ?_, fun first => ?_⟩⟩,
    fun s a dt stamp f passed runs => ⟨fun on named good code unannounced acquiring => ?_,
      fun x n mode named acquiring last second early late => ?_, fun x mode watched last displaced => ?_⟩⟩
  · rw [exec_irigFrameReceived passed runs on, irigFrame_of_bad bad]
    exact congrArg _ (badItem_disqualifies (k := 2) watched (Nat.succ_le_succ again))
  · rw [exec_irigFrameReceived passed runs on, irigFrame_of_bad bad]
    exact congrArg _ (badItem_breaks_first (k := 2) watched first)
  · rw [exec_irigFrameReceived passed runs on, irigFrame_of_unlocked good code watched]
  · rw [exec_irigFrameMissing passed runs on last, if_pos (decide_eq_true due)]
    exact congrArg _ (badItem_disqualifies (k := 2) watched (Nat.succ_le_succ again))
  · rw [exec_irigFrameMissing passed runs on last, if_pos (decide_eq_true due)]
    exact congrArg _ (badItem_breaks_first (k := 2) watched first)
  · rw [exec_irigFrameMissing passed runs on last, if_neg (by simpa using early)]
  · rw [exec_ppsInMissing passed runs on last due]
    exact congrArg _ (badItem_disqualifies (k := 3) watched (Nat.succ_le_succ again))
  · rw [exec_ppsInMissing passed runs on last due]
    exact congrArg _ (badItem_breaks_first (k := 3) watched first)
  · rw [exec_irigFrameReceived passed runs on, irigFrame_of_acquiring good code unannounced named acquiring]
    exact ⟨_, rfl, rfl, rfl, rfl, rfl⟩
  · rw [exec_ppsInEdge passed runs mode,
      ppsEdge_of_acquiring mode named acquiring rfl (edgePlaced_of_near last early late) second]
    exact ⟨_, rfl, rfl, rfl, rfl, rfl, rfl⟩
  · rw [exec_ppsInEdge passed runs mode, ppsEdge_of_displaced mode watched rfl (edgePlaced_of_far last displaced)]

end Sys2Proof.Laws
end

section
/-! SUPPORT. PTP: Announce, Sync and their timeouts (R78, R80, R82, R83, R85, R97, R467). -/

namespace Sys2Proof.Laws

open Sys2Proof.Machine

section Ptp

variable {s a : State} {dt port seq every came stamp t : Nat} {delay corr first origin o : Int} {two : Bool} {x p : Announce}
  {msg : List Byte}

/-! ### Announce (R83) -/

/-- The Announce is kept as its sender's. -/
abbrev announceKept (a : State) (port : Nat) (x : Announce) : State :=
  { a with tim := { a.tim with announces := a.tim.announces.set (port * 2 ^ 80 + x.portIdentity) (x, a.now) } }

theorem exec_ptpAnnounceReceived (passed : s.advance dt = a) (runs : a.timeRuns = true) (on : a.ptpOn port = true)
    (receives : (a.parN Par.TIM.PTP_RX_PORTS 0).testBit port = true) (read : a.announceOf msg = some x) :
    exec (.ptpAnnounceReceived dt port msg) s = .next (a.announceTaken port x) := by
  show execPtpAnnounceReceived dt port msg s = _
  simp only [execPtpAnnounceReceived, passed, read]
  rw [if_pos (by simp [runs, on, receives])]

theorem exec_ptpAnnounceReceived_other (passed : s.advance dt = a) (other : a.announceOf msg = none) :
    exec (.ptpAnnounceReceived dt port msg) s = .next a := by
  show execPtpAnnounceReceived dt port msg s = _
  simp only [execPtpAnnounceReceived, passed, other]

/-- An Announce with no leap second is taken as one. -/
theorem announceTaken_of_plain (no59 : x.leap59 = false) (no61 : x.leap61 = false) :
    a.announceTaken port x = a.announce port x := by
  simp [State.announceTaken, no59, no61]

theorem announce_of_parent (parent : a.tim.parent.map Announce.portIdentity = some x.portIdentity) (here : a.tim.refPort = port) :
    a.announce port x = (announceKept a port x).parentAnnounce x :=
  if_pos ⟨parent, here⟩

theorem announce_of_unwatched (unwatched : a.tim.ptp.watched = false)
    (other : a.tim.parent.map Announce.portIdentity ≠ some x.portIdentity ∨ a.tim.refPort ≠ port) :
    a.announce port x = (announceKept a port x).bestMaster := by
  have notParent : ¬ (a.tim.parent.map Announce.portIdentity = some x.portIdentity ∧ a.tim.refPort = port) := by
    rwa [not_and_or]
  exact (if_neg notParent).trans (if_neg (by simp [unwatched]))

/-! ### Sync and Follow_Up (R78, R82, R97) -/

/-- The offset `o` is what the PTP reference is off by now. -/
abbrev ptpOff (a : State) (o : Int) : State :=
  { a with tim := { a.tim with ptp := { a.tim.ptp with offset := o, corrected := a.clockMoved } } }

/-- Where Announce and Sync have come before, a measured offset changes nothing else of the reference. -/
theorem ptpMeasured_eq (complete : a.tim.ptp.good = 2) :
    a.ptpMeasured o =
      if a.tim.st = 2 ∧ a.tim.ref = 1 then (ptpOff a o).correct o a.clockMoved false false else ptpOff a o := by
  have same : a.setRef 1 { a.tim.ptp with
      good := 2, since := if a.tim.ptp.good = 2 ∨ a.tim.ptp.qualified then a.tim.ptp.since else a.now, offset := o
      corrected := a.clockMoved } = ptpOff a o := by
    rw [if_pos (.inl complete), ← complete]
    rfl
  unfold State.ptpMeasured
  simp only [same]
  rfl

theorem ptpMeasured_of_unfollowed (complete : a.tim.ptp.good = 2) (other : a.tim.st ≠ 2 ∨ a.tim.ref ≠ 1) :
    a.ptpMeasured o = ptpOff a o := by
  rw [ptpMeasured_eq complete, if_neg (by rwa [not_and_or])]

theorem ptpMeasured_of_followed (complete : a.tim.ptp.good = 2) (locked : a.tim.st = 2) (used : a.tim.ref = 1)
    (small : o.natAbs ≤ a.parN Par.TIM.STEP_LIMIT_NS 0) :
    a.ptpMeasured o = (({ ptpOff a o with tim := { (ptpOff a o).tim with
      offset := o, offsetAt := a.now, corrected := a.clockMoved } } : State).timeChanged false none) := by
  rw [ptpMeasured_eq complete, if_pos ⟨locked, used⟩]
  exact correct_of_small small

theorem exec_ptpSyncReceived (passed : s.advance dt = a) (runs : a.timeRuns = true) (on : a.ptpOn port = true)
    (watched : a.tim.ptp.watched = true) :
    exec (.ptpSyncReceived dt port msg ⟨stamp, delay⟩) s = .next (a.syncTaken port msg stamp delay) := by
  show execPtpSyncReceived dt port msg ⟨stamp, delay⟩ s = _
  simp [execPtpSyncReceived, passed, runs, on, watched]

section Parent

variable (here : a.tim.refPort = port) (parent : a.tim.parent = some p)

include here parent

theorem syncTaken_of_one_step (read : a.syncOf 0 msg = some (p.portIdentity, seq, every, false, corr, origin)) :
    a.syncTaken port msg stamp delay =
      ({ a with tim := { a.tim with syncAt := a.now, syncEvery := every, sync := none } } : State).ptpMeasured
        (a.ptpOffset port (stamp - a.parN Par.TIM.PORT_RX_DELAY_NS port : Nat) origin corr delay) := by
  unfold State.syncTaken
  simp only [read]
  rw [if_pos (by simp [here, parent])]
  rfl

theorem syncTaken_of_two_step (read : a.syncOf 0 msg = some (p.portIdentity, seq, every, true, corr, origin)) :
    a.syncTaken port msg stamp delay = { a with tim := { a.tim with
      syncAt := a.now, syncEvery := every, sync := some (seq, stamp - a.parN Par.TIM.PORT_RX_DELAY_NS port, corr) } } := by
  unfold State.syncTaken
  simp only [read]
  rw [if_pos (by simp [here, parent])]
  rfl

theorem syncTaken_of_followUp (noSync : a.syncOf 0 msg = none)
    (read : a.syncOf 8 msg = some (p.portIdentity, seq, every, two, corr, origin)) (waits : a.tim.sync = some (seq, came, first)) :
    a.syncTaken port msg stamp delay =
      ({ a with tim := { a.tim with sync := none } } : State).ptpMeasured (a.ptpOffset port came origin (first + corr) delay) := by
  unfold State.syncTaken
  simp only [noSync, read, waits]
  rw [if_pos (by simp [here, parent])]

end Parent

theorem exec_ptpPdelayReqReceived (passed : s.advance dt = a) (runs : a.timeRuns = true) (on : a.ptpOn port = true)
    (read : a.ptpReads 2 msg = true) :
    exec (.ptpPdelayReqReceived dt ⟨port, msg, stamp⟩) s =
      .next (a.sendPdelayResp port (stamp - a.parN Par.TIM.PORT_RX_DELAY_NS port) msg) := by
  show execPtpPdelayReqReceived dt ⟨port, msg, stamp⟩ s = _
  simp [execPtpPdelayReqReceived, passed, runs, on, read]

/-! ### Announce intervals and timeouts (R80, R82, R83, R85, R467) -/

theorem exec_ptpAnnounceInterval (passed : s.advance dt = a) (runs : a.timeRuns = true)
    (due : ∀ t, a.tim.ptpAt = some t → t + sec ≤ a.now) : exec (.ptpAnnounceInterval dt) s = .next a.ptpInterval := by
  have all : a.tim.ptpAt.all (fun t => decide (t + sec ≤ a.now)) = true :=
    (Option.all_eq_true _ _).mpr (fun t last => decide_eq_true (due t last))
  show execPtpAnnounceInterval dt s = _
  simp only [execPtpAnnounceInterval, passed, all]
  rw [if_pos (by simp [runs])]

theorem exec_ptpAnnounceInterval_early (passed : s.advance dt = a) (last : a.tim.ptpAt = some t) (early : a.now < t + sec) :
    exec (.ptpAnnounceInterval dt) s = .next a := by
  have all : a.tim.ptpAt.all (fun t => decide (t + sec ≤ a.now)) = false :=
    (Option.all_eq_false _ _).mpr ⟨t, last, decide_eq_false early.not_ge⟩
  show execPtpAnnounceInterval dt s = _
  simp only [execPtpAnnounceInterval, passed, all]
  rw [if_neg (by simp)]

theorem exec_ptpAnnounceTimeout_sync (passed : s.advance dt = a) (runs : a.timeRuns = true)
    (receives : (a.parN Par.TIM.PTP_RX_PORTS 0).testBit port = true) (here : a.tim.refPort = port)
    (watched : a.tim.ptp.watched = true) :
    exec (.ptpAnnounceTimeout dt port true) s =
      .next (if decide (a.tim.syncAt + 3 * a.tim.syncEvery ≤ a.now) then a.disqualify 1 else a) := by
  show execPtpAnnounceTimeout dt port true s = _
  simp only [execPtpAnnounceTimeout, passed]
  rw [if_pos (by simp [runs, receives]), if_pos trivial]
  simp only [watched, here, beq_self_eq_true, Bool.true_and]

/-- Three announce intervals have passed since `t`. -/
def announceOld (a : State) (t : Nat) : Bool := decide (t + 3 * sec ≤ a.now)

/-- The Announces of a port that are three intervals old are forgotten. -/
abbrev announcesFresh (a : State) (port : Nat) : State :=
  { a with tim := { a.tim with announces := a.tim.announces.filter (fun y => !(y.1 / 2 ^ 80 == port && announceOld a y.2.2)) } }

theorem announcesFresh_of_young (young : ∀ y ∈ a.tim.announces, a.now < y.2.2 + 3 * sec) : announcesFresh a port = a := by
  have all : a.tim.announces.filter (fun y => !(y.1 / 2 ^ 80 == port && announceOld a y.2.2)) = a.tim.announces :=
    List.filter_eq_self.mpr fun y held => by simp [announceOld, young y held]
  rw [announcesFresh, all]

theorem exec_ptpAnnounceTimeout (passed : s.advance dt = a) (runs : a.timeRuns = true)
    (receives : (a.parN Par.TIM.PTP_RX_PORTS 0).testBit port = true) (here : a.tim.refPort = port) (parent : a.tim.parent = some p)
    (held : a.tim.announces.get? (port * 2 ^ 80 + p.portIdentity) = some (x, t)) :
    exec (.ptpAnnounceTimeout dt port false) s =
      .next (if announceOld a t then (announcesFresh a port).announceTimeout else announcesFresh a port) := by
  have parentOld : (a.tim.parent.isSome && a.tim.refPort == port &&
      (a.tim.announces.get? (port * 2 ^ 80 + (a.tim.parent.map Announce.portIdentity).getD 0)).any
        (fun x => decide (x.2 + 3 * sec ≤ a.now))) = announceOld a t := by
    rw [parent, here, Option.map_some, Option.getD_some, held, Option.any_some, beq_self_eq_true, Option.isSome_some, Bool.true_and,
      Bool.true_and, announceOld]
  show execPtpAnnounceTimeout dt port false s = _
  simp only [execPtpAnnounceTimeout, passed]
  rw [if_pos (by simp [runs, receives]), if_neg (by simp), parentOld]
  rfl

theorem announceTimeout_of_watched (watched : a.tim.ptp.watched = true) :
    a.announceTimeout = ((a.count 0x0201 0 1).disqualify 1).bestMaster := by
  simp [State.announceTimeout, watched]

end Ptp

/-- Settles O29: each message, interval and timeout, from the case that its hypotheses choose. -/
theorem ptpIsFollowed : Obligations.PtpIsFollowed := by
  refine ⟨fun s a dt port msg passed runs on receives => ⟨fun x read no59 no61 => ⟨fun parent here => ?_, fun unwatched other => ?_⟩,
      fun other => ?_, fun p seq corr origin watched here parent complete stamp delay =>
        ⟨fun every read => ?_, fun every read => ?_, fun every two came first noSync read waits => ?_⟩, fun stamp read => ?_⟩,
    fun s a dt port passed runs => ⟨fun due => ?_, fun t last early => ?_, fun receives here watched =>
      ⟨fun due => ?_, fun early => ?_, fun p x t parent held => ⟨fun due => ?_, fun young => ?_⟩⟩⟩⟩
  · rw [exec_ptpAnnounceReceived passed runs on receives read, announceTaken_of_plain no59 no61, announce_of_parent parent here]
  · rw [exec_ptpAnnounceReceived passed runs on receives read, announceTaken_of_plain no59 no61, announce_of_unwatched unwatched other]
  · exact exec_ptpAnnounceReceived_other passed other
  · rw [exec_ptpSyncReceived passed runs on watched, syncTaken_of_one_step here parent read]
    exact ⟨fun other => congrArg _ (ptpMeasured_of_unfollowed complete other),
      fun locked used small => congrArg _ (ptpMeasured_of_followed complete locked used small)⟩
  · rw [exec_ptpSyncReceived passed runs on watched, syncTaken_of_two_step here parent read]
  · rw [exec_ptpSyncReceived passed runs on watched, syncTaken_of_followUp here parent noSync read waits]
    exact ⟨fun other => congrArg _ (ptpMeasured_of_unfollowed complete other),
      fun locked used small => congrArg _ (ptpMeasured_of_followed complete locked used small)⟩
  · exact exec_ptpPdelayReqReceived passed runs on read
  · exact exec_ptpAnnounceInterval passed runs due
  · exact exec_ptpAnnounceInterval_early passed last early
  · rw [exec_ptpAnnounceTimeout_sync passed runs receives here watched, if_pos (decide_eq_true due)]
  · rw [exec_ptpAnnounceTimeout_sync passed runs receives here watched, if_neg (by simpa using early)]
  · have old : announceOld a t = true := decide_eq_true due
    rw [exec_ptpAnnounceTimeout passed runs receives here parent held, old, if_pos rfl,
      announceTimeout_of_watched (a := announcesFresh a port) watched]
    rfl
  · have recent : announceOld a t = false := decide_eq_false (young _ (AMap.mem_of_get? held)).not_ge
    rw [exec_ptpAnnounceTimeout passed runs receives here parent held, recent, if_neg Bool.false_ne_true,
      announcesFresh_of_young young]

end Sys2Proof.Laws
end

section
/-! SUPPORT. What placing entries and closing slots, with the output, the feeds, the alarms and the captures that follow, cannot touch:
the sources, the units fed by committed state alone, the clock and the configuration in force. -/

namespace Sys2Proof.Laws

open Sys2Proof.Machine

/-- What no alignment, and nothing that it sets off, ever writes. -/
def apart (s : State) : Ing × Arm × Cus × Cnv × FltUnit × Vlt × AMap UnitSt × Pwr × Nat × Config :=
  (s.ing, s.arm, s.cus, s.cnv, s.flt, s.vlt, s.units, s.pwr, s.now, s.ctl.cfg)

/-- `s` is `s₀` as far as that goes. -/
def AlnStays (s₀ s : State) : Prop := apart s = apart s₀

/-! One lemma `AlnStays.f` for each operation `f` that the placing of a frame is made of, in the order of the model; `h.set` is an
update of fields that `AlnStays` does not name. -/

section Operations

variable {s₀ s t : State}

theorem AlnStays.refl (s : State) : AlnStays s s := rfl

theorem AlnStays.fields (h : AlnStays s t) : t.ing = s.ing ∧ t.arm = s.arm ∧ t.cus = s.cus ∧ t.cnv = s.cnv ∧ t.flt = s.flt ∧
    t.vlt = s.vlt ∧ t.units = s.units ∧ t.pwr = s.pwr ∧ t.now = s.now ∧ t.ctl.cfg = s.ctl.cfg := by
  simpa only [AlnStays, apart, Prod.mk.injEq] using h

/-- What only writes ports, logs and the like leaves all this. -/
theorem AlnStays.kept (h : AlnStays s₀ s) (k : Kept s t) : AlnStays s₀ t :=
  (congrArg apart k.1 : apart (settled t) = apart (settled s)).trans h

theorem AlnStays.set (h : AlnStays s₀ s) {pending : List Instr} {ident : Ident} {lands : Lands} {alarms : List (Nat × Nat × Nat)}
    {prt : Ports} {aln : Aln} {osc : Osc} {cap : Cap} {lgc : Lgc} {evt : Evt} {mem : Mem} {out : List Output} :
    AlnStays s₀ ⟨pending, ident, s.pwr, s.units, lands, alarms, s.ctl, prt, s.tim, s.ing, aln, osc, s.arm, s.cus, s.cnv, s.flt, cap, lgc,
      s.vlt, evt, mem, out⟩ := h

theorem AlnStays.ite {c : Prop} [Decidable c] (h : AlnStays s₀ s) (g : AlnStays s₀ t) : AlnStays s₀ (if c then s else t) := by
  split
  · exact h
  · exact g

theorem AlnStays.foldl {α : Type} {f : State → α → State} {l : List α} (h : AlnStays s₀ s)
    (step : ∀ {s a}, AlnStays s₀ s → AlnStays s₀ (f s a)) : AlnStays s₀ (l.foldl f s) := by
  induction l generalizing s with
  | nil => exact h
  | cons a l ih => exact ih (step h)

/-! ### Messages -/

theorem AlnStays.count (h : AlnStays s₀ s) {id inst n : Nat} : AlnStays s₀ (s.count id inst n) :=
  h.kept (count_keptLogs _ _ _ _).1

theorem AlnStays.count2 (h : AlnStays s₀ s) {id inst n : Nat} : AlnStays s₀ (s.count2 id inst n) :=
  h.kept (count2_keptLogs _ _ _ _).1

theorem AlnStays.sendUdp (h : AlnStays s₀ s) {n rank srcPort : Nat} {peer : Peer} {payload : List Byte} {msg : Option Output} :
    AlnStays s₀ (s.sendUdp n rank srcPort peer payload msg) :=
  h.kept (sendUdp_keptLogs _ _ _ _ _ _ _).1

theorem AlnStays.sendTcp (h : AlnStays s₀ s) {k rank : Nat} {data : List Byte} {msg : Option Output} :
    AlnStays s₀ (s.sendTcp k rank data msg) :=
  h.kept (sendTcp_keptLogs _ _ _ _ _).1

theorem AlnStays.noticeTo (h : AlnStays s₀ s) {d : NoticeDest} {n : Notice} : AlnStays s₀ (s.noticeTo d n) :=
  h.kept (noticeTo_keptLogs _ _ _).1

theorem AlnStays.notify (h : AlnStays s₀ s) {op status u : Nat} {payload : List Word} : AlnStays s₀ (s.notify op status u payload) :=
  h.kept (notify_keptLogs _ _ _ _ _).1

theorem AlnStays.logEv (h : AlnStays s₀ s) {code u t : Nat} {par : DWord} : AlnStays s₀ (s.logEv code u t par) :=
  h.kept (logEv_kept _ _ _ _ _)

/-! ### Alarms and the captures they trigger (R68, R304 to R316) -/

/-- PPS_OUT may pulse (R315); the clock runs on. -/
theorem AlnStays.capPulse (h : AlnStays s₀ s) {n : Nat} : AlnStays s₀ (s.capPulse n) :=
  .ite h h

theorem AlnStays.captureDone (h : AlnStays s₀ s) {n cause flags id trig pre post : Nat} :
    AlnStays s₀ (s.captureDone n cause flags id trig pre post) :=
  h.notify

theorem AlnStays.endRecord (h : AlnStays s₀ s) {n : Nat} : AlnStays s₀ (s.endRecord n) := by
  unfold State.endRecord State.endRecordTo
  dsimp only
  split
  · exact h
  · exact h.set.count2.captureDone

theorem AlnStays.startRecord (h : AlnStays s₀ s) {n cause stamp : Nat} : AlnStays s₀ (s.startRecord n cause stamp) := by
  unfold State.startRecord
  extract_lets r clamped k before rows left open_ step need kept gone c _ _ s₁
  have h₁ : AlnStays s₀ s₁ := (AlnStays.ite h h.count2).set.capPulse
  exact .ite h₁.endRecord h₁

theorem AlnStays.rollMark (h : AlnStays s₀ s) {n cause stamp : Nat} : AlnStays s₀ (s.rollMark n cause stamp) :=
  h.set.capPulse.captureDone

theorem AlnStays.capFire (h : AlnStays s₀ s) {n : Nat} {t : Nat × Nat} : AlnStays s₀ (s.capFire n t) := by
  unfold State.capFire
  dsimp only
  split
  · exact .ite h.rollMark (.ite h.set h.startRecord)
  · exact .ite h.rollMark (.ite h.set h.startRecord)
  · exact h.set.count2
  · exact h.count2.logEv
  · exact h.count2
  · exact h

theorem AlnStays.alarm (h : AlnStays s₀ s) {u cls inst : Nat} {raised : Bool} {t : Nat} : AlnStays s₀ (s.alarm u cls inst raised t) :=
  .ite h (.ite (h.set.notify.foldl fun h => .ite h (h.foldl fun h => h.capFire)) h.set.notify)

/-! ### Editions and their destinations (R159 to R163, R177 to R181) -/

theorem AlnStays.countPod (h : AlnStays s₀ s) {id p n : Nat} : AlnStays s₀ (s.countPod id p n) :=
  .ite h h.count2

theorem AlnStays.dropEgress (h : AlnStays s₀ s) {p n k : Nat} : AlnStays s₀ (s.dropEgress p n k) :=
  h.countPod.count

theorem AlnStays.oafTo (h : AlnStays s₀ s) {p : Nat} {w : List Word} {o : OafOut} : AlnStays s₀ (s.oafTo p w o) :=
  .ite (h.foldl fun h => h.sendUdp) h.dropEgress

theorem AlnStays.podDataTo (h : AlnStays s₀ s) {p : Nat} {d : NoticeDest} {named : Bool} {o : OafOut} :
    AlnStays s₀ (s.podDataTo p d named o) :=
  h.foldl fun h => .ite h.noticeTo.countPod h.noticeTo

theorem AlnStays.c37To (h : AlnStays s₀ s) {p d : Nat} {w : List Word} {kind : Nat} {bytes : List Byte} :
    AlnStays s₀ (s.c37To p d w kind bytes) := by
  unfold State.c37To
  dsimp only
  refine .ite h.dropEgress (.ite h.sendUdp ?_)
  split
  · exact h.sendTcp
  · exact h

theorem AlnStays.editionTo (h : AlnStays s₀ s) {p g : Nat} {x : Slot} {n : Nat} {o : OafOut} {d : Nat} :
    AlnStays s₀ (s.editionTo p g x n o d) := by
  unfold State.editionTo
  dsimp only
  split
  · exact .ite h.oafTo (.ite h.c37To h)
  · exact .ite h.countPod (.ite h.c37To h)
  · exact h.podDataTo
  · exact h

theorem AlnStays.sendLayout (h : AlnStays s₀ s) {p : Nat} {d : PodDef} {commit : Bool} : AlnStays s₀ (s.sendLayout p d commit) := by
  unfold State.sendLayout
  extract_lets o s₁
  have h₁ : AlnStays s₀ s₁ := by
    dsimp only [s₁]
    refine h.foldl fun h => ?_
    split
    · exact .ite h.oafTo h
    · exact h.podDataTo
    · exact h
  exact .ite (h₁.foldl fun h => h.podDataTo) h₁

theorem AlnStays.layoutFirst (h : AlnStays s₀ s) {p : Nat} {d : PodDef} : AlnStays s₀ (s.layoutFirst p d) :=
  .ite h.sendLayout.set h

theorem AlnStays.egress (h : AlnStays s₀ s) {p g : Nat} {x : Slot} {n cause : Nat} : AlnStays s₀ (s.egress p g x n cause) :=
  .ite (((AlnStays.ite h.layoutFirst h).foldl fun h => h.editionTo).foldl fun h => h.podDataTo) h

theorem AlnStays.slotEvent (h : AlnStays s₀ s) {p g : Nat} {x : Slot} {n cause : Nat} {issued : Bool} :
    AlnStays s₀ (s.slotEvent p g x n cause issued) :=
  .ite h.notify h

/-! ### Closing and revising (R159, R163, R166, R168 to R170) -/

theorem AlnStays.freeStore (h : AlnStays s₀ s) {x : Slot} : AlnStays s₀ (s.freeStore x) :=
  .ite h h.set

theorem AlnStays.feedTrackers (h : AlnStays s₀ s) {p g : Nat} {x : Slot} : AlnStays s₀ (s.feedTrackers p g x) :=
  h.foldl fun h => .ite h.set h

theorem AlnStays.feedLogic (h : AlnStays s₀ s) {p g : Nat} {x : Slot} : AlnStays s₀ (s.feedLogic p g x) := by
  unfold State.feedLogic
  dsimp only
  split
  · exact .ite h.set h
  · exact h.set

theorem AlnStays.closeSlotCore (h : AlnStays s₀ s) {p g cause : Nat} : AlnStays s₀ (s.closeSlotCore p g cause) := by
  unfold State.closeSlotCore
  split
  · exact h
  · refine .ite h ?_
    extract_lets pod es soon missing y _ _ _ s₁
    have h₁ : AlnStays s₀ s₁ := h.freeStore.set.countPod.countPod
    exact .ite (.ite h₁.countPod h₁) (AlnStays.ite h₁.countPod h₁).feedTrackers.feedLogic.egress.slotEvent

theorem AlnStays.revise (h : AlnStays s₀ s) {p g : Nat} {x : Slot} {cause : Nat} {final : Bool} :
    AlnStays s₀ (s.revise p g x cause final) :=
  h.set.countPod.egress.slotEvent

theorem AlnStays.finish (h : AlnStays s₀ s) {p g cause : Nat} : AlnStays s₀ (s.finish p g cause) := by
  unfold State.finish
  split
  · exact h
  · exact .ite h (.ite h.set.slotEvent h.revise)

theorem AlnStays.drainFinals (h : AlnStays s₀ s) : AlnStays s₀ s.drainFinals :=
  .ite (h.foldl fun h => h.finish) h

theorem AlnStays.closeSlot (h : AlnStays s₀ s) {p g cause : Nat} : AlnStays s₀ (s.closeSlot p g cause) :=
  h.closeSlotCore.drainFinals

theorem AlnStays.makeRoom (h : AlnStays s₀ s) : AlnStays s₀ s.makeRoom := by
  unfold State.makeRoom
  refine .ite ?_ h
  split
  · exact .ite h.closeSlot.countPod.set.logEv h.closeSlot.countPod.set
  · exact h

/-! ### Placing (R153 to R157, R165 to R168) -/

theorem AlnStays.lateEntry (h : AlnStays s₀ s) {p g pos : Nat} {x : Slot} {e : Entry} {free : Bool} :
    AlnStays s₀ (s.lateEntry p g pos x e free) :=
  .ite h.countPod (.ite h.countPod (.ite h.countPod (.ite h.countPod h.set.countPod)))

theorem AlnStays.openEntry (h : AlnStays s₀ s) {p g pos stamp : Nat} {x : Slot} {e : Entry} :
    AlnStays s₀ (s.openEntry p g pos stamp x e) :=
  .ite h.set h.set

theorem AlnStays.putEntry (h : AlnStays s₀ s) {p g pos stamp arrival : Nat} {e : Entry} :
    AlnStays s₀ (s.putEntry p g pos stamp arrival e) := by
  unfold State.putEntry
  split
  · exact h.countPod
  · refine .ite h.lateEntry (.ite h.countPod (.ite (.ite h.set.openEntry h.set.countPod) ?_))
    dsimp only
    split
    · exact h.makeRoom
    · exact .ite h.makeRoom.lateEntry h.makeRoom.openEntry

theorem AlnStays.memberArrives (h : AlnStays s₀ s) {p g src : Nat} : AlnStays s₀ (s.memberArrives p g src) := by
  unfold State.memberArrives
  split
  · exact h
  · exact .ite h (.ite h.set.closeSlot h.set)

theorem AlnStays.putFrame (h : AlnStays s₀ s) {p g src stamp arrival : Nat} {d : PodDef} {es : List InEntry} :
    AlnStays s₀ (s.putFrame p g src stamp arrival d es) := by
  unfold State.putFrame
  dsimp only
  refine .memberArrives (h.foldl fun h => ?_)
  split
  · exact h.putEntry
  · exact h

theorem AlnStays.placeInPod (h : AlnStays s₀ s) {p src stamp arrival : Nat} {es : List InEntry} :
    AlnStays s₀ (s.placeInPod p src stamp arrival es) := by
  unfold State.placeInPod
  extract_lets held d
  clear_value held
  cases held with
  | some z => exact .ite h.countPod h.putFrame
  | none =>
    refine .ite ?_ h
    generalize d.members.find? (fun m => m.src == src) = member
    generalize gridNear d.rate d.tolNs stamp = instant
    cases member with
    | none => exact h
    | some m =>
      cases instant with
      | none => exact .ite h.countPod h
      | some g => exact .ite h.countPod (.ite h.set.putFrame h.countPod)

theorem AlnStays.placeFrame (h : AlnStays s₀ s) {src stamp arrival : Nat} {es : List InEntry} :
    AlnStays s₀ (s.placeFrame src stamp arrival es) :=
  h.foldl fun h => .ite h.placeInPod h

end Operations

end Sys2Proof.Laws
end

section
/-! SUPPORT. The classifier: the steps of R127 for each kind of frame, and what accepting one makes of its source (R124 to R148). -/

namespace Sys2Proof.Laws

open Sys2Proof.Machine

/-- No byte of the frame is poisoned. -/
abbrev whole : Nat → Nat → Bool := fun _ _ => false

section Ingress

variable {s s₀ a : State} {dt port arr src station stamp n : Nat} {l : List Byte} {d : SrcDef} {frame : IngFrame} {f : GooseFrame}
  {g : List (Nat × List InEntry)} {x : Src}

/-! ### A source's run state -/

/-- A run state other than that of no source is read back from every map. -/
theorem src_setSrc_self (defined : x ≠ Src.init) : (s.setSrc src x).src src = x :=
  AMap.getD_put_self_of_ne _ _ defined

theorem now_setSrc : (s.setSrc src x).now = s.now := rfl

theorem AlnStays.src_eq (h : AlnStays s₀ s) : s.src n = s₀.src n := by
  obtain ⟨ing, -⟩ := h.fields
  rw [State.src, State.src, ing]

theorem AlnStays.countSrc (h : AlnStays s₀ s) {id : Nat} : AlnStays s₀ (s.countSrc id src n) :=
  .ite h h.count2

theorem AlnStays.stationBack (h : AlnStays s₀ s) : AlnStays s₀ (s.stationBack src) :=
  .ite h.set h

/-- The latency model leaves the number of frames and the clock (R145). -/
theorem latency_frames_now (s : State) (src : Nat) (lag : Int) :
    ((s.latency src lag).src src).frames = (s.src src).frames ∧ (s.latency src lag).now = s.now := by
  have counted : AlnStays s (if lag < 0 then s.countSrc 0x030F src 1 else s) := .ite (AlnStays.refl s).countSrc (.refl s)
  obtain ⟨-, -, -, -, -, -, -, -, now, -⟩ := counted.fields
  unfold State.latency
  dsimp only
  split
  case isTrue seeded =>
    rw [src_setSrc_self (ne_of_apply_ne Src.seeded (by simp [seeded, Src.init]))]
    exact ⟨rfl, now⟩
  case isFalse =>
    rw [src_setSrc_self (ne_of_apply_ne Src.seeded (by simp [Src.init]))]
    exact ⟨rfl, now⟩

/-- A source that is shown alive is live from now (R146). -/
theorem src_shownAlive : (s.shownAlive src).src src = { s.src src with st := 2, aliveAt := s.now } := by
  rw [State.shownAlive, (AlnStays.refl _).alarm.stationBack.src_eq,
    src_setSrc_self (ne_of_apply_ne Src.st (by simp [Src.init]))]

/-- Counting and placing leave what accepting a frame has made of its source (R125, R145 to R147). -/
theorem src_accept : (s.accept src stamp arr g).src src = { (s.latency src (((arr : Int) - stamp) / 1000)).src src with
    lastStamp := some stamp, lastArrival := some arr, st := 2, aliveAt := s.now
    frames := (s.src src).frames + 1 } := by
  obtain ⟨frames, now⟩ := latency_frames_now s src (((arr : Int) - stamp) / 1000)
  unfold State.accept
  extract_lets modelled y shown counted
  have placed : AlnStays shown (if shown.measuring then g.foldl (fun s g => s.placeFrame src g.1 arr g.2) counted
      else shown.countSrc 0x0313 src 1) :=
    .ite ((AlnStays.refl shown).countSrc.countSrc.foldl fun h => h.placeFrame) (AlnStays.refl shown).countSrc
  rw [placed.src_eq, src_shownAlive, src_setSrc_self (ne_of_apply_ne Src.lastStamp (by simp [Src.init])), frames,
    now_setSrc, now]

/-! ### A frame comes in -/

theorem takeWords_quiet (quiet : Quiet a) (n : Nat) : a.takeWords n = (a, []) := by
  obtain ⟨fifo, taken, -⟩ := quiet
  exact if_pos (by simp [fifo, taken, AMap.get?])

theorem exec_ingressFrame (passed : s.advance dt = a) (runs : a.ingRuns = true) (quiet : Quiet a) :
    exec (.ingressFrame dt port arr frame) s = .next (a.classify port arr whole frame) := by
  show execIngressFrame dt port arr frame s = _
  rw [execIngressFrame, passed, State.ingress, if_pos runs, takeWords_quiet quiet]
  rfl

/-! ### C37.118.2 and sampled values (R127, R129, R133) -/

theorem c37Receive_of_malformed (malformed : c37Parses l = false) : a.c37Receive port arr station l whole = a.count 0x0304 0 1 := by
  simp [State.c37Receive, malformed]

theorem c37Receive_of_bad_chk (parses : c37Parses l = true) (bad : chkGood l = false) :
    a.c37Receive port arr station l whole = a.count 0x0305 0 1 := by
  simp [State.c37Receive, parses, bad]

/-- Neither data nor CFG-2, CFG-3 or a command: a CFG-1 or header frame. -/
theorem c37Receive_of_ignored (parses : c37Parses l = true) (good : chkGood l = true) (notData : c37Type l ≠ 0)
    (notCfg2 : c37Type l ≠ 3) (notCommand : c37Type l ≠ 4) (notCfg3 : c37Type l ≠ 5) :
    a.c37Receive port arr station l whole = a.count 0x0310 0 1 := by
  rw [State.c37Receive, if_neg (by simp [parses]), if_neg (by simp [good])]
  split
  · contradiction
  · contradiction
  · contradiction
  · contradiction
  · rfl

theorem svFrame_of_malformed (malformed : svFrameOf l = none) : a.svFrame port arr l whole = a.count 0x0304 0 1 := by
  simp [State.svFrame, malformed]

/-! ### GOOSE (R127, R135) -/

theorem gooseFrame_of_malformed (malformed : gooseFrameOf l = none) : a.gooseFrame port arr l whole = a.count 0x0304 0 1 := by
  simp [State.gooseFrame, malformed]

theorem gooseFrame_of_unknown (read : gooseFrameOf l = some f) (unknown : a.identify 4 f.ref = none) :
    a.gooseFrame port arr l whole = a.unknown 4 port f.ref arr := by
  simp [State.gooseFrame, read, unknown]

theorem gooseFrame_of_ndsCom (read : gooseFrameOf l = some f) (identified : a.identify 4 f.ref = some (src, d))
    (nds : f.ndsCom = true) : a.gooseFrame port arr l whole = a.countSrc 0x0310 src 1 := by
  simp [State.gooseFrame, read, identified, nds]

/-- A member of a dataset is at most one quantity (R136). -/
theorem length_gooseMember_le (s : State) (qual : Half) (bad : Nat → Nat → Bool) (acc : List (GooseMember × Half))
    (m : GooseMember × Nat × Nat) : (gooseMember s qual bad acc m).length ≤ acc.length + 1 := by
  unfold gooseMember
  dsimp only
  split <;> simp

theorem length_gooseMembers_le (s : State) (qual : Half) (bad : Nat → Nat → Bool) (ms : List (GooseMember × Nat × Nat))
    (acc : List (GooseMember × Half)) : (ms.foldl (gooseMember s qual bad) acc).length ≤ acc.length + ms.length := by
  induction ms generalizing acc with
  | nil => exact Nat.le_refl _
  | cons m ms ih =>
    have one := length_gooseMember_le s qual bad acc m
    have rest := ih (gooseMember s qual bad acc m)
    rw [List.foldl_cons, List.length_cons]
    omega

theorem gooseFrame_of_retransmission (read : gooseFrameOf l = some f) (identified : a.identify 4 f.ref = some (src, d))
    (inUse : f.ndsCom = false) (fits : f.fits = true) (room : f.members.length ≤ d.n) (untagged : d.tagRequired = false)
    (rev : f.confRev = d.ident.getD 1 0) (old : (a.src src).stNum = some f.stNum) :
    a.gooseFrame port arr l whole = (a.setSrc src { a.src src with ttlMs := f.ttlMs }).revive src := by
  have few (qual : Half) : ¬ d.n < (f.members.foldl (gooseMember a qual whole) []).reverse.length := by
    have quantities := length_gooseMembers_le a qual whole f.members []
    rw [List.length_nil] at quantities
    rw [List.length_reverse]
    omega
  unfold State.gooseFrame
  simp only [read, identified]
  rw [if_neg (by simp [inUse]), if_neg (by simpa [fits] using few _), if_neg (by simp [untaggedOk, untagged]),
    if_neg (by simp [rev]), if_pos old]

/-! ### OCF (R127, R137, R138) -/

/-- The bit of FLAGS that says a tag follows (R137). -/
abbrev ocfTagged (l : List Byte) : Bool := fld l 3 1 % 2 == 1

/-- The quality that the datagram gives each of its entries (R138). -/
abbrev ocfQuality (l : List Byte) : Half :=
  qMake (bitAt ((fld l 21 1).testBit 0) 3 + bitAt ((fld l 21 1).testBit 1) 8 + bitAt ((fld l 21 1).testBit 2) 2) (fld l 20 1 / 16)

/-- The entries of the source's mappings, with what is counted of those that have none (R138). -/
abbrev ocfEntries (a : State) (src : Nat) (d : SrcDef) (l : List Byte) : State × List InEntry :=
  ((List.range (fld l 6 2)).map (fun k => (ocfEntry l k, false))).foldl (State.ocfTake d src (ocfQuality l)) (a, [])

/-- Steps 5 to 9 of R127 and acceptance, for a datagram of a source whose lengths agree. -/
def ocfChecked (a : State) (arr src : Nat) (d : SrcDef) (l : List Byte) : State :=
  let t := nsOf (fld l 12 8)
  let b := a.rateTake src d.rate arr 1
  let c := ocfEntries b.1 src d l
  if !a.ocfTag d l (ocfTagged l) then a.countSrc 0x0307 src 1
  else if !gtfValid (fld l 12 8) then a.countSrc 0x030A src 1
  else if (a.src src).lastStamp = some t then a.countSrc 0x030B src 1
  else if !b.2 then b.1.countSrc 0x030C src 1
  else c.1.accept src t arr [(t, c.2)]

/-- Steps 4 to 9. -/
def ocfData (a : State) (arr src : Nat) (d : SrcDef) (l : List Byte) : State :=
  if fld l 4 2 != l.length || l.length != 24 + 12 * fld l 6 2 + (if ocfTagged l then 16 else 0) || decide (d.n < fld l 6 2) ||
      decide (128 < fld l 6 2) then a.countSrc 0x0306 src 1
  else ocfChecked a arr src d l

theorem ocfFrame_of_malformed (malformed : ocfParses l = false) : a.ocfFrame port arr l whole = a.count 0x0304 0 1 := by
  simp [State.ocfFrame, malformed]

section Data

variable (parses : ocfParses l = true) (notControl : fld l 1 1 ≠ 1) (notAck : fld l 1 1 ≠ 2)

include parses notControl notAck

theorem ocfFrame_of_data : a.ocfFrame port arr l whole =
    match a.identify 3 (beBytes 4 (fld l 8 4)) with
    | none => a.unknown 3 port (beBytes 4 (fld l 8 4)) arr
    | some (src, d) => ocfData a arr src d l := by
  rw [State.ocfFrame, if_neg (by simp [parses])]
  dsimp only
  split
  · contradiction
  · contradiction
  · rfl

theorem ocfFrame_of_unknown (unknown : a.identify 3 (beBytes 4 (fld l 8 4)) = none) :
    a.ocfFrame port arr l whole = a.unknown 3 port (beBytes 4 (fld l 8 4)) arr := by
  rw [ocfFrame_of_data parses notControl notAck, unknown]

theorem ocfFrame_of_source (identified : a.identify 3 (beBytes 4 (fld l 8 4)) = some (src, d)) :
    a.ocfFrame port arr l whole = ocfData a arr src d l := by
  rw [ocfFrame_of_data parses notControl notAck, identified]

end Data

theorem ocfData_of_length (other : fld l 4 2 ≠ l.length) : ocfData a arr src d l = a.countSrc 0x0306 src 1 :=
  if_pos (by simp [other])

theorem ocfData_of_lengths (length : fld l 4 2 = l.length)
    (count : l.length = 24 + 12 * fld l 6 2 + (if ocfTagged l then 16 else 0)) (mapped : fld l 6 2 ≤ d.n) (few : fld l 6 2 ≤ 128) :
    ocfData a arr src d l = ocfChecked a arr src d l :=
  if_neg (by rw [length, ← count]; simp [mapped, few])

theorem ocfChecked_of_bad_tag (bad : a.ocfTag d l (ocfTagged l) = false) : ocfChecked a arr src d l = a.countSrc 0x0307 src 1 :=
  if_pos (by simp [bad])

theorem ocfChecked_of_bad_stamp (tag : a.ocfTag d l (ocfTagged l) = true) (bad : gtfValid (fld l 12 8) = false) :
    ocfChecked a arr src d l = a.countSrc 0x030A src 1 := by
  simp [ocfChecked, tag, bad]

section Stamped

variable (tag : a.ocfTag d l (ocfTagged l) = true) (valid : gtfValid (fld l 12 8) = true)

include tag valid

theorem ocfChecked_of_repeat (old : (a.src src).lastStamp = some (nsOf (fld l 12 8))) :
    ocfChecked a arr src d l = a.countSrc 0x030B src 1 := by
  simp [ocfChecked, tag, valid, old]

variable (new : (a.src src).lastStamp ≠ some (nsOf (fld l 12 8)))

include new

theorem ocfChecked_of_full (full : (a.rateTake src d.rate arr 1).2 = false) :
    ocfChecked a arr src d l = (a.rateTake src d.rate arr 1).1.countSrc 0x030C src 1 := by
  simp [ocfChecked, tag, valid, new, full]

theorem ocfChecked_of_room (room : (a.rateTake src d.rate arr 1).2 = true) :
    ocfChecked a arr src d l =
      let c := ocfEntries (a.rateTake src d.rate arr 1).1 src d l
      c.1.accept src (nsOf (fld l 12 8)) arr [(nsOf (fld l 12 8), c.2)] := by
  simp [ocfChecked, tag, valid, new, room]

end Stamped

end Ingress

/-- Settles O33: each frame, from the step of R127 that its hypotheses choose; what accepting one leaves is `src_accept`. -/
theorem ocfDatagramsPassTheStepsOfR127 : Obligations.OcfDatagramsPassTheStepsOfR127 := by
  refine ⟨fun s a dt port arr station l passed runs quiet => ?_, fun s src stamp arr g => by simp only [src_accept, and_self]⟩
  have taken {frame : IngFrame} {u : State} (classified : a.classify port arr whole frame = u) :
      exec (.ingressFrame dt port arr frame) s = .next u := by
    rw [exec_ingressFrame passed runs quiet, classified]
  refine ⟨fun malformed => taken (ocfFrame_of_malformed malformed), fun malformed => taken (c37Receive_of_malformed malformed),
    fun parses bad => taken (c37Receive_of_bad_chk parses bad),
    fun parses good notData notCfg2 notCommand notCfg3 =>
      taken (c37Receive_of_ignored parses good notData notCfg2 notCommand notCfg3),
    fun malformed => taken (svFrame_of_malformed malformed), fun malformed => taken (gooseFrame_of_malformed malformed),
    fun f read => ⟨fun unknown => taken (gooseFrame_of_unknown read unknown), fun src d identified =>
      ⟨fun nds => taken (gooseFrame_of_ndsCom read identified nds), fun inUse fits room untagged rev old =>
        taken (gooseFrame_of_retransmission read identified inUse fits room untagged rev old)⟩⟩,
    fun parses notControl notAck => ⟨fun unknown => taken (ocfFrame_of_unknown parses notControl notAck unknown),
      fun src d identified => ?_⟩⟩
  have stepped {u : State} (data : ocfData a arr src d l = u) : exec (.ingressFrame dt port arr (.ocf l)) s = .next u :=
    taken ((ocfFrame_of_source parses notControl notAck identified).trans data)
  refine ⟨fun other => stepped (ocfData_of_length other), fun length count mapped few => ?_⟩
  have checked {u : State} (steps : ocfChecked a arr src d l = u) : exec (.ingressFrame dt port arr (.ocf l)) s = .next u :=
    stepped ((ocfData_of_lengths length count mapped few).trans steps)
  refine ⟨fun bad => checked (ocfChecked_of_bad_tag bad), fun tag bad => checked (ocfChecked_of_bad_stamp tag bad),
    fun tag valid => ⟨fun old => checked (ocfChecked_of_repeat tag valid old),
      fun new full => checked (ocfChecked_of_full tag valid new full),
      fun new room => checked (ocfChecked_of_room tag valid new room)⟩⟩

end Sys2Proof.Laws
end

section
/-! SUPPORT. Slots: what is held of a slot after a write, what the output of an edition leaves of it, and what closing makes of it
(R155, R159 to R163, R167, R176 to R183). -/

namespace Sys2Proof.Laws

open Sys2Proof.Machine

/-! ### A map written out in the order of a list -/

section Maps

variable {α β : Type}

/-- The map that gives each item of a list, under its number, what `f` makes of both. -/
def numbered (f : Nat → α → β) (l : List α) : AMap β := ((List.range l.length).zip l).map fun z => (z.1, f z.1 z.2)

theorem keys_numbered (f : Nat → α → β) (l : List α) : AMap.keys (numbered f l) = List.range l.length := by
  rw [AMap.keys, numbered, List.map_map]
  exact List.map_fst_zip (by simp)

theorem get?_numbered_from (f : Nat → α → β) (l : List α) (first i : Nat) :
    AMap.get? (((List.range' first l.length).zip l).map fun z => (z.1, f z.1 z.2)) (first + i) = l[i]?.map (f (first + i)) := by
  induction l generalizing first i with
  | nil => rfl
  | cons a l ih =>
    rw [List.length_cons, List.range'_succ, List.zip_cons_cons, List.map_cons, AMap.get?]
    cases i with
    | zero => simp
    | succ i =>
      have next_key : first + (i + 1) = first + 1 + i := by omega
      rw [if_neg (by omega), next_key, List.getElem?_cons_succ]
      exact ih (first + 1) i

theorem get?_numbered (f : Nat → α → β) (l : List α) (i : Nat) : AMap.get? (numbered f l) i = l[i]?.map (f i) := by
  have from_zero := get?_numbered_from f l 0 i
  rwa [Nat.zero_add, ← List.range_eq_range'] at from_zero

end Maps

/-! ### Output changes no slot (R176 to R182) -/

section Output

variable {s t : State}

theorem KeptLogs.ite {c : Prop} [Decidable c] {u : State} (h : KeptLogs s t) (g : KeptLogs s u) :
    KeptLogs s (if c then t else u) := by
  split
  · exact h
  · exact g

theorem countPod_keptLogs (s : State) (id p n : Nat) : KeptLogs s (s.countPod id p n) :=
  .ite (.refl s) (count2_keptLogs _ _ _ _)

theorem dropEgress_keptLogs (s : State) (p n k : Nat) : KeptLogs s (s.dropEgress p n k) :=
  (countPod_keptLogs _ _ _ _).trans (count_keptLogs _ _ _ _)

theorem oafTo_keptLogs (s : State) (p : Nat) (w : List Word) (o : OafOut) : KeptLogs s (s.oafTo p w o) :=
  .ite (.fold (fun _ _ => sendUdp_keptLogs _ _ _ _ _ _ _) _ _) (dropEgress_keptLogs _ _ _ _)

theorem podDataTo_keptLogs (s : State) (p : Nat) (d : NoticeDest) (named : Bool) (o : OafOut) :
    KeptLogs s (s.podDataTo p d named o) :=
  .fold (fun _ _ => .ite ((noticeTo_keptLogs _ _ _).trans (countPod_keptLogs _ _ _ _)) (noticeTo_keptLogs _ _ _)) _ _

theorem c37To_keptLogs (s : State) (p d : Nat) (w : List Word) (kind : Nat) (bytes : List Byte) :
    KeptLogs s (s.c37To p d w kind bytes) := by
  unfold State.c37To
  dsimp only
  refine .ite (dropEgress_keptLogs _ _ _ _) (.ite (sendUdp_keptLogs _ _ _ _ _ _ _) ?_)
  split
  · exact sendTcp_keptLogs _ _ _ _ _
  · exact .refl s

theorem editionTo_keptLogs (s : State) (p g : Nat) (x : Slot) (n : Nat) (o : OafOut) (d : Nat) :
    KeptLogs s (s.editionTo p g x n o d) := by
  unfold State.editionTo
  dsimp only
  split
  · exact .ite (oafTo_keptLogs _ _ _ _) (.ite (c37To_keptLogs _ _ _ _ _ _) (.refl s))
  · exact .ite (countPod_keptLogs _ _ _ _) (.ite (c37To_keptLogs _ _ _ _ _ _) (.refl s))
  · exact podDataTo_keptLogs _ _ _ _ _
  · exact .refl s

theorem sendLayout_keptLogs (s : State) (p : Nat) (d : PodDef) (commit : Bool) : KeptLogs s (s.sendLayout p d commit) := by
  unfold State.sendLayout
  extract_lets o s₁
  have named : KeptLogs s s₁ := by
    refine .fold (fun s w => ?_) _ _
    split
    · exact .ite (oafTo_keptLogs _ _ _ _) (.refl s)
    · exact podDataTo_keptLogs _ _ _ _ _
    · exact .refl s
  exact .ite (named.trans (.fold (fun _ _ => podDataTo_keptLogs _ _ _ _ _) _ _)) named

end Output

/-! ### A slot that is held -/

section Held

variable {s t : State} {p g : Nat} {x y : Slot}

theorem podSt_of_kept (k : KeptLogs s t) (p : Nat) : t.podSt p = s.podSt p := by
  rw [k.eq]
  rfl

theorem slot?_of_kept (k : KeptLogs s t) (held : s.slot? p g = some x) : t.slot? p g = some x := by
  rwa [State.slot?, podSt_of_kept k]

/-- The state of a pod that holds a slot is read back from every map. -/
theorem podSt_setPod {pod : Pod} (held : pod.slots.get? g = some x) : (s.setPod p pod).podSt p = pod := by
  refine AMap.getD_put_self_of_ne _ _ ?_
  rintro rfl
  cases held

theorem slot?_setPod {pod : Pod} (held : pod.slots.get? g = some x) : (s.setPod p pod).slot? p g = some x := by
  rw [State.slot?, podSt_setPod held, held]

theorem slot?_setSlot (s : State) (p g : Nat) (x : Slot) : (s.setSlot p g x).slot? p g = some x :=
  slot?_setPod (AMap.get?_set_self _ _ _)

theorem slot?_feedTrackers (held : s.slot? p g = some x) : (s.feedTrackers p g y).slot? p g = some x := by
  unfold State.feedTrackers
  exact List.foldlRecOn (motive := fun u : State => u.slot? p g = some x) _ _ held fun u kept n _ =>
    iteInduction (motive := fun u : State => u.slot? p g = some x) (fun _ => kept) (fun _ => kept)

theorem slot?_feedLogic (held : s.slot? p g = some x) : (s.feedLogic p g y).slot? p g = some x := by
  unfold State.feedLogic
  dsimp only
  split
  · split
    · exact slot?_setPod held
    · exact held
  · exact slot?_setPod held

theorem slot?_layoutFirst {d : PodDef} (held : s.slot? p g = some x) : (s.layoutFirst p d).slot? p g = some x := by
  unfold State.layoutFirst
  dsimp only
  split
  · exact slot?_setPod (slot?_of_kept (sendLayout_keptLogs _ _ _ _) held)
  · exact held

theorem slot?_egress {n cause : Nat} (held : s.slot? p g = some x) : (s.egress p g y n cause).slot? p g = some x := by
  unfold State.egress
  split
  · extract_lets s₁ o s₂
    have laid : s₁.slot? p g = some x := by
      dsimp only [s₁]
      split
      · exact slot?_layoutFirst held
      · exact held
    have sent : KeptLogs s₁ s₂ := .fold (fun _ _ => editionTo_keptLogs _ _ _ _ _ _ _) _ _
    exact slot?_of_kept (sent.trans (.fold (fun _ _ => podDataTo_keptLogs _ _ _ _ _) _ _)) laid
  · exact held

theorem slot?_slotEvent {n cause : Nat} {issued : Bool} (held : s.slot? p g = some x) :
    (s.slotEvent p g y n cause issued).slot? p g = some x :=
  slot?_of_kept (.ite (notify_keptLogs _ _ _ _ _) (.refl s)) held

end Held

/-! ### Closing (R159 to R163, R167, R170) -/

section Closing

variable {a : State} {pod slot cause : Nat} {x y z : Slot}

/-- What a first edition goes through on its way to the consumers leaves the slot that is held. -/
theorem slot?_issued {issued : Bool} {s : State} (held : s.slot? pod slot = some x) :
    ((((s.feedTrackers pod slot y).feedLogic pod slot y).egress pod slot y 0 cause).slotEvent pod slot z 0 cause issued).slot?
      pod slot = some x :=
  slot?_slotEvent (slot?_egress (slot?_feedLogic (slot?_feedTrackers held)))

/-- The entries of a slot that closes now, by position (R162). -/
abbrev firstEdition (a : State) (pod slot : Nat) (x : Slot) : AMap Entry :=
  numbered (a.closeEntry (a.podSt pod) slot x) x.defn.positions

/-- What an open slot becomes that closes now. -/
def closedSlot (a : State) (pod slot cause : Nat) (x : Slot) : Slot :=
  { x with
    closed := true, causes := [cause], closedAt := a.now, missing := x.awaited.filter (fun m => !x.arrived.contains m)
    entries := firstEdition a pod slot x, stamps := [], horizonAt := ceilTo 1000 (a.now + x.defn.horizonNs)
    final := x.defn.horizonNs == 0, ready := !x.defn.deep || cause == 4 }

theorem slot?_closeSlotCore (held : a.slot? pod slot = some x) (opened : x.closed = false) :
    (a.closeSlotCore pod slot cause).slot? pod slot = some (closedSlot a pod slot cause x) := by
  rw [State.closeSlotCore, held]
  refine (congrArg (fun u : State => u.slot? pod slot) (if_neg (by simp [opened]))).trans ?_
  extract_lets _ es soon missing y s₁ _ s₂ s₃ s₄
  have closed₁ : s₁.slot? pod slot = some y := slot?_setSlot _ _ _ _
  have closed₂ : s₂.slot? pod slot = some y := slot?_setPod closed₁
  have counted : KeptLogs s₂ s₄ :=
    have both : KeptLogs s₂ s₃ := (countPod_keptLogs _ _ _ _).trans (countPod_keptLogs _ _ _ _)
    .ite (both.trans (countPod_keptLogs _ _ _ _)) both
  have closed₄ : s₄.slot? pod slot = some y := slot?_of_kept counted closed₂
  split
  · exact closed₄
  · exact slot?_issued closed₄

/-- An entry that has arrived is that of the first edition (R163). -/
theorem closeEntry_of_arrived {s : State} {state : Pod} {i : Nat} {p : Pos} {e : Entry} (arrived : x.entries.get? i = some e) :
    s.closeEntry state slot x i p = e := by
  rw [State.closeEntry, arrived]

end Closing

/-- Settles O37: a slot that closes becomes `closedSlot`, whose entries are the positions numbered in their order. -/
theorem closingFillsTheSlot : Obligations.ClosingFillsTheSlot := by
  intro a pod slot cause x held opened
  have entry (i : Nat) (p : Pos) (there : x.defn.positions[i]? = some p) :
      AMap.get? (firstEdition a pod slot x) i = some (a.closeEntry (a.podSt pod) slot x i p) := by
    rw [firstEdition, get?_numbered, there, Option.map_some]
  refine ⟨closedSlot a pod slot cause x, slot?_closeSlotCore held opened, rfl, rfl, rfl, rfl, rfl, keys_numbered _ _, entry,
    fun i e inside arrived => ?_⟩
  exact (entry i _ (List.getElem?_eq_getElem inside)).trans (congrArg some (closeEntry_of_arrived arrived))

end Sys2Proof.Laws
end

section
/-! SUPPORT. The rows of a slot's life, each as what it does in the state it finds (R155, R159, R167 to R171, R177). -/

namespace Sys2Proof.Laws

open Sys2Proof.Machine

section Rows

variable {s a : State} {dt pod slot : Nat} {x : Slot}

/-- The state after a slot has opened by time: its instant is the newest (R155). -/
abbrev openedByTime (a : State) (pod slot : Nat) : State :=
  (a.openSlot pod slot).setPod pod { (a.openSlot pod slot).podSt pod with timed := some slot }

theorem exec_slotOpen (passed : s.advance dt = a) : exec (.slotOpen dt pod slot) s = .next (
    if decide (slot ≤ a.now) && a.mayOpen pod slot then openedByTime a pod slot else a) := by
  show execSlotOpen dt pod slot s = _
  rw [execSlotOpen, passed]

/-- A slot that opens holds what its definition and its awaited set make of it (R155, R158). -/
theorem slot?_openSlot : (a.openSlot pod slot).slot? pod slot = some (Slot.fresh (a.podDef pod) (a.awaitedSet (a.podDef pod))) :=
  slot?_setSlot _ _ _ _

theorem timed_openedByTime : ((openedByTime a pod slot).podSt pod).timed = some slot := by
  have newest : (openedByTime a pod slot).podSt pod = { (a.openSlot pod slot).podSt pod with timed := some slot } :=
    podSt_setPod (g := slot) (slot?_openSlot (a := a) (pod := pod))
  rw [newest]

theorem exec_oafLayoutRepeat (passed : s.advance dt = a) (on : a.podOn pod = true)
    (periodic : a.parN Par.ALN.OAF_LAYOUT_S pod ≠ 0) :
    exec (.oafLayoutRepeat dt pod) s = .next (if a.now / sec % a.parN Par.ALN.OAF_LAYOUT_S pod = 0 then
      a.setPod pod { a.podSt pod with layoutRep := true } else a) := by
  have least : max (a.parN Par.ALN.OAF_LAYOUT_S pod) 1 = a.parN Par.ALN.OAF_LAYOUT_S pod := by omega
  show execOafLayoutRepeat dt pod s = _
  simp [execOafLayoutRepeat, passed, on, periodic, least]

section Held

variable (passed : s.advance dt = a) (held : a.slot? pod slot = some x)

include passed held

theorem exec_slotCloseAtNominal : exec (.slotCloseAtNominal dt pod slot) s = .next (
    if !x.closed && x.defn.policy != 0 && decide (ceilTo 1000 slot ≤ a.now) && x.allArrived then a.closeSlot pod slot 0
    else a) := by
  show execSlotCloseAtNominal dt pod slot s = _
  rw [execSlotCloseAtNominal, passed, held]

theorem exec_slotDeadlineTick : exec (.slotDeadlineTick dt pod slot) s = .next (
    if !x.closed && decide (deadlineTick x.defn slot ≤ a.now) && (x.defn.policy == 0 || !x.allArrived) then
      a.closeSlot pod slot 1
    else a) := by
  show execSlotDeadlineTick dt pod slot s = _
  rw [execSlotDeadlineTick, passed, held]

theorem exec_revBatchExpiry {t : Nat} (batch : x.batchAt = some t) : exec (.revBatchExpiry dt pod slot) s = .next (
    if decide (t ≤ a.now) then a.batchExpiry pod slot 5 else a) := by
  show execRevBatchExpiry dt pod slot s = _
  rw [execRevBatchExpiry, passed, held]
  simp only [batch, Option.any_some]

theorem exec_revHorizonExpiry : exec (.revHorizonExpiry dt pod slot) s = .next (
    if x.closed && decide (x.horizonAt ≤ a.now) then a.finish pod slot 6 else a) := by
  show execRevHorizonExpiry dt pod slot s = _
  rw [execRevHorizonExpiry, passed, held]

theorem exec_slotRelease : exec (.slotRelease dt pod slot) s = .next (
    if x.closed && x.final && decide (x.horizonAt + x.defn.holdNs ≤ a.now) && decide (slot ≤ a.now) then
      (a.releaseSlot pod slot).pruneDests pod
    else a) := by
  show execSlotRelease dt pod slot s = _
  rw [execSlotRelease, passed, held]

theorem exec_deepWaitEditionReady_again (ready : x.ready = true) : exec (.deepWaitEditionReady dt pod slot) s = .next a := by
  show Host.Outcome.next ((s.advance dt).deepReady pod slot) = _
  rw [passed, State.deepReady, held]
  exact congrArg Host.Outcome.next (if_neg (by simp [ready]))

/-- A deep-wait edition reaches its consumers with POISON where its words are poisoned (R167, R395). -/
theorem exec_deepWaitEditionReady_once (closed : x.closed = true) (unready : x.ready = false) :
    ∃ u, exec (.deepWaitEditionReady dt pod slot) s = .next u ∧
      u.slot? pod slot = some { x with ready := true, entries := poisonEntries (a.takeWords 68).2 x.entries } := by
  refine ⟨a.deepReady pod slot, congrArg (fun u : State => Host.Outcome.next (u.deepReady pod slot)) passed, ?_⟩
  rw [State.deepReady, held]
  refine (congrArg (fun u : State => u.slot? pod slot) (if_pos (by simp [closed, unready]))).trans ?_
  exact slot?_issued (slot?_setSlot _ _ _ _)

end Held

end Rows

/-- Settles O36: each row by its own equation, the instants and what the slot is choosing the branch; what an opening and a
deep-wait edition leave is read back from the state they make. -/
theorem slotsOpenCloseAndRelease : Obligations.SlotsOpenCloseAndRelease := by
  intro s a dt pod slot passed
  refine ⟨fun due may => ⟨openedByTime a pod slot, ?_, slot?_setPod slot?_openSlot, timed_openedByTime⟩, fun early => ?_,
    fun x held opened => ?_, fun x t held batch => ?_, fun x held closed => ?_, fun on periodic => ?_⟩
  · rw [exec_slotOpen passed, if_pos (by simp [due, may])]
  · rw [exec_slotOpen passed, if_neg]
    rcases early with sooner | barred
    · simp [sooner.not_ge]
    · simp [barred]
  · rw [exec_slotCloseAtNominal passed held, exec_slotDeadlineTick passed held, deadlineTick]
    refine ⟨fun waits all due => ?_, fun early => ?_, fun lacks due => ?_, fun early => ?_⟩
    · rw [if_pos (by simp [opened, waits, all, due])]
    · rw [if_neg (by simp [early.not_ge])]
    · rw [if_pos (by simpa [opened, due] using lacks)]
    · rw [if_neg (by simp [early.not_ge])]
  · rw [exec_revBatchExpiry passed held batch]
    exact ⟨fun due => by rw [if_pos (by simp [due])], fun early => by rw [if_neg (by simp [early])]⟩
  · rw [exec_revHorizonExpiry passed held, exec_slotRelease passed held]
    refine ⟨fun due => ?_, fun early => ?_, fun final due nominal => ?_, fun early => ?_,
      fun ready => exec_deepWaitEditionReady_again passed held ready, fun unready => ?_⟩
    · rw [if_pos (by simp [closed, due])]
    · rw [if_neg (by simp [early])]
    · rw [if_pos (by simp [closed, final, due, nominal])]
    · rw [if_neg (by simp [early.not_ge])]
    · obtain ⟨u, issued, taken⟩ := exec_deepWaitEditionReady_once passed held closed unready
      exact ⟨u, _, issued, taken, rfl⟩
  · rw [exec_oafLayoutRepeat passed on periodic]
    exact ⟨fun due => by rw [if_pos due], fun between => by rw [if_neg between]⟩

end Sys2Proof.Laws
end

section
/-! SUPPORT. Entries for a position that is already PRESENT (R156), and the commands on pods (R178 to R181). -/

namespace Sys2Proof.Laws

open Sys2Proof.Machine

/-! ### Repeated entries (R156) -/

section Repeats

variable {s : State} {pod slot pos stamp arrival : Nat} {e : Entry} {x : Slot}

theorem lateEntry_of_present (revisable : x.final = false) (within : s.now < x.horizonAt) (undrained : s.alnDraining = false)
    (revised : x.defn.revisions = true) (there : x.present pos = true) :
    s.lateEntry pod slot pos x e false = s.countPod 0x0408 pod 1 := by
  rw [State.lateEntry, if_neg (by simp [revisable, within, undrained]), if_neg (by simp [revised]), if_pos (by simp [there])]

theorem putEntry_of_present (held : s.slot? pod slot = some x) (opened : x.closed = false) (there : x.present pos = true) :
    s.putEntry pod slot pos stamp arrival e = s.countPod 0x0408 pod 1 := by
  rw [State.putEntry, held]
  exact (if_neg (by simp [opened])).trans (if_pos there)

theorem putEntry_of_closed (held : s.slot? pod slot = some x) (closed : x.closed = true) :
    s.putEntry pod slot pos stamp arrival e = s.lateEntry pod slot pos x e false := by
  rw [State.putEntry, held]
  exact if_pos closed

end Repeats

/-- Settles O38: an open slot counts the entry at once, a closed one as its late entry, and counting changes no slot. -/
theorem repeatedEntriesAreDiscarded : Obligations.RepeatedEntriesAreDiscarded := by
  intro a pod slot pos stamp arrival e x held there
  exact ⟨fun opened => putEntry_of_present held opened there,
    fun closed revisable within undrained revised =>
      (putEntry_of_closed held closed).trans (lateEntry_of_present revisable within undrained revised there),
    slot?_of_kept (count2_keptLogs _ _ _ _) held⟩

/-! ### POD_READ_SLOT (R180) -/

section Reading

variable {s t : State} {q : Req} {dt role : Nat} {x : Slot}

/-- The edition of a slot that a request asks for: the latest, or the one it numbers (R180). -/
abbrev askedEdition (q : Req) (x : Slot) : Nat := if q.bits 4 8 8 = 1 then x.edition else q.bits 4 3 0

/-- What POD_READ_SLOT answers of a closed slot (R180). -/
abbrev slotWords (q : Req) (x : Slot) : List Word :=
  [BitVec.ofNat 32 (q.bits 4 31 24 * 2 ^ 24 + askedEdition q x * 2 ^ 20 + x.causes.getD (askedEdition q x) 0 * 2 ^ 16 +
      bitAt x.final 1 + 1), BitVec.ofNat 32 x.defn.positions.length, BitVec.ofNat 32 (q.bits 8 15 0)] ++
    (((x.view (askedEdition q x)).drop (q.bits 7 17 0)).take (q.bits 8 15 0)).flatMap (fun y => [y.v, y.q])

theorem exec_podReadSlot_answers {ws : List Word} (adm : Admitted (s.advance dt) q 0x0310 4 1 5 true t role)
    (run : t.podReadSlot q = ok ws) (fit : ReplyFits t q ws) :
    exec (.podReadSlot dt q) s = .next (replied t t q 0x0310 4 ws) :=
  congrArg Host.Outcome.next (serve_ok adm (congrArg (Prod.mk t) run) fit)

theorem exec_podReadSlot_refused {st : Nat} (adm : Admitted (s.advance dt) q 0x0310 4 1 5 true t role)
    (run : t.podReadSlot q = errId st 0) : exec (.podReadSlot dt q) s = .next (turnedAway t q 0x0310 4 st 0) :=
  congrArg Host.Outcome.next (serve_turnedAway adm (congrArg (Prod.mk t) run))

variable (known : q.bits 4 31 24 ≤ 63) (least : 1 ≤ q.bits 8 15 0) (most : q.bits 8 15 0 ≤ 8000)
  (on : t.podOn (q.bits 4 31 24) = true) (valid : gtfValid (q.dw 5) = true)

include known least most on valid

theorem podReadSlot_of_closed (held : t.slot? (q.bits 4 31 24) (nsOf (q.dw 5)) = some x) (closed : x.closed = true)
    (issued : askedEdition q x ≤ x.edition) (inside : q.bits 7 17 0 + q.bits 8 15 0 ≤ x.defn.positions.length) :
    t.podReadSlot q = ok (slotWords q x) := by
  unfold State.podReadSlot
  dsimp only
  rw [if_neg (by omega), if_neg (by omega), if_neg (by simp [on]), held]
  dsimp only
  rw [if_neg (by simp [valid]), if_neg (by simp [closed]), if_neg issued.not_gt, if_neg inside.not_gt]

theorem podReadSlot_of_unheld (unheld : t.slot? (q.bits 4 31 24) (nsOf (q.dw 5)) = none)
    (grid : isGrid (t.parN Par.ALN.SLOT_RATE (q.bits 4 31 24)) (nsOf (q.dw 5)) = true) :
    t.podReadSlot q = errId 0x0127 0 := by
  unfold State.podReadSlot
  dsimp only
  rw [if_neg (by omega), if_neg (by omega), if_neg (by simp [on]), unheld]
  exact if_pos (by simp [valid, grid])

end Reading

/-! ### POD_SUBSCRIBE (R181) -/

section Subscribing

variable {s t : State} {q : Req} {dt role : Nat} {d : NoticeDest}

/-- The subscriptions that are not this one of a destination to the pod that a request names. -/
abbrev otherSubs (t : State) (q : Req) (d : NoticeDest) : List Subscription :=
  t.ctl.subs.filter (fun x => !(x.pod == q.bits 4 31 24 && x.dest == d))

/-- The state with a destination's subscription added. -/
abbrev subscribed (t : State) (q : Req) (d : NoticeDest) (layout : Bool) : State :=
  { t with ctl := { t.ctl with subs := otherSubs t q d ++ [{ pod := q.bits 4 31 24, dest := d, layout := layout }] } }

/-- The state in which a new subscriber has been sent the layout, where it asked for it (R181). -/
abbrev welcomed (t : State) (q : Req) (d : NoticeDest) (layout : Bool) : State :=
  let u := subscribed t q d layout
  if layout && u.podOut then u.podDataTo (q.bits 4 31 24) d false (u.podDef (q.bits 4 31 24)).layoutOut else u

/-- Sending the layout leaves the subscriptions (R182). -/
theorem length_subs_welcomed {layout : Bool} : (welcomed t q d layout).ctl.subs.length = (otherSubs t q d).length + 1 := by
  have sent : KeptLogs (subscribed t q d layout) (welcomed t q d layout) := .ite (podDataTo_keptLogs _ _ _ _ _) (.refl _)
  have same := congrArg (fun u : State => u.ctl.subs.length) sent.1.1
  exact same.trans List.length_append

theorem exec_podSubscribe_answers {u : State} {n : Nat} (adm : Admitted (s.advance dt) q 0x0311 4 1 1 true t role)
    (run : t.podSubscribe q = (u, ok [BitVec.ofNat 32 n])) :
    exec (.podSubscribe dt q) s = .next (replied t u q 0x0311 4 [BitVec.ofNat 32 n]) :=
  congrArg Host.Outcome.next (serve_ok_short adm run (by simp))

theorem exec_podSubscribe_refused {st : Nat} (adm : Admitted (s.advance dt) q 0x0311 4 1 1 true t role)
    (run : t.podSubscribe q = (t, errId st 0)) : exec (.podSubscribe dt q) s = .next (turnedAway t q 0x0311 4 st 0) :=
  congrArg Host.Outcome.next (serve_turnedAway adm run)

variable (named : subscriber q = some d) (known : q.bits 4 31 24 ≤ 63)

include named known

theorem podSubscribe_removed (off : q.bits 4 0 0 = 0) : t.podSubscribe q =
    ({ t with ctl := { t.ctl with subs := otherSubs t q d } }, ok [BitVec.ofNat 32 (otherSubs t q d).length]) := by
  unfold State.podSubscribe
  rw [named]
  dsimp only
  rw [if_neg known.not_gt, if_neg (by omega)]

theorem podSubscribe_of_pod_off (on : q.bits 4 0 0 = 1) (disabled : t.podOn (q.bits 4 31 24) = false) :
    t.podSubscribe q = (t, errId 0x010E 0) := by
  unfold State.podSubscribe
  rw [named]
  dsimp only
  rw [if_neg known.not_gt, if_pos on, if_pos (by simp [disabled])]
  rfl

theorem podSubscribe_added (on : q.bits 4 0 0 = 1) (enabled : t.podOn (q.bits 4 31 24) = true)
    (room : (otherSubs t q d).length < 16) : t.podSubscribe q =
      (welcomed t q d (q.bits 4 1 1 = 1), ok [BitVec.ofNat 32 ((otherSubs t q d).length + 1)]) := by
  have free : ¬((otherSubs t q d).length = t.ctl.subs.length ∧ 16 ≤ t.ctl.subs.length) := by omega
  rw [← length_subs_welcomed (layout := q.bits 4 1 1 = 1), State.podSubscribe, named]
  exact (if_neg known.not_gt).trans ((if_pos on).trans ((if_neg (by simp [enabled])).trans (if_neg free)))

end Subscribing

/-! ### C37.118.2 output commands (R178, R179) -/

section OutputCommands

variable {s a : State} {dt dest n : Nat} {peer : Peer} {d : PodDef}

theorem exec_c37OutputCommand (passed : s.advance dt = a) (measures : a.measuring = true) (runs : a.runs 4 = true) :
    exec (.c37OutputCommand dt dest peer n) s = .next (a.c37Command dest peer n) := by
  show execC37OutputCommand dt dest peer n s = _
  rw [execC37OutputCommand, passed]
  exact congrArg Host.Outcome.next (if_pos (by simp [measures, runs]))

/-- A destination with its value, as its output is turned on and off (R179). -/
abbrev namedDest (d : PodDef) (dest : Nat) : Nat × List Word := (dest, d.dests.getD (dest % 4) [])

variable (known : a.c37Peer (dest / 4) (dest % 4) peer = some d)

include known

theorem c37Command_off : a.c37Command dest peer 1 = { a with aln := { a.aln with
    txOn := a.aln.txOn.filter (fun y => y != namedDest d dest)
    txOff := a.aln.txOff.filter (fun y => y != namedDest d dest) ++ [namedDest d dest] } } := by
  rw [State.c37Command, known]
  rfl

theorem c37Command_on : a.c37Command dest peer 2 = { a with aln := { a.aln with
    txOn := a.aln.txOn.filter (fun y => y != namedDest d dest) ++ [namedDest d dest]
    txOff := a.aln.txOff.filter (fun y => y != namedDest d dest) } } := by
  rw [State.c37Command, known]
  rfl

theorem c37Command_cfg2 : a.c37Command dest peer 5 = a.c37SendConfig (dest / 4) (dest % 4) d false := by
  rw [State.c37Command, known]
  rfl

theorem c37Command_cfg3 : a.c37Command dest peer 6 = a.c37SendConfig (dest / 4) (dest % 4) d true := by
  rw [State.c37Command, known]
  rfl

theorem c37Command_other (notOff : n ≠ 1) (notOn : n ≠ 2) (notCfg2 : n ≠ 5) (notCfg3 : n ≠ 6) :
    a.c37Command dest peer n = a.countPod 0x040E (dest / 4) 1 := by
  rw [State.c37Command, known]
  dsimp only
  split
  · contradiction
  · contradiction
  · contradiction
  · contradiction
  · rfl

end OutputCommands

/-- Settles O39: each command's answer from its own lemma; that a layout sent to a new subscriber leaves the subscriptions is
`length_subs_welcomed`. -/
theorem podsAreReadAndSubscribed : Obligations.PodsAreReadAndSubscribed := by
  intro s t dt q role
  refine ⟨?_, ?_, ?_⟩
  · intro adm p g first count known least most on valid
    exact ⟨fun x held closed issued inside fit =>
        exec_podReadSlot_answers adm (podReadSlot_of_closed known least most on valid held closed issued inside) fit,
      fun unheld grid => exec_podReadSlot_refused adm (podReadSlot_of_unheld known least most on valid unheld grid)⟩
  · intro d adm named p rest known
    refine ⟨fun off => ?_, fun on plain enabled room => ?_, fun on layout enabled room => ?_, fun on disabled => ?_⟩
    · exact exec_podSubscribe_answers adm (podSubscribe_removed named known off)
    · have added := exec_podSubscribe_answers adm (podSubscribe_added named known on enabled room)
      rwa [decide_eq_false (by omega)] at added
    · have added := exec_podSubscribe_answers adm (podSubscribe_added named known on enabled room)
      rwa [decide_eq_true layout] at added
    · exact exec_podSubscribe_refused adm (podSubscribe_of_pod_off named known on disabled)
  · intro a dest peer d passed measures runs known x on off
    have commanded {n : Nat} {u : State} (does : a.c37Command dest peer n = u) :
        exec (.c37OutputCommand dt dest peer n) s = .next u := by
      rw [exec_c37OutputCommand passed measures runs, does]
    exact ⟨commanded (c37Command_off known), commanded (c37Command_on known), commanded (c37Command_cfg2 known),
      commanded (c37Command_cfg3 known), fun n notOff notOn notCfg2 notCfg3 =>
        commanded (c37Command_other known notOff notOn notCfg2 notCfg3)⟩

end Sys2Proof.Laws
end

section
/-! SUPPORT. What custody answers its commands (R256, R258, R259). -/

namespace Sys2Proof.Laws

open Sys2Proof.Machine

section CustodyCommands

variable {s t : State} {q : Req} {dt role : Nat}

/-- The greatest SEQUENCE of some records is at least that of each. -/
theorem seq_le_foldl_max {l : List Profile} {r : Profile} (held : r ∈ l) (m : Nat) :
    r.seq ≤ l.foldl (fun m r => max m r.seq) m := by
  rw [← List.foldl_map (f := Profile.seq) (g := max), List.foldl_eq_foldr]
  exact List.le_max_of_le' m (List.mem_map_of_mem held) le_rfl

/-- What CUS_READ_REGISTERS answers of the points asked for (R259). -/
abbrev askedRegisters (t : State) (q : Req) : List Word :=
  (List.range (q.w 5).toNat).flatMap (fun k => t.registerWords ((q.w 6).getLsbD 0) (q.bits 4 8 0 + k))

theorem exec_cusReadRegisters (adm : Admitted (s.advance dt) q 0x0800 9 0 3 true t role) (least : 1 ≤ (q.w 5).toNat)
    (most : (q.w 5).toNat ≤ 256) (inside : q.bits 4 8 0 + (q.w 5).toNat ≤ 512) (fit : ReplyFits t q (askedRegisters t q)) :
    exec (.cusReadRegisters dt q) s = .next (replied t t q 0x0800 9 (askedRegisters t q)) := by
  refine congrArg Host.Outcome.next (serve_ok adm ?_ fit)
  dsimp only
  rw [if_neg (by omega), if_neg most.not_gt, if_neg inside.not_gt]

/-! ### CUS_READ_PROFILE (R255, R256) -/

/-- The SEQUENCE asked for is one that its point has made and no longer holds. -/
abbrev SeqFreed (t : State) (q : Req) : Prop :=
  0 < (q.w 5).toNat ∧
    (q.w 5).toNat < ((t.recordsOf (q.bits 4 8 0)).head?.map Profile.seq).getD ((t.point (q.bits 4 8 0)).seq + 1) ∧
    (q.w 5).toNat ≤ (t.point (q.bits 4 8 0)).seq

/-- The records of a point from a SEQUENCE on, as many as are asked for. -/
abbrev askedRecords (t : State) (q : Req) : List Profile :=
  ((t.recordsOf (q.bits 4 8 0)).filter (fun r => decide ((q.w 5).toNat ≤ r.seq))).take (q.bits 6 15 0)

/-- The words that the records are answered with. -/
abbrev profileAnswer (t : State) (q : Req) : List Word :=
  [BitVec.ofNat 32 (askedRecords t q).length,
    BitVec.ofNat 32 (((t.recordsOf (q.bits 4 8 0)).head?.map Profile.seq).getD 0),
    BitVec.ofNat 32 (((t.recordsOf (q.bits 4 8 0)).getLast?.map Profile.seq).getD 0)] ++
  (askedRecords t q).flatMap (fun r => q.carriage.pack (wordsLe (t.readProfile r).words ++ padTo 64 (t.readProfile r).sig))

/-- The state in which the records asked for are kept as they were read. -/
abbrev profilesRead (t : State) (q : Req) : State :=
  ({ t with cus := { t.cus with records := t.cus.records.map (fun r =>
      if r.point = q.bits 4 8 0 ∧ (askedRecords t q).any (fun y => y.seq == r.seq) then t.readProfile r else r) } } : State).count
    0x0D03 0 ((askedRecords t q).filter (fun r => r.sig.isEmpty && t.canSign)).length

section Profiles

variable (adm : Admitted (s.advance dt) q 0x0801 9 0 3 true t role) (least : 1 ≤ q.bits 6 15 0) (most : q.bits 6 15 0 ≤ 100)

include adm least most

theorem exec_cusReadProfile_freed (freed : SeqFreed t q) :
    exec (.cusReadProfile dt q) s = .next (turnedAway t q 0x0801 9 0x0124 0) := by
  refine congrArg Host.Outcome.next (serve_turnedAway adm ?_)
  dsimp only
  rw [if_neg (by omega), if_neg most.not_gt, if_pos freed]
  rfl

theorem exec_cusReadProfile_held (kept : ¬ SeqFreed t q) (fit : ReplyFits t q (profileAnswer t q)) :
    exec (.cusReadProfile dt q) s = .next (replied t (profilesRead t q) q 0x0801 9 (profileAnswer t q)) := by
  refine congrArg Host.Outcome.next (serve_ok adm ?_ fit)
  dsimp only
  rw [if_neg (by omega), if_neg most.not_gt, if_neg kept]

end Profiles

end CustodyCommands

/-- Settles O44: the guards of each command let its request through; a SEQUENCE that some record reaches is at most the greatest
held (`seq_le_foldl_max`). -/
theorem custodyAnswersItsCommands : Obligations.CustodyAnswersItsCommands := by
  intro s t dt q role
  refine ⟨?registers, ?profile, ?ack, ?legalId⟩
  case registers =>
    intro adm least most inside _ fit
    exact exec_cusReadRegisters adm least most inside fit
  case profile =>
    intro adm least most _ _ _ _
    refine ⟨exec_cusReadProfile_freed adm least most, ?_⟩
    intro kept _ _ fit
    exact exec_cusReadProfile_held adm least most kept fit
  case ack =>
    intro adm mine gone known
    have reached : (q.w 5).toNat ≤ mine.foldl (fun m r => max m r.seq) 0 := by
      obtain none | ⟨r, held, below⟩ := known
      · simp [none]
      · exact below.trans (seq_le_foldl_max held 0)
    exact congrArg Host.Outcome.next (serve_ok_short adm (if_neg reached.not_gt) (by decide : 1 ≤ 10))
  case legalId =>
    intro adm
    refine ⟨fun plain => congrArg Host.Outcome.next (serve_turnedAway adm (if_pos (by simp [plain]))), ?_⟩
    intro metered _ _ fit
    exact congrArg Host.Outcome.next (serve_ok adm (if_neg (by simp [metered])) fit)

end Sys2Proof.Laws
end

section
/-! SUPPORT. What leaves the vault and the seal alone: a sealed configuration that comes into force (R62, R258), the end of the hold
in SAFE (R372), and every operation these two consist of. `Stays` and `Reaches` do not speak of the vault. -/

namespace Sys2Proof.Laws

open Sys2Proof.Machine

/-- The vault, and what the seal says of custody, are in `s` as they were in `s₀`. -/
def VaultStands (s₀ s : State) : Prop :=
  s.vlt = s₀.vlt ∧ s.cus.sealed = s₀.cus.sealed ∧ s.cus.sealCtr = s₀.cus.sealCtr ∧ s.cus.frozen = s₀.cus.frozen

section Operations

variable {s₀ s t : State}

theorem Kept.vlt (h : Kept s t) : t.vlt = s.vlt := congrArg (fun u => u.vlt) h.1

theorem Kept.cus (h : Kept s t) : t.cus = s.cus := congrArg (fun u => u.cus) h.1

theorem VaultStands.refl (s : State) : VaultStands s s := ⟨rfl, rfl, rfl, rfl⟩

/-- On record updates: any field may be written but the vault and custody's SEALED, counter and freeze. -/
theorem VaultStands.set (h : VaultStands s₀ s) {pending ident pwr units lands alarms ctl prt tim ing aln osc arm cnv flt cap lgc evt
    mem out regs prov point copyA copyB provA provB snapshot saveSeq records ready frozenAt legalFrom sealHash pfwStamp} :
    VaultStands s₀ ⟨pending, ident, pwr, units, lands, alarms, ctl, prt, tim, ing, aln, osc, arm,
      ⟨regs, prov, point, copyA, copyB, provA, provB, snapshot, saveSeq, records, ready, s.cus.sealed, s.cus.frozen, frozenAt,
        legalFrom, s.cus.sealCtr, sealHash, pfwStamp⟩, cnv, flt, cap, lgc, s.vlt, evt, mem, out⟩ := h

theorem VaultStands.kept (h : VaultStands s₀ s) (k : Kept s t) : VaultStands s₀ t := by
  obtain ⟨vlt, sealed, ctr, frozen⟩ := h
  exact ⟨k.vlt.trans vlt, (congrArg Cus.sealed k.cus).trans sealed, (congrArg Cus.sealCtr k.cus).trans ctr,
    (congrArg Cus.frozen k.cus).trans frozen⟩

theorem VaultStands.taken (h : VaultStands s₀ s) (k : Taken s t) : VaultStands s₀ t := by
  rw [k.eq]
  exact h

theorem VaultStands.ite {c : Prop} [Decidable c] (h : VaultStands s₀ s) (g : VaultStands s₀ t) :
    VaultStands s₀ (if c then s else t) := by
  split
  · exact h
  · exact g

theorem VaultStands.iteFst {α : Type} {c : Prop} [Decidable c] {p q : State × α} (h : VaultStands s₀ p.1)
    (g : VaultStands s₀ q.1) : VaultStands s₀ (if c then p else q).1 := by
  split
  · exact h
  · exact g

theorem VaultStands.foldl {α : Type} {f : State → α → State} {l : List α} (h : VaultStands s₀ s)
    (step : ∀ {s a}, VaultStands s₀ s → VaultStands s₀ (f s a)) : VaultStands s₀ (l.foldl f s) := by
  induction l generalizing s with
  | nil => exact h
  | cons a l ih => exact ih (step h)

theorem VaultStands.foldlFst {α β : Type} {f : State × β → α → State × β} {p : State × β} {l : List α} (h : VaultStands s₀ p.1)
    (step : ∀ {p a}, VaultStands s₀ p.1 → VaultStands s₀ (f p a).1) : VaultStands s₀ (l.foldl f p).1 := by
  induction l generalizing p with
  | nil => exact h
  | cons a l ih => exact ih (step h)

/-! One lemma for each operation, as for `Reaches`: a proof reads as the definition does, and `h.set` follows a run of record updates.
What the operation is given does not matter and goes by position. -/

section

variable (h : VaultStands s₀ s) {i j k l m n : Nat} {v w : Bool}

include h

/-! #### Messages and tasks -/

theorem VaultStands.tcpEnd : VaultStands s₀ (s.tcpEnd i) := h
theorem VaultStands.count2 : VaultStands s₀ (s.count2 i j k) := h.kept (count2_keptLogs _ _ _ _).1
theorem VaultStands.takeWords : VaultStands s₀ (s.takeWords i).1 := h.kept (takeWords_keptLogs _ _).1

theorem VaultStands.completeSend {stamp : Option Nat} : VaultStands s₀ (s.completeSend i j stamp) :=
  h.set.kept (raiseIrq_keptLogs _ _).1

theorem VaultStands.sendUdp {peer : Peer} {payload : List Byte} {msg : Option Output} :
    VaultStands s₀ (s.sendUdp i j k peer payload msg) :=
  h.kept (sendUdp_keptLogs _ _ _ _ _ _ _).1

theorem VaultStands.sendTcp {data : List Byte} {msg : Option Output} : VaultStands s₀ (s.sendTcp i j data msg) :=
  h.kept (sendTcp_keptLogs _ _ _ _ _).1

theorem VaultStands.notify {payload : List Word} : VaultStands s₀ (s.notify i j k payload) := h.kept (notify_keptLogs _ _ _ _ _).1
theorem VaultStands.logEv {par : DWord} : VaultStands s₀ (s.logEv i j k par) := h.kept (logEv_kept _ _ _ _ _)
theorem VaultStands.logCus {par : DWord} : VaultStands s₀ (s.logCus i j par) := h.kept (logCus_kept _ _ _ _)
theorem VaultStands.taskReady : VaultStands s₀ (s.taskReady i j) := h.set.taken (noteDepth_taken _ _)
theorem VaultStands.taskWaits : VaultStands s₀ (s.taskWaits i j k) := .ite h.taskReady h.set

theorem VaultStands.prerequisiteDone : VaultStands s₀ (s.prerequisiteDone i) := by
  unfold State.prerequisiteDone
  split
  · exact .ite h.set.taskReady h.set
  · exact h

/-! #### Recorders, alarms and ports -/

theorem VaultStands.capPulse : VaultStands s₀ (s.capPulse i) := .ite h.set h

theorem VaultStands.endRecordTo : VaultStands s₀ (s.endRecordTo i j k) := by
  unfold State.endRecordTo
  dsimp only
  split
  · exact h
  · exact h.set.notify

theorem VaultStands.startRecord : VaultStands s₀ (s.startRecord i j k) := by
  unfold State.startRecord
  extract_lets r clamped k before rows left open_ step need kept gone c _ _ s₁
  have h₁ : VaultStands s₀ s₁ := (VaultStands.ite h h.set).set.capPulse
  exact .ite h₁.endRecordTo h₁

theorem VaultStands.rollMark : VaultStands s₀ (s.rollMark i j k) := h.set.capPulse.notify

theorem VaultStands.capFire {t : Nat × Nat} : VaultStands s₀ (s.capFire i t) := by
  unfold State.capFire
  dsimp only
  split
  · exact .ite h.rollMark (.ite h.set h.startRecord)
  · exact .ite h.rollMark (.ite h.set h.startRecord)
  · exact h.set
  · exact h.set.logEv
  · exact h.set
  · exact h

theorem VaultStands.capFires {l : List (Nat × Nat)} : VaultStands s₀ (s.capFires i l) := h.foldl fun h => h.capFire

theorem VaultStands.capEvent {hit : Nat → Option Bool} : VaultStands s₀ (s.capEvent i hit j) :=
  .ite (h.foldl fun h => .ite h h.capFires) h

theorem VaultStands.alarmT : VaultStands s₀ (s.alarmT i j k v w l) := .ite h h.set.notify.capEvent
theorem VaultStands.bringUp : VaultStands s₀ (s.bringUp i) := .ite h.set h
theorem VaultStands.dropQueued : VaultStands s₀ (s.dropQueued i j) := h.set.foldl fun h => h.completeSend
theorem VaultStands.linkDown : VaultStands s₀ (s.linkDown i) := .ite h.set.dropQueued h
theorem VaultStands.shift : VaultStands s₀ (s.shift i v) := h.set.logEv.linkDown.bringUp

theorem VaultStands.portCommit : VaultStands s₀ (s.portCommit i v w) := by
  unfold State.portCommit
  extract_lets _ s₁
  have h₁ : VaultStands s₀ s₁ := .ite h.linkDown.set.bringUp h
  exact .ite (.ite h₁.set.shift h₁.set) h₁

/-! #### Slots and their editions -/

theorem VaultStands.countPod : VaultStands s₀ (s.countPod i j k) := h.kept (countPod_keptLogs _ _ _ _).1

theorem VaultStands.podDataTo {d : NoticeDest} {o : OafOut} : VaultStands s₀ (s.podDataTo i d v o) :=
  h.kept (podDataTo_keptLogs _ _ _ _ _).1

theorem VaultStands.editionTo {x : Slot} {o : OafOut} : VaultStands s₀ (s.editionTo i j x k o l) :=
  h.kept (editionTo_keptLogs _ _ _ _ _ _ _).1

theorem VaultStands.sendLayout {d : PodDef} : VaultStands s₀ (s.sendLayout i d v) := h.kept (sendLayout_keptLogs _ _ _ _).1
theorem VaultStands.layoutFirst {d : PodDef} : VaultStands s₀ (s.layoutFirst i d) := .ite h.sendLayout.set h

theorem VaultStands.egress {x : Slot} : VaultStands s₀ (s.egress i j x k l) :=
  .ite (((VaultStands.ite h.layoutFirst h).foldl fun h => h.editionTo).foldl fun h => h.podDataTo) h

theorem VaultStands.slotEvent {x : Slot} : VaultStands s₀ (s.slotEvent i j x k l v) := .ite h.notify h
theorem VaultStands.freeStore {x : Slot} : VaultStands s₀ (s.freeStore x) := .ite h h.set
theorem VaultStands.feedTrackers {x : Slot} : VaultStands s₀ (s.feedTrackers i j x) := h.foldl fun h => .ite h.set h

theorem VaultStands.feedLogic {x : Slot} : VaultStands s₀ (s.feedLogic i j x) := by
  unfold State.feedLogic
  dsimp only
  split
  · exact .ite h.set h
  · exact h.set

theorem VaultStands.closeSlotCore : VaultStands s₀ (s.closeSlotCore i j k) := by
  unfold State.closeSlotCore
  split
  · exact h
  · refine .ite h ?_
    extract_lets pod es soon missing y _ _ _ s₁
    have h₁ : VaultStands s₀ s₁ := h.freeStore.set.countPod.countPod
    exact .ite (.ite h₁.countPod h₁) (VaultStands.ite h₁.countPod h₁).feedTrackers.feedLogic.egress.slotEvent

theorem VaultStands.deepReady : VaultStands s₀ (s.deepReady i j) := by
  unfold State.deepReady
  split
  · exact h
  · exact .ite h.takeWords.set.feedTrackers.feedLogic.egress.slotEvent h

theorem VaultStands.revise {x : Slot} : VaultStands s₀ (s.revise i j x k v) := h.set.countPod.egress.slotEvent

theorem VaultStands.finish : VaultStands s₀ (s.finish i j k) := by
  unfold State.finish
  split
  · exact h
  · exact .ite h (.ite h.set.slotEvent h.revise)

theorem VaultStands.pruneDests : VaultStands s₀ (s.pruneDests i) := h.set.foldl fun h => h.tcpEnd

theorem VaultStands.lateEntry {x : Slot} {e : Entry} : VaultStands s₀ (s.lateEntry i j k x e v) :=
  .ite h.countPod (.ite h.countPod (.ite h.countPod (.ite h.countPod h.set.countPod)))

theorem VaultStands.openEntry {x : Slot} {e : Entry} : VaultStands s₀ (s.openEntry i j k l x e) := .ite h.set h.set

theorem VaultStands.reform {x : Slot} : VaultStands s₀ (s.reform i j x) := by
  refine h.freeStore.set.foldl fun {s e} h => ?_
  split
  · refine .ite ?_ h.countPod
    extract_lets d
    split
    · extract_lets s₁
      have opened : VaultStands s₀ s₁ := .ite h.set h
      split
      · refine .ite opened.lateEntry (.ite opened.countPod ?_)
        extract_lets s₂
        split
        · exact opened.openEntry.set
        · exact opened.openEntry
      · exact opened.countPod
    · exact h.countPod
  · exact h

theorem VaultStands.podCommit {commit : Word} : VaultStands s₀ (s.podCommit i commit j) :=
  ((VaultStands.ite h.set h.set).foldl fun h => h.reform).pruneDests

theorem VaultStands.alnFinalise : VaultStands s₀ s.alnFinalise :=
  ((h.foldl fun h => h.closeSlotCore).foldl fun h => h.deepReady).foldl fun h => h.finish

/-! #### Branches, stations and sources -/

theorem VaultStands.needRecompute : VaultStands s₀ (s.needRecompute i v) := .ite h.set h.set
theorem VaultStands.branchSet : VaultStands s₀ (s.branchSet i v j w) := .ite h h.set.needRecompute

theorem VaultStands.branchBad {d : BranchDef} {since : Option Nat} : VaultStands s₀ (s.branchBad i d since j v) :=
  .ite h.set h.set.alarmT.branchSet

theorem VaultStands.branchReport {d : BranchDef} {r : StatusRep} : VaultStands s₀ (s.branchReport i d r j v) := by
  unfold State.branchReport
  dsimp only
  split
  · exact h.set.alarmT.branchSet
  · exact .ite h h.set
  · exact h.branchBad

theorem VaultStands.stationLost : VaultStands s₀ (s.stationLost i) := .ite h h.set.logEv.alarmT

theorem VaultStands.c37SendTo {d : SrcDef} : VaultStands s₀ (s.c37SendTo i d j) := by
  unfold State.c37SendTo
  dsimp only
  refine .ite ?_ ?_
  · split
    · exact h.sendTcp
    · exact h
  · split
    · exact h.sendUdp
    · exact h

theorem VaultStands.c37Send : VaultStands s₀ (s.c37Send i j) := by
  unfold State.c37Send
  split
  · exact h.c37SendTo
  · exact h

theorem VaultStands.askCfg {d : SrcDef} : VaultStands s₀ (s.askCfg i d) := h.set.c37Send

/-! #### Detectors and trackers -/

theorem VaultStands.fdJudge : VaultStands s₀ (s.fdJudge i j) :=
  (VaultStands.ite (VaultStands.ite h.set.alarmT h).set.alarmT (.ite h.set.alarmT h)).set

theorem VaultStands.fdValid {e : Entry} : VaultStands s₀ (s.fdValid i j e) :=
  .ite (VaultStands.ite h.alarmT h).set (VaultStands.ite h.alarmT h).set.fdJudge

theorem VaultStands.fdBad : VaultStands s₀ (s.fdBad i j k v) := .ite h.set.alarmT.set.alarmT.set h.set

theorem VaultStands.fdTake {x : Slot} : VaultStands s₀ (s.fdTake i j x) :=
  .ite h (.ite h.set (.ite (VaultStands.ite h.set h.set.fdBad).set.fdBad (VaultStands.ite h.set h.set.fdBad).fdValid))

theorem VaultStands.fdFirst : VaultStands s₀ (s.fdFirst i j k) := by
  unfold State.fdFirst
  refine .ite ?_ h
  split
  · exact .ite h.fdTake h
  · exact h

theorem VaultStands.fdCommit : VaultStands s₀ (s.fdCommit i j) := h.alarmT.alarmT.set
theorem VaultStands.clearModes : VaultStands s₀ (s.clearModes i j) := h.foldl fun h => h.foldl fun h => h.alarmT

theorem VaultStands.mtCommit : VaultStands s₀ (s.mtCommit i j) :=
  .ite (.ite h.clearModes.alarmT.set.notify h.clearModes.alarmT.set) h.clearModes.alarmT.set

/-! #### Islands, networks and balances -/

theorem VaultStands.applyTopology : VaultStands s₀ s.applyTopology := h.set.foldl fun h => h.set

theorem VaultStands.updateIslands : VaultStands s₀ (s.updateIslands i v).1 :=
  ((VaultStands.ite h.set h.set).alarmT.foldl fun h => h.alarmT).foldl fun h => h.alarmT

theorem VaultStands.reportIslands {α : Type} [DecidableEq α] {old : List Island} {f : Island → α} {reason : Nat → Nat}
    {always : Nat → Bool} : VaultStands s₀ (s.reportIslands old f reason i always) :=
  h.foldl fun h => .ite h.notify h

theorem VaultStands.recomputeDone {fresh : Option Nat} : VaultStands s₀ (s.recomputeDone fresh) := by
  unfold State.recomputeDone
  dsimp only
  split
  · exact h.set
  · exact .reportIslands h.set.applyTopology.updateIslands

theorem VaultStands.measNode {m : MeasRes} : VaultStands s₀ (s.measNode i j v m) := .ite h.set (.ite h.set h.set)

theorem VaultStands.measure {x : Slot} : VaultStands s₀ (s.measure i j x) := by
  unfold State.measure
  extract_lets nodes ty
  split
  · exact h
  · extract_lets aOk _ _ _ others res ds _ _ _ _ s₁
    have measured : VaultStands s₀ s₁ := by
      refine .ite ?_ ?_
      · exact .set (h.set.foldl fun g => g.measNode)
      · exact h.set.foldl fun g => g.set
    refine .ite (.ite (.notify ?_) ?_) (.ite measured.notify measured)
    · exact .reportIslands measured.updateIslands
    · exact .reportIslands measured.updateIslands

theorem VaultStands.statusBits {x : Slot} : VaultStands s₀ (s.statusBits i j x) := by
  unfold State.statusBits
  dsimp only
  refine h.foldl fun h => ?_
  split
  · exact h.branchReport
  · exact h

theorem VaultStands.armTake {x : Slot} : VaultStands s₀ (s.armTake i j x) := by
  unfold State.armTake
  refine .ite h.set ?_
  extract_lets _ _ before _ fresh _ _ s₁
  have h₁ : VaultStands s₀ s₁ := .ite h.set.statusBits.set.needRecompute h.set.statusBits.set
  exact (VaultStands.ite h₁ (.ite (VaultStands.ite h₁.recomputeDone h₁).recomputeDone (.ite h₁.recomputeDone h₁))).measure

theorem VaultStands.balJudge {p : List DWord} : VaultStands s₀ (s.balJudge i j p) := by
  unfold State.balJudge
  extract_lets r tput tau x above below _ k up _ s₁
  have h₁ : VaultStands s₀ s₁ := .ite h.set.alarmT h.set
  exact .ite h₁.set.alarmT h₁

theorem VaultStands.balFirst : VaultStands s₀ (s.balFirst i j k) := by
  unfold State.balFirst
  split
  · refine .ite ?_ h
    dsimp only
    split
    · exact h.set.balJudge
    · exact h.set
  · exact h

theorem VaultStands.recNext : VaultStands s₀ (s.recNext i j k) := by
  unfold State.recNext
  dsimp only
  split
  · exact .ite h.set h
  · exact h

theorem VaultStands.balTake : VaultStands s₀ (s.balTake i j k) := by
  unfold State.balTake
  split
  · exact .ite (.ite h.recNext.set h.recNext) h
  · exact h

theorem VaultStands.balTakeAll : VaultStands s₀ (s.balTakeAll i j) := .ite (h.foldl fun h => h.balTake) h
theorem VaultStands.balCommit : VaultStands s₀ (s.balCommit i j) := h.alarmT.set

theorem VaultStands.branchStart {d : BranchDef} : VaultStands s₀ (s.branchStart i d j) := by
  unfold State.branchStart
  dsimp only
  split
  · exact h.set
  · exact h.set.branchReport
  · refine .ite h.set.branchReport ?_
    split
    · exact h.set.branchReport
    · exact h.set
  · refine .ite h.set.branchReport ?_
    split
    · exact h.set.branchReport
    · exact h.set
  · exact h.set

theorem VaultStands.armStart : VaultStands s₀ s.armStart :=
  (h.foldl fun h => h.branchStart).set.needRecompute.foldl fun h => .ite h h.set

theorem VaultStands.armCommit {branches nodes nets : List Nat} : VaultStands s₀ (s.armCommit branches nodes nets i) := by
  unfold State.armCommit
  refine .ite h ?_
  extract_lets _ _ s₁
  have h₁ : VaultStands s₀ s₁ := by
    dsimp only [s₁]
    refine .foldl (.foldl (h.foldl fun h => ?_) fun h => h.set) fun h => h.set
    dsimp only
    split
    · exact h.alarmT.set.branchStart
    · exact h.alarmT.set
  exact .ite h₁.needRecompute h₁

/-! #### Filters and converters -/

theorem VaultStands.fltCommit {channels : List Nat} : VaultStands s₀ (s.fltCommit channels) := h.foldl fun h => h.set
theorem VaultStands.refreshExc : VaultStands s₀ s.refreshExc := (h.foldl fun h => .ite h h.set).set

theorem VaultStands.endCycle : VaultStands s₀ (s.endCycle i) := by
  unfold State.endCycle
  split
  · exact .ite h.set h.set
  · exact h

theorem VaultStands.cnvCommit {selGain preset avg : List Nat} : VaultStands s₀ (s.cnvCommit selGain preset avg v) := by
  unfold State.cnvCommit
  extract_lets _ s₁
  have h₁ : VaultStands s₀ s₁ := (h.foldl fun h => h.endCycle).foldl fun h => h.set
  exact (VaultStands.ite h₁.set.refreshExc h₁).fltCommit

/-! #### Capture rows and logic -/

theorem VaultStands.edges {row : CapRow} : VaultStands s₀ (s.edges i row).1 := by
  unfold State.edges
  dsimp only
  refine h.foldlFst fun h => .iteFst ?_ h
  split
  · exact h.set
  · exact h

theorem VaultStands.appendRow {row : CapRow} : VaultStands s₀ (s.appendRow i row) := by
  unfold State.appendRow
  dsimp only
  split
  · exact h.set
  · exact h.set
  · exact h.set
  · split
    · exact h.set
    · exact h.set
  · exact h.set

theorem VaultStands.settle {causes : List Nat} : VaultStands s₀ (s.settle i j causes) :=
  .ite h.set.capFires.endRecordTo h.set.capFires

theorem VaultStands.newRow {row : CapRow} : VaultStands s₀ (s.newRow i row) := by
  unfold State.newRow
  dsimp only
  exact (h.foldl fun h => h.appendRow.settle).appendRow.edges.settle

theorem VaultStands.lateRow {row : CapRow} : VaultStands s₀ (s.lateRow i row) := by
  unfold State.lateRow
  dsimp only
  exact .ite h.set (.ite h h.set.edges.settle)

theorem VaultStands.loseRow : VaultStands s₀ (s.loseRow i j) := .ite h.set (.ite h.set.endRecordTo h.set)

theorem VaultStands.rowTaken : VaultStands s₀ (s.rowTaken i j) := by
  unfold State.rowTaken
  refine .ite ?_ h
  split
  · exact h.set
  · exact h

theorem VaultStands.capTake : VaultStands s₀ (s.capTake i j v) := by
  unfold State.capTake
  refine .ite ?_ h
  split
  · exact .ite h.rowTaken.lateRow (.ite h.rowTaken.loseRow h.rowTaken.newRow)
  · exact h

theorem VaultStands.capStop : VaultStands s₀ (s.capStop i j) := .ite h h.set.endRecordTo.set
theorem VaultStands.capStopAll : VaultStands s₀ (s.capStopAll i) := h.foldl fun h => h.capStop
theorem VaultStands.capCommit {commit : Word} : VaultStands s₀ (s.capCommit i commit) := h.capStop.set

theorem VaultStands.stationsStart {im : Image} : VaultStands s₀ (s.stationsStart im) :=
  (h.foldl fun h => h.set.alarmT).foldl fun h => .ite (.ite h.set.stationLost h.set) h.set

theorem VaultStands.lgcStart {im : Image} : VaultStands s₀ (s.lgcStart im) := h.set.stationsStart

theorem VaultStands.lgcResume : VaultStands s₀ s.lgcResume := by
  unfold State.lgcResume
  split
  · exact .ite (.ite h.lgcStart h.set) h
  · exact h

theorem VaultStands.lgcSuspend : VaultStands s₀ s.lgcSuspend := .ite (.ite h.set h.set) h

/-! #### Custody points -/

theorem VaultStands.setPoint {x : Point} : VaultStands s₀ (s.setPoint i x) := h.set
theorem VaultStands.register {amount : Rat} : VaultStands s₀ (s.register i j amount) := h.set

theorem VaultStands.gapRecords : VaultStands s₀ (s.gapRecords i j k l m) := by
  induction i generalizing s l m with
  | zero => exact h
  | succ i ih => exact ih h.logCus

theorem VaultStands.gapNow : VaultStands s₀ (s.gapNow i j k l) := .ite h.set.gapRecords h
theorem VaultStands.gapMerge : VaultStands s₀ (s.gapMerge i j k l) := h.set

theorem VaultStands.gapClose : VaultStands s₀ (s.gapClose i) := by
  unfold State.gapClose
  dsimp only
  split
  · exact h
  · exact h.gapRecords

theorem VaultStands.boundaryFirst : VaultStands s₀ (s.boundaryFirst i) := .ite h h.taskWaits

theorem VaultStands.absorb : VaultStands s₀ (s.absorb i j) := by
  unfold State.absorb
  dsimp only
  refine .set (h.foldl fun h => ?_)
  split
  · exact h.set
  · exact h

theorem VaultStands.closeInterval : VaultStands s₀ (s.closeInterval i j k) :=
  .ite h.boundaryFirst.gapClose.set.absorb.prerequisiteDone h.boundaryFirst.gapClose.set.absorb.prerequisiteDone

theorem VaultStands.boundaryDone : VaultStands s₀ (s.boundaryDone i) := by
  unfold State.boundaryDone
  split
  · exact h
  · refine .ite h ?_
    extract_lets _ _ _ s₁
    have h₁ : VaultStands s₀ s₁ := (VaultStands.ite h.set h.set.logCus).alarmT
    exact .ite h₁.set.notify h₁

theorem VaultStands.boundariesDone : VaultStands s₀ s.boundariesDone := h.foldl fun h => h.boundaryDone
theorem VaultStands.bookHole : VaultStands s₀ (s.bookHole i j) := .ite h (VaultStands.ite h h.gapMerge.count2.setPoint).setPoint

theorem VaultStands.closeDue : VaultStands s₀ (s.closeDue i j k) := by
  induction i generalizing s with
  | zero => exact h
  | succ i ih => exact .ite (ih h.bookHole.closeInterval) h

theorem VaultStands.directionDue : VaultStands s₀ (s.directionDue i) := by
  unfold State.directionDue
  dsimp only
  split
  · exact h
  · exact .ite h h.setPoint.logCus.alarmT.count2

theorem VaultStands.endPending : VaultStands s₀ (s.endPending i j) := h.set.foldl fun h => h.gapNow
theorem VaultStands.stepDone {y : Ahead} : VaultStands s₀ (s.stepDone i j y) := h.set

theorem VaultStands.bookStep {qty : StepQty} : VaultStands s₀ (s.bookStep i j k qty) := by
  unfold State.bookStep
  extract_lets _ _ s₁ x stop step late
  have h₁ : VaultStands s₀ s₁ := (VaultStands.ite h.directionDue h.directionDue.closeDue).endPending
  split
  · extract_lets _ s₁
    have h₁ : VaultStands s₀ s₁ := (VaultStands.ite h₁.setPoint.gapMerge h₁.setPoint).stepDone.count2
    exact .ite h₁.count2 h₁
  · exact h₁.setPoint.stepDone
  · extract_lets _ units _ s₁
    have h₁ : VaultStands s₀ s₁ := (h₁.setPoint.foldl fun h => h.register).stepDone
    exact .ite h₁.count2 h₁

theorem VaultStands.cusTake {x : Slot} : VaultStands s₀ (s.cusTake i j x) := .ite h.bookStep.closeDue.boundariesDone h
theorem VaultStands.cusTakeAll {x : Slot} : VaultStands s₀ (s.cusTakeAll i j x) := h.foldl fun h => .ite h.cusTake h
theorem VaultStands.cusCommit : VaultStands s₀ s.cusCommit := h.foldl fun h => .ite (.ite h.set h.set) (.ite h.set h)
theorem VaultStands.pointChanged : VaultStands s₀ (s.pointChanged i) := .ite h h.set
theorem VaultStands.cusOff : VaultStands s₀ s.cusOff := h.foldl fun h => .ite h.bookHole.set h.bookHole

theorem VaultStands.boundariesMissed : VaultStands s₀ (s.boundariesMissed i j k l) := by
  induction j generalizing s k with
  | zero => exact h
  | succ j ih => exact .ite (ih h.prerequisiteDone) h

theorem VaultStands.cusOn : VaultStands s₀ s.cusOn := h.foldl fun h => .ite h.gapClose.boundariesMissed.set h.set

/-! #### A configuration comes into force (R62) -/

theorem VaultStands.tcpFree {owners : List Nat} : VaultStands s₀ (s.tcpFree i owners) := h.foldl fun h => h.tcpEnd

theorem VaultStands.sourceCommit {r : State} : VaultStands s₀ (r.sourceCommit s i j) := by
  unfold State.sourceCommit
  dsimp only
  split
  · refine .set (.tcpFree ?_)
    split
    · exact .ite (VaultStands.ite h.set.alarmT h.set).c37SendTo (.ite h.set.alarmT h.set)
    · exact .ite h.set.alarmT h.set
  · exact .ite (VaultStands.ite h.set.alarmT h.set).tcpFree.set.askCfg (VaultStands.ite h.set.alarmT h.set).tcpFree.set

/-- A configuration that comes into force leaves the vault and the seal. -/
theorem VaultStands.applyConfig {c : Config} {srcs : List Nat} {wrote : List (Nat × Nat)} :
    VaultStands s₀ (s.applyConfig c i srcs wrote) := by
  unfold State.applyConfig
  extract_lets ch _ pods reshaped changed drains _ _ _ modes pcts _ _ banks _ _ fds _ mts _ _ bals s₁
  have h₁ : VaultStands s₀ s₁ :=
    ((((((h.set.foldl fun h => h.sourceCommit).foldl fun h => h.portCommit).cnvCommit.foldl fun h => h.set).foldl fun h =>
      h.podCommit).foldl fun h => h.fdCommit).foldl fun h => h.mtCommit).armCommit.foldl fun h => h.balCommit
  exact (VaultStands.ite h₁.cusCommit h₁).foldl fun h => h.capCommit

/-! #### Measuring stops and starts (R414, R415) -/

theorem VaultStands.feedFinals : VaultStands s₀ s.feedFinals := h.foldl fun h => h.cusTakeAll.balTakeAll

theorem VaultStands.feedFirst : VaultStands s₀ (s.feedFirst i j) := by
  unfold State.feedFirst
  extract_lets _ s₁
  have h₁ : VaultStands s₀ s₁ := by
    dsimp only [s₁]
    refine (h.foldl fun h => h.fdFirst).foldl fun h => .ite ?_ h
    split
    · exact .ite h.armTake h
    · exact h
  exact (VaultStands.ite (h₁.foldl fun h => h.balFirst) h₁).foldl fun h => .ite h.capTake h

theorem VaultStands.finalsNow : VaultStands s₀ s.finalsNow :=
  (VaultStands.ite (h.alnFinalise.foldl fun h => h.feedFirst) h.alnFinalise).feedFinals

theorem VaultStands.stopMeasuring : VaultStands s₀ s.stopMeasuring := h.finalsNow.lgcSuspend.capStopAll.cusOff
theorem VaultStands.enterConfig : VaultStands s₀ s.enterConfig := (VaultStands.ite h.stopMeasuring h).set

theorem VaultStands.startMeasuring : VaultStands s₀ s.startMeasuring := by
  unfold State.startMeasuring
  refine .lgcResume (.armStart (.cusOn (h.foldl fun g => ?_)))
  exact .ite g.set g

theorem VaultStands.enterMeasuring {d : DevState} : VaultStands s₀ (s.enterMeasuring d) := .ite h.set h.set.startMeasuring
theorem VaultStands.enterRun : VaultStands s₀ s.enterRun := h.enterMeasuring.set

/-- The end of the hold in SAFE leaves the vault and the seal. -/
theorem VaultStands.leaveHold : VaultStands s₀ s.leaveHold := .ite h.set.enterRun h.set.enterConfig

end

end Operations

end Sys2Proof.Laws
end

section
/-! SUPPORT. The COMMIT of the vault's journal (R258, R360, R363): what each operation writes, and that nothing after it takes that
back. -/

namespace Sys2Proof.Laws

open Sys2Proof.Machine

section Commits

variable {s₀ s a : State} {j : Journal} {k p n : Nat}

/-! ### Slots that change (R350) -/

/-- The vault but for its slots and the latch. -/
def besidesKeys (s : State) : Vlt := { s.vlt with slot := [], latch := false }

theorem besidesKeys_changeSlot {x : KeySlot} : besidesKeys (s.changeSlot k x) = besidesKeys s :=
  List.foldlRecOn (motive := fun t => besidesKeys t = besidesKeys s) (s.descendants k) _ rfl fun _ same _ _ => same

/-- A slot that has changed holds what it was given, its generation advanced. -/
theorem keySlot_changeSlot {x : KeySlot} :
    (s.changeSlot k x).keySlot k = { x with gen := ((s.keySlot k).gen + 1) % 65536, changed := some s.now } :=
  AMap.getD_put_self_of_ne _ _ (by simp [KeySlot.init])

theorem VaultStands.keySlot (h : VaultStands s₀ s) : s.keySlot k = s₀.keySlot k :=
  congrArg (fun v : Vlt => v.slot.getD k KeySlot.init) h.1

theorem VaultStands.besidesKeys (h : VaultStands s₀ s) : besidesKeys s = besidesKeys s₀ :=
  congrArg (fun v : Vlt => { v with slot := [], latch := false }) h.1

/-! ### The records of an operation (R359, R377) -/

theorem keyAccepted_kept (s : State) (j : Journal) : Kept s (s.keyAccepted j) := by
  unfold State.keyAccepted
  dsimp only
  split
  · exact (count_keptLogs _ _ _ _).1.trans (admitMet_kept _ _ _ _ _ _ _)
  · exact (count_keptLogs _ _ _ _).1.trans (logEv_kept _ _ _ _ _)

theorem sealLog_kept (s : State) (code par : Nat) : Kept s (s.sealLog code par) := by
  have admitted := admitMet_kept s code 9 1 false s.now (BitVec.ofNat 64 par)
  unfold State.sealLog
  dsimp only
  split
  · exact admitted
  · exact admitted.trans (count_keptLogs _ _ _ _).1

theorem VaultStands.sealLog (h : VaultStands s₀ s) {code par : Nat} : VaultStands s₀ (s.sealLog code par) :=
  h.kept (sealLog_kept _ _ _)

/-! ### The seal (R258, R260) -/

theorem VaultStands.cusUnfreeze (h : VaultStands s₀ s) :
    VaultStands { s₀ with cus := { s₀.cus with frozen := false } } s.cusUnfreeze := by
  obtain ⟨vlt, sealed, ctr, -⟩ := h
  unfold State.cusUnfreeze
  split
  · have thawed : VaultStands { s₀ with cus := { s₀.cus with frozen := false } } { s with cus := { s.cus with
        frozen := false, regs := s.cus.snapshot.getD s.cus.regs, snapshot := none } } := ⟨vlt, sealed, ctr, rfl⟩
    exact .set (thawed.foldl fun h => h.gapNow)
  · next running => exact ⟨vlt, sealed, ctr, by simpa using running⟩

theorem applySeal_stands {c : DWord} :
    VaultStands { s with cus := { s.cus with sealed := true, frozen := false } } (s.applySeal c) := by
  unfold State.applySeal
  extract_lets _ hash _ s₁
  have set : VaultStands { s with cus := { s.cus with sealed := true } }
      { s with cus := { s.cus with sealed := true, sealHash := hash } } := ⟨rfl, rfl, rfl, rfl⟩
  have logged : VaultStands { s with cus := { s.cus with sealed := true } } s₁ := by
    refine .foldl ?_ fun h => h.sealLog
    exact set.sealLog
  clear_value s₁
  exact logged.cusUnfreeze

/-! ### Registers cleared (R258) -/

/-- Filtering a map by its keys leaves the entries at the keys that pass. -/
theorem get?_filter_keys {β : Type} (m : AMap β) (f : Nat → Bool) (key : Nat) :
    AMap.get? (m.filter fun r => f r.1) key = if f key then m.get? key else none := by
  induction m with
  | nil => simp [AMap.get?]
  | cons r m ih =>
    obtain ⟨i, x⟩ := r
    rw [List.filter_cons]
    by_cases here : i = key
    · subst here
      cases kept : f i <;> simp_all [AMap.get?]
    · cases kept : f i <;> simp_all [AMap.get?]

/-- The state with a point's registers left out, the snapshot's included. -/
abbrev registersLeftOut (t : State) (p : Nat) : State :=
  let keep := fun (m : AMap Reg) => m.filter fun r => r.1 / 8 != p
  { t with cus := { t.cus with regs := keep t.cus.regs, prov := keep t.cus.prov, snapshot := t.cus.snapshot.map keep } }

/-- A point is cleared once its used registers have been logged. -/
theorem clearPoint_eq (s : State) (p : Nat) : ∃ t, Kept s t ∧ s.clearPoint p = (registersLeftOut t p).pointChanged p :=
  ⟨_, .fold (fun _ _ => sealLog_kept _ _ _) _ _, rfl⟩

theorem pointChanged_regsOf (prov : Bool) : (s.pointChanged p).regsOf prov = s.regsOf prov := by
  unfold State.pointChanged
  dsimp only
  split
  · rfl
  · rfl

theorem clearPoint_regsOf (prov : Bool) :
    (s.clearPoint p).regsOf prov = (s.regsOf prov).filter fun r => r.1 / 8 != p := by
  obtain ⟨t, logged, cleared⟩ := clearPoint_eq s p
  rw [cleared, pointChanged_regsOf, State.regsOf, State.regsOf, ← logged.cus]
  cases prov
  · rfl
  · rfl

theorem clearPoint_reg (prov : Bool) (q : Nat) (known : n < 8) :
    (s.clearPoint q).reg prov p n = if p = q then Reg.init else s.reg prov p n := by
  have place : (8 * p + n) / 8 = p := by omega
  unfold State.reg AMap.getD
  rw [clearPoint_regsOf, get?_filter_keys (f := fun i => i / 8 != q), place]
  by_cases here : p = q
  · simp [here]
  · simp [here]

theorem clearPoint_fold_reg (prov : Bool) (known : n < 8) (l : List Nat) :
    (l.foldl State.clearPoint s).reg prov p n = if p ∈ l then Reg.init else s.reg prov p n := by
  induction l generalizing s with
  | nil => rfl
  | cons q l ih =>
    rw [List.foldl_cons, ih, clearPoint_reg prov q known]
    by_cases later : p ∈ l
    · simp [later]
    · simp [later]

theorem VaultStands.clearPoint (h : VaultStands s₀ s) : VaultStands s₀ (s.clearPoint p) := by
  obtain ⟨t, logged, cleared⟩ := clearPoint_eq s p
  rw [cleared]
  exact (h.kept logged).set.pointChanged

/-! ### What each operation applies -/

theorem VaultStands.applySealed (h : VaultStands s₀ s) {items : List (Nat × Nat × List Word)} :
    VaultStands s₀ (s.applySealed items) := by
  unfold State.applySealed
  extract_lets l _ kept points _ srcs _ _ s₁ _ _ after
  have h₁ : VaultStands s₀ s₁ := (h.foldl fun h => h.sealLog).applyConfig.set
  exact (VaultStands.ite h₁.set h₁).foldl fun h => h.pointChanged

theorem applyVault_key {x : KeySlot} (op : j.op = .key n k x) :
    VaultStands ((s.setCtrs j.counter).changeSlot k x) (s.applyVault j) := by
  simp only [State.applyVault, op]
  exact .kept (.refl _) (keyAccepted_kept _ _)

/-- A slot after its key has been taken away: no secret, neither VALID nor ORPHAN. -/
abbrev keyGone (x : KeySlot) : KeySlot := { x with attr := x.attr &&& ~~~ (0x1800 : Word), secret := [] }

theorem applyVault_invalidate (op : j.op = .invalidate k) :
    VaultStands ((s.setCtrs j.counter).changeSlot k (keyGone (s.keySlot k))) (s.applyVault j) := by
  simp only [State.applyVault, op]
  exact .kept (VaultStands.refl _).set (keyAccepted_kept _ _)

/-- The root key as REKEY_ROOT loads it. -/
abbrev rootKey (r : List Byte) : KeySlot := { KeySlot.init with attr := 0x1410, ty := 5, secret := r }

/-- The state with the tamper latch clear. -/
abbrev unlatched (s : State) : State := { s with vlt := { s.vlt with latch := false } }

theorem besidesKeys_unlatched : besidesKeys (unlatched s) = besidesKeys s := rfl

theorem keySlot_unlatched : (unlatched s).keySlot k = s.keySlot k := rfl

theorem applyVault_rekey {r : List Byte} (op : j.op = .rekey r) :
    VaultStands (unlatched ((s.setCtrs j.counter).changeSlot 1 (rootKey r))) (s.applyVault j) := by
  simp only [State.applyVault, op]
  split
  · exact ((VaultStands.refl _).alarmT.kept (keyAccepted_kept _ _)).leaveHold
  · exact (VaultStands.refl _).alarmT.kept (keyAccepted_kept _ _)

theorem applyVault_seal (op : j.op = .seal) :
    VaultStands { s.setCtrs j.counter with cus := { s.cus with sealed := true, sealCtr := j.counter, frozen := false } }
      (s.applyVault j) := by
  simp only [State.applyVault, op]
  exact applySeal_stands

theorem applyVault_break (op : j.op = .break_) :
    VaultStands { s.setCtrs j.counter with cus := { s.cus with sealed := false, sealCtr := j.counter } } (s.applyVault j) := by
  simp only [State.applyVault, op]
  exact (VaultStands.refl _).sealLog

theorem applyVault_clear {ps : List Nat} (op : j.op = .clear ps) :
    VaultStands { s.setCtrs j.counter with cus := { s.cus with sealCtr := j.counter } } (s.applyVault j) := by
  simp only [State.applyVault, op]
  exact .foldl (VaultStands.refl _).sealLog fun h => h.clearPoint

theorem applyVault_clear_reg {ps : List Nat} (op : j.op = .clear ps) (prov : Bool) (known : n < 8) (listed : p ∈ ps) :
    (s.applyVault j).reg prov p n = Reg.init := by
  simp only [State.applyVault, op]
  rw [clearPoint_fold_reg prov known, if_pos (List.mem_dedup.mpr listed)]

theorem applyVault_update {items : List (Nat × Nat × List Word)} (op : j.op = .update items) :
    VaultStands { s.setCtrs j.counter with cus := { s.cus with sealCtr := j.counter } } (s.applyVault j) := by
  simp only [State.applyVault, op]
  exact (VaultStands.refl _).applySealed

/-- Every operation sets the counter, and leaves the vault but for its slots and the latch. -/
theorem applyVault_besidesKeys : besidesKeys (s.applyVault j) = besidesKeys (s.setCtrs j.counter) := by
  match op : j.op with
  | .key n k x => exact (applyVault_key op).besidesKeys.trans besidesKeys_changeSlot
  | .rekey r => exact (applyVault_rekey op).besidesKeys.trans (besidesKeys_unlatched.trans besidesKeys_changeSlot)
  | .invalidate k => exact (applyVault_invalidate op).besidesKeys.trans besidesKeys_changeSlot
  | .seal => exact (applyVault_seal op).besidesKeys
  | .break_ => exact (applyVault_break op).besidesKeys
  | .clear ps => exact (applyVault_clear op).besidesKeys
  | .update items => exact (applyVault_update op).besidesKeys

/-! ### The COMMIT -/

/-- The state with the journal empty. -/
abbrev journalEmptied (a : State) : State := { a with vlt := { a.vlt with journal := none } }

/-- The COMMIT applies the operation; the flush of its records and the answer leave what that has written. -/
theorem journalCommit_kept (held : a.vlt.journal = some j) : Kept ((journalEmptied a).applyVault j) a.journalCommit := by
  unfold State.journalCommit
  rw [held]
  dsimp only
  split
  · exact (flushLog_kept _ _).trans (answerLater_keptLogs _ _ _ _ _).1
  · exact (answerLater_keptLogs _ _ _ _ _).1

end Commits

/-- Settles O47: each operation's own lemma says which state its COMMIT leaves standing (`applyVault_…`), and no operation writes
the journal or the counter again (`applyVault_besidesKeys`). -/
theorem journalCommitApplies : Obligations.JournalCommitApplies := by
  intro s a dt j passed up power held
  have kept := journalCommit_kept held
  have runs : exec (.vaultJournalCommit dt) s = .next a.journalCommit := by
    show execVaultJournalCommit dt s = _
    rw [execVaultJournalCommit, passed]
    exact congrArg Host.Outcome.next (if_pos (by simp [up, power]))
  have rest : besidesKeys a.journalCommit = besidesKeys ((journalEmptied a).setCtrs j.counter) :=
    (VaultStands.kept (.refl _) kept).besidesKeys.trans applyVault_besidesKeys
  refine ⟨a.journalCommit, runs, congrArg Vlt.journal rest, congrArg Vlt.ctrPlinth rest, congrArg Vlt.ctrMram rest, ?key, ?rekey,
    ?invalidate, ?sealing, ?breaking, ?clear⟩
  case key =>
    intro n k x op
    rw [((applyVault_key op).kept kept).keySlot, keySlot_changeSlot]
    exact ⟨rfl, rfl, rfl, rfl, rfl⟩
  case rekey =>
    intro r op
    have stands := (applyVault_rekey op).kept kept
    rw [stands.keySlot, keySlot_unlatched, keySlot_changeSlot, stands.1]
    exact ⟨rfl, rfl, by simp [KeySlot.usable, KeySlot.has]⟩
  case invalidate =>
    intro k op
    rw [((applyVault_invalidate op).kept kept).keySlot, keySlot_changeSlot]
    exact ⟨rfl, by simp [KeySlot.usable, KeySlot.has]⟩
  case sealing =>
    intro op
    obtain ⟨-, sealed, ctr, frozen⟩ := (applyVault_seal op).kept kept
    exact ⟨sealed, ctr, frozen⟩
  case breaking =>
    intro op
    obtain ⟨-, sealed, ctr, -⟩ := (applyVault_break op).kept kept
    exact ⟨sealed, ctr⟩
  case clear =>
    intro ps op p listed n known
    simp only [State.reg, State.regsOf, kept.cus]
    exact ⟨applyVault_clear_reg op false known listed, applyVault_clear_reg op true known listed⟩

end Sys2Proof.Laws
end

section
/-! SUPPORT. The recorders: what reading a recorder returns after the operations on it, and what its rows, edges and timers bring
about (R304 to R316). -/

namespace Sys2Proof.Laws

open Sys2Proof.Machine

/-! ### Reading a recorder -/

section Reading

variable {s t : State} {n : Nat}

@[simp] theorem recorder_setRec (r : Rec) : (s.setRec n r).recorder n = r := AMap.getD_set_self _ _ _ _

theorem Kept.recorder (h : Kept s t) (n : Nat) : t.recorder n = s.recorder n := congrArg (fun u => u.recorder n) h.1

/-- Taking a slot's first edition leaves the recorders (R22). -/
theorem recorder_rowTaken (row : Nat) : (s.rowTaken n row).recorder n = s.recorder n := by
  unfold State.rowTaken
  split
  · split
    · rfl
    · rfl
  · rfl

theorem captureDone_keptLogs (s : State) (n cause flags id trig pre post : Nat) :
    KeptLogs s (s.captureDone n cause flags id trig pre post) := notify_keptLogs s _ _ _ _

/-- The record being written, if there is one, joins the records held (R316). -/
theorem length_recs_endRecordTo (flags st : Nat) : ((s.endRecordTo n flags st).recorder n).recs.length =
    (s.recorder n).recs.length + (s.recorder n).cur.toList.length := by
  unfold State.endRecordTo
  dsimp only
  split
  next unwritten => simp [unwritten]
  next c written =>
    rw [((count2_keptLogs _ _ _ _).trans (captureDone_keptLogs _ _ _ _ _ _ _ _)).1.recorder n]
    simp [written]

/-! ### Disarming (R319) -/

theorem st_capStop_le (flags : Nat) : ((s.capStop n flags).recorder n).st ≤ 1 := by
  unfold State.capStop
  dsimp only
  split
  · omega
  · simp

theorem length_recs_capStop (flags : Nat) (armed : 2 ≤ (s.recorder n).st) : ((s.capStop n flags).recorder n).recs.length =
    (s.recorder n).recs.length + (s.recorder n).cur.toList.length := by
  unfold State.capStop
  dsimp only
  rw [if_neg (by omega)]
  simp [length_recs_endRecordTo]

end Reading

/-! ### Rows (R304, R306, R309) -/

section Rows

variable {s a : State} {dt n row : Nat} {es : List Entry} {full : Bool}

theorem exec_capRow (passed : s.advance dt = a) : exec (.capRow dt n row full) s = .next (a.capTake n row full) :=
  congrArg (fun a : State => Host.Outcome.next (a.capTake n row full)) passed

/-- Only a recorder that is pre-filling, armed, writing a record or rearming takes rows, and only those that its clock has. -/
theorem capTake_of_idle (idle : (a.recorder n).st < 2 ∨ 5 < (a.recorder n).st ∨ a.rowEntries n row = none) :
    a.capTake n row full = a := by
  unfold State.capTake
  split
  next works =>
    have st : (a.recorder n).st ∈ [2, 3, 4, 5] := by simpa using (Bool.and_eq_true_iff.mp works).2
    obtain low | high | none := idle
    · simp at st
      omega
    · simp at st
      omega
    · rw [none]
  · rfl

variable (runs : a.capRuns = true) (source : a.capKind n ≠ 0) (least : 2 ≤ (a.recorder n).st) (most : (a.recorder n).st ≤ 5)
  (entries : a.rowEntries n row = some es)

include runs source least most entries

/-- A row that the recorder's clock has is written in its place, lost, or appended. -/
theorem capTake_of_entries : a.capTake n row full =
    if (a.recorder n).lastRow.any (fun l => decide (row ≤ l)) then (a.rowTaken n row).lateRow n { t := row, e := es }
    else if full then (a.rowTaken n row).loseRow n row else (a.rowTaken n row).newRow n { t := row, e := es } := by
  have st : (a.recorder n).st ∈ [2, 3, 4, 5] := by
    simp only [List.mem_cons, List.not_mem_nil]
    omega
  unfold State.capTake
  rw [if_pos (by simpa [runs, source] using st), entries]
  dsimp only
  rw [recorder_rowTaken]

theorem capTake_of_behind (behind : (a.recorder n).lastRow.any (fun l => decide (row ≤ l)) = true) :
    a.capTake n row full = (a.rowTaken n row).lateRow n { t := row, e := es } := by
  rw [capTake_of_entries runs source least most entries, if_pos behind]

variable (ahead : (a.recorder n).lastRow.any (fun l => decide (row ≤ l)) = false)

include ahead

theorem capTake_of_room : a.capTake n row false = (a.rowTaken n row).newRow n { t := row, e := es } := by
  rw [capTake_of_entries runs source least most entries, ahead]
  rfl

theorem capTake_of_full : a.capTake n row true = (a.rowTaken n row).loseRow n row := by
  rw [capTake_of_entries runs source least most entries, ahead]
  rfl

end Rows

/-! ### Edges and timers (R312, R314, R316) -/

section Timers

variable {s a : State} {dt n : Nat}

theorem exec_dinTriggerEdge {land stamp : Nat} {rising : Bool} (passed : s.advance dt = a) (known : land < 8) :
    exec (.dinTriggerEdge dt land rising stamp) s =
      .next (({ a with lands := { a.lands with din := a.lands.din.put false land rising } } : State).capEvent 1
        (fun k => if k = land then some rising else none) stamp) := by
  subst passed
  exact congrArg Host.Outcome.next (if_pos (by simp [known]))

/-- The instant from which cause 17 fires (R314). -/
abbrev autoFrom (a : State) (n : Nat) : Nat := (a.recorder n).autoAt + 1000000 * a.parN Par.CAP.AUTO_TIMEOUT_MS n

theorem exec_capAutoTimeout_due (passed : s.advance dt = a) (runs : a.capRuns = true)
    (watched : a.parN Par.CAP.AUTO_TIMEOUT_MS n ≠ 0) (armed : (a.recorder n).st = 2 ∨ (a.recorder n).st = 3)
    (untriggered : (a.recorder n).waiting = []) (due : autoFrom a n ≤ a.now) :
    exec (.capAutoTimeout dt n) s =
      .next (((a.setRec n { a.recorder n with autoAt := a.now }).count2 0x0B05 (n + 1) 1).capFire n (a.now, 17)) := by
  show execCapAutoTimeout dt n s = _
  rw [execCapAutoTimeout, passed]
  exact congrArg Host.Outcome.next (if_pos (by simp [runs, watched, armed, untriggered, due]))

theorem exec_capAutoTimeout_early (passed : s.advance dt = a) (early : a.now < autoFrom a n) :
    exec (.capAutoTimeout dt n) s = .next a := by
  show execCapAutoTimeout dt n s = _
  rw [execCapAutoTimeout, passed]
  exact congrArg Host.Outcome.next (if_neg (by simp [early]))

/-- The instant from which a recorder that has ended a record is armed again (R316). -/
abbrev rearmFrom (a : State) (n : Nat) : Nat := (a.recorder n).rearmAt + 1000000 * a.parN Par.CAP.REARM_MS n

theorem exec_capRearmEnd_due (passed : s.advance dt = a) (runs : a.capRuns = true) (rearming : (a.recorder n).st = 5)
    (due : rearmFrom a n ≤ a.now) : exec (.capRearmEnd dt n) s = .next (a.setRec n { a.recorder n with
      st := if (a.recorder n).pre ≤ (a.recorder n).rows.length then 3 else 2 }) := by
  show execCapRearmEnd dt n s = _
  rw [execCapRearmEnd, passed]
  exact congrArg Host.Outcome.next (if_pos (by simp [runs, rearming, due]))

theorem exec_capRearmEnd_early (passed : s.advance dt = a) (early : a.now < rearmFrom a n) :
    exec (.capRearmEnd dt n) s = .next a := by
  show execCapRearmEnd dt n s = _
  rw [execCapRearmEnd, passed]
  exact congrArg Host.Outcome.next (if_neg (by simp [early]))

end Timers

/-- Settles O51: a row goes where `capTake_of_entries` says; the edge and each timer act on their guards. -/
theorem recordersRunBetweenCommands : Obligations.RecordersRunBetweenCommands := by
  intro s a dt n passed runs
  refine ⟨?rows, ?idle, ?edge, ?auto, ?rearm⟩
  case rows =>
    intro row es source least most entries
    refine ⟨fun full behind => ?_, fun ahead => ?_, fun ahead => ?_⟩
    · rw [exec_capRow passed, capTake_of_behind runs source least most entries behind]
    · rw [exec_capRow passed, capTake_of_room runs source least most entries ahead]
    · rw [exec_capRow passed, capTake_of_full runs source least most entries ahead]
  case idle =>
    intro row full idle
    rw [exec_capRow passed, capTake_of_idle idle]
  case edge =>
    intro land rising stamp known
    exact exec_dinTriggerEdge passed known
  case auto =>
    intro watched armed untriggered
    exact ⟨exec_capAutoTimeout_due passed runs watched armed untriggered, exec_capAutoTimeout_early passed⟩
  case rearm =>
    intro rearming
    exact ⟨exec_capRearmEnd_due passed runs rearming, exec_capRearmEnd_early passed⟩

end Sys2Proof.Laws
end

section
/-! SUPPORT. What a recorder answers its commands (R318 to R323). -/

namespace Sys2Proof.Laws

open Sys2Proof.Machine

section CaptureCommands

variable {s t : State} {q : Req} {dt role : Nat}

/-! ### CAP_ARM (R319) -/

/-- The recorder that CAP_ARM and CAP_RELEASE name. -/
abbrev armNamed (q : Req) : Nat := q.bits 4 2 0

/-- A number of rows or records that CAP_ARM gives, which a ROLLING recorder does not take. -/
abbrev armGiven (t : State) (q : Req) (k : Nat) : Nat := if t.capMode (armNamed q) = 2 then 0 else (q.w k).toNat

/-- The rows that a record takes after CAP_ARM. -/
abbrev armRows (t : State) (q : Req) : Nat := armGiven t q 5 + 1 + armGiven t q 6

/-- The recorder as CAP_ARM arms it. -/
abbrev armedRec (t : State) (q : Req) : Rec :=
  let r := t.recorder (armNamed q)
  { r with
    st := if armGiven t q 5 = 0 then 3 else 2, pre := armGiven t q 5, post := armGiven t q 6, count := armGiven t q 7, made := 0
    rows := if t.capMode (armNamed q) = 2 then r.rows else [], waiting := [], edge := [], autoAt := t.now, sinceStep := none
    armedAt := t.now, lastRow := none }

theorem capArm_of_disarmed (measures : t.measuring = true) (source : t.capKind (armNamed q) ≠ 0)
    (disarmed : (t.recorder (armNamed q)).st ≤ 1) (given : 4 ≤ q.payload.length)
    (inside : armRows t q ≤ t.capCapacity (armNamed q))
    (room : t.capMode (armNamed q) = 1 →
      rowsHeld (t.recorder (armNamed q)).recs + armRows t q ≤ t.capCapacity (armNamed q) ∧
        (t.recorder (armNamed q)).recs.length < 512) :
    t.capArm q = (t.setRec (armNamed q) (armedRec t q), ok []) := by
  have idle : ¬((t.recorder (armNamed q)).st ≠ 1 ∧ (t.recorder (armNamed q)).st ≠ 0) := by omega
  unfold State.capArm
  dsimp only
  rw [if_neg (by simp [measures]), if_neg (not_or.mpr ⟨source, idle⟩), if_neg given.not_gt, if_neg inside.not_gt, if_neg]
  rintro ⟨oneShot, full⟩
  obtain ⟨rows, records⟩ := room oneShot
  exact full.elim rows.not_gt records.not_ge

theorem capArm_of_refused (refused : t.measuring = false ∨ 2 ≤ (t.recorder (armNamed q)).st) :
    t.capArm q = (t, errId 0x010E 0) := by
  unfold State.capArm
  dsimp only
  split
  · rfl
  next measures =>
    obtain off | armed := refused
    · simp [off] at measures
    · have busy : (t.recorder (armNamed q)).st ≠ 1 ∧ (t.recorder (armNamed q)).st ≠ 0 := by omega
      exact if_pos (.inr busy)

/-! ### CAP_RELEASE (R310, R319) -/

/-- The records that CAP_RELEASE leaves. -/
abbrev unreleased (t : State) (q : Req) : List CapRec :=
  (t.recorder (armNamed q)).recs.filter (fun c => decide ((q.w 5).toNat < c.id))

/-- The recorder is FULL, and the records left give it room for another. -/
abbrev Refills (t : State) (q : Req) : Prop :=
  (t.recorder (armNamed q)).st = 6 ∧ rowsHeld (unreleased t q) +
    ((t.recorder (armNamed q)).pre + 1 + (t.recorder (armNamed q)).post) ≤ t.capCapacity (armNamed q)

/-- The recorder's state after CAP_RELEASE. -/
abbrev releasedSt (t : State) (q : Req) : Nat :=
  if Refills t q then (if (t.recorder (armNamed q)).pre = 0 then 3 else 2) else (t.recorder (armNamed q)).st

/-- What CAP_RELEASE answers: how many records it has freed. -/
abbrev releasedCount (t : State) (q : Req) : List Word :=
  [BitVec.ofNat 32 ((t.recorder (armNamed q)).recs.length - (unreleased t q).length)]

section Release

variable (mode : t.capMode (armNamed q) ≠ 2) (given : 2 ≤ q.payload.length)
  (held : ∃ c ∈ (t.recorder (armNamed q)).recs, c.id = (q.w 5).toNat)

include mode given held

theorem capRelease_of_held : t.capRelease q =
    (t.setRec (armNamed q) { t.recorder (armNamed q) with
        recs := unreleased t q, st := releasedSt t q
        autoAt := if releasedSt t q = (t.recorder (armNamed q)).st then (t.recorder (armNamed q)).autoAt else t.now },
      ok (releasedCount t q)) := by
  have found : (t.recorder (armNamed q)).recs.any (fun c => c.id == (q.w 5).toNat) = true := by simpa using held
  unfold State.capRelease
  dsimp only
  rw [if_neg mode, if_neg given.not_gt, if_neg (by simp [found])]
  simp only [decide_eq_true_eq]

theorem capRelease_of_not_refills (stays : ¬ Refills t q) : t.capRelease q =
    (t.setRec (armNamed q) { t.recorder (armNamed q) with recs := unreleased t q }, ok (releasedCount t q)) := by
  rw [capRelease_of_held mode given held, releasedSt, if_neg stays, if_pos rfl]

theorem capRelease_of_refills (again : Refills t q) : t.capRelease q =
    (t.setRec (armNamed q) { t.recorder (armNamed q) with
        recs := unreleased t q, st := if (t.recorder (armNamed q)).pre = 0 then 3 else 2, autoAt := t.now },
      ok (releasedCount t q)) := by
  have full : (t.recorder (armNamed q)).st = 6 := again.1
  have leaves : (if (t.recorder (armNamed q)).pre = 0 then 3 else 2) ≠ (t.recorder (armNamed q)).st := by
    split
    · omega
    · omega
  rw [capRelease_of_held mode given held, releasedSt, if_pos again, if_neg leaves]

end Release

/-! ### CAP_READ (R320) -/

/-- The recorder that CAP_READ, CAP_SET_REWIND and CAP_EXPORT name. -/
abbrev readNamed (q : Req) : Nat := q.bits 4 31 29

/-- The records from an ID on, as many as are asked for, each with whether it is being written. -/
abbrev askedHeaders (t : State) (q : Req) : List (CapRec × Bool) :=
  ((t.recorder (readNamed q)).all.filter (fun c => decide ((q.w 5).toNat ≤ c.1.id))).take (q.w 9).toNat

/-- The words that headers are answered with. -/
abbrev headersAnswer (t : State) (q : Req) : List Word :=
  [BitVec.ofNat 32 (askedHeaders t q).length, BitVec.ofNat 32 ((q.w 5).toNat + (askedHeaders t q).length)] ++
    (askedHeaders t q).flatMap (fun c => t.recHeader (readNamed q) c.1 c.2)

/-- Items that are the words of a list's elements: their number, the index that follows, and the words. -/
theorem itemsFrom_map {α : Type} (f : α → List Word) (l : List α) (a k : Nat) : itemsFrom (l.map f) a k =
    ok ([BitVec.ofNat 32 ((l.drop a).take k).length, BitVec.ofNat 32 (a + ((l.drop a).take k).length)] ++
      ((l.drop a).take k).flatMap f) := by
  simp [itemsFrom, List.flatMap_def]

/-- The rolling rows from a time on, after the index and as many as are asked for. -/
abbrev askedRows (t : State) (q : Req) : List CapRow :=
  (((t.rollRows (readNamed q)).filter (fun x => decide (q.dw 6 ≤ gtfOf x.t))).drop (q.w 8).toNat).take (q.w 9).toNat

/-- The words that rolling rows are answered with. -/
abbrev rowsAnswer (t : State) (q : Req) : List Word :=
  [BitVec.ofNat 32 (askedRows t q).length, BitVec.ofNat 32 ((q.w 8).toNat + (askedRows t q).length)] ++
    (askedRows t q).flatMap CapRow.words

section Read

variable (given : 6 ≤ q.payload.length) (least : 1 ≤ (q.w 9).toNat) (most : (q.w 9).toNat ≤ 4096)

include given least most

theorem capRead_headers (what : q.bits 4 3 0 = 0) (held : ∃ c ∈ (t.recorder (readNamed q)).all, c.1.id = (q.w 5).toNat) :
    t.capRead q = (t, ok (headersAnswer t q)) := by
  have found : (t.recorder (readNamed q)).all.any (fun c => c.1.id == (q.w 5).toNat) = true := by simpa using held
  unfold State.capRead
  rw [what]
  exact (if_neg (by simp)).trans ((if_neg (by omega)).trans ((if_neg most.not_gt).trans (if_pos found)))

theorem capRead_rows (what : q.bits 4 3 0 = 4) (rolls : t.capMode (readNamed q) = 2) (valid : gtfValid (q.dw 6) = true) :
    t.capRead q = (t, ok (rowsAnswer t q)) := by
  unfold State.capRead
  rw [what, ← itemsFrom_map]
  exact (if_neg (by simp [rolls])).trans ((if_neg (by omega)).trans ((if_neg most.not_gt).trans (if_neg (by simp [valid]))))

end Read

/-! ### CAP_SET_REWIND (R321) -/

theorem gtfValid_gtfNone : gtfValid gtfNone = false := by decide

/-- The row that a rewind mark is set to: the first not before the time given. -/
abbrev rewindRow (t : State) (q : Req) : Option Nat :=
  ((t.rollRows (readNamed q)).find? (fun x => decide (q.dw 5 ≤ gtfOf x.t))).map CapRow.t

section Rewind

variable (rolls : t.capMode (readNamed q) = 2) (given : 3 ≤ q.payload.length)

include rolls given

theorem setRewind_of_clear (clear : (q.w 4).getLsbD 8 = true) : t.setRewind q =
    (t.setRec (readNamed q) { t.recorder (readNamed q) with
        rewind := (t.recorder (readNamed q)).rewind.erase (q.bits 4 1 0) }, ok [0xFFFFFFFF, 0xFFFFFFFF]) := by
  unfold State.setRewind
  dsimp only
  rw [if_neg (by simp [rolls]), if_neg given.not_gt, if_pos clear]

theorem setRewind_of_time (set : (q.w 4).getLsbD 8 = false) (valid : gtfValid (q.dw 5) = true) : t.setRewind q =
    (t.setRec (readNamed q) { t.recorder (readNamed q) with
        rewind := (t.recorder (readNamed q)).rewind.set (q.bits 4 1 0) (rewindRow t q, true) },
      ok (words64 (gtfOpt (rewindRow t q)))) := by
  have timed : q.dw 5 ≠ gtfNone := by
    intro none
    rw [none, gtfValid_gtfNone] at valid
    contradiction
  unfold State.setRewind
  dsimp only
  rw [if_neg (by simp [rolls]), if_neg given.not_gt, if_neg (Bool.eq_false_iff.mp set), if_neg (by simp [valid]), if_neg timed]

end Rewind

/-! ### CAP_EXPORT (R323) -/

/-- The file that CAP_EXPORT reads of a record's section. -/
abbrev exportFile (t : State) (q : Req) (c : CapRec) (rows : List CapRow) : List Byte :=
  if (q.w 4).getLsbD 4 then t.datFile (readNamed q) rows else t.cfgFile (readNamed q) c (q.bits 4 3 0) rows

/-- The words that a piece of a file is answered with. -/
abbrev pieceAnswer (q : Req) (file : List Byte) : List Word :=
  let got := (file.drop (q.w 6).toNat).take (q.w 7).toNat
  [BitVec.ofNat 32 file.length, BitVec.ofNat 32 got.length] ++ q.carriage.pack got

theorem capExport_of_held {c : CapRec} {rows : List CapRow} (mode : t.capMode (readNamed q) ≠ 2)
    (given : 4 ≤ q.payload.length) (least : 4 ≤ (q.w 7).toNat) (most : (q.w 7).toNat ≤ 60000) (whole : (q.w 7).toNat % 4 = 0)
    (held : (t.recorder (readNamed q)).recs.find? (fun c => c.id == (q.w 5).toNat) = some c)
    (sect : t.sectionRows (readNamed q) c (q.bits 4 3 0) = some rows) :
    t.capExport q = ok (pieceAnswer q (exportFile t q c rows)) := by
  unfold State.capExport
  dsimp only
  rw [if_neg mode, if_neg given.not_gt, if_neg most.not_gt, if_neg (by omega), held]
  dsimp only
  rw [sect]

end CaptureCommands

/-- Settles O52: each command's guards let its request through; a record being written joins those held when its recorder is
disarmed (`length_recs_capStop`). -/
theorem recordersTakeTheirCommands : Obligations.RecordersTakeTheirCommands := by
  intro s t dt q role
  refine ⟨?arm, ?disarm, ?force, ?release, ?headers, ?rows, ?rewind, ?piece⟩
  case arm =>
    intro adm
    refine ⟨fun measures source disarmed given inside room => ?_, fun refused => ?_⟩
    · exact congrArg Host.Outcome.next
        (serve_ok_short adm (capArm_of_disarmed measures source disarmed given inside room) (by simp))
    · exact congrArg Host.Outcome.next (serve_turnedAway adm (capArm_of_refused refused))
  case disarm =>
    intro adm
    exact ⟨t.capStop (armNamed q) 3, congrArg Host.Outcome.next (serve_ok_short adm rfl (by simp)), st_capStop_le 3,
      length_recs_capStop 3⟩
  case force =>
    intro adm
    exact congrArg Host.Outcome.next (serve_ok_short adm rfl (by simp))
  case release =>
    intro adm n r kept again mode given held
    refine ⟨fun stays => ?_, fun refills => ?_⟩
    · exact congrArg Host.Outcome.next (serve_ok_short adm (capRelease_of_not_refills mode given held stays) (by simp))
    · exact congrArg Host.Outcome.next (serve_ok_short adm (capRelease_of_refills mode given held refills) (by simp))
  case headers =>
    intro adm what least most given all got ws held fit
    exact congrArg Host.Outcome.next (serve_ok adm (capRead_headers given least most what held) fit)
  case rows =>
    intro adm what rolls given least most valid got ws fit
    exact congrArg Host.Outcome.next (serve_ok adm (capRead_rows given least most what rolls valid) fit)
  case rewind =>
    intro adm rolls given
    refine ⟨fun clear => ?_, fun set valid => ?_⟩
    · exact congrArg Host.Outcome.next (serve_ok_short adm (setRewind_of_clear rolls given clear) (by simp))
    · exact congrArg Host.Outcome.next (serve_ok_short adm (setRewind_of_time rolls given set valid) (by simp [words64]))
  case piece =>
    intro adm mode given least most whole c rows held sect file got ws fit
    have run := capExport_of_held mode given least most whole held sect
    exact congrArg Host.Outcome.next (serve_ok adm (congrArg (Prod.mk t) run) fit)

end Sys2Proof.Laws
end

section
/-! SUPPORT. The logic engine between commands: what an alarm and the captures it triggers leave alone, a scan and its output write
(R333, R334), GOOSE repeats (R339), and the timers and acknowledgements of the stations (R340, R341). -/

namespace Sys2Proof.Laws

open Sys2Proof.Machine

/-! ### Alarms and the captures they trigger (R68, R304 to R316) -/

section Alarms

variable {s₀ s t : State}

/-- The state without what a trigger of a recorder changes: what a message changes, the recorders and PPS_OUT. -/
def untriggered (s : State) : State :=
  { settled s with cap := ⟨[]⟩, tim := { s.tim with ppsOut := false, ppsAt := 0 } }

/-- `s` is `s₀` but for what triggers change. -/
def TriggerStays (s₀ s : State) : Prop := untriggered s = untriggered s₀

theorem TriggerStays.refl (s : State) : TriggerStays s s := rfl

theorem TriggerStays.kept (h : TriggerStays s₀ s) (k : Kept s t) : TriggerStays s₀ t :=
  (congrArg untriggered k.1 : untriggered (settled t) = untriggered (settled s)).trans h

theorem TriggerStays.ite {c : Prop} [Decidable c] (h : TriggerStays s₀ s) (g : TriggerStays s₀ t) :
    TriggerStays s₀ (if c then s else t) := by
  split
  · exact h
  · exact g

theorem TriggerStays.foldl {α : Type} {f : State → α → State} {l : List α} (h : TriggerStays s₀ s)
    (step : ∀ {s a}, TriggerStays s₀ s → TriggerStays s₀ (f s a)) : TriggerStays s₀ (l.foldl f s) := by
  induction l generalizing s with
  | nil => exact h
  | cons a l ih => exact ih (step h)

theorem TriggerStays.lgc (h : TriggerStays s₀ s) : s.lgc = s₀.lgc := congrArg (fun u => u.lgc) h

theorem TriggerStays.lands (h : TriggerStays s₀ s) : s.lands = s₀.lands := congrArg (fun u => u.lands) h

theorem TriggerStays.alarms (h : TriggerStays s₀ s) : s.alarms = s₀.alarms := congrArg (fun u => u.alarms) h

theorem TriggerStays.count2 (h : TriggerStays s₀ s) {id inst n : Nat} : TriggerStays s₀ (s.count2 id inst n) :=
  h.kept (count2_keptLogs _ _ _ _).1

theorem TriggerStays.setRec (h : TriggerStays s₀ s) {n : Nat} {r : Rec} : TriggerStays s₀ (s.setRec n r) := h

theorem TriggerStays.capPulse (h : TriggerStays s₀ s) {n : Nat} : TriggerStays s₀ (s.capPulse n) := .ite h h

theorem TriggerStays.captureDone (h : TriggerStays s₀ s) {n cause flags id trig pre post : Nat} :
    TriggerStays s₀ (s.captureDone n cause flags id trig pre post) :=
  h.kept (captureDone_keptLogs _ _ _ _ _ _ _ _).1

theorem TriggerStays.endRecord (h : TriggerStays s₀ s) {n : Nat} : TriggerStays s₀ (s.endRecord n) := by
  unfold State.endRecord State.endRecordTo
  dsimp only
  split
  · exact h
  · exact h.setRec.count2.captureDone

theorem TriggerStays.startRecord (h : TriggerStays s₀ s) {n cause stamp : Nat} :
    TriggerStays s₀ (s.startRecord n cause stamp) := by
  unfold State.startRecord
  extract_lets r clamped k before rows left open_ step need kept gone c spaced written pulsed
  have begun : TriggerStays s₀ pulsed := (TriggerStays.ite h h.count2).setRec.capPulse
  exact .ite begun.endRecord begun

theorem TriggerStays.rollMark (h : TriggerStays s₀ s) {n cause stamp : Nat} : TriggerStays s₀ (s.rollMark n cause stamp) :=
  h.setRec.capPulse.captureDone

theorem TriggerStays.capFire (h : TriggerStays s₀ s) {n : Nat} {x : Nat × Nat} : TriggerStays s₀ (s.capFire n x) := by
  unfold State.capFire
  dsimp only
  split
  · exact .ite h.rollMark (.ite h.setRec h.startRecord)
  · exact .ite h.rollMark (.ite h.setRec h.startRecord)
  · exact h.setRec.count2
  · exact h.count2.kept (logEv_kept _ _ _ _ _)
  · exact h.count2
  · exact h

theorem TriggerStays.capEvent (h : TriggerStays s₀ s) {kind : Nat} {hit : Nat → Option Bool} {stamp : Nat} :
    TriggerStays s₀ (s.capEvent kind hit stamp) :=
  .ite (h.foldl fun h => .ite h (h.foldl fun h => h.capFire)) h

/-- An alarm changes which alarms are raised, and what its notification and its triggers change. -/
theorem alarm_stays (s : State) (u cls inst : Nat) (raised : Bool) (at_ : Nat) :
    ∃ l, TriggerStays { s with alarms := l } (s.alarm u cls inst raised at_) ∧ l.contains (u, cls, inst) = raised := by
  unfold State.alarm State.alarmT
  split
  next same => exact ⟨s.alarms, .refl s, same⟩
  next =>
    refine ⟨if raised then s.alarms ++ [(u, cls, inst)] else s.alarms.filter (fun x => x != (u, cls, inst)), ?_, ?_⟩
    · exact ((TriggerStays.refl _).kept (notify_keptLogs _ _ _ _ _).1).capEvent
    · cases raised <;> simp

@[simp] theorem lgc_alarm (s : State) (u cls inst : Nat) (raised : Bool) (at_ : Nat) :
    (s.alarm u cls inst raised at_).lgc = s.lgc := by
  obtain ⟨l, stays, -⟩ := alarm_stays s u cls inst raised at_
  exact stays.lgc

@[simp] theorem lands_alarm (s : State) (u cls inst : Nat) (raised : Bool) (at_ : Nat) :
    (s.alarm u cls inst raised at_).lands = s.lands := by
  obtain ⟨l, stays, -⟩ := alarm_stays s u cls inst raised at_
  exact stays.lands

@[simp] theorem alarmOn_alarm (s : State) (u cls inst : Nat) (raised : Bool) (at_ : Nat) :
    (s.alarm u cls inst raised at_).alarmOn u cls inst = raised := by
  obtain ⟨l, stays, shown⟩ := alarm_stays s u cls inst raised at_
  rw [State.alarmOn, stays.alarms]
  exact shown

end Alarms

/-! ### What the blocks and the outputs leave of the cycle (R333, R334) -/

section Cycle

variable {s₀ s t : State} {im : Image} {b : LBlock} {src : Nat}

/-- The engine without what its blocks, its GOOSE control blocks and its stations write, and without the count of overruns. -/
def cycleOf (l : Lgc) : Lgc := { l with vals := [], blk := [], goose := [], station := [], overruns := 0, clean := 0 }

/-- The cycle and the output lands of `s` are those of `s₀`. -/
def CycleStays (s₀ s : State) : Prop := cycleOf s.lgc = cycleOf s₀.lgc ∧ s.lands = s₀.lands

theorem CycleStays.refl (s : State) : CycleStays s s := ⟨rfl, rfl⟩

theorem CycleStays.trans (h : CycleStays s₀ s) (g : CycleStays s t) : CycleStays s₀ t := ⟨g.1.trans h.1, g.2.trans h.2⟩

/-- The fields of the cycle that a scan or an output write sets. -/
theorem CycleStays.fields (h : CycleStays s₀ s) : s.lgc.st = s₀.lgc.st ∧ s.lgc.scanning = s₀.lgc.scanning ∧
    s.lgc.snap = s₀.lgc.snap ∧ s.lgc.n = s₀.lgc.n ∧ s.lgc.lastW = s₀.lgc.lastW ∧ s.lgc.written = s₀.lgc.written ∧
    s.lgc.stopReq = s₀.lgc.stopReq ∧ s.lgc.suspend = s₀.lgc.suspend ∧ s.lands = s₀.lands := by
  obtain ⟨cycle, lands⟩ := h
  simp only [cycleOf, Lgc.mk.injEq] at cycle
  simp only [cycle, lands, and_self]

theorem CycleStays.congr (h : CycleStays s₀ s) (lgc : t.lgc = s.lgc) (lands : t.lands = s.lands) : CycleStays s₀ t :=
  ⟨lgc ▸ h.1, lands.trans h.2⟩

theorem CycleStays.kept (h : CycleStays s₀ s) (k : Kept s t) : CycleStays s₀ t :=
  h.congr (congrArg (fun u => u.lgc) k.1) (congrArg (fun u => u.lands) k.1)

theorem CycleStays.ite {c : Prop} [Decidable c] (h : CycleStays s₀ s) (g : CycleStays s₀ t) :
    CycleStays s₀ (if c then s else t) := by
  split
  · exact h
  · exact g

theorem CycleStays.foldl {α : Type} {f : State → α → State} {l : List α} (h : CycleStays s₀ s)
    (step : ∀ {s a}, CycleStays s₀ s → CycleStays s₀ (f s a)) : CycleStays s₀ (l.foldl f s) := by
  induction l generalizing s with
  | nil => exact h
  | cons a l ih => exact ih (step h)

theorem CycleStays.alarm (h : CycleStays s₀ s) {u cls inst : Nat} {raised : Bool} {at_ : Nat} :
    CycleStays s₀ (s.alarm u cls inst raised at_) :=
  h.congr (lgc_alarm _ _ _ _ _ _) (lands_alarm _ _ _ _ _ _)

theorem CycleStays.capEvent (h : CycleStays s₀ s) {kind : Nat} {hit : Nat → Option Bool} {stamp : Nat} :
    CycleStays s₀ (s.capEvent kind hit stamp) :=
  h.congr (TriggerStays.refl s).capEvent.lgc (TriggerStays.refl s).capEvent.lands

theorem CycleStays.count (h : CycleStays s₀ s) {id inst n : Nat} : CycleStays s₀ (s.count id inst n) :=
  h.kept (count_keptLogs _ _ _ _).1

theorem CycleStays.count2 (h : CycleStays s₀ s) {id inst n : Nat} : CycleStays s₀ (s.count2 id inst n) :=
  h.kept (count2_keptLogs _ _ _ _).1

theorem CycleStays.logEv (h : CycleStays s₀ s) {code u at_ : Nat} {par : DWord} : CycleStays s₀ (s.logEv code u at_ par) :=
  h.kept (logEv_kept _ _ _ _ _)

theorem CycleStays.setLvar (h : CycleStays s₀ s) {i : Nat} {x : LVal} : CycleStays s₀ (s.setLvar i x) := h

theorem CycleStays.setStation (h : CycleStays s₀ s) {x : Station} : CycleStays s₀ (s.setStation src x) := h

theorem CycleStays.snapshot (h : CycleStays s₀ s) : CycleStays s₀ (s.snapshot im) := h.foldl fun h => h.setLvar

theorem CycleStays.blkEffect (h : CycleStays s₀ s) {ty : Nat} {x i1 : Option LVal} {st : BlkSt} :
    CycleStays s₀ (s.blkEffect b ty x i1 st) := by
  unfold State.blkEffect
  dsimp only
  split
  · exact .ite h h.alarm
  · exact .ite h.setStation h
  · exact h

/-- A block writes its state, its output, and by its effect an alarm or a station's point (R330 to R332, R340). -/
theorem CycleStays.runBlk (h : CycleStays s₀ s) {dt j : Nat} : CycleStays s₀ (s.runBlk im dt j b) := by
  unfold State.runBlk
  split
  · exact h
  · refine .ite h ?_
    extract_lets ty st x i1 z r v _ _ stepped counted
    have h₁ : CycleStays s₀ stepped := CycleStays.blkEffect h
    have h₂ : CycleStays s₀ counted := .ite h₁.count h₁
    exact .ite h₂ h₂.setLvar

theorem CycleStays.sendControl (h : CycleStays s₀ s) {points : AMap (Nat × Word)} : CycleStays s₀ (s.sendControl src points) := by
  unfold State.sendControl
  split
  · exact h
  · exact (h.setStation.kept (sendUdp_keptLogs _ _ _ _ _ _ _).1).count2

theorem CycleStays.stationWrite (h : CycleStays s₀ s) : CycleStays s₀ (s.stationWrite src) :=
  .ite h.setStation (.ite h.setStation.count2 h.setStation.sendControl)

theorem CycleStays.gooseSend (h : CycleStays s₀ s) {cb : Nat} {g : GoosePub} {w : List Word} :
    CycleStays s₀ (s.gooseSend im cb g w) := by
  have set : CycleStays s₀ { s with lgc := { s.lgc with goose := s.lgc.goose.set cb g } } := h
  exact (set.foldl fun h => h.kept (sendFrames'_keptLogs _ _ _ _ _ _).1).count2

theorem CycleStays.gooseWrite (h : CycleStays s₀ s) {cb : Nat} : CycleStays s₀ (s.gooseWrite im cb) := .ite h (.ite h h.gooseSend)

theorem CycleStays.lgcOverrun (h : CycleStays s₀ s) : CycleStays s₀ s.lgcOverrun := by
  have overrun : CycleStays s₀ { s with lgc := { s.lgc with overruns := s.lgc.overruns + 1, clean := 0 } } := h
  exact .ite overrun.count.logEv.alarm overrun.count.logEv

theorem CycleStays.lgcClean (h : CycleStays s₀ s) : CycleStays s₀ s.lgcClean := by
  have clean : CycleStays s₀ { s with lgc := { s.lgc with clean := s.lgc.clean + 1 } } := h
  exact .ite clean.alarm clean

/-- The engine waits for scan `n`, late or not. -/
abbrev awaiting (s : State) (n : Nat) (late : Bool) : State := { s with lgc := { s.lgc with n := n, late := late } }

theorem CycleStays.awaiting (h : CycleStays s₀ s) {n : Nat} {late : Bool} :
    CycleStays (awaiting s₀ n late) (awaiting s n late) :=
  ⟨congrArg (fun c : Lgc => { c with n := n, late := late }) h.1, h.2⟩

/-- After its output write the engine goes on to a later scan; of the cycle only this changes (R334). -/
theorem lgcNext_stays (s : State) (im : Image) : ∃ n late, s.lgc.n < n ∧ CycleStays (awaiting s n late) (s.lgcNext im) := by
  unfold State.lgcNext
  extract_lets n late judged
  have judged : CycleStays s judged := .ite (CycleStays.refl s).lgcOverrun (CycleStays.refl s).lgcClean
  split
  · exact ⟨_, false, Nat.lt_of_lt_of_le (Nat.lt_add_of_pos_right Nat.two_pos) (Nat.le_max_left _ _), judged.awaiting.count⟩
  · exact ⟨n + 1, late, Nat.lt_succ_self n, judged.awaiting⟩

end Cycle

/-! ### Scans (R333, R334) -/

section Scans

variable {s a : State} {dt : Nat} {im : Image}

theorem exec_lgcScan (passed : s.advance dt = a) : exec (.lgcScan dt) s = .next (if a.lgcDue then a.lgcScan else a) :=
  congrArg (fun a : State => Host.Outcome.next (if a.lgcDue then a.lgcScan else a)) passed

theorem image_of_lgcDue (due : a.lgcDue = true) : ∃ im, a.lgc.image = some im := by
  obtain ⟨im, held, -⟩ := (Option.any_eq_true _ _).mp (Bool.and_eq_true_iff.mp due).2
  exact ⟨im, held⟩

/-- Of the cycle, a scan writes its snapshot instant and that it executes; of the lands, nothing (R333). -/
theorem lgcScan_stays (held : a.lgc.image = some im) :
    CycleStays { a.lgcApply with lgc := { a.lgcApply.lgc with snap := some a.now, scanning := true } } a.lgcScan := by
  have applied : a.lgcApply.lgc.image.isSome = true := by simp [State.lgcApply, held]
  unfold State.lgcScan
  dsimp only
  split
  next imageless => simp [imageless] at applied
  next => exact (CycleStays.refl _).snapshot.foldl fun h => h.runBlk

/-- What an output write sets at once, before it is sent and the engine goes on (R333). -/
abbrev outputsSet (a : State) (im : Image) : State :=
  let ex := a.now - a.lgc.snap.getD a.now
  { a with
    lands := { a.lands with almLgc := a.lgcLands im }
    lgc := { a.lgc with
      scanning := false, first := false, written := (List.range im.vars.length).map (fun i => (i, a.leff i)), lastW := some a.now
      prevSnap := a.lgc.snap, execN := a.lgc.execN + 1, execSum := a.lgc.execSum + ex, execMax := max a.lgc.execMax ex } }

theorem exec_lgcOutputWrite (passed : s.advance dt = a) (held : a.lgc.image = some im) (running : a.lgc.st = 2)
    (scanning : a.lgc.scanning = true) : exec (.lgcOutputWrite dt) s = .next (a.outputWrite im) := by
  show execLgcOutputWrite dt s = _
  rw [execLgcOutputWrite, passed, held]
  dsimp only
  rw [if_pos ⟨running, scanning⟩]

/-- Without a stop or a suspension that waits, the engine goes on after the write to a later scan. -/
theorem outputWrite_stays (unstopped : a.lgc.stopReq = none) (unsuspended : a.lgc.suspend = false) :
    ∃ n late, a.lgc.n < n ∧ CycleStays (awaiting (outputsSet a im) n late) (a.outputWrite im) := by
  unfold State.outputWrite
  extract_lets w ex new old _ _ written captured published stationed next
  have sent : CycleStays (outputsSet a im) stationed :=
    ((CycleStays.refl written).count.capEvent.foldl fun h => h.gooseWrite).foldl fun h => h.stationWrite
  obtain ⟨-, -, -, number, -⟩ := sent.fields
  obtain ⟨n, late, later, goesOn⟩ := lgcNext_stays stationed im
  have went : CycleStays (awaiting (outputsSet a im) n late) next := sent.awaiting.trans goesOn
  obtain ⟨-, -, -, -, -, -, stopReq, suspend, -⟩ := went.fields
  have stopReq : next.lgc.stopReq = none := stopReq.trans unstopped
  have suspend : next.lgc.suspend = false := suspend.trans unsuspended
  refine ⟨n, late, number ▸ later, ?_⟩
  rw [stopReq]
  dsimp only
  rw [if_neg (by simp [suspend])]
  exact went

end Scans

/-! ### GOOSE repeats (R339) -/

section Goose

variable {s a : State} {dt cb : Nat} {im : Image} {g : GoosePub}

/-- The control block with its next message, and the interval after it doubled up to MAX_MS. -/
abbrev repeated (a : State) (cb : Nat) (g : GoosePub) : GoosePub :=
  let ms := min (2 * g.nextMs) (wordBits (a.par Par.LGC.GOOSE_CB cb) 6 15 0)
  { g with sqNum := gooseNext g.sqNum, nextMs := ms, nextAt := a.now + 1000000 * ms }

theorem exec_gooseRepeat (passed : s.advance dt = a) (held : a.lgc.image = some im) (block : a.lgc.goose.get? cb = some g)
    (running : a.lgc.st = 2) (on : g.on = true) (valid : ((a.par Par.LGC.GOOSE_CB cb).getD 0 0).getLsbD 31 = true) :
    exec (.gooseRepeat dt cb) s =
      .next (if g.nextAt ≤ a.now then a.gooseSend im cb (repeated a cb g) (a.par Par.LGC.GOOSE_CB cb) else a) := by
  show execGooseRepeat dt cb s = _
  rw [execGooseRepeat, passed, held, block]
  exact congrArg Host.Outcome.next (if_congr (by simp only [running, on, valid, true_and]) rfl rfl)

end Goose

/-! ### Stations (R340, R341) -/

section Stations

variable {s t a : State} {dt src port sentAt code : Nat}

@[simp] theorem station_setStation (s : State) (src : Nat) (x : Station) : (s.setStation src x).station src = x :=
  AMap.getD_set_self _ _ _ _

theorem station_of_lgc (lgc : t.lgc = s.lgc) : t.station src = s.station src :=
  congrArg (fun l : Lgc => l.station.getD src stationInit) lgc

theorem Kept.station (h : Kept s t) : t.station src = s.station src := congrArg (fun u => u.station src) h.1

theorem exec_stationRefresh (passed : s.advance dt = a) (running : a.lgc.st = 2) (written : a.lgc.lastW = some a.now)
    (refreshes : a.parN Par.LGC.STATION_REFRESH_MS 0 ≠ 0) (defined : (a.station src).st ≠ 0) :
    exec (.stationRefresh dt src) s = .next (
      if (a.station src).sentAt.all (fun t => decide (t + 1000000 * a.parN Par.LGC.STATION_REFRESH_MS 0 ≤ a.now)) then
        if (a.station src).st = 2 then a.count2 0x0A08 (src + 1) 1 else a.sendControl src ((a.station src).sent.getD [])
      else a) := by
  show execStationRefresh dt src s = _
  rw [execStationRefresh, passed]
  exact congrArg Host.Outcome.next (if_congr (by simp [running, written, refreshes, defined]) rfl rfl)

/-- When the wait for an acknowledgement ends (R340). -/
abbrev ackEnds (a : State) (sentAt : Nat) : Nat := sentAt + 1000000 * a.parN Par.LGC.ACK_TIMEOUT_MS 0

theorem exec_stationAckTimeout (passed : s.advance dt = a) (running : a.lgc.st = 2) (waiting : (a.station src).waiting = true)
    (live : (a.station src).st = 1 ∨ (a.station src).st = 3) (sent : (a.station src).sentAt = some sentAt) :
    exec (.stationAckTimeout dt src) s = .next (
      if ackEnds a sentAt ≤ a.now then
        if a.parN Par.LGC.ACK_RETRIES 0 ≤ (a.station src).unacked + 1 then a.stationLost src
        else ((a.setStation src { a.station src with unacked := (a.station src).unacked + 1 }).sendControl src
          ((a.station src).sent.getD [])).count2 0x0A06 (src + 1) 1
      else a) := by
  show execStationAckTimeout dt src s = _
  rw [execStationAckTimeout, passed]
  exact congrArg Host.Outcome.next (if_congr (by simp [running, waiting, live, sent]) rfl rfl)

/-- A station that becomes LOST is alarmed (R341). -/
theorem stationLost_lost (live : (a.station src).st = 1 ∨ (a.station src).st = 3) :
    ((a.stationLost src).station src).st = 2 ∧ (a.stationLost src).alarmOn 0x0A 2 src = true := by
  have unlost : ¬ ((a.station src).st = 0 ∨ (a.station src).st = 2) := by omega
  unfold State.stationLost
  dsimp only
  rw [if_neg unlost, station_of_lgc (lgc_alarm _ _ _ _ _ _), (logEv_kept _ _ _ _ _).station, station_setStation]
  exact ⟨rfl, alarmOn_alarm _ _ _ _ _ _⟩

/-- A control-ack of the command number that waits ends the wait, and with code 0 RECOVERING too (R340, R341). -/
theorem station_controlAck (defined : (a.station src).st ≠ 0) (waiting : (a.station src).waiting = true) :
    (a.controlAck src (a.station src).seq code).station src = { a.station src with
      waiting := false, unacked := 0, acked := decide (code = 0)
      st := if code = 0 ∧ (a.station src).st = 3 then 1 else (a.station src).st } := by
  unfold State.controlAck
  dsimp only
  rw [if_neg (by simp [defined, waiting])]
  by_cases good : code = 0
  · by_cases recovering : (a.station src).st = 3
    · simp [good, recovering, station_of_lgc (lgc_alarm _ _ _ _ _ _)]
    · simp [good, recovering]
  · rw [if_neg good, (logEv_kept _ _ _ _ _).station, (count2_keptLogs _ _ _ _).1.station, station_setStation]
    simp [good]

/-- A datagram of TYPE 2 whose station is identified and whose lengths agree is judged by its tag, and acts while the engine's unit
runs (R127, R139). -/
theorem exec_stationControlAck {l : List Byte} {d : SrcDef} (passed : s.advance dt = a) (runs : a.ingRuns = true)
    (parses : ocfParses l = true) (ack : fld l 1 1 = 2)
    (identified : (a.takeWords port).1.identify 3 (beBytes 4 (fld l 8 4)) = some (src, d)) (length : fld l 4 2 = l.length)
    (count : l.length = 24 + 12 * fld l 6 2 + (if ocfTagged l then 16 else 0)) :
    exec (.stationControlAck dt port l) s = .next (
      let b := (a.takeWords port).1
      if !b.ocfTag d l (ocfTagged l) then b.countSrc 0x0307 src 1
      else if b.runs 0x0A then b.controlAck src (fld l 22 2) (fld l 21 1) else b) := by
  have lengths : ¬ (fld l 4 2 ≠ l.length ∨ l.length ≠ 24 + 12 * fld l 6 2 + (if ocfTagged l then 16 else 0)) := by
    rw [not_or, not_not, not_not]
    exact ⟨length, count⟩
  show execStationControlAck dt port l s = _
  rw [execStationControlAck, passed]
  dsimp only
  rw [if_pos runs, if_neg (by simp [parses]), if_neg (by simp [ack]), identified]
  dsimp only
  rw [if_neg lengths]

end Stations

/-- Settles O53: what a scan and its output write set stands through the blocks, the GOOSE control blocks, the stations and the alarms
(`lgcScan_stays`, `outputWrite_stays`); the timers act on their guards, and an acknowledgement as `station_controlAck` says. -/
theorem scansAndStationsKeepTheirTimes : Obligations.ScansAndStationsKeepTheirTimes := by
  intro s a dt src passed x
  refine ⟨?scan, ?idle, ?write, ?goose, ?refresh, ?timeout, ?ack⟩
  case scan =>
    intro due
    obtain ⟨im, held⟩ := image_of_lgcDue due
    obtain ⟨-, scanning, snap, n, -, -, -, -, lands⟩ := (lgcScan_stays held).fields
    exact ⟨a.lgcScan, by rw [exec_lgcScan passed, if_pos due], scanning, snap, n, congrArg Lands.almLgc lands⟩
  case idle =>
    intro idle
    rw [exec_lgcScan passed, if_neg (by simp [idle])]
  case write =>
    intro im held running scans unstopped unsuspended
    obtain ⟨n, late, later, stays⟩ := outputWrite_stays (im := im) unstopped unsuspended
    obtain ⟨st, scanning, -, number, lastW, written, -, -, lands⟩ := stays.fields
    exact ⟨a.outputWrite im, exec_lgcOutputWrite passed held running scans, scanning, lastW, st.trans running,
      congrArg Lands.almLgc lands, written, number ▸ later⟩
  case goose =>
    intro im cb g held block running on valid ms
    rw [exec_gooseRepeat passed held block running on valid]
    exact ⟨fun due => by rw [if_pos due], fun early => by rw [if_neg (Nat.not_le.mpr early)]⟩
  case refresh =>
    intro running written refreshes defined due
    rw [exec_stationRefresh passed running written refreshes defined]
    refine ⟨fun due live => ?_, fun due lost => ?_, fun fresh => ?_⟩
    · rw [if_pos due, if_neg live]
    · rw [if_pos due, if_pos lost]
    · rw [if_neg (ne_true_of_eq_false fresh)]
  case timeout =>
    intro sentAt running waiting live sent
    rw [exec_stationAckTimeout passed running waiting live sent]
    refine ⟨fun early => by rw [if_neg (Nat.not_le.mpr early)], fun due => ⟨fun left => ?_, fun last => ?_⟩⟩
    · rw [if_pos due, if_neg (Nat.not_le.mpr left)]
    · rw [if_pos due, if_pos last]
      exact ⟨a.stationLost src, rfl, stationLost_lost live⟩
  case ack =>
    intro port l d runs parses ack b tagged code identified length count
    rw [exec_stationControlAck passed runs parses ack identified length count]
    refine ⟨fun bad => ?_, fun good engine defined seq waiting => ?_⟩
    · exact congrArg Host.Outcome.next (if_pos (congrArg not bad))
    · refine ⟨b.controlAck src (fld l 22 2) code, ?_, ?_⟩
      · exact congrArg Host.Outcome.next ((if_neg (ne_true_of_eq_false (congrArg not good))).trans (if_pos engine))
      · rw [seq, station_controlAck defined waiting]
        exact ⟨rfl, rfl, rfl, rfl⟩

end Sys2Proof.Laws
end

section
/-! SUPPORT. A tamper found at boot (R369, R371): a module whose slot 1 is VALID and has no type. -/

namespace Sys2Proof.Laws

open Sys2Proof.Machine

section Plinth

theorem exec_tamperDetected_lost {s a : State} {dt : Nat} (passed : s.advance dt = a) (booting : a.pwr.dev = .boot) :
    exec (.tamperDetected dt 11) s = .next a.plinthLost := by
  show execTamperDetected dt 11 s = _
  rw [execTamperDetected, passed]
  exact congrArg Host.Outcome.next ((if_pos rfl).trans (if_pos (by simp [booting])))

/-- A module in BOOT whose slot 1 is VALID and has no type. -/
def untypedRoot : State := State.reset.setSlot' 1 { KeySlot.init with attr := 0x1000 }

/-- The plinth zeroes slot 1 where the slot has a type; here it has none. -/
theorem untypedRoot_stays_valid : ((untypedRoot.advance 0).plinthLost.keySlot 1).has 12 = true := by decide

end Plinth

/-- Refutes O49: memory lost at boot takes VALID from slot 1 only where the slot has a type, and the statement's clause on source 11 asks
for it in every state. In `untypedRoot` slot 1 is VALID with type 0 and stays so; the counterexample concerns this clause alone. -/
theorem not_tamperLatches : ¬ Obligations.TamperLatches := by
  unfold Obligations.TamperLatches
  intro holds
  obtain ⟨-, -, -, -, lost, -⟩ := holds untypedRoot (untypedRoot.advance 0) 0 0 rfl (by decide)
  obtain ⟨u, runs, -, -, invalid⟩ := lost rfl
  obtain rfl : (untypedRoot.advance 0).plinthLost = u :=
    Host.Outcome.next.inj ((exec_tamperDetected_lost rfl rfl).symm.trans runs)
  exact Bool.false_ne_true (invalid.symm.trans untypedRoot_stays_valid)

end Sys2Proof.Laws
end

section
/-! SUPPORT. The checks of an update message (R357), the message that passes them (R355 to R360), and sealed messages (R257, R258). -/

namespace Sys2Proof.Laws

open Sys2Proof.Machine

/-! ### Update messages (R357) -/

section Checks

variable {t : State} {q : Req} {x : KeyMsg}

theorem keyStatus_of_other_device (other : q.dw 4 ≠ t.ident.deviceId.toNat) : t.keyStatus q x = 0x0112 := if_pos other

variable (own : q.dw 4 = t.ident.deviceId.toNat)

include own

theorem keyStatus_of_old_counter (old : q.dw 6 ≤ t.vaultCtr.toNat) : t.keyStatus q x = 0x0111 := by
  rw [State.keyStatus, if_neg (not_not.mpr own), if_pos (by simp [State.ctrAbove, old])]

variable (fresh : t.vaultCtr.toNat < q.dw 6)

include fresh

theorem keyStatus_of_bad_signer (bad : t.signerOk q x = false) : t.keyStatus q x = 0x0109 := by
  rw [State.keyStatus, if_neg (not_not.mpr own), if_neg (by simp [State.ctrAbove, fresh]), if_pos (by simp [bad])]

variable (signer : t.signerOk q x = true)

include signer

theorem keyStatus_of_bad_signature (bad : signedBy q (t.signerKey x) = false) : t.keyStatus q x = 0x0113 := by
  rw [State.keyStatus, if_neg (not_not.mpr own), if_neg (by simp [State.ctrAbove, fresh]), if_neg (by simp [signer]),
    if_pos (by simp [bad])]

variable (signed : signedBy q (t.signerKey x) = true)

include signed

theorem keyStatus_of_latch (latched : t.vlt.latch = true) (barred : x.inv = true ∨ (x.op ≠ 1 ∧ x.op ≠ 2)) :
    t.keyStatus q x = 0x0110 := by
  rw [State.keyStatus, if_neg (not_not.mpr own), if_neg (by simp [State.ctrAbove, fresh]), if_neg (by simp [signer]),
    if_neg (by simp [signed]), if_pos (by simpa [latched, or_iff_not_imp_left] using barred)]

variable (unlatched : t.vlt.latch = false)

include unlatched

/-- The checks from the metrological log on. -/
theorem keyStatus_of_unlatched {refusal : Option Nat} (log : (if t.keyLogged x then t.metRefuses else none) = refusal) :
    t.keyStatus q x = refusal.getD (if t.vlt.journal.isSome then 0x010B else t.keyFields q x) := by
  rw [State.keyStatus, if_neg (not_not.mpr own), if_neg (by simp [State.ctrAbove, fresh]), if_neg (by simp [signer]),
    if_neg (by simp [signed]), if_neg (by simp [unlatched]), log]
  cases refusal
  · rfl
  · rfl

end Checks

section MetrologicalLog

variable {t : State}

theorem metRefuses_of_frozen (frozen : t.evt.met.freeze ≠ none) : t.metRefuses = some 0x0126 :=
  if_pos (Option.isSome_iff_ne_none.mpr frozen)

theorem metRefuses_of_full (thawed : t.evt.met.freeze = none) (full : 32768 ≤ t.evt.met.mram.length + t.evt.met.buf.length) :
    t.metRefuses = some 0x010F :=
  (if_neg (by simp [thawed])).trans (if_pos full)

end MetrologicalLog

/-- Settles O45: one lemma for each check, all of them after the checks before it. -/
theorem updateMessagesFailAtTheFirstCheck : Obligations.UpdateMessagesFailAtTheFirstCheck := by
  intro t q x
  refine ⟨keyStatus_of_other_device, keyStatus_of_old_counter, fun own fresh => ⟨keyStatus_of_bad_signer own fresh,
    keyStatus_of_bad_signature own fresh, fun signer signed => ⟨keyStatus_of_latch own fresh signer signed, ?_⟩⟩⟩
  intro unlatched
  have later {refusal : Option Nat} := keyStatus_of_unlatched own fresh signer signed unlatched (refusal := refusal)
  refine ⟨?frozen, ?full, ?busy, ?passed⟩
  case frozen =>
    intro logged frozen
    exact later ((if_pos logged).trans (metRefuses_of_frozen frozen))
  case full =>
    intro logged thawed full
    exact later ((if_pos logged).trans (metRefuses_of_full thawed full))
  case busy =>
    intro unlogged pending
    exact (later (if_neg (by simp [unlogged]))).trans (if_pos (Option.isSome_iff_ne_none.mpr pending))
  case passed =>
    intro unlogged idle
    exact (later (if_neg (by simp [unlogged]))).trans (if_neg (by simp [idle]))

/-! ### Update messages that enter the journal (R355 to R360) -/

section Updates

variable {s t b : State} {q : Req} {x : KeyMsg} {inv : Bool} {op : VaultOp} {st role opcode : Nat}

/-- What an update message will do is found without ending a session or leaving a device state: at most a draw of the vault. -/
theorem keyEffect_stays (run : t.keyEffect q x = (b, .ok op)) : b.ctl = t.ctl ∧ b.pwr = t.pwr := by
  unfold State.keyEffect at run
  dsimp only at run
  split at run
  · cases run; exact ⟨rfl, rfl⟩
  · split at run
    · cases run; exact ⟨rfl, rfl⟩
    · cases run; exact ⟨rfl, rfl⟩
    · cases run; exact ⟨rfl, rfl⟩
    · cases run; exact ⟨rfl, rfl⟩
    · split at run
      · cases run
      · split at run
        · cases run
        · cases run; exact ⟨rfl, rfl⟩
    · cases run; exact ⟨rfl, rfl⟩

/-- The state in which an update message waits in the journal. -/
abbrev updateJournalled (t b : State) (q : Req) (x : KeyMsg) (op : VaultOp) : State :=
  b.journalled { req := q, op := op, code := x.op, slot := x.slot, counter := BitVec.ofNat 64 (q.dw 6), metro := t.keyLogged x }

/-- The state after a refused update message: counted and recorded. -/
abbrev updateRefused (t : State) (x : KeyMsg) (st : Nat) : State :=
  (t.count 0x0D02 0 1).logEv 0x0D02 0x0D t.now (BitVec.ofNat 64 (x.op * 2 ^ 56 + x.slot * 2 ^ 48 + st))

theorem keyUpdate_of_passed (passed : t.keyStatus q (keyMsgOf q inv) = 0) (run : t.keyEffect q (keyMsgOf q inv) = (b, .ok op)) :
    t.keyUpdate q inv = (updateJournalled t b q (keyMsgOf q inv) op, none) := by
  simp [State.keyUpdate, passed, run]

theorem keyUpdate_of_failed (passed : t.keyStatus q (keyMsgOf q inv) = 0) (run : t.keyEffect q (keyMsgOf q inv) = (b, .error st)) :
    t.keyUpdate q inv = (updateRefused t (keyMsgOf q inv) st, err st) := by
  simp only [State.keyUpdate, passed, run, State.refuseKey]

theorem keyUpdate_of_refused (status : t.keyStatus q (keyMsgOf q inv) = st) (refused : st ≠ 0) :
    t.keyUpdate q inv = (updateRefused t (keyMsgOf q inv) st, err st) := by
  subst status
  unfold State.keyUpdate
  dsimp only
  split
  next passed => exact absurd passed refused
  next => rfl

variable (adm : Admitted s q opcode 0x0D 0 24 true t role)

include adm

theorem serve_keyUpdate_of_passed (up : t.up = true) (passed : t.keyStatus q (keyMsgOf q inv) = 0)
    (run : t.keyEffect q (keyMsgOf q inv) = (b, .ok op)) :
    s.serve q opcode 0x0D 0 24 true (fun _ s => s.keyUpdate q inv) =
      (updateJournalled t b q (keyMsgOf q inv) op).owe q opcode 0x0D := by
  obtain ⟨ctl, pwr⟩ := keyEffect_stays run
  exact serve_owed adm (keyUpdate_of_passed passed run) (congrArg Ctl.sessions ctl) (by simpa [State.up, State.journalled, pwr] using up)

theorem serve_keyUpdate_of_failed (passed : t.keyStatus q (keyMsgOf q inv) = 0)
    (run : t.keyEffect q (keyMsgOf q inv) = (b, .error st)) :
    s.serve q opcode 0x0D 0 24 true (fun _ s => s.keyUpdate q inv) =
      (updateRefused t (keyMsgOf q inv) st).answer (t.sessionKey q) q opcode 0x0D (st, [detail 0xFFFF 0]) :=
  serve_answers adm (keyUpdate_of_failed passed run) (fits_of_short (Nat.le_add_left 1 9))

theorem serve_keyUpdate_of_refused (status : t.keyStatus q (keyMsgOf q inv) = st) (refused : st ≠ 0) :
    s.serve q opcode 0x0D 0 24 true (fun _ s => s.keyUpdate q inv) =
      (updateRefused t (keyMsgOf q inv) st).answer (t.sessionKey q) q opcode 0x0D (st, [detail 0xFFFF 0]) :=
  serve_answers adm (keyUpdate_of_refused status refused) (fits_of_short (Nat.le_add_left 1 9))

end Updates

/-! ### Sealed messages (R257, R258) -/

section Sealed

variable {s t b : State} {q : Req} {x : SealMsg} {update : Bool} {op : VaultOp} {a : Ans} {st role opcode : Nat}

theorem sealedUpdate_stays (run : t.sealedUpdate x = (b, .ok op)) : b = t := by
  unfold State.sealedUpdate at run
  dsimp only at run
  split at run
  · cases run
  · split at run
    · cases run
    · split at run
      · cases run
      · split at run
        · cases run
        · split at run
          · cases run
          · split at run
            · cases run; rfl
            · cases run

/-- A sealed message that will do something has changed nothing yet. -/
theorem sealBody_stays (run : t.sealBody x = (b, .ok op)) : b = t := by
  unfold State.sealBody at run
  split at run
  · exact sealedUpdate_stays run
  · split at run
    · split at run
      · cases run
      · split at run
        · cases run
        · split at run
          · cases run
          · cases run; rfl
    · split at run
      · cases run
      · split at run
        · cases run
        · split at run
          · split at run
            · cases run; rfl
            · cases run
          · cases run; rfl

/-- The state in which a sealed message waits in the journal. -/
abbrev sealJournalled (b : State) (q : Req) (x : SealMsg) (op : VaultOp) : State :=
  b.journalled { req := q, op := op, code := x.op, slot := 0xFF, counter := BitVec.ofNat 64 (q.dw 6), metro := true }

theorem sealStatus_of_plain (plain : t.ident.variantM = false) : t.sealStatus q x = 0x0118 := if_pos (by simp [plain])

theorem sealMessage_of_passed (passed : t.sealStatus q (sealMsgOf q update) = 0) (idle : t.vlt.journal = none)
    (run : t.sealBody (sealMsgOf q update) = (b, .ok op)) :
    t.sealMessage q update = (sealJournalled b q (sealMsgOf q update) op, none) := by
  simp [State.sealMessage, passed, idle, run]

theorem sealMessage_of_failed (passed : t.sealStatus q (sealMsgOf q update) = 0) (idle : t.vlt.journal = none)
    (run : t.sealBody (sealMsgOf q update) = (b, .error (some a))) : t.sealMessage q update = (b, some a) := by
  simp [State.sealMessage, passed, idle, run]

theorem sealMessage_of_busy (passed : t.sealStatus q (sealMsgOf q update) = 0) (pending : t.vlt.journal ≠ none) :
    t.sealMessage q update = (t, err 0x010B) := by
  simp [State.sealMessage, passed, Option.isSome_iff_ne_none.mpr pending]

theorem sealMessage_of_refused (status : t.sealStatus q (sealMsgOf q update) = st) (refused : st ≠ 0) :
    t.sealMessage q update = (t, err st) := by
  subst status
  unfold State.sealMessage
  dsimp only
  split
  next passed => exact absurd passed refused
  next => rfl

variable (adm : Admitted s q opcode 9 0 22 true t role)

include adm

theorem serve_sealMessage_of_passed (up : t.up = true) (passed : t.sealStatus q (sealMsgOf q update) = 0)
    (idle : t.vlt.journal = none) (run : t.sealBody (sealMsgOf q update) = (b, .ok op)) :
    s.serve q opcode 9 0 22 true (fun _ s => s.sealMessage q update) =
      (sealJournalled b q (sealMsgOf q update) op).owe q opcode 9 := by
  obtain rfl := sealBody_stays run
  exact serve_owed adm (sealMessage_of_passed passed idle run) rfl up

theorem serve_sealMessage_of_refused (status : t.sealStatus q (sealMsgOf q update) = st) (refused : st ≠ 0) :
    s.serve q opcode 9 0 22 true (fun _ s => s.sealMessage q update) = turnedAway t q opcode 9 st 0 :=
  serve_turnedAway adm (sealMessage_of_refused status refused)

theorem serve_sealMessage_of_plain (plain : t.ident.variantM = false) :
    s.serve q opcode 9 0 22 true (fun _ s => s.sealMessage q update) = turnedAway t q opcode 9 0x0118 0 :=
  serve_sealMessage_of_refused adm (sealStatus_of_plain plain) (by decide)

end Sealed

/-- Each of the six rows of KEY_UPDATE serves the packet (R355). -/
theorem exec_keyUpdate {c : Instr} {dt : Nat} {q : Req} {s : State}
    (row : c ∈ [Instr.keyUpdateSetAnchor dt q, .keyUpdateRekeyRoot dt q, .keyUpdateGenerate dt q, .keyUpdateDerive dt q,
      .keyUpdateLoadWrapped dt q, .keyUpdateLoadPublic dt q]) : exec c s = .next ((s.advance dt).serveKeyUpdate q) := by
  simp only [List.mem_cons, List.not_mem_nil, or_false] at row
  obtain rfl | rfl | rfl | rfl | rfl | rfl := row
  all_goals rfl

/-- Each of the three rows of CUS_SEAL serves the packet (R257). -/
theorem exec_cusSeal {c : Instr} {dt : Nat} {q : Req} {s : State}
    (row : c ∈ [Instr.cusSealSeal dt q, .cusSealBreak dt q, .cusSealClearRegisters dt q]) :
    exec c s = .next ((s.advance dt).serveSeal q) := by
  simp only [List.mem_cons, List.not_mem_nil, or_false] at row
  obtain rfl | rfl | rfl := row
  all_goals rfl

/-- Settles O46: the rows of an opcode serve the same packet (`exec_keyUpdate`, `exec_cusSeal`); what a message will do is found without
ending a session or leaving a device state (`keyEffect_stays`, `sealBody_stays`), so its reply is owed. -/
theorem vaultMessagesEnterTheJournal : Obligations.VaultMessagesEnterTheJournal := by
  refine ⟨fun s t dt q role => ⟨?update, ?invalidate⟩, fun s t dt q role => ⟨?sealing, ?sealedUpdate⟩⟩
  case update =>
    intro adm _ _ c row
    rw [exec_keyUpdate row]
    exact ⟨fun b op up passed run => congrArg Host.Outcome.next (serve_keyUpdate_of_passed adm up passed run),
      fun b st passed run => congrArg Host.Outcome.next (serve_keyUpdate_of_failed adm passed run),
      fun refused => congrArg Host.Outcome.next (serve_keyUpdate_of_refused adm rfl refused)⟩
  case invalidate =>
    intro adm
    exact ⟨fun up passed => congrArg Host.Outcome.next (serve_keyUpdate_of_passed adm up passed rfl),
      fun refused => congrArg Host.Outcome.next (serve_keyUpdate_of_refused adm rfl refused)⟩
  case sealing =>
    intro adm _ c row
    rw [exec_cusSeal row]
    exact ⟨fun b op up passed idle run => congrArg Host.Outcome.next (serve_sealMessage_of_passed adm up passed idle run),
      fun passed pending => congrArg Host.Outcome.next (serve_turnedAway adm (sealMessage_of_busy passed pending)),
      fun refused => congrArg Host.Outcome.next (serve_sealMessage_of_refused adm rfl refused),
      fun plain => congrArg Host.Outcome.next (serve_sealMessage_of_plain adm plain)⟩
  case sealedUpdate =>
    intro adm
    exact ⟨fun b op up passed idle run => congrArg Host.Outcome.next (serve_sealMessage_of_passed adm up passed idle run),
      fun b a passed idle run fit => congrArg Host.Outcome.next (serve_answers adm (sealMessage_of_failed passed idle run) fit),
      fun plain => congrArg Host.Outcome.next (serve_sealMessage_of_plain adm plain)⟩

end Sys2Proof.Laws
end

section
/-! SUPPORT. What the vault answers its commands (R354, R361, R364). -/

namespace Sys2Proof.Laws

open Sys2Proof.Machine

section VaultCommands

variable {s t : State} {q : Req} {dt role : Nat}

/-! ### SIGN and VERIFY (R364) -/

/-- The slot that a request names in the low byte of its first word. -/
abbrev askedSlot (t : State) (q : Req) : KeySlot := t.keySlot (q.bits 4 7 0)

/-- What SIGN signs: the digest given, or with slot 0 the attestation over it and the counter (R364). -/
abbrev signDigest (t : State) (q : Req) : List Byte :=
  if q.bits 4 7 0 = 0 then sha256 (ascii "GLENIS-ATTEST-V1" ++ t.idBytes ++ leBytes 8 t.vaultCtr.toNat ++ q.bytes 5 32)
  else q.bytes 5 32

/-- The signature SIGN answers, and with slot 0 the counter. -/
abbrev signAnswer (t : State) (q : Req) : List Word :=
  q.carriage.pack (p256SignWith (ofBe (askedSlot t q).secret) (p256Nonce (ofBe (askedSlot t q).secret) (signDigest t q))
    (signDigest t q)) ++ (if q.bits 4 7 0 = 0 then words64 t.vaultCtr.toNat else [0, 0])

theorem exec_sign_in_safe (adm : Admitted (s.advance dt) q 0x0603 0x0D 1 9 true t role) (safe : t.pwr.dev = .safe) :
    exec (.sign dt q) s = .next (turnedAway t q 0x0603 0x0D (if t.vlt.latch = true then 0x0110 else 0x0109) 0) := by
  refine congrArg Host.Outcome.next (serve_turnedAway adm ?_)
  have refusal : t.safeRefusal = some (if t.vlt.latch then 0x0110 else 0x0109) := if_pos (by simp [safe])
  dsimp only
  rw [refusal]
  rfl

theorem exec_sign (adm : Admitted (s.advance dt) q 0x0603 0x0D 1 9 true t role) (unlocked : t.pwr.dev ≠ .safe)
    (known : q.bits 4 7 0 ≤ 127) (usable : (askedSlot t q).usable = true) (pair : (askedSlot t q).ty = 1)
    (signs : (askedSlot t q).has 0 = true) (plain : (askedSlot t q).has 7 = false) (fit : ReplyFits t q (signAnswer t q)) :
    exec (.sign dt q) s = .next (replied t (t.count 0x0D03 0 1) q 0x0603 0x0D (signAnswer t q)) := by
  refine congrArg Host.Outcome.next (serve_ok adm ?_ fit)
  have allowed : t.safeRefusal = none := if_neg (by simp [unlocked])
  dsimp only
  rw [allowed]
  dsimp only
  rw [if_neg known.not_gt, if_neg (by simp [usable, pair, signs, plain])]

/-- The key VERIFY takes: the one in the packet, or the slot's. -/
abbrev verifyKey (t : State) (q : Req) : List Byte := if q.bits 4 7 0 = 0xFF then q.bytes 13 64 else (askedSlot t q).pub

section Verify

variable (adm : Admitted (s.advance dt) q 0x0604 0x0D 0 41 true t role)
  (key : q.bits 4 7 0 = 0xFF ∨ (q.bits 4 7 0 ≤ 127 ∧ (askedSlot t q).usable = true ∧
    ((askedSlot t q).ty = 1 ∨ (askedSlot t q).ty = 2) ∧ (askedSlot t q).has 1 = true))

include key

/-- VERIFY does not refuse the key it is asked to use. -/
theorem verify_key_accepted : ¬(q.bits 4 7 0 ≠ 0xFF ∧ (!((askedSlot t q).usable &&
    ((askedSlot t q).ty == 1 || (askedSlot t q).ty == 2) && (askedSlot t q).has 1)) = true) := by
  rintro ⟨inSlot, refused⟩
  obtain ⟨-, usable, one | two, verifies⟩ := key.resolve_left inSlot
  · simp [usable, one, verifies] at refused
  · simp [usable, two, verifies] at refused

include adm

theorem exec_verify_good (good : p256Verify (verifyKey t q) (q.bytes 5 32) (q.bytes 29 64) = true) :
    exec (.verify dt q) s = .next (replied t t q 0x0604 0x0D []) := by
  refine congrArg Host.Outcome.next (serve_ok_short adm ?_ (Nat.zero_le 10))
  dsimp only
  rw [if_neg (by omega), if_neg (verify_key_accepted key), if_pos good]

theorem exec_verify_bad (bad : p256Verify (verifyKey t q) (q.bytes 5 32) (q.bytes 29 64) = false) :
    exec (.verify dt q) s =
      .next ((t.count 0x0D04 0 1).answer (t.sessionKey q) q 0x0604 0x0D (0x0113, [detail 0xFFFF 0])) := by
  refine congrArg Host.Outcome.next (serve_answers adm ?_ (fits_of_short (Nat.le_add_left 1 9)))
  dsimp only
  rw [if_neg (by omega), if_neg (verify_key_accepted key), if_neg (ne_true_of_eq_false bad)]
  rfl

end Verify

/-! ### KEY_INFO (R354, R364) -/

theorem exec_keyInfo (adm : Admitted (s.advance dt) q 0x0602 0x0D 0 1 true t role) (plain : (q.w 4).getLsbD 8 = false)
    (known : q.bits 4 7 0 ≤ 127) (fit : ReplyFits t q (keyWords q.carriage (askedSlot t q))) :
    exec (.keyInfo dt q) s = .next (replied t t q 0x0602 0x0D (keyWords q.carriage (askedSlot t q))) :=
  congrArg Host.Outcome.next
    (serve_ok adm ((if_neg (ne_true_of_eq_false plain)).trans (congrArg (Prod.mk t) (if_neg known.not_gt))) fit)

/-- The slot whose key wraps an exported key. -/
abbrev wrappingSlot (t : State) (q : Req) : KeySlot := t.keySlot (q.bits 4 23 16)

/-- The key of a slot as KEY_INFO exports it: wrapped for the partner's slot and device under a fresh nonce (R354). -/
abbrev exportedKey (t : State) (q : Req) : List Byte × List Byte :=
  gcmSeal (wrapKey (wrappingSlot t q).material (leBytes 8 (q.dw 6)) (q.bits 5 7 0) (askedSlot t q).ty) (t.draw.2.take 12)
    ((List.range 32).map (Config.exportData (q.bits 4 7 0) (q.bits 5 7 0) (BitVec.ofNat 64 (q.dw 6)))) (askedSlot t q).secret

/-- What KEY_INFO with EXPORT answers. -/
abbrev exportAnswer (t : State) (q : Req) : List Word :=
  keyWords q.carriage (askedSlot t q) ++ q.carriage.pack (t.draw.2.take 12 ++ (exportedKey t q).1 ++ (exportedKey t q).2)

theorem keyExport_of_allowed (known : q.bits 4 7 0 ≤ 127) (words : 4 ≤ q.payload.length) (owner : 2 ≤ role)
    (usable : (askedSlot t q).usable = true) (exportable : (askedSlot t q).has 9 = true) (wrapKnown : q.bits 4 23 16 ≤ 127)
    (wrapUsable : (wrappingSlot t q).usable = true) (wraps : (wrappingSlot t q).has 5 = true)
    (encrypts : (wrappingSlot t q).has 2 = true) : t.keyExport q role = (t.draw.1, ok (exportAnswer t q)) := by
  unfold State.keyExport
  dsimp only
  rw [if_neg (by omega), if_neg (by simp [owner.not_gt, usable, exportable, wrapKnown, wrapUsable, wraps, encrypts])]

theorem exec_keyInfoExport (adm : Admitted (s.advance dt) q 0x0602 0x0D 0 1 true t role) (asked : (q.w 4).getLsbD 8 = true)
    (run : t.keyExport q role = (t.draw.1, ok (exportAnswer t q))) (fit : ReplyFits t q (exportAnswer t q)) :
    exec (.keyInfoExport dt q) s = .next (replied t t.draw.1 q 0x0602 0x0D (exportAnswer t q)) :=
  congrArg Host.Outcome.next (serve_ok adm ((if_pos asked).trans run) fit)

/-! ### DEVICE_CERT (R364) -/

/-- The length of the certificate that a request asks for. -/
abbrev certTotal (q : Req) : Nat := Config.certLength (q.bits 4 0 0)

/-- How many octets DEVICE_CERT answers: as many as asked for, where the certificate has them. -/
abbrev certCount (q : Req) : Nat := min (q.w 6).toNat (certTotal q - (q.w 5).toNat)

/-- What DEVICE_CERT answers. -/
abbrev certAnswer (q : Req) : List Word :=
  [BitVec.ofNat 32 (certTotal q), BitVec.ofNat 32 (certCount q)] ++
    q.carriage.pack ((List.range (certCount q)).map (fun i => Config.certByte (q.bits 4 0 0) ((q.w 5).toNat + i)))

theorem exec_deviceCert (adm : Admitted (s.advance dt) q 0x0605 0x0D 0 3 true t role) (whole : (q.w 6).toNat % 4 = 0)
    (least : 4 ≤ (q.w 6).toNat) (most : (q.w 6).toNat ≤ 4096) (inside : (q.w 5).toNat ≤ certTotal q)
    (fit : ReplyFits t q (certAnswer q)) :
    exec (.deviceCert dt q) s = .next (replied t t q 0x0605 0x0D (certAnswer q)) := by
  refine congrArg Host.Outcome.next (serve_ok adm ?_ fit)
  dsimp only
  rw [if_neg (by omega), if_neg most.not_gt, if_neg inside.not_gt]

end VaultCommands

/-- Settles O48: the guards of each command let its request through; in SAFE the vault refuses to sign before it looks at the slot
(`exec_sign_in_safe`). -/
theorem vaultAnswersItsCommands : Obligations.VaultAnswersItsCommands := by
  intro s t dt q role n k
  refine ⟨fun adm => ⟨exec_sign_in_safe adm, ?sign⟩, fun adm key => ⟨exec_verify_good adm key, exec_verify_bad adm key⟩,
    fun adm => ⟨exec_keyInfo adm, ?exporting⟩, exec_deviceCert,
    fun adm => congrArg Host.Outcome.next (serve_ok_short adm rfl (by decide : 7 ≤ 10))⟩
  case sign =>
    intro unlocked known usable pair signs plain _ _ fit
    exact exec_sign adm unlocked known usable pair signs plain fit
  case exporting =>
    intro asked known words owner usable exportable wrapKnown wrapUsable wraps encrypts _ _ fit
    exact exec_keyInfoExport adm asked (keyExport_of_allowed known words owner usable exportable wrapKnown wrapUsable wraps encrypts) fit

end Sys2Proof.Laws
end

section
/-! SUPPORT. The event logs (R376 to R382): what a flush, a record and the buckets change of them, and what the recorder answers its
commands. -/

namespace Sys2Proof.Laws

open Sys2Proof.Machine

section Logs

variable {s t : State} {m : Bool} {q : Req} {dt role : Nat}

/-! ### A log read back -/

/-- The records of a log, oldest first: those in MRAM, then those in its buffer. -/
abbrev heldRecords (s : State) (m : Bool) : List EvRec := (s.logOf m).mram ++ (s.logOf m).buf

@[simp] theorem setLog_logOf (s : State) (m : Bool) (l : Log) : (s.setLog m l).logOf m = l := by
  cases m <;> rfl

@[simp] theorem setBucket_bucket (s : State) (code : Nat) (b : Bucket) : (s.setBucket code b).bucket code = b :=
  AMap.getD_set_self _ _ _ _

/-- States with the same event recorder have the same logs. -/
theorem logOf_congr (same : t.evt = s.evt) : t.logOf m = s.logOf m := by
  simp only [State.logOf, same]

/-! ### Flush (R379, R380, R382) -/

theorem flushLog_of_frozen (frozen : (s.logOf m).freeze ≠ none) : s.flushLog m = s :=
  if_pos (by simp [Option.isSome_iff_ne_none.mpr frozen])

theorem flushLog_of_empty (empty : (s.logOf m).buf = []) : s.flushLog m = s :=
  if_pos (by simp [empty])

/-- A flush that overwrites nothing; the count of flushes, the wear and LOG_NEAR_FULL leave the log as it is. -/
theorem flushLog_logOf (thawed : (s.logOf m).freeze = none) (waiting : (s.logOf m).buf ≠ [])
    (room : (heldRecords s m).length ≤ logSize m) :
    (s.flushLog m).logOf m = { s.logOf m with
      mram := heldRecords s m, buf := [], near := (s.logOf m).near || decide (logNear m ≤ (heldRecords s m).length) } := by
  have none_lost : (heldRecords s m).length - logSize m = 0 := Nat.sub_eq_zero_of_le room
  unfold State.flushLog
  dsimp only
  rw [if_neg (by simp [thawed, waiting]), none_lost, if_pos rfl, List.drop_zero]
  split <;> exact (logOf_congr (by simp)).trans (setLog_logOf s m _)

/-- A flush of a log that has room puts the buffered records behind those in MRAM, in order. -/
theorem flushLog_moves_buffer (thawed : (s.logOf m).freeze = none) (room : (heldRecords s m).length ≤ logSize m) :
    ((s.flushLog m).logOf m).mram = heldRecords s m ∧ ((s.flushLog m).logOf m).buf = [] := by
  by_cases empty : (s.logOf m).buf = []
  · rw [flushLog_of_empty empty]
    exact ⟨by simp [empty], empty⟩
  · rw [flushLog_logOf thawed empty room]
    exact ⟨rfl, rfl⟩

/-! ### Records (R376, R378) -/

/-- A record for which the buffer has room takes its number and its place there. -/
theorem pushRecord_of_room {r : EvRec} (room : (s.logOf m).buf.length < logPart m) :
    s.pushRecord m r = (s.count 0x0E01 (logInst m) 1).setLog m
      { s.logOf m with seq := r.seq, lost := false, buf := (s.logOf m).buf ++ [r] } :=
  if_neg room.not_ge

/-- A general record of severity 0 to 2 for which the buffer has room causes no flush (R379). -/
theorem admitGen_of_room {code u sev supp at_ : Nat} {par : DWord} (room : s.evt.gen.buf.length < 768) (mild : sev < 3) :
    s.admitGen code u sev supp at_ par = s.pushRecord false (s.evRecord false code u sev supp false at_ par) := by
  have no_flush : ¬logPart false ≤ s.evt.gen.buf.length := room.not_ge
  unfold State.admitGen
  dsimp only
  rw [if_neg no_flush, if_neg mild.not_ge]

/-- A general code of class 1 to 3 whose bucket is empty is counted in its bucket and in EVT_SUPPRESSED alone (R378). -/
theorem logEv_of_suppressed {code u at_ : Nat} {par : DWord} (limited : (evInfo code).2.1 ≠ 0)
    (general : (evInfo code).2.2.1 = true) (unlogged : (evInfo code).2.2.2 = false) (empty : (s.bucket code).tokens = 0) :
    s.logEv code u at_ par =
      (s.setBucket code { s.bucket code with supp := (s.bucket code).supp + 1 }).count 0x0E02 0 1 := by
  unfold State.logEv State.logEvB
  rcases info : evInfo code with ⟨sev, cls, g, met⟩
  simp only [info] at limited general unlogged
  subst general unlogged
  simp only [limited, empty, decide_false, Bool.or_self, Bool.false_eq_true, if_false, if_true]

/-! ### The recorder's timers (R379, R382) -/

theorem exec_logFlushTimer_of_due (up : (s.advance dt).up = true) (due : (s.advance dt).evt.flushAt + 5 * sec ≤ (s.advance dt).now) :
    exec (.logFlushTimer dt) s =
      .next { s.advance dt with evt := { (s.advance dt).evt with flushAt := (s.advance dt).now } }.flushLogs :=
  congrArg Host.Outcome.next (if_pos (by simp only [up, due, decide_true, Bool.and_self]))

theorem exec_logFlushTimer_of_early
    (early : (s.advance dt).up = false ∨ (s.advance dt).now < (s.advance dt).evt.flushAt + 5 * sec) :
    exec (.logFlushTimer dt) s = .next (s.advance dt) := by
  refine congrArg Host.Outcome.next (if_neg ?_)
  obtain down | early := early
  · simp only [down, Bool.false_and, Bool.false_eq_true, not_false_eq_true]
  · simp only [early.not_ge, decide_false, Bool.and_false, Bool.false_eq_true, not_false_eq_true]

theorem exec_freezeMaxTimeout {f : Freeze} (frozen : ((s.advance dt).logOf m).freeze = some f) :
    exec (.freezeMaxTimeout dt m) s = .next
      (if f.at_ + (s.advance dt).parN Par.EVT.FREEZE_MAX_S 0 * sec ≤ (s.advance dt).now then (s.advance dt).endFreeze m 1
        else s.advance dt) := by
  change execFreezeMaxTimeout dt m s = _
  unfold execFreezeMaxTimeout
  dsimp only
  rw [frozen]

/-! ### The commands (R382) -/

/-- The records that a read of a log answers: from the SEQUENCE asked for on, as many as asked for. -/
abbrev recordsRead (t : State) (m : Bool) (q : Req) : List EvRec :=
  ((heldRecords t m).filter (fun r => decide ((q.w 4).toNat ≤ r.seq))).take (q.w 5).toNat

theorem readLog_of_count (least : 1 ≤ (q.w 5).toNat) (most : (q.w 5).toNat ≤ 2000) :
    t.readLog m q = (t.setLog m { t.logOf m with readTo := max (t.logOf m).readTo (lastSeqOf (recordsRead t m q)) },
      ok ([BitVec.ofNat 32 (recordsRead t m q).length, BitVec.ofNat 32 (firstSeq (heldRecords t m)),
        BitVec.ofNat 32 (t.logOf m).seq] ++ (recordsRead t m q).flatMap EvRec.words)) := by
  unfold State.readLog
  dsimp only
  rw [if_neg (by omega), if_neg most.not_gt]

/-- LOG_READ reads the general log, MLOG_READ the metrological one. -/
theorem exec_logRead {c : Instr} {op : Nat}
    (row : (m = false ∧ c = Instr.logRead dt q ∧ op = 0x0700) ∨ (m = true ∧ c = .mlogRead dt q ∧ op = 0x0704)) :
    exec c s = .next ((s.advance dt).serve q op 0x0E 0 2 true (fun _ s => s.readLog m q)) := by
  obtain ⟨rfl, rfl, rfl⟩ | ⟨rfl, rfl, rfl⟩ := row
  · rfl
  · rfl

theorem freezeLog_of_frozen (frozen : (t.logOf m).freeze ≠ none) : t.freezeLog m = (t, err 0x0126) :=
  if_pos (Option.isSome_iff_ne_none.mpr frozen)

theorem freezeLog_of_thawed (thawed : (t.logOf m).freeze = none) :
    t.freezeLog m =
      (({ t with evt := { t.evt with freezeId := t.evt.freezeId + 1 } } : State).setLog m { t.logOf m with
          freeze := some { id := (Config.freezeId t.evt.freezeId).toNat, at_ := t.now, lost := 0 } },
        ok [BitVec.ofNat 32 (Config.freezeId t.evt.freezeId).toNat, BitVec.ofNat 32 (firstSeq (heldRecords t m)),
          BitVec.ofNat 32 (lastSeqOf (heldRecords t m))]) :=
  if_neg (Option.not_isSome_iff_eq_none.mpr thawed)

theorem thawLog_of_frozen {f : Freeze} (frozen : (t.logOf m).freeze = some f) (id : Nat) :
    t.thawLog m id = if f.id ≠ id then (t, err 0x0106) else (t.endFreeze m 0, ok [BitVec.ofNat 32 f.lost]) := by
  unfold State.thawLog
  rw [frozen]

theorem clearLog_of_thawed (thawed : (t.logOf false).freeze = none) :
    t.clearLog = ((t.setLog false { t.logOf false with mram := [], buf := [], near := false }).logEv 0x0002 0x0E t.now
      (evPar (lastSeqOf (heldRecords t false)) (heldRecords t false).length),
      ok [BitVec.ofNat 32 (heldRecords t false).length]) :=
  if_neg (Option.not_isSome_iff_eq_none.mpr thawed)

/-- LOG_FREEZE serves the log that bit 0 names. -/
theorem exec_logFreeze (named : q.bits 4 0 0 = 1 ↔ m = true) :
    exec (.logFreeze dt q) s = .next ((s.advance dt).serve q 0x0701 0x0E 0 1 true (fun _ s => s.freezeLog m)) := by
  rw [← show (q.bits 4 0 0 == 1) = m from Bool.eq_iff_iff.mpr (beq_iff_eq.trans named)]
  rfl

/-- LOG_THAW serves the log that bit 0 names. -/
theorem exec_logThaw (named : q.bits 4 0 0 = 1 ↔ m = true) :
    exec (.logThaw dt q) s =
      .next ((s.advance dt).serve q 0x0702 0x0E 0 1 true (fun _ s => s.thawLog m (q.bits 4 31 16))) := by
  rw [← show (q.bits 4 0 0 == 1) = m from Bool.eq_iff_iff.mpr (beq_iff_eq.trans named)]
  rfl

end Logs

/-- Settles O56: a record with room is pushed and no more (`admitGen_of_room`, `pushRecord_of_room`), a flush with room moves the
buffer (`flushLog_moves_buffer`), and each timer acts on its guard. -/
theorem recordsAreNumberedBufferedAndLimited : Obligations.RecordsAreNumberedBufferedAndLimited := by
  rintro s a dt rfl
  refine ⟨?numbered, fun m thawed room => flushLog_moves_buffer thawed (by rwa [List.length_append]),
    fun m frozen => flushLog_of_frozen frozen, ?suppressed, exec_logFlushTimer_of_due, exec_logFlushTimer_of_early, ?frozen, ?refill⟩
  case numbered =>
    intro code u sev supp at_ par room mild
    rw [admitGen_of_room room mild, pushRecord_of_room (m := false) room]
    exact ⟨(s.advance dt).evRecord false code u sev supp false at_ par, rfl, rfl, rfl, rfl, rfl, rfl⟩
  case suppressed =>
    intro code u at_ par limited general unlogged empty
    rw [logEv_of_suppressed limited general unlogged empty]
    exact ⟨rfl, congrArg Bucket.supp (setBucket_bucket _ _ _)⟩
  case frozen =>
    intro m f frozen
    rw [exec_freezeMaxTimeout frozen]
    exact ⟨fun due => congrArg Host.Outcome.next (if_pos due), fun early => congrArg Host.Outcome.next (if_neg early.not_ge)⟩
  case refill =>
    intro code fell whole
    exact ⟨fun short ungained => congrArg Host.Outcome.next (if_pos ⟨short, fell, whole, ungained⟩),
      fun idle => congrArg Host.Outcome.next (if_neg fun ⟨short, _, _, ungained⟩ => by omega)⟩

/-- Settles O55: each command serves the log that it names (`exec_logRead`, `exec_logFreeze`, `exec_logThaw`), and its guards let its
request through. -/
theorem logsAnswerTheirCommands : Obligations.LogsAnswerTheirCommands := by
  intro s t dt q role m l all
  refine ⟨?read, ?freeze, ?thaw, fun adm => ⟨?readOnly, ?clear⟩⟩
  case read =>
    intro c op row adm least most recs ws fit
    rw [exec_logRead row]
    exact congrArg Host.Outcome.next (serve_ok adm (readLog_of_count least most) fit)
  case freeze =>
    intro adm named
    rw [exec_logFreeze named]
    exact ⟨fun frozen => congrArg Host.Outcome.next (serve_turnedAway adm (freezeLog_of_frozen frozen)),
      fun thawed => congrArg Host.Outcome.next (serve_ok_short adm (freezeLog_of_thawed thawed) (by decide : 3 ≤ 10))⟩
  case thaw =>
    intro adm named f frozen
    rw [exec_logThaw named]
    exact ⟨fun right => congrArg Host.Outcome.next
        (serve_ok_short adm ((thawLog_of_frozen frozen _).trans (if_neg (not_not_intro right))) (by decide : 1 ≤ 10)),
      fun wrong => congrArg Host.Outcome.next (serve_turnedAway adm ((thawLog_of_frozen frozen _).trans (if_pos wrong)))⟩
  case readOnly =>
    exact fun metrological => congrArg Host.Outcome.next (serve_turnedAway adm (if_pos metrological))
  case clear =>
    rintro general rfl thawed
    have not_metrological : ¬q.bits 4 0 0 = 1 := by omega
    exact congrArg Host.Outcome.next
      (serve_ok_short adm ((if_neg not_metrological).trans (clearLog_of_thawed thawed)) (by decide : 1 ≤ 10))

end Sys2Proof.Laws
end

section
/-! SUPPORT. The queue: a step is the meaning of the command in front, every command has one, and none clears DEGRADED (R461). -/

namespace Sys2Proof.Laws

open Sys2Proof.Machine

/-- Settles O1: this is how a step is defined. -/
theorem stepRunsTheFrontCommand : Obligations.StepRunsTheFrontCommand := fun _ _ _ => rfl

/-- The end of a log freeze is the one command whose meaning asks something first; either answer is a next state. -/
theorem freezeMaxTimeout_goesOn (dt : Nat) (m : Bool) (s : State) : ∃ t, execFreezeMaxTimeout dt m s = .next t := by
  unfold execFreezeMaxTimeout
  dsimp only
  split
  · exact ⟨_, rfl⟩
  · exact ⟨_, rfl⟩

/-- The meaning of every other command is `.next` of something, whatever its operands are. -/
theorem exec_goesOn (c : Instr) (s : State) : ∃ t, exec c s = .next t := by
  cases c with
  | freezeMaxTimeout dt m => exact freezeMaxTimeout_goesOn dt m s
  | _ => exact ⟨_, rfl⟩

/-- On an empty queue the block idles (log 2). -/
theorem step_of_empty {s : State} (empty : s.pending = []) : step s = .next s := by
  rw [step, empty]

/-- Settles O2: every command goes on (`exec_goesOn`), and on an empty queue the block idles (`step_of_empty`). -/
theorem everyStepGoesOn : Obligations.EveryStepGoesOn := ⟨exec_goesOn, fun _ => step_of_empty⟩

/-- No kind of write clears DEGRADED: one sets it or leaves it (`degrade`), the others do not name it (`Guarded`). -/
theorem Reaches.degraded {σ : Scope} {s₀ s : State} (h : Reaches σ s₀ s) (set : s₀.mem.degraded = true) : s.mem.degraded = true := by
  induction h with
  | here => exact set
  | write _ guarded ih =>
    obtain ⟨-, -, -, -, degraded, -, -⟩ := guarded
    exact degraded.trans ih
  | send _ _ ih => exact ih
  | degrade b _ ih => exact Bool.or_eq_true_iff.mpr (.inl ih)
  | touch _ _ _ ih => exact ih
  | opened _ _ _ _ ih => exact ih
  | ended _ _ ih => exact ih
  | power _ _ _ ih => exact ih
  | config _ _ _ ih => exact ih

/-- Settles O6: a step writes DEGRADED in the ways of `Reaches` alone (`step_reaches`), and none of these clears it. -/
theorem degradedNeverClears : Obligations.DegradedNeverClears :=
  fun _ _ set e => (step_reaches e).degraded set

end Sys2Proof.Laws
end

section
/-! SUPPORT. What the work of the units leaves alone, whatever they do as they stop, are reset or resume: the run states and epochs of
the units, the firmware that runs, and the configuration in flash. `Reaches` does not speak of these. -/

namespace Sys2Proof.Laws

open Sys2Proof.Machine

/-- The units' states, the running bank, an activation and the flash are in `s` as they were in `s₀`. -/
def ModuleStands (s₀ s : State) : Prop :=
  s.units = s₀.units ∧ s.pwr.bank = s₀.pwr.bank ∧ s.pwr.activate = s₀.pwr.activate ∧ s.ctl.flash = s₀.ctl.flash ∧
    s.ctl.cfgSlot = s₀.ctl.cfgSlot

section Operations

variable {s₀ s t : State}

theorem ModuleStands.refl (s : State) : ModuleStands s s := ⟨rfl, rfl, rfl, rfl, rfl⟩

/-- On record updates: any field may be written but those `ModuleStands` names. -/
theorem ModuleStands.set (h : ModuleStands s₀ s) {pending ident lands alarms prt tim ing aln osc arm cus cnv flt cap lgc vlt evt mem out
    dev supplies resetLow pfw pfwSaved loaded bootsel cause activeRec fallback recovery bank0 bank1 stage fwNew ruleDue configAt
    cfg journal image included maquette commit commitNo conflicts consolidations consolidating sessions buffers unfetched owed
    lastCmdRing rings hostCtl irqHoldoff msix irqLast irqHeld latches noticeSeq subs tcp reasm counters linkUp drain selfTest
    statsStart delays ready waits maxDepth cores coreFails coreTestAt fifo taken fifoPeak} :
    ModuleStands s₀ ⟨pending, ident,
      ⟨dev, supplies, resetLow, pfw, pfwSaved, loaded, bootsel, cause, activeRec, s.pwr.bank, fallback, recovery, bank0, bank1, stage,
        s.pwr.activate, fwNew, ruleDue, configAt⟩,
      s.units, lands, alarms,
      ⟨cfg, s.ctl.flash, journal, image, included, maquette, commit, commitNo, conflicts, s.ctl.cfgSlot, consolidations, consolidating,
        sessions, buffers, unfetched, owed, lastCmdRing, rings, hostCtl, irqHoldoff, msix, irqLast, irqHeld, latches, noticeSeq,
        subs, tcp, reasm, counters, linkUp, drain, selfTest, statsStart, delays, ready, waits, maxDepth, cores, coreFails, coreTestAt,
        fifo, taken, fifoPeak⟩,
      prt, tim, ing, aln, osc, arm, cus, cnv, flt, cap, lgc, vlt, evt, mem, out⟩ := h

theorem ModuleStands.kept (h : ModuleStands s₀ s) (k : Kept s t) : ModuleStands s₀ t := by
  have stands : ModuleStands (settled s) (settled t) := k.1 ▸ .refl _
  obtain ⟨units, bank, activate, flash, slot⟩ := h
  obtain ⟨units', bank', activate', flash', slot'⟩ := stands
  exact ⟨units'.trans units, bank'.trans bank, activate'.trans activate, flash'.trans flash, slot'.trans slot⟩

theorem ModuleStands.taken (h : ModuleStands s₀ s) (k : Taken s t) : ModuleStands s₀ t := by
  rw [k.eq]
  exact h

theorem ModuleStands.ite {c : Prop} [Decidable c] (h : ModuleStands s₀ s) (g : ModuleStands s₀ t) :
    ModuleStands s₀ (if c then s else t) := by
  split
  · exact h
  · exact g

theorem ModuleStands.iteFst {α : Type} {c : Prop} [Decidable c] {p q : State × α} (h : ModuleStands s₀ p.1)
    (g : ModuleStands s₀ q.1) : ModuleStands s₀ (if c then p else q).1 := by
  split
  · exact h
  · exact g

theorem ModuleStands.foldl {α : Type} {f : State → α → State} {l : List α} (h : ModuleStands s₀ s)
    (step : ∀ {s a}, ModuleStands s₀ s → ModuleStands s₀ (f s a)) : ModuleStands s₀ (l.foldl f s) := by
  induction l generalizing s with
  | nil => exact h
  | cons a l ih => exact ih (step h)

theorem ModuleStands.foldlFst {α β : Type} {f : State × β → α → State × β} {p : State × β} {l : List α} (h : ModuleStands s₀ p.1)
    (step : ∀ {p a}, ModuleStands s₀ p.1 → ModuleStands s₀ (f p a).1) : ModuleStands s₀ (l.foldl f p).1 := by
  induction l generalizing p with
  | nil => exact h
  | cons a l ih => exact ih (step h)

/-! One lemma for each operation, as for `VaultStands`. -/

section

variable (h : ModuleStands s₀ s) {i j k l m n : Nat} {v w : Bool}

include h

/-! #### Messages and tasks -/

theorem ModuleStands.tcpEnd : ModuleStands s₀ (s.tcpEnd i) := h
theorem ModuleStands.count2 : ModuleStands s₀ (s.count2 i j k) := h.kept (count2_keptLogs _ _ _ _).1
theorem ModuleStands.takeWords : ModuleStands s₀ (s.takeWords i).1 := h.kept (takeWords_keptLogs _ _).1

theorem ModuleStands.completeSend {stamp : Option Nat} : ModuleStands s₀ (s.completeSend i j stamp) :=
  h.set.kept (raiseIrq_keptLogs _ _).1

theorem ModuleStands.sendUdp {peer : Peer} {payload : List Byte} {msg : Option Output} :
    ModuleStands s₀ (s.sendUdp i j k peer payload msg) :=
  h.kept (sendUdp_keptLogs _ _ _ _ _ _ _).1

theorem ModuleStands.sendTcp {data : List Byte} {msg : Option Output} : ModuleStands s₀ (s.sendTcp i j data msg) :=
  h.kept (sendTcp_keptLogs _ _ _ _ _).1

theorem ModuleStands.notify {payload : List Word} : ModuleStands s₀ (s.notify i j k payload) := h.kept (notify_keptLogs _ _ _ _ _).1
theorem ModuleStands.logEv {par : DWord} : ModuleStands s₀ (s.logEv i j k par) := h.kept (logEv_kept _ _ _ _ _)
theorem ModuleStands.logCus {par : DWord} : ModuleStands s₀ (s.logCus i j par) := h.kept (logCus_kept _ _ _ _)
theorem ModuleStands.answerLater {q : Req} {a : Ans} : ModuleStands s₀ (s.answerLater q i j a) :=
  h.kept (answerLater_keptLogs _ _ _ _ _).1

theorem ModuleStands.taskReady : ModuleStands s₀ (s.taskReady i j) := h.set.taken (noteDepth_taken _ _)
theorem ModuleStands.taskWaits : ModuleStands s₀ (s.taskWaits i j k) := .ite h.taskReady h.set

theorem ModuleStands.prerequisiteDone : ModuleStands s₀ (s.prerequisiteDone i) := by
  unfold State.prerequisiteDone
  split
  · exact .ite h.set.taskReady h.set
  · exact h

/-! #### Recorders, alarms and ports -/

theorem ModuleStands.capPulse : ModuleStands s₀ (s.capPulse i) := .ite h.set h

theorem ModuleStands.endRecordTo : ModuleStands s₀ (s.endRecordTo i j k) := by
  unfold State.endRecordTo
  dsimp only
  split
  · exact h
  · exact h.set.notify

theorem ModuleStands.startRecord : ModuleStands s₀ (s.startRecord i j k) := by
  unfold State.startRecord
  extract_lets r clamped k before rows left open_ step need kept gone c _ _ s₁
  have h₁ : ModuleStands s₀ s₁ := (ModuleStands.ite h h.set).set.capPulse
  exact .ite h₁.endRecordTo h₁

theorem ModuleStands.rollMark : ModuleStands s₀ (s.rollMark i j k) := h.set.capPulse.notify

theorem ModuleStands.capFire {t : Nat × Nat} : ModuleStands s₀ (s.capFire i t) := by
  unfold State.capFire
  dsimp only
  split
  · exact .ite h.rollMark (.ite h.set h.startRecord)
  · exact .ite h.rollMark (.ite h.set h.startRecord)
  · exact h.set
  · exact h.set.logEv
  · exact h.set
  · exact h

theorem ModuleStands.capFires {l : List (Nat × Nat)} : ModuleStands s₀ (s.capFires i l) := h.foldl fun h => h.capFire

theorem ModuleStands.capEvent {hit : Nat → Option Bool} : ModuleStands s₀ (s.capEvent i hit j) :=
  .ite (h.foldl fun h => .ite h h.capFires) h

theorem ModuleStands.alarmT : ModuleStands s₀ (s.alarmT i j k v w l) := .ite h h.set.notify.capEvent
theorem ModuleStands.bringUp : ModuleStands s₀ (s.bringUp i) := .ite h.set h
theorem ModuleStands.dropQueued : ModuleStands s₀ (s.dropQueued i j) := h.set.foldl fun h => h.completeSend
theorem ModuleStands.linkDown : ModuleStands s₀ (s.linkDown i) := .ite h.set.dropQueued h
theorem ModuleStands.shift : ModuleStands s₀ (s.shift i v) := h.set.logEv.linkDown.bringUp

theorem ModuleStands.portCommit : ModuleStands s₀ (s.portCommit i v w) := by
  unfold State.portCommit
  extract_lets _ s₁
  have h₁ : ModuleStands s₀ s₁ := .ite h.linkDown.set.bringUp h
  exact .ite (.ite h₁.set.shift h₁.set) h₁

/-! #### Slots and their editions -/

theorem ModuleStands.countPod : ModuleStands s₀ (s.countPod i j k) := h.kept (countPod_keptLogs _ _ _ _).1

theorem ModuleStands.podDataTo {d : NoticeDest} {o : OafOut} : ModuleStands s₀ (s.podDataTo i d v o) :=
  h.kept (podDataTo_keptLogs _ _ _ _ _).1

theorem ModuleStands.editionTo {x : Slot} {o : OafOut} : ModuleStands s₀ (s.editionTo i j x k o l) :=
  h.kept (editionTo_keptLogs _ _ _ _ _ _ _).1

theorem ModuleStands.sendLayout {d : PodDef} : ModuleStands s₀ (s.sendLayout i d v) := h.kept (sendLayout_keptLogs _ _ _ _).1
theorem ModuleStands.layoutFirst {d : PodDef} : ModuleStands s₀ (s.layoutFirst i d) := .ite h.sendLayout.set h

theorem ModuleStands.egress {x : Slot} : ModuleStands s₀ (s.egress i j x k l) :=
  .ite (((ModuleStands.ite h.layoutFirst h).foldl fun h => h.editionTo).foldl fun h => h.podDataTo) h

theorem ModuleStands.slotEvent {x : Slot} : ModuleStands s₀ (s.slotEvent i j x k l v) := .ite h.notify h
theorem ModuleStands.freeStore {x : Slot} : ModuleStands s₀ (s.freeStore x) := .ite h h.set
theorem ModuleStands.feedTrackers {x : Slot} : ModuleStands s₀ (s.feedTrackers i j x) := h.foldl fun h => .ite h.set h

theorem ModuleStands.feedLogic {x : Slot} : ModuleStands s₀ (s.feedLogic i j x) := by
  unfold State.feedLogic
  dsimp only
  split
  · exact .ite h.set h
  · exact h.set

theorem ModuleStands.closeSlotCore : ModuleStands s₀ (s.closeSlotCore i j k) := by
  unfold State.closeSlotCore
  split
  · exact h
  · refine .ite h ?_
    extract_lets pod es soon missing y _ _ _ s₁
    have h₁ : ModuleStands s₀ s₁ := h.freeStore.set.countPod.countPod
    exact .ite (.ite h₁.countPod h₁) (ModuleStands.ite h₁.countPod h₁).feedTrackers.feedLogic.egress.slotEvent

theorem ModuleStands.deepReady : ModuleStands s₀ (s.deepReady i j) := by
  unfold State.deepReady
  split
  · exact h
  · exact .ite h.takeWords.set.feedTrackers.feedLogic.egress.slotEvent h

theorem ModuleStands.revise {x : Slot} : ModuleStands s₀ (s.revise i j x k v) := h.set.countPod.egress.slotEvent

theorem ModuleStands.finish : ModuleStands s₀ (s.finish i j k) := by
  unfold State.finish
  split
  · exact h
  · exact .ite h (.ite h.set.slotEvent h.revise)

theorem ModuleStands.pruneDests : ModuleStands s₀ (s.pruneDests i) := h.set.foldl fun h => h.tcpEnd

theorem ModuleStands.lateEntry {x : Slot} {e : Entry} : ModuleStands s₀ (s.lateEntry i j k x e v) :=
  .ite h.countPod (.ite h.countPod (.ite h.countPod (.ite h.countPod h.set.countPod)))

theorem ModuleStands.openEntry {x : Slot} {e : Entry} : ModuleStands s₀ (s.openEntry i j k l x e) := .ite h.set h.set

theorem ModuleStands.reform {x : Slot} : ModuleStands s₀ (s.reform i j x) := by
  refine h.freeStore.set.foldl fun {s e} h => ?_
  split
  · refine .ite ?_ h.countPod
    extract_lets d
    split
    · extract_lets s₁
      have opened : ModuleStands s₀ s₁ := .ite h.set h
      split
      · refine .ite opened.lateEntry (.ite opened.countPod ?_)
        extract_lets s₂
        split
        · exact opened.openEntry.set
        · exact opened.openEntry
      · exact opened.countPod
    · exact h.countPod
  · exact h

theorem ModuleStands.podCommit {commit : Word} : ModuleStands s₀ (s.podCommit i commit j) :=
  ((ModuleStands.ite h.set h.set).foldl fun h => h.reform).pruneDests

theorem ModuleStands.alnFinalise : ModuleStands s₀ s.alnFinalise :=
  ((h.foldl fun h => h.closeSlotCore).foldl fun h => h.deepReady).foldl fun h => h.finish

/-! #### Branches, stations and sources -/

theorem ModuleStands.needRecompute : ModuleStands s₀ (s.needRecompute i v) := .ite h.set h.set
theorem ModuleStands.branchSet : ModuleStands s₀ (s.branchSet i v j w) := .ite h h.set.needRecompute

theorem ModuleStands.branchBad {d : BranchDef} {since : Option Nat} : ModuleStands s₀ (s.branchBad i d since j v) :=
  .ite h.set h.set.alarmT.branchSet

theorem ModuleStands.branchReport {d : BranchDef} {r : StatusRep} : ModuleStands s₀ (s.branchReport i d r j v) := by
  unfold State.branchReport
  dsimp only
  split
  · exact h.set.alarmT.branchSet
  · exact .ite h h.set
  · exact h.branchBad

theorem ModuleStands.stationLost : ModuleStands s₀ (s.stationLost i) := .ite h h.set.logEv.alarmT

theorem ModuleStands.c37SendTo {d : SrcDef} : ModuleStands s₀ (s.c37SendTo i d j) := by
  unfold State.c37SendTo
  dsimp only
  refine .ite ?_ ?_
  · split
    · exact h.sendTcp
    · exact h
  · split
    · exact h.sendUdp
    · exact h

theorem ModuleStands.c37Send : ModuleStands s₀ (s.c37Send i j) := by
  unfold State.c37Send
  split
  · exact h.c37SendTo
  · exact h

theorem ModuleStands.askCfg {d : SrcDef} : ModuleStands s₀ (s.askCfg i d) := h.set.c37Send

/-! #### Detectors and trackers -/

theorem ModuleStands.fdJudge : ModuleStands s₀ (s.fdJudge i j) :=
  (ModuleStands.ite (ModuleStands.ite h.set.alarmT h).set.alarmT (.ite h.set.alarmT h)).set

theorem ModuleStands.fdValid {e : Entry} : ModuleStands s₀ (s.fdValid i j e) :=
  .ite (ModuleStands.ite h.alarmT h).set (ModuleStands.ite h.alarmT h).set.fdJudge

theorem ModuleStands.fdBad : ModuleStands s₀ (s.fdBad i j k v) := .ite h.set.alarmT.set.alarmT.set h.set

theorem ModuleStands.fdTake {x : Slot} : ModuleStands s₀ (s.fdTake i j x) :=
  .ite h (.ite h.set (.ite (ModuleStands.ite h.set h.set.fdBad).set.fdBad (ModuleStands.ite h.set h.set.fdBad).fdValid))

theorem ModuleStands.fdFirst : ModuleStands s₀ (s.fdFirst i j k) := by
  unfold State.fdFirst
  refine .ite ?_ h
  split
  · exact .ite h.fdTake h
  · exact h

theorem ModuleStands.fdCommit : ModuleStands s₀ (s.fdCommit i j) := h.alarmT.alarmT.set
theorem ModuleStands.clearModes : ModuleStands s₀ (s.clearModes i j) := h.foldl fun h => h.foldl fun h => h.alarmT

theorem ModuleStands.mtCommit : ModuleStands s₀ (s.mtCommit i j) :=
  .ite (.ite h.clearModes.alarmT.set.notify h.clearModes.alarmT.set) h.clearModes.alarmT.set

/-! #### Islands, networks and balances -/

theorem ModuleStands.applyTopology : ModuleStands s₀ s.applyTopology := h.set.foldl fun h => h.set

theorem ModuleStands.updateIslands : ModuleStands s₀ (s.updateIslands i v).1 :=
  ((ModuleStands.ite h.set h.set).alarmT.foldl fun h => h.alarmT).foldl fun h => h.alarmT

theorem ModuleStands.reportIslands {α : Type} [DecidableEq α] {old : List Island} {f : Island → α} {reason : Nat → Nat}
    {always : Nat → Bool} : ModuleStands s₀ (s.reportIslands old f reason i always) :=
  h.foldl fun h => .ite h.notify h

theorem ModuleStands.recomputeDone {fresh : Option Nat} : ModuleStands s₀ (s.recomputeDone fresh) := by
  unfold State.recomputeDone
  dsimp only
  split
  · exact h.set
  · exact .reportIslands h.set.applyTopology.updateIslands

theorem ModuleStands.measNode {m : MeasRes} : ModuleStands s₀ (s.measNode i j v m) := .ite h.set (.ite h.set h.set)

theorem ModuleStands.measure {x : Slot} : ModuleStands s₀ (s.measure i j x) := by
  unfold State.measure
  extract_lets nodes ty
  split
  · exact h
  · extract_lets aOk _ _ _ others res ds _ _ _ _ s₁
    have measured : ModuleStands s₀ s₁ := by
      refine .ite ?_ ?_
      · exact .set (h.set.foldl fun g => g.measNode)
      · exact h.set.foldl fun g => g.set
    refine .ite (.ite (.notify ?_) ?_) (.ite measured.notify measured)
    · exact .reportIslands measured.updateIslands
    · exact .reportIslands measured.updateIslands

theorem ModuleStands.statusBits {x : Slot} : ModuleStands s₀ (s.statusBits i j x) := by
  unfold State.statusBits
  dsimp only
  refine h.foldl fun h => ?_
  split
  · exact h.branchReport
  · exact h

theorem ModuleStands.armTake {x : Slot} : ModuleStands s₀ (s.armTake i j x) := by
  unfold State.armTake
  refine .ite h.set ?_
  extract_lets _ _ before _ fresh _ _ s₁
  have h₁ : ModuleStands s₀ s₁ := .ite h.set.statusBits.set.needRecompute h.set.statusBits.set
  exact (ModuleStands.ite h₁ (.ite (ModuleStands.ite h₁.recomputeDone h₁).recomputeDone (.ite h₁.recomputeDone h₁))).measure

theorem ModuleStands.balJudge {p : List DWord} : ModuleStands s₀ (s.balJudge i j p) := by
  unfold State.balJudge
  extract_lets r tput tau x above below _ k up _ s₁
  have h₁ : ModuleStands s₀ s₁ := .ite h.set.alarmT h.set
  exact .ite h₁.set.alarmT h₁

theorem ModuleStands.balFirst : ModuleStands s₀ (s.balFirst i j k) := by
  unfold State.balFirst
  split
  · refine .ite ?_ h
    dsimp only
    split
    · exact h.set.balJudge
    · exact h.set
  · exact h

theorem ModuleStands.recNext : ModuleStands s₀ (s.recNext i j k) := by
  unfold State.recNext
  dsimp only
  split
  · exact .ite h.set h
  · exact h

theorem ModuleStands.balTake : ModuleStands s₀ (s.balTake i j k) := by
  unfold State.balTake
  split
  · exact .ite (.ite h.recNext.set h.recNext) h
  · exact h

theorem ModuleStands.balTakeAll : ModuleStands s₀ (s.balTakeAll i j) := .ite (h.foldl fun h => h.balTake) h
theorem ModuleStands.balCommit : ModuleStands s₀ (s.balCommit i j) := h.alarmT.set

theorem ModuleStands.branchStart {d : BranchDef} : ModuleStands s₀ (s.branchStart i d j) := by
  unfold State.branchStart
  dsimp only
  split
  · exact h.set
  · exact h.set.branchReport
  · refine .ite h.set.branchReport ?_
    split
    · exact h.set.branchReport
    · exact h.set
  · refine .ite h.set.branchReport ?_
    split
    · exact h.set.branchReport
    · exact h.set
  · exact h.set

theorem ModuleStands.armStart : ModuleStands s₀ s.armStart :=
  (h.foldl fun h => h.branchStart).set.needRecompute.foldl fun h => .ite h h.set

theorem ModuleStands.armCommit {branches nodes nets : List Nat} : ModuleStands s₀ (s.armCommit branches nodes nets i) := by
  unfold State.armCommit
  refine .ite h ?_
  extract_lets _ _ s₁
  have h₁ : ModuleStands s₀ s₁ := by
    dsimp only [s₁]
    refine .foldl (.foldl (h.foldl fun h => ?_) fun h => h.set) fun h => h.set
    dsimp only
    split
    · exact h.alarmT.set.branchStart
    · exact h.alarmT.set
  exact .ite h₁.needRecompute h₁

/-! #### Filters and converters -/

theorem ModuleStands.fltCommit {channels : List Nat} : ModuleStands s₀ (s.fltCommit channels) := h.foldl fun h => h.set
theorem ModuleStands.refreshExc : ModuleStands s₀ s.refreshExc := (h.foldl fun h => .ite h h.set).set

theorem ModuleStands.endCycle : ModuleStands s₀ (s.endCycle i) := by
  unfold State.endCycle
  split
  · exact .ite h.set h.set
  · exact h

theorem ModuleStands.cnvCommit {selGain preset avg : List Nat} : ModuleStands s₀ (s.cnvCommit selGain preset avg v) := by
  unfold State.cnvCommit
  extract_lets _ s₁
  have h₁ : ModuleStands s₀ s₁ := (h.foldl fun h => h.endCycle).foldl fun h => h.set
  exact (ModuleStands.ite h₁.set.refreshExc h₁).fltCommit

/-! #### Capture rows and logic -/

theorem ModuleStands.edges {row : CapRow} : ModuleStands s₀ (s.edges i row).1 := by
  unfold State.edges
  dsimp only
  refine h.foldlFst fun h => .iteFst ?_ h
  split
  · exact h.set
  · exact h

theorem ModuleStands.appendRow {row : CapRow} : ModuleStands s₀ (s.appendRow i row) := by
  unfold State.appendRow
  dsimp only
  split
  · exact h.set
  · exact h.set
  · exact h.set
  · split
    · exact h.set
    · exact h.set
  · exact h.set

theorem ModuleStands.settle {causes : List Nat} : ModuleStands s₀ (s.settle i j causes) :=
  .ite h.set.capFires.endRecordTo h.set.capFires

theorem ModuleStands.newRow {row : CapRow} : ModuleStands s₀ (s.newRow i row) := by
  unfold State.newRow
  dsimp only
  exact (h.foldl fun h => h.appendRow.settle).appendRow.edges.settle

theorem ModuleStands.lateRow {row : CapRow} : ModuleStands s₀ (s.lateRow i row) := by
  unfold State.lateRow
  dsimp only
  exact .ite h.set (.ite h h.set.edges.settle)

theorem ModuleStands.loseRow : ModuleStands s₀ (s.loseRow i j) := .ite h.set (.ite h.set.endRecordTo h.set)

theorem ModuleStands.rowTaken : ModuleStands s₀ (s.rowTaken i j) := by
  unfold State.rowTaken
  refine .ite ?_ h
  split
  · exact h.set
  · exact h

theorem ModuleStands.capTake : ModuleStands s₀ (s.capTake i j v) := by
  unfold State.capTake
  refine .ite ?_ h
  split
  · exact .ite h.rowTaken.lateRow (.ite h.rowTaken.loseRow h.rowTaken.newRow)
  · exact h

theorem ModuleStands.capStop : ModuleStands s₀ (s.capStop i j) := .ite h h.set.endRecordTo.set
theorem ModuleStands.capStopAll : ModuleStands s₀ (s.capStopAll i) := h.foldl fun h => h.capStop
theorem ModuleStands.capCommit {commit : Word} : ModuleStands s₀ (s.capCommit i commit) := h.capStop.set

theorem ModuleStands.stationsStart {im : Image} : ModuleStands s₀ (s.stationsStart im) :=
  (h.foldl fun h => h.set.alarmT).foldl fun h => .ite (.ite h.set.stationLost h.set) h.set

theorem ModuleStands.lgcStart {im : Image} : ModuleStands s₀ (s.lgcStart im) := h.set.stationsStart

theorem ModuleStands.lgcResume : ModuleStands s₀ s.lgcResume := by
  unfold State.lgcResume
  split
  · exact .ite (.ite h.lgcStart h.set) h
  · exact h

theorem ModuleStands.lgcSuspend : ModuleStands s₀ s.lgcSuspend := .ite (.ite h.set h.set) h

/-! #### Custody points -/

theorem ModuleStands.setPoint {x : Point} : ModuleStands s₀ (s.setPoint i x) := h.set
theorem ModuleStands.register {amount : Rat} : ModuleStands s₀ (s.register i j amount) := h.set

theorem ModuleStands.gapRecords : ModuleStands s₀ (s.gapRecords i j k l m) := by
  induction i generalizing s l m with
  | zero => exact h
  | succ i ih => exact ih h.logCus

theorem ModuleStands.gapNow : ModuleStands s₀ (s.gapNow i j k l) := .ite h.set.gapRecords h
theorem ModuleStands.gapMerge : ModuleStands s₀ (s.gapMerge i j k l) := h.set

theorem ModuleStands.gapClose : ModuleStands s₀ (s.gapClose i) := by
  unfold State.gapClose
  dsimp only
  split
  · exact h
  · exact h.gapRecords

theorem ModuleStands.boundaryFirst : ModuleStands s₀ (s.boundaryFirst i) := .ite h h.taskWaits

theorem ModuleStands.absorb : ModuleStands s₀ (s.absorb i j) := by
  unfold State.absorb
  dsimp only
  refine .set (h.foldl fun h => ?_)
  split
  · exact h.set
  · exact h

theorem ModuleStands.closeInterval : ModuleStands s₀ (s.closeInterval i j k) :=
  .ite h.boundaryFirst.gapClose.set.absorb.prerequisiteDone h.boundaryFirst.gapClose.set.absorb.prerequisiteDone

theorem ModuleStands.boundaryDone : ModuleStands s₀ (s.boundaryDone i) := by
  unfold State.boundaryDone
  split
  · exact h
  · refine .ite h ?_
    extract_lets _ _ _ s₁
    have h₁ : ModuleStands s₀ s₁ := (ModuleStands.ite h.set h.set.logCus).alarmT
    exact .ite h₁.set.notify h₁

theorem ModuleStands.boundariesDone : ModuleStands s₀ s.boundariesDone := h.foldl fun h => h.boundaryDone
theorem ModuleStands.bookHole : ModuleStands s₀ (s.bookHole i j) := .ite h (ModuleStands.ite h h.gapMerge.count2.setPoint).setPoint

theorem ModuleStands.closeDue : ModuleStands s₀ (s.closeDue i j k) := by
  induction i generalizing s with
  | zero => exact h
  | succ i ih => exact .ite (ih h.bookHole.closeInterval) h

theorem ModuleStands.directionDue : ModuleStands s₀ (s.directionDue i) := by
  unfold State.directionDue
  dsimp only
  split
  · exact h
  · exact .ite h h.setPoint.logCus.alarmT.count2

theorem ModuleStands.endPending : ModuleStands s₀ (s.endPending i j) := h.set.foldl fun h => h.gapNow
theorem ModuleStands.stepDone {y : Ahead} : ModuleStands s₀ (s.stepDone i j y) := h.set

theorem ModuleStands.bookStep {qty : StepQty} : ModuleStands s₀ (s.bookStep i j k qty) := by
  unfold State.bookStep
  extract_lets _ _ s₁ x stop step late
  have h₁ : ModuleStands s₀ s₁ := (ModuleStands.ite h.directionDue h.directionDue.closeDue).endPending
  split
  · extract_lets _ s₁
    have h₁ : ModuleStands s₀ s₁ := (ModuleStands.ite h₁.setPoint.gapMerge h₁.setPoint).stepDone.count2
    exact .ite h₁.count2 h₁
  · exact h₁.setPoint.stepDone
  · extract_lets _ units _ s₁
    have h₁ : ModuleStands s₀ s₁ := (h₁.setPoint.foldl fun h => h.register).stepDone
    exact .ite h₁.count2 h₁

theorem ModuleStands.cusTake {x : Slot} : ModuleStands s₀ (s.cusTake i j x) := .ite h.bookStep.closeDue.boundariesDone h
theorem ModuleStands.cusTakeAll {x : Slot} : ModuleStands s₀ (s.cusTakeAll i j x) := h.foldl fun h => .ite h.cusTake h
theorem ModuleStands.cusCommit : ModuleStands s₀ s.cusCommit := h.foldl fun h => .ite (.ite h.set h.set) (.ite h.set h)
theorem ModuleStands.pointChanged : ModuleStands s₀ (s.pointChanged i) := .ite h h.set
theorem ModuleStands.cusOff : ModuleStands s₀ s.cusOff := h.foldl fun h => .ite h.bookHole.set h.bookHole

theorem ModuleStands.boundariesMissed : ModuleStands s₀ (s.boundariesMissed i j k l) := by
  induction j generalizing s k with
  | zero => exact h
  | succ j ih => exact .ite (ih h.prerequisiteDone) h

theorem ModuleStands.cusOn : ModuleStands s₀ s.cusOn := h.foldl fun h => .ite h.gapClose.boundariesMissed.set h.set

/-! #### A configuration comes into force (R62) -/

theorem ModuleStands.tcpFree {owners : List Nat} : ModuleStands s₀ (s.tcpFree i owners) := h.foldl fun h => h.tcpEnd

theorem ModuleStands.sourceCommit {r : State} : ModuleStands s₀ (r.sourceCommit s i j) := by
  unfold State.sourceCommit
  dsimp only
  split
  · refine .set (.tcpFree ?_)
    split
    · exact .ite (ModuleStands.ite h.set.alarmT h.set).c37SendTo (.ite h.set.alarmT h.set)
    · exact .ite h.set.alarmT h.set
  · exact .ite (ModuleStands.ite h.set.alarmT h.set).tcpFree.set.askCfg (ModuleStands.ite h.set.alarmT h.set).tcpFree.set

/-- A configuration that comes into force leaves the vault and the seal. -/
theorem ModuleStands.applyConfig {c : Config} {srcs : List Nat} {wrote : List (Nat × Nat)} :
    ModuleStands s₀ (s.applyConfig c i srcs wrote) := by
  unfold State.applyConfig
  extract_lets ch _ pods reshaped changed drains _ _ _ modes pcts _ _ banks _ _ fds _ mts _ _ bals s₁
  have h₁ : ModuleStands s₀ s₁ :=
    ((((((h.set.foldl fun h => h.sourceCommit).foldl fun h => h.portCommit).cnvCommit.foldl fun h => h.set).foldl fun h =>
      h.podCommit).foldl fun h => h.fdCommit).foldl fun h => h.mtCommit).armCommit.foldl fun h => h.balCommit
  exact (ModuleStands.ite h₁.cusCommit h₁).foldl fun h => h.capCommit

/-! #### Measuring stops and starts (R414, R415) -/

theorem ModuleStands.feedFinals : ModuleStands s₀ s.feedFinals := h.foldl fun h => h.cusTakeAll.balTakeAll

theorem ModuleStands.feedFirst : ModuleStands s₀ (s.feedFirst i j) := by
  unfold State.feedFirst
  extract_lets _ s₁
  have h₁ : ModuleStands s₀ s₁ := by
    dsimp only [s₁]
    refine (h.foldl fun h => h.fdFirst).foldl fun h => .ite ?_ h
    split
    · exact .ite h.armTake h
    · exact h
  exact (ModuleStands.ite (h₁.foldl fun h => h.balFirst) h₁).foldl fun h => .ite h.capTake h

theorem ModuleStands.finalsNow : ModuleStands s₀ s.finalsNow :=
  (ModuleStands.ite (h.alnFinalise.foldl fun h => h.feedFirst) h.alnFinalise).feedFinals

theorem ModuleStands.stopMeasuring : ModuleStands s₀ s.stopMeasuring := h.finalsNow.lgcSuspend.capStopAll.cusOff
theorem ModuleStands.enterConfig : ModuleStands s₀ s.enterConfig := (ModuleStands.ite h.stopMeasuring h).set

theorem ModuleStands.startMeasuring : ModuleStands s₀ s.startMeasuring := by
  unfold State.startMeasuring
  refine .lgcResume (.armStart (.cusOn (h.foldl fun g => ?_)))
  exact .ite g.set g

theorem ModuleStands.enterMeasuring {d : DevState} : ModuleStands s₀ (s.enterMeasuring d) := .ite h.set h.set.startMeasuring
theorem ModuleStands.enterRun : ModuleStands s₀ s.enterRun := h.enterMeasuring.set

/-- The end of the hold in SAFE leaves the vault and the seal. -/
theorem ModuleStands.leaveHold : ModuleStands s₀ s.leaveHold := .ite h.set.enterRun h.set.enterConfig

/-! #### The vault's journal (R258, R360) -/

theorem ModuleStands.changeSlot {x : KeySlot} : ModuleStands s₀ (s.changeSlot i x) := .set (h.foldl fun h => h.set)

theorem ModuleStands.sealLog : ModuleStands s₀ (s.sealLog i j) := h.kept (sealLog_kept _ _ _)
theorem ModuleStands.sealOp {c : DWord} : ModuleStands s₀ (s.sealOp i c) := h.sealLog
theorem ModuleStands.keyAccepted {x : Journal} : ModuleStands s₀ (s.keyAccepted x) := h.kept (keyAccepted_kept _ _)
theorem ModuleStands.clearPoint : ModuleStands s₀ (s.clearPoint i) := (h.foldl fun h => h.sealLog).set.pointChanged

theorem ModuleStands.cusUnfreeze : ModuleStands s₀ s.cusUnfreeze := (ModuleStands.ite (h.set.foldl fun h => h.gapNow) h).set

theorem ModuleStands.applySeal {c : DWord} : ModuleStands s₀ (s.applySeal c) := by
  unfold State.applySeal
  extract_lets hash _ s₁ s₂
  have entered : ModuleStands s₀ s₁ := by
    dsimp only [s₁]
    exact h.set.sealOp
  clear_value s₁
  have logged : ModuleStands s₀ s₂ := entered.foldl fun h => h.sealLog
  exact logged.cusUnfreeze

theorem ModuleStands.applySealed {items : List (Nat × Nat × List Word)} : ModuleStands s₀ (s.applySealed items) := by
  unfold State.applySealed
  extract_lets l _ kept points _ srcs _ _ s₁ _ _ after
  have h₁ : ModuleStands s₀ s₁ := (h.foldl fun h => h.sealLog).applyConfig.set
  exact (ModuleStands.ite h₁.set h₁).foldl fun h => h.pointChanged

theorem ModuleStands.applyVault {x : Journal} : ModuleStands s₀ (s.applyVault x) := by
  unfold State.applyVault
  extract_lets
  split
  · exact h.set.changeSlot.keyAccepted
  · exact h.set.changeSlot.set.keyAccepted
  · extract_lets _ _ _ s₁
    have h₁ : ModuleStands s₀ s₁ := h.set.changeSlot.set.alarmT.keyAccepted
    exact .ite h₁.leaveHold h₁
  · exact h.set.applySeal
  · exact h.set.sealOp
  · exact h.set.sealOp.foldl fun h => h.clearPoint
  · exact h.set.applySealed

theorem ModuleStands.journalCommit : ModuleStands s₀ s.journalCommit := by
  cases journal : s.vlt.journal with
  | none => rwa [State.journalCommit, journal]
  | some x => exact h.set.applyVault.kept (journalCommit_kept journal)

/-! #### The clock -/

theorem ModuleStands.timeChanged {step : Option Int} : ModuleStands s₀ (s.timeChanged v step) := by
  unfold State.timeChanged
  extract_lets q locked _ lockMoved tqMoved _ s₁ s₂ s₃ s₄
  have sent : ModuleStands s₀ s₂ := .ite h.set.notify.set h.set
  have changed : ModuleStands s₀ s₃ := .ite sent.logEv sent
  have stepped : ModuleStands s₀ s₄ := by
    dsimp only [s₄]
    split
    · exact changed.logEv
    · exact changed
  exact .ite (.ite stepped.enterRun stepped) stepped

theorem ModuleStands.timStop : ModuleStands s₀ s.timStop := by
  have stopped : ModuleStands s₀ (if s.tim.st = 2 then s.holdover else s) := .ite h.set.timeChanged h
  exact .ite stopped.set.set.timeChanged (.ite stopped.set.set.timeChanged stopped.set)

/-! #### Steps and saves of custody (R251, R252) -/

theorem ModuleStands.windowsTo : ModuleStands s₀ (s.windowsTo i j) := by
  refine h.foldl fun h => .ite ?_ h
  unfold State.windowStep
  dsimp only
  split
  · exact h.bookStep
  · exact h.bookStep
  · exact h.bookStep.setPoint

theorem ModuleStands.stepsEnd : ModuleStands s₀ (s.stepsEnd i) := h.foldl fun h => .ite h.windowsTo h
theorem ModuleStands.cusSave {x : Option Nat} : ModuleStands s₀ (s.cusSave i x) := h

theorem ModuleStands.cusLoad : ModuleStands s₀ s.cusLoad := by
  unfold State.cusLoad
  split
  · exact h
  · exact h.set.foldl fun h => h.set

/-! #### What a unit does as it stops, is reset and resumes (R424) -/

theorem ModuleStands.portsReset : ModuleStands s₀ s.portsReset :=
  h.foldl fun h => (ModuleStands.ite h.set h).set.foldl fun h => h.completeSend

theorem ModuleStands.alnClear : ModuleStands s₀ s.alnClear := by
  refine .set (h.foldl fun h => ?_)
  unfold State.releaseSlot
  split
  · exact h
  · exact h.set

theorem ModuleStands.cnvStop : ModuleStands s₀ s.cnvStop := by
  have cut : ModuleStands s₀ s.cutDwell := by
    unfold State.cutDwell
    split
    · exact .ite h h.set
    · exact h
  exact ((cut.foldl fun h => h.endCycle).foldl fun h => h.set).set.refreshExc

theorem ModuleStands.fltRestartAll : ModuleStands s₀ s.fltRestartAll := h.foldl fun h => h.set

theorem ModuleStands.refreshAlm : ModuleStands s₀ s.refreshAlm := h.set

theorem ModuleStands.oscReset : ModuleStands s₀ s.oscReset := by
  refine .refreshAlm ((h.foldl fun h => ?_).foldl fun h => ?_)
  · exact .ite h.alarmT.alarmT.set h
  · exact .ite h (.ite h.clearModes.alarmT.set.notify h.clearModes.alarmT.set)

theorem ModuleStands.recClose : ModuleStands s₀ (s.recClose i) := by
  unfold State.recClose
  dsimp only
  split
  · exact h
  · exact h.set.logEv

theorem ModuleStands.armReset : ModuleStands s₀ s.armReset := by
  unfold State.armReset
  extract_lets mine s₁ s₂
  have closed : ModuleStands s₀ s₂ :=
    (h.foldl fun h => h.alarmT).foldl fun h => .ite (h.foldl fun h => h.recClose).set (h.foldl fun h => h.recClose)
  clear_value s₂
  exact closed

theorem ModuleStands.cusReset : ModuleStands s₀ s.cusReset := (h.foldl fun h => h.set).cusLoad.foldl fun h => h.set
theorem ModuleStands.lgcOff : ModuleStands s₀ s.lgcOff := .ite h.set h

theorem ModuleStands.lgcReset : ModuleStands s₀ s.lgcReset := by
  have halted : ModuleStands s₀ (if s.lgc.st = 0 then s else s.lgcHalt (if s.lgc.st == 2 || s.lgc.st == 3 then 3 else 1)) := .ite h h.set
  unfold State.lgcReset
  dsimp only
  split
  · exact halted.set.answerLater
  · exact halted.set

theorem ModuleStands.ctlReset : ModuleStands s₀ s.ctlReset :=
  .set (h.foldl fun h => h.set.completeSend.foldl fun h => h.set)

theorem ModuleStands.poisonFlight : ModuleStands s₀ (s.poisonFlight i) := h
theorem ModuleStands.clearCounters : ModuleStands s₀ (s.clearCounters i) := h

theorem ModuleStands.unitStops : ModuleStands s₀ (s.unitStops i j) := by
  unfold State.unitStops
  split
  · exact h.timStop
  · exact h.feedFinals
  · exact h.cnvStop
  · exact h.stepsEnd.cusSave.cusOff
  · exact h.lgcOff
  · exact h.kept (flushLogs_kept _)
  · exact h

theorem ModuleStands.unitDiscards : ModuleStands s₀ (s.unitDiscards i) := by
  unfold State.unitDiscards
  split
  · exact h.portsReset
  · exact h.timStop
  · exact h.set
  · exact h.finalsNow.alnClear
  · exact h.cnvStop.fltRestartAll
  · exact h.foldl fun h => h.set
  · exact h.oscReset
  · exact h.armReset
  · exact h.cusReset
  · exact h.lgcReset
  · exact h.capStopAll.foldl fun h => h.set
  · exact h.ctlReset
  · exact h.set
  · exact h

theorem ModuleStands.unitResumes : ModuleStands s₀ (s.unitResumes i) := by
  unfold State.unitResumes
  split
  · exact h.foldl fun h => h.bringUp
  · exact h.foldl fun h => .ite h.set h
  · exact h.fltRestartAll.refreshExc
  · exact h.fltRestartAll
  · exact .ite h.armStart h
  · exact h.foldl fun h => h.endPending.set
  · exact h.lgcResume
  · exact h

theorem ModuleStands.firmwareRuns : ModuleStands s₀ s.firmwareRuns := (ModuleStands.ite h.set h.set.logEv).logEv
theorem ModuleStands.bootRecord : ModuleStands s₀ s.bootRecord := h.logEv

theorem ModuleStands.waitersReset : ModuleStands s₀ (s.waitersReset i) := by
  unfold State.waitersReset
  extract_lets mine _ _ s₁
  have answered : ModuleStands s₀ s₁ := h.set.foldl fun h => h.answerLater
  split
  · exact .ite answered.set.answerLater answered
  · exact answered

theorem ModuleStands.flushQueued : ModuleStands s₀ (s.flushQueued i) := by
  unfold State.flushQueued
  dsimp only
  refine .foldl (h.set.foldl fun h => ?_) fun h => h.taken (fetchMore_taken _)
  split
  · exact h.kept (answer_keptLogs _ _ _ _ _ _).1
  · exact h

end

end Operations

end Sys2Proof.Laws
end

section
/-! SUPPORT. UNIT_QUIESCE, UNIT_RESET and UNIT_RESUME (R424): a unit's run state and epoch after each. -/

namespace Sys2Proof.Laws

open Sys2Proof.Machine

section Units

variable {s t a : State} {q : Req} {dt role n : Nat}

theorem Kept.unit (h : Kept s t) (n : Nat) : t.unit n = s.unit n := congrArg (fun u => u.unit n) h.1

theorem Kept.drain (h : Kept s t) : t.ctl.drain = s.ctl.drain := congrArg (fun u => u.ctl.drain) h.1

theorem ModuleStands.unit (h : ModuleStands s t) (n : Nat) : t.unit n = s.unit n := congrArg (AMap.getD · n UnitSt.init) h.1

/-- Setting a unit's state sends a notice besides. -/
theorem setUnit_kept (s : State) (n st : Nat) : Kept { s with units := s.units.set n { s.unit n with st := st } } (s.setUnit n st) :=
  (notify_keptLogs _ _ _ _ _).1

theorem dropOld_kept (s : State) (n : Nat) : Kept s (s.dropOld n) :=
  Kept.trans ⟨rfl, List.prefix_rfl⟩ (sendOwed_keptLogs _).1

/-- A new epoch drops what waits of the old one, and is notified and recorded. -/
theorem newEpoch_kept (s : State) (n st : Nat) :
    Kept { s with units := s.units.set n { epoch := (s.unit n).epoch + 1, st := st } } (s.newEpoch n st) :=
  .trans (t := { s with
      units := s.units.set n { epoch := (s.unit n).epoch + 1, st := st }
      ctl := { s.ctl with noticeSeq := if n = 0x0C then [] else s.ctl.noticeSeq } }) ⟨rfl, List.prefix_rfl⟩
    (((dropOld_kept _ n).trans (notify_keptLogs _ _ _ _ _).1).trans (logEv_kept _ _ _ _ _))

theorem unit_setUnit (s : State) (n st : Nat) : (s.setUnit n st).unit n = { s.unit n with st := st } :=
  ((setUnit_kept s n st).unit n).trans (unit_setUnit_self s n _)

theorem unit_newEpoch (s : State) (n st : Nat) : (s.newEpoch n st).unit n = { epoch := (s.unit n).epoch + 1, st := st } :=
  ((newEpoch_kept s n st).unit n).trans (unit_setUnit_self s n _)

/-! ### UNIT_QUIESCE -/

/-- The drain of a unit goes out of the list with its end. -/
theorem filter_drain_ne (l : List (Nat × Req × Nat)) (n : Nat) : ∀ e ∈ l.filter (fun x => x.1 != n), e.1 ≠ n :=
  fun _ listed => by simpa using (List.mem_filter.mp listed).2

/-- The unit is quiesced and its request answered; that changes no drain. -/
theorem quiesced_answered (s : State) (q : Req) (n : Nat) :
    let u := (s.setUnit n 1).answerLater q 0x0A00 n (0, [])
    (u.unit n).st = 1 ∧ u.ctl.drain = s.ctl.drain := by
  have kept := (setUnit_kept s n 1).trans (answerLater_keptLogs _ q 0x0A00 n (0, [])).1
  exact ⟨congrArg UnitSt.st ((kept.unit n).trans (unit_setUnit_self s n _)), kept.drain⟩

/-- A drain that is over stops its unit and goes out of the list. -/
theorem quiesceDrained_unit {d : Nat × Req × Nat}
    (ended : a.ctl.drain.find? (fun d => a.drained d.1 d.2.2 && !a.ofActivation d) = some d) :
    (a.quiesceDrained.unit d.1).st = 1 ∧ ∀ e ∈ a.quiesceDrained.ctl.drain, e.1 ≠ d.1 := by
  rw [State.quiesceDrained, ended]
  dsimp only
  obtain ⟨stopped, drain⟩ := quiesced_answered _ d.2.1 d.1
  exact ⟨stopped, drain ▸ filter_drain_ne _ _⟩

/-! ### UNIT_RESET -/

/-- The epoch advances once, and the units from 0x0C on run again. -/
theorem unit_resetUnit (s : State) (n : Nat) : (s.resetUnit n).unit n = { epoch := (s.unit n).epoch + 1, st := afterReset n } := by
  unfold State.resetUnit
  extract_lets s₁ s₂ s₃
  have before : ModuleStands s s₁ :=
    .ite (ModuleStands.refl s).journalCommit (.ite ((ModuleStands.refl s).kept (flushLogs_kept s)) (.refl s))
  clear_value s₁
  have after : ModuleStands ((s₁.clearCounters n).newEpoch n 2) s₃ :=
    (ModuleStands.refl ((s₁.clearCounters n).newEpoch n 2)).poisonFlight.unitDiscards.waitersReset
  clear_value s₃
  have reset : s₃.unit n = { epoch := (s.unit n).epoch + 1, st := 2 } := by
    rw [after.unit, unit_newEpoch, (ModuleStands.refl s₁).clearCounters.unit, before.unit]
  split
  · next runs => rw [unit_setUnit, reset, runs]
  · next stays =>
    have away : afterReset n = 2 := by
      unfold afterReset at stays ⊢
      split at stays
      · exact absurd rfl stays
      · next low => exact if_neg low
    rw [reset, away]

/-- Serving an admitted request ends in what its body makes of the state, but for the answer. -/
theorem serve_kept {u : State} {op unit least need : Nat} {uc : Bool} {body : Nat → State → State × Option Ans} {o : Option Ans}
    (adm : Admitted s q op unit least need uc t role) (run : body role t = (u, o)) (short : ∀ x, o = some x → x.2.length ≤ 10) :
    Kept u (s.serve q op unit least need uc body) := by
  cases o with
  | none =>
    rw [serve_later adm run]
    split
    · exact .refl u
    · exact (owe_keptLogs _ _ _ _).1
  | some x =>
    rw [serve_answers adm run (fits_of_short (short x rfl))]
    exact (answer_keptLogs _ _ _ _ _ _).1

/-- A reset is answered under the new epoch, or counted where it has ended the request's session (R392). -/
theorem exec_unitReset (adm : Admitted (s.advance dt) q 0x0A01 (namedUnit (q.w 4)) 1 1 false t role) (at_ : q.bits 4 7 0 = n)
    (named : unitNamed n = true) (idle : (t.unit n).st ≠ 3) :
    ∃ v, exec (.unitReset dt q) s = .next v ∧ Kept ((t.resetUnit n).flushQueued n) v := by
  refine ⟨_, rfl, ?_⟩
  by_cases stands : ((((t.resetUnit n).flushQueued n).sessionKey q).isSome || (t.sessionKey q).isNone) = true
  · refine serve_kept (o := ok [BitVec.ofNat 32 (((t.resetUnit n).flushQueued n).unit n).epoch.toNat]) adm ?_ ?_
    · simp only [at_, named, Bool.not_true, Bool.false_eq_true, if_false, if_neg idle, stands, if_true]
    · rintro x ⟨⟩
      exact Nat.le_add_left 1 9
  · refine (count_keptLogs _ 0x0C07 0 1).1.trans (serve_kept (o := none) adm ?_ nofun)
    simp only [at_, named, Bool.not_true, Bool.false_eq_true, if_false, if_neg idle, stands]

theorem unit_flushQueued_resetUnit (s : State) (n : Nat) :
    ((s.resetUnit n).flushQueued n).unit n = { epoch := (s.unit n).epoch + 1, st := afterReset n } :=
  ((ModuleStands.refl _).flushQueued.unit n).trans (unit_resetUnit s n)

/-! ### UNIT_RESUME -/

theorem unit_resumed (s : State) (n : Nat) : ((s.setUnit n 0).unitResumes n).unit n = { s.unit n with st := 0 } :=
  ((ModuleStands.refl _).unitResumes.unit n).trans (unit_setUnit s n 0)

/-- A unit that is quiesced or in reset runs again. -/
theorem exec_unitResume (adm : Admitted (s.advance dt) q 0x0A02 (namedUnit (q.w 4)) 1 1 false t role) (at_ : q.bits 4 7 0 = n)
    (named : unitNamed n = true) (stopped : (t.unit n).st = 1 ∨ (t.unit n).st = 2) :
    ∃ v, exec (.unitResume dt q) s = .next v ∧ Kept ((t.setUnit n 0).unitResumes n) v := by
  refine ⟨_, rfl, serve_kept (o := ok []) adm ?_ ?_⟩
  · obtain st | st := stopped
    · simp only [at_, named, st, Bool.not_true, Bool.false_eq_true, if_false]
    · simp only [at_, named, st, Bool.not_true, Bool.false_eq_true, if_false]
  · rintro x ⟨⟩
    exact Nat.zero_le 10

/-! ### The drains that end -/

theorem exec_unitQuiesceDrained (passed : s.advance dt = a) (up : a.up = true) :
    exec (.unitQuiesceDrained dt) s = .next a.quiesceDrained := by
  subst passed
  exact congrArg Host.Outcome.next (if_pos up)

/-- A drain that has outlasted its limit is given up: its request is answered TIMEOUT. -/
theorem exec_unitQuiesceTimeout_late {d : Nat × Req × Nat} (passed : s.advance dt = a) (up : a.up = true)
    (late : a.ctl.drain.find? (fun d => decide (d.2.2 + 1000000 * a.parN Par.CTL.QUIESCE_MAX_MS 0 ≤ a.now) && !a.ofActivation d)
      = some d) :
    exec (.unitQuiesceTimeout dt) s =
      .next (({ a with ctl := { a.ctl with drain := a.ctl.drain.filter (fun x => x.1 != d.1) } } : State).answerLater d.2.1
        0x0A00 d.1 (0x0119, [detail 0xFFFF 0])) := by
  change execUnitQuiesceTimeout dt s = _
  unfold execUnitQuiesceTimeout
  dsimp only
  rw [passed, late]
  exact congrArg Host.Outcome.next (if_pos up)

theorem exec_unitQuiesceTimeout_none (passed : s.advance dt = a) (empty : a.ctl.drain = []) :
    exec (.unitQuiesceTimeout dt) s = .next a := by
  change execUnitQuiesceTimeout dt s = _
  unfold execUnitQuiesceTimeout
  dsimp only
  rw [passed, empty]
  rfl

theorem quiesceDrained_of_none (empty : a.ctl.drain = []) : a.quiesceDrained = a := by
  rw [State.quiesceDrained, empty]
  rfl

end Units

/-- Settles O58: each command's answer is its body's (`serve_owed`, `serve_kept`); a reset advances the epoch once (`unit_resetUnit`),
and what a unit discards, resumes or stops leaves run states and epochs alone (`ModuleStands`). -/
theorem unitsQuiesceResetAndResume : Obligations.UnitsQuiesceResetAndResume := by
  intro s t dt q role n u
  refine ⟨fun adm named => ⟨?denied, ?already, ?drains⟩, fun adm named idle => ?reset, fun adm named => ⟨?resumed, ?running, ?updating⟩,
    fun a d passed up => ⟨?drained, ?timeout, ?none⟩⟩
  case denied =>
    intro control
    refine congrArg Host.Outcome.next (serve_turnedAway adm ?_)
    simp only [show q.bits 4 7 0 = n from rfl, control]
    rfl
  case already =>
    intro free quiesced
    refine congrArg Host.Outcome.next (serve_ok_short adm ?_ (Nat.zero_le 10))
    simp only [show q.bits 4 7 0 = n from rfl, named, free, quiesced, Bool.not_true, Bool.false_eq_true, if_false, if_true]
  case drains =>
    intro free other runs clear on
    have idle : (t.ctl.drain.any fun d => d.1 == n) = false := by simpa using clear
    refine congrArg Host.Outcome.next (serve_owed adm ?_ rfl on)
    simp only [show q.bits 4 7 0 = n from rfl, named, free, runs, idle, other, Bool.not_true, Bool.false_eq_true, if_false]
  case reset =>
    obtain ⟨v, runs, kept⟩ := exec_unitReset adm rfl named idle
    have unit := (kept.unit n).trans (unit_flushQueued_resetUnit t n)
    exact ⟨v, runs, congrArg UnitSt.epoch unit, congrArg UnitSt.st unit⟩
  case resumed =>
    intro stopped
    obtain ⟨v, runs, kept⟩ := exec_unitResume adm rfl named stopped
    have unit := (kept.unit n).trans (unit_resumed t n)
    exact ⟨v, runs, congrArg UnitSt.st unit, (congrArg UnitSt.epoch unit :)⟩
  case running =>
    intro st
    refine congrArg Host.Outcome.next (serve_turnedAway adm ?_)
    simp only [show q.bits 4 7 0 = n from rfl, named, st]
    rfl
  case updating =>
    intro st
    refine congrArg Host.Outcome.next (serve_turnedAway adm ?_)
    simp only [show q.bits 4 7 0 = n from rfl, named, st]
    rfl
  case drained => exact fun ended => ⟨_, exec_unitQuiesceDrained passed up, quiesceDrained_unit ended⟩
  case timeout => exact exec_unitQuiesceTimeout_late passed up
  case none =>
    intro empty
    exact ⟨(exec_unitQuiesceDrained passed up).trans (congrArg Host.Outcome.next (quiesceDrained_of_none empty)),
      exec_unitQuiesceTimeout_none passed empty⟩

end Sys2Proof.Laws
end

section
/-! SUPPORT. Firmware (R420 to R423): what FW_STAGE, FW_VERIFY, FW_ACTIVATE and FW_INFO answer, and the end of an activation. -/

namespace Sys2Proof.Laws

open Sys2Proof.Machine

section Firmware

variable {s t a : State} {q : Req} {dt role k : Nat}

/-! ### FW_STAGE, FW_VERIFY, FW_INFO -/

/-- The bank after a first chunk: what the chunk holds, which is less than the whole image (R422). -/
theorem fwStage_first (first : (q.w 4).toNat = 0) (least : 256 ≤ (q.w 5).toNat) (most : (q.w 5).toNat ≤ 28311552)
    (words : 4 ≤ (q.w 6).toNat) (whole : (q.w 6).toNat % 4 = 0) (short : (q.w 6).toNat ≤ 65000)
    (held : (q.w 6).toNat ≤ 4 * (q.payload.length - 3)) (more : (q.w 6).toNat < (q.w 5).toNat)
    (length : (q.bytes 7 (q.w 6).toNat).length = (q.w 6).toNat) :
    t.fwStage q =
      (let c := t.setBank t.idleBank { bytes := q.bytes 7 (q.w 6).toNat, auth := false, verified := false }
       { c with pwr := { c.pwr with stage := some ((q.w 5).toNat, (q.w 6).toNat) } }, ok [BitVec.ofNat 32 (q.w 6).toNat]) := by
  have partly : decide ((q.w 5).toNat ≤ (q.w 6).toNat) = false := by simpa using more
  unfold State.fwStage
  dsimp only
  rw [if_neg (by omega), if_neg (by omega), if_neg (by simp [first])]
  simp only [first, if_true, List.nil_append, length, partly, Bool.false_and]

/-! ### FW_ACTIVATE (R422, R423) -/

/-- The units of the idle bank's update that run drain; the control complex and unit 0x0F do not. -/
abbrev markedUnits (t : State) : List Nat :=
  unitIds.filter (fun u => (bitsOf ((t.bankOf t.idleBank).word 16) 15 0).testBit u && t.runs u && u != 0x0C && u != 0x0F)

/-- The active-bank record names the idle bank, and the marked units' drains have begun. -/
abbrev activating (t : State) (q : Req) : State := { t with
  pwr := { t.pwr with activeRec := t.idleBank, fwNew := true, activate := some (q, bitsOf ((t.bankOf t.idleBank).word 16) 15 0) }
  ctl := { t.ctl with drain := t.ctl.drain ++ (markedUnits t).map (fun (u : Nat) => (u, q, t.now)) } }

theorem activateFault_of_unverified (unverified : (t.bankOf t.idleBank).verified = false) : t.activateFault = some 0x010E := by
  unfold State.activateFault
  dsimp only
  rw [if_pos (by simp [unverified])]

theorem exec_fwActivate_refused {f : Nat} (adm : Admitted (s.advance dt) q 0x0902 0x0C 2 1 true t role)
    (fault : t.activateFault = some f) : exec (.fwActivate dt q) s = .next (turnedAway t q 0x0902 0x0C f 0) := by
  refine congrArg Host.Outcome.next (serve_turnedAway adm ?_)
  simp only [fault]
  rfl

theorem exec_fwActivate_later (adm : Admitted (s.advance dt) q 0x0902 0x0C 2 1 true t role) (good : t.activateFault = none)
    (later : (q.w 4).getLsbD 0 = false) : exec (.fwActivate dt q) s = .next (replied t
      { t with pwr := { t.pwr with activeRec := t.idleBank, fwNew := true } } q 0x0902 0x0C [0]) := by
  refine congrArg Host.Outcome.next (serve_ok_short adm ?_ (Nat.le_add_left 1 9))
  simp only [good, later, Bool.false_and, Bool.false_eq_true, if_false]

theorem exec_fwActivate_now (adm : Admitted (s.advance dt) q 0x0902 0x0C 2 1 true t role) (good : t.activateFault = none)
    (now : (q.w 4).getLsbD 0 = true) (booted : t.pwr.dev ≠ .boot) : exec (.fwActivate dt q) s = .next (replied t
      (if (markedUnits t).contains 4 then (activating t q).drainFinals else activating t q) q 0x0902 0x0C
      [BitVec.ofNat 32 ((t.unit 0x0C).epoch +
        (if (bitsOf ((t.bankOf t.idleBank).word 16) 15 0).testBit 0x0C then 1 else 0)).toNat]) := by
  refine congrArg Host.Outcome.next (serve_ok_short adm ?_ (Nat.le_add_left 1 9))
  have on : (t.pwr.dev != .boot) = true := bne_iff_ne.mpr booted
  simp only [good, now, on, Bool.and_self, if_true]
  rfl

/-! ### The end of an activation -/

/-- No activation is in progress, and bank `k` runs. -/
def RunsBank (k : Nat) (s : State) : Prop := s.pwr.activate = none ∧ s.pwr.bank = k

theorem RunsBank.stands (h : RunsBank k s) (m : ModuleStands s t) : RunsBank k t := by
  obtain ⟨-, bank, activate, -, -⟩ := m
  exact ⟨activate.trans h.1, bank.trans h.2⟩

theorem Kept.runsBank (m : Kept s t) (h : RunsBank k s) : RunsBank k t := h.stands ((ModuleStands.refl s).kept m)

theorem RunsBank.setUnit (h : RunsBank k s) (n st : Nat) : RunsBank k (s.setUnit n st) := (setUnit_kept s n st).runsBank h

theorem RunsBank.newEpoch (h : RunsBank k s) (n st : Nat) : RunsBank k (s.newEpoch n st) := (newEpoch_kept s n st).runsBank h

theorem RunsBank.updateUnit (h : RunsBank k s) (begun n : Nat) : RunsBank k (s.updateUnit begun n) := by
  unfold State.updateUnit
  extract_lets st s₁ s₂
  have stopped : RunsBank k s₁ := by
    dsimp only [s₁]
    split
    · exact h.stands (ModuleStands.refl s).unitStops
    · exact h
  clear_value s₁
  have renewed : RunsBank k s₂ := (stopped.setUnit n 3).newEpoch n st
  clear_value s₂
  split
  · exact renewed.stands (ModuleStands.refl s₂).unitResumes
  · exact renewed

theorem RunsBank.updateUnits (h : RunsBank k s) (begun : Nat) (l : List Nat) :
    RunsBank k (l.foldl (fun s u => s.updateUnit begun u) s) := by
  induction l generalizing s with
  | nil => exact h
  | cons n l ih => exact ih (h.updateUnit begun n)

/-- Once every marked unit has drained, the firmware of the active-bank record runs (R423). -/
theorem activated_runsBank (units : Nat) : RunsBank a.pwr.activeRec (a.activated q units) := by
  unfold State.activated
  extract_lets begun _ _ s₁ s₂ s₃ s₄
  have updated : RunsBank a.pwr.activeRec s₂ := .updateUnits ⟨rfl, rfl⟩ _ _
  clear_value s₂
  have last : RunsBank a.pwr.activeRec s₄ := by
    dsimp only [s₄]
    split
    · exact ((updated.setUnit _ _).newEpoch _ _).stands (ModuleStands.refl _).ctlReset.flushQueued
    · exact updated
  exact last.stands (ModuleStands.refl s₄).firmwareRuns.bootRecord

theorem exec_fwActivationDrained {units : Nat} (passed : s.advance dt = a) (activating : a.pwr.activate = some (q, units))
    (up : a.up = true) (ended : ∀ d ∈ a.ctl.drain, a.ofActivation d = true → a.drained d.1 d.2.2 = true) :
    exec (.fwActivationDrained dt) s = .next (a.activated q units) := by
  have all : (a.ctl.drain.filter a.ofActivation).all (fun d => a.drained d.1 d.2.2) = true :=
    List.all_eq_true.mpr fun d listed => ended d (List.mem_filter.mp listed).1 (List.mem_filter.mp listed).2
  change execFwActivationDrained dt s = _
  unfold execFwActivationDrained
  dsimp only
  rw [passed, activating]
  exact congrArg Host.Outcome.next (if_pos (by rw [up, all]; rfl))

end Firmware

/-- Settles O59: each command's answer is its body's (`fwStage_first`, `exec_fwActivate_…`), and whatever the units do as an
activation ends, the bank of the active-bank record runs (`activated_runsBank`). -/
theorem firmwareIsStagedVerifiedActivated : Obligations.FirmwareIsStagedVerifiedActivated := by
  intro s t dt q role b
  refine ⟨fun adm => ⟨?busy, ?staged⟩, fun adm => ⟨?format, ?authentic, ?variant, ?verified⟩,
    fun adm => ⟨fun f => exec_fwActivate_refused adm, activateFault_of_unverified, exec_fwActivate_later adm,
      exec_fwActivate_now adm⟩, fun adm fit => congrArg Host.Outcome.next (serve_ok adm rfl fit), ?drained⟩
  case busy =>
    intro busy
    exact congrArg Host.Outcome.next (serve_turnedAway adm (if_pos (Option.isSome_iff_ne_none.mpr busy)))
  case staged =>
    intro idle first least most words whole short held more length
    refine congrArg Host.Outcome.next (serve_ok_short adm ?_ (Nat.le_add_left 1 9))
    rw [idle]
    exact fwStage_first first least most words whole short held more length
  case format =>
    intro bad
    exact congrArg Host.Outcome.next (serve_turnedAway adm (if_pos (by simp [b, bad])))
  case authentic =>
    intro good bad
    exact congrArg Host.Outcome.next (serve_turnedAway adm ((if_neg (by simp [b, good])).trans (if_pos (by simp [b, bad]))))
  case variant =>
    intro good auth bad
    exact congrArg Host.Outcome.next (serve_turnedAway adm ((if_neg (by simp [b, good])).trans
      ((if_neg (by simp [b, auth])).trans (if_pos (by simp [b, bad])))))
  case verified =>
    intro ws good auth fits fit
    exact congrArg Host.Outcome.next (serve_ok adm ((if_neg (by simp [b, good])).trans
      ((if_neg (by simp [b, auth])).trans (if_neg (by simp [b, fits])))) fit)
  case drained =>
    intro a r units passed activating up ended
    exact ⟨_, exec_fwActivationDrained passed activating up ended, activated_runsBank units⟩

end Sys2Proof.Laws
end

section
/-! SUPPORT. Power and boot (R411, R412, R417, R425 to R428): the bank that the boot ROM takes, what a pass through BOOT begins with, and
the two parts of the power-fail sequence. -/

namespace Sys2Proof.Laws

open Sys2Proof.Machine

section Power

variable {s a v : State} {dt straps cause : Nat}

/-! ### The boot ROM's choice of a bank (R412) -/

theorem selectBank_active (active : s.pwr.bootsel = 0) (good : (s.bankOf s.pwr.activeRec).good s.ident = true) :
    s.selectBank = { s with pwr := { s.pwr with bank := s.pwr.activeRec, fallback := false, recovery := false } } := by
  unfold State.selectBank
  dsimp only
  rw [active]
  exact if_pos good

theorem selectBank_fallback (active : s.pwr.bootsel = 0) (bad : (s.bankOf s.pwr.activeRec).good s.ident = false)
    (good : (s.bankOf (1 - s.pwr.activeRec)).good s.ident = true) :
    s.selectBank = ({ s with pwr := { s.pwr with bank := 1 - s.pwr.activeRec, fallback := true, recovery := false } } : State).count
      0x0C0E 0 1 := by
  unfold State.selectBank
  dsimp only
  rw [active]
  exact (if_neg (by simp [bad])).trans (if_pos good)

theorem selectBank_recovery (active : s.pwr.bootsel = 0) (bad : (s.bankOf s.pwr.activeRec).good s.ident = false)
    (bad' : (s.bankOf (1 - s.pwr.activeRec)).good s.ident = false) :
    s.selectBank = { s with pwr := { s.pwr with bank := s.pwr.activeRec, fallback := false, recovery := true } } := by
  unfold State.selectBank
  dsimp only
  rw [active]
  exact (if_neg (by simp [bad])).trans (if_neg (by simp [bad']))

/-- The two banks are those numbered `k` and `1 - k`. -/
theorem bank_and_other {k : Nat} (known : k ≤ 1) {P : Nat → Prop} (zero : P 0) (one : P 1) : P k ∧ P (1 - k) := by
  obtain rfl | rfl : k = 0 ∨ k = 1 := by omega
  · exact ⟨zero, one⟩
  · exact ⟨one, zero⟩

theorem selectBank_leaves (s : State) : s.selectBank.pwr.dev = s.pwr.dev ∧ s.selectBank.pwr.pfw = s.pwr.pfw ∧
    s.selectBank.pwr.cause = s.pwr.cause ∧ s.selectBank.prt = s.prt ∧ s.selectBank.ctl.flash = s.ctl.flash ∧
    s.selectBank.ctl.cfgSlot = s.ctl.cfgSlot := by
  unfold State.selectBank
  extract_lets good run recover active
  split
  · split
    · exact ⟨rfl, rfl, rfl, rfl, rfl, rfl⟩
    · split <;> exact ⟨rfl, rfl, rfl, rfl, rfl, rfl⟩
  · split <;> exact ⟨rfl, rfl, rfl, rfl, rfl, rfl⟩
  · split <;> exact ⟨rfl, rfl, rfl, rfl, rfl, rfl⟩
  · exact ⟨rfl, rfl, rfl, rfl, rfl, rfl⟩

/-- A pass through BOOT begins in BOOT, out of the power-fail sequence, with the cause given and the configuration in flash as it was. -/
theorem startBoot_begins (s : State) (cause : Nat) : (s.startBoot cause).pwr.dev = .boot ∧ (s.startBoot cause).pwr.pfw = false ∧
    (s.startBoot cause).pwr.cause = cause ∧ (s.startBoot cause).prt.wakeCause = (if cause = 2 then s.prt.wakeCause else 0) ∧
    (s.startBoot cause).ctl.flash = s.ctl.flash ∧ (s.startBoot cause).ctl.cfgSlot = s.ctl.cfgSlot := by
  unfold State.startBoot
  extract_lets t
  obtain ⟨dev, pfw, cause', prt, flash, slot⟩ := selectBank_leaves { t with
    pwr := { t.pwr with cause := cause }, prt := { t.prt with wakeCause := if cause = 2 then s.prt.wakeCause else 0 } }
  exact ⟨dev, pfw, cause', congrArg (·.wakeCause) prt, flash, slot⟩

theorem exec_resetNRelease (passed : s.advance dt = a) (low : a.pwr.resetLow = true) :
    exec (.resetNRelease dt straps) s = .next
      ({ a with pwr := { a.pwr with supplies := true, resetLow := false, bootsel := straps % 4 } } : State).selectBank := by
  change execResetNRelease dt straps s = _
  unfold execResetNRelease
  dsimp only
  rw [passed, if_pos low]

/-! ### The power-fail sequence (R252, R426) -/

theorem up_not_saving (up : a.up = true) : a.saving = false := by
  simp only [State.up, Bool.and_eq_true, Bool.not_eq_true'] at up
  simp [State.saving, up.2]

theorem saving_pfw (saving : a.saving = true) : a.pwr.pfw = true := by
  simp only [State.saving, Bool.and_eq_true] at saving
  exact saving.1.2

theorem lgcSuspend_leaves (s : State) :
    s.lgcSuspend.pwr = s.pwr ∧ s.lgcSuspend.ctl = s.ctl ∧ s.lgcSuspend.tim = s.tim := by
  unfold State.lgcSuspend
  split
  · split <;> exact ⟨rfl, rfl, rfl⟩
  · exact ⟨rfl, rfl, rfl⟩

/-- PFW_N's fall is stamped and begins the sequence; nothing else of the power state changes. -/
theorem powerEdge_begins (s : State) : s.powerEdge.pwr = { s.pwr with pfw := true } ∧ s.powerEdge.cus.pfwStamp = some s.now ∧
    s.powerEdge.ctl = (s.count 0x0C0F 0 1).ctl := by
  obtain ⟨pwr, ctl, tim⟩ := lgcSuspend_leaves (s.count 0x0C0F 0 1)
  exact ⟨congrArg (fun p : Pwr => { p with pfw := true }) pwr, congrArg (fun t : Tim => some t.now) tim, ctl⟩

theorem ctr_count_self {id inst : Nat} (rising : s.ctl.counters.wf = true) (room : s.ctr id inst < 2 ^ 64 - 1) :
    (s.count id inst 1).ctr id inst = s.ctr id inst + 1 :=
  (ctr_setCtr_self rising).trans (Nat.min_eq_left room)

/-- The state in which the totals of the power-fail sequence have been saved. -/
abbrev powerTotals (a : State) (t : Nat) : State := ((a.stepsEnd t).lgcOff).cusSave 1 (some t)

/-- After the totals the sequence sends and logs, and then writes the patina counters, OPSEC and its own end. -/
theorem powerSave_ends (a : State) : ∃ v, Kept (powerTotals a (a.cus.pfwStamp.getD a.now)) v ∧
    a.powerSave = { v.savePatina with
      pwr := { v.savePatina.pwr with pfwSaved := true }, tim := { v.savePatina.tim with ppsOut := false } } := by
  unfold State.powerSave
  extract_lets t b n c d e f
  have warned : Kept b c := by
    dsimp only [c]
    split
    · exact (noticeTo_keptLogs _ _ _).1
    · exact .refl b
  exact ⟨e, (((warned.trans (endFreeze_kept _ _ _)).trans (endFreeze_kept _ _ _)).trans (logEv_kept _ _ _ _ _)).trans
    (flushLogs_kept _), rfl⟩

theorem powerTotals_pwr (a : State) (t : Nat) : (powerTotals a t).pwr = a.pwr :=
  (Reaches.still (Reaches.here.stepsEnd.lgcOff.cusSave)).1

theorem ModuleStands.powerSave (a : State) : ModuleStands a a.powerSave := by
  obtain ⟨v, sent, ends⟩ := powerSave_ends a
  have saved : ModuleStands a v := (ModuleStands.refl a).stepsEnd.lgcOff.cusSave.kept sent
  rw [ends]
  exact saved

end Power

/-- Settles O26: each row is its branch; a reset is what BOOT leaves (`State.rebooted`), the bank is `selectBank`'s, the sequence's end is
`powerSave_ends`, and a return or a wake begins a pass through BOOT (`startBoot_begins`). -/
theorem resetPowerFailAndSleep : Obligations.ResetPowerFailAndSleep := by
  refine ⟨fun s a dt passed => ⟨?up, ?low⟩, fun s a dt straps passed low known sampled => ?release,
    fun s a dt passed => ⟨?edge, ?save, ?boot, ?ignored, ?back⟩, fun s a dt port bytes passed asleep => ⟨?exit, ?frame, ?other⟩⟩
  case up =>
    intro down
    change execPowerUp dt s = _
    unfold execPowerUp
    dsimp only
    rw [passed, if_neg (by simp [down])]
  case low =>
    intro up
    refine ⟨a.resetLow true, a.resetLow false, ?_, ?_, rfl, rfl, rfl, rfl, rfl, rfl, fun k => rfl, rfl, rfl, rfl, rfl, rfl, rfl, rfl, rfl,
      rfl, rfl, rfl, rfl, rfl, rfl, rfl, rfl⟩
    · subst passed
      exact congrArg Host.Outcome.next (if_pos up)
    · subst passed
      exact congrArg Host.Outcome.next (if_pos up)
  case release =>
    intro b
    have straight : exec (.resetNRelease dt straps) s = .next b.selectBank := by
      rw [exec_resetNRelease passed low, sampled]
    refine ⟨fun good => straight.trans ?_, fun bad good => straight.trans ?_, fun bad bad' => straight.trans ?_⟩
    · exact congrArg Host.Outcome.next (selectBank_active rfl good)
    · exact congrArg Host.Outcome.next (selectBank_fallback rfl bad good)
    · obtain ⟨active, other⟩ := bank_and_other known (P := fun k => (a.bankOf k).good a.ident = false) bad bad'
      exact congrArg Host.Outcome.next (selectBank_recovery rfl active other)
  case edge =>
    intro up
    obtain ⟨pwr, stamp, ctl⟩ := powerEdge_begins a
    have falls : exec (.pfwNFall dt) s = .next a.powerEdge := by
      change execPfwNFall dt s = _
      unfold execPfwNFall
      dsimp only
      rw [passed, if_neg (by simp [up_not_saving up]), if_pos up]
    refine ⟨_, falls, by rw [pwr], stamp, by rw [pwr], by simp [State.measuring, pwr], by simp [State.up, pwr], fun rising room => ?_⟩
    exact (congrArg (fun c : Ctl => c.counters.getD (parKey 0x0C0F 0) 0) ctl).trans (ctr_count_self rising room)
  case save =>
    intro t saving stamp b
    obtain ⟨v, sent, ends⟩ := powerSave_ends a
    have falls : exec (.pfwNFall dt) s = .next a.powerSave := by
      change execPfwNFall dt s = _
      unfold execPfwNFall
      dsimp only
      rw [passed, if_pos saving]
    rw [stamp] at sent
    have low : v.pwr.pfw = true := by
      obtain ⟨-, -, pwr, -⟩ := sent.fields
      rw [pwr, powerTotals_pwr]
      exact saving_pfw saving
    rw [falls, ends]
    refine ⟨_, rfl, rfl, congrArg (·.copyA) sent.cus, congrArg (·.copyB) sent.cus, rfl, rfl, ?_, fun k => ?_, rfl⟩
    · simp [State.healthy, State.savePatina, low]
    · simp [State.alm, State.measuring, State.savePatina, low]
  case boot =>
    intro boot unloaded powered released
    change execPfwNFall dt s = _
    unfold execPfwNFall
    dsimp only
    rw [passed, if_neg (by simp [State.saving, boot]), if_neg (by simp [State.up, boot]),
      if_pos (by simp [boot, unloaded, powered, released])]
  case ignored =>
    intro off
    change execPfwNFall dt s = _
    unfold execPfwNFall
    dsimp only
    rw [passed]
    obtain off | off := off <;>
      rw [if_neg (by simp [State.saving, off]), if_neg (by simp [State.up, off]), if_neg (by simp [off])]
  case back =>
    intro low powered released
    have returns : exec (.pfwNReturn dt) s = .next ((if a.saving then a.powerSave else a).startBoot 0) := by
      change execPfwNReturn dt s = _
      unfold execPfwNReturn
      dsimp only
      rw [passed, if_pos (by simp [low, powered, released])]
    obtain ⟨-, -, -, flash, slot⟩ : ModuleStands a (if a.saving then a.powerSave else a) := .ite (.powerSave a) (.refl a)
    obtain ⟨dev, pfw, cause, -, flash', slot'⟩ := startBoot_begins (if a.saving then a.powerSave else a) 0
    exact ⟨_, returns, dev, pfw, cause, flash'.trans flash, slot'.trans slot⟩
  case exit =>
    intro linked
    obtain ⟨dev, -, cause, wake, -⟩ := startBoot_begins { a with prt := { a.prt with wakeCause := 0 } } 2
    refine ⟨_, ?_, dev, cause, wake⟩
    change execPcieL1ExitWake dt s = _
    unfold execPcieL1ExitWake
    dsimp only
    rw [passed, if_pos (by simp [asleep, linked])]
  case frame =>
    intro linked good met
    obtain ⟨dev, -, cause, wake, -⟩ := startBoot_begins { a with
      prt := { a.prt with wakeCause := BitVec.ofNat 32 (port % 32 * 65536 + a.wakeBits port bytes) } } 2
    refine ⟨_, ?_, dev, cause, wake⟩
    change execWakeFrame dt port bytes s = _
    unfold execWakeFrame
    dsimp only
    rw [passed, if_pos (by simp [asleep, linked, good, met])]
  case other =>
    intro unmet
    change execWakeFrame dt port bytes s = _
    unfold execWakeFrame
    dsimp only
    rw [passed]
    obtain bad | none := unmet
    · rw [if_neg (by simp [bad])]
    · rw [if_neg (by simp [none])]

end Sys2Proof.Laws
end

section
/-! SUPPORT. The carriages (R36, R37, R39, R40, R406, R419): the rings after PE_PERST_N, the first words of a packet that fails its
framing, and the TCP engine's answers to a SYN. -/

namespace Sys2Proof.Laws

open Sys2Proof.Machine

section Rings

variable {s a : State} {n m : Nat} {l : List Nat}

/-! ### The reset of the host link (R419) -/

/-- A ring that the reset of the host link has passed. -/
def RingIdle (r : Ring) : Prop := r.enable = false ∧ r.posted = [] ∧ r.waiting = []

/-- The reset of one ring: what waits on it is dropped and it is disabled. -/
abbrev ringReset (s : State) (n : Nat) : State := (s.setRing n { s.ring n with waiting := [] }).disableRing n

theorem ringReset_wf (rising : s.ctl.rings.wf = true) : (ringReset s n).ctl.rings.wf = true :=
  AMap.wf_put _ _ _ (AMap.wf_put _ _ _ rising)

theorem ringReset_self (rising : s.ctl.rings.wf = true) : RingIdle ((ringReset s n).ring n) := by
  have dropped : (s.setRing n { s.ring n with waiting := [] }).ring n = { s.ring n with waiting := [] } :=
    AMap.getD_put_self _ _ _ rising
  have disabled : (ringReset s n).ring n = { (s.setRing n { s.ring n with waiting := [] }).ring n with
      enable := false, posted := [], sends := []
      producer := (((s.setRing n { s.ring n with waiting := [] }).ring n).head +
        ((s.setRing n { s.ring n with waiting := [] }).ring n).inFlight) %
        max ((s.setRing n { s.ring n with waiting := [] }).ring n).size.toNat 1 } :=
    AMap.getD_put_self _ _ _ (AMap.wf_put _ _ _ rising)
  rw [disabled, dropped]
  exact ⟨rfl, rfl, rfl⟩

theorem ringReset_ne (other : m ≠ n) : (ringReset s n).ring m = s.ring m :=
  (AMap.getD_put_ne _ _ _ _ other).trans (AMap.getD_put_ne _ _ _ _ other)

theorem disableRing_eq (s : State) (n : Nat) : ∃ rings unfetched,
    s.disableRing n = { s with ctl := { s.ctl with rings := rings, unfetched := unfetched } } :=
  ⟨(s.disableRing n).ctl.rings, (s.disableRing n).ctl.unfetched, rfl⟩

theorem ringReset_eq (s : State) (n : Nat) : ∃ rings unfetched,
    ringReset s n = { s with ctl := { s.ctl with rings := rings, unfetched := unfetched } } := by
  unfold ringReset
  generalize { s.ring n with waiting := [] } = r
  obtain ⟨rings, unfetched, eq⟩ := disableRing_eq (s.setRing n r) n
  exact ⟨rings, unfetched, eq⟩

/-- Resetting the rings listed writes the rings and the descriptors not yet fetched, and nothing else. -/
theorem ringsReset_eq (s : State) (l : List Nat) : ∃ rings unfetched,
    l.foldl ringReset s = { s with ctl := { s.ctl with rings := rings, unfetched := unfetched } } := by
  induction l generalizing s with
  | nil => exact ⟨_, _, rfl⟩
  | cons n l ih =>
    obtain ⟨rings, unfetched, one⟩ := ringReset_eq s n
    rw [List.foldl_cons, one]
    exact ih _

theorem ringsReset_ring_of_not_mem (unlisted : m ∉ l) : (l.foldl ringReset s).ring m = s.ring m := by
  induction l generalizing s with
  | nil => rfl
  | cons n l ih =>
    obtain ⟨other, unlisted⟩ := not_or.mp (List.mem_cons.not.mp unlisted)
    rw [List.foldl_cons, ih unlisted, ringReset_ne other]

theorem ringsReset_idle (rising : s.ctl.rings.wf = true) (listed : m ∈ l) : RingIdle ((l.foldl ringReset s).ring m) := by
  induction l generalizing s with
  | nil => exact absurd listed List.not_mem_nil
  | cons n l ih =>
    rw [List.foldl_cons]
    by_cases later : m ∈ l
    · exact ih (ringReset_wf rising) later
    · obtain rfl : m = n := (List.mem_cons.mp listed).resolve_right later
      rw [ringsReset_ring_of_not_mem later]
      exact ringReset_self rising

theorem ring_of_unlisted (unlisted : ∀ k ∈ s.ctl.rings, k.1 ≠ n) : s.ring n = Ring.init := by
  have absent : s.ctl.rings.get? n = none := by
    generalize s.ctl.rings = rings at unlisted
    induction rings with
    | nil => rfl
    | cons p rings ih =>
      obtain ⟨other, unlisted⟩ := List.forall_mem_cons.mp unlisted
      exact (if_neg other).trans (ih unlisted)
  exact congrArg (Option.getD · Ring.init) absent

/-- After the reset of the host link no ring is enabled and nothing is posted or waits (R419). -/
theorem linkReset_idle (rising : s.ctl.rings.wf = true) (known : ∀ k ∈ s.ctl.rings, k.1 < 64) (n : Nat) :
    RingIdle (((List.range 64).foldl ringReset s).ring n) := by
  by_cases low : n < 64
  · exact ringsReset_idle rising (List.mem_range.mpr low)
  · rw [ringsReset_ring_of_not_mem (by simpa using low), ring_of_unlisted fun k listed => by have := known k listed; omega]
    exact ⟨rfl, rfl, rfl⟩

end Rings

section Packets

variable {c : Carriage} {bytes : List Byte} {k n st : Nat}

/-! ### The first words of a packet (R31, R40) -/

theorem getD_readWords {big : Bool} (within : k < n) : (readWords big n bytes).getD k 0 =
    BitVec.ofNat 32 (if big then ofBe ((bytes.drop (4 * k)).take 4) else ofLe ((bytes.drop (4 * k)).take 4)) := by
  induction n generalizing k bytes with
  | zero => exact absurd within (Nat.not_lt_zero k)
  | succ n ih =>
    rw [readWords_succ]
    cases k with
    | zero => rfl
    | succ k =>
      rw [List.getD_cons_succ, ih (Nat.lt_of_succ_lt_succ within), List.drop_drop, Nat.add_comm, Nat.mul_succ]

theorem getD_wordsOf (whole : 4 * k + 4 ≤ bytes.length) : (wordsOf c bytes).getD k 0 =
    BitVec.ofNat 32 (if c.big then ofBe ((bytes.drop (4 * k)).take 4) else ofLe ((bytes.drop (4 * k)).take 4)) := by
  have padded : ((padTo (4 * ((bytes.length + 3) / 4)) bytes).drop (4 * k)).take 4 = (bytes.drop (4 * k)).take 4 := by
    have all : bytes.take (4 * ((bytes.length + 3) / 4)) = bytes := List.take_of_length_le (by omega)
    rw [padTo, all, List.drop_append_of_le_length (by omega),
      List.take_append_of_le_length (by rw [List.length_drop]; omega)]
  have read : wordsOf c bytes = readWords c.big ((bytes.length + 3) / 4) (padTo (4 * ((bytes.length + 3) / 4)) bytes) := rfl
  rw [read, getD_readWords (by omega), padded]

/-- A packet cut to its first three words starts with the words of the packet. -/
theorem getD_wordsOf_padTo (long : 12 ≤ bytes.length) (first : k < 3) :
    (wordsOf c (padTo 12 bytes)).getD k 0 = (wordsOf c bytes).getD k 0 := by
  have cut : padTo 12 bytes = bytes.take 12 := by simp [padTo, long]
  have same : ((bytes.take 12).drop (4 * k)).take 4 = (bytes.drop (4 * k)).take 4 := by
    rw [List.drop_take, List.take_take, Nat.min_eq_left (by omega)]
  rw [cut, getD_wordsOf (by rw [List.length_take]; omega), getD_wordsOf (by omega), same]

theorem bitsOf_14_0 (x : Nat) : bitsOf x 14 0 = bitsOf x 15 0 % 0x8000 := by
  simp only [bitsOf]
  omega

/-- The reply to a packet that fails carries the opcode, TAG and SEQUENCE of the packet (R40). -/
theorem badPacketReply_names (s : State) (long : 12 ≤ bytes.length) :
    (s.badPacketReply c bytes st).opcode = (requestOf c bytes).1 % 0x8000 + 0x8000 ∧
    (s.badPacketReply c bytes st).tag = (requestOf c bytes).2.tag ∧ (s.badPacketReply c bytes st).seq = (requestOf c bytes).2.seq := by
  refine ⟨?_, ?_, getD_wordsOf_padTo long (by omega)⟩
  · simp only [State.badPacketReply, requestOf, getD_wordsOf_padTo long (show 0 < 3 by omega), bitsOf_14_0]
  · simp only [State.badPacketReply, requestOf, getD_wordsOf_padTo long (show 1 < 3 by omega)]

end Packets

section Connections

variable {s a : State} {dt port tcpPort use owner k : Nat} {peer : Peer}

/-! ### The TCP engine (R37, R179, R406) -/

theorem exec_tcpConnectionRequest (passed : s.advance dt = a) (up : a.up = true) (linked : a.linkIsUp port = true) :
    exec (.tcpConnectionRequest dt port tcpPort peer) s = .next (a.tcpSyn port tcpPort peer) := by
  change execTcpConnectionRequest dt port tcpPort peer s = _
  unfold execTcpConnectionRequest
  dsimp only
  rw [passed, if_pos (by rw [up, linked]; rfl)]

theorem tcpAccept_of_free (free : a.freeConn = some k) : a.tcpAccept port tcpPort use owner peer = { a with
    ctl := { a.ctl with
      tcp := a.ctl.tcp.set k { peer := peer, port := port, lport := tcpPort, use := use, owner := owner, lastAt := a.now, sent := 0 } }
    out := a.out ++ [.tcpAccept k peer] } := by
  unfold State.tcpAccept
  rw [free]
  rfl

theorem tcpSyn_destination (listens : a.listener port tcpPort = some k) : a.tcpSyn port tcpPort peer =
    if a.ctl.tcp.any (fun c => c.2.use == 2 && c.2.owner == k) then a.emit (.tcpRst peer)
    else a.tcpAccept port tcpPort 2 k peer := by
  unfold State.tcpSyn
  rw [listens]

theorem tcpSyn_command (unheard : a.listener port tcpPort = none) (enabled : a.parB Par.CTL.TCP_ENABLE port = true)
    (own : tcpPort = a.parN Par.CTL.UDP_PORT 0) : a.tcpSyn port tcpPort peer =
    if a.tcpSpare then a.tcpAccept port tcpPort 0 0 peer else (a.count 0x0C0D 0 1).emit (.tcpRst peer) := by
  unfold State.tcpSyn
  rw [unheard]
  exact if_pos (by rw [enabled, own, beq_self_eq_true]; rfl)

end Connections

/-- Settles O23: the reset of the host link is `linkReset_idle` and `ringsReset_eq`; a packet that fails is read no further than its
first words (`badPacketReply_names`), and a SYN meets the branches of `tcpSyn`. -/
theorem carriagesFailAndReset : Obligations.CarriagesFailAndReset := by
  refine ⟨fun s a dt passed => ⟨fun rising known counted => ?reset, ?release⟩,
    fun s a dt c bytes n passed hears quiet => ?packet, fun s a dt bytes passed hears => ⟨?counted, ?other⟩,
    fun s a dt port tcpPort k peer passed up => ⟨?syn, ?idle⟩⟩
  case reset =>
    obtain ⟨rings, unfetched, eq⟩ := ringsReset_eq a (List.range 64)
    have idle := linkReset_idle rising known
    rw [eq] at idle
    have runs : exec (.pePerstNAssert dt) s = .next (({ a with ctl := { a.ctl with
        rings := rings, unfetched := unfetched, linkUp := false, irqHeld := [], latches := [] } } : State).count 0x0C07 0
        (a.ctl.rings.map (fun r => r.2.waiting.length)).sum) := by
      change execPePerstNAssert dt s = _
      unfold execPePerstNAssert
      rw [passed]
      extract_lets p dropped t
      have reset : t = { a with ctl := { a.ctl with rings := rings, unfetched := unfetched } } := eq
      clear_value t
      subst reset
      rfl
    exact ⟨_, runs, rfl, rfl, rfl, idle, rfl, ctr_setCtr_self counted, rfl, rfl, rfl⟩
  case release =>
    subst passed
    rfl
  case packet =>
    intro size b q
    have run : exec (.packetBadFraming dt c n bytes) s = .next ((packetFault c size bytes).elim
        (if requestOps.contains q.1 then a else b.answer (b.sessionKey q.2) q.2 (bitsOf q.1 14 0) 0x0C (0x0100, [detail 0xFFFF 0]))
        (b.badPacket c bytes)) := by
      change execPacketBadFraming dt c n bytes s = _
      unfold execPacketBadFraming
      dsimp only
      rw [passed, if_pos hears, arrive_released quiet]
      split
      · next st fault =>
        rw [show packetFault c size bytes = some st from fault]
        rfl
      · next good =>
        rw [show packetFault c size bytes = none from good]
        rfl
    constructor
    · intro st fault r t
      refine ⟨badPacketReply_names b, rfl, rfl, rfl, rfl, ?_⟩
      rw [run, fault]
      cases c <;> rfl
    · intro good unknown
      rw [run, good]
      exact congrArg Host.Outcome.next (if_neg (by simpa using unknown))
  case counted =>
    intro bad
    change execUartFrameBad dt bytes s = _
    unfold execUartFrameBad
    dsimp only
    rw [passed, if_pos]
    obtain bad | long := bad
    · simp [hears, bad]
    · simp [hears, long]
  case other =>
    intro good short
    change execUartFrameBad dt bytes s = _
    unfold execUartFrameBad
    dsimp only
    rw [passed, if_neg (by simp [good, short])]
  case syn =>
    intro taken linked
    refine ⟨fun i listens => ⟨fun unserved free => ?_, fun ⟨c, held, used, owned⟩ => ?_⟩,
      fun unheard enabled own => ⟨fun spare free => ?_, fun full => ?_⟩⟩
    · rw [exec_tcpConnectionRequest passed up linked, tcpSyn_destination listens, if_neg (by simpa using unserved)]
      exact congrArg Host.Outcome.next (tcpAccept_of_free free)
    · rw [exec_tcpConnectionRequest passed up linked, tcpSyn_destination listens,
        if_pos (List.any_eq_true.mpr ⟨c, held, by simp [used, owned]⟩)]
    · rw [exec_tcpConnectionRequest passed up linked, tcpSyn_command unheard enabled own, if_pos spare]
      exact congrArg Host.Outcome.next (tcpAccept_of_free free)
    · rw [exec_tcpConnectionRequest passed up linked, tcpSyn_command unheard enabled own, if_neg (by simp [full])]
  case idle =>
    intro t conn command quiet
    change execTcpConnectionIdleClose dt k s = _
    unfold execTcpConnectionIdleClose
    dsimp only
    rw [passed, conn]
    exact congrArg Host.Outcome.next (if_pos (by simp [up, command, quiet]))

end Sys2Proof.Laws
end
